-- ==== Sys2Proof/Word.lean ====
section
/-! DEFINITION. The word types of the OV2180: the byte of device memory and of the wire, and the names of the
numbered units (cores, registers, flags, ports, endpoints, engines, parcels) as R8, R72, R83, R220 and R263
count them. -/

namespace Sys2Proof

/-- A byte of device memory or of a wire format (R5). -/
abbrev Byte := BitVec 8

/-- A byte string in ascending memory order. -/
abbrev Bytes := List Byte

/-- Core index, 0 to 1151 (R8). -/
abbrev CoreId := Fin 1152

/-- Scalar register s0 to s31 (R72). -/
abbrev Reg := Fin 32

/-- Flag f0 to f255 (R83). -/
abbrev Flag := Fin 256

/-- External port P0 to P143 (R183). -/
abbrev PortId := Fin 144

/-- Crossbar endpoint index x, 0 to 220 (R220). -/
abbrev EndId := Fin 221

/-- Stream engine 0 to 47 (R263). -/
abbrev EngineId := Fin 48

/-- Parcel 0 to 3 (R17). -/
abbrev ParcelId := Fin 4

/-- Traffic class TC0 to TC7 (R244). -/
abbrev ClassId := Fin 8

end Sys2Proof
end

