-- ==== Sys2Proof/Syntax.lean ====
section
/-! DEFINITION. The commands of the block: one constructor of Instr per row of spec/opcode_table.json, with the
operands the row's effect depends on (the table gives none: log 9 says how they were chosen), and the data types of
those operands. -/

namespace Sys2Proof

/-- A value operand: an immediate or a scalar register read at issue (R86, R87, R90, R458). -/
inductive Src where
  | imm (v : BitVec 64)
  | reg (r : Reg)
  deriving DecidableEq, Repr

/-- A descriptor operand `h` or `h + s` (R458, *Handle offset*). -/
structure HRef where
  h : Src
  off : Option Reg
  deriving DecidableEq, Repr

/-- The four engine queues (R73), in the order of R107. -/
inductive Queue where
  | mxe | vxe | spe | txe
  deriving DecidableEq, Repr

/-- What every queued operation carries besides its operands: the issuing core, whether a Xaisk routine issues it
(R76, R83), its gate (R86) and its completion flag (R83). -/
structure Issue where
  core : CoreId
  routine : Bool
  gate : Option (Flag × Src)
  comp : Option Flag
  deriving DecidableEq, Repr

/-- Conditions of `flag.wait` (R87). -/
inductive WaitCond where
  | ge | eq
  deriving DecidableEq, Repr

/-- Conditions of `skip.if` (R91). -/
inductive SkipCond where
  | eq | ne | ge | lt
  deriving DecidableEq, Repr

/-- The axis of `mxe.mmg` (R121). -/
inductive GatherAxis where
  | k | m
  deriving DecidableEq, Repr

/-- The operations of `vxe.red` (R129). -/
inductive RedOp where
  | sum | sumsq | max | min | amax
  deriving DecidableEq, Repr

/-- A Renensan packet: the header fields of R191, the 32-byte extension of R193 (0 when EXT is 0) and the payload. -/
structure Packet where
  ver : BitVec 4
  op : BitVec 3
  resp : Bool
  tc : BitVec 3
  hop : BitVec 3
  route : BitVec 2
  cm : Bool
  detour : Bool
  ext : Bool
  ceEcho : Bool
  status : BitVec 8
  rsvd : BitVec 4
  dst : BitVec 20
  dstCore : BitVec 12
  src : BitVec 20
  srcCore : BitVec 12
  job : BitVec 16
  tag : BitVec 16
  len : BitVec 16
  addr : BitVec 64
  arg : BitVec 48
  extn : BitVec 256
  payload : Bytes
  deriving DecidableEq, Repr

/-- Where a received packet came from: the port it arrived on (none for a packet of this device), and for a service
port the peer's IPv6 address and UDP port (R211, R213) and source MAC (R210). -/
structure RxAt where
  port : Option PortId
  peerAddr : BitVec 128
  peerPort : BitVec 16
  peerMac : BitVec 48
  deriving DecidableEq, Repr

/-- A memory error that the accesses of a command meet (R167): a location, and whether it is correctable. -/
structure MemErr where
  addr : BitVec 44
  corrected : Bool
  deriving DecidableEq, Repr

/-- Timing of an engine operation that the manual does not fix (R117, R135, R147, R148, R150): the numbers its
timing-only counters take (log 9). -/
structure EngineReport where
  cycles : Nat
  prescanWait : Nat
  mxeBusy : Nat
  watchBusy : List Nat
  denseKept : Nat
  steals : Nat
  bankStall : Nat
  bankQueued : Nat
  handoffDelay : Nat
  deriving DecidableEq, Repr

/-- The sender of a packet that was answered RING_FULL (R97, R275). -/
inductive Sender where
  | core (c : CoreId) (tag : BitVec 16)
  | engine (j : EngineId) (tag : BitVec 16)
  deriving DecidableEq, Repr

/-- An Ethernet frame received on a service port, as R210, R211, R255 and R256 examine it. -/
structure EthFrame where
  fcsOk : Bool
  bytes : Nat
  vid : Option (BitVec 12)
  stacked : Bool
  ipv6 : Bool
  extHeaders : Bool
  udp : Bool
  srcMac : BitVec 48
  srcAddr : BitVec 128
  dstAddr : BitVec 128
  udpSrc : BitVec 16
  udpDst : BitVec 16
  csumOk : Bool
  ecn : BitVec 2
  dscp : BitVec 6
  payload : Bytes
  deriving DecidableEq, Repr

/-- The IEEE 1588 Announce fields that R339 to R341 use. -/
structure PtpAnnounce where
  domain : BitVec 8
  sender : BitVec 80
  gmIdentity : BitVec 64
  clockClass : BitVec 8
  stepsRemoved : BitVec 16
  utcOffset : BitVec 16
  leap : BitVec 8
  /-- the data set the standard's algorithm compares, as one number (log 16) -/
  dataset : Nat
  deriving DecidableEq, Repr

/-- The supplies whose validity the device waits for (R417). -/
inductive Rail where
  | vaux33 | vio18
  deriving DecidableEq, Repr

/-- The role of a dictionary access (R406). -/
inductive Role where
  | read | operate | security
  deriving DecidableEq, Repr

/-- The functions of R393; parcel n is function 0x08 + n. -/
inductive Function where
  | mgmt | security | power | time | fabric | bulk | near
  | parcel (n : ParcelId)
  deriving DecidableEq, Repr

/-- A memory controller: near-tier stack s or bulk channel m (R182). -/
inductive Controller where
  | stack (s : Fin 12)
  | channel (m : Fin 16)
  deriving DecidableEq, Repr

/-- The client's address and UDP port of a DAP datagram (R400). -/
structure DapClient where
  addr : BitVec 128
  port : BitVec 16
  deriving DecidableEq, Repr

/-- What one optics module answered in a cycle (R454): its port, whether it acknowledged, which monitors it
advertises, the raw power counts of module lanes 1 to 4, its low alarm, its temperature and its supply voltage. -/
structure OpticReading where
  port : PortId
  present : Bool
  rxAdvertised : Bool
  txAdvertised : Bool
  rx : List Nat
  tx : List Nat
  rxLowAlarm : Nat
  temperature : Nat
  voltage : Nat
  deriving DecidableEq, Repr

/-- One lane's eye measurement in a level run (R374, R383). -/
structure LaneEye where
  port : PortId
  lane : Fin 4
  height : BitVec 16
  width : BitVec 16
  deriving DecidableEq, Repr

/-- The measurements of a level run that come from on-die monitors (R374): droop in 0.1 %, timing margin in ps,
lane eyes, and highest junction temperature in 0.1 °C. -/
structure LevelMeasure where
  droop : Int
  timing : Int
  eyes : List LaneEye
  temperature : Int
  deriving DecidableEq, Repr

/-- The two failing directions of link training (R184): both lane pairs, only the low pair, only the high pair. -/
inductive TrainResult where
  | full | lowPair | highPair
  deriving DecidableEq, Repr

/-- The commands of the block, in the order of spec/opcode_table.json. -/
inductive Instr where
  | scLi (c : CoreId) (d : Reg) (v : BitVec 64)
  | scAdd (c : CoreId) (d : Reg) (a b : Src)
  | scSub (c : CoreId) (d : Reg) (a b : Src)
  | scMul (c : CoreId) (d : Reg) (a b : Src)
  | scAnd (c : CoreId) (d : Reg) (a b : Src)
  | scOr (c : CoreId) (d : Reg) (a b : Src)
  | scXor (c : CoreId) (d : Reg) (a b : Src)
  | scShl (c : CoreId) (d : Reg) (a b : Src)
  | scShr (c : CoreId) (d : Reg) (a b : Src)
  | scCmp (c : CoreId) (d : Reg) (a b : Src)
  | scLd (c : CoreId) (d : Reg) (a : Src)
  | scSt (c : CoreId) (v : Src) (a : Src)
  | descSet (c : CoreId) (routine : Bool) (d : Reg) (i : Src) (a : Src)
  | descGet (c : CoreId) (routine : Bool) (h : Src) (a : Src)
  | flagSet (c : CoreId) (routine : Bool) (f : Flag) (v : Src)
  | flagAdd (c : CoreId) (routine : Bool) (f : Flag) (v : Src)
  | flagWait (c : CoreId) (routine : Bool) (f : Flag) (cond : WaitCond) (v : Src) (timeout : Src)
  | waitExpired (c : CoreId)
  | flagStatus (c : CoreId) (routine : Bool) (d : Reg) (f : Flag)
  | skipIf (c : CoreId) (routine : Bool) (f : Flag) (cond : SkipCond) (v : Src) (n : Fin 256) (room : Nat) (span : Nat)
  | loopBegin (c : CoreId) (routine : Bool) (n : Src) (body : Nat)
  | loopEnd (c : CoreId) (routine : Bool)
  | loopIdx (c : CoreId) (routine : Bool) (d : Reg) (k : Fin 4)
  | timeWait (c : CoreId) (t : Src)
  | timeWaitRelease (c : CoreId)
  | coreIdOp (c : CoreId) (d : Reg)
  | coreTime (c : CoreId) (d : Reg)
  | coreEnd (c : CoreId)
  | illegalOp (c : CoreId)
  | libUnknown (c : CoreId) (id : BitVec 16)
  | mxeMm (iss : Issue) (hC hA hB : HRef) (clr : Bool) (step : Option Reg)
  | mxeMmg (iss : Issue) (hC hA hB : HRef) (f : Flag) (base : Reg) (axis : GatherAxis) (clr : Bool) (step : Option Reg)
  | mxeDrain (iss : Issue) (hC hD : HRef) (step : Option Reg)
  | vxeMap (iss : Issue) (hD hA : HRef) (fn : BitVec 8)
  | vxeZip (iss : Issue) (hD hA hB : HRef) (fn : BitVec 8)
  | vxeFma (iss : Issue) (hD hA hB hC : HRef)
  | vxeRed (iss : Issue) (hD hA : HRef) (k : Fin 4) (op : RedOp) (clr : Bool) (step : Option Reg)
  | vxeConv (iss : Issue) (hD hA : HRef) (step : Option Reg)
  | vxeRand (iss : Issue) (hD : HRef) (stream : BitVec 16) (step : Reg)
  | speMm (iss : Issue) (hC hA hB : HRef) (clr : Bool) (routeSpe : Bool) (step : Option Reg)
  | spePack (iss : Issue) (hD hA : HRef) (prune : Bool)
  | txePut (iss : Issue) (hD hS : HRef) (tc : ClassId) (step : Option Reg) (dflag : Option (Src × Flag))
  | txeGet (iss : Issue) (hD hS : HRef) (tc : ClassId) (dflag : Option (Src × Flag))
  | txeAcc (iss : Issue) (hD hS : HRef) (tc : ClassId) (dflag : Option (Src × Flag))
  | txeRing (iss : Issue) (k : Fin 16) (h : HRef) (fp fc : Flag)
  | txeMsg (iss : Issue) (dest : Reg) (k : Fin 16) (a : Src) (n : Src) (tc : ClassId)
  | txeDigest (iss : Issue) (a : Src) (hS : HRef)
  | txeFill (iss : Issue) (hD : HRef) (pat : Reg) (tc : ClassId)
  | engineOpStart (c : CoreId) (q : Queue) (errs : List MemErr)
  | engineOpComplete (c : CoreId) (q : Queue) (i : Nat) (rep : EngineReport)
  | gateTimeout (c : CoreId) (q : Queue)
  | remoteTimeout (c : CoreId) (i : Nat)
  | txeResend (who : Sender)
  | collStart (c : CoreId)
  | collWait (c : CoreId)
  | anchorRetry (c : CoreId)
  | optStep (c : CoreId)
  | jobStart (c : CoreId)
  | stepBegin (c : CoreId)
  | stepCommit (c : CoreId)
  | stepReplay (c : CoreId)
  | park (c : CoreId)
  | restore (c : CoreId)
  | collComplete (group : BitVec 16) (cseq : BitVec 32)
  | adoptComplete (n : ParcelId) (record : Bytes) (shards : List (BitVec 44 × Bytes)) (ok : Bool)
  | commitBegin (n : ParcelId)
  | commitDecide (n : ParcelId) (target : Option (BitVec 32 × Bytes × BitVec 32))
  | commitTimeout (n : ParcelId)
  | commitFlip (n : ParcelId)
  | rollbackComplete (n : ParcelId)
  | reclaimDrainDone (n : ParcelId)
  | reclaimParkDone (n : ParcelId)
  | dieClearDone (k : Fin 6)
  | steClearDone (j : EngineId)
  | linkUnitRx (p : PortId) (lu : Bytes)
  | replayTimeout (p : PortId)
  | controlUnitRx (p : PortId) (lu : Bytes)
  | controlUnitTx (p : PortId)
  | pcsLockLoss (p : PortId)
  | linkTrainDone (p : PortId) (res : TrainResult)
  | rxPut (at_ : RxAt) (pkt : Packet) (errs : List MemErr)
  | rxFlagPacket (at_ : RxAt) (pkt : Packet)
  | rxGet (at_ : RxAt) (pkt : Packet) (errs : List MemErr)
  | rxAcc (at_ : RxAt) (pkt : Packet) (errs : List MemErr)
  | rxMsg (at_ : RxAt) (pkt : Packet)
  | rxColl (at_ : RxAt) (pkt : Packet)
  | mgmtRead (at_ : RxAt) (pkt : Packet)
  | mgmtWrite (at_ : RxAt) (pkt : Packet)
  | mgmtCommand (at_ : RxAt) (pkt : Packet)
  | rxResponse (at_ : RxAt) (pkt : Packet)
  | xbarMatch
  | outputCellTime (x : EndId)
  | poolLevelTest
  | spillPage (x : EndId) (q : Fin 40)
  | spillReturn (x : EndId) (q : Fin 40) (badSlots : List (Fin 16))
  | pacingWindow
  | policerRefill
  | svcFrameRx (p : PortId) (f : EthFrame)
  | neighborSolicitationRx (p : PortId) (f : EthFrame) (target : BitVec 128)
  | pfcFrameRx (p : PortId) (vec : BitVec 8) (quanta : Vector (BitVec 16) 8)
  | pfcPauseExpiry (p : PortId) (k : ClassId)
  | pfcRefresh (p : PortId)
  | timePacketTx (p : PortId)
  | timePacketRx (p : PortId) (pkt : Packet) (arrival : BitVec 64)
  | datumTimeout (p : PortId)
  | timeStep
  | ppsInEdge (width : Nat)
  | ppsInLoss
  | ptpSyncTx (p : PortId)
  | ptpAnnounceTx (p : PortId)
  | ptpDelayReqRx (p : PortId) (domain : BitVec 8) (sender : BitVec 80) (seq : BitVec 16)
  | ptpSyncRx (p : PortId) (domain : BitVec 8) (sender : BitVec 80) (seq : BitVec 16)
  | ptpFollowUpRx (p : PortId) (domain : BitVec 8) (sender : BitVec 80) (seq : BitVec 16) (origin : Nat)
  | ptpAnnounceRx (p : PortId) (a : PtpAnnounce)
  | ptpDelayRespRx (p : PortId) (domain : BitVec 8) (sender : BitVec 80) (seq : BitVec 16) (received : Nat)
  | standinApply
  | steStart (j : EngineId)
  | steStop (j : EngineId)
  | steRunBegin (j : EngineId)
  | steStageEnd (j : EngineId)
  | steRunEnd (j : EngineId)
  | steExpired (j : EngineId)
  | steRecvDeadline (j : EngineId) (q : Fin 8)
  | memRefresh (m : Controller) (delays : List (Option ParcelId × Nat))
  | bulkRetune (m : Fin 16) (delays : List (Option ParcelId × Nat))
  | scrubPass (m : Controller) (errs : List MemErr)
  | moduleTempRead (temps : Vector Int 16)
  | opticsCycle (b : Fin 8) (readings : List OpticReading)
  | levelRunStart
  | levelNow (role : Role)
  | levelRunEnd (meas : LevelMeasure)
  | thermDecision (k : Fin 6) (junction stackLo stackHi : Int)
  | thermCrit (k : Fin 6) (junction stackLo stackHi : Int)
  | thermShutdown (k : Fin 6) (junction : Int)
  | overcurrent (milliamps : Nat)
  | overcurrentRestore
  | rampCooling (c : CoreId)
  | supplyOut
  | supplyLoss (r : Rail)
  | supplyValid (r : Rail)
  | resetNLow (nanoseconds : Nat)
  | resetNRise
  | watchdog
  | bootStage1
  | bootStage2
  | bootStage3
  | bootStage4
  | bootStage5
  | bootStage6
  | functionStart (role : Role) (f : Function)
  | functionStop (role : Role) (f : Function)
  | functionReinit (role : Role) (f : Function)
  | functionInitDone (f : Function) (ok : Bool)
  | functionStopDone (f : Function)
  | autoStart (f : Function)
  | rollback (role : Role) (n : ParcelId)
  | reclaim (role : Role) (n : ParcelId) (tr : BitVec 64)
  | jobReset (role : Role) (n : ParcelId)
  | watchClear (role : Role)
  | debugUnlock (role : Role) (token : Bytes)
  | deviceReset (role : Role)
  | measureExtend (role : Role) (d : Bytes)
  | keyCommit (role : Role) (slot : BitVec 8) (key : Bytes) (newRole : BitVec 8) (signs : BitVec 8)
  | quote (role : Role) (nonce : Bytes)
  | updType (role : Role) (t : BitVec 8)
  | updErase (role : Role)
  | updEraseDone
  | updData (role : Role) (d : Bytes)
  | updVerify (role : Role)
  | updActivate (role : Role)
  | svnCommit (role : Role) (t : BitVec 8)
  | counterInc (role : Role) (k : BitVec 8)
  | objectWrite (role : Role) (index : BitVec 16) (sub : BitVec 8) (value : Bytes)
  | dapOpenA (from_ : DapClient) (msg : Bytes)
  | dapOpenC (from_ : DapClient) (msg : Bytes)
  | dapRead (from_ : DapClient) (msg : Bytes)
  | dapWrite (from_ : DapClient) (msg : Bytes)
  | dapClose (from_ : DapClient) (msg : Bytes)
  | dapHalfOpenExpiry (session : BitVec 32)
  | sessionIdle (session : BitVec 32)
  | i3cSelectorWrite (data : Bytes)
  | i3cPrivateRead
  | setdasa (static_ dynamic : BitVec 7)
  | entdaa (dynamic : BitVec 7)
  | rstdaa
  | getpid
  | getbcr
  | getdcr
  | getstatus
  | mmgWaitExpired (c : CoreId)
  | steRemote (j : EngineId)
  | resumeTimeout (n : ParcelId)
  | reclaimAtTr (n : ParcelId)
  | updVerifyDone
  | mgmtLinkUp (gigabit : Bool)
  | mgmtLinkDown
  | mgmtLinkFallback
  | announceReceiptTimeout
  | ptpDelayReqTx (p : PortId)
  deriving DecidableEq, Repr

end Sys2Proof
end

