-- ==== Sys2Proof/Config.lean ====
section
/-! DEFINITION. What the manual leaves open and what an implementation fixes: the free values (opaque constants
nothing in Lean can evaluate) and the fixed capacities the manual states once. -/

namespace Sys2Proof.Config

/-- FREE VALUE (log 6). The n-th value the spec leaves open in a run: a random challenge (R433), an ephemeral key
(R403, R424), a result the manual states to be not guaranteed. Applied to State.freshCtr, which each use advances. -/
opaque freeNat : Nat → Nat

/-- FREE VALUE (log 37). What the order in which the addends of an exact sum arrive decides, where some order saturates (R57): of the
n-th such operation, by the place of the sum in it. -/
opaque sumOrder : Nat → Nat → Nat

/-- FREE VALUE (log 15). The filtered offset of R329: the filter is the device's own. Applied to the port's sample
history (twice the offset, newest first). -/
opaque filteredOffset : List Int → Int

/-- FREE VALUE (log 15). The filtered one-way delay of R329, applied to the history of twice the delay. -/
opaque filteredDelay : List Int → Nat

/-- FREE VALUE (log 15). The steering of R324 and R331: the increment, as a change from nominal in 10^-12, the device
chooses for a filtered offset. Its range is bounded where it is used. -/
opaque steering : Int → Int

/-- FREE VALUE (log 16). The best master clock algorithm of IEEE 1588 (R340) is the standard's and not the manual's:
whether the second announce (coded as a number) is better than the first. -/
opaque bmcaBetter : Nat → Nat → Bool

/-- FREE VALUE (log 14). A byte of flash whose contents the spec leaves open (R450): of the n-th open range, by address. -/
opaque freeByte : Nat → Nat → Byte

/-- FREE VALUE (log 10). The 256-byte lines of a code image that the operation at a program position lies in (R2, R103): of the
program with a digest, by the image's section-table position and the program position. -/
opaque codeLines : Nat → Nat → Nat → List Nat

/-- FREE VALUE (log 35). How DETAIL holds an image type and slot in entries of class 0x0B (R438). -/
opaque imageDetail : Nat → Nat → Nat

/-- FREE VALUE (log 36). The number that the first DAP session takes (R403). -/
opaque sessionBase : Nat

/-- FREE VALUE (log 36). The vendor's MIPI manufacturer code (R409). -/
opaque mipiCode : Nat

end Sys2Proof.Config
end

