-- ==== Sys2Proof/Machine/Sparse.lean ====
section
/-! DEFINITION. Sparse total maps in one canonical form: a list of (key, value) with keys strictly rising and no entry
equal to the map's default. Memory, the dictionary and every numbered family of units are held this way, so that equal
maps are equal data. -/

namespace Sys2Proof.Machine

/-- A total map from Nat, as the sorted list of the entries that differ from its default. -/
abbrev Sparse (α : Type) := List (Nat × α)

/-- The entry of key `k`, the default `d` where none is listed. -/
def Sparse.get {α : Type} (d : α) : Sparse α → Nat → α
  | [], _ => d
  | (j, v) :: m, k => if j = k then v else Sparse.get d m k

/-- The map without key `k`. -/
def Sparse.drop {α : Type} (m : Sparse α) (k : Nat) : Sparse α := m.filter (fun e => decide (e.1 ≠ k))

/-- The map with `v` at key `k`, in its place in the order. -/
def Sparse.put {α : Type} : Sparse α → Nat → α → Sparse α
  | [], k, v => [(k, v)]
  | (j, w) :: m, k, v =>
    if k < j then (k, v) :: (j, w) :: m
    else if j = k then (k, v) :: m
    else (j, w) :: Sparse.put m k v

/-- The map with `v` at key `k`, kept canonical: writing the default removes the entry. -/
def Sparse.set {α : Type} [DecidableEq α] (d : α) (m : Sparse α) (k : Nat) (v : α) : Sparse α :=
  if v = d then Sparse.drop m k else Sparse.put m k v

/-- The entry of key `k` changed by `f`. -/
def Sparse.modify {α : Type} [DecidableEq α] (d : α) (m : Sparse α) (k : Nat) (f : α → α) : Sparse α :=
  Sparse.set d m k (f (Sparse.get d m k))

/-- Every listed key lies above `k`. -/
def Sparse.above {α : Type} (k : Nat) (m : Sparse α) : Bool :=
  m.all (fun e => decide (k < e.1))

/-- The canonical form: keys strictly rising, no entry equal to the default. -/
def Sparse.wf {α : Type} [DecidableEq α] (d : α) : Sparse α → Bool
  | [] => true
  | (k, v) :: m => Sparse.above k m && decide (v ≠ d) && Sparse.wf d m

/-- The keys from `lo` (inclusive) to `hi` (exclusive) return to the default. -/
def Sparse.clearRange {α : Type} (m : Sparse α) (lo hi : Nat) : Sparse α :=
  m.filter (fun e => decide (e.1 < lo) || decide (hi ≤ e.1))

end Sys2Proof.Machine
end

