-- ==== Sys2Proof/Machine/EnvTypes.lean ====
section
/-! DEFINITION. The parts of the state outside the datapath: environment and level runs (14, 16, 17), supplies and reset pins
(16), boot, security and update (16), sessions and buses of management (15). -/

namespace Sys2Proof.Machine

/-- Readings and level runs (R373 to R375, R435 to R437, R454, R455). -/
structure EnvSt where
  /-- module temperatures of the sideband, in 0.1 °C (R455) -/
  modTemp : Sparse Int
  /-- what each port's optics module answered in the last cycle (R454) -/
  optics : Sparse (Option OpticReading)
  /-- a level run is in progress (R373), the instant at which the last scheduled one began, and the end of the last run -/
  levelOn : Bool
  levelSched : Option Nat
  levelEnd : Nat
  /-- values and classes of the last nine runs, newest first (R374, R375) -/
  hist : List (List Int × List Nat)
  /-- corrected errors of each controller since the last run (R374) -/
  corr : Sparse Nat
  /-- dies whose parcel has passed a step boundary since their last thermal decision, as a mask (R436) -/
  due : Nat
  /-- Fabric Time from which a die has been critical, by die (R437) -/
  crit : Sparse (Option Nat)
  /-- the clocks are halved by the overcurrent backstop (R435) -/
  slow : Bool
  deriving DecidableEq, Repr

/-- No reading taken. -/
def EnvSt.reset : EnvSt :=
  { modTemp := [], optics := [], levelOn := false, levelSched := none, levelEnd := 0, hist := [], corr := [], due := 0, crit := [],
    slow := false }

/-- Supplies and pins of management (R417): validity of VAUX33 and VIO18, the level of RESET_N, the regulators of VIN12 (R437), and
the Fabric Time at which stage 1 may begin. -/
structure PowerSt where
  vaux33 : Bool
  vio18 : Bool
  resetN : Bool
  regOn : Bool
  bootAt : Nat
  deriving DecidableEq, Repr

/-- The device right after reset: both supplies valid, RESET_N high, stage 1 one millisecond ahead (R417). -/
def PowerSt.reset : PowerSt := { vaux33 := true, vio18 := true, resetN := true, regOn := true, bootAt := 16000000 }

/-- A DDR5 module as its SPD contents describe it (R162, R163): whether it is of a supported type, its capacity in GiB, ranks, code
of its device type, and highest data rate in MT/s. -/
structure Module where
  kind : Bool
  gib : Nat
  ranks : Nat
  device : Nat
  rate : Nat
  deriving DecidableEq, Repr

/-- Boot, security and update beside their objects (R394 to R396, R419 to R433). -/
structure SecSt where
  /-- highest boot stage whose work is done (R419) -/
  stageDone : Nat
  /-- slot and SVN of the running image of each type (R422, R431) -/
  running : Sparse (Option (Nat × Nat))
  /-- index of the free value that is the attestation private key, and its certificate (R424, R425) -/
  attKey : Nat
  attCert : Bytes
  /-- index of the free value that DEBUG_CHALLENGE holds (R433) -/
  challenge : Nat
  /-- the slot an update writes (R430) -/
  updSlot : Nat
  /-- functions in an INIT that a START began, and those of them that a STOP ends (R396), as masks -/
  starting : Nat
  stopping : Nat
  deriving DecidableEq, Repr

/-- Before boot. The first free value is the challenge. -/
def SecSt.reset : SecSt :=
  { stageDone := 0, running := [], attKey := 0, attCert := List.replicate 256 0, challenge := 0, updSlot := 0, starting := 0, stopping := 0 }

/-- A DAP session (R403, R404): number, operator slot, whether OPEN_C confirmed it, keys of the two directions, the confirmation
awaited, SEQ of the last request carried out, its response, and the Fabric Time at which it expires. -/
structure Session where
  id : Nat
  slot : Nat
  confirmed : Bool
  keyIn : Bytes
  keyOut : Bytes
  sA : Bytes
  last : Nat
  resp : Bytes
  expires : Nat
  deriving DecidableEq, Repr

/-- Management buses (R400, R403, R409, R410): sessions and the next session number, the I3C dynamic address and selector, and
whether the management port tries 1000BASE-X. -/
structure MgmtSt where
  sessions : List Session
  nextId : Nat
  i3cAddr : Option Nat
  i3cSel : Option (Nat × Nat)
  slowLink : Bool
  deriving DecidableEq, Repr

/-- No session, no address. -/
def MgmtSt.reset : MgmtSt := { sessions := [], nextId := 1, i3cAddr := none, i3cSel := none, slowLink := false }

end Sys2Proof.Machine
end

