-- ==== Sys2Proof/Machine/Bits.lean ====
section
/-! DEFINITION. Bit fields, two's complement, byte order (R4, R5), the pseudocode operators of R9 that Lean's own do not
give, and the CRCs of R187 and R410. -/

namespace Sys2Proof.Machine

/-- Bits [hi:lo] of a number (R4). -/
def field (n hi lo : Nat) : Nat := (n >>> lo) % 2 ^ (hi + 1 - lo)

/-- Bit `i` of a number. -/
def bitOf (n i : Nat) : Bool := n.testBit i

/-- A bool as a bit. -/
def b2n (b : Bool) : Nat := if b then 1 else 0

/-- The low `w` bits read in two's complement (R9). -/
def signed (w n : Nat) : Int :=
  let m := n % 2 ^ w
  if m < 2 ^ (w - 1) then (m : Int) else (m : Int) - (2 ^ w : Nat)

/-- An integer reduced to `w` bits, two's complement (R9). -/
def wrap (w : Nat) (i : Int) : Nat := (i % ((2 ^ w : Nat) : Int)).toNat

/-- `sat(x, lo, hi)` of R9. -/
def satI (x lo hi : Int) : Int := if x < lo then lo else if hi < x then hi else x

/-- Quotient rounded up. -/
def ceilDiv (a b : Nat) : Nat := if b = 0 then 0 else (a + b - 1) / b

/-- The least `k` with n ≤ 2^k, that is ⌈log2 n⌉ for n ≥ 1. -/
def clog2 (n : Nat) : Nat := if n ≤ 1 then 0 else Nat.log2 (n - 1) + 1

/-- The value of a byte string, least significant byte first (R5). -/
def leNat : Bytes → Nat
  | [] => 0
  | b :: bs => b.toNat + 256 * leNat bs

/-- The low `n` bytes of a value, least significant first (R5). -/
def leBytes : Nat → Nat → Bytes
  | 0, _ => []
  | n + 1, v => BitVec.ofNat 8 v :: leBytes n (v / 256)

/-- The value of a byte string sent most significant byte first (R5). -/
def beNat (bs : Bytes) : Nat := bs.foldl (fun a b => 256 * a + b.toNat) 0

/-- The low `n` bytes of a value, most significant first (R5). -/
def beBytes (n v : Nat) : Bytes := (leBytes n v).reverse

/-- The byte at position `i` of a byte string, 0 beyond its end. -/
def byteAt (bs : Bytes) (i : Nat) : Nat := (bs.getD i 0).toNat

/-- Bytes lo to lo + n − 1 of a byte string. -/
def slice (bs : Bytes) (lo n : Nat) : Bytes := (bs.drop lo).take n

/-- The little-endian value of bytes lo to lo + n − 1. -/
def leAt (bs : Bytes) (lo n : Nat) : Nat := leNat (slice bs lo n)

/-- The big-endian value of bytes lo to lo + n − 1. -/
def beAt (bs : Bytes) (lo n : Nat) : Nat := beNat (slice bs lo n)

/-- A byte string brought to `n` bytes: cut, or padded with zero bytes. -/
def padTo (n : Nat) (bs : Bytes) : Bytes := (bs ++ List.replicate (n - bs.length) 0).take n

/-- A byte string padded with zero bytes to a multiple of `n`. -/
def padMul (n : Nat) (bs : Bytes) : Bytes := bs ++ List.replicate (ceilDiv bs.length n * n - bs.length) 0

/-- Consecutive pieces of at most `n` entries; `fuel` bounds their number. -/
def chunksOf {α : Type} (n : Nat) : Nat → List α → List (List α)
  | 0, _ => []
  | _, [] => []
  | fuel + 1, xs => xs.take (max n 1) :: chunksOf n fuel (xs.drop (max n 1))

/-- A list cut into pieces of `n` entries. -/
def pieces {α : Type} (n : Nat) (xs : List α) : List (List α) := chunksOf n xs.length xs

/-- The sum of a list of numbers. -/
def sumN (l : List Nat) : Nat := l.foldl (· + ·) 0

/-- The largest of a list, 0 when it is empty. -/
def maxN (l : List Nat) : Nat := l.foldl Nat.max 0

/-- Unsigned saturation at a type's largest value (R39). -/
def satN (w n : Nat) : Nat := Nat.min n (2 ^ w - 1)

/-- One bit of a reflected CRC-32 division, polynomial 0x04C1_1DB7 (R187). -/
def crc32Bit (r : Nat) : Nat := if r % 2 = 1 then (r / 2) ^^^ 0xEDB88320 else r / 2

/-- One byte of the CRC-32. -/
def crc32Byte (r : Nat) (b : Byte) : Nat :=
  let x := r ^^^ b.toNat
  crc32Bit (crc32Bit (crc32Bit (crc32Bit (crc32Bit (crc32Bit (crc32Bit (crc32Bit x)))))))

/-- CRC-32 with the parameters of the IEEE 802.3 frame check sequence (R187). -/
def crc32 (bs : Bytes) : Nat := (bs.foldl crc32Byte 0xFFFFFFFF) ^^^ 0xFFFFFFFF

/-- One bit of the CRC-8 division of R410, polynomial 0x07. -/
def crc8Bit (r : Nat) : Nat := if r ≥ 128 then ((2 * r) % 256) ^^^ 0x07 else 2 * r

/-- CRC-8 of R410: initial value 0, no reflection, no complement. -/
def crc8 (bs : Bytes) : Nat :=
  bs.foldl (fun r b =>
    let x := r ^^^ b.toNat
    crc8Bit (crc8Bit (crc8Bit (crc8Bit (crc8Bit (crc8Bit (crc8Bit (crc8Bit x)))))))) 0

/-- ASCII bytes of a string, padded with zero bytes to `n` (STR[n] of R387). -/
def strBytes (n : Nat) (s : String) : Bytes :=
  padTo n (s.toList.map (fun c => BitVec.ofNat 8 c.toNat))

end Sys2Proof.Machine
end

