-- ==== Sys2Proof/Machine/Objs.lean ====
section
/-! DEFINITION. The objects of the dictionary (R386 to R389, R412): types, access codes, the rows of every object table
of chapters 01 to 16, and the key of each object by name. A key is index << 8 | sub-index. -/

namespace Sys2Proof.Machine

/-- Object types (R387). -/
inductive OTy where
  | bool | u8 | u16 | u32 | u64 | i8 | i16 | i32 | i64 | f32 | ft64 | enum8 | oct (n : Nat) | str (n : Nat) | cmd
  deriving DecidableEq, Repr

/-- Size in bytes (R387). -/
def OTy.size : OTy → Nat
  | .bool => 1 | .u8 => 1 | .u16 => 2 | .u32 => 4 | .u64 => 8 | .i8 => 1 | .i16 => 2 | .i32 => 4 | .i64 => 8
  | .f32 => 4 | .ft64 => 8 | .enum8 => 1 | .oct n => n | .str n => n | .cmd => 0

/-- The type code of R387. -/
def OTy.code : OTy → Nat
  | .bool => 1 | .u8 => 2 | .u16 => 3 | .u32 => 4 | .u64 => 5 | .i8 => 6 | .i16 => 7 | .i32 => 8 | .i64 => 9
  | .f32 => 10 | .ft64 => 11 | .enum8 => 12 | .oct _ => 13 | .str _ => 14 | .cmd => 15

/-- Whether the values are sent byte 0 first (R401). -/
def OTy.isBytes : OTy → Bool
  | .oct _ => true | .str _ => true | _ => false

/-- Access codes (R388). -/
inductive OAcc where
  | ro | rw | rl | wo | cmd | rc
  deriving DecidableEq, Repr

/-- A run of `n` objects of one kind from sub-index `lo`: type, access, default (as the little-endian number of its
bytes). -/
structure ObjRow where
  lo : Nat
  n : Nat
  ty : OTy
  acc : OAcc
  dflt : Nat
  deriving DecidableEq, Repr

/-- The key of object index:sub-index. -/
def objKey (idx sub : Nat) : Nat := idx * 256 + sub

/-- The index of endpoint x's objects (R216, R242, R260). -/
def endIndex (x : Nat) : Nat := if x < 144 then 0x3000 + x else 0x4280 + (x - 144)

/-- The index of controller u's objects: stacks 0 to 11, then channels 0 to 15 as 12 to 27 (R182). -/
def ctlIndex (u : Nat) : Nat := if u < 12 then 0x5200 + u else 0x5300 + (u - 12)

/-- The object rows of group par. -/
def rows_par : List ObjRow :=
  [⟨0x1, 1, .enum8, .rl, 0⟩,
   ⟨0x2, 1, .u8, .rl, 0⟩,
   ⟨0x3, 1, .u16, .ro, 0⟩,
   ⟨0x4, 1, .u32, .rl, 0⟩,
   ⟨0x5, 1, .u32, .rl, 0⟩,
   ⟨0x6, 1, .u64, .rl, 0⟩,
   ⟨0x7, 1, .u8, .rl, 0⟩,
   ⟨0x8, 1, .u32, .rc, 0⟩,
   ⟨0x9, 1, .bool, .rw, 0⟩]

/-- The object rows of group core. -/
def rows_core : List ObjRow :=
  [⟨0x1, 1, .enum8, .ro, 0⟩,
   ⟨0x2, 1, .u8, .ro, 0⟩,
   ⟨0x3, 1, .enum8, .ro, 0⟩,
   ⟨0x4, 1, .u16, .ro, 0xFFFF⟩,
   ⟨0x5, 1, .u32, .ro, 0⟩,
   ⟨0x6, 1, .u32, .ro, 0⟩,
   ⟨0x7, 1, .ft64, .ro, 0⟩,
   ⟨0x8, 1, .u64, .ro, 0⟩,
   ⟨0x9, 1, .u32, .ro, 0⟩,
   ⟨0xa, 1, .u32, .ro, 0⟩,
   ⟨0xb, 1, .u64, .rc, 0⟩,
   ⟨0xc, 1, .u32, .rc, 0⟩,
   ⟨0xd, 1, .u32, .rc, 0⟩,
   ⟨0xe, 1, .u64, .ro, 0⟩,
   ⟨0xf, 1, .u32, .rc, 0⟩,
   ⟨0x10, 10, .u32, .rc, 0⟩,
   ⟨0x20, 10, .u32, .rc, 0⟩,
   ⟨0x30, 10, .u32, .rc, 0⟩,
   ⟨0x40, 10, .u32, .rc, 0⟩,
   ⟨0x50, 10, .u32, .rc, 0⟩,
   ⟨0x60, 1, .u32, .rc, 0⟩,
   ⟨0x61, 1, .u32, .rc, 0⟩,
   ⟨0x62, 1, .u32, .rc, 0⟩,
   ⟨0x64, 1, .u32, .rc, 0⟩,
   ⟨0x65, 1, .u32, .rc, 0⟩,
   ⟨0x66, 1, .u32, .rc, 0⟩,
   ⟨0x68, 1, .u32, .rc, 0⟩,
   ⟨0x69, 1, .u32, .rc, 0⟩,
   ⟨0x6a, 1, .u32, .rc, 0⟩,
   ⟨0x6b, 1, .u32, .rc, 0⟩,
   ⟨0x6c, 1, .u32, .rc, 0⟩,
   ⟨0x6d, 1, .u32, .rc, 0⟩,
   ⟨0x70, 16, .u32, .rc, 0⟩,
   ⟨0x80, 1, .u32, .rc, 0⟩,
   ⟨0x81, 1, .u32, .rc, 0⟩,
   ⟨0x82, 1, .u32, .rc, 0⟩,
   ⟨0x83, 1, .u64, .rc, 0⟩,
   ⟨0x84, 1, .u64, .rc, 0⟩,
   ⟨0x85, 1, .u64, .rc, 0⟩,
   ⟨0x86, 1, .u32, .rc, 0⟩,
   ⟨0x90, 1, .u64, .rc, 0⟩,
   ⟨0x91, 1, .u64, .rc, 0⟩,
   ⟨0x92, 1, .u32, .rc, 0⟩,
   ⟨0x93, 1, .u32, .rc, 0⟩,
   ⟨0x94, 1, .u32, .rc, 0⟩,
   ⟨0x95, 1, .u32, .rc, 0⟩,
   ⟨0x96, 1, .u64, .rc, 0⟩,
   ⟨0x97, 1, .u64, .rc, 0⟩,
   ⟨0x98, 1, .u64, .rc, 0⟩,
   ⟨0x99, 1, .u32, .ro, 0xFFFFFFFF⟩,
   ⟨0x9a, 1, .u32, .ro, 0⟩,
   ⟨0x9b, 1, .u32, .ro, 0⟩,
   ⟨0x9c, 1, .u32, .rc, 0⟩,
   ⟨0x9d, 1, .u32, .rc, 0⟩]

/-- The object rows of group conv. -/
def rows_conv : List ObjRow :=
  [⟨0x10, 10, .u64, .ro, 0⟩,
   ⟨0x50, 10, .u64, .ro, 0⟩,
   ⟨0x60, 3, .u64, .ro, 0⟩,
   ⟨0x64, 3, .u64, .ro, 0⟩,
   ⟨0x68, 6, .u64, .ro, 0⟩]

/-- The object rows of group partmo. -/
def rows_partmo : List ObjRow :=
  [⟨0x1, 1, .u32, .rl, 0xEE6B28⟩,
   ⟨0x2, 1, .u32, .rl, 0xEE6B28⟩]

/-- The object rows of group prog. -/
def rows_prog : List ObjRow :=
  [⟨0x3, 1, .u32, .ro, 0x10000⟩,
   ⟨0x4, 1, .u16, .ro, 1⟩,
   ⟨0x5, 1, .u32, .ro, 0⟩]

/-- The object rows of group watch. -/
def rows_watch : List ObjRow :=
  [⟨0x1, 1, .bool, .rw, 1⟩,
   ⟨0x2, 1, .u8, .rw, 0xC⟩,
   ⟨0x3, 1, .u32, .rw, 0⟩,
   ⟨0x4, 1, .f32, .rw, 0x3F800000⟩,
   ⟨0x5, 1, .u16, .ro, 0xFFFF⟩,
   ⟨0x6, 1, .u32, .ro, 0⟩,
   ⟨0x7, 1, .u64, .ro, 0⟩,
   ⟨0x8, 1, .f32, .ro, 0⟩,
   ⟨0x9, 1, .ft64, .ro, 0⟩,
   ⟨0xa, 1, .cmd, .cmd, 0⟩,
   ⟨0x10, 16, .u64, .ro, 0⟩,
   ⟨0x20, 1, .u64, .ro, 0⟩,
   ⟨0x21, 1, .u64, .ro, 0⟩,
   ⟨0x22, 1, .u64, .ro, 0⟩]

/-- The object rows of group spe. -/
def rows_spe : List ObjRow :=
  [⟨0x1, 1, .bool, .rw, 1⟩,
   ⟨0x2, 1, .u8, .rw, 0x20⟩,
   ⟨0x3, 1, .u8, .rw, 0x20⟩,
   ⟨0x4, 1, .u8, .rw, 0x20⟩,
   ⟨0x10, 1, .u64, .ro, 0⟩,
   ⟨0x11, 1, .u64, .ro, 0⟩,
   ⟨0x12, 1, .u64, .ro, 0⟩,
   ⟨0x13, 1, .u64, .ro, 0⟩,
   ⟨0x14, 1, .u64, .ro, 0⟩,
   ⟨0x15, 1, .u64, .ro, 0⟩]

/-- The object rows of group mem. -/
def rows_mem : List ObjRow :=
  [⟨0x1, 1, .enum8, .rl, 1⟩,
   ⟨0x2, 1, .u16, .ro, 0⟩,
   ⟨0x3, 1, .u16, .ro, 0⟩,
   ⟨0x4, 1, .u16, .ro, 0⟩,
   ⟨0x5, 1, .enum8, .ro, 0⟩,
   ⟨0x6, 1, .u8, .ro, 0xFF⟩,
   ⟨0x7, 1, .u8, .rl, 0x40⟩,
   ⟨0x8, 1, .u8, .rw, 0x18⟩,
   ⟨0x10, 1, .u64, .ro, 0⟩,
   ⟨0x11, 1, .u64, .ro, 0⟩,
   ⟨0x12, 1, .u64, .ro, 0⟩]

/-- The object rows of group parmem. -/
def rows_parmem : List ObjRow :=
  [⟨0x1, 1, .u8, .rl, 0⟩,
   ⟨0x2, 1, .u8, .rl, 0⟩,
   ⟨0x3, 1, .u8, .ro, 0⟩,
   ⟨0x4, 1, .u32, .ro, 0⟩,
   ⟨0x5, 1, .enum8, .ro, 0⟩,
   ⟨0x6, 1, .u32, .ro, 0⟩,
   ⟨0x7, 1, .u64, .ro, 0⟩,
   ⟨0x8, 1, .u64, .ro, 0⟩,
   ⟨0x9, 1, .u64, .rc, 0⟩,
   ⟨0xa, 1, .u64, .rc, 0⟩]

/-- The object rows of group ctl. -/
def rows_ctl : List ObjRow :=
  [⟨0x1, 1, .u32, .rc, 0⟩,
   ⟨0x2, 1, .u32, .rc, 0⟩,
   ⟨0x3, 1, .u64, .ro, 0xFFFFFFFFFFFFFFFF⟩,
   ⟨0x4, 1, .u32, .ro, 0⟩,
   ⟨0x5, 1, .u64, .rc, 0⟩,
   ⟨0x6, 1, .u64, .rc, 0⟩,
   ⟨0x7, 1, .u32, .rc, 0⟩,
   ⟨0x8, 1, .u32, .rc, 0⟩,
   ⟨0x9, 1, .u32, .rc, 0⟩,
   ⟨0xa, 1, .u32, .rc, 0⟩,
   ⟨0xb, 1, .u32, .rc, 0⟩,
   ⟨0xc, 1, .u32, .rc, 0⟩,
   ⟨0xd, 1, .u32, .rc, 0⟩,
   ⟨0xe, 1, .u64, .rc, 0⟩,
   ⟨0xf, 1, .u64, .rc, 0⟩]

/-- The object rows of group port. -/
def rows_port : List ObjRow :=
  [⟨0x1, 1, .enum8, .rl, 0⟩,
   ⟨0x2, 1, .enum8, .rl, 0⟩,
   ⟨0x3, 1, .enum8, .rl, 1⟩,
   ⟨0x4, 1, .enum8, .ro, 0⟩,
   ⟨0x5, 1, .u32, .ro, 0xFFFFFFFF⟩,
   ⟨0x6, 1, .u8, .ro, 0xFF⟩,
   ⟨0x7, 1, .enum8, .ro, 0⟩,
   ⟨0x8, 1, .u64, .rc, 0⟩,
   ⟨0x9, 1, .u32, .rc, 0⟩,
   ⟨0xa, 1, .u32, .rc, 0⟩,
   ⟨0xb, 1, .u32, .rc, 0⟩,
   ⟨0xc, 1, .u64, .rc, 0⟩,
   ⟨0xd, 1, .u32, .rc, 0⟩,
   ⟨0xe, 1, .u32, .rc, 0⟩,
   ⟨0xf, 1, .u32, .rc, 0⟩,
   ⟨0x10, 1, .u64, .rc, 0⟩,
   ⟨0x11, 1, .u64, .rc, 0⟩,
   ⟨0x12, 1, .u64, .rc, 0⟩,
   ⟨0x13, 1, .u32, .rc, 0⟩,
   ⟨0x20, 1, (.oct 6), .rl, 0⟩,
   ⟨0x21, 1, (.oct 16), .rl, 0⟩,
   ⟨0x22, 1, .u16, .rl, 0⟩,
   ⟨0x23, 1, .u16, .rl, 0x2328⟩,
   ⟨0x24, 1, .u32, .rc, 0⟩,
   ⟨0x25, 1, .u32, .rc, 0⟩,
   ⟨0x26, 1, .u32, .rc, 0⟩,
   ⟨0x27, 1, .u32, .rc, 0⟩,
   ⟨0x60, 1, .i32, .rw, 0⟩,
   ⟨0x61, 1, .u32, .ro, 0⟩,
   ⟨0x62, 1, .u32, .rc, 0⟩,
   ⟨0x63, 1, .u32, .rc, 0⟩,
   ⟨0x64, 1, .i32, .ro, 0⟩,
   ⟨0x68, 1, .bool, .rw, 0⟩,
   ⟨0x69, 1, .u8, .rw, 0⟩,
   ⟨0x6a, 1, .enum8, .ro, 3⟩,
   ⟨0x6b, 1, .i8, .rw, 0xFD⟩,
   ⟨0x6c, 1, .i8, .rw, 0⟩,
   ⟨0x6d, 1, .u32, .rc, 0⟩,
   ⟨0x70, 4, .u16, .ro, 0⟩,
   ⟨0x74, 4, .u16, .ro, 0⟩,
   ⟨0x78, 4, .i16, .ro, 0x8000⟩,
   ⟨0x7c, 4, .i16, .ro, 0x8000⟩]

/-- The object rows of group topo. -/
def rows_topo : List ObjRow :=
  [⟨0x1, 1, .u8, .rl, 4⟩,
   ⟨0x2, 4, .u8, .rl, 0x20⟩,
   ⟨0x6, 4, .u8, .rl, 1⟩,
   ⟨0xa, 1, .bool, .rl, 1⟩,
   ⟨0xb, 1, .u16, .rl, 0⟩,
   ⟨0xc, 1, .u8, .rl, 0⟩,
   ⟨0xd, 1, .u8, .rw, 0xFF⟩,
   ⟨0xe, 1, .u32, .ro, 0⟩,
   ⟨0xf, 1, .u8, .rw, 0x3F⟩,
   ⟨0x10, 1, .enum8, .rw, 1⟩,
   ⟨0x11, 1, .u16, .rl, 0x80⟩,
   ⟨0x12, 1, .u64, .ro, 0⟩,
   ⟨0x13, 1, .u64, .ro, 0⟩,
   ⟨0x14, 1, .u64, .ro, 0⟩]

/-- The object rows of group parfab. -/
def rows_parfab : List ObjRow :=
  [⟨0x1, 1, .u16, .rl, 0⟩,
   ⟨0x2, 1, .u64, .ro, 0⟩,
   ⟨0x3, 1, .u64, .rc, 0⟩,
   ⟨0x10, 1, .u32, .ro, 0⟩,
   ⟨0x11, 1, .u32, .ro, 0⟩,
   ⟨0x12, 1, .u32, .rc, 0⟩,
   ⟨0x20, 1, .u64, .rc, 0⟩]

/-- The object rows of group peer. -/
def rows_peer : List ObjRow :=
  [⟨0x1, 1, (.oct 16), .rw, 0⟩,
   ⟨0x2, 1, .u8, .rw, 0⟩,
   ⟨0x3, 1, .u8, .rw, 0⟩,
   ⟨0x4, 1, .u64, .rc, 0⟩]

/-- The object rows of group pool. -/
def rows_pool : List ObjRow :=
  [⟨0x1, 1, .u32, .ro, 0⟩,
   ⟨0x2, 1, .u32, .ro, 0⟩,
   ⟨0x3, 1, .u32, .rc, 0⟩,
   ⟨0x4, 1, .u8, .rw, 0xC0⟩,
   ⟨0x5, 1, .u8, .rw, 0xD0⟩,
   ⟨0x6, 1, .u8, .rw, 0xE8⟩,
   ⟨0x7, 1, .u32, .rc, 0⟩,
   ⟨0x8, 1, .u32, .rc, 0⟩,
   ⟨0x9, 1, .u64, .rc, 0⟩,
   ⟨0xa, 1, .u32, .rc, 0⟩,
   ⟨0xb, 1, .u32, .rc, 0⟩,
   ⟨0xc, 1, .u32, .rc, 0⟩,
   ⟨0xd, 1, .u32, .rc, 0⟩,
   ⟨0xe, 1, .u32, .ro, 0xFFFFFFFF⟩,
   ⟨0xf, 1, .enum8, .ro, 0⟩,
   ⟨0x10, 1, .u32, .ro, 0⟩,
   ⟨0x11, 1, .u32, .ro, 0⟩,
   ⟨0x12, 1, .u32, .ro, 0⟩,
   ⟨0x13, 1, .u32, .ro, 0x100000⟩]

/-- The object rows of group lim. -/
def rows_lim : List ObjRow :=
  [⟨0x10, 8, .u16, .rl, 0⟩,
   ⟨0x20, 8, .u32, .rw, 0⟩,
   ⟨0x30, 8, .u32, .rw, 0⟩,
   ⟨0x40, 1, .u8, .rl, 0x3F⟩,
   ⟨0x41, 1, .u32, .rl, 0x800⟩,
   ⟨0x42, 1, .u32, .rl, 0x400⟩,
   ⟨0x43, 1, .u64, .ro, 0⟩,
   ⟨0x44, 1, .u64, .ro, 0⟩]

/-- The object rows of group sw. -/
def rows_sw : List ObjRow :=
  [⟨0x30, 1, .u8, .rl, 1⟩,
   ⟨0x31, 1, .u32, .rc, 0⟩,
   ⟨0x32, 1, .u64, .rc, 0⟩,
   ⟨0x33, 1, .u32, .rc, 0⟩,
   ⟨0x34, 1, .u32, .ro, 0⟩,
   ⟨0x35, 1, .u32, .ro, 0⟩,
   ⟨0x36, 1, .u32, .rc, 0⟩,
   ⟨0x38, 8, .u64, .rc, 0⟩,
   ⟨0x50, 8, .u32, .rc, 0⟩,
   ⟨0x58, 8, .u32, .rc, 0⟩]

/-- The object rows of group cls. -/
def rows_cls : List ObjRow :=
  [⟨0x1, 1, .u8, .rl, 0xFE⟩,
   ⟨0x2, 1, .u8, .rw, 0xC0⟩,
   ⟨0x10, 6, .u8, .rw, 0⟩,
   ⟨0x20, 8, .u8, .rw, 0⟩,
   ⟨0x28, 8, .u16, .rw, 0x11⟩,
   ⟨0x30, 1, .u16, .rl, 0xFFFF⟩,
   ⟨0x31, 1, .u16, .rl, 0x100⟩]

/-- The object rows of group pol. -/
def rows_pol : List ObjRow :=
  [⟨0x1, 1, .enum8, .rw, 0⟩,
   ⟨0x2, 1, .u32, .rw, 0⟩,
   ⟨0x3, 1, .u32, .rw, 0⟩,
   ⟨0x4, 1, .u32, .rw, 0⟩,
   ⟨0x5, 1, .u32, .rw, 0⟩,
   ⟨0x6, 1, .u64, .rc, 0⟩,
   ⟨0x7, 1, .u64, .rc, 0⟩,
   ⟨0x8, 1, .u64, .rc, 0⟩]

/-- The object rows of group ste. -/
def rows_ste : List ObjRow :=
  [⟨0x1, 1, .enum8, .ro, 0⟩,
   ⟨0x2, 1, .u8, .ro, 0⟩,
   ⟨0x3, 1, .u64, .ro, 0⟩,
   ⟨0x4, 1, .u8, .ro, 0⟩,
   ⟨0x5, 1, .u16, .ro, 0xFFFF⟩,
   ⟨0x6, 1, .u8, .ro, 0xFF⟩,
   ⟨0x7, 1, .ft64, .ro, 0⟩,
   ⟨0x8, 1, .u32, .rc, 0⟩,
   ⟨0x9, 1, .u64, .rc, 0⟩,
   ⟨0xa, 1, .u64, .rc, 0⟩,
   ⟨0xb, 1, .u64, .rc, 0⟩,
   ⟨0xc, 1, .u32, .rc, 0⟩,
   ⟨0xd, 1, .u32, .rc, 0⟩,
   ⟨0xe, 1, .u32, .rc, 0⟩,
   ⟨0xf, 1, .u32, .rc, 0⟩,
   ⟨0x10, 1, .u32, .rc, 0⟩,
   ⟨0x11, 1, .u32, .rc, 0⟩,
   ⟨0x12, 1, .u32, .rc, 0⟩,
   ⟨0x13, 1, .u32, .rc, 0⟩,
   ⟨0x14, 1, .u32, .rc, 0⟩,
   ⟨0x15, 1, .u64, .rc, 0⟩,
   ⟨0x16, 1, .u32, .rc, 0⟩]

/-- The object rows of group stetot. -/
def rows_stetot : List ObjRow :=
  [⟨0x1, 1, .u64, .ro, 0⟩,
   ⟨0x2, 1, .u64, .ro, 0⟩,
   ⟨0x3, 1, .u64, .ro, 0⟩,
   ⟨0x4, 1, .u64, .ro, 0⟩,
   ⟨0x5, 1, .u64, .ro, 0⟩,
   ⟨0x6, 1, .u64, .ro, 0⟩]

/-- The object rows of group coll. -/
def rows_coll : List ObjRow :=
  [⟨0x1, 1, .u32, .rw, 0x10000⟩,
   ⟨0x2, 1, .u32, .rw, 0x400⟩,
   ⟨0x3, 1, .u32, .rw, 0x100000⟩,
   ⟨0x4, 1, .u32, .rw, 0x10000⟩,
   ⟨0x5, 1, .u16, .ro, 0⟩,
   ⟨0x6, 1, .u32, .ro, 0⟩,
   ⟨0x7, 1, .u32, .ro, 0⟩,
   ⟨0x10, 1, .u64, .ro, 0⟩,
   ⟨0x11, 1, .u64, .ro, 0⟩,
   ⟨0x12, 1, .u64, .ro, 0⟩,
   ⟨0x13, 1, .u64, .ro, 0⟩,
   ⟨0x14, 1, .u64, .ro, 0⟩,
   ⟨0x15, 1, .u64, .ro, 0⟩,
   ⟨0x16, 1, .u64, .ro, 0⟩,
   ⟨0x17, 1, .u64, .ro, 0⟩,
   ⟨0x18, 1, .u64, .ro, 0⟩,
   ⟨0x19, 1, .u64, .ro, 0⟩]

/-- The object rows of group time. -/
def rows_time : List ObjRow :=
  [⟨0x1, 1, .u8, .rw, 0x80⟩,
   ⟨0x2, 1, .enum8, .rl, 0⟩,
   ⟨0x3, 1, .u8, .rl, 0x7D⟩,
   ⟨0x4, 1, .u64, .rl, 0⟩,
   ⟨0x5, 1, .i16, .rw, 0x25⟩,
   ⟨0x6, 1, .enum8, .rw, 0⟩,
   ⟨0x7, 1, .u16, .rl, 0x40⟩,
   ⟨0x8, 1, .u32, .rl, 0x3D09⟩,
   ⟨0x9, 1, .u32, .rw, 0x400⟩,
   ⟨0x10, 1, .enum8, .ro, 0⟩,
   ⟨0x11, 1, .u32, .ro, 0xFFFFFFFF⟩,
   ⟨0x12, 1, .u8, .ro, 0xFF⟩,
   ⟨0x13, 1, .u8, .ro, 0xFF⟩,
   ⟨0x14, 1, .u8, .ro, 0xFF⟩,
   ⟨0x15, 1, .i32, .ro, 0⟩,
   ⟨0x16, 1, .i32, .ro, 0⟩,
   ⟨0x17, 1, .u32, .rc, 0⟩,
   ⟨0x18, 1, .i64, .ro, 0⟩,
   ⟨0x19, 1, .u32, .rc, 0⟩,
   ⟨0x1a, 1, .ft64, .ro, 0⟩,
   ⟨0x1b, 1, .i32, .ro, 0⟩,
   ⟨0x1c, 1, .u32, .rc, 0⟩,
   ⟨0x1d, 1, .enum8, .ro, 0⟩,
   ⟨0x1e, 1, .u64, .ro, 0⟩,
   ⟨0x1f, 1, .ft64, .ro, 0⟩]

/-- The object rows of group pardig. -/
def rows_pardig : List ObjRow :=
  [⟨0x1, 1, (.oct 32), .ro, 0⟩,
   ⟨0x2, 1, (.oct 32), .rl, 0⟩,
   ⟨0x3, 1, (.oct 32), .rl, 0⟩,
   ⟨0x4, 1, (.oct 32), .ro, 0⟩,
   ⟨0x5, 1, (.oct 32), .ro, 0⟩,
   ⟨0x6, 1, .u32, .ro, 0⟩]

/-- The object rows of group ring. -/
def rows_ring : List ObjRow :=
  [⟨0x1, 1, .u32, .ro, 0⟩,
   ⟨0x2, 1, .u32, .ro, 0⟩,
   ⟨0x10, 5, .u64, .ro, 0⟩]

/-- The object rows of group level. -/
def rows_level : List ObjRow :=
  [⟨0x1, 1, .u32, .rw, 0xE10⟩,
   ⟨0x2, 1, .cmd, .cmd, 0⟩,
   ⟨0x3, 1, .u32, .ro, 0⟩,
   ⟨0x4, 1, .ft64, .ro, 0⟩,
   ⟨0x5, 1, .enum8, .ro, 0⟩,
   ⟨0x6, 1, .u8, .ro, 0⟩,
   ⟨0x7, 1, .u16, .ro, 0⟩,
   ⟨0x10, 7, .i32, .ro, 0⟩,
   ⟨0x20, 7, .i32, .ro, 0⟩]

/-- The object rows of group res. -/
def rows_res : List ObjRow :=
  [⟨0x1, 1, .enum8, .ro, 0⟩,
   ⟨0x2, 1, .u16, .ro, 0⟩,
   ⟨0x3, 1, .u32, .ro, 0⟩,
   ⟨0x4, 1, .u64, .ro, 0⟩,
   ⟨0x5, 1, .u32, .ro, 0⟩,
   ⟨0x6, 1, (.oct 32), .ro, 0⟩,
   ⟨0x7, 1, (.oct 32), .ro, 0⟩,
   ⟨0x8, 1, .u64, .ro, 0⟩,
   ⟨0x9, 1, .u32, .rl, 0xEE6B28⟩,
   ⟨0xa, 1, .u32, .rl, 0x37E11D60⟩,
   ⟨0xb, 1, .u32, .rl, 0x17D784⟩,
   ⟨0xc, 1, .u32, .rl, 0xFFFFFFFF⟩,
   ⟨0xd, 1, .u32, .rl, 0xFFFFFFFF⟩,
   ⟨0xe, 1, .u8, .rl, 0⟩,
   ⟨0xf, 1, .u8, .rl, 3⟩,
   ⟨0x10, 1, .u8, .ro, 0⟩,
   ⟨0x11, 1, .enum8, .ro, 0⟩,
   ⟨0x12, 1, .u32, .rc, 0⟩,
   ⟨0x13, 1, .u32, .rc, 0⟩,
   ⟨0x14, 1, .u32, .rc, 0⟩,
   ⟨0x15, 1, .u32, .rc, 0⟩,
   ⟨0x16, 1, .cmd, .cmd, 0⟩,
   ⟨0x17, 1, .u64, .cmd, 0⟩,
   ⟨0x18, 1, .cmd, .cmd, 0⟩,
   ⟨0x19, 1, .u64, .ro, 0⟩,
   ⟨0x1a, 1, .u64, .ro, 0⟩]

/-- The object rows of group ferr. -/
def rows_ferr : List ObjRow :=
  [⟨0x1, 1, (.oct 32), .ro, 0xFFFFFFFFFFFFFFFFFFFFFFFFFFFFFFFFFFFFFFFFFFFFFFFFFFFFFFFFFFFFFFFF⟩,
   ⟨0x2, 1, (.oct 32), .ro, 0xFFFFFFFFFFFFFFFFFFFFFFFFFFFFFFFFFFFFFFFFFFFFFFFFFFFFFFFFFFFFFFFF⟩,
   ⟨0x3, 1, .u32, .ro, 0⟩,
   ⟨0x4, 1, .bool, .ro, 0⟩]

/-- The object rows of group dev. -/
def rows_dev : List ObjRow :=
  [⟨0x1, 1, .enum8, .ro, 0⟩,
   ⟨0x2, 1, .u16, .ro, 0⟩,
   ⟨0x3, 1, .u16, .ro, 0⟩,
   ⟨0x4, 1, .u32, .ro, 0⟩,
   ⟨0x5, 1, (.oct 16), .ro, 0⟩,
   ⟨0x6, 1, .u8, .ro, 0⟩]

/-- The object rows of group fn. -/
def rows_fn : List ObjRow :=
  [⟨0x1, 1, (.str 16), .ro, 0⟩,
   ⟨0x2, 1, .enum8, .ro, 0⟩,
   ⟨0x3, 1, .cmd, .cmd, 0⟩,
   ⟨0x4, 1, .cmd, .cmd, 0⟩,
   ⟨0x5, 1, .cmd, .cmd, 0⟩,
   ⟨0x6, 1, .bool, .ro, 0⟩,
   ⟨0x7, 1, .ft64, .ro, 0⟩,
   ⟨0x8, 1, .u32, .ro, 0⟩,
   ⟨0x9, 1, .u32, .ro, 0⟩,
   ⟨0xa, 1, .u16, .ro, 0⟩]

/-- The object rows of group id. -/
def rows_id : List ObjRow :=
  [⟨0x1, 1, (.str 16), .ro, 0x6574746F7556⟩,
   ⟨0x2, 1, (.str 16), .ro, 0x30383132564F⟩,
   ⟨0x3, 1, (.str 16), .ro, 0x30412D30383132564F2D5456⟩,
   ⟨0x4, 1, .u16, .ro, 0xA0⟩,
   ⟨0x5, 1, (.str 16), .ro, 0⟩,
   ⟨0x6, 1, .u32, .ro, 0⟩,
   ⟨0x7, 1, .u16, .ro, 0x100⟩,
   ⟨0x8, 1, .u32, .ro, 0⟩,
   ⟨0x9, 1, (.oct 32), .ro, 0⟩,
   ⟨0xa, 1, .enum8, .ro, 0⟩,
   ⟨0xb, 1, .u32, .ro, 0⟩,
   ⟨0xc, 1, (.str 64), .rw, 0⟩,
   ⟨0xd, 1, (.oct 32), .ro, 0⟩]

/-- The object rows of group mgmt. -/
def rows_mgmt : List ObjRow :=
  [⟨0x1, 1, (.oct 6), .ro, 0⟩,
   ⟨0x2, 1, (.oct 16), .ro, 0⟩,
   ⟨0x3, 1, .enum8, .ro, 0⟩,
   ⟨0x4, 1, .u32, .rw, 0x3C⟩,
   ⟨0x5, 1, .u8, .ro, 0⟩]

/-- The object rows of group mgc. -/
def rows_mgc : List ObjRow :=
  [⟨0x1, 1, .u64, .rc, 0⟩,
   ⟨0x2, 1, .u32, .rc, 0⟩,
   ⟨0x3, 1, .u32, .rc, 0⟩,
   ⟨0x4, 1, .u32, .rc, 0⟩,
   ⟨0x5, 1, .u32, .rc, 0⟩,
   ⟨0x6, 1, .u32, .rc, 0⟩,
   ⟨0x7, 1, .u32, .rc, 0⟩,
   ⟨0x8, 1, .u64, .rc, 0⟩,
   ⟨0x9, 1, .u32, .rc, 0⟩,
   ⟨0xa, 1, .u64, .rc, 0⟩,
   ⟨0xb, 1, .u32, .rc, 0⟩]

/-- The object rows of group pow. -/
def rows_pow : List ObjRow :=
  [⟨0x1, 1, .u16, .ro, 0⟩,
   ⟨0x2, 1, .u16, .ro, 0⟩,
   ⟨0x3, 1, .u16, .ro, 0⟩,
   ⟨0x4, 1, .u16, .ro, 0⟩,
   ⟨0x5, 1, .i16, .ro, 0⟩,
   ⟨0x6, 1, .u32, .ro, 0⟩,
   ⟨0x7, 1, .u32, .ro, 0⟩,
   ⟨0x8, 1, .u16, .rl, 0x28⟩,
   ⟨0x9, 1, .u16, .ro, 0⟩,
   ⟨0xa, 1, .u64, .rc, 0⟩,
   ⟨0xb, 1, .u32, .rc, 0⟩,
   ⟨0xc, 1, .i16, .rw, 0x3B6⟩,
   ⟨0xd, 1, .u16, .rw, 0x32⟩,
   ⟨0xe, 1, .i16, .rw, 0x384⟩,
   ⟨0xf, 1, .u32, .rl, 0x100000⟩,
   ⟨0x10, 1, .u32, .rc, 0⟩,
   ⟨0x20, 6, .i16, .ro, 0⟩,
   ⟨0x28, 1, .i16, .ro, 0⟩,
   ⟨0x30, 12, .i16, .ro, 0⟩,
   ⟨0x40, 6, .u8, .ro, 0⟩,
   ⟨0x48, 6, .u32, .rc, 0⟩]

/-- The security rows of index 0x1300 (R440). -/
def rows_1300 : List ObjRow :=
  [⟨0x1, 1, (.oct 32), .ro, 0⟩,
   ⟨0x2, 1, .enum8, .ro, 0⟩,
   ⟨0x3, 1, (.oct 32), .ro, 0⟩,
   ⟨0x4, 1, (.oct 64), .cmd, 0⟩,
   ⟨0x5, 1, .u8, .ro, 0⟩,
   ⟨0x6, 1, .u8, .ro, 0⟩,
   ⟨0x7, 1, .cmd, .cmd, 0⟩]

/-- The security rows of index 0x1301 (R440). -/
def rows_1301 : List ObjRow :=
  [⟨0x1, 8, (.oct 32), .ro, 0⟩,
   ⟨0x9, 1, (.oct 32), .cmd, 0⟩,
   ⟨0x10, 8, .u32, .ro, 0⟩]

/-- The security rows of index 0x1310 (R440). -/
def rows_1310 : List ObjRow :=
  [⟨0x1, 1, (.oct 64), .ro, 0⟩,
   ⟨0x2, 1, .enum8, .ro, 0⟩,
   ⟨0x3, 1, .u8, .ro, 0⟩,
   ⟨0x4, 1, (.oct 32), .ro, 0⟩]

/-- The security rows of index 0x1320 (R440). -/
def rows_1320 : List ObjRow :=
  [⟨0x1, 1, .u8, .rw, 0⟩,
   ⟨0x2, 1, (.oct 64), .rw, 0⟩,
   ⟨0x3, 1, .enum8, .rw, 0⟩,
   ⟨0x4, 1, .u8, .rw, 0⟩,
   ⟨0x5, 1, .cmd, .cmd, 0⟩]

/-- The security rows of index 0x1321 (R440). -/
def rows_1321 : List ObjRow :=
  [⟨0x1, 4, (.oct 64), .ro, 0⟩]

/-- The security rows of index 0x1330 (R440). -/
def rows_1330 : List ObjRow :=
  [⟨0x1, 1, (.oct 32), .cmd, 0⟩,
   ⟨0x2, 3, (.oct 64), .ro, 0⟩,
   ⟨0x5, 1, .u32, .ro, 0⟩]

/-- The security rows of index 0x1340 (R440). -/
def rows_1340 : List ObjRow :=
  [⟨0x1, 1, .enum8, .rw, 0⟩,
   ⟨0x2, 1, .u32, .rw, 0⟩,
   ⟨0x3, 1, (.oct 64), .wo, 0⟩,
   ⟨0x4, 3, .cmd, .cmd, 0⟩,
   ⟨0x7, 1, .enum8, .ro, 0⟩,
   ⟨0x8, 1, .u16, .ro, 0⟩]

/-- The security rows of index 0x1350 (R440). -/
def rows_1350 : List ObjRow :=
  [⟨0x1, 8, .u32, .ro, 0⟩,
   ⟨0x9, 1, .u8, .cmd, 0⟩,
   ⟨0xa, 1, .u8, .cmd, 0⟩]

namespace Obj

/-- R17. -/
def par_MODE (n : Nat) : Nat := objKey (0x6100 + n) 0x01
/-- R17. -/
def par_DIE_MASK (n : Nat) : Nat := objKey (0x6100 + n) 0x02
/-- R17. -/
def par_STACK_MASK (n : Nat) : Nat := objKey (0x6100 + n) 0x03
/-- R17. -/
def par_BULK_BASE (n : Nat) : Nat := objKey (0x6100 + n) 0x04
/-- R17. -/
def par_BULK_SIZE (n : Nat) : Nat := objKey (0x6100 + n) 0x05
/-- R17. -/
def par_STE_MASK (n : Nat) : Nat := objKey (0x6100 + n) 0x06
/-- R17. -/
def par_SWITCH_SHARE (n : Nat) : Nat := objKey (0x6100 + n) 0x07
/-- R17. -/
def par_REFUSED_ACCESS (n : Nat) : Nat := objKey (0x6100 + n) 0x08
/-- R17. -/
def par_LOAD_OPEN (n : Nat) : Nat := objKey (0x6100 + n) 0x09
/-- R39. -/
def core_MXE_SAT (c : Nat) (i : Nat) : Nat := objKey (0x6800 + c) (0x10 + i)
/-- R39. -/
def core_VXE_SAT (c : Nat) (i : Nat) : Nat := objKey (0x6800 + c) (0x20 + i)
/-- R39. -/
def core_SPE_SAT (c : Nat) (i : Nat) : Nat := objKey (0x6800 + c) (0x30 + i)
/-- R39. -/
def core_TXE_SAT (c : Nat) (i : Nat) : Nat := objKey (0x6800 + c) (0x40 + i)
/-- R39. -/
def core_NAN_OUT (c : Nat) (i : Nat) : Nat := objKey (0x6800 + c) (0x50 + i)
/-- R39. -/
def conv_SAT_TOTAL (i : Nat) : Nat := objKey (0x6400) (0x10 + i)
/-- R39. -/
def conv_NAN_OUT_TOTAL (i : Nat) : Nat := objKey (0x6400) (0x50 + i)
/-- R71. -/
def core_MXE_TERM_SAT (c : Nat) : Nat := objKey (0x6800 + c) 0x60
/-- R71. -/
def core_SPE_TERM_SAT (c : Nat) : Nat := objKey (0x6800 + c) 0x61
/-- R71. -/
def core_VXE_TERM_SAT (c : Nat) : Nat := objKey (0x6800 + c) 0x62
/-- R71. -/
def core_MXE_TERM_ZERO (c : Nat) : Nat := objKey (0x6800 + c) 0x64
/-- R71. -/
def core_SPE_TERM_ZERO (c : Nat) : Nat := objKey (0x6800 + c) 0x65
/-- R71. -/
def core_VXE_TERM_ZERO (c : Nat) : Nat := objKey (0x6800 + c) 0x66
/-- R71. -/
def core_TERM_POISON (c : Nat) : Nat := objKey (0x6800 + c) 0x68
/-- R71. -/
def core_SUM_SAT (c : Nat) : Nat := objKey (0x6800 + c) 0x69
/-- R71. -/
def core_RESIDUE_FAIL (c : Nat) : Nat := objKey (0x6800 + c) 0x6A
/-- R71. -/
def core_ANCHOR_MISS_OPS (c : Nat) : Nat := objKey (0x6800 + c) 0x6B
/-- R71. -/
def core_ANCHOR_RETRIES (c : Nat) : Nat := objKey (0x6800 + c) 0x6C
/-- R71. -/
def core_SR_CONV (c : Nat) : Nat := objKey (0x6800 + c) 0x6D
/-- R71. -/
def conv_EXACT_TOTAL (i : Nat) : Nat := objKey (0x6400) (0x60 + i)
/-- R110. -/
def core_CORE_STATE (c : Nat) : Nat := objKey (0x6800 + c) 0x01
/-- R110. -/
def core_FAULT_CODE (c : Nat) : Nat := objKey (0x6800 + c) 0x02
/-- R110. -/
def core_FAULT_QUEUE (c : Nat) : Nat := objKey (0x6800 + c) 0x03
/-- R110. -/
def core_FAULT_FLAG (c : Nat) : Nat := objKey (0x6800 + c) 0x04
/-- R110. -/
def core_FAULT_WANT (c : Nat) : Nat := objKey (0x6800 + c) 0x05
/-- R110. -/
def core_FAULT_SEEN (c : Nat) : Nat := objKey (0x6800 + c) 0x06
/-- R110. -/
def core_FAULT_TIME (c : Nat) : Nat := objKey (0x6800 + c) 0x07
/-- R110. -/
def core_FAULT_OPSEQ (c : Nat) : Nat := objKey (0x6800 + c) 0x08
/-- R110. -/
def core_NESTED_FAULTS (c : Nat) : Nat := objKey (0x6800 + c) 0x09
/-- R110. -/
def core_QUEUE_FILL (c : Nat) : Nat := objKey (0x6800 + c) 0x0A
/-- R110. -/
def core_ISSUE_STALL (c : Nat) : Nat := objKey (0x6800 + c) 0x0B
/-- R110. -/
def core_ICACHE_MISS (c : Nat) : Nat := objKey (0x6800 + c) 0x0C
/-- R110. -/
def core_ICACHE_CORR (c : Nat) : Nat := objKey (0x6800 + c) 0x0D
/-- R110. -/
def core_OPS_ISSUED (c : Nat) : Nat := objKey (0x6800 + c) 0x0E
/-- R110. -/
def core_LATE_SLOT (c : Nat) : Nat := objKey (0x6800 + c) 0x0F
/-- R111. -/
def partmo_GATE_TIMEOUT (n : Nat) : Nat := objKey (0x6200 + n) 0x01
/-- R111. -/
def partmo_REMOTE_TIMEOUT (n : Nat) : Nat := objKey (0x6200 + n) 0x02
/-- R112. -/
def prog_QUABEZO_VERSION : Nat := objKey 0x6000 0x03
/-- R112. -/
def prog_NUMERICS_EDITION : Nat := objKey 0x6000 0x04
/-- R112. -/
def prog_XAISK_VERSION : Nat := objKey 0x6000 0x05
/-- R137. -/
def core_WATCH_HIST (c : Nat) (i : Nat) : Nat := objKey (0x6800 + c) (0x70 + i)
/-- R137. -/
def core_WATCH_TILES (c : Nat) : Nat := objKey (0x6800 + c) 0x80
/-- R137. -/
def core_WATCH_SKIPPED (c : Nat) : Nat := objKey (0x6800 + c) 0x81
/-- R137. -/
def core_WATCH_OVER (c : Nat) : Nat := objKey (0x6800 + c) 0x82
/-- R137. -/
def core_MXE_BUSY (c : Nat) : Nat := objKey (0x6800 + c) 0x83
/-- R137. -/
def core_VXE_BUSY (c : Nat) : Nat := objKey (0x6800 + c) 0x84
/-- R137. -/
def core_PRESCAN_WAIT (c : Nat) : Nat := objKey (0x6800 + c) 0x85
/-- R137. -/
def core_GATHER_UNMARKED (c : Nat) : Nat := objKey (0x6800 + c) 0x86
/-- R138. -/
def watch_WATCH_ENABLE : Nat := objKey 0x6500 0x01
/-- R138. -/
def watch_WATCH_RATE_LOG2 : Nat := objKey 0x6500 0x02
/-- R138. -/
def watch_WATCH_SEED : Nat := objKey 0x6500 0x03
/-- R138. -/
def watch_WATCH_THRESH : Nat := objKey 0x6500 0x04
/-- R138. -/
def watch_FIRST_OVER_CORE : Nat := objKey 0x6500 0x05
/-- R138. -/
def watch_FIRST_OVER_TENSOR : Nat := objKey 0x6500 0x06
/-- R138. -/
def watch_FIRST_OVER_INDEX : Nat := objKey 0x6500 0x07
/-- R138. -/
def watch_FIRST_OVER_R : Nat := objKey 0x6500 0x08
/-- R138. -/
def watch_FIRST_OVER_TIME : Nat := objKey 0x6500 0x09
/-- R138. -/
def watch_WATCH_CLEAR : Nat := objKey 0x6500 0x0A
/-- R138. -/
def watch_WATCH_HIST_TOTAL (i : Nat) : Nat := objKey (0x6500) (0x10 + i)
/-- R138. -/
def watch_WATCH_TILES_TOTAL : Nat := objKey 0x6500 0x20
/-- R138. -/
def watch_WATCH_SKIPPED_TOTAL : Nat := objKey 0x6500 0x21
/-- R138. -/
def watch_WATCH_OVER_TOTAL : Nat := objKey 0x6500 0x22
/-- R155. -/
def core_SPE_BUSY (c : Nat) : Nat := objKey (0x6800 + c) 0x90
/-- R155. -/
def core_SP_POSITIONS (c : Nat) : Nat := objKey (0x6800 + c) 0x91
/-- R155. -/
def core_TILES_SPE (c : Nat) : Nat := objKey (0x6800 + c) 0x92
/-- R155. -/
def core_TILES_MXE (c : Nat) : Nat := objKey (0x6800 + c) 0x93
/-- R155. -/
def core_TILES_DENSE_KEPT (c : Nat) : Nat := objKey (0x6800 + c) 0x94
/-- R155. -/
def core_STEALS (c : Nat) : Nat := objKey (0x6800 + c) 0x95
/-- R155. -/
def core_BANK_STALL (c : Nat) : Nat := objKey (0x6800 + c) 0x96
/-- R155. -/
def core_BANK_QUEUED (c : Nat) : Nat := objKey (0x6800 + c) 0x97
/-- R155. -/
def core_HANDOFF_DELAY (c : Nat) : Nat := objKey (0x6800 + c) 0x98
/-- R155. -/
def core_SP_FAULT_ROW (c : Nat) : Nat := objKey (0x6800 + c) 0x99
/-- R155. -/
def core_SP_FAULT_POS (c : Nat) : Nat := objKey (0x6800 + c) 0x9A
/-- R155. -/
def core_SP_FAULT_COUNT (c : Nat) : Nat := objKey (0x6800 + c) 0x9B
/-- R155. -/
def core_PACK_PAD (c : Nat) : Nat := objKey (0x6800 + c) 0x9C
/-- R155. -/
def core_PRUNED (c : Nat) : Nat := objKey (0x6800 + c) 0x9D
/-- R156. -/
def spe_SP_HANDOFF : Nat := objKey 0x6600 0x01
/-- R156. -/
def spe_SP_THRESH_4 : Nat := objKey 0x6600 0x02
/-- R156. -/
def spe_SP_THRESH_8 : Nat := objKey 0x6600 0x03
/-- R156. -/
def spe_SP_THRESH_16 : Nat := objKey 0x6600 0x04
/-- R156. -/
def spe_TILES_SPE_TOTAL : Nat := objKey 0x6600 0x10
/-- R156. -/
def spe_TILES_MXE_TOTAL : Nat := objKey 0x6600 0x11
/-- R156. -/
def spe_TILES_DENSE_KEPT_TOTAL : Nat := objKey 0x6600 0x12
/-- R156. -/
def spe_STEALS_TOTAL : Nat := objKey 0x6600 0x13
/-- R156. -/
def spe_BANK_STALL_TOTAL : Nat := objKey 0x6600 0x14
/-- R156. -/
def spe_SP_FAULTS_TOTAL : Nat := objKey 0x6600 0x15
/-- R180. -/
def mem_BULK_SPEED : Nat := objKey 0x5000 0x01
/-- R180. -/
def mem_BULK_MODULE_GIB : Nat := objKey 0x5000 0x02
/-- R180. -/
def mem_BULK_TOTAL_GIB : Nat := objKey 0x5000 0x03
/-- R180. -/
def mem_BULK_RATE : Nat := objKey 0x5000 0x04
/-- R180. -/
def mem_BULK_POP_FAULT : Nat := objKey 0x5000 0x05
/-- R180. -/
def mem_BULK_POP_CHAN : Nat := objKey 0x5000 0x06
/-- R180. -/
def mem_SPILL_GIB : Nat := objKey 0x5000 0x07
/-- R180. -/
def mem_SCRUB_HOURS : Nat := objKey 0x5000 0x08
/-- R180. -/
def mem_CORR_TOTAL : Nat := objKey 0x5000 0x10
/-- R180. -/
def mem_UNCORR_TOTAL : Nat := objKey 0x5000 0x11
/-- R180. -/
def mem_ACC_TERMS_TOTAL : Nat := objKey 0x5000 0x12
/-- R181. -/
def parmem_SHARD_OFFSET (n : Nat) : Nat := objKey (0x5100 + n) 0x01
/-- R181. -/
def parmem_SHARD_GIB (n : Nat) : Nat := objKey (0x5100 + n) 0x02
/-- R181. -/
def parmem_ACTIVE_HALF (n : Nat) : Nat := objKey (0x5100 + n) 0x03
/-- R181. -/
def parmem_FLIPS (n : Nat) : Nat := objKey (0x5100 + n) 0x04
/-- R181. -/
def parmem_PARK_STATE (n : Nat) : Nat := objKey (0x5100 + n) 0x05
/-- R181. -/
def parmem_PARK_STEP (n : Nat) : Nat := objKey (0x5100 + n) 0x06
/-- R181. -/
def parmem_NEAR_REFRESH_STEP (n : Nat) : Nat := objKey (0x5100 + n) 0x07
/-- R181. -/
def parmem_BULK_REFRESH_STEP (n : Nat) : Nat := objKey (0x5100 + n) 0x08
/-- R181. -/
def parmem_NEAR_REFRESH (n : Nat) : Nat := objKey (0x5100 + n) 0x09
/-- R181. -/
def parmem_BULK_REFRESH (n : Nat) : Nat := objKey (0x5100 + n) 0x0A
/-- R182. -/
def ctl_CORR (u : Nat) : Nat := objKey (ctlIndex u) 0x01
/-- R182. -/
def ctl_UNCORR (u : Nat) : Nat := objKey (ctlIndex u) 0x02
/-- R182. -/
def ctl_FIRST_UNCORR_ADDR (u : Nat) : Nat := objKey (ctlIndex u) 0x03
/-- R182. -/
def ctl_SCRUB_PASSES (u : Nat) : Nat := objKey (ctlIndex u) 0x04
/-- R182. -/
def ctl_REFRESH_DELAYED (u : Nat) : Nat := objKey (ctlIndex u) 0x05
/-- R182. -/
def ctl_ACC_TERMS (u : Nat) : Nat := objKey (ctlIndex u) 0x06
/-- R182. -/
def ctl_ACC_TERM_SAT (u : Nat) : Nat := objKey (ctlIndex u) 0x07
/-- R182. -/
def ctl_ACC_TERM_ZERO (u : Nat) : Nat := objKey (ctlIndex u) 0x08
/-- R182. -/
def ctl_ACC_POISON (u : Nat) : Nat := objKey (ctlIndex u) 0x09
/-- R182. -/
def ctl_ACC_SUM_SAT (u : Nat) : Nat := objKey (ctlIndex u) 0x0A
/-- R182. -/
def ctl_ACC_RESIDUE_FAIL (u : Nat) : Nat := objKey (ctlIndex u) 0x0B
/-- R182. -/
def ctl_ACC_REFUSED (u : Nat) : Nat := objKey (ctlIndex u) 0x0C
/-- R182. -/
def ctl_ACC_CONV_SAT (u : Nat) : Nat := objKey (ctlIndex u) 0x0D
/-- R182. -/
def ctl_ACC_EVICT (u : Nat) : Nat := objKey (ctlIndex u) 0x0E
/-- R182. -/
def ctl_ACC_HIT (u : Nat) : Nat := objKey (ctlIndex u) 0x0F
/-- R216. -/
def port_ROLE (p : Nat) : Nat := objKey (0x3000 + p) 0x01
/-- R216. -/
def port_MODE (p : Nat) : Nat := objKey (0x3000 + p) 0x02
/-- R216. -/
def port_MEDIUM (p : Nat) : Nat := objKey (0x3000 + p) 0x03
/-- R216. -/
def port_LINK_STATE (p : Nat) : Nat := objKey (0x3000 + p) 0x04
/-- R216. -/
def port_PEER_PHYS_ID (p : Nat) : Nat := objKey (0x3000 + p) 0x05
/-- R216. -/
def port_PEER_PORT (p : Nat) : Nat := objKey (0x3000 + p) 0x06
/-- R216. -/
def port_WIRING (p : Nat) : Nat := objKey (0x3000 + p) 0x07
/-- R216. -/
def port_FEC_CORR (p : Nat) : Nat := objKey (0x3000 + p) 0x08
/-- R216. -/
def port_FEC_UNCORR (p : Nat) : Nat := objKey (0x3000 + p) 0x09
/-- R216. -/
def port_CRC_ERR (p : Nat) : Nat := objKey (0x3000 + p) 0x0A
/-- R216. -/
def port_REPLAYS (p : Nat) : Nat := objKey (0x3000 + p) 0x0B
/-- R216. -/
def port_LU_REPLAYED (p : Nat) : Nat := objKey (0x3000 + p) 0x0C
/-- R216. -/
def port_LINK_DOWNS (p : Nat) : Nat := objKey (0x3000 + p) 0x0D
/-- R216. -/
def port_RX_DISCARD (p : Nat) : Nat := objKey (0x3000 + p) 0x0E
/-- R216. -/
def port_RX_REFUSED (p : Nat) : Nat := objKey (0x3000 + p) 0x0F
/-- R216. -/
def port_CM_MARKED (p : Nat) : Nat := objKey (0x3000 + p) 0x10
/-- R216. -/
def port_TX_LU (p : Nat) : Nat := objKey (0x3000 + p) 0x11
/-- R216. -/
def port_RX_LU (p : Nat) : Nat := objKey (0x3000 + p) 0x12
/-- R216. -/
def port_NO_ROUTE (p : Nat) : Nat := objKey (0x3000 + p) 0x13
/-- R216. -/
def port_SVC_MAC (p : Nat) : Nat := objKey (0x3000 + p) 0x20
/-- R216. -/
def port_SVC_ADDR (p : Nat) : Nat := objKey (0x3000 + p) 0x21
/-- R216. -/
def port_SVC_VID (p : Nat) : Nat := objKey (0x3000 + p) 0x22
/-- R216. -/
def port_SVC_MTU (p : Nat) : Nat := objKey (0x3000 + p) 0x23
/-- R216. -/
def port_ETH_FCS_ERR (p : Nat) : Nat := objKey (0x3000 + p) 0x24
/-- R216. -/
def port_ETH_DISCARD (p : Nat) : Nat := objKey (0x3000 + p) 0x25
/-- R216. -/
def port_UDP_CSUM_ERR (p : Nat) : Nat := objKey (0x3000 + p) 0x26
/-- R216. -/
def port_PEER_UNKNOWN (p : Nat) : Nat := objKey (0x3000 + p) 0x27
/-- R217. -/
def topo_TOPO_DIMS : Nat := objKey 0x4000 0x01
/-- R217. -/
def topo_SIZE (i : Nat) : Nat := objKey (0x4000) (0x02 + i)
/-- R217. -/
def topo_TRUNK (i : Nat) : Nat := objKey (0x4000) (0x06 + i)
/-- R217. -/
def topo_SPARES : Nat := objKey 0x4000 0x0A
/-- R217. -/
def topo_GROUP : Nat := objKey 0x4000 0x0B
/-- R217. -/
def topo_POSITION : Nat := objKey 0x4000 0x0C
/-- R217. -/
def topo_STANDIN : Nat := objKey 0x4000 0x0D
/-- R217. -/
def topo_LOGICAL_ID : Nat := objKey 0x4000 0x0E
/-- R217. -/
def topo_ROUTE_TC : Nat := objKey 0x4000 0x0F
/-- R217. -/
def topo_FABRIC_MGMT : Nat := objKey 0x4000 0x10
/-- R217. -/
def topo_REPLAY_TIMEOUT : Nat := objKey 0x4000 0x11
/-- R217. -/
def topo_NO_ROUTE_TOTAL : Nat := objKey 0x4000 0x12
/-- R217. -/
def topo_DETOURS_TOTAL : Nat := objKey 0x4000 0x13
/-- R217. -/
def topo_HOP_LIMIT_DROPS : Nat := objKey 0x4000 0x14
/-- R218. -/
def parfab_JOB_ID (n : Nat) : Nat := objKey (0x4100 + n) 0x01
/-- R218. -/
def parfab_LU_REPLAYED_STEP (n : Nat) : Nat := objKey (0x4100 + n) 0x02
/-- R218. -/
def parfab_LU_REPLAYED (n : Nat) : Nat := objKey (0x4100 + n) 0x03
/-- R219. -/
def peer_PEER_ADDR (i : Nat) : Nat := objKey (0x4400 + i) 0x01
/-- R219. -/
def peer_PEER_PARCELS (i : Nat) : Nat := objKey (0x4400 + i) 0x02
/-- R219. -/
def peer_PEER_OPS (i : Nat) : Nat := objKey (0x4400 + i) 0x03
/-- R219. -/
def peer_PEER_REQUESTS (i : Nat) : Nat := objKey (0x4400 + i) 0x04
/-- R240. -/
def pool_CAPACITY (q : Nat) : Nat := objKey (0x4200 + q) 0x01
/-- R240. -/
def pool_IN_USE (q : Nat) : Nat := objKey (0x4200 + q) 0x02
/-- R240. -/
def pool_HIGH_WATER (q : Nat) : Nat := objKey (0x4200 + q) 0x03
/-- R240. -/
def pool_WARN (q : Nat) : Nat := objKey (0x4200 + q) 0x04
/-- R240. -/
def pool_BACKPRESSURE (q : Nat) : Nat := objKey (0x4200 + q) 0x05
/-- R240. -/
def pool_CRITICAL (q : Nat) : Nat := objKey (0x4200 + q) 0x06
/-- R240. -/
def pool_WARN_EVENTS (q : Nat) : Nat := objKey (0x4200 + q) 0x07
/-- R240. -/
def pool_BP_EVENTS (q : Nat) : Nat := objKey (0x4200 + q) 0x08
/-- R240. -/
def pool_CRIT_DROPS (q : Nat) : Nat := objKey (0x4200 + q) 0x09
/-- R240. -/
def pool_EMPTY_DROPS (q : Nat) : Nat := objKey (0x4200 + q) 0x0A
/-- R240. -/
def pool_DOUBLE_FREE (q : Nat) : Nat := objKey (0x4200 + q) 0x0B
/-- R240. -/
def pool_BAD_INDEX (q : Nat) : Nat := objKey (0x4200 + q) 0x0C
/-- R240. -/
def pool_REF_OVERFLOW (q : Nat) : Nat := objKey (0x4200 + q) 0x0D
/-- R240. -/
def pool_FIRST_REFUSED_BUF (q : Nat) : Nat := objKey (0x4200 + q) 0x0E
/-- R240. -/
def pool_FIRST_REFUSED_CODE (q : Nat) : Nat := objKey (0x4200 + q) 0x0F
/-- R240. -/
def pool_LIST_CORRUPT (q : Nat) : Nat := objKey (0x4200 + q) 0x10
/-- R240. -/
def pool_UNACCOUNTED (q : Nat) : Nat := objKey (0x4200 + q) 0x11
/-- R240. -/
def pool_LOSSY_ALLOW (q : Nat) : Nat := objKey (0x4200 + q) 0x12
/-- R240. -/
def pool_ENTRIES_FREE (q : Nat) : Nat := objKey (0x4200 + q) 0x13
/-- R241. -/
def lim_CREDIT (i : Nat) : Nat := objKey (0x4202) (0x10 + i)
/-- R241. -/
def lim_OQ_LIMIT (i : Nat) : Nat := objKey (0x4202) (0x20 + i)
/-- R241. -/
def lim_MARK_THRESH (i : Nat) : Nat := objKey (0x4202) (0x30 + i)
/-- R241. -/
def lim_SPILL_CLASSES : Nat := objKey 0x4202 0x40
/-- R241. -/
def lim_SPILL_START : Nat := objKey 0x4202 0x41
/-- R241. -/
def lim_SPILL_RETURN : Nat := objKey 0x4202 0x42
/-- R241. -/
def lim_STAGE_NAK_TOTAL : Nat := objKey 0x4202 0x43
/-- R241. -/
def lim_LOSSY_DROPS_TOTAL : Nat := objKey 0x4202 0x44
/-- R242. -/
def sw_CREDIT_SCALE (x : Nat) : Nat := objKey (endIndex x) 0x30
/-- R242. -/
def sw_STAGE_NAK (x : Nat) : Nat := objKey (endIndex x) 0x31
/-- R242. -/
def sw_XBAR_CELLS (x : Nat) : Nat := objKey (endIndex x) 0x32
/-- R242. -/
def sw_LOSSY_DROPS (x : Nat) : Nat := objKey (endIndex x) 0x33
/-- R242. -/
def sw_OQ_CELLS (x : Nat) : Nat := objKey (endIndex x) 0x34
/-- R242. -/
def sw_OQ_SPILLED (x : Nat) : Nat := objKey (endIndex x) 0x35
/-- R242. -/
def sw_OQ_HIGH_WATER (x : Nat) : Nat := objKey (endIndex x) 0x36
/-- R243. -/
def parfab_POOL_CHARGED (n : Nat) : Nat := objKey (0x4100 + n) 0x10
/-- R243. -/
def parfab_POOL_LIMIT (n : Nat) : Nat := objKey (0x4100 + n) 0x11
/-- R243. -/
def parfab_LIMIT_EVENTS (n : Nat) : Nat := objKey (0x4100 + n) 0x12
/-- R259. -/
def cls_LOSSLESS : Nat := objKey 0x4300 0x01
/-- R259. -/
def cls_SHAPE_ENABLE : Nat := objKey 0x4300 0x02
/-- R259. -/
def cls_WEIGHT (i : Nat) : Nat := objKey (0x4300) (0x10 + i)
/-- R259. -/
def cls_IDLE (i : Nat) : Nat := objKey (0x4300) (0x20 + i)
/-- R259. -/
def cls_HI (i : Nat) : Nat := objKey (0x4300) (0x28 + i)
/-- R259. -/
def cls_PFC_QUANTA : Nat := objKey 0x4300 0x30
/-- R259. -/
def cls_PFC_REFRESH : Nat := objKey 0x4300 0x31
/-- R260. -/
def sw_TX_CELLS (x : Nat) (i : Nat) : Nat := objKey (endIndex x) (0x38 + i)
/-- R260. -/
def sw_PFC_XOFF_TX (x : Nat) (i : Nat) : Nat := objKey (endIndex x) (0x50 + i)
/-- R260. -/
def sw_PFC_XOFF_RX (x : Nat) (i : Nat) : Nat := objKey (endIndex x) (0x58 + i)
/-- R261. -/
def pol_MODE (i : Nat) : Nat := objKey (0x4800 + i) 0x01
/-- R261. -/
def pol_CIR (i : Nat) : Nat := objKey (0x4800 + i) 0x02
/-- R261. -/
def pol_CBS (i : Nat) : Nat := objKey (0x4800 + i) 0x03
/-- R261. -/
def pol_PIR (i : Nat) : Nat := objKey (0x4800 + i) 0x04
/-- R261. -/
def pol_PBS (i : Nat) : Nat := objKey (0x4800 + i) 0x05
/-- R261. -/
def pol_GREEN (i : Nat) : Nat := objKey (0x4800 + i) 0x06
/-- R261. -/
def pol_YELLOW (i : Nat) : Nat := objKey (0x4800 + i) 0x07
/-- R261. -/
def pol_RED (i : Nat) : Nat := objKey (0x4800 + i) 0x08
/-- R262. -/
def parfab_PACE_HELD (n : Nat) : Nat := objKey (0x4100 + n) 0x20
/-- R289. -/
def ste_STE_STATE (j : Nat) : Nat := objKey (0x7800 + j) 0x01
/-- R289. -/
def ste_STE_PARCEL (j : Nat) : Nat := objKey (0x7800 + j) 0x02
/-- R289. -/
def ste_RUNS_TOTAL (j : Nat) : Nat := objKey (0x7800 + j) 0x03
/-- R289. -/
def ste_FAULT_CODE (j : Nat) : Nat := objKey (0x7800 + j) 0x04
/-- R289. -/
def ste_FAULT_PC (j : Nat) : Nat := objKey (0x7800 + j) 0x05
/-- R289. -/
def ste_FAULT_END (j : Nat) : Nat := objKey (0x7800 + j) 0x06
/-- R289. -/
def ste_FAULT_TIME (j : Nat) : Nat := objKey (0x7800 + j) 0x07
/-- R289. -/
def ste_CMD_REFUSED (j : Nat) : Nat := objKey (0x7800 + j) 0x08
/-- R289. -/
def ste_BUSY (j : Nat) : Nat := objKey (0x7800 + j) 0x09
/-- R289. -/
def ste_RECORDS_IN (j : Nat) : Nat := objKey (0x7800 + j) 0x0A
/-- R289. -/
def ste_RECORDS_OUT (j : Nat) : Nat := objKey (0x7800 + j) 0x0B
/-- R289. -/
def ste_TERM_SAT (j : Nat) : Nat := objKey (0x7800 + j) 0x0C
/-- R289. -/
def ste_TERM_ZERO (j : Nat) : Nat := objKey (0x7800 + j) 0x0D
/-- R289. -/
def ste_TERM_POISON (j : Nat) : Nat := objKey (0x7800 + j) 0x0E
/-- R289. -/
def ste_SUM_SAT (j : Nat) : Nat := objKey (0x7800 + j) 0x0F
/-- R289. -/
def ste_RESIDUE_FAIL (j : Nat) : Nat := objKey (0x7800 + j) 0x10
/-- R289. -/
def ste_CONV_SAT (j : Nat) : Nat := objKey (0x7800 + j) 0x11
/-- R289. -/
def ste_NAN_OUT (j : Nat) : Nat := objKey (0x7800 + j) 0x12
/-- R289. -/
def ste_SCATTER_DROPPED (j : Nat) : Nat := objKey (0x7800 + j) 0x13
/-- R289. -/
def ste_RX_REFUSED (j : Nat) : Nat := objKey (0x7800 + j) 0x14
/-- R289. -/
def ste_GETS_ISSUED (j : Nat) : Nat := objKey (0x7800 + j) 0x15
/-- R289. -/
def ste_PARTIAL_RUNS (j : Nat) : Nat := objKey (0x7800 + j) 0x16
/-- R290. -/
def stetot_STE_RUNS_TOTAL : Nat := objKey 0x7700 0x01
/-- R290. -/
def stetot_STE_FAULTS_TOTAL : Nat := objKey 0x7700 0x02
/-- R290. -/
def stetot_STE_TERM_SAT_TOTAL : Nat := objKey 0x7700 0x03
/-- R290. -/
def stetot_STE_RESIDUE_FAIL_TOTAL : Nat := objKey 0x7700 0x04
/-- R290. -/
def stetot_STE_CONV_SAT_TOTAL : Nat := objKey 0x7700 0x05
/-- R290. -/
def stetot_STE_PARTIAL_RUNS_TOTAL : Nat := objKey 0x7700 0x06
/-- R320. -/
def coll_DIRECT_MAX : Nat := objKey 0x7000 0x01
/-- R320. -/
def coll_REPL_MAX : Nat := objKey 0x7000 0x02
/-- R320. -/
def coll_ACC_MIN : Nat := objKey 0x7000 0x03
/-- R320. -/
def coll_TRAVERSE_PIECE : Nat := objKey 0x7000 0x04
/-- R320. -/
def coll_CONTEXTS_USED : Nat := objKey 0x7000 0x05
/-- R320. -/
def coll_EARLY_RESERVED : Nat := objKey 0x7000 0x06
/-- R320. -/
def coll_EARLY_HELD : Nat := objKey 0x7000 0x07
/-- R320. -/
def coll_INSTANCES_TOTAL : Nat := objKey 0x7000 0x10
/-- R320. -/
def coll_STALE_RX_TOTAL : Nat := objKey 0x7000 0x11
/-- R320. -/
def coll_LATE_RX_TOTAL : Nat := objKey 0x7000 0x12
/-- R320. -/
def coll_EARLY_HOLDS_TOTAL : Nat := objKey 0x7000 0x13
/-- R320. -/
def coll_EARLY_REFUSED_TOTAL : Nat := objKey 0x7000 0x14
/-- R320. -/
def coll_BACKUP_MATCH_TOTAL : Nat := objKey 0x7000 0x15
/-- R320. -/
def coll_BACKUP_MISMATCH_TOTAL : Nat := objKey 0x7000 0x16
/-- R320. -/
def coll_PARTIAL_TOTAL : Nat := objKey 0x7000 0x17
/-- R320. -/
def coll_AGREE_FAIL_TOTAL : Nat := objKey 0x7000 0x18
/-- R320. -/
def coll_ANCHOR_MISS_TOTAL : Nat := objKey 0x7000 0x19
/-- R352. -/
def time_TIME_PRIORITY : Nat := objKey 0x1100 0x01
/-- R352. -/
def time_TIME_SOURCE : Nat := objKey 0x1100 0x02
/-- R352. -/
def time_SOURCE_PORT : Nat := objKey 0x1100 0x03
/-- R352. -/
def time_EPOCH_TAI : Nat := objKey 0x1100 0x04
/-- R352. -/
def time_UTC_OFFSET : Nat := objKey 0x1100 0x05
/-- R352. -/
def time_LEAP : Nat := objKey 0x1100 0x06
/-- R352. -/
def time_SYNC_INTERVAL : Nat := objKey 0x1100 0x07
/-- R352. -/
def time_DATUM_TIMEOUT : Nat := objKey 0x1100 0x08
/-- R352. -/
def time_STEP_LIMIT : Nat := objKey 0x1100 0x09
/-- R352. -/
def time_TIME_STATE : Nat := objKey 0x1100 0x10
/-- R352. -/
def time_DATUM_PHYS : Nat := objKey 0x1100 0x11
/-- R352. -/
def time_DATUM_PRIO : Nat := objKey 0x1100 0x12
/-- R352. -/
def time_DATUM_DIST : Nat := objKey 0x1100 0x13
/-- R352. -/
def time_PARENT_PORT : Nat := objKey 0x1100 0x14
/-- R352. -/
def time_OFFSET_EST : Nat := objKey 0x1100 0x15
/-- R352. -/
def time_FREQ_ADJ : Nat := objKey 0x1100 0x16
/-- R352. -/
def time_TIME_STEPS : Nat := objKey 0x1100 0x17
/-- R352. -/
def time_LAST_STEP_SIZE : Nat := objKey 0x1100 0x18
/-- R352. -/
def time_ELECTIONS : Nat := objKey 0x1100 0x19
/-- R352. -/
def time_LOCKED_SINCE : Nat := objKey 0x1100 0x1A
/-- R352. -/
def time_PPS_IN_OFFSET : Nat := objKey 0x1100 0x1B
/-- R352. -/
def time_PPS_IN_SEEN : Nat := objKey 0x1100 0x1C
/-- R352. -/
def time_SOURCE_STATE : Nat := objKey 0x1100 0x1D
/-- R352. -/
def time_EPOCH_IN_USE : Nat := objKey 0x1100 0x1E
/-- R352. -/
def time_NOW : Nat := objKey 0x1100 0x1F
/-- R353. -/
def port_LINK_ASYM (p : Nat) : Nat := objKey (0x3000 + p) 0x60
/-- R353. -/
def port_LINK_DELAY (p : Nat) : Nat := objKey (0x3000 + p) 0x61
/-- R353. -/
def port_TIME_RX (p : Nat) : Nat := objKey (0x3000 + p) 0x62
/-- R353. -/
def port_TIME_BAD (p : Nat) : Nat := objKey (0x3000 + p) 0x63
/-- R353. -/
def port_PEER_OFFSET (p : Nat) : Nat := objKey (0x3000 + p) 0x64
/-- R353. -/
def port_PTP_ENABLE (p : Nat) : Nat := objKey (0x3000 + p) 0x68
/-- R353. -/
def port_PTP_DOMAIN (p : Nat) : Nat := objKey (0x3000 + p) 0x69
/-- R353. -/
def port_PTP_PORT_STATE (p : Nat) : Nat := objKey (0x3000 + p) 0x6A
/-- R353. -/
def port_PTP_SYNC_LOG (p : Nat) : Nat := objKey (0x3000 + p) 0x6B
/-- R353. -/
def port_PTP_ANNOUNCE_LOG (p : Nat) : Nat := objKey (0x3000 + p) 0x6C
/-- R353. -/
def port_PTP_DELAY_REQ_RX (p : Nat) : Nat := objKey (0x3000 + p) 0x6D
/-- R354. -/
def pardig_PROGRAM_DIGEST (n : Nat) : Nat := objKey (0x6300 + n) 0x01
/-- R354. -/
def pardig_WEIGHTS_DIGEST (n : Nat) : Nat := objKey (0x6300 + n) 0x02
/-- R354. -/
def pardig_INPUT_DIGEST (n : Nat) : Nat := objKey (0x6300 + n) 0x03
/-- R354. -/
def pardig_JOB_DIGEST (n : Nat) : Nat := objKey (0x6300 + n) 0x04
/-- R354. -/
def pardig_RESULT_DIGEST (n : Nat) : Nat := objKey (0x6300 + n) 0x05
/-- R354. -/
def pardig_RESULT_STEP (n : Nat) : Nat := objKey (0x6300 + n) 0x06
/-- R381. -/
def ring_WRITE_SEQ : Nat := objKey 0x8000 0x01
/-- R381. -/
def ring_NESTED_TOTAL : Nat := objKey 0x8000 0x02
/-- R381. -/
def ring_ENTRIES (i : Nat) : Nat := objKey (0x8000) (0x10 + i)
/-- R382. -/
def level_LEVEL_INTERVAL : Nat := objKey 0x8200 0x01
/-- R382. -/
def level_LEVEL_NOW : Nat := objKey 0x8200 0x02
/-- R382. -/
def level_LEVEL_RUNS : Nat := objKey 0x8200 0x03
/-- R382. -/
def level_LEVEL_LAST : Nat := objKey 0x8200 0x04
/-- R382. -/
def level_RETIRE_ADVICE : Nat := objKey 0x8200 0x05
/-- R382. -/
def level_RETIRE_CAUSE : Nat := objKey 0x8200 0x06
/-- R382. -/
def level_MARGIN_CLASS : Nat := objKey 0x8200 0x07
/-- R382. -/
def level_MARGIN (i : Nat) : Nat := objKey (0x8200) (0x10 + i)
/-- R382. -/
def level_TREND (i : Nat) : Nat := objKey (0x8200) (0x20 + i)
/-- R383. -/
def port_EYE_H (p : Nat) (i : Nat) : Nat := objKey (0x3000 + p) (0x70 + i)
/-- R383. -/
def port_EYE_W (p : Nat) (i : Nat) : Nat := objKey (0x3000 + p) (0x74 + i)
/-- R383. -/
def port_OPT_RX (p : Nat) (i : Nat) : Nat := objKey (0x3000 + p) (0x78 + i)
/-- R383. -/
def port_OPT_TX (p : Nat) (i : Nat) : Nat := objKey (0x3000 + p) (0x7C + i)
/-- R384. -/
def res_JOB_STATE (n : Nat) : Nat := objKey (0x8300 + n) 0x01
/-- R384. -/
def res_JOB_GROUP (n : Nat) : Nat := objKey (0x8300 + n) 0x02
/-- R384. -/
def res_STEP_IN_FLIGHT (n : Nat) : Nat := objKey (0x8300 + n) 0x03
/-- R384. -/
def res_STEP_T0 (n : Nat) : Nat := objKey (0x8300 + n) 0x04
/-- R384. -/
def res_LOCAL_STEP (n : Nat) : Nat := objKey (0x8300 + n) 0x05
/-- R384. -/
def res_LOCAL_STEP_DIGEST (n : Nat) : Nat := objKey (0x8300 + n) 0x06
/-- R384. -/
def res_AGREED_STEP_DIGEST (n : Nat) : Nat := objKey (0x8300 + n) 0x07
/-- R384. -/
def res_LAST_COMMIT_SLOT (n : Nat) : Nat := objKey (0x8300 + n) 0x08
/-- R384. -/
def res_COMMIT_TIMEOUT (n : Nat) : Nat := objKey (0x8300 + n) 0x09
/-- R384. -/
def res_RESUME_TIMEOUT (n : Nat) : Nat := objKey (0x8300 + n) 0x0A
/-- R384. -/
def res_RESUME_MARGIN (n : Nat) : Nat := objKey (0x8300 + n) 0x0B
/-- R384. -/
def res_ADOPT_FROM (n : Nat) : Nat := objKey (0x8300 + n) 0x0C
/-- R384. -/
def res_SHADOW_TARGET (n : Nat) : Nat := objKey (0x8300 + n) 0x0D
/-- R384. -/
def res_SHADOW_TPARCEL (n : Nat) : Nat := objKey (0x8300 + n) 0x0E
/-- R384. -/
def res_SHADOW_NEEDED (n : Nat) : Nat := objKey (0x8300 + n) 0x0F
/-- R384. -/
def res_SHADOW_MATCHES (n : Nat) : Nat := objKey (0x8300 + n) 0x10
/-- R384. -/
def res_SHADOW_STATE (n : Nat) : Nat := objKey (0x8300 + n) 0x11
/-- R384. -/
def res_COMMITS (n : Nat) : Nat := objKey (0x8300 + n) 0x12
/-- R384. -/
def res_ROLLBACKS (n : Nat) : Nat := objKey (0x8300 + n) 0x13
/-- R384. -/
def res_COMMIT_LATE (n : Nat) : Nat := objKey (0x8300 + n) 0x14
/-- R384. -/
def res_RESTARTS_NEEDED (n : Nat) : Nat := objKey (0x8300 + n) 0x15
/-- R384. -/
def res_ROLLBACK (n : Nat) : Nat := objKey (0x8300 + n) 0x16
/-- R384. -/
def res_RECLAIM (n : Nat) : Nat := objKey (0x8300 + n) 0x17
/-- R384. -/
def res_JOB_RESET (n : Nat) : Nat := objKey (0x8300 + n) 0x18
/-- R384. -/
def res_RECLAIM_UNITS (n : Nat) : Nat := objKey (0x8300 + n) 0x19
/-- R384. -/
def res_RESTORE_UNITS (n : Nat) : Nat := objKey (0x8300 + n) 0x1A
/-- R385. -/
def ferr_FIRST_ERROR (f : Nat) : Nat := objKey (0x8400 + f) 0x01
/-- R385. -/
def ferr_FIRST_NESTED (f : Nat) : Nat := objKey (0x8400 + f) 0x02
/-- R385. -/
def ferr_NESTED (f : Nat) : Nat := objKey (0x8400 + f) 0x03
/-- R385. -/
def ferr_HANDLING (f : Nat) : Nat := objKey (0x8400 + f) 0x04
/-- R398. -/
def dev_DEVICE_STATE : Nat := objKey 0x2000 0x01
/-- R398. -/
def dev_FAULT_MASK : Nat := objKey 0x2000 0x02
/-- R398. -/
def dev_RUNNING_MASK : Nat := objKey 0x2000 0x03
/-- R398. -/
def dev_CHANGE_SEQ : Nat := objKey 0x2000 0x04
/-- R398. -/
def dev_POLL_WORD : Nat := objKey 0x2000 0x05
/-- R398. -/
def dev_BOOT_STAGE : Nat := objKey 0x2000 0x06
/-- R399. -/
def fn_NAME (f : Nat) : Nat := objKey (0x2100 + f) 0x01
/-- R399. -/
def fn_STATE (f : Nat) : Nat := objKey (0x2100 + f) 0x02
/-- R399. -/
def fn_START (f : Nat) : Nat := objKey (0x2100 + f) 0x03
/-- R399. -/
def fn_STOP (f : Nat) : Nat := objKey (0x2100 + f) 0x04
/-- R399. -/
def fn_REINIT (f : Nat) : Nat := objKey (0x2100 + f) 0x05
/-- R399. -/
def fn_AUTO_START (f : Nat) : Nat := objKey (0x2100 + f) 0x06
/-- R399. -/
def fn_LAST_CHANGE (f : Nat) : Nat := objKey (0x2100 + f) 0x07
/-- R399. -/
def fn_STARTS (f : Nat) : Nat := objKey (0x2100 + f) 0x08
/-- R399. -/
def fn_FAULT_ENTRIES (f : Nat) : Nat := objKey (0x2100 + f) 0x09
/-- R399. -/
def fn_START_RESULT (f : Nat) : Nat := objKey (0x2100 + f) 0x0A
/-- R413. -/
def id_VENDOR : Nat := objKey 0x1000 0x01
/-- R413. -/
def id_PRODUCT : Nat := objKey 0x1000 0x02
/-- R413. -/
def id_ORDER_NUMBER : Nat := objKey 0x1000 0x03
/-- R413. -/
def id_SILICON_STEP : Nat := objKey 0x1000 0x04
/-- R413. -/
def id_SERIAL : Nat := objKey 0x1000 0x05
/-- R413. -/
def id_PHYS_ID : Nat := objKey 0x1000 0x06
/-- R413. -/
def id_DICT_VERSION : Nat := objKey 0x1000 0x07
/-- R413. -/
def id_FIRMWARE_VERSION : Nat := objKey 0x1000 0x08
/-- R413. -/
def id_CONFIG_DIGEST : Nat := objKey 0x1000 0x09
/-- R413. -/
def id_RESET_CAUSE : Nat := objKey 0x1000 0x0A
/-- R413. -/
def id_BOOT_COUNT : Nat := objKey 0x1000 0x0B
/-- R413. -/
def id_LOCATION : Nat := objKey 0x1000 0x0C
/-- R413. -/
def id_IDENTITY_KEY_DIGEST : Nat := objKey 0x1000 0x0D
/-- R414. -/
def mgmt_MGMT_MAC : Nat := objKey 0x1010 0x01
/-- R414. -/
def mgmt_MGMT_ADDR : Nat := objKey 0x1010 0x02
/-- R414. -/
def mgmt_MGMT_LINK : Nat := objKey 0x1010 0x03
/-- R414. -/
def mgmt_SESSION_IDLE : Nat := objKey 0x1010 0x04
/-- R414. -/
def mgmt_SESSIONS_OPEN : Nat := objKey 0x1010 0x05
/-- R415. -/
def mgc_DAP_RX : Nat := objKey 0x9000 0x01
/-- R415. -/
def mgc_DAP_DISCARD : Nat := objKey 0x9000 0x02
/-- R415. -/
def mgc_DAP_MAC_FAIL : Nat := objKey 0x9000 0x03
/-- R415. -/
def mgc_DAP_SEQ_DISCARD : Nat := objKey 0x9000 0x04
/-- R415. -/
def mgc_DAP_RESENT : Nat := objKey 0x9000 0x05
/-- R415. -/
def mgc_DAP_OPEN_FAIL : Nat := objKey 0x9000 0x06
/-- R415. -/
def mgc_DAP_BUSY : Nat := objKey 0x9000 0x07
/-- R415. -/
def mgc_MGMT_PKT_RX : Nat := objKey 0x9000 0x08
/-- R415. -/
def mgc_MGMT_PKT_REFUSED : Nat := objKey 0x9000 0x09
/-- R415. -/
def mgc_I3C_READS : Nat := objKey 0x9000 0x0A
/-- R415. -/
def mgc_I3C_NOT_IN_VIEW : Nat := objKey 0x9000 0x0B
/-- R439. -/
def pow_VAUX33_MV : Nat := objKey 0x1200 0x01
/-- R439. -/
def pow_VIO18_MV : Nat := objKey 0x1200 0x02
/-- R439. -/
def pow_VIN12_MV : Nat := objKey 0x1200 0x03
/-- R439. -/
def pow_VIO11_MV : Nat := objKey 0x1200 0x04
/-- R439. -/
def pow_MGMT_TEMP : Nat := objKey 0x1200 0x05
/-- R439. -/
def pow_VIN12_MA : Nat := objKey 0x1200 0x06
/-- R439. -/
def pow_POWER_MW : Nat := objKey 0x1200 0x07
/-- R439. -/
def pow_RAMP_RATE : Nat := objKey 0x1200 0x08
/-- R439. -/
def pow_RAMP_SPREAD : Nat := objKey 0x1200 0x09
/-- R439. -/
def pow_RAMP_HELD : Nat := objKey 0x1200 0x0A
/-- R439. -/
def pow_OVERCURRENT_EVENTS : Nat := objKey 0x1200 0x0B
/-- R439. -/
def pow_THERM_HOT : Nat := objKey 0x1200 0x0C
/-- R439. -/
def pow_THERM_HYST : Nat := objKey 0x1200 0x0D
/-- R439. -/
def pow_STACK_HOT : Nat := objKey 0x1200 0x0E
/-- R439. -/
def pow_THERM_EPOCH : Nat := objKey 0x1200 0x0F
/-- R439. -/
def pow_CRIT_EVENTS : Nat := objKey 0x1200 0x10
/-- R439. -/
def pow_DIE_TEMP (i : Nat) : Nat := objKey (0x1200) (0x20 + i)
/-- R439. -/
def pow_FABRIC_TEMP : Nat := objKey 0x1200 0x28
/-- R439. -/
def pow_STACK_TEMP (i : Nat) : Nat := objKey (0x1200) (0x30 + i)
/-- R439. -/
def pow_CLOCK_LEVEL (i : Nat) : Nat := objKey (0x1200) (0x40 + i)
/-- R439. -/
def pow_LEVEL_CHANGES (i : Nat) : Nat := objKey (0x1200) (0x48 + i)
/-- R440. -/
def sec_ROOT_KEY_DIGEST : Nat := objKey 0x1300 0x01
/-- R440. -/
def sec_DEBUG_STATE : Nat := objKey 0x1300 0x02
/-- R440. -/
def sec_DEBUG_CHALLENGE : Nat := objKey 0x1300 0x03
/-- R440. -/
def sec_BOOT_SLOTS : Nat := objKey 0x1300 0x05
/-- R440. -/
def sec_FALLBACK : Nat := objKey 0x1300 0x06
/-- R440. -/
def sec_NEW_SLOT : Nat := objKey 0x1320 0x01
/-- R440. -/
def sec_NEW_KEY : Nat := objKey 0x1320 0x02
/-- R440. -/
def sec_NEW_ROLE : Nat := objKey 0x1320 0x03
/-- R440. -/
def sec_NEW_SIGNS : Nat := objKey 0x1320 0x04
/-- R440. -/
def sec_QUOTES : Nat := objKey 0x1330 0x05
/-- R440. -/
def upd_UPD_TYPE : Nat := objKey 0x1340 0x01
/-- R440. -/
def upd_UPD_OFFSET : Nat := objKey 0x1340 0x02
/-- R440. -/
def upd_UPD_STATE : Nat := objKey 0x1340 0x07
/-- R440. -/
def upd_UPD_RESULT : Nat := objKey 0x1340 0x08
/-- R440. -/
def sec_MEASURE (i : Nat) : Nat := objKey 0x1301 (0x01 + i)
/-- R440. -/
def sec_EXTENDS (i : Nat) : Nat := objKey 0x1301 (0x10 + i)
/-- R440. -/
def sec_OP_KEY (i : Nat) : Nat := objKey (0x1310 + i) 0x01
/-- R440. -/
def sec_OP_ROLE (i : Nat) : Nat := objKey (0x1310 + i) 0x02
/-- R440. -/
def sec_OP_SIGNS (i : Nat) : Nat := objKey (0x1310 + i) 0x03
/-- R440. -/
def sec_QUOTE_PART (i : Nat) : Nat := objKey 0x1330 (0x02 + i)
/-- R440. -/
def sec_COUNTER (i : Nat) : Nat := objKey 0x1350 (0x01 + i)
/-- R291. -/
def grp_ENTRY (g : Nat) : Nat := objKey (0x7100 + g / 256) (g % 256)
/-- R293. -/
def grp_MEMBER (i : Nat) : Nat := objKey (0x7200 + i / 256) (i % 256)
/-- R321. -/
def grp_STATE (g : Nat) : Nat := objKey (0x7300 + g / 256) (g % 256)
/-- R377. -/
def ring_ENTRY (i : Nat) : Nat := objKey 0x8100 (i % 256)

end Obj

/-- The function numbers of R393. -/
def isFunction (f : Nat) : Bool := f ≤ 6 || (8 ≤ f && f ≤ 11)

/-- The rows of a record index, and none for an index that does not exist (R386, R412). -/
def indexRows (i : Nat) : Option (List ObjRow) :=
  if i < 0x3000 then
    if i = 0x1000 then some rows_id else if i = 0x1010 then some rows_mgmt else if i = 0x1100 then some rows_time
    else if i = 0x1200 then some rows_pow else if i = 0x1300 then some rows_1300 else if i = 0x1301 then some rows_1301
    else if 0x1310 ≤ i ∧ i < 0x1320 then some rows_1310 else if i = 0x1320 then some rows_1320
    else if 0x1321 ≤ i ∧ i ≤ 0x1324 then some rows_1321 else if i = 0x1330 then some rows_1330
    else if i = 0x1340 then some rows_1340 else if i = 0x1350 then some rows_1350
    else if i = 0x2000 then some rows_dev
    else if 0x2100 ≤ i ∧ isFunction (i - 0x2100) then some rows_fn else none
  else if i < 0x5000 then
    if i < 0x3000 + 125 then some (rows_port.filter (fun r => r.lo < 0x20 || (0x60 ≤ r.lo && r.lo ≤ 0x64) || 0x70 ≤ r.lo)
        ++ rows_sw.filter (fun r => r.lo < 0x50))
    else if i < 0x3000 + 144 then some (rows_port.filter (fun r => !(0x60 ≤ r.lo && r.lo ≤ 0x64)) ++ rows_sw)
    else if i = 0x4000 then some rows_topo
    else if 0x4100 ≤ i ∧ i < 0x4104 then some rows_parfab
    else if i = 0x4200 ∨ i = 0x4201 then some rows_pool else if i = 0x4202 then some rows_lim
    else if 0x4280 ≤ i ∧ i ≤ 0x42CC then some (rows_sw.filter (fun r => 0x31 ≤ r.lo && r.lo < 0x50))
    else if i = 0x4300 then some rows_cls
    else if 0x4400 ≤ i ∧ i < 0x4800 then some rows_peer
    else if 0x4800 ≤ i ∧ i ≤ 0x4897 then some rows_pol else none
  else if i < 0x7000 then
    if i = 0x5000 then some rows_mem else if 0x5100 ≤ i ∧ i < 0x5104 then some rows_parmem
    else if (0x5200 ≤ i ∧ i < 0x520C) ∨ (0x5300 ≤ i ∧ i < 0x5310) then some rows_ctl
    else if i = 0x6000 then some rows_prog
    else if 0x6100 ≤ i ∧ i < 0x6104 then some rows_par else if 0x6200 ≤ i ∧ i < 0x6204 then some rows_partmo
    else if 0x6300 ≤ i ∧ i < 0x6304 then some rows_pardig
    else if i = 0x6400 then some rows_conv else if i = 0x6500 then some rows_watch else if i = 0x6600 then some rows_spe
    else if 0x6800 ≤ i ∧ i < 0x6800 + 1152 then some rows_core else none
  else
    if i = 0x7000 then some rows_coll else if i = 0x7700 then some rows_stetot
    else if 0x7800 ≤ i ∧ i < 0x7830 then some rows_ste
    else if i = 0x8000 then some rows_ring else if i = 0x8200 then some rows_level
    else if 0x8300 ≤ i ∧ i < 0x8304 then some rows_res
    else if 0x8400 ≤ i ∧ isFunction (i - 0x8400) then some rows_ferr
    else if i = 0x9000 then some rows_mgc else none

/-- The highest sub-index a record lists (R386). -/
def highestSub (rs : List ObjRow) : Nat := rs.foldl (fun a r => Nat.max a (r.lo + r.n - 1)) 0

/-- The row of an object, none where the object does not exist (R386). The arrays of R291, R293, R321 and R377 have all
256 sub-indexes. -/
def objRow (idx sub : Nat) : Option ObjRow :=
  if 0x7100 ≤ idx ∧ idx ≤ 0x710F then some ⟨sub, 1, .oct 64, .rw, 0⟩
  else if 0x7200 ≤ idx ∧ idx ≤ 0x723F then some ⟨sub, 1, .u32, .rw, 0⟩
  else if 0x7300 ≤ idx ∧ idx ≤ 0x730F then some ⟨sub, 1, .oct 16, .ro, 0⟩
  else if idx = 0x8100 then some ⟨sub, 1, .oct 32, .ro, 2 ^ 256 - 1⟩
  else match indexRows idx with
    | none => none
    | some rs =>
      if sub = 0 then some ⟨0, 1, .u8, .ro, highestSub rs⟩
      else rs.find? (fun r => decide (r.lo ≤ sub ∧ sub < r.lo + r.n))

/-- A function's name (R393), as the STR[16] of R399. -/
def functionName (f : Nat) : Nat :=
  leNat (strBytes 16 (
    if f = 0 then "MGMT" else if f = 1 then "SECURITY" else if f = 2 then "POWER" else if f = 3 then "TIME"
    else if f = 4 then "FABRIC" else if f = 5 then "BULK" else if f = 6 then "NEAR"
    else if f = 8 then "PARCEL0" else if f = 9 then "PARCEL1" else if f = 10 then "PARCEL2" else "PARCEL3"))

/-- The Default of an object (R389): the table's, with the defaults that depend on the index or sub-index. -/
def objDefault (k : Nat) : Nat :=
  let idx := k / 256
  let sub := k % 256
  if sub = 0 ∧ idx < 0x7100 then
    match indexRows idx with
    | some rs => highestSub rs
    | none => 0
  else if idx = 0x6100 ∧ sub = 2 then 0x3F
  else if idx = 0x6100 ∧ sub = 6 then 0xFFFFFFFFFFFF
  else if idx = 0x6100 ∧ sub = 7 then 64
  else if 0x3000 ≤ idx ∧ idx < 0x3090 ∧ sub = 1 then (if idx < 0x307D then 1 else 2)
  else if 0x3000 ≤ idx ∧ idx < 0x3090 ∧ sub = 2 then (if idx < 0x307D then 1 else 4)
  else if idx = 0x4200 ∧ sub = 1 then 786432
  else if idx = 0x4201 ∧ sub = 1 then 64 * 262144
  else if idx = 0x4201 ∧ sub = 0x13 then 0
  else if idx = 0x4202 ∧ 0x10 ≤ sub ∧ sub < 0x18 then (if sub = 0x16 ∨ sub = 0x17 then 16 else 128)
  else if idx = 0x4202 ∧ 0x20 ≤ sub ∧ sub < 0x28 then (if sub = 0x26 ∨ sub = 0x27 then 4096 else 262144)
  else if idx = 0x4202 ∧ 0x30 ≤ sub ∧ sub < 0x38 then (if sub = 0x36 ∨ sub = 0x37 then 64 else 1024)
  else if idx = 0x4300 ∧ 0x10 ≤ sub ∧ sub < 0x16 then [17, 17, 32, 48, 64, 64].getD (sub - 0x10) 0
  else if idx = 0x4300 ∧ 0x20 ≤ sub ∧ sub < 0x28 then (if sub = 0x27 then 64 else if sub = 0x26 then 32 else 128)
  else if 0x2100 ≤ idx ∧ isFunction (idx - 0x2100) ∧ sub = 1 then functionName (idx - 0x2100)
  else if 0x2100 ≤ idx ∧ isFunction (idx - 0x2100) ∧ sub = 6 then (if idx ≤ 0x2106 then 1 else 0)
  else match objRow idx sub with
    | some r => r.dflt
    | none => 0

end Sys2Proof.Machine
end

