-- ==== Sys2Proof/Machine/Num.lean ====
section
/-! DEFINITION. Exact rational numbers and the values an element can have: a finite number with the sign of its zero,
an infinity, a NaN (R20, R21). All the device's arithmetic is exact here and rounds once where a rule says so. -/

namespace Sys2Proof.Machine

/-- An exact rational number `num / den`, `den` positive. -/
structure Q where
  num : Int
  den : Nat
  deriving DecidableEq, Repr

/-- The rational n / d in lowest terms (0 when d is 0). -/
def Q.of (n : Int) (d : Nat) : Q :=
  if d = 0 then ⟨0, 1⟩
  else
    let g := Nat.gcd n.natAbs d
    ⟨n / (g : Int), d / g⟩

/-- An integer. -/
def Q.int (n : Int) : Q := ⟨n, 1⟩

/-- m × 2^e. -/
def Q.dyad (m : Int) (e : Int) : Q :=
  if 0 ≤ e then ⟨m * (2 ^ e.toNat : Nat), 1⟩ else Q.of m (2 ^ (-e).toNat)

/-- 2^e. -/
def Q.pow2 (e : Int) : Q := Q.dyad 1 e

/-- Sum. -/
def Q.add (a b : Q) : Q := Q.of (a.num * b.den + b.num * a.den) (a.den * b.den)
/-- Negation. -/
def Q.neg (a : Q) : Q := ⟨-a.num, a.den⟩
/-- Difference. -/
def Q.sub (a b : Q) : Q := a.add b.neg
/-- Product. -/
def Q.mul (a b : Q) : Q := Q.of (a.num * b.num) (a.den * b.den)
/-- Reciprocal (0 of 0). -/
def Q.inv (a : Q) : Q :=
  if a.num = 0 then ⟨0, 1⟩ else if 0 < a.num then ⟨a.den, a.num.natAbs⟩ else ⟨-(a.den : Int), a.num.natAbs⟩
/-- Quotient. -/
def Q.div (a b : Q) : Q := a.mul b.inv
/-- Magnitude. -/
def Q.abs (a : Q) : Q := ⟨a.num.natAbs, a.den⟩
/-- Strict order. -/
def Q.lt (a b : Q) : Bool := decide (a.num * b.den < b.num * a.den)
/-- Order. -/
def Q.le (a b : Q) : Bool := decide (a.num * b.den ≤ b.num * a.den)
/-- Equality of value. -/
def Q.eq (a b : Q) : Bool := decide (a.num * b.den = b.num * a.den)
/-- Largest integer at most `a`. -/
def Q.floor (a : Q) : Int := Int.fdiv a.num a.den
/-- Larger of two. -/
def Q.max (a b : Q) : Q := if a.lt b then b else a
/-- Smaller of two. -/
def Q.min (a b : Q) : Q := if b.lt a then b else a
/-- Zero. -/
def Q.zero : Q := ⟨0, 1⟩
/-- One. -/
def Q.one : Q := ⟨1, 1⟩
/-- Whether the number is 0. -/
def Q.isZero (a : Q) : Bool := decide (a.num = 0)

/-- ⌊log2 a⌋ of a positive rational. -/
def Q.log2 (a : Q) : Int :=
  let n := a.num.natAbs
  let e : Int := (Nat.log2 n : Int) - (Nat.log2 a.den : Int)
  if Q.lt a.abs (Q.pow2 e) then e - 1 else e

/-- The nearest integer of a nonnegative rational, ties to even. -/
def Q.rne (a : Q) : Nat :=
  let f := a.floor.toNat
  let r := a.sub (Q.int f)
  let half : Q := ⟨1, 2⟩
  if half.lt r || (half.eq r && f % 2 = 1) then f + 1 else f

/-- The value of an element. A finite value keeps the sign of its zero (R21). `ovf` is the result of a function whose
exact value lies beyond every format's largest magnitude (R126): it is written as the destination's largest magnitude. -/
inductive Num where
  | nan
  | inf (neg : Bool)
  | ovf (neg : Bool)
  | fin (neg : Bool) (mag : Q)
  deriving DecidableEq, Repr

/-- +0. -/
def Num.zero : Num := .fin false Q.zero

/-- A finite number from a signed rational; `z` is the sign its zero takes. -/
def Num.ofQ (z : Bool) (q : Q) : Num :=
  if q.num < 0 then .fin true q.abs else if q.num = 0 then .fin z Q.zero else .fin false q

/-- The signed rational of a finite number, none for the others. -/
def Num.toQ? : Num → Option Q
  | .fin n m => some (if n then m.neg else m)
  | _ => none

/-- The sign. -/
def Num.isNeg : Num → Bool
  | .nan => false
  | .inf n => n
  | .ovf n => n
  | .fin n _ => n

/-- Whether the value is finite. -/
def Num.isFinite : Num → Bool
  | .fin _ _ => true
  | _ => false

/-- Whether the value is a NaN. -/
def Num.isNan : Num → Bool
  | .nan => true
  | _ => false

/-- Whether the value is a zero of either sign. -/
def Num.isZero : Num → Bool
  | .fin _ m => m.isZero
  | _ => false

/-- Negation: the sign bit flips. -/
def Num.neg : Num → Num
  | .nan => .nan
  | .inf n => .inf (!n)
  | .ovf n => .ovf (!n)
  | .fin n m => .fin (!n) m

/-- A finite value times a positive rational; the others unchanged. -/
def Num.scale (f : Q) : Num → Num
  | .fin n m => .fin n (m.mul f)
  | x => x

end Sys2Proof.Machine
end

