-- ==== Sys2Proof/Machine/Formats.lean ====
section
/-! DEFINITION. Element formats (R19 to R25), rounding and saturation (R37, R38, R41), block scales and their choice
(R26 to R36). -/

namespace Sys2Proof.Machine

/-- The element formats of R19. -/
inductive Fmt where
  | fp32 | bf16 | fp16 | e4m3 | e5m2 | e3m2 | e2m3 | e2m1 | int8 | int32 | da64 | da128 | raw8
  deriving DecidableEq, Repr

/-- The format of a 4-bit code; 0xD to 0xF are reserved (R19). -/
def Fmt.ofCode : Nat → Option Fmt
  | 0 => some .fp32 | 1 => some .bf16 | 2 => some .fp16 | 3 => some .e4m3 | 4 => some .e5m2
  | 5 => some .e3m2 | 6 => some .e2m3 | 7 => some .e2m1 | 8 => some .int8 | 9 => some .int32
  | 10 => some .da64 | 11 => some .da128 | 12 => some .raw8 | _ => none

/-- The code of a format (R19). -/
def Fmt.code : Fmt → Nat
  | .fp32 => 0 | .bf16 => 1 | .fp16 => 2 | .e4m3 => 3 | .e5m2 => 4 | .e3m2 => 5 | .e2m3 => 6
  | .e2m1 => 7 | .int8 => 8 | .int32 => 9 | .da64 => 10 | .da128 => 11 | .raw8 => 12

/-- Element width in bits (R19). -/
def Fmt.width : Fmt → Nat
  | .fp32 => 32 | .bf16 => 16 | .fp16 => 16 | .e4m3 => 8 | .e5m2 => 8 | .e3m2 => 6 | .e2m3 => 6
  | .e2m1 => 4 | .int8 => 8 | .int32 => 32 | .da64 => 64 | .da128 => 128 | .raw8 => 8

/-- The exact accumulator formats. -/
def Fmt.isExact : Fmt → Bool
  | .da64 => true | .da128 => true | _ => false

/-- The floating-point formats of R20. -/
def Fmt.isFloat : Fmt → Bool
  | .fp32 => true | .bf16 => true | .fp16 => true | .e4m3 => true | .e5m2 => true
  | .e3m2 => true | .e2m3 => true | .e2m1 => true | _ => false

/-- Mantissa bits of a floating-point format (R20). -/
def Fmt.mbits : Fmt → Nat
  | .fp32 => 23 | .bf16 => 7 | .fp16 => 10 | .e4m3 => 3 | .e5m2 => 2 | .e3m2 => 2 | .e2m3 => 3 | .e2m1 => 1 | _ => 0

/-- Exponent bits of a floating-point format (R20). -/
def Fmt.ebits : Fmt → Nat
  | .fp32 => 8 | .bf16 => 8 | .fp16 => 5 | .e4m3 => 4 | .e5m2 => 5 | .e3m2 => 3 | .e2m3 => 2 | .e2m1 => 2 | _ => 0

/-- Exponent bias (R20). -/
def Fmt.bias : Fmt → Nat
  | .fp32 => 127 | .bf16 => 127 | .fp16 => 15 | .e4m3 => 7 | .e5m2 => 15 | .e3m2 => 3 | .e2m3 => 1 | .e2m1 => 1 | _ => 0

/-- The code of the largest finite magnitude (R20). -/
def Fmt.maxCode : Fmt → Nat
  | .fp32 => 0x7F7FFFFF | .bf16 => 0x7F7F | .fp16 => 0x7BFF | .e4m3 => 0x7E | .e5m2 => 0x7B
  | .e3m2 => 0x1F | .e2m3 => 0x1F | .e2m1 => 0x7 | _ => 0

/-- The positive infinity code, where the format has one (R20). -/
def Fmt.infCode : Fmt → Option Nat
  | .fp32 => some 0x7F800000 | .bf16 => some 0x7F80 | .fp16 => some 0x7C00 | .e5m2 => some 0x7C | _ => none

/-- The positive canonical NaN, where the format has one (R21). -/
def Fmt.nanCode : Fmt → Option Nat
  | .fp32 => some 0x7FC00000 | .bf16 => some 0x7FC0 | .fp16 => some 0x7E00 | .e4m3 => some 0x7F | .e5m2 => some 0x7E
  | _ => none

/-- Decoding of a floating-point code (R20, R22 to R24). -/
def decodeFloat (f : Fmt) (code : Nat) : Num :=
  let m := f.mbits
  let s := code.testBit (m + f.ebits)
  let e := (code >>> m) % 2 ^ f.ebits
  let mant := code % 2 ^ m
  let top := 2 ^ f.ebits - 1
  match f.infCode with
  | some _ =>
    if e = top then (if mant = 0 then .inf s else .nan)
    else if e = 0 then .fin s (Q.dyad mant (1 - (f.bias : Int) - m))
    else .fin s (Q.dyad (2 ^ m + mant : Nat) ((e : Int) - f.bias - m))
  | none =>
    if f = .e4m3 ∧ code % 128 = 127 then .nan
    else if e = 0 then .fin s (Q.dyad mant (1 - (f.bias : Int) - m))
    else .fin s (Q.dyad (2 ^ m + mant : Nat) ((e : Int) - f.bias - m))

/-- The value of an element before scaling; `mx` selects the MXINT8 reading (R25). -/
def decodeElem (f : Fmt) (mx : Bool) (code : Nat) : Num :=
  match f with
  | .int8 => .ofQ false (if mx then Q.dyad (signed 8 code) (-6) else Q.int (signed 8 code))
  | .int32 => .ofQ false (Q.int (signed 32 code))
  | .da64 => .zero
  | .da128 => .zero
  | .raw8 => .zero
  | f => decodeFloat f code

/-- A magnitude, counted in grid steps, brought to the grid: nearest even, or stochastically with the 24-bit dither
(R41). -/
def gridRound (r : Option Nat) (a : Q) : Nat :=
  match r with
  | none => a.rne
  | some d =>
    let f := a.floor.toNat
    let frac := a.sub (Q.int f)
    if frac.isZero then f
    else if (d : Int) < (frac.mul (Q.int (2 ^ 24))).floor then f + 1 else f

/-- What writing one element gives: its code, whether it was counted as a saturation, and whether a NaN became 0. -/
structure Coded where
  code : Nat
  sat : Bool
  nan0 : Bool
  deriving DecidableEq, Repr

/-- A magnitude rounded into a floating-point format with subnormals: the positive code, possibly above the largest
one (R35, R37, R41). -/
def floatMagCode (f : Fmt) (r : Option Nat) (q : Q) : Nat :=
  if q.isZero then 0
  else
    let emin : Int := 1 - (f.bias : Int)
    let e := max q.log2 emin
    let k := gridRound r (q.mul (Q.pow2 ((f.mbits : Int) - e)))
    -- k = 2^(m+1) carries into the exponent by itself, and k < 2^m is a subnormal
    ((e - emin).toNat) * 2 ^ f.mbits + k

/-- The code with its sign bit. -/
def signCode (f : Fmt) (neg : Bool) (mag : Nat) : Nat :=
  if neg then mag + 2 ^ (f.mbits + f.ebits) else mag

/-- Two's complement code of an integer element. -/
def intElem (f : Fmt) (i : Int) : Nat := wrap f.width i

/-- The limits of an integer format as a destination (R25). -/
def intLimits (f : Fmt) : Int × Int :=
  if f = .int32 then (-(2 ^ 31 : Nat), (2 ^ 31 - 1 : Nat)) else (-127, 127)

/-- Writing a finite value into an integer format whose unit is 2^−`sh`. -/
def encodeInt (f : Fmt) (sh : Nat) (r : Option Nat) (neg : Bool) (q : Q) : Coded :=
  let k := gridRound r (q.mul (Q.pow2 sh))
  let i : Int := if neg then -(k : Int) else k
  let (lo, hi) := intLimits f
  let c := satI i lo hi
  ⟨intElem f c, decide (c ≠ i), false⟩

/-- The largest magnitude with a sign. -/
def maxElem (f : Fmt) (neg : Bool) : Nat :=
  if f = .int8 ∨ f = .int32 then
    let (lo, hi) := intLimits f
    intElem f (if neg then lo else hi)
  else signCode f neg f.maxCode

/-- Writing one element (R21, R37, R38). `mx` selects the element of a block (INT8 in units of 2^−6). The exact formats
and RAW8 are not written by this function. -/
def encodeElem (f : Fmt) (mx : Bool) (r : Option Nat) (v : Num) : Coded :=
  match v with
  | .nan =>
    match f.nanCode with
    | some c => ⟨c, false, false⟩
    | none => ⟨0, false, true⟩
  | .ovf n => ⟨maxElem f n, true, false⟩
  | .inf n =>
    match f.infCode with
    | some c => ⟨signCode f n c, false, false⟩
    | none => ⟨maxElem f n, true, false⟩
  | .fin n q =>
    if f = .int8 ∨ f = .int32 then encodeInt f (if mx then 6 else 0) r n q
    else
      let c := floatMagCode f r q
      if f.maxCode < c then ⟨maxElem f n, true, false⟩ else ⟨signCode f n c, false, false⟩

/-- A value rounded once to FP32, to nearest even, and whether it saturated: `fl` of R133, the widening of R124. -/
def roundFp32 (v : Num) : Num × Bool :=
  let c := encodeElem .fp32 false none v
  (decodeFloat .fp32 c.code, c.sat)

/-- emax, mbits and maxkeep of R34. -/
def scaleParams : Fmt → Int × Nat × Nat
  | .e2m1 => (2, 1, 3) | .e2m3 => (2, 3, 15) | .e3m2 => (4, 2, 7) | .e4m3 => (8, 3, 14) | .e5m2 => (15, 2, 7)
  | _ => (0, 6, 127)

/-- `choose_scale` of R33. -/
def chooseScale (any : Bool) (sig : Nat) (e emax : Int) (mbits maxkeep : Nat) (stoch : Bool) : Nat :=
  if !any then 0
  else
    let keep := sig >>> (63 - mbits)
    let rest := sig % 2 ^ (63 - mbits)
    let half := 2 ^ (62 - mbits)
    let keep :=
      if stoch then (if rest ≠ 0 then keep + 1 else keep)
      else if half < rest ∨ (rest = half ∧ keep % 2 = 1) then keep + 1 else keep
    let s := e - emax
    let s := if maxkeep < keep then s + 1 else s
    (satI (s + 127) 0 254).toNat

/-- The normalized 64-bit significand and exponent of a positive rational, with the bits below ORed in (R33). -/
def sigExp (a : Q) : Nat × Int :=
  let e := a.log2
  let x := a.mul (Q.pow2 (63 - e))
  let f := x.floor.toNat
  (if (x.sub (Q.int f)).isZero then f else f ||| 1, e)

/-- The scale code of a block of values, t already divided out (R33, R34). -/
def blockScale (f : Fmt) (stoch : Bool) (vals : List Num) : Nat :=
  let amax := vals.foldl (fun a v => match v with | .fin _ q => a.max q | _ => a) Q.zero
  let (emax, mb, mk) := scaleParams f
  if amax.isZero then 0
  else
    let (sig, e) := sigExp amax
    chooseScale true sig e emax mb mk stoch

/-- What writing one block gives: its scale code, its element codes, and what is counted (R33 to R36, R39). -/
structure BlockOut where
  scale : Nat
  codes : List Nat
  sats : Nat
  nans : Nat
  deriving DecidableEq, Repr

/-- Writing one block of values, t already divided out; `rs` gives each element its dither where the write is
stochastic (R33 to R36). -/
def writeBlock (f : Fmt) (stoch : Bool) (vals : List Num) (rs : List Nat) : BlockOut :=
  if f.nanCode = none ∧ vals.any Num.isNan then ⟨0xFF, vals.map (fun _ => 0), 0, 1⟩
  else
    let k := blockScale f stoch vals
    let inv := Q.pow2 (127 - (k : Int))
    let cs := vals.mapIdx (fun i v =>
      encodeElem f true (if stoch then some (rs.getD i 0) else none) (v.scale inv))
    ⟨k, cs.map Coded.code, (cs.filter Coded.sat).length, 0⟩

/-- The value of an element of a block with scale code `k` (R29, R31), without a tensor scale. -/
def scaledElem (f : Fmt) (k code : Nat) : Num :=
  if k = 0xFF then .nan else (decodeElem f true code).scale (Q.pow2 ((k : Int) - 127))

/-- Block size of the BLOCK_SIZE field (R26). -/
def blockElems (code : Nat) : Nat := 16 * 2 ^ (code % 4)

/-- The scaling modes a format permits (R26). -/
def modeOk (f : Fmt) (mode : Nat) : Bool :=
  match f with
  | .e2m1 => mode = 1 || mode = 2
  | .e2m3 => mode = 1 || mode = 2
  | .e3m2 => mode = 1 || mode = 2
  | .e4m3 => mode ≤ 2
  | .e5m2 => mode ≤ 2
  | .int8 => mode ≤ 2
  | _ => mode = 0

/-- Codes of `w` bits from packed bytes, in index order (R28). -/
def unpackCodes (w n : Nat) (bs : Bytes) : List Nat :=
  if w % 8 = 0 then (List.range n).map (fun i => leNat (slice bs (i * (w / 8)) (w / 8)))
  else
    let v := leNat bs
    (List.range n).map (fun i => (v >>> (w * i)) % 2 ^ w)

/-- Codes of `w` bits packed in index order into `len` bytes, padding bits 0 (R27, R28). -/
def packCodes (w len : Nat) (cs : List Nat) : Bytes :=
  if w % 8 = 0 then padTo len (cs.flatMap (fun c => leBytes (w / 8) c))
  else leBytes len (cs.foldr (fun c a => a * 2 ^ w + c % 2 ^ w) 0)

end Sys2Proof.Machine
end

