-- ==== Sys2Proof/Machine/Exact.lean ====
section
/-! DEFINITION. Exact accumulation: DA64 and DA128 words, terms onto the grid, the adder, residues, status and the
conversion out (R47 to R70). -/

namespace Sys2Proof.Machine

/-- A DA128 word taken apart (R48): the signed value V, the residue byte, the excess and the low four flag bits. -/
structure Da where
  v : Int
  residue : Nat
  excess : Nat
  flags : Nat
  deriving DecidableEq, Repr

/-- `residue` of R60: V mod 255, as the bytes of the word give it. -/
def valueResidue (v : Int) : Nat := (v % 255).toNat

/-- The all-zero word (R49). -/
def Da.zero : Da := ⟨0, 0, 0, 0⟩

/-- A word with the residue its value has. -/
def Da.mk' (v : Int) (excess flags : Nat) : Da := ⟨v, valueResidue v, excess, flags⟩

/-- A stored 128-bit word, byte 0 FLAGS and byte 1 RESIDUE (R48, R50). -/
def Da.unpack (w : Nat) : Da := ⟨signed 112 (w >>> 16), field w 15 8, field w 7 4, field w 3 0⟩

/-- The 128-bit word (R48). -/
def Da.pack (d : Da) : Nat := wrap 112 d.v * 2 ^ 16 + (d.residue % 256) * 256 + (d.excess % 16) * 16 + d.flags % 16

/-- Largest DA128 value field. -/
def daMax : Int := (2 ^ 111 - 1 : Nat)
/-- Smallest DA128 value field. -/
def daMin : Int := -(2 ^ 111 : Nat)

/-- What a residue check gives: the word as it stands afterwards, and whether the check failed (R62 to R64). -/
def Da.check (d : Da) : Da × Bool :=
  let r := valueResidue d.v
  if r = d.residue then (d, false) else ({ d with residue := r, flags := d.flags ||| 8 }, true)

/-- What an addition did besides its sum. -/
structure AddOut where
  sum : Da
  saturated : Bool
  failed : Bool
  deriving DecidableEq, Repr

/-- `da128_add` of R60. -/
def da128Add (a b : Da) : AddOut :=
  let s := a.v + b.v
  let f := a.flags ||| b.flags
  let x := max a.excess b.excess
  if s < daMin ∨ daMax < s then
    let c := satI s daMin daMax
    ⟨⟨c, valueResidue c, 15, f ||| 1⟩, true, false⟩
  else
    let r := valueResidue s
    if a.residue = 0xFF ∨ b.residue = 0xFF ∨ r ≠ (a.residue + b.residue) % 255 then
      ⟨⟨s, r, x, f ||| 8⟩, false, true⟩
    else ⟨⟨s, r, x, f⟩, false, false⟩

/-- The DA64 adder: the value and saturation rule of R60 at 64 bits, with the flags kept in the engine (R51). -/
def da64Add (a b : Da) : AddOut :=
  let lo : Int := -(2 ^ 63 : Nat)
  let hi : Int := (2 ^ 63 - 1 : Nat)
  let s := a.v + b.v
  let f := a.flags ||| b.flags
  let x := max a.excess b.excess
  if s < lo ∨ hi < s then
    let c := satI s lo hi
    ⟨⟨c, valueResidue c, 15, f ||| 1⟩, true, false⟩
  else ⟨⟨s, valueResidue s, x, f⟩, false, false⟩

/-- Window bits of an exact format (R49). -/
def wbits : Fmt → Nat
  | .da64 => 48
  | _ => 88

/-- Guard bits of an exact format (R49). -/
def guardBits : Fmt → Nat
  | .da64 => 15
  | _ => 23

/-- L, the weight of the lowest window bit (R49). -/
def gridL (f : Fmt) (anchor : Int) : Int := anchor - ((wbits f : Int) - 1)

/-- `to_grid` of R58 on a magnitude: the grid integer and the excess. -/
def toGrid (mag : Q) (lsb : Int) (wb : Nat) : Nat × Nat :=
  if mag.isZero then (0, 0)
  else
    let q := (mag.mul (Q.pow2 (-lsb))).rne
    if q = 0 then (0, 0)
    else
      let bits := Nat.log2 q + 1
      if wb < bits then (2 ^ wb - 1, min 15 (bits - wb)) else (q, 0)

/-- A term as it enters an adder (R59): the word, and what is counted: clamped, rounded to zero, not finite. -/
structure Term where
  word : Da
  sat : Bool
  zeroed : Bool
  poison : Bool
  deriving DecidableEq, Repr

/-- A term of the sum on the grid of `f` at an anchor (R58, R59). -/
def mkTerm (f : Fmt) (anchor : Int) (v : Num) : Term :=
  match v with
  | .fin n m =>
    let (q, x) := toGrid m (gridL f anchor) (wbits f)
    let i : Int := if n then -(q : Int) else q
    if x ≠ 0 then ⟨Da.mk' i x 1, true, false, false⟩
    else ⟨Da.mk' i 0 0, false, decide (q = 0) && !m.isZero, false⟩
  | _ => ⟨Da.mk' 0 0 2, false, false, true⟩

/-- What the terms and additions of a sum gave to count (R71). -/
structure SumCount where
  termSat : Nat
  termZero : Nat
  poison : Nat
  sumSat : Nat
  resFail : Nat
  /-- sums whose value the order of arrival decides (log 37) -/
  opened : Nat
  deriving DecidableEq, Repr

/-- Nothing counted. -/
def SumCount.zero : SumCount := ⟨0, 0, 0, 0, 0, 0⟩

/-- Counts added. -/
def SumCount.add (a b : SumCount) : SumCount :=
  ⟨a.termSat + b.termSat, a.termZero + b.termZero, a.poison + b.poison, a.sumSat + b.sumSat, a.resFail + b.resFail, a.opened + b.opened⟩

/-- The addends of a sum: totals of the positive and of the negative ones, how many differ from 0, and of their flags SAT and the
largest excess. -/
structure Addends where
  pos : Nat
  neg : Nat
  n : Nat
  sat : Bool
  excess : Nat
  deriving DecidableEq, Repr

/-- One addend more. -/
def Addends.add (x : Addends) (d : Da) : Addends :=
  ⟨x.pos + d.v.toNat, x.neg + (-d.v).toNat, x.n + b2n (decide (d.v ≠ 0)), x.sat || d.flags.testBit 0, max x.excess d.excess⟩

/-- A sum in progress: the word that its addends give in the order added, what they count, and the addends. -/
structure Acc where
  word : Da
  cnt : SumCount
  all : Addends
  deriving DecidableEq, Repr

/-- The addition of the format's adder. -/
def exactAdd (f : Fmt) (a b : Da) : AddOut := if f = .da64 then da64Add a b else da128Add a b

/-- An exact word added to a sum in progress (R60). -/
def Acc.addWord (f : Fmt) (a : Acc) (d : Da) : Acc :=
  let o := exactAdd f a.word d
  { word := o.sum, all := a.all.add d, cnt := { a.cnt with sumSat := a.cnt.sumSat + b2n o.saturated, resFail := a.cnt.resFail + b2n o.failed } }

/-- A term added to a sum in progress (R58 to R60). -/
def Acc.addTerm (f : Fmt) (anchor : Int) (a : Acc) (v : Num) : Acc :=
  let t := mkTerm f anchor v
  let b := a.addWord f t.word
  { b with cnt := { b.cnt with termSat := b.cnt.termSat + b2n t.sat, termZero := b.cnt.termZero + b2n t.zeroed,
                               poison := b.cnt.poison + b2n t.poison } }

/-- The empty sum. -/
def Acc.empty : Acc := ⟨Da.zero, SumCount.zero, ⟨0, 0, 0, false, 0⟩⟩

/-- A sum that begins with a stored word. -/
def Acc.start (w : Da) : Acc := ⟨w, SumCount.zero, Acc.empty.all.add w⟩

/-- Terms added in order. -/
def Acc.addTerms (f : Fmt) (anchor : Int) (a : Acc) (vs : List Num) : Acc := vs.foldl (Acc.addTerm f anchor) a

/-- Whether no partial sum saturates in any order or grouping, or only one addition counts: the word is then that of R61. -/
def Acc.anyOrder (f : Fmt) (a : Acc) : Bool :=
  let hi : Nat := if f = .da64 then 2 ^ 63 - 1 else 2 ^ 111 - 1
  decide (a.all.n < 3) || (decide (a.all.pos ≤ hi) && decide (a.all.neg ≤ hi + 1))

/-- A sum whose last addend has arrived. Where some order of its addends saturates, the order of arrival decides at how many adders
it does (R57): a free number between the fewest and the most there can be. With none the word is the exact sum; otherwise its value
is the limit that addends of one sign run into, and free where their signs differ (R57, R60, log 37). -/
def Acc.settle (f : Fmt) (nonce place : Nat) (a : Acc) : Acc :=
  if a.anyOrder f then a
  else
    let w : Nat := if f = .da64 then 63 else 111
    let t : Int := (a.all.pos : Int) - a.all.neg
    let least := if t < -(2 ^ w : Nat) ∨ (2 ^ w - 1 : Nat) < t then 1 else 0
    let k := least + Config.sumOrder nonce (2 * place) % (a.all.n - least)
    let v : Int :=
      if k = 0 then t
      else if a.all.pos = 0 ∨ a.all.neg = 0 then a.word.v
      else (Config.sumOrder nonce (2 * place + 1) % 2 ^ (w + 1) : Nat) - (2 ^ w : Nat)
    { a with word := ⟨v, valueResidue v, if k = 0 then a.all.excess else 15, a.word.flags / 2 * 2 + b2n (a.all.sat || decide (k ≠ 0))⟩,
             cnt := { a.cnt with sumSat := k, opened := 1 } }

/-- DA64 to DA128 (R70). -/
def da64To128 (v : Int) : Da := Da.mk' (v * (2 ^ 40 : Nat)) 0 0

/-- DA128 to DA64 (R70): the value, and whether it saturated. -/
def da128To64 (v : Int) : Int × Bool :=
  let q := (Q.of v.natAbs (2 ^ 40)).rne
  let i : Int := if v < 0 then -(q : Int) else q
  let c := satI i (-(2 ^ 63 : Nat)) (2 ^ 63 - 1 : Nat)
  (c, decide (c ≠ i))

/-- The status encoding of R88, from the flags of R50 (R66). -/
def statusOf (flags : Nat) : Nat :=
  if flags.testBit 3 then 4 else if flags.testBit 1 then 3 else if flags.testBit 0 then 2
  else if flags.testBit 2 then 1 else 0

/-- The value an exact sum is converted out from (R68): V × 2^L × F / n; POISON makes it a NaN. -/
def convertOut (f : Fmt) (anchor : Int) (fac : Q) (n : Nat) (d : Da) : Num :=
  if d.flags.testBit 1 then .nan
  else .ofQ false (((Q.dyad d.v (gridL f anchor)).mul fac).div (Q.int n))

/-- The headroom h of R54. -/
def headroom (terms g : Nat) : Int := max 0 ((clog2 terms : Int) - g)

/-- The bound exponent u of R55; `mx` is block scaling. -/
def boundExp (f : Fmt) (mx : Bool) : Option Int :=
  match f with
  | .e2m1 => some 3
  | .e2m3 => some 3
  | .e3m2 => some 5
  | .e4m3 => some 9
  | .e5m2 => some 16
  | .int8 => some (if mx then 2 else 8)
  | _ => none

/-- Whether a sum of `terms` terms is converted out stochastically (R40). -/
def srActive (srTerms terms : Nat) : Bool := decide (srTerms ≠ 0) && decide (srTerms ≤ terms)

end Sys2Proof.Machine
end

