-- ==== Sys2Proof/Machine/Desc.lean ====
section
/-! DEFINITION. Tensor descriptors (R79), their reserved bits (R81), extents, row and element placement (R27 to R29),
and the logical index (R80). -/

namespace Sys2Proof.Machine

/-- A tensor descriptor taken apart (R79). `rsv` holds when a reserved bit is set. -/
structure Desc where
  base : Nat
  scaleBase : Nat
  tensorId : Nat
  blockSize : Nat
  scaleMode : Nat
  format : Nat
  round : Nat
  anchorSrc : Nat
  rankM1 : Nat
  sparseForm : Nat
  groupM : Nat
  groupN : Nat
  anchor : Int
  terms : Nat
  srTerms : Nat
  tscale : Nat
  divisorM1 : Nat
  packedLen : Nat
  ext : Nat × Nat × Nat × Nat
  stride : Nat × Nat × Nat
  origin : Nat
  lext : Nat × Nat × Nat × Nat
  metaBase : Nat
  rsv : Bool
  deriving DecidableEq, Repr

/-- The 32-bit little-endian field at a byte offset. -/
def u32At (n : Nat) (o : Nat) : Nat := field n (8 * o + 31) (8 * o)
/-- The 64-bit little-endian field at a byte offset. -/
def u64At (n : Nat) (o : Nat) : Nat := field n (8 * o + 63) (8 * o)

/-- A descriptor read from the 128 bytes of a table entry, held as their little-endian number (R79). -/
def Desc.parse (n : Nat) : Desc :=
  let b20 := field n 167 160
  let b21 := field n 175 168
  let b22 := field n 183 176
  let b23 := field n 191 184
  { base := u64At n 0, scaleBase := u64At n 8, tensorId := u32At n 16,
    blockSize := field b20 7 6, scaleMode := field b20 5 4, format := field b20 3 0,
    round := field b21 5 5, anchorSrc := field b21 4 3, rankM1 := field b21 1 0,
    sparseForm := field b22 1 0, groupM := field b23 7 5, groupN := field b23 4 0,
    anchor := signed 16 (field n 207 192), terms := u32At n 28, srTerms := u32At n 32, tscale := u32At n 36,
    divisorM1 := u32At n 40, packedLen := u32At n 44,
    ext := (u32At n 48, u32At n 52, u32At n 56, u32At n 60),
    stride := (u32At n 64, u32At n 68, u32At n 72),
    origin := u64At n 80, lext := (u32At n 88, u32At n 92, u32At n 96, u32At n 100), metaBase := u64At n 104,
    rsv := decide (field b21 7 6 ≠ 0 ∨ field b21 2 2 ≠ 0 ∨ field b22 7 2 ≠ 0 ∨ field n 223 208 ≠ 0
      ∨ u32At n 76 ≠ 0 ∨ field n 1023 896 ≠ 0) }

/-- Rank (R79). -/
def Desc.rank (d : Desc) : Nat := d.rankM1 + 1
/-- Extent of dimension 0. -/
def Desc.e0 (d : Desc) : Nat := d.ext.1
/-- Extent of dimension 1, 1 at or above the rank. -/
def Desc.e1 (d : Desc) : Nat := if d.rank ≤ 1 then 1 else d.ext.2.1
/-- Extent of dimension 2. -/
def Desc.e2 (d : Desc) : Nat := if d.rank ≤ 2 then 1 else d.ext.2.2.1
/-- Extent of dimension 3. -/
def Desc.e3 (d : Desc) : Nat := if d.rank ≤ 3 then 1 else d.ext.2.2.2
/-- The extents of dimensions 0 to 3. -/
def Desc.exts (d : Desc) : List Nat := [d.e0, d.e1, d.e2, d.e3]
/-- Number of rows: the combinations of indices in dimensions 1 and up (R27). -/
def Desc.rows (d : Desc) : Nat := d.e1 * d.e2 * d.e3
/-- Number of elements. -/
def Desc.count (d : Desc) : Nat := d.e0 * d.rows
/-- A tensor with an extent of 0 is empty (R82). -/
def Desc.empty (d : Desc) : Bool := decide (d.count = 0)
/-- The element format, FP32 for a reserved code (which R81 refuses before any use). -/
def Desc.fmt (d : Desc) : Fmt := (Fmt.ofCode d.format).getD .fp32
/-- Whether the tensor is block-scaled (R26). -/
def Desc.blocked (d : Desc) : Bool := decide (d.scaleMode ≠ 0)
/-- Elements of a block (R26). -/
def Desc.block (d : Desc) : Nat := blockElems d.blockSize
/-- Blocks of a row (R27). -/
def Desc.nb (d : Desc) : Nat := ceilDiv d.e0 d.block
/-- Storage of one block in bytes (R28). -/
def Desc.blockBytes (d : Desc) : Nat := d.fmt.width * d.block / 8
/-- Bytes of a row (R27, R28). -/
def Desc.rowBytes (d : Desc) : Nat :=
  if d.blocked then d.nb * d.blockBytes else ceilDiv (d.e0 * d.fmt.width) 8
/-- The tensor scale as a rational, 1 outside mode 2 (R30). -/
def Desc.tq (d : Desc) : Q :=
  if d.scaleMode = 2 then
    match decodeFloat .fp32 d.tscale with
    | .fin false q => q
    | _ => Q.one
  else Q.one
/-- TSCALE is positive, finite and normal (R30). -/
def Desc.tscaleOk (d : Desc) : Bool :=
  let e := field d.tscale 30 23
  decide (d.tscale < 2 ^ 31 ∧ e ≠ 0 ∧ e ≠ 255)
/-- The divisor n of R69. -/
def Desc.divisor (d : Desc) : Nat := d.divisorM1 + 1
/-- Group size M (R79). -/
def Desc.gM (d : Desc) : Nat := 4 * 2 ^ d.groupM

/-- Indices i1, i2, i3 of row ρ. -/
def Desc.rowIdx (d : Desc) (r : Nat) : Nat × Nat × Nat := (r % d.e1, r / d.e1 % d.e2, r / (d.e1 * d.e2))

/-- The fabric address of row ρ (R79). -/
def Desc.rowAddr (d : Desc) (r : Nat) : Nat :=
  let (i1, i2, i3) := d.rowIdx r
  (d.base + i1 * d.stride.1 + i2 * d.stride.2.1 + i3 * d.stride.2.2) % 2 ^ 64

/-- Bytes from the first row's start to the last row's. -/
def Desc.span (d : Desc) : Nat :=
  (d.e1 - 1) * d.stride.1 + (d.e2 - 1) * d.stride.2.1 + (d.e3 - 1) * d.stride.2.2

/-- The address of a row's scale bytes (R29). -/
def Desc.scaleAddr (d : Desc) (r : Nat) : Nat := (d.scaleBase + r * d.nb) % 2 ^ 64

/-- The logical linear index of element i0 of row ρ (R80). -/
def Desc.logical (d : Desc) (r i0 : Nat) : Nat :=
  let (i1, i2, i3) := d.rowIdx r
  (d.origin + i0 + d.lext.1 * (i1 + d.lext.2.1 * (i2 + d.lext.2.2.1 * i3))) % 2 ^ 64

/-- The core fault codes of R108 that a descriptor check can raise. -/
def fDescReserved : Nat := 0x01
/-- R108. -/
def fFmtCombo : Nat := 0x02
/-- R108. -/
def fFmtTscale : Nat := 0x03
/-- R108. -/
def fAccAnchor : Nat := 0x04
/-- R108. -/
def fAccTerms : Nat := 0x05
/-- R108. -/
def fShape : Nat := 0x06
/-- R108. -/
def fAddrRange : Nat := 0x07
/-- R108. -/
def fAddrAlign : Nat := 0x08
/-- R108. -/
def fSpLength : Nat := 0x09
/-- R108. -/
def fSpGroup : Nat := 0x0A
/-- R108. -/
def fSpIndex : Nat := 0x0B
/-- R108. -/
def fHandleStale : Nat := 0x10
/-- R108. -/
def fHandleReserved : Nat := 0x11
/-- R108. -/
def fFlagReserved : Nat := 0x12
/-- R108. -/
def fLoopDepth : Nat := 0x13
/-- R108. -/
def fSkipRange : Nat := 0x14
/-- R108. -/
def fLibUnknown : Nat := 0x15
/-- R108. -/
def fIllegalOp : Nat := 0x16
/-- R108. -/
def fWaitExpired : Nat := 0x20
/-- R108. -/
def fRemoteTimeout : Nat := 0x21
/-- R108. -/
def fAccessDenied : Nat := 0x22
/-- R108. -/
def fMsgNoRing : Nat := 0x23
/-- R108. -/
def fMemUncorrected : Nat := 0x30
/-- R108. -/
def fIcacheFault : Nat := 0x31

/-- The lowest of a list of fault codes, none of an empty list (R81, *Several failures*). -/
def lowest : List Nat → Option Nat
  | [] => none
  | c :: cs => match lowest cs with
    | none => some c
    | some d => some (min c d)

/-- A list of one code when a condition fails. -/
def need (ok : Bool) (code : Nat) : List Nat := if ok then [] else [code]

/-- Row strides that are whole multiples of the block's storage (R27), for the dimensions the tensor has; the bitmap form
ignores them (R139). -/
def Desc.stridesOk (d : Desc) : Bool :=
  !d.blocked || decide (d.sparseForm = 1) ||
    ((d.rank ≤ 1 || d.stride.1 % d.blockBytes = 0) && (d.rank ≤ 2 || d.stride.2.1 % d.blockBytes = 0)
      && (d.rank ≤ 3 || d.stride.2.2 % d.blockBytes = 0))

/-- The checks every engine makes on a descriptor by itself (R26, R27, R30, R69, R81). -/
def Desc.selfCheck (d : Desc) (routine : Bool) : List Nat :=
  need (!d.rsv && decide (d.format ≤ 12) && decide (d.scaleMode ≤ 2) && decide (d.anchorSrc ≤ 2)
      && decide (d.sparseForm ≤ 2) && decide (d.groupM ≤ 3)) fDescReserved
  ++ need (decide (12 < d.format) || decide (2 < d.scaleMode) || modeOk d.fmt d.scaleMode) fFmtCombo
  ++ need d.stridesOk fFmtCombo
  ++ need (routine || decide (d.round = 0)) fFmtCombo
  ++ need (decide (d.divisorM1 < 2 ^ 24)) fFmtCombo
  ++ need (decide (d.sparseForm ≠ 2) || (decide (d.groupN ≠ 0) && decide (d.groupN ≤ d.gM))) fFmtCombo
  ++ need (decide (d.scaleMode ≠ 2) || d.tscaleOk) fFmtTscale

/-- The window offset [40:0] of an address. -/
def addrOff (a : Nat) : Nat := a % 2 ^ 41
/-- The space field [43:41] (R157). -/
def addrSpace (a : Nat) : Nat := field a 43 41
/-- The device field [63:44] (R8). -/
def addrDev (a : Nat) : Nat := field a 63 44

/-- The bytes lo to lo + n − 1 lie in core c's own SRAM (R82). -/
def inOwnSram (c : Nat) (a n : Nat) : Bool :=
  decide (addrSpace a = 0) && decide (c * 2 ^ 21 ≤ addrOff a) && decide (addrOff a + n ≤ (c + 1) * 2 ^ 21)

/-! ### Sparse forms (R139 to R141) -/

/-- Groups of a row (R140). -/
def Desc.groups (d : Desc) : Nat := ceilDiv d.e0 d.gM
/-- Metadata bytes of a row. -/
def Desc.metaBytes (d : Desc) : Nat := 8 * ceilDiv (if d.sparseForm = 1 then d.e0 else d.groups * d.gM) 64
/-- The packed values of the bitmap form, or the value slots of a row of the grouped form, as one dense row. -/
def Desc.slots (d : Desc) : Nat := if d.sparseForm = 1 then d.packedLen else d.groups * d.groupN
/-- Rows of values: one packed sequence in the bitmap form. -/
def Desc.valueRows (d : Desc) : Nat := if d.sparseForm = 1 then 1 else d.rows
/-- The descriptor of the value region of a sparse tensor as a dense one: a packed row, or rows of slots (R139, R140). -/
def Desc.packed (d : Desc) : Desc :=
  if d.sparseForm = 1 then { d with ext := (d.packedLen, 1, 1, 1), rankM1 := 0, sparseForm := 0 }
  else { d with ext := (d.groups * d.groupN, d.ext.2), sparseForm := 0 }

/-- The byte runs of a tensor as fabric addresses: the rows of values, the scale array, and of a sparse tensor the metadata
(R27, R29, R141). -/
def Desc.places (d : Desc) : List (Nat × Nat) :=
  let v := d.packed
  let values (x : Desc) : List (Nat × Nat) :=
    if x.empty then []
    else (List.range x.rows).map (fun r => (x.rowAddr r, x.rowBytes))
      ++ (if x.blocked then [(x.scaleBase % 2 ^ 64, x.rows * x.nb)] else [])
  if d.sparseForm = 0 then values d
  else values v ++ (if d.empty then [] else [(d.metaBase % 2 ^ 64, d.rows * d.metaBytes)])

/-- The byte runs of a tensor as address bits [43:0]. -/
def Desc.allRegions (d : Desc) : List (Nat × Nat) := d.places.map (fun r => (r.1 % 2 ^ 44, r.2))

/-- Alignment of BASE (R82): 16 B for DA128, one block's storage when block-scaled, the element size otherwise. -/
def Desc.alignOk (d : Desc) : Bool :=
  if d.blocked then decide (d.base % d.blockBytes = 0)
  else decide (d.base % (max 1 (d.fmt.width / 8)) = 0)

/-- The address rules of R82 for a dense operand in the core's own SRAM. Strides are below 2^32, so the rows lie in the
2 MiB window exactly when the first and the last do. -/
def Desc.localCheck (d : Desc) (c : Nat) : List Nat :=
  if d.empty then []
  else
    need (inOwnSram c d.base (d.span + d.rowBytes)) fAddrRange
    ++ need (!d.blocked || inOwnSram c d.scaleBase (d.rows * d.nb)) fAddrRange
    ++ need d.alignOk fAddrAlign

end Sys2Proof.Machine
end

