-- ==== Sys2Proof/Machine/Types.lean ====
section
/-! DEFINITION. The parts of the state of a control core and its engines (chapters 04 to 06): queue entries with their
copied descriptors, transfers in progress, loops, holds, rings and windows. -/

namespace Sys2Proof.Machine

/-- The operands of a queued operation, descriptors copied and registers read at issue (R78, R86, R94, R458). -/
inductive QOp where
  | mm (c a b : Desc) (clr : Bool) (step : Option Nat)
  | mmg (c a b : Desc) (f : Flag) (base : Nat) (axis : GatherAxis) (clr : Bool) (step : Option Nat)
  | drain (c d : Desc) (step : Option Nat)
  | map (d a : Desc) (fn : Nat)
  | zip (d a b : Desc) (fn : Nat)
  | fma (d a b c : Desc)
  | red (d a : Desc) (k : Nat) (op : RedOp) (clr : Bool) (step : Option Nat)
  | conv (d a : Desc) (step : Option Nat)
  | rand (d : Desc) (stream step : Nat)
  | speMm (c a b : Desc) (clr : Bool) (routeSpe : Bool) (step : Option Nat)
  | pack (d a : Desc) (prune : Bool)
  | put (d s : Desc) (tc : ClassId) (step : Option Nat) (dflag : Option (Nat × Flag))
  | get (d s : Desc) (tc : ClassId) (dflag : Option (Nat × Flag))
  | acc (d s : Desc) (tc : ClassId) (dflag : Option (Nat × Flag))
  | ring (k : Fin 16) (h : Desc) (fp fc : Flag)
  | msg (dev core : Nat) (k : Fin 16) (a n : Nat) (tc : ClassId)
  | digest (a : Nat) (s : Desc)
  | fill (d : Desc) (pat : Nat) (tc : ClassId)
  deriving DecidableEq, Repr

/-- Where a queued operation stands (R73, R74, R96). -/
inductive Phase where
  | waiting
  | started
  | flagSent
  deriving DecidableEq, Repr

/-- A request packet of an operation (R195): the place of its bytes among those of a get, and, once it was answered
RING_FULL, the Fabric Time of that answer (R97). -/
structure OutPkt where
  pkt : Packet
  pos : Nat
  full : Option Nat
  deriving DecidableEq, Repr

/-- A queued operation (R73). -/
structure QEntry where
  seq : Nat
  routine : Bool
  gate : Option (Flag × Nat)
  comp : Option Flag
  op : QOp
  phase : Phase
  /-- Fabric Time at which it reached the head of its queue, once it has (R86) -/
  headAt : Option Nat
  /-- Fabric Time of its start (R95) -/
  startAt : Nat
  /-- request packets not yet sent, and those sent and unanswered (R195, R209) -/
  todo : List OutPkt
  out : List OutPkt
  /-- fetched source bytes of a get, keyed by their order in the source's regions (log 19) -/
  got : Sparse Byte
  /-- pieces of an mmg in the order they were marked (R122) -/
  marks : List Nat
  /-- settings at the start: of an MXE operation rate, seed and threshold of the watch, none when it is off (R138); of an
  `spe.mm` SP_HANDOFF and the three thresholds (R156); of a put its status and excess (R96) -/
  settings : List Nat
  /-- bytes of the operands as they stood at the start (R99), and whether a piece of an mmg was filled otherwise than by one transfer
  (R123) -/
  image : Bytes
  spoilt : Bool
  deriving DecidableEq, Repr

/-- One open loop (R90): the position of its body, its latched count, its iteration. -/
structure LoopFrame where
  body : Nat
  count : Nat
  iter : Nat
  deriving DecidableEq, Repr

/-- What a waiting Xaisk routine waits for (R94). -/
inductive LibWait where
  /-- COLL_WAIT on an instance (R300) -/
  | coll (group cseq : Nat) (deadline : Nat)
  /-- ANCHOR_RETRY running its attempt `n` (R67) -/
  | retry (rec anchor n : Nat) (group cseq : Nat)
  /-- STEP_COMMIT until the step commits (R361) -/
  | commit
  /-- STEP_REPLAY until the ready agreement ends (R363) -/
  | ready
  /-- PARK or RESTORE until every mapped core has called it (R178, R372) -/
  | park
  | restore
  /-- JOB_START until an adoption ends (R366) -/
  | adopt
  deriving DecidableEq, Repr

/-- What holds a control core. -/
inductive Hold where
  | none
  | flagWait (f : Flag) (cond : WaitCond) (v deadline seq : Nat)
  | timeWait (slot : Nat)
  | stall (q : Queue) (e : QEntry) (since : Nat)
  deriving DecidableEq, Repr

/-- A declared receive ring (R97). -/
structure RingDecl where
  base : Nat
  stride : Nat
  slots : Nat
  fp : Flag
  fc : Flag
  deriving DecidableEq, Repr

/-- The source window of one class (R209): its size, the slot of its last decrease, the run of unmarked responses. -/
structure TxWindow where
  size : Nat
  lastCut : Option Nat
  run : Nat
  deriving DecidableEq, Repr

/-- The window at parcel start (R209). -/
def TxWindow.reset : TxWindow := ⟨64, none, 0⟩

/-- One control core with its engines and queues (R72 to R110). CORE_STATE and the fault objects are dictionary objects. -/
structure Core where
  regs : Sparse (BitVec 64)
  flags : Sparse (BitVec 32)
  fstat : Sparse (BitVec 8)
  fexc : Sparse (BitVec 4)
  desc : Sparse Nat
  gens : Sparse (BitVec 4)
  loops : List LoopFrame
  libLoops : List LoopFrame
  pos : Nat
  mapped : Bool
  ended : Bool
  /-- issue has stopped: a fault, an end or a halt (R93, R106, R362) -/
  stopped : Bool
  hold : Hold
  /-- the Xaisk routine the core is inside, by what it waits for (R94, R109) -/
  lib : Option LibWait
  mxe : List QEntry
  vxe : List QEntry
  spe : List QEntry
  txe : List QEntry
  rings : Sparse (Option RingDecl)
  win : Sparse TxWindow
  /-- warm engines, as a mask in the order of R107 (R434) -/
  warm : Nat
  nextTag : Nat
  icache : List Nat
  deriving DecidableEq, Repr

/-- A core after the clear of R14: registers, flags, descriptors and generations 0, queues empty. -/
def Core.reset : Core :=
  { regs := [], flags := [], fstat := [], fexc := [], desc := [], gens := [], loops := [], libLoops := [],
    pos := 0, mapped := false, ended := false, stopped := false, hold := .none, lib := none, mxe := [], vxe := [], spe := [], txe := [],
    rings := [], win := [], warm := 0, nextTag := 0, icache := [] }

end Sys2Proof.Machine
end

