-- ==== Sys2Proof/Machine/UnitTypes.lean ====
section
/-! DEFINITION. The parts of the state of the fabric die's units: link layers (08), stream engines (11) and collective
contexts (12), and what the device sends. -/

namespace Sys2Proof.Machine

/-- What a peer's control unit carried (R189). -/
structure PeerInfo where
  physId : Nat
  group : Nat
  position : Nat
  port : Nat
  disabled : Bool
  deriving DecidableEq, Repr

/-- The link layer of one fabric port (R187 to R190, R207). -/
structure Link where
  /-- the PCS has locked (R190), on one lane pair of a FULL port when `half` (R184) -/
  locked : Bool
  half : Bool
  /-- the last good control unit since the PCS locked -/
  peer : Option PeerInfo
  /-- SEQ of the next sequenced unit sent -/
  nextSeq : Nat
  /-- SEQ of the last unit accepted: the ACK of every trailer -/
  accepted : Nat
  /-- NAK is set in every trailer -/
  nak : Bool
  /-- unacknowledged units sent, oldest first: SEQ, KIND and data (R188) -/
  replay : List (Nat × Nat × Bytes)
  /-- the ACK from which the last replay was made on a NAK -/
  replayedFrom : Option Nat
  /-- consecutive replays without ACK progress -/
  stuck : Nat
  /-- Fabric Time of the last ACK progress, or of the last replay -/
  progressAt : Nat
  /-- initial credits of the pairs 5c + h at link up (R207) -/
  creditInit : List Nat
  /-- units consumed, and counts returned by the peer, modulo 2^16, by pair -/
  consumed : Sparse Nat
  returned : Sparse Nat
  /-- cumulative returns this receiver grants, and those the last control unit carried -/
  granted : Sparse Nat
  sentGrant : Sparse Nat
  /-- Fabric Time of the last control unit sent -/
  controlAt : Nat
  deriving DecidableEq, Repr

/-- A link layer that is down. -/
def Link.reset : Link :=
  { locked := false, half := false, peer := none, nextSeq := 0, accepted := 4095, nak := false, replay := [],
    replayedFrom := none, stuck := 0, progressAt := 0, creditInit := [], consumed := [], returned := [],
    granted := [], sentGrant := [], controlAt := 0 }

/-- A packet waiting at an endpoint to be cut into cells (R222): where it came from, the service port peer it answers (R211),
and its next cell. -/
structure TxItem where
  pkt : Packet
  at_ : RxAt
  dest : Option RxAt
  pos : Nat
  /-- copies of one packet of a stream engine carry one number: their cells after the first are shared (R275) -/
  share : Option Nat
  deriving DecidableEq, Repr

/-- A cell in an input stage (R222, R223). `outs` lists the outputs it has not reached, `fan` how many it was bound for. -/
structure StCell where
  bytes : Bytes
  first : Bool
  last : Bool
  len : Nat
  outs : List Nat
  fan : Nat
  cls : Nat
  /-- HOP with which its packet arrived, none for a packet injected on this device (R226) -/
  hop : Option Nat
  detour : Bool
  at_ : RxAt
  dest : Option RxAt
  /-- its buffer, once it was first transferred (R231) -/
  buf : Option Nat
  /-- the shared cell it is a copy of (R275) -/
  share : Option Nat
  deriving DecidableEq, Repr

/-- The packet an input is receiving cells of: what the examination of its first cell gave (R221), and how many of its bytes
are still to come. -/
structure Arrival where
  outs : List Nat
  cls : Nat
  hop : Option Nat
  detour : Bool
  at_ : RxAt
  dest : Option RxAt
  left : Nat
  /-- the shared packet it is a copy of, and the number of its next cell (R275) -/
  share : Option Nat
  cell : Nat
  deriving DecidableEq, Repr

/-- An input stage (R223): its cells, oldest first, and the packet being received. -/
structure Stage where
  cells : List StCell
  cur : Option Arrival
  deriving DecidableEq, Repr

/-- An empty input stage. -/
def Stage.reset : Stage := ⟨[], none⟩

/-- A packet an output is taking from an input: its buffers and bytes so far (R225). -/
structure Part where
  bufs : List Nat
  bytes : Bytes
  deriving DecidableEq, Repr

/-- Where a queued cell lies: a cell buffer, or a slot of a page (R238). -/
inductive CellAt where
  | die (b : Nat)
  | page (p slot : Nat)
  deriving DecidableEq, Repr

/-- A packet in an output queue (R226). -/
structure QPkt where
  pkt : Packet
  at_ : RxAt
  dest : Option RxAt
  cells : List CellAt
  deriving DecidableEq, Repr

/-- An output queue (R226, R238): its packets in order, and how many of its leading cells are the head segment. -/
structure OutQ where
  pkts : List QPkt
  head : Nat
  deriving DecidableEq, Repr

/-- An empty queue. -/
def OutQ.reset : OutQ := ⟨[], 0⟩

/-- An output's scheduler (R246 to R249): the packet being sent with the cells left and the index of the next, the deficits,
the current class, the hop-set pointers and the shaper credits. -/
structure OutPort where
  sending : Option QPkt
  next : Nat
  defs : List Nat
  cur : Nat
  fresh : Bool
  hp : List Nat
  cr : List Int
  live : List Nat
  deriving DecidableEq, Repr

/-- A scheduler after a start of the fabric function. -/
def OutPort.reset : OutPort := ⟨none, 0, [0, 0, 0, 0, 0, 0], 0, true, [0, 0, 0, 0, 0, 0, 0, 0], [0, 0, 0, 0, 0, 0, 0, 0], []⟩

/-- A buffer pool beside its capacity (R231): the header words of the buffers written since the last start, and whether
allocation has stopped (R235). `head` is NIL when the free list is empty. -/
structure Pool where
  head : Nat
  fresh : Nat
  used : Nat
  words : Sparse Nat
  stopped : Bool
  deriving DecidableEq, Repr

/-- A pool after a start of the fabric function. -/
def Pool.reset : Pool := ⟨0x1FFFFFF, 0, 0, [], false⟩

/-- Kinds of cells held on die (R228). -/
inductive CellKind where
  | lossless | lossy | returned
  deriving DecidableEq, Repr

/-- What a cell buffer is accounted to: the input's credit it holds, and the parcel it is charged to (R207, R237). -/
structure CellInfo where
  credit : Option Nat
  charge : Option Nat
  kind : CellKind
  deriving DecidableEq, Repr

/-- A buffer accounted to nothing. -/
def CellInfo.reset : CellInfo := ⟨none, none, .lossless⟩

/-- A service port beside its objects (R252, R253, R256): end of each class's pause, the classes whose XOFF was sent and
when, the buckets of each class in millibytes and the policer mode in force. -/
structure Svc where
  paused : List (Option Nat)
  xoff : List Bool
  xoffAt : Nat
  tc : List Int
  tp : List Int
  mode : List Nat
  deriving DecidableEq, Repr

/-- A service port after reset. -/
def Svc.reset : Svc :=
  ⟨List.replicate 8 none, List.replicate 8 false, 0, List.replicate 8 0, List.replicate 8 0, List.replicate 8 0⟩

/-- The switch core (R220 to R239, R246 to R250). -/
structure Switch where
  /-- the transfer slot of the present cell time, 0 or 1 -/
  phase : Nat
  /-- grant pointers (R224) -/
  gp : Sparse Nat
  stages : Sparse Stage
  /-- packets being transferred, by 221 × input + output -/
  parts : Sparse (Option Part)
  /-- output queues, by 40 × output + 5 × class + hop set -/
  queues : Sparse OutQ
  outs : Sparse OutPort
  cells : Pool
  pages : Pool
  info : Sparse CellInfo
  /-- the buffer of each shared cell, plus 1 (R275) -/
  shared : Sparse Nat
  /-- credits taken and not returned of inputs C0 to C35 and A0 to A40, and returns withheld of every input, by 40 × input +
  5 × class + hop set (R207, R236) -/
  taken : Sparse Nat
  owed : Sparse Nat
  /-- levels exceeded at the last test: WARN and BACKPRESSURE of the cell pool, of the page pool, and the limits of the four
  parcels (R236, R237) -/
  above : List Bool
  /-- cells each parcel has spent of its pacing budget in the present window (R250) -/
  paced : List Nat
  svc : Sparse Svc
  deriving DecidableEq, Repr

/-- The switch core after a start of the fabric function. -/
def Switch.reset : Switch :=
  { phase := 0, gp := [], stages := [], parts := [], queues := [], outs := [], cells := Pool.reset, pages := Pool.reset,
    info := [], shared := [], taken := [], owed := [], above := List.replicate 8 false, paced := [0, 0, 0, 0], svc := [] }

/-- A record inside a stream engine: its bytes, its tag (R270, R271), and whether a second copy of it differed (R313). -/
structure StRec where
  bytes : Bytes
  rank : Nat
  seq : Nat
  bad : Bool
  deriving DecidableEq, Repr

/-- Where a RUNNING engine stands: its stage's instructions to be run, their packets unanswered, its destination flags
unanswered, its NOTIFY unanswered, or the next run awaited (R269, R278). -/
inductive SteAt where
  | stage | sent | flags | notify | between
  deriving DecidableEq, Repr

/-- A packet of a stream engine: its first sending, the Fabric Time of a RING_FULL answer not yet followed by a resend, and the
place of the fetch it belongs to (R275, R283). -/
structure SteOut where
  pkt : Packet
  at_ : Nat
  full : Option Nat
  fetch : Option Nat
  deriving DecidableEq, Repr

/-- A stream engine beside its memory (R263 to R287). -/
structure Ste where
  /-- program, bindings and control fields loaded at START (R267, R268) -/
  prog : List Nat
  ins : List Nat
  outs : List Nat
  temps : List Nat
  runs : Nat
  startSlot : Nat
  notify : Nat
  runTimeout : Nat
  /-- the run in progress: its index, its start slot, its parameters, the first instruction of its stage -/
  run : Nat
  runSlot : Nat
  params : List Nat
  stage : Nat
  at_ : SteAt
  /-- Fabric Time up to which BUSY counts, in RUNNING (R289) -/
  busyAt : Nat
  /-- records of temporaries written in earlier stages, and whether they derive from a partial input (R276) -/
  tempQ : Sparse (Option (List StRec))
  partials : List Nat
  /-- records that CHAIN producers have given, by input (R273) -/
  chainQ : Sparse (Option (List StRec))
  /-- records landed at RECV inputs, and those whose second copy differed, by input, run parity, slot and record (R274, R313) -/
  landed : Sparse Bool
  differ : Sparse Bool
  /-- slots excluded, by input and run parity (R274) -/
  excluded : Sparse Nat
  /-- records written to MEM outputs, status and excess of the run (R266, R281) -/
  outCount : List Nat
  status : Nat
  excess : Nat
  /-- packets unanswered (R275), gets not yet sent and rows fetched (R283), the next TAG -/
  out : List SteOut
  gets : List SteOut
  rows : Sparse Bytes
  nextTag : Nat
  /-- destination flags the run owes: device, core, flag, class (R275) -/
  flagDevs : List (Nat × Nat × Nat × Nat)
  /-- what the stage reads of engine memory besides landed records, as it stood when the stage began (R268) -/
  image : Bytes
  deriving DecidableEq, Repr

/-- An engine with nothing loaded (R264). -/
def Ste.reset : Ste :=
  { prog := [], ins := [], outs := [], temps := [], runs := 0, startSlot := 0, notify := 0, runTimeout := 0, run := 0,
    runSlot := 0, params := [], stage := 0, at_ := .stage, busyAt := 0, tempQ := [], partials := [], chainQ := [], landed := [],
    differ := [], excluded := [], outCount := [], status := 0, excess := 0, out := [], gets := [], rows := [], nextTag := 0,
    flagDevs := [], image := [] }

/-- What the device sends, in the order in which it sends it: link units, Ethernet frames on service ports (peer address,
peer port, peer MAC, ECN, UDP payload), other frames on service ports by their own bytes, DAP messages, I3C answers. -/
inductive Output where
  | lu (p : PortId) (bytes : Bytes)
  | datagram (p : PortId) (addr : BitVec 128) (port : BitVec 16) (mac : BitVec 48) (ecn : Nat) (payload : Bytes)
  | frame (p : PortId) (bytes : Bytes)
  | dap (client : DapClient) (bytes : Bytes)
  | i3c (bytes : Bytes)
  deriving DecidableEq, Repr

/-- A dimension of a group with a count above 1, or a list as one (R292, R305): its number, its count, this member's digit, and
the step in rank of one digit. -/
structure CDim where
  k : Nat
  n : Nat
  i : Nat
  stride : Nat
  deriving DecidableEq, Repr

/-- One round of an instance (R305 to R309, R314, R319, R359): what it sends, awaits and does with it stands in CollRun. -/
inductive CRound where
  /-- the contribution is read -/
  | read
  /-- a small reduction of a phase begins, runs a stage, and is taken -/
  | miniBegin (phase : Nat)
  | mini (phase : Nat) (d : CDim)
  | miniEnd (phase : Nat)
  /-- a stage of direct combining, by its place, over its dimension -/
  | reduce (t : Nat) (d : CDim)
  /-- a stage whose values are summed over the mask agreed -/
  | sum (t : Nat) (d : CDim)
  | ring (d : CDim) (step : Nat)
  | convert
  | gather (d : CDim)
  | ringGather (d : CDim) (step : Nat)
  | spread (d : CDim)
  | chain (d : CDim)
  | accClear
  | accAdd
  | accOut
  | accWait
  | move
  deriving DecidableEq, Repr

/-- Elements landed for an instance: phase, slot, index of the first, element codes, scale bytes, and whether a second copy
differed (R313). -/
structure CollLand where
  phase : Nat
  slot : Nat
  off : Nat
  codes : List Nat
  scales : List Nat
  bad : Bool
  deriving DecidableEq, Repr

/-- Who began an instance: a program's COLL_START, ANCHOR_RETRY, STEP_COMMIT or STEP_REPLAY (R67, R301, R360, R363). -/
inductive CollFor where
  | program | retry | commit | ready
  deriving DecidableEq, Repr

/-- What a group keeps beside its table entry (R296, R321): NEXT_CSEQ, and the counts since its parcel started. -/
structure GroupSt where
  next : Nat
  stale : Nat
  refused : Nat
  deriving DecidableEq, Repr

/-- An entry of the step log (R358), with the attempt it belongs to (R359). -/
structure LogEntry where
  attempt : Nat
  group : Nat
  k : Nat
  mask : Nat
  included : Nat
  status : Nat
  excess : Nat
  anchor : Nat
  digest : Bytes
  deriving DecidableEq, Repr

/-- A STEP_COMMIT in progress (R360): its arguments, the calls that have arrived, the instance that carries the vote, and, of a
shadow, the digest it compares (R367). -/
structure CommitRec where
  n : Nat
  tc : Nat
  opts : Nat
  digests : Bytes
  cores : List Nat
  cseq : Option Nat
  startAt : Nat
  vote : Bool
  deriving DecidableEq, Repr

/-- A collective context (R297, R298): the instance's record and operands as copied at its start, and how far it is. -/
structure Coll where
  parcel : Nat
  group : Nat
  cseq : Nat
  core : Nat
  by_ : CollFor
  /-- SRAM offset of its record -/
  record : Nat
  kind : Nat
  algo : Nat
  tc : Nat
  opts : Nat
  slot : Nat
  role : Nat
  nslot : Nat
  flag : Nat
  pflag : Nat
  dim : Nat
  delta : Int
  root : Nat
  deadline : Nat
  force : Nat
  perm : List Nat
  src : Desc
  dst : Desc
  acc : Desc
  members : List Nat
  rank : Nat
  dims : List CDim
  replicate : Bool
  /-- slot from which the deadline counts, and in which the member begins (R301, R314) -/
  startSlot : Nat
  begun : Bool
  /-- Fabric Time of COLL_START -/
  startAt : Nat
  rounds : List CRound
  sent : Bool
  /-- this member's contribution: codes and scale bytes -/
  codes : List Nat
  scales : List Nat
  /-- its sums so far, from element `curLo`; none while it holds its contribution only -/
  cur : Option (List Da)
  curLo : Nat
  result : Sparse (Option Nat)
  resScale : Sparse Nat
  anchor : Int
  mini : List Int
  /-- slots excluded at the deadline (R274), and the mask agreed (R314) -/
  lost : Nat
  mask : Option Nat
  landed : List CollLand
  out : List SteOut
  /-- flag packets owed once every packet is answered (R307, R309) -/
  owed : List Packet
  status : Nat
  excess : Nat
  digest : Bytes
  failed : Bool
  /-- the record is written and FLAG incremented (R301) -/
  written : Bool
  deriving DecidableEq, Repr

/-- What a time packet advertises (R328, R330). -/
structure TimeAdv where
  phys : Nat
  prio : Nat
  dist : Nat
  seq : Nat
  epoch : Nat
  utc : Nat
  leap : Nat
  cls : Nat
  gm : Nat
  steps : Nat
  deriving DecidableEq, Repr

/-- The time unit of one fabric port since its link came up (R327 to R330). -/
structure TimePort where
  /-- T_XMIT of the last four time packets sent, newest first -/
  sent : List Nat
  /-- T_XMIT and arrival time of the last one received -/
  heard : Option (Nat × Nat)
  /-- samples accepted, and theta2 and delay2 of each, newest first -/
  accepted : Nat
  thetas : List Int
  delays : List Int
  /-- the last advertisement, the Fabric Time of the increase that keeps it fresh, and the last DATUM_SEQ by datum -/
  adv : Option TimeAdv
  fresh : Option Nat
  seen : Sparse (Option Nat)
  deriving DecidableEq, Repr

/-- A port that has exchanged nothing. -/
def TimePort.reset : TimePort :=
  { sent := [], heard := none, accepted := 0, thetas := [], delays := [], adv := none, fresh := none, seen := [] }

/-- What a service port keeps as an IEEE 1588 master (R340): when it last sent Sync and Announce, and their next sequence
numbers. -/
structure PtpPort where
  syncAt : Option Nat
  annAt : Option Nat
  syncSeq : Nat
  annSeq : Nat
  deriving DecidableEq, Repr

/-- A service port that has sent nothing. -/
def PtpPort.reset : PtpPort := ⟨none, none, 0, 0⟩

/-- The datum's own reference (R339): whether it has been taken, the step owed when it is first taken, the last PPS_IN edge, its
offsets, and of IEEE 1588 the grandmaster, the last Sync and its arrival, the last Delay_Req and its sending, and the two
differences of the delay request-response exchange. -/
structure TimeSrc where
  taken : Bool
  step : Bool
  edgeAt : Nat
  thetas : List Int
  gm : Option PtpAnnounce
  sync : Option (Nat × Nat)
  req : Option (Nat × Nat)
  reqSeq : Nat
  down : Option Int
  up : Option Int
  deriving DecidableEq, Repr

/-- A datum without a source. -/
def TimeSrc.reset : TimeSrc :=
  { taken := false, step := false, edgeAt := 0, thetas := [], gm := none, sync := none, req := none, reqSeq := 0, down := none,
    up := none }

/-- The time function beside its objects (R324 to R341). -/
structure TimeSt where
  /-- LOCKED or DATUM since the last start (R333) -/
  aligned : Bool
  /-- DATUM_SEQ of this device as the datum, and the Fabric Time of its last increment (R330) -/
  seq : Nat
  seqAt : Nat
  /-- twice the estimated offset from the parent or the source, in units -/
  est : Option Int
  /-- consecutive accepted samples within ±0.5 ns, and beyond ±1.5 ns (R325) -/
  good : Nat
  bad : Nat
  /-- what it last relayed (R330) -/
  relayed : Option TimeAdv
  ports : Sparse TimePort
  ptp : Sparse PtpPort
  src : TimeSrc
  /-- the EPOCH_TAI under which a grandmaster's time fell outside the counter's range (R339) -/
  barred : Option Nat
  deriving DecidableEq, Repr

/-- The time function not started. -/
def TimeSt.reset : TimeSt :=
  { aligned := false, seq := 0, seqAt := 0, est := none, good := 0, bad := 0, relayed := none, ports := [], ptp := [],
    src := TimeSrc.reset, barred := none }

/-- A slot of the operator key table (R426). -/
structure OpKey where
  key : Bytes
  role : Nat
  signs : Nat
  deriving DecidableEq, Repr

/-- The sealed store (R423): keys, certificates, identity, operator keys, counters, boot slots and boot count. `damaged` counts
its damaged copies. -/
structure Sealed where
  root : Bytes
  idPriv : Nat
  idPub : Bytes
  mgmtPriv : Nat
  mgmtPub : Bytes
  caCert : Bytes
  idCert : Bytes
  mgmtCert : Bytes
  physId : Nat
  serial : Bytes
  mac : Bytes
  ops : List OpKey
  counters : List Nat
  bootSlot : List Nat
  bootCount : Nat
  damaged : Nat
  deriving DecidableEq, Repr

/-- The sealed store of a device of which the manual gives no contents: zeros, and the owner key in slot 0 with role SECURITY
(R426, log 13). -/
def Sealed.reset : Sealed :=
  { root := List.replicate 64 0, idPriv := 0, idPub := List.replicate 64 0, mgmtPriv := 0, mgmtPub := List.replicate 64 0,
    caCert := List.replicate 256 0, idCert := List.replicate 256 0, mgmtCert := List.replicate 256 0, physId := 0,
    serial := List.replicate 16 0, mac := List.replicate 6 0,
    ops := ⟨List.replicate 64 0, 3, 0⟩ :: List.replicate 15 ⟨List.replicate 64 0, 0, 0⟩,
    counters := List.replicate 8 0, bootSlot := [0, 0, 0, 0], bootCount := 0, damaged := 0 }

end Sys2Proof.Machine
end

