-- ==== Sys2Proof/Machine/State.lean ====
section
/-! DEFINITION. The state of the block, the reasons a step can stop, and the state after reset. -/

namespace Sys2Proof.Machine

/-- Why the machine stops with a fault. -/
inductive Fault where
  /-- Raised by a tick on an empty queue (Step.lean) when Fabric Time stands one step below 2^64: R323 says that the device
  does not handle the wrap. Safe: the model stops where the manual guarantees nothing (log 11). -/
  | timeWrapped
  deriving DecidableEq, Repr

/-- Why the machine refuses a command. -/
inductive Refusal where
  /-- A command that has no meaning in this model yet; raised by Dispatch.lean only. Safe: nothing is claimed of it. -/
  | notModelled (mnemonic : String)
  deriving DecidableEq, Repr

/-- What the device keeps of a parcel besides its dictionary objects (R14, R43, R101). -/
structure Parcel where
  /-- seed store (R43) -/
  seed : BitVec 64
  /-- the container's length, installed at start; 0 for none (R101) -/
  contLen : Nat
  /-- a START held until clears end (R14) -/
  heldStart : Bool
  /-- a step-fatal error since the parcel's last COMMITTED, ROLLBACK or start (R361) -/
  stepErr : Bool
  /-- the step log (R358, R359), and whether an instance of the attempt found it full -/
  log : List LogEntry
  logFull : Bool
  /-- the attempt of the step in flight, and the arguments of its STEP_BEGIN (R357) -/
  attempt : Nat
  begun : Option (Nat × Nat)
  commit : Option CommitRec
  /-- slot in which the step was agreed, while its flip is due (R361) -/
  decided : Option Nat
  /-- a step-fatal error entered after the vote: it belongs to the next step (R360) -/
  late : Bool
  /-- JOB_START's outcome and the cores that have had it (R355) -/
  job : Option (List Nat × List Nat)
  /-- an adoption is in progress, with the arguments of its JOB_START, or has been made (R366) -/
  adopting : Option (List Nat)
  adopted : Bool
  /-- the cores that have called STEP_REPLAY, PARK or RESTORE, and when the first did (R178, R363, R372) -/
  calls : List Nat
  callsAt : Nat
  /-- the instance of the ready agreement (R363) -/
  ready : Option Nat
  /-- a reclaim (R369): 0 none, 1 awaiting Tr, 2 draining, 3 parking; its slot, and when it began -/
  reclaim : Nat
  reclaimSlot : Nat
  reclaimAt : Nat
  deriving DecidableEq, Repr

/-- A parcel with nothing installed. -/
def Parcel.reset : Parcel :=
  { seed := 0, contLen := 0, heldStart := false, stepErr := false, log := [], logFull := false, attempt := 0, begun := none,
    commit := none, decided := none, late := false, job := none, adopting := none, adopted := false, calls := [], callsAt := 0,
    ready := none, reclaim := 0, reclaimSlot := 0, reclaimAt := 0 }

/-- The state of the block. -/
structure State where
  /-- commands waiting, first in first out (the row's form of a block) -/
  pending : List Instr
  /-- index of the next free value (log 6) -/
  freshCtr : Nat
  /-- Fabric Time (R322), its fraction in 2^−40 units and its increment per period in 2^−40 units (R324) -/
  ft : BitVec 64
  ftFrac : BitVec 40
  ftInc : BitVec 48
  /-- dictionary values that differ from their default, by key (R386, R389) -/
  objs : Sparse Nat
  /-- control cores (R8) -/
  cores : Sparse Core
  /-- memory: bytes by fabric address bits [43:0] (R157), direct locations only -/
  mem : Sparse Byte
  /-- protected units of the tiers that hold an uncorrectable error, by their first address (R166, R459) -/
  bad : Sparse Bool
  /-- lines of the accumulate units' combining buffers, by unit, most recently used first (R174) -/
  accBuf : Sparse (List Nat)
  parcels : Sparse Parcel
  /-- functions that have left their first INIT, as a mask (R398) -/
  firstInit : Nat
  /-- packets waiting to be cut into cells, by endpoint (R222) -/
  txq : Sparse (List TxItem)
  /-- STANDIN in effect (R204): a write takes effect at the start of the next slot -/
  standin : Nat
  /-- the switch core and its buffer pools (chapter 09) -/
  sw : Switch
  /-- packets delivered to this device and not yet taken by an RX command -/
  inbox : List (RxAt × Packet)
  /-- link layers of the fabric ports (R187 to R190) -/
  links : Sparse Link
  /-- stream engines beside their memory (R263) -/
  stes : Sparse Ste
  /-- collective contexts (R298) -/
  colls : List Coll
  /-- what groups keep beside their entries (R296, R321) -/
  groups : Sparse GroupSt
  /-- the early-arrival store, in the order of arrival (R299) -/
  early : List (RxAt × Packet)
  /-- the time function (chapter 13) -/
  time : TimeSt
  /-- the sealed store and the flash beside the package, which a reset keeps (R421, R423) -/
  sealed : Sealed
  flash : Sparse Byte
  /-- flash ranges whose contents are open: address, length and the free value they come from (R450) -/
  flashLost : List (Nat × Nat × Nat)
  /-- the modules fitted in the bulk channels, none for an empty channel (R162, R163) -/
  modules : List (Option Module)
  /-- environment, supplies, boot and security, management -/
  env : EnvSt
  power : PowerSt
  sec : SecSt
  mgmt : MgmtSt
  /-- dies whose clear on joining a parcel is in progress, and stream engines (R14, R264) -/
  dieClears : List Nat
  steClears : List Nat
  /-- a device-fatal error has been entered since reset (R376, R206) -/
  fatal : Bool
  /-- units that have had a CORRECTED entry in this level-run interval (R376) -/
  corrSeen : Sparse Bool
  /-- what the device has sent -/
  sent : List Output
  deriving DecidableEq, Repr

/-- The state right after reset. -/
def State.reset : State :=
  { pending := [], freshCtr := 1, ft := 0, ftFrac := 0, ftInc := BitVec.ofNat 48 (1024 * 2 ^ 40 / 100),
    objs := [], cores := [], mem := [], bad := [], accBuf := [], parcels := [], firstInit := 0, txq := [], standin := 0xFF, sw := Switch.reset, inbox := [],
    links := [], stes := [], colls := [], groups := [], early := [], time := TimeSt.reset,
    sealed := Sealed.reset, flash := [], flashLost := [],
    modules := List.replicate 16 (some ⟨true, 64, 2, 0, 8800⟩), env := EnvSt.reset, power := PowerSt.reset, sec := SecSt.reset, mgmt := MgmtSt.reset, dieClears := [], steClears := [], fatal := false, corrSeen := [], sent := [] }

end Sys2Proof.Machine
end

