-- ==== Sys2Proof/Machine/Ops.lean ====
section
/-! DEFINITION. The named operations over the dictionary, time, cores and flags that every command's meaning is written
with. -/

namespace Sys2Proof.Machine

/-! ### Free values and time -/

/-- The next free value, and the state with its index advanced (log 6). -/
def State.fresh (s : State) : Nat × State :=
  (Config.freeNat s.freshCtr, { s with freshCtr := s.freshCtr + 1 })

/-- Fabric Time as a number (R322). -/
def State.now (s : State) : Nat := s.ft.toNat

/-- The slot of the present Fabric Time (R322). -/
def State.slot (s : State) : Nat := s.now / 1024

/-- Fabric Time advanced to an instant, never back (log 4). -/
def State.advanceTo (s : State) (t : Nat) : State :=
  if s.now < t ∧ t < 2 ^ 64 then { s with ft := BitVec.ofNat 64 t } else s

/-- The counter with its fraction after one period of its oscillator, in 2^−40 units (R324). -/
def State.afterTick (s : State) : Nat := s.ft.toNat * 2 ^ 40 + s.ftFrac.toNat + s.ftInc.toNat

/-- Neither VAUX33, VIO18 nor RESET_N holds the device in reset (R417). -/
def State.poweredUp (s : State) : Bool := s.power.vaux33 && s.power.vio18 && s.power.resetN

/-- Whether the next period carries the count past 2^64 (R323). -/
def State.tickWraps (s : State) : Bool := s.poweredUp && decide (2 ^ 104 ≤ s.afterTick)

/-- One period of the 1.5625 GHz clock (R324); the counter of a device held in reset stays (R325, R417). -/
def State.tick (s : State) : State :=
  if s.poweredUp then { s with ft := BitVec.ofNat 64 (s.afterTick / 2 ^ 40), ftFrac := BitVec.ofNat 40 s.afterTick } else s

/-! ### Dictionary values -/

/-- The stored value of an object (R389): its Default where nothing else was set. -/
def State.obj (s : State) (k : Nat) : Nat := Sparse.get (objDefault k) s.objs k

/-- The value of an object set. -/
def State.setObj (s : State) (k v : Nat) : State :=
  { s with objs := Sparse.set (objDefault k) s.objs k v }

/-- Bits of an object's type. -/
def objBits (k : Nat) : Nat :=
  match objRow (k / 256) (k % 256) with
  | some r => 8 * r.ty.size
  | none => 64

/-- A counter increased, saturating at its type's largest value (R39). -/
def State.addObj (s : State) (k n : Nat) : State :=
  if n = 0 then s else s.setObj k (satN (objBits k) (s.obj k + n))

/-- A counter increased by 1 (R39). -/
def State.bump (s : State) (k : Nat) : State := s.addObj k 1

/-- An object raised to a value when that is larger. -/
def State.raiseObj (s : State) (k n : Nat) : State := if s.obj k < n then s.setObj k n else s

/-- The device total that counts with a core's counter (R39, R71, R138, R156), none where it has none. -/
def coreTotal (sub : Nat) : Option Nat :=
  if 0x10 ≤ sub ∧ sub < 0x50 then some (objKey 0x6400 (0x10 + sub % 16))
  else if 0x50 ≤ sub ∧ sub < 0x70 then some (objKey 0x6400 sub)
  else if 0x70 ≤ sub ∧ sub < 0x80 then some (objKey 0x6500 (0x10 + (sub - 0x70)))
  else if 0x80 ≤ sub ∧ sub < 0x83 then some (objKey 0x6500 (0x20 + (sub - 0x80)))
  else if 0x92 ≤ sub ∧ sub < 0x97 then some (objKey 0x6600 (0x10 + (sub - 0x92)))
  else none

/-- A core counter increased, and its device total with it (R39). -/
def State.countCore (s : State) (c sub n : Nat) : State :=
  let s := s.addObj (objKey (0x6800 + c) sub) n
  match coreTotal sub with
  | some k => s.addObj k n
  | none => s

/-- Several core counters increased. -/
def State.countCores (s : State) (c : Nat) (l : List (Nat × Nat)) : State :=
  l.foldl (fun s e => s.countCore c e.1 e.2) s

/-- The device's own logical id (R217): {GROUP, POSITION} for a working device, {GROUP, STANDIN} for a spare, all ones
for a spare serving none and for the device whose position is stood in for. -/
def State.logicalId (s : State) : Nat :=
  let g := s.obj Obj.topo_GROUP
  let p := s.obj Obj.topo_POSITION
  let st := s.standin
  if p = 32 then (if st < 32 then g * 32 + st else 0xFFFFFFFF)
  else if p = st then 0xFFFFFFFF else g * 32 + p

/-! ### Parcels and their resources (R10, R13, R15, R157) -/

/-- MODE of a parcel: 1 serving, 2 training (R17). -/
def State.parMode (s : State) (n : Nat) : Nat := s.obj (Obj.par_MODE n)
/-- State of a function (R394). -/
def State.fnState (s : State) (f : Nat) : Nat := s.obj (Obj.fn_STATE f)
/-- State of a parcel's function. -/
def State.parState (s : State) (n : Nat) : Nat := s.fnState (8 + n)
/-- A parcel that is RUNNING or STOPPING. -/
def State.parActive (s : State) (n : Nat) : Bool := s.parState n = 3 || s.parState n = 4
/-- JOB_ID of a parcel (R218). -/
def State.jobId (s : State) (n : Nat) : Nat := s.obj (Obj.parfab_JOB_ID n)
/-- JOB_STATE of a parcel (R384). -/
def State.jobState (s : State) (n : Nat) : Nat := s.obj (Obj.res_JOB_STATE n)

/-- The first parcel that satisfies a test. -/
def findParcel (p : Nat → Bool) : Option Nat := [0, 1, 2, 3].find? p

/-- The parcel of die k (R13). -/
def State.dieParcel (s : State) (k : Nat) : Option Nat := findParcel (fun n => (s.obj (Obj.par_DIE_MASK n)).testBit k)
/-- The parcel of core c (R8, R10), none for a number that is no core's. -/
def State.coreParcel (s : State) (c : Nat) : Option Nat := if c < 1152 then s.dieParcel (c / 192) else none
/-- The parcel of stack k (R10). -/
def State.stackParcel (s : State) (k : Nat) : Option Nat := s.dieParcel (k / 2)
/-- The parcel of stream engine j (R17). -/
def State.steParcel (s : State) (j : Nat) : Option Nat := findParcel (fun n => (s.obj (Obj.par_STE_MASK n)).testBit j)
/-- The parcel of a bulk address (R17, R160). -/
def State.bulkParcel (s : State) (ba : Nat) : Option Nat :=
  findParcel (fun n =>
    let g := ba / 2 ^ 30
    let b := s.obj (Obj.par_BULK_BASE n)
    decide (b ≤ g) && decide (g < b + s.obj (Obj.par_BULK_SIZE n)))

/-- Dies of a parcel, ascending. -/
def State.dies (s : State) (n : Nat) : List Nat :=
  [0, 1, 2, 3, 4, 5].filter (fun k => (s.obj (Obj.par_DIE_MASK n)).testBit k)
/-- Stream engines of a parcel, ascending. -/
def State.engines (s : State) (n : Nat) : List Nat :=
  (List.range 48).filter (fun j => (s.obj (Obj.par_STE_MASK n)).testBit j)

/-- Fabric offset and space of a bulk address (R160), as address bits [43:0]. -/
def bulkAddr (ba : Nat) : Nat :=
  (2 + ba / 2 ^ 15 % 2) * 2 ^ 41 + (ba / 2 ^ 16) * 2 ^ 15 + ba % 2 ^ 15
/-- The bulk address of a fabric address in space 2 or 3 (R160). -/
def bulkOf (a : Nat) : Nat :=
  let o := addrOff a
  (o / 2 ^ 15) * 2 ^ 16 + (addrSpace a - 2) * 2 ^ 15 + o % 2 ^ 15
/-- Bulk channel of a bulk address (R160). -/
def bulkChan (ba : Nat) : Nat := ba / 2 ^ 12 % 16

/-- Module capacity C in bytes, 0 while the tier is not trained (R157, R180). -/
def State.modBytes (s : State) : Nat := s.obj Obj.mem_BULK_MODULE_GIB * 2 ^ 30

/-- First near-tier offset of the shard windows (R157). -/
def winBase : Nat := 0x18000000000

/-- Whether an address lies within its space's extent, shard windows limited to SHARD_GIB (R157, R158, R176). -/
def State.inExtent (s : State) (a : Nat) : Bool :=
  let o := addrOff a
  let sp := addrSpace a
  if sp = 0 then decide (o ≤ 0x8FFFFFFF)
  else if sp = 1 then
    if o < winBase then decide (o < 12 * 2 ^ 37)
    else
      let k := (o - winBase) / 2 ^ 35
      decide (k < 12) &&
        (match s.stackParcel k with
         | some n => decide ((o - winBase) % 2 ^ 35 < s.obj (Obj.parmem_SHARD_GIB n) * 2 ^ 30)
         | none => true)
  else if sp = 2 ∨ sp = 3 then decide (o < 8 * s.modBytes)
  else if sp = 4 then decide (o ≤ 0x2FFFFFF)
  else false

/-- The parcel that owns an address's resource (R15, R158, R196); none for an address that names no resource. -/
def State.ownerOf (s : State) (a : Nat) : Option Nat :=
  let o := addrOff a
  let sp := addrSpace a
  if sp = 0 then (if o ≤ 0x8FFFFFFF then s.coreParcel (o / 2 ^ 21) else none)
  else if sp = 1 then
    if o < winBase then (if o < 12 * 2 ^ 37 then s.stackParcel (o / 2 ^ 37) else none)
    else if (o - winBase) / 2 ^ 35 < 12 then s.stackParcel ((o - winBase) / 2 ^ 35) else none
  else if sp = 2 ∨ sp = 3 then (if o < 8 * s.modBytes then s.bulkParcel (bulkOf a) else none)
  else if sp = 4 then (if o ≤ 0x2FFFFFF then s.steParcel (o / 2 ^ 20) else none)
  else none

/-- Whether an address names a shard window (R176). -/
def isWindow (a : Nat) : Bool := decide (addrSpace a = 1) && decide (winBase ≤ addrOff a)

/-- The direct location [43:0] of an address: a shard window reaches the active half on a read and the other half on a
write (R176). -/
def State.resolve (s : State) (write : Bool) (a : Nat) : Nat :=
  if isWindow a then
    let o := addrOff a - winBase
    let k := o / 2 ^ 35
    let n := (s.stackParcel k).getD 0
    let half := s.obj (Obj.parmem_ACTIVE_HALF n)
    let h := if write then 1 - half else half
    2 ^ 41 + k * 2 ^ 37 + (s.obj (Obj.parmem_SHARD_OFFSET n) + h * s.obj (Obj.parmem_SHARD_GIB n)) * 2 ^ 30 + o % 2 ^ 35
  else a % 2 ^ 44

/-! ### Memory bytes (R157, R166, R459) -/

/-- A byte read at an address. What nothing has written reads as 0 (log 2). -/
def State.readByte (s : State) (a : Nat) : Byte := Sparse.get 0 s.mem (s.resolve false a)

/-- `n` bytes read in ascending order. -/
def State.readBytes (s : State) (a n : Nat) : Bytes := (List.range n).map (fun i => s.readByte (a + i))

/-- The little-endian number of `n` bytes. -/
def State.readNat (s : State) (a n : Nat) : Nat := leNat (s.readBytes a n)

/-- A byte of a direct location set. -/
def State.pokeByte (s : State) (k : Nat) (b : Byte) : State := { s with mem := Sparse.set 0 s.mem k b }

/-- Bytes written from an address, in ascending order, with no check. -/
def State.writeBytes (s : State) (a : Nat) : Bytes → State
  | [] => s
  | b :: bs => (s.pokeByte (s.resolve true a) b).writeBytes (a + 1) bs

/-- First location of the protected unit of a direct location: 32 B in the near tier, 64 B in the bulk tier (R166). -/
def unitOf (k : Nat) : Nat :=
  if addrSpace k = 1 then k / 32 * 32 else if addrSpace k = 2 ∨ addrSpace k = 3 then k / 64 * 64 else k

/-- Size of the protected unit of a location. -/
def unitSize (k : Nat) : Nat :=
  if addrSpace k = 1 then 32 else if addrSpace k = 2 ∨ addrSpace k = 3 then 64 else 1

/-- Whether a location lies in a unit with an uncorrectable error. -/
def State.isBad (s : State) (k : Nat) : Bool := Sparse.get false s.bad (unitOf k)

/-- The first location of a read that meets an uncorrectable error, if any (R167). -/
def State.firstBad (s : State) (write : Bool) (a n : Nat) : Option Nat :=
  if s.bad = [] then none
  else ((List.range n).map (fun i => s.resolve write (a + i))).find? s.isBad

/-- Whether a run of `n` locations from `a` covers the whole unit of the location of `a + i`. -/
def coversUnit (s : State) (a n i : Nat) : Bool :=
  let k := s.resolve true (a + i)
  let u := unitOf k
  decide (k - u ≤ i) && decide (i - (k - u) + unitSize k ≤ n)

/-- Bytes written with the rules of R459: a unit with an error that is only partly covered keeps its error and its
bytes; a unit wholly covered loses its error. The address of the first partial write that met an error is returned. -/
def State.storeBytes (s : State) (a : Nat) (bs : Bytes) : State × Option Nat :=
  if s.bad = [] then (s.writeBytes a bs, none)
  else
    let n := bs.length
    (bs.zipIdx).foldl (fun (r : State × Option Nat) (e : Byte × Nat) =>
      let k := s.resolve true (a + e.2)
      if s.isBad k && !coversUnit s a n e.2 then (r.1, r.2.or (some k))
      else ({ r.1.pokeByte k e.1 with bad := Sparse.set false r.1.bad (unitOf k) false }, r.2)) (s, none)

/-! ### Cores, registers and flags -/

/-- A core's state. -/
def State.core (s : State) (c : Nat) : Core := Sparse.get Core.reset s.cores c

/-- A core's state changed. -/
def State.setCore (s : State) (c : Nat) (k : Core) : State := { s with cores := Sparse.set Core.reset s.cores c k }

/-- A core's state changed by a function. -/
def State.modCore (s : State) (c : Nat) (f : Core → Core) : State := s.setCore c (f (s.core c))

/-- A scalar register; s0 reads as 0 (R72). -/
def Core.reg (k : Core) (r : Reg) : BitVec 64 := if r = 0 then 0 else Sparse.get 0 k.regs r.val

/-- A scalar register written; a write of s0 is discarded (R72). -/
def Core.setReg (k : Core) (r : Reg) (v : BitVec 64) : Core :=
  if r = 0 then k else { k with regs := Sparse.set 0 k.regs r.val v }

/-- A flag's value (R83). -/
def Core.flag (k : Core) (f : Flag) : BitVec 32 := Sparse.get 0 k.flags f.val

/-- "f ≥ v" of R84. -/
def flagGe (f v : BitVec 32) : Bool := decide ((f - v).toNat < 2 ^ 31)

/-- The state of core c's CORE_STATE object (R109). -/
def State.coreState (s : State) (c : Nat) : Nat := s.obj (Obj.core_CORE_STATE c)
/-- CORE_STATE set. -/
def State.setCoreState (s : State) (c v : Nat) : State := s.setObj (Obj.core_CORE_STATE c) v

/-- The queue of an engine. -/
def Core.queue (k : Core) : Queue → List QEntry
  | .mxe => k.mxe | .vxe => k.vxe | .spe => k.spe | .txe => k.txe

/-- The queue of an engine replaced. -/
def Core.setQueue (k : Core) (q : Queue) (l : List QEntry) : Core :=
  match q with
  | .mxe => { k with mxe := l } | .vxe => { k with vxe := l } | .spe => { k with spe := l } | .txe => { k with txe := l }

/-- Queue depths (R73). -/
def queueDepth : Queue → Nat
  | .mxe => 32 | .vxe => 64 | .spe => 32 | .txe => 64

/-- FAULT_QUEUE code of an engine (R110). -/
def queueCode : Queue → Nat
  | .mxe => 1 | .vxe => 2 | .spe => 3 | .txe => 4

/-- Number of an engine as the key of its warmth. -/
def queueIdx : Queue → Nat
  | .mxe => 0 | .vxe => 1 | .spe => 2 | .txe => 3

/-- Every queue empty: every operation already issued has completed (R93). -/
def Core.idle (k : Core) : Bool :=
  k.mxe.isEmpty && k.vxe.isEmpty && k.spe.isEmpty && k.txe.isEmpty

/-- QUEUE_FILL (R110). -/
def Core.fill (k : Core) : Nat :=
  k.txe.length * 2 ^ 24 + k.spe.length * 2 ^ 16 + k.vxe.length * 2 ^ 8 + k.mxe.length

/-- The listed cores that satisfy a test, as indices. -/
def State.coresWhere (s : State) (p : Nat → Bool) : List Nat := (s.cores.map Prod.fst).filter (fun c => decide (c < 1152) && p c)

/-- The listed cores of a parcel. -/
def State.parCores (s : State) (n : Nat) : List Nat := s.coresWhere (fun c => s.coreParcel c = some n)

/-- The mapped cores of a parcel (R101). -/
def State.mapped (s : State) (n : Nat) : List Nat := (s.parCores n).filter (fun c => (s.core c).mapped)

/-! ### Function states (R394 to R399) -/

/-- The functions that exist (R393). -/
def allFunctions : List Nat := [0, 1, 2, 3, 4, 5, 6, 8, 9, 10, 11]

/-- CHANGE_SEQ incremented modulo 2^32 (R398). -/
def State.bumpChange (s : State) : State :=
  s.setObj Obj.dev_CHANGE_SEQ ((s.obj Obj.dev_CHANGE_SEQ + 1) % 2 ^ 32)

/-- A mask with bit f set to b. -/
def setBit (m f : Nat) (b : Bool) : Nat := if b then m ||| 2 ^ f else m - m % 2 ^ (f + 1) + m % 2 ^ f

/-- DEVICE_STATE set, with CHANGE_SEQ on a change (R398). -/
def State.setDeviceState (s : State) (v : Nat) : State :=
  if s.obj Obj.dev_DEVICE_STATE = v then s else (s.setObj Obj.dev_DEVICE_STATE v).bumpChange

/-- DEVICE_STATE brought up to date: UP once no non-parcel function is OFF or in its first INIT (R398). -/
def State.updDeviceState (s : State) : State :=
  if s.obj Obj.dev_DEVICE_STATE = 2 then s
  else if [0, 1, 2, 3, 4, 5, 6].all (fun f => s.firstInit.testBit f) then s.setDeviceState 1
  else s.setDeviceState 0

/-- The counter's increment for a change from nominal in 10^−12 (R324). -/
def ftIncOf (adj : Int) : BitVec 48 := BitVec.ofInt 48 ((1024 * 2 ^ 40 / 100 : Int) * (10 ^ 12 + adj) / 10 ^ 12)

/-- FREQ_ADJ and the increment set, within ±200 parts per million (R324). -/
def State.setFreq (s : State) (adj : Int) : State :=
  let a := satI adj (-200000000) 200000000
  { s with ftInc := ftIncOf a }.setObj Obj.time_FREQ_ADJ (wrap 32 a)

/-- TIME_STATE set (R325, R333, R398). -/
def State.setTimeState (s : State) (v : Nat) : State :=
  if s.obj Obj.time_TIME_STATE = v then s
  else
    let s := (s.setObj Obj.time_TIME_STATE v).bumpChange
    if v = 2 ∨ v = 4 then { s with time := { s.time with aligned := true } }.setObj Obj.time_LOCKED_SINCE s.now else s

/-- The objects that name the datum (R352). -/
def State.setDatum (s : State) (phys prio dist parent : Nat) : State :=
  (((s.setObj Obj.time_DATUM_PHYS phys).setObj Obj.time_DATUM_PRIO prio).setObj Obj.time_DATUM_DIST dist).setObj
    Obj.time_PARENT_PORT parent

/-- The time function no longer runs: TIME_STATE FREE, the counter unsteered, nothing followed (R325). -/
def State.timeStop (s : State) : State :=
  let s := ({ s with time := { TimeSt.reset with barred := s.time.barred } }.setTimeState 0).setFreq 0
  ((s.setDatum 0xFFFFFFFF 0xFF 0xFF 0xFF).setObj Obj.time_OFFSET_EST 0).setObj Obj.time_SOURCE_STATE 0

/-- A function's state changed, with the objects that follow it (R398, R399). -/
def State.setFnState (s : State) (f v : Nat) : State :=
  if s.fnState f = v then s
  else
    let s := s.setObj (Obj.fn_STATE f) v
    let s := s.setObj (Obj.fn_LAST_CHANGE f) s.now
    let s := if v = 3 then s.setObj (Obj.fn_STARTS f) ((s.obj (Obj.fn_STARTS f) + 1) % 2 ^ 32) else s
    let s := if v = 6 then s.setObj (Obj.fn_FAULT_ENTRIES f) ((s.obj (Obj.fn_FAULT_ENTRIES f) + 1) % 2 ^ 32) else s
    let s := s.setObj Obj.dev_FAULT_MASK (setBit (s.obj Obj.dev_FAULT_MASK) f (v = 6))
    let s := s.setObj Obj.dev_RUNNING_MASK (setBit (s.obj Obj.dev_RUNNING_MASK) f (v = 3))
    let s := if f = 3 ∧ v ≠ 3 ∧ v ≠ 4 then s.timeStop else s
    let s := if v ≠ 0 ∧ v ≠ 1 then { s with firstInit := s.firstInit ||| 2 ^ f } else s
    s.bumpChange.updDeviceState

/-! ### Stream engines, contexts and ports as a halt touches them -/

/-- Address bits [43:0] of byte `o` of stream engine j's memory (R157, R265). -/
def steAddr (j o : Nat) : Nat := 4 * 2 ^ 41 + j * 2 ^ 20 + o

/-- STE_STATE set, in the object (R289) and in the control block (R266). -/
def State.setSteState (s : State) (j v : Nat) : State :=
  (s.setObj (Obj.ste_STE_STATE j) v).pokeByte (steAddr j 0x64) (BitVec.ofNat 8 v)

/-- BUSY brought up to the present: cycles of 0.64 ns in RUNNING (R289). -/
def State.steBusy (s : State) (j : Nat) : State :=
  if s.obj (Obj.ste_STE_STATE j) = 2 then
    let e := Sparse.get Ste.reset s.stes j
    let n := (s.now - e.busyAt) * 100 / 1024
    { s with stes := Sparse.set Ste.reset s.stes j { e with busyAt := s.now } }.addObj (Obj.ste_BUSY j) n
  else s

/-- Everything an engine holds discarded (R287); the next TAG stays, so that late responses match nothing. -/
def State.clearSte (s : State) (j : Nat) : State :=
  { s with stes := Sparse.modify Ste.reset s.stes j (fun e => { Ste.reset with nextTag := e.nextTag }) }

/-- STOP of a stream engine: from RUNNING or WAITING to ENDED, its run discarded (R264, R287). -/
def State.stopSte (s : State) (j : Nat) : State :=
  let v := s.obj (Obj.ste_STE_STATE j)
  if v = 1 ∨ v = 2 then ((s.steBusy j).clearSte j).setSteState j 3 else s

/-- STOP of every stream engine of a parcel (R287, R362). -/
def State.stopEngines (s : State) (n : Nat) : State := (s.engines n).foldl State.stopSte s

/-- PARCEL of the group a coll packet names (R193, R291). -/
def State.packetParcel (s : State) (k : Packet) : Nat := s.obj (Obj.grp_ENTRY (k.extn.toNat / 2 ^ 240)) / 256 % 256

/-- The collective contexts of a parcel released, and the arrivals held for its groups discarded (R297, R299, R362). -/
def State.releaseContexts (s : State) (n : Nat) : State :=
  { s with colls := s.colls.filter (fun c => decide (c.parcel ≠ n)), early := s.early.filter (fun x => decide (s.packetParcel x.2 ≠ n)) }

/-- A link layer with its state as after a link down, the PCS and what the peer said kept (R190). -/
def Link.down (l : Link) : Link := { Link.reset with locked := l.locked, half := l.half, peer := l.peer }

/-- A fabric port held disabled: its PCS runs on, and it sends and accepts no sequenced unit (R206). -/
def State.disablePort (s : State) (p : Nat) : State :=
  { s with links := Sparse.modify Link.reset s.links p Link.down }.setObj (Obj.port_LINK_STATE p) 4

end Sys2Proof.Machine
end

