-- ==== Sys2Proof/Machine/Errors.lean ====
section
/-! DEFINITION. The error ring, severities and their effects (R376 to R380), the halt of a parcel (R362 steps 1 to 3),
memory errors (R167) and core faults (R106, R107). -/

namespace Sys2Proof.Machine

/-- One error to enter (R377): severity, function, parcel, code (class << 8 | code), unit, detail. -/
structure ErrRec where
  sev : Nat
  fn : Nat
  parcel : Option Nat
  code : Nat
  unit : Nat
  detail : Nat
  deriving DecidableEq, Repr

/-- The 32 bytes of a ring entry as their little-endian number (R377). -/
def ringWord (seq sev fn parcel flags time code unit step detail : Nat) : Nat :=
  leNat (leBytes 4 seq ++ leBytes 1 sev ++ leBytes 1 fn ++ leBytes 1 parcel ++ leBytes 1 flags ++ leBytes 8 time
    ++ leBytes 2 code ++ leBytes 2 unit ++ leBytes 4 step ++ leBytes 8 detail)

/-- `enter` of R379, with the entry written: the state, the severity recorded, and whether it escalated. -/
def State.enter (s : State) (e : ErrRec) : State × Nat × Bool :=
  -- a step-fatal entry of a function other than a parcel is handled by each parcel it concerns (R380)
  let own := e.sev ≥ 3 || e.fn ≥ 8
  let handling := own && s.obj (Obj.ferr_HANDLING e.fn) = 1
  let nest := handling && decide (2 ≤ e.sev)
  let esc := nest && decide (e.sev < 3)
  let sev := if esc then 3 else e.sev
  let fl := if esc then 3 else if nest then 1 else 0
  let s := if nest then (s.bump (Obj.ferr_NESTED e.fn)).bump Obj.ring_NESTED_TOTAL else s
  let seq := s.obj Obj.ring_WRITE_SEQ
  let step := match e.parcel with
    | some n => s.obj (Obj.res_STEP_IN_FLIGHT n)
    | none => 0xFFFFFFFF
  let w := ringWord seq sev e.fn (e.parcel.getD 0xFF) fl s.now e.code e.unit step e.detail
  let s := s.setObj Obj.ring_WRITE_SEQ ((seq + 1) % 2 ^ 32)
  let s := s.setObj (Obj.ring_ENTRY seq) w
  let s := s.bump (Obj.ring_ENTRIES sev)
  let s := if 2 ≤ sev ∧ s.obj (Obj.ferr_FIRST_ERROR e.fn) = 2 ^ 256 - 1 then s.setObj (Obj.ferr_FIRST_ERROR e.fn) w else s
  let s := if nest ∧ s.obj (Obj.ferr_FIRST_NESTED e.fn) = 2 ^ 256 - 1 then s.setObj (Obj.ferr_FIRST_NESTED e.fn) w else s
  let s := if 2 ≤ sev ∧ own then s.setObj (Obj.ferr_HANDLING e.fn) 1 else s
  (s, sev, esc)

/-- One core's issue stops and its operations not started are discarded; they increment no flag (R106 steps 1 and 2). -/
def Core.halt (k : Core) : Core :=
  { k with hold := .none, lib := none, stopped := true,
           mxe := k.mxe.filter (fun e => decide (e.phase ≠ .waiting)),
           vxe := k.vxe.filter (fun e => decide (e.phase ≠ .waiting)),
           spe := k.spe.filter (fun e => decide (e.phase ≠ .waiting)),
           txe := k.txe.filter (fun e => decide (e.phase ≠ .waiting)) }

/-- QUEUE_FILL brought up to date (R110). -/
def State.updFill (s : State) (c : Nat) : State := s.setObj (Obj.core_QUEUE_FILL c) (s.core c).fill

/-- A core halted, its CORE_STATE left FAULTED or ENDED and otherwise IDLE (log 23). -/
def State.haltCore (s : State) (c : Nat) : State :=
  let s := (s.modCore c Core.halt).updFill c
  if s.coreState c = 5 ∨ s.coreState c = 6 then s else s.setCoreState c 0

/-- Issue stops on every core of a parcel, its stream engines stop and its collective contexts are released (R362 steps 1
to 3). -/
def State.haltParcel (s : State) (n : Nat) : State :=
  let s := (s.parCores n).foldl State.haltCore s
  (s.stopEngines n).releaseContexts n

/-- A parcel's record changed. -/
def State.modParcel (s : State) (n : Nat) (f : Parcel → Parcel) : State :=
  { s with parcels := Sparse.modify Parcel.reset s.parcels n f }

/-- A parcel's record. -/
def State.parcel (s : State) (n : Nat) : Parcel := Sparse.get Parcel.reset s.parcels n

/-- JOB_STATE set. -/
def State.setJobState (s : State) (n v : Nat) : State := s.setObj (Obj.res_JOB_STATE n) v

/-- The job must restart (R365): JOB_STATE RESTART_NEEDED, counted once for each entry to that state. -/
def State.restartNeeded (s : State) (n : Nat) : State :=
  if s.jobState n = 7 then s else (s.setJobState n 7).bump (Obj.res_RESTARTS_NEEDED n)

/-- Whether the parcel is a shadow (R367). -/
def State.isShadow (s : State) (n : Nat) : Bool := s.obj (Obj.res_SHADOW_TARGET n) ≠ 0xFFFFFFFF

/-- A shadowed step that was interrupted (R368). -/
def State.shadowInterrupted (s : State) (n : Nat) : State :=
  let s := s.setObj (Obj.res_SHADOW_STATE n) 4
  let s := s.setObj (Obj.res_SHADOW_MATCHES n) 0
  (s.haltParcel n).setFnState (8 + n) 5

/-- A step-fatal error of a RUNNING training parcel (R362, R368, R370): a shadow is interrupted, a reclaim goes on without
its header, any other parcel starts its rollback. -/
def State.stepFatal (s : State) (n : Nat) : State :=
  if s.parMode n = 2 ∧ s.parState n = 3 then
    let s := s.modParcel n (fun p => { p with stepErr := true })
    if s.isShadow n then s.shadowInterrupted n
    else if s.jobState n = 6 then
      (s.restartNeeded n).setObj (Obj.parmem_PARK_STATE n) 0
    else if s.jobState n = 3 then s
    else if s.jobState n = 7 then s.haltParcel n
    else if s.jobState n = 2 ∧ ((s.parcel n).commit.any (fun c => c.cseq.isSome)) then s.modParcel n (fun p => { p with late := true })
    else (s.haltParcel n).setJobState n 3
  else s

/-- The entry of a parcel whose needed function entered FAULT (R395). The manual gives it no class or code: a free value
(log 6). -/
def State.lossEntry (s : State) (n : Nat) : State :=
  let (v, s) := s.fresh
  (s.enter ⟨3, 8 + n, some n, v % 2 ^ 16, 0xFFFF, 0⟩).1

/-- A parcel's function moves to FAULT (R376): its cores, engines and contexts halt. -/
def State.parcelFault (s : State) (n : Nat) : State :=
  let s := if s.jobState n = 6 then (s.restartNeeded n).setObj (Obj.parmem_PARK_STATE n) 0 else s
  (s.haltParcel n).setFnState (8 + n) 6

/-- The functions a parcel needs RUNNING (R393). -/
def State.parcelNeeds (s : State) (n f : Nat) : Bool :=
  f = 2 || f = 3 || f = 4 || f = 6 || (f = 5 && s.obj (Obj.par_BULK_SIZE n) ≠ 0)

/-- A function moves to FAULT, and the active parcels that need it with it (R376, R395). -/
def State.functionFault (s : State) (f : Nat) : State :=
  if s.fnState f = 0 then s
  else if 8 ≤ f then s.parcelFault (f - 8)
  else
    let s := s.setFnState f 6
    [0, 1, 2, 3].foldl (fun s n =>
      if s.parActive n && s.parcelNeeds n f then (s.lossEntry n).parcelFault n else s) s

/-- A device-fatal error (R376): every function moves to FAULT and every fabric port is held disabled (R206). -/
def State.deviceFatal (s : State) : State :=
  let s := [0, 1, 2, 3].foldl (fun s n => s.haltParcel n) s
  let s := allFunctions.foldl (fun s f => s.setFnState f 6) s
  let s := (List.range 125).foldl (fun s p => s.disablePort p) s
  { s with fatal := true }.setDeviceState 2

/-- A step-fatal entry of a function other than a parcel concerns every training parcel (R376), each of which handles it
under R379 (R380): a parcel already handling an error moves to FAULT and its job must restart. -/
def State.concernAll (s : State) : State :=
  [0, 1, 2, 3].foldl (fun s n =>
    if s.parMode n = 2 ∧ s.parState n = 3 then
      if s.obj (Obj.ferr_HANDLING (8 + n)) = 1 then
        (((s.bump (Obj.ferr_NESTED (8 + n))).bump Obj.ring_NESTED_TOTAL).restartNeeded n).parcelFault n
      else (s.setObj (Obj.ferr_HANDLING (8 + n)) 1).stepFatal n
    else s) s

/-- An error entered in the ring with its effect (R376 to R380). -/
def State.raise (s : State) (e : ErrRec) : State :=
  let (s, sev, esc) := s.enter e
  if sev = 2 then (if 8 ≤ e.fn then s.stepFatal (e.fn - 8) else s.concernAll)
  else if sev = 3 then
    let s := if esc ∧ 8 ≤ e.fn ∧ s.parMode (e.fn - 8) = 2 then s.restartNeeded (e.fn - 8) else s
    s.functionFault e.fn
  else if sev = 4 then s.deviceFatal
  else s

/-- An error of a parcel whose severity is step-fatal in a training parcel and `other` in a serving one. -/
def State.raiseParcel (s : State) (n code unit detail other : Nat) : State :=
  s.raise ⟨if s.parMode n = 2 then 2 else other, 8 + n, some n, code, unit, detail⟩

/-- An error recorded only. -/
def State.advise (s : State) (fn : Nat) (parcel : Option Nat) (code unit detail : Nat) : State :=
  s.raise ⟨0, fn, parcel, code, unit, detail⟩

/-- A CORRECTED error: recorded for the first event of its unit in each level-run interval (R376). -/
def State.corrected (s : State) (fn code unit detail : Nat) (parcel : Option Nat) : State :=
  if Sparse.get false s.corrSeen unit then s
  else { s with corrSeen := Sparse.set false s.corrSeen unit true }.raise ⟨1, fn, parcel, code, unit, detail⟩

/-! ### Memory errors (R167, R459) -/

/-- The controller of a location of the tiers: stack 0 to 11, channel 12 to 27 (R182). -/
def ctlOf (k : Nat) : Nat :=
  if addrSpace k = 1 then addrOff k / 2 ^ 37 else 12 + bulkChan (bulkOf k)

/-- UNIT of a controller's entries (R377). -/
def ctlUnit (u : Nat) : Nat := if u < 12 then 0x100 + u else 0x200 + (u - 12)

/-- The function of a controller's entries: NEAR or BULK (R459). -/
def ctlFn (u : Nat) : Nat := if u < 12 then 6 else 5

/-- Whether a location lies in one of the two tiers. -/
def inTier (k : Nat) : Bool := addrSpace k = 1 || addrSpace k = 2 || addrSpace k = 3

/-- A corrected error met at a location (R167). -/
def State.memCorrected (s : State) (k : Nat) : State :=
  if inTier k then
    let u := ctlOf k
    let s := s.bump (objKey (ctlIndex u) 0x01)
    let s := s.bump Obj.mem_CORR_TOTAL
    let s := { s with env := { s.env with corr := Sparse.modify 0 s.env.corr u (· + 1) } }
    s.corrected (ctlFn u) 0x0401 (ctlUnit u) (addrOff k) (s.ownerOf k)
  else s

/-- An uncorrectable error met at a location (R167, R459). -/
def State.memUncorrected (s : State) (k : Nat) : State :=
  if inTier k then
    let u := ctlOf k
    let s := s.bump (objKey (ctlIndex u) 0x02)
    let s := s.bump Obj.mem_UNCORR_TOTAL
    let first := objKey (ctlIndex u) 0x03
    let s := if s.obj first = 2 ^ 64 - 1 then s.setObj first (addrOff k) else s
    match s.ownerOf k with
    | some n => s.raiseParcel n 0x0402 (ctlUnit u) (addrOff k) 3
    | none => s.advise (ctlFn u) none 0x0402 (ctlUnit u) (addrOff k)
  else s

/-- The memory errors that a command's accesses meet come to stand: an uncorrectable one stays in its unit (R459), a
corrected one is counted at once (R167). -/
def State.plant (s : State) (errs : List MemErr) : State :=
  errs.foldl (fun s e =>
    let k := s.resolve false e.addr.toNat
    if e.corrected then s.memCorrected k
    else { s with bad := Sparse.set false s.bad (unitOf k) true }) s

/-! ### Core faults (R106 to R110) -/

/-- A core fault: `queue` as FAULT_QUEUE codes it, `seq` the count of operations issued before the faulting one, and for
WAIT_EXPIRED the flag, the awaited value and the value seen. -/
def State.coreFaultWith (s : State) (c queue code seq : Nat) (wait : Option (Nat × Nat × Nat)) (detail : Nat) : State :=
  let s :=
    if s.obj (Obj.core_FAULT_CODE c) = 0 then
      let (f, w, v) := wait.getD (0xFFFF, 0, 0)
      let s := s.setObj (Obj.core_FAULT_CODE c) code
      let s := s.setObj (Obj.core_FAULT_QUEUE c) queue
      let s := s.setObj (Obj.core_FAULT_FLAG c) f
      let s := s.setObj (Obj.core_FAULT_WANT c) w
      let s := s.setObj (Obj.core_FAULT_SEEN c) v
      let s := s.setObj (Obj.core_FAULT_TIME c) s.now
      s.setObj (Obj.core_FAULT_OPSEQ c) seq
    else s.bump (Obj.core_NESTED_FAULTS c)
  let s := ((s.modCore c Core.halt).updFill c).setCoreState c 6
  match s.coreParcel c with
  | some n => s.raiseParcel n (0x0100 + code) c detail 3
  | none => s

/-- A core fault that is not a WAIT_EXPIRED. -/
def State.coreFault (s : State) (c queue code seq : Nat) : State := s.coreFaultWith c queue code seq none 0

end Sys2Proof.Machine
end

