-- ==== Sys2Proof/Machine/Flags.lean ====
section
/-! DEFINITION. Flags and what a change of one releases (R83 to R88, R122), and how a core's waits, stalls and end of
issue show in CORE_STATE (R73, R93, R109). -/

namespace Sys2Proof.Machine

/-! ### CORE_STATE -/

/-- The state a core that issues shows for what holds it (R109). -/
def Core.holdState (k : Core) : Nat :=
  match k.hold with
  | .flagWait .. => 2
  | .timeWait _ => 2
  | .stall .. => 3
  | .none => if k.lib.isSome then 4 else 1

/-- CORE_STATE brought up to date: ENDED once `core.end` was issued and the queues are empty (R93), otherwise what holds
the core (R109). IDLE, ENDED and FAULTED stay. -/
def State.settle (s : State) (c : Nat) : State :=
  let k := s.core c
  let v := s.coreState c
  if v = 0 ∨ v = 5 ∨ v = 6 then s
  else if k.ended then (if k.idle then s.setCoreState c 5 else s)
  else s.setCoreState c k.holdState

/-- Whether a core issues an operation of its program, or of the Xaisk routine it is inside (R72, R94). -/
def State.issues (s : State) (c : Nat) (routine : Bool) : Bool :=
  let k := s.core c
  decide (k.hold = .none) && !k.stopped && decide (s.coreState c = if routine then 4 else 1)

/-! ### Waits -/

/-- The condition of a `flag.wait` (R87). -/
def waitHolds (cond : WaitCond) (f v : BitVec 32) : Bool :=
  match cond with
  | .ge => flagGe f v
  | .eq => f == v

/-- A `flag.wait` tested again after a change of a flag (R87). -/
def State.retest (s : State) (c : Nat) : State :=
  let k := s.core c
  match k.hold with
  | .flagWait f cond v _ _ =>
    if waitHolds cond (k.flag f) (BitVec.ofNat 32 v) then (s.setCore c { k with hold := .none }).settle c else s
  | _ => s

/-! ### The pieces of `mxe.mmg` (R121, R122) -/

/-- The rows of piece p of a gather-fed operand, as offset and length. -/
def Desc.pieceRows (d : Desc) (p : Nat) : List (Nat × Nat) :=
  (List.range d.e1).map (fun r => ((d.base + r * d.stride.1 + p * d.stride.2.1) % 2 ^ 44, d.rowBytes))

/-- Whether `n` bytes from `a` lie in the union of some rows; `fuel` bounds the rows walked. -/
def covered (rows : List (Nat × Nat)) : Nat → Nat → Nat → Bool
  | 0, _, n => decide (n = 0)
  | fuel + 1, a, n =>
    if n = 0 then true
    else match rows.find? (fun r => decide (r.1 ≤ a) && decide (a < r.1 + r.2)) with
      | some (b, l) => covered rows fuel (b + l) (n - (b + l - a))
      | none => false

/-- The piece that holds a whole region, if one does; an empty region lies in none (R122). -/
def Desc.pieceOf (d : Desc) (region : List (Nat × Nat)) : Option Nat :=
  if region.all (fun r => decide (r.2 = 0)) then none
  else (List.range d.e2).find? (fun p =>
    let rows := d.pieceRows p
    region.all (fun r => covered rows (rows.length + 1) (r.1 % 2 ^ 44) r.2))

/-- A piece marked in an entry that watches flag f (R122); a piece that a transfer fills in part or again spoils the result (R123). -/
def QEntry.mark (e : QEntry) (f : Flag) (region : List (Nat × Nat)) : QEntry :=
  match e.op with
  | .mmg _ a _ g _ _ _ _ =>
    if g = f then
      match a.pieceOf region with
      | some p =>
        let whole := (a.pieceRows p).all (fun r => covered (region.map (fun x => (x.1 % 2 ^ 44, x.2))) (region.length + 1) r.1 r.2)
        { e with marks := if e.marks.contains p then e.marks else e.marks ++ [p], spoilt := e.spoilt || e.marks.contains p || !whole }
      | none => e
    else e
  | _ => e

/-- Every `mxe.mmg` that was issued and watches flag f marks the piece a transfer filled (R122). -/
def Core.mark (k : Core) (f : Flag) (region : List (Nat × Nat)) : Core :=
  if region.isEmpty then k
  else
    let k := { k with mxe := k.mxe.map (fun e => QEntry.mark e f region) }
    match k.hold with
    | .stall q e since => { k with hold := .stall q (QEntry.mark e f region) since }
    | _ => k

/-! ### Changes of a flag -/

/-- A flag's value replaced. -/
def Core.setFlag (k : Core) (f : Flag) (v : BitVec 32) : Core := { k with flags := Sparse.set 0 k.flags f.val v }

/-- A flag increased by `n`, its increment marking the pieces of `region` (R83, R85, R122). -/
def State.addFlag (s : State) (c : Nat) (f : Flag) (n : BitVec 32) (region : List (Nat × Nat)) : State :=
  (s.modCore c (fun k => (k.setFlag f (k.flag f + n)).mark f region)).retest c

/-- `flag.set`: the value written, the status byte and the excess nibble cleared (R88). -/
def State.writeFlag (s : State) (c : Nat) (f : Flag) (v : BitVec 32) : State :=
  (s.modCore c (fun k =>
    { k.setFlag f v with fstat := Sparse.set 0 k.fstat f.val 0, fexc := Sparse.set 0 k.fexc f.val 0 })).retest c

/-- A completion's status and excess raise those of its flag (R88). The precedence of R66 is the order of the codes. -/
def Core.raiseStatus (k : Core) (f : Flag) (status excess : Nat) : Core :=
  { k with fstat := Sparse.modify 0 k.fstat f.val (fun b => if b.toNat < status then BitVec.ofNat 8 status else b),
           fexc := Sparse.modify 0 k.fexc f.val (fun b => if b.toNat < excess then BitVec.ofNat 4 excess else b) }

/-- {excess[3:0], status[7:0]} of a flag (R88). -/
def Core.flagStatus (k : Core) (f : Flag) : BitVec 64 :=
  BitVec.ofNat 64 ((Sparse.get 0 k.fexc f.val).toNat * 256 + (Sparse.get 0 k.fstat f.val).toNat)

/-! ### Queues (R73, R74) -/

/-- The place of the entry at the head of a queue: the first not started, and in MXE, VXE and SPE only when every earlier
operation has completed (R74). -/
def Core.headIdx (k : Core) (q : Queue) : Option Nat :=
  let l := k.queue q
  match l.findIdx? (fun e => decide (e.phase = .waiting)) with
  | some i => if q = .txe ∨ i = 0 then some i else none
  | none => none

/-- The instant at which the head reached the head, noted once (R86). -/
def Core.noteHead (k : Core) (q : Queue) (now : Nat) : Core :=
  match k.headIdx q with
  | some i => k.setQueue q ((k.queue q).modify i (fun e => { e with headAt := e.headAt.or (some now) }))
  | none => k

/-- Control-clock cycles of an interval of Fabric Time, the cycle it began in included (R73, log 20). -/
def ctlCycles (dt : Nat) : Nat := dt * 17 / 160 + 1

/-- An operation held on a full queue is placed once an entry has freed (R73). -/
def State.place (s : State) (c : Nat) : State :=
  let k := s.core c
  match k.hold with
  | .stall q e since =>
    if (k.queue q).length < queueDepth q then
      let k := ({ k with hold := .none }.setQueue q (k.queue q ++ [e])).noteHead q s.now
      (s.setCore c k).addObj (Obj.core_ISSUE_STALL c) (ctlCycles (s.now - since))
    else s
  | _ => s

/-- A queue changed, with all that follows from it: the new head, a stalled operation's place, QUEUE_FILL, CORE_STATE. -/
def State.modQueue (s : State) (c : Nat) (q : Queue) (f : List QEntry → List QEntry) : State :=
  let s := s.modCore c (fun k => (k.setQueue q (f (k.queue q))).noteHead q s.now)
  ((s.place c).updFill c).settle c

/-- An entry leaves its queue. -/
def State.dropEntry (s : State) (c : Nat) (q : Queue) (i : Nat) : State := s.modQueue c q (fun l => l.eraseIdx i)

/-- An entry replaced. -/
def State.setEntry (s : State) (c : Nat) (q : Queue) (i : Nat) (e : QEntry) : State :=
  s.modQueue c q (fun l => l.set i e)

/-- Whether an entry's gate is satisfied (R86). -/
def Core.gateOpen (k : Core) (e : QEntry) : Bool :=
  match e.gate with
  | none => true
  | some (f, v) => flagGe (k.flag f) (BitVec.ofNat 32 v)

/-- Completion on a flag: the status raised, then the increment (R83, R88, R120). -/
def State.completeFlag (s : State) (c : Nat) (comp : Option Flag) (status excess : Nat) (region : List (Nat × Nat)) :
    State :=
  match comp with
  | some f => (s.modCore c (fun k => k.raiseStatus f status excess)).addFlag c f 1 region
  | none => s

end Sys2Proof.Machine
end

