-- ==== Sys2Proof/Machine/Packet.lean ====
section
/-! DEFINITION. Renensan packets: their bytes (R191, R193), the checks of a received packet (R191, R193, R194), and the
building of requests and responses (R192, R195, R197). -/

namespace Sys2Proof.Machine

/-! ### Operation and status codes (R192, R194) -/

/-- R192. -/
def opPut : BitVec 3 := 0
/-- R192. -/
def opGet : BitVec 3 := 1
/-- R192. -/
def opAcc : BitVec 3 := 2
/-- R192. -/
def opMsg : BitVec 3 := 3
/-- R192. -/
def opColl : BitVec 3 := 4
/-- R192. -/
def opMgmt : BitVec 3 := 5
/-- R192. -/
def opTime : BitVec 3 := 6

/-- R194. -/
def stOk : Nat := 0
/-- R194. -/
def stAddrRange : Nat := 1
/-- R194. -/
def stAddrAlign : Nat := 2
/-- R194. -/
def stAnchor : Nat := 3
/-- R194. -/
def stFormat : Nat := 4
/-- R194. -/
def stRingFull : Nat := 5
/-- R194. -/
def stNoRing : Nat := 6
/-- R194. -/
def stMemError : Nat := 7
/-- R194. -/
def stMgmtRefused : Nat := 8

/-- Whether a STATUS is valid in the response to an operation (R194). -/
def statusValid (op : BitVec 3) (st : Nat) : Bool :=
  let o := op.toNat
  match st with
  | 0 => decide (o ≤ 5)
  | 1 => decide (o ≤ 4)
  | 2 => decide (o = 2)
  | 3 => decide (o = 2) || decide (o = 4)
  | 4 => decide (o = 1) || decide (o = 2) || decide (o = 4)
  | 5 => decide (o = 3) || decide (o = 4)
  | 6 => decide (o = 3)
  | 7 => decide (o = 0) || decide (o = 1)
  | 8 => decide (o = 5)
  | _ => false

/-- The core fault a STATUS raises at the source (R194). -/
def statusFault (st : Nat) : Nat :=
  match st with
  | 2 => fAddrAlign
  | 3 => fAccAnchor
  | 4 => fFmtCombo
  | 6 => fMsgNoRing
  | 7 => fMemUncorrected
  | _ => fAddrRange

end Sys2Proof.Machine

namespace Sys2Proof

open Sys2Proof.Machine

/-! ### Bytes -/

/-- The 256 bits of a header (R191). -/
def Packet.header (p : Packet) : BitVec 256 :=
  p.ver ++ p.op ++ BitVec.ofBool p.resp ++ p.tc ++ p.hop ++ p.route ++ BitVec.ofBool p.cm ++ BitVec.ofBool p.detour
    ++ BitVec.ofBool p.ext ++ BitVec.ofBool p.ceEcho ++ p.status ++ p.rsvd ++ p.dst ++ p.dstCore ++ p.src ++ p.srcCore
    ++ p.job ++ p.tag ++ p.len ++ p.addr ++ p.arg

/-- The bytes of a packet: header, extension, payload (R191). -/
def Packet.bytes (p : Packet) : Bytes :=
  beBytes 32 p.header.toNat ++ (if p.ext then beBytes 32 p.extn.toNat else []) ++ p.payload

/-- Bytes of a packet (R191). -/
def Packet.size (p : Packet) : Nat := 32 + (if p.ext then 32 else 0) + p.payload.length

/-- Cells, and link units, of a packet: 248 data bytes each (R187, R222). -/
def Packet.cells (p : Packet) : Nat := ceilDiv p.size 248

/-- A field of a header as its number. -/
def hdr (h hi lo : Nat) : Nat := field h hi lo

/-- The packet that a byte string begins with; its LEN says where it ends (R187, R191). -/
def Packet.parse (bs : Bytes) : Packet :=
  let h := beAt bs 0 32
  let bit (i : Nat) : Bool := h.testBit i
  let e := bit 237
  { ver := BitVec.ofNat 4 (hdr h 255 252), op := BitVec.ofNat 3 (hdr h 251 249), resp := bit 248,
    tc := BitVec.ofNat 3 (hdr h 247 245), hop := BitVec.ofNat 3 (hdr h 244 242), route := BitVec.ofNat 2 (hdr h 241 240),
    cm := bit 239, detour := bit 238, ext := e, ceEcho := bit 236, status := BitVec.ofNat 8 (hdr h 235 228),
    rsvd := BitVec.ofNat 4 (hdr h 227 224), dst := BitVec.ofNat 20 (hdr h 223 204), dstCore := BitVec.ofNat 12 (hdr h 203 192),
    src := BitVec.ofNat 20 (hdr h 191 172), srcCore := BitVec.ofNat 12 (hdr h 171 160), job := BitVec.ofNat 16 (hdr h 159 144),
    tag := BitVec.ofNat 16 (hdr h 143 128), len := BitVec.ofNat 16 (hdr h 127 112), addr := BitVec.ofNat 64 (hdr h 111 48),
    arg := BitVec.ofNat 48 (hdr h 47 0), extn := BitVec.ofNat 256 (if e then beAt bs 32 32 else 0),
    payload := slice bs (if e then 64 else 32) (hdr h 127 112) }

/-- Bits [hi:lo] of a packet's extension. -/
def Packet.extField (p : Packet) (hi lo : Nat) : Nat := field p.extn.toNat hi lo

/-- ARG as a number. -/
def Packet.argN (p : Packet) : Nat := p.arg.toNat

/-- A flag packet (R192). -/
def Packet.isFlag (p : Packet) : Bool := decide (p.op = opPut) && decide (p.len = 0) && p.argN.testBit 8

/-- ADDR as a number. -/
def Packet.addrN (p : Packet) : Nat := p.addr.toNat

/-! ### Checks on receipt (R191, R193, R194) -/

/-- ARG within what R193 lists for its operation; the one subtype of a time packet is SYNC (R327). -/
def Packet.argOk (p : Packet) : Bool :=
  let a := p.argN
  match p.op.toNat with
  | 0 => decide (field a 15 9 = 0) && (p.isFlag || decide (field a 47 16 = 0))
  | 1 => decide (field a 47 17 = 0) && decide (field a 15 13 = 0) && decide (1 ≤ field a 12 0) && decide (field a 12 0 ≤ 4096)
  | 2 => decide (field a 47 13 = 0)
  | 3 => decide (field a 47 4 = 0)
  | 4 => decide (a = 0)
  | 5 => decide (a < 3)
  | 6 => decide (a = 1)
  | _ => false

/-- Extension bits that R193 lists are the only ones set, and no field of it holds a reserved encoding: an element format
above 0xC (R19), a scaling mode of 3 (R26), a ROLE of 3 (R193), a PHASE above 0xA (R295). DEDUCED (log 38): R191 names a
header's reserved values; R6 and R291 handle a reserved encoding of an extension the same way. -/
def Packet.extOk (p : Packet) : Bool :=
  let z (hi lo : Nat) : Bool := decide (p.extField hi lo = 0)
  match p.op.toNat with
  | 1 => z 239 224 && z 215 192 && z 135 0 && decide (p.extField 223 220 ≤ 0xC) && decide (p.extField 219 218 ≠ 3)
  | 2 => z 215 192 && z 159 0 && decide (p.extField 223 220 ≤ 0xC) && decide (p.extField 219 218 ≠ 3)
  | 4 => z 185 176 && z 159 144 && z 107 0 && decide (p.extField 191 190 ≠ 3) && decide (p.extField 189 186 ≤ 0xA)
      && decide (p.extField 111 108 ≤ 0xC)
  | _ => true

/-- EXT as R193 requires it of a request. -/
def Packet.extNeeded (p : Packet) : Bool :=
  match p.op.toNat with
  | 1 => p.argN.testBit 16
  | 2 => true
  | 4 => true
  | _ => false

/-- A data operation that names a reserved space (R158, R191). -/
def Packet.spaceReserved (p : Packet) : Bool := decide (p.op.toNat ≤ 2) && decide (6 ≤ addrSpace p.addrN)

/-- Header fields that are reserved in requests and responses alike. -/
def Packet.headerOk (p : Packet) : Bool :=
  decide (p.ver = 1) && decide (p.op ≠ 7) && decide (p.hop.toNat ≤ 4) && decide (p.route ≠ 3) && decide (p.rsvd = 0)
    && decide (p.payload.length = p.len.toNat)

/-- LEN within the largest of the port it came by; R212 sets mgmt and time no limit of the port (R191). -/
def Packet.lenOk (p : Packet) (lim : Nat) : Bool :=
  decide (p.len.toNat ≤ (if p.op = opMgmt ∨ p.op = opTime then 4096 else lim))

/-- A request that is not discarded as a reserved encoding (R191); `lim` is the largest LEN of the port it came by. -/
def Packet.requestOk (p : Packet) (lim : Nat) : Bool :=
  p.headerOk && !p.resp && decide (p.status = 0) && !p.ceEcho && (p.ext == p.extNeeded) && p.argOk
    && (!p.ext || p.extOk) && p.lenOk lim && !p.spaceReserved
    && (decide (p.op ≠ opTime) || decide (p.route = 2))

/-- A response that is not discarded as a reserved encoding (R191, R194). -/
def Packet.responseOk (p : Packet) (lim : Nat) : Bool :=
  p.headerOk && p.resp && !p.ext && statusValid p.op p.status.toNat && decide (p.op ≠ opTime) && p.lenOk lim

/-! ### Building -/

/-- A packet with nothing set. -/
def Packet.zero : Packet :=
  { ver := 1, op := 0, resp := false, tc := 0, hop := 0, route := 0, cm := false, detour := false, ext := false,
    ceEcho := false, status := 0, rsvd := 0, dst := 0, dstCore := 0xFFF, src := 0, srcCore := 0xFFF, job := 0, tag := 0,
    len := 0, addr := 0, arg := 0, extn := 0, payload := [] }

/-- A packet with an extension of 32 bytes. -/
def Packet.withExt (p : Packet) (e : Nat) : Packet := { p with ext := true, extn := BitVec.ofNat 256 e }

end Sys2Proof

namespace Sys2Proof.Machine

/-- The device's logical id as packets carry it. -/
def State.ownDev (s : State) : Nat := s.logicalId % 2 ^ 20

/-- ROUTE of a class, as ROUTE_TC gives it (R202, R217). -/
def State.routeOf (s : State) (tc : Nat) : BitVec 2 := BitVec.ofNat 2 (b2n ((s.obj Obj.topo_ROUTE_TC).testBit tc))

/-- A request from core or unit `srcCore` of parcel n, to the device of its ADDR (R191, R197). -/
def State.request (s : State) (n srcCore : Nat) (op : BitVec 3) (tc addr arg : Nat) (payload : Bytes) : Packet :=
  { Packet.zero with
    op := op, tc := BitVec.ofNat 3 tc, route := s.routeOf tc, dst := BitVec.ofNat 20 (addrDev addr),
    src := BitVec.ofNat 20 s.ownDev, srcCore := BitVec.ofNat 12 srcCore, job := BitVec.ofNat 16 (s.jobId n),
    len := BitVec.ofNat 16 payload.length, addr := BitVec.ofNat 64 addr, arg := BitVec.ofNat 48 arg, payload := payload }

/-- The flag packet of an operation: flag f of core k, with the first destination byte and the span (R192, R195). -/
def State.flagPacket (s : State) (n srcCore tc dev k f : Nat) (region : Nat × Nat) : Packet :=
  let (a, span) := region
  let (a, span) := if 2 ^ 32 ≤ span then (0, 0) else (a, span)
  { s.request n srcCore opPut tc a (span * 2 ^ 16 + 256 + f) [] with
    dst := BitVec.ofNat 20 dev, dstCore := BitVec.ofNat 12 k }

/-- The response to a request, from this device: STATUS, CE_ECHO and payload (R191, R192, R197, R202, R208). -/
def State.response (s : State) (p : Packet) (st : Nat) (payload : Bytes) : Packet :=
  { Packet.zero with
    op := p.op, resp := true, tc := p.tc, route := p.route, ceEcho := p.cm, status := BitVec.ofNat 8 st,
    dst := p.src, dstCore := p.srcCore, src := BitVec.ofNat 20 s.ownDev, srcCore := p.dstCore, job := p.job, tag := p.tag,
    len := BitVec.ofNat 16 payload.length, addr := p.addr, arg := 0, payload := payload }

end Sys2Proof.Machine
end

