-- ==== Sys2Proof/Machine/Access.lean ====
section
/-! DEFINITION. Who may reach an address, and whether it lies in its space (R15, R101, R104, R157, R158, R196, R198). -/

namespace Sys2Proof.Machine

/-- The points of a run of bytes at which the resource can change: its start and every multiple of 1 MiB inside it. -/
def probes (a n : Nat) : List Nat :=
  if n = 0 then []
  else a :: (List.range ((a + n - 1) / 2 ^ 20 - a / 2 ^ 20)).map (fun i => (a / 2 ^ 20 + 1 + i) * 2 ^ 20)

/-- Every byte of a run lies within the extent of one space (R157, R158). -/
def State.ranged (s : State) (a n : Nat) : Bool :=
  decide (n = 0) || (decide (a / 2 ^ 41 = (a + n - 1) / 2 ^ 41) && (probes a n).all s.inExtent && s.inExtent (a + n - 1))

/-- Whether an address names a resource, a shard window beyond its length included (R158, R176). -/
def State.isResource (s : State) (a : Nat) : Bool :=
  s.inExtent a || (isWindow a && decide ((addrOff a - winBase) / 2 ^ 35 < 12))

/-- The first point of a run that is a resource outside parcel n (R15). -/
def State.foreign (s : State) (n a len : Nat) : Option Nat :=
  (probes a len).find? (fun x => s.isResource x && decide (s.ownerOf x ≠ some n))

/-- A run cut at every multiple of 32 KiB, inside which bulk addresses are consecutive (R160). -/
def runs32 (a n : Nat) : List (Nat × Nat) :=
  if n = 0 then []
  else (List.range ((a + n - 1) / 2 ^ 15 - a / 2 ^ 15 + 1)).map (fun i =>
    let lo := max a ((a / 2 ^ 15 + i) * 2 ^ 15)
    (lo, min (a + n) ((a / 2 ^ 15 + i + 1) * 2 ^ 15) - lo))

/-- Whether two runs share a byte. -/
def crosses (a n b m : Nat) : Bool := decide (a < b + m) && decide (b < a + n) && decide (0 < n) && decide (0 < m)

/-- The lowest die of a parcel. -/
def State.firstDie (s : State) (n : Nat) : Nat := (s.dies n).headD 0

/-- Where parcel n's container starts, as address bits [43:0]: the start of its bulk region, or direct offset 0 of its
lowest die's first stack (R101). -/
def State.contStart (s : State) (n : Nat) : Nat :=
  if s.obj (Obj.par_BULK_SIZE n) = 0 then 2 ^ 41 + 2 * s.firstDie n * 2 ^ 37
  else bulkAddr (s.obj (Obj.par_BULK_BASE n) * 2 ^ 30)

/-- Whether a run meets the installed container of parcel n (R101). -/
def State.inContainer (s : State) (n a len : Nat) : Bool :=
  let l := (s.parcel n).contLen
  if s.obj (Obj.par_BULK_SIZE n) = 0 then
    decide (addrSpace a = 1) && (runs32 (a % 2 ^ 44) len).any (fun r => crosses (s.resolve true r.1) r.2 (s.contStart n) l)
  else (decide (addrSpace a = 2) || decide (addrSpace a = 3)) &&
    (runs32 a len).any (fun r => crosses (bulkOf r.1) r.2 (s.obj (Obj.par_BULK_BASE n) * 2 ^ 30) l)

/-- Whether a run meets a code region (R104). -/
def inCode (a len : Nat) : Bool :=
  (probes a len).any (fun x => decide (addrSpace x = 1) && decide (addrOff x < winBase)
    && decide (addrOff x / 2 ^ 37 % 2 = 0) && decide (127 * 2 ^ 30 ≤ addrOff x % 2 ^ 37))

/-- The bulk address of a training parcel's digest record: the last 4 KiB of its region (R349). -/
def State.recordBa (s : State) (n : Nat) : Nat := (s.obj (Obj.par_BULK_BASE n) + s.obj (Obj.par_BULK_SIZE n)) * 2 ^ 30 - 4096

/-- Whether a run meets a training parcel's digest record (R349). -/
def State.inRecord (s : State) (n a len : Nat) : Bool :=
  decide (s.parMode n = 2) && decide (s.obj (Obj.par_BULK_SIZE n) ≠ 0) && crosses (a % 2 ^ 44) len (bulkAddr (s.recordBa n)) 4096

/-- Whether a run of parcel n refuses writes: its container, its code regions and its digest record while it is RUNNING or STOPPING
(R101, R104, R349). -/
def State.writeProtected (s : State) (n a len : Nat) : Bool :=
  s.parActive n && (s.inContainer n a len || inCode a len || s.inRecord n a len)

/-- REFUSED_ACCESS of the parcel that owns an address (R15). -/
def State.countRefused (s : State) (owner : Option Nat) : State :=
  match owner with
  | some n => s.bump (Obj.par_REFUSED_ACCESS n)
  | none => s

/-- The faults of local runs of parcel n: outside it or protected, else outside their space (R15, R95, R158, R458). -/
def State.localFaults (s : State) (n : Nat) (write : Bool) (rs : List (Nat × Nat)) : List Nat :=
  let denied := rs.any (fun r => (s.foreign n r.1 r.2).isSome || (write && s.writeProtected n r.1 r.2))
  if denied then [fAccessDenied] else need (rs.all (fun r => s.ranged r.1 r.2)) fAddrRange

/-- The owner of the first foreign point of some runs: the parcel whose counter an ACCESS_DENIED counts in (R15). -/
def State.deniedOwner (s : State) (n : Nat) (rs : List (Nat × Nat)) : Option Nat :=
  match rs.find? (fun r => (s.foreign n r.1 r.2).isSome) with
  | some r => (s.foreign n r.1 r.2).bind s.ownerOf
  | none => none

/-! ### Admission of a received request (R196 to R198) -/

/-- A load (R198): a put or get that is no flag packet, wholly in the parcel's bulk region or at direct offsets of its
stacks. -/
def State.isLoad (s : State) (n : Nat) (p : Packet) (len : Nat) : Bool :=
  (decide (p.op = opPut) || decide (p.op = opGet)) && !p.isFlag
    && (probes p.addrN (max len 1)).all (fun x =>
      decide (s.ownerOf x = some n)
        && (decide (addrSpace x = 2) || decide (addrSpace x = 3) || (decide (addrSpace x = 1) && decide (addrOff x < winBase))))

/-- Bytes of memory that a request names at its ADDR. -/
def reqLen (p : Packet) : Nat :=
  match p.op.toNat with
  | 0 => p.len.toNat
  | 1 => field p.argN 12 0
  | 2 => 16 * field p.argN 12 0
  | _ => 0

/-- What admission decides (R158, R196): admitted for a parcel, admitted only to be refused with ADDR_RANGE, or not
admitted, with the target parcel. -/
inductive Admission where
  | ok (n : Nat)
  | range
  | no (target : Option Nat)
  deriving DecidableEq, Repr

/-- The parcel whose operation a packet of this device belongs to (R15). -/
def State.sourceParcel (s : State) (p : Packet) : Option Nat :=
  let c := p.srcCore.toNat
  if c < 1152 then s.coreParcel c else if 0xF00 ≤ c ∧ c < 0xF30 then s.steParcel (c - 0xF00) else none

/-- Steps 4 and 5 of R196 for put, get, acc and msg; a request of this device itself was admitted at its source (R15, R95). -/
def State.admission (s : State) (own : Bool) (p : Packet) : Admission :=
  let job := p.job.toNat
  let byCore := decide (p.op = opMsg) || p.isFlag
  let a := p.addrN
  let target := if byCore then (if p.dstCore.toNat < 1152 then s.coreParcel p.dstCore.toNat else none) else s.ownerOf a
  if !byCore && !s.isResource a then
    if (findParcel (fun n => s.parActive n && decide (job ≠ 0) && decide (s.jobId n = job))).isSome || own then .range else .no none
  else
    match target with
    | none => .no none
    | some n =>
      let len := reqLen p
      let mine := byCore || (s.foreign n a len).isNone
      let write := decide (p.op = opPut) || decide (p.op = opAcc)
      if !mine || (!byCore && write && s.writeProtected n a len) then .no (some n)
      else if own then (if s.sourceParcel p = some n then .ok n else .no (some n))
      else if s.parActive n then (if job ≠ 0 ∧ (s.parcel n).reclaim < 2 ∧ s.jobId n = job then .ok n else .no (some n))
      else if (s.parState n = 2 ∨ s.parState n = 5) ∧ s.obj (Obj.par_LOAD_OPEN n) = 1 ∧ job ≠ 0 ∧ s.jobId n = job
          ∧ s.isLoad n p len then .ok n
      else .no (some n)

end Sys2Proof.Machine
end

