-- ==== Sys2Proof/Machine/Fetch.lean ====
section
/-! DEFINITION. Program containers as they are read (R100, R101), where their code lies (R104), and the fetch of a program's
operations through the instruction cache (R103). -/

namespace Sys2Proof.Machine

/-! ### Reading (R100, R101) -/

/-- Address bits [43:0] of byte `o` of parcel n's container (R101). -/
def State.contAddr (s : State) (n o : Nat) : Nat :=
  if s.obj (Obj.par_BULK_SIZE n) = 0 then s.contStart n + o else bulkAddr (s.obj (Obj.par_BULK_BASE n) * 2 ^ 30 + o)

/-- Bytes of a container. -/
def State.contBytes (s : State) (n o len : Nat) : Bytes := (List.range len).map (fun i => s.readByte (s.contAddr n (o + i)))

/-- A little-endian number of a container. -/
def State.contNat (s : State) (n o len : Nat) : Nat := leNat (s.contBytes n o len)

/-- A section (R100). -/
structure Section where
  type : Nat
  step : Nat
  off : Nat
  len : Nat
  rsvd : Nat
  deriving DecidableEq, Repr

/-- TOTAL_LEN (R100). -/
def State.contTotal (s : State) (n : Nat) : Nat := s.contNat n 16 8

/-- The section table (R100). -/
def State.sections (s : State) (n : Nat) : List Section :=
  (List.range (min 64 (s.contNat n 12 4))).map (fun i =>
    let o := 256 + 32 * i
    ⟨s.contNat n o 2, s.contNat n (o + 2) 2, s.contNat n (o + 8) 8, s.contNat n (o + 16) 8, s.contNat n (o + 4) 4 + s.contNat n (o + 24) 8⟩)

/-- The largest container a parcel's memory holds (R16, R101): what its bulk region leaves, or what lies before the code region. -/
def State.contRoom (s : State) (n : Nat) : Nat :=
  if s.obj (Obj.par_BULK_SIZE n) = 0 then 127 * 2 ^ 30 else s.obj (Obj.par_BULK_SIZE n) * 2 ^ 30

/-- The core map of a silicon step (R100). -/
def coreMap (l : List Section) (step : Nat) : Option Section := l.find? (fun x => decide (x.type = 2) && decide (x.step = step))

/-- The image that a core map names for a core, 0xFF for none (R100). -/
def State.mapEntry (s : State) (n : Nat) (m : Section) (c : Nat) : Nat := s.contNat n (m.off + c) 1

/-! ### Code (R103, R104) -/

/-- Address bits [43:0] of the start of the code region of die k: the last 1 GiB of stack S(2k) (R104). -/
def codeRegion (k : Nat) : Nat := 2 ^ 41 + 2 * k * 2 ^ 37 + 127 * 2 ^ 30

/-- The code images that the core map names for cores of die k, in ascending section-table position, each with the offset in the
code region at which it starts: the next multiple of 4 KiB (R104). -/
def State.codePlaces (s : State) (n k : Nat) : List (Nat × Nat) :=
  let l := s.sections n
  match coreMap l 0x00A0 with
  | none => []
  | some m =>
    let maps := (List.range 192).map (fun j => s.mapEntry n m (192 * k + j))
    (((List.range l.length).filter maps.contains).foldl (fun (x : Nat × List (Nat × Nat)) i =>
      (x.1 + ceilDiv (match l[i]? with | some e => e.len | none => 0) 4096 * 4096, x.2 ++ [(i, x.1)])) (0, [])).2

/-- The code image of core c of parcel n and the address of its copy in the code region of the core's die (R104), none while no
container is installed or the core runs nothing. -/
def State.codeOf (s : State) (n c : Nat) : Option (Nat × Nat) :=
  if (s.parcel n).contLen = 0 then none
  else
    match coreMap (s.sections n) 0x00A0 with
    | none => none
    | some m =>
      ((s.codePlaces n (c / 192)).find? (fun e => decide (e.1 = s.mapEntry n m c))).map
        (fun e => (e.1, codeRegion (c / 192) + e.2))

/-- The 256-byte lines that the operation at core c's program position lies in, as addresses over 256. Which lines of its image those
are is the private binary format's: a free value (R2, R103, log 10). -/
def State.codeLines (s : State) (c : Nat) : List Nat :=
  match s.coreParcel c with
  | none => []
  | some n =>
    match s.codeOf n c with
    | none => []
    | some (i, a) => (Config.codeLines (s.obj (Obj.pardig_PROGRAM_DIGEST n)) i (s.core c).pos).map (fun l => a / 256 + l)

/-- The tags of an instruction cache, most recently used first, once a line was used: 64 sets of four lines, the least recently used
of a full set replaced (R103). -/
def useLine (tags : List Nat) (l : Nat) : List Nat :=
  if tags.contains l then l :: tags.erase l
  else
    let set := tags.filter (fun t => decide (t % 64 = l % 64))
    l :: (if set.length < 4 then tags else tags.erase (set.getLastD 0))

/-- One line fetched: a hit, or a fill that is counted; a fill that meets an uncorrectable error gives its location and fills nothing
(R103). -/
def State.fetchLine (s : State) (c l : Nat) : State × Option Nat :=
  if (s.core c).icache.contains l then (s.modCore c (fun k => { k with icache := useLine k.icache l }), none)
  else
    match s.firstBad false (l * 256) 256 with
    | some k => (s, some k)
    | none => ((s.modCore c (fun k => { k with icache := useLine k.icache l })).addObj (Obj.core_ICACHE_MISS c) 1, none)

/-- The fetch of a program's operation: its lines in order, up to the first whose fill meets an uncorrectable error. A routine's
operations come from the routine store and pass no cache (R94, R103). -/
def State.fetch (s : State) (c : Nat) (routine : Bool) : State × Option Nat :=
  if routine then (s, none)
  else (s.codeLines c).foldl (fun (x : State × Option Nat) l =>
    match x.2 with | some _ => x | none => x.1.fetchLine c l) (s, none)

end Sys2Proof.Machine
end

