-- ==== Sys2Proof/Machine/Operands.lean ====
section
/-! DEFINITION. Operands of operations: values, handles and descriptors with their checks at issue (R76 to R78, R83, R86,
R458), and the issue of control and of queued operations (R72, R73). -/

namespace Sys2Proof.Machine

/-- The outcome of a command. -/
abbrev Out := Host.Outcome State Fault Refusal

/-- An event that a device held in reset does not see (R417). -/
def State.whenUp (s : State) (o : Out) : Out := if s.poweredUp then o else .next s

/-- A value operand, a register read at issue. -/
def Core.val (k : Core) : Src → BitVec 64
  | .imm v => v
  | .reg r => k.reg r

/-- The low 32 bits of a value operand. -/
def Core.val32 (k : Core) (x : Src) : Nat := (k.val x).toNat % 2 ^ 32

/-- FLAG_RESERVED of a program that names one of f240 to f255 (R83). -/
def flagCheck (routine : Bool) (f : Flag) : List Nat := need (routine || decide (f.val < 240)) fFlagReserved

/-- The checks of a handle at issue: its generation (R77) and the entries reserved for Xaisk routines (R76). -/
def Core.handleCheck (k : Core) (routine : Bool) (h : Nat) : List Nat :=
  let i := h % 4096
  need (decide ((Sparse.get 0 k.gens i).toNat = h / 4096 % 16)) fHandleStale
  ++ need (routine || decide (i < 3840)) fHandleReserved

/-- The handle of a descriptor operand: the low 16 bits of its value (R77). -/
def Core.handle (k : Core) (h : HRef) : Nat := (k.val h.h).toNat % 2 ^ 16

/-- The copy of a descriptor taken at issue, its offset added to BASE (R78, R458). -/
def Core.copyDesc (k : Core) (h : HRef) : Desc :=
  let d := Desc.parse (Sparse.get 0 k.desc (k.handle h % 4096))
  match h.off with
  | some r => { d with base := (d.base + (k.reg r).toNat) % 2 ^ 64 }
  | none => d

/-- The checks of a descriptor operand at issue. -/
def Core.hrefCheck (k : Core) (routine : Bool) (h : HRef) : List Nat := k.handleCheck routine (k.handle h)

/-- OPS_ISSUED: the count FAULT_OPSEQ records (R110, log 17). -/
def State.opsIssued (s : State) (c : Nat) : Nat := s.obj (Obj.core_OPS_ISSUED c)

/-- One operation issued: it is counted, and a program's position moves past it. -/
def State.issued (s : State) (c : Nat) (routine : Bool) : State :=
  (s.bump (Obj.core_OPS_ISSUED c)).modCore c (fun k => if routine then k else { k with pos := k.pos + 1 })

/-- A control operation (R72): it executes at once when the core issues. It is fetched first, and a fill that meets an uncorrectable
error faults with ICACHE_FAULT (R103, R167); a failed check is a fault of the control core with the lowest code. -/
def State.control (s : State) (c : Nat) (routine : Bool) (faults : List Nat) (eff : State → State) : State :=
  if s.issues c routine then
    match s.fetch c routine with
    | (s, some k) => (s.memUncorrected k).coreFault c 0 fIcacheFault (s.opsIssued c)
    | (s, none) =>
      match lowest faults with
      | some code => s.coreFault c 0 code (s.opsIssued c)
      | none => eff (s.issued c routine)
  else s

/-- A register of a core written. -/
def State.setReg (s : State) (c : Nat) (d : Reg) (v : BitVec 64) : State := s.modCore c (fun k => k.setReg d v)

/-- The gate and completion flag of a queued operation, checked at issue (R83, R86). -/
def issueCheck (i : Issue) : List Nat :=
  (match i.gate with | some (f, _) => flagCheck i.routine f | none => [])
  ++ (match i.comp with | some f => flagCheck i.routine f | none => [])

/-- A new queue entry: gate and operands read at issue (R78, R86). -/
def Core.newEntry (k : Core) (i : Issue) (seq : Nat) (op : QOp) : QEntry :=
  { seq := seq, routine := i.routine, gate := i.gate.map (fun g => (g.1, k.val32 g.2)), comp := i.comp, op := op,
    phase := .waiting, headAt := none, startAt := 0, todo := [], out := [], got := [], marks := [], settings := [], image := [], spoilt := false }

/-- A queued operation issued: placed in its engine's queue, or held on it while it is full (R73). -/
def State.enqueue (s : State) (i : Issue) (q : Queue) (faults : List Nat) (op : Core → QOp) : State :=
  let c := i.core.val
  s.control c i.routine (issueCheck i ++ faults) (fun s =>
    let k := s.core c
    let e := k.newEntry i (s.opsIssued c - 1) (op k)
    if (k.queue q).length < queueDepth q then s.modQueue c q (fun l => l ++ [e])
    else (s.setCore c { k with hold := .stall q e s.now }).settle c)

/-- The step number of an operation: the low 32 bits of the register it names (R94). -/
def Core.step (k : Core) (r : Option Reg) : Option Nat := r.map (fun r => (k.reg r).toNat % 2 ^ 32)

/-- A destination flag operand: the core, by the low 12 bits of its value, and the flag (R458). -/
def Core.dflag (k : Core) (d : Option (Src × Flag)) : Option (Nat × Flag) :=
  d.map (fun x => ((k.val x.1).toNat % 4096, x.2))

/-- The check of a destination flag: f0 to f239 (R458). -/
def dflagCheck (d : Option (Src × Flag)) : List Nat :=
  match d with
  | some (_, f) => flagCheck false f
  | none => []

end Sys2Proof.Machine
end

