-- ==== Sys2Proof/Machine/Environ.lean ====
section
/-! DEFINITION. Refresh, retune and scrubbing (R161 to R169), module sensors and optics (R453 to R455), level runs and retire advice
(R373 to R375, R382, R383), thermal decisions and limits (R436, R437), the overcurrent backstop (R435). -/

namespace Sys2Proof.Machine

/-! ### Memory upkeep (R161, R162, R168, R169) -/

/-- The number of a controller: stacks 0 to 11, channels 12 to 27 (R182). -/
def ctlNum : Controller → Nat
  | .stack k => k.val
  | .channel m => 12 + m.val

/-- Requests that refresh or retune delayed, and by how much (R169): counted at the controller, summed for their parcels. -/
def State.delayed (s : State) (u : Nat) (delays : List (Option ParcelId × Nat)) : State :=
  let s := s.addObj (objKey (ctlIndex u) 0x05) delays.length
  delays.foldl (fun s e => match e.1 with
    | some n => s.addObj (if u < 12 then Obj.parmem_NEAR_REFRESH n.val else Obj.parmem_BULK_REFRESH n.val) e.2
    | none => s) s

/-- R161, R162. A controller refreshes on its own schedule; nothing happens before its function was first initialised. -/
def execMemRefresh (m : Controller) (delays : List (Option ParcelId × Nat)) (s : State) : Out :=
  .next (if s.fnState (ctlFn (ctlNum m)) = 0 then s else s.delayed (ctlNum m) delays)

/-- R162, R164. ZQ calibration and retune of a bulk channel. -/
def execBulkRetune (m : Fin 16) (delays : List (Option ParcelId × Nat)) (s : State) : Out :=
  .next (if s.fnState 5 = 0 then s else s.delayed (12 + m.val) delays)

/-- R168, R459. A scrub pass of one controller: corrected errors are counted, and every unit with an uncorrectable error is met once
and keeps it. -/
def execScrubPass (m : Controller) (errs : List MemErr) (s : State) : Out :=
  let u := ctlNum m
  if s.fnState (ctlFn u) = 0 then .next s
  else
    let s := s.plant (errs.filter (fun e => decide (ctlOf e.addr.toNat = u) && inTier e.addr.toNat))
    let bad := (s.bad.map Prod.fst).filter (fun k => decide (ctlOf k = u) && inTier k)
    .next ((bad.foldl State.memUncorrected s).bump (objKey (ctlIndex u) 0x04))

/-! ### Module sensors and optics (R453 to R455) -/

/-- R455. The temperature sensors of the sixteen modules, which set only their refresh. -/
def execModuleTempRead (temps : Vector Int 16) (s : State) : Out :=
  s.whenUp <| .next { s with env := { s.env with modTemp := temps.toList.zipIdx.foldl (fun m e => Sparse.set 0 m e.2 e.1) s.env.modTemp } }

/-- R453, R454. One cycle of an optics bus: what each of its modules answered; a port without an answer has no module. -/
def execOpticsCycle (b : Fin 8) (readings : List OpticReading) (s : State) : Out :=
  s.whenUp <| .next { s with
    env := { s.env with
      optics := ((List.range 18).map (fun i => 18 * b.val + i)).foldl (fun m p =>
        Sparse.set none m p (readings.find? (fun r => decide (r.port.val = p) && r.present))) s.env.optics } }

/-- ⌊2000 × log10 c⌋ for c ≥ 1, by bisection of its `n` bits from the top. -/
def log2000 (c : Nat) : Nat → Nat → Nat
  | 0, acc => acc
  | n + 1, acc => log2000 c n (if 10 ^ (acc + 2 ^ n) ≤ c ^ 2000 then acc + 2 ^ n else acc)

/-- A power count of 0.1 µW in units of 0.01 dBm, ties toward +∞ (R454). -/
def dbm (c : Nat) : Int := if c = 0 then -4000 else Int.fdiv ((log2000 c 14 0 : Int) - 7999) 2

/-! ### Level runs (R373 to R375, R382, R383) -/

/-- Lanes that a port mode uses (R184). -/
def modeLanes (mode : Nat) : List Nat :=
  if mode = 1 ∨ mode = 4 then [0, 1, 2, 3] else if mode = 2 ∨ mode = 5 then [0, 1] else if mode = 3 then [2, 3]
  else if mode = 6 ∨ mode = 7 then [0] else []

/-- Lanes that a port's role and mode use (R183, R184). -/
def State.laneList (s : State) (p : Nat) : List Nat := if s.obj (Obj.port_ROLE p) = 0 then [] else modeLanes (s.obj (Obj.port_MODE p))

/-- Whether lane k of port p belongs to a link that is up. -/
def State.laneUp (s : State) (p k : Nat) : Bool :=
  let l := s.obj (Obj.port_LINK_STATE p)
  (s.laneList p).contains k && (decide (l = 2) || decide (l = 3))

/-- Marginal and failing limits of a category (R374): whether large values are bad, and the two limits. -/
def levelLimits (i : Nat) : Bool × Int × Int :=
  if i = 0 then (true, 50, 80) else if i = 1 then (false, 40, 15) else if i = 2 then (false, 8, 4)
  else if i = 3 then (false, 150, 80) else if i = 4 then (false, 200, 0) else if i = 5 then (true, 100, 10000)
  else (true, 980, 1050)

/-- The class of a value: 0 OK, 1 marginal, 2 failing (R374). -/
def levelClass (i : Nat) (v : Int) : Nat :=
  match levelLimits i with
  | (true, m, f) => if f ≤ v then 2 else if m ≤ v then 1 else 0
  | (false, m, f) => if v < f then 2 else if v < m then 1 else 0

/-- A trend toward the failing condition (R374). -/
def trendWorse (i : Nat) (t : Int) : Bool := if (levelLimits i).1 then decide (0 < t) else decide (t < 0)

/-- The least of a list, none when it is empty. -/
def minInt (l : List Int) : Option Int := l.foldl (fun b x => match b with | none => some x | some y => some (min x y)) none

/-- The optical margins of the lanes in use whose modules answer (R374, R454). -/
def State.opticMargins (s : State) : List Int :=
  (List.range 144).flatMap (fun p =>
    match Sparse.get none s.env.optics p with
    | some r => if r.rxAdvertised then (s.laneList p).map (fun k => dbm (r.rx.getD k 0) - dbm r.rxLowAlarm) else []
    | none => [])

/-- The values of the seven categories (R374). A smallest value over no lane is a free value, and so is the rounding of a rate (log
34). -/
def State.levelValues (s : State) (m : LevelMeasure) : State × List Int :=
  let eyes := m.eyes.filter (fun e => s.laneUp e.port.val e.lane.val)
  let (f0, s) := s.fresh
  let (f1, s) := s.fresh
  let units := s.now - s.env.levelEnd
  let worst := maxN (s.env.corr.map Prod.snd)
  -- corrected errors per hour: an hour is 3,600 × 16 × 10^9 units
  let rate := if units = 0 then f1 else worst * 57600000000000 / units + (if worst * 57600000000000 % units = 0 then 0 else f1 % 2)
  (s, [m.droop, m.timing, (minInt (eyes.map (fun e => (e.height.toNat : Int)))).getD (f0 % 65536 : Nat),
    (minInt (eyes.map (fun e => (e.width.toNat : Int)))).getD (f0 / 65536 % 65536 : Nat),
    (minInt s.opticMargins).getD (signed 16 (f0 / 2 ^ 32)), (rate : Int), m.temperature])

/-- The lane objects after a run (R383). A lane in use that was not measured reads 0. -/
def State.laneObjects (s : State) (m : LevelMeasure) : State :=
  (List.range 144).foldl (fun s p =>
    let used := s.laneList p
    let opt := Sparse.get none s.env.optics p
    [0, 1, 2, 3].foldl (fun s k =>
      let eye := m.eyes.find? (fun e => decide (e.port.val = p) && decide (e.lane.val = k) && s.laneUp p k)
      let pow (adv : Bool) (l : List Nat) : Nat :=
        if !used.contains k then 0 else if adv then wrap 16 (dbm (l.getD k 0)) else 0x8000
      let s := s.setObj (Obj.port_EYE_H p k) (match eye with | some e => e.height.toNat | none => 0)
      let s := s.setObj (Obj.port_EYE_W p k) (match eye with | some e => e.width.toNat | none => 0)
      let s := s.setObj (Obj.port_OPT_RX p k) (match opt with | some r => pow r.rxAdvertised r.rx | none => pow false [])
      s.setObj (Obj.port_OPT_TX p k) (match opt with | some r => pow r.txAdvertised r.tx | none => pow false [])) s) s

/-- Trends of the latest run (R374): against the run eight earlier, 0 until nine runs. -/
def trendsOf (hist : List (List Int × List Nat)) : List Int :=
  match hist[0]?, hist[8]? with
  | some a, some b => (List.range 7).map (fun i => a.1.getD i 0 - b.1.getD i 0)
  | _, _ => List.replicate 7 0

/-- Categories that contribute to RETIRE: failing, or marginal in each of the last eight runs with a worse trend (R375). -/
def retireCause (hist : List (List Int × List Nat)) : List Nat :=
  let tr := trendsOf hist
  (List.range 7).filter (fun i =>
    decide ((hist.map (fun e => e.2.getD i 0)).headD 0 = 2)
      || (decide (8 ≤ hist.length) && (hist.take 8).all (fun e => decide (1 ≤ e.2.getD i 0)) && trendWorse i (tr.getD i 0)))

/-- RETIRE_ADVICE and RETIRE_CAUSE (R375). -/
def retireAdvice (hist : List (List Int × List Nat)) : Nat × Nat :=
  let mask (l : List Nat) : Nat := l.foldl (fun a i => a + 2 ^ i) 0
  let r := retireCause hist
  let w := (List.range 7).filter (fun i => decide (1 ≤ ((hist.map (fun e => e.2.getD i 0)).headD 0)))
  if r ≠ [] then (2, mask r) else if w ≠ [] then (1, mask w) else (0, 0)

/-- R373. A level run begins at the next slot that is a multiple of LEVEL_INTERVAL × 15,625,000. -/
def execLevelRunStart (s : State) : Out := s.whenUp <|
  let step := s.obj Obj.level_LEVEL_INTERVAL * 15625000 * 1024
  let t := ceilDiv s.now step * step
  let t := if s.env.levelSched = some t then t + step else t
  let s := s.advanceTo t
  .next { s with env := { s.env with levelOn := true, levelSched := some t } }

/-- LEVEL_NOW (R382). -/
def State.levelNow (s : State) : State := { s with env := { s.env with levelOn := true } }

/-- R374, R375, R383. The end of a level run: margins, classes, trends, lane objects and the retire advice; the interval of
corrected errors begins anew (R376). -/
def execLevelRunEnd (meas : LevelMeasure) (s : State) : Out :=
  if !s.env.levelOn then .next s
  else
    let (s, vals) := s.levelValues meas
    let cls := vals.zipIdx.map (fun e => levelClass e.2 e.1)
    let hist := ((vals, cls) :: s.env.hist).take 9
    let (adv, cause) := retireAdvice hist
    let s := { s with corrSeen := [], env := { s.env with levelOn := false, levelEnd := s.now, hist := hist, corr := [] } }
    let s := s.laneObjects meas
    let s := vals.zipIdx.foldl (fun s e => s.setObj (Obj.level_MARGIN e.2) (wrap 32 e.1)) s
    let s := (trendsOf hist).zipIdx.foldl (fun s e => s.setObj (Obj.level_TREND e.2) (wrap 32 e.1)) s
    let s := s.setObj Obj.level_MARGIN_CLASS (cls.zipIdx.foldl (fun a e => a + e.1 * 4 ^ e.2) 0)
    let s := (s.bump Obj.level_LEVEL_RUNS).setObj Obj.level_LEVEL_LAST s.now
    let s := s.setObj Obj.level_RETIRE_CAUSE cause
    .next (if s.obj Obj.level_RETIRE_ADVICE = adv then s else (s.setObj Obj.level_RETIRE_ADVICE adv).bumpChange)

/-! ### Thermal and current limits (R435 to R437) -/

/-- An object read in two's complement. -/
def State.objI16 (s : State) (k : Nat) : Int := signed 16 (s.obj k)

/-- A die's clock level changed, with its count (R436). -/
def State.setLevel (s : State) (k v : Nat) : State :=
  if s.obj (Obj.pow_CLOCK_LEVEL k) = v then s else (s.setObj (Obj.pow_CLOCK_LEVEL k) v).bump (Obj.pow_LEVEL_CHANGES k)

/-- Whether a die's decision point has come: a step boundary of its training parcel, or a multiple of THERM_EPOCH (R436). -/
def State.thermTrains (s : State) (k : Nat) : Bool :=
  match s.dieParcel k with | some n => decide (s.parMode n = 2) | none => false

/-- The level after a decision with the given readings, in 0.1 °C (R436). -/
def State.thermLevel (s : State) (k : Nat) (junction lo hi : Int) : Nat :=
  let v := s.obj (Obj.pow_CLOCK_LEVEL k)
  let hot := s.objI16 Obj.pow_THERM_HOT
  let stack := s.objI16 Obj.pow_STACK_HOT
  let hyst : Int := s.obj Obj.pow_THERM_HYST
  if hot ≤ junction ∨ stack ≤ lo ∨ stack ≤ hi then min 5 (v + 1)
  else if junction ≤ hot - hyst ∧ lo ≤ stack - hyst ∧ hi ≤ stack - hyst then v - 1
  else v

/-- R436. A die's level is decided: at the step boundary that has passed, or at the next slot that is a multiple of THERM_EPOCH. -/
def execThermDecision (k : Fin 6) (junction stackLo stackHi : Int) (s : State) : Out := s.whenUp <|
  if s.thermTrains k.val then
    if s.env.due.testBit k.val then
      .next ({ s with env := { s.env with due := setBit s.env.due k.val false } }.setLevel k.val (s.thermLevel k.val junction stackLo stackHi))
    else .next s
  else
    let epoch := s.obj Obj.pow_THERM_EPOCH * 1024
    let s := s.advanceTo (ceilDiv s.now epoch * epoch)
    .next (s.setLevel k.val (s.thermLevel k.val junction stackLo stackHi))

/-- R437. Temperatures at a critical limit move their die to level 5 and are counted and entered once; readings below the limits end
the condition. -/
def execThermCrit (k : Fin 6) (junction stackLo stackHi : Int) (s : State) : Out := s.whenUp <|
  let setCrit (s : State) (v : Option Nat) : State := { s with env := { s.env with crit := Sparse.set none s.env.crit k.val v } }
  if 1050 ≤ junction ∨ 950 ≤ stackLo ∨ 950 ≤ stackHi then
    if (Sparse.get none s.env.crit k.val).isSome then .next (s.setLevel k.val 5)
    else .next ((((setCrit s (some s.now)).setLevel k.val 5).bump Obj.pow_CRIT_EVENTS).advise 2 none 0x0C03 0xFFFF k.val)
  else .next (setCrit s none)

/-- R437. A junction at the shutdown limit, or a critical condition that has lasted 100 ms at level 5: a device-fatal error; the
VIN12 regulators are switched off. -/
def execThermShutdown (k : Fin 6) (junction : Int) (s : State) : Out := s.whenUp <|
  let off (s : State) : State := { s with power := { s.power with regOn := false } }
  if 1150 ≤ junction then .next (off (s.raise ⟨4, 2, none, 0x0C04, 0xFFFF, k.val⟩))
  else match Sparse.get none s.env.crit k.val with
    | some t =>
      if s.obj (Obj.pow_CLOCK_LEVEL k.val) = 5 then .next (off ((s.advanceTo (t + 1600000000)).raise ⟨4, 2, none, 0x0C04, 0xFFFF, k.val⟩))
      else .next s
    | none => .next s

/-- R435. A current beyond the limits of the backstop halves the clocks, is counted and entered. The manual gives the sensor no
number: a free value (log 34). -/
def execOvercurrent (milliamps : Nat) (s : State) : Out := s.whenUp <|
  if 400000 < milliamps ∧ !s.env.slow then
    let (f, s) := s.fresh
    .next (({ s with env := { s.env with slow := true } }.bump Obj.pow_OVERCURRENT_EVENTS).advise 2 none 0x0C02 0xFFFF (f % 2 ^ 64))
  else .next s

/-- R435. The clocks are restored. -/
def execOvercurrentRestore (s : State) : Out := .next { s with env := { s.env with slow := false } }

/-- R417. VIN12 out of its range for more than 100 µs while POWER is RUNNING: a device-fatal error. -/
def execSupplyOut (s : State) : Out :=
  if s.fnState 2 = 3 then
    let (f, s) := s.fresh
    .next (s.raise ⟨4, 2, none, 0x0C01, 0xFFFF, f % 2 ^ 64⟩)
  else .next s

end Sys2Proof.Machine
end

