-- ==== Sys2Proof/Machine/Dither.lean ====
section
/-! DEFINITION. The dither generator of R42. -/

namespace Sys2Proof.Machine

/-- `mix` of R42. -/
def mix (x : BitVec 32) : BitVec 32 :=
  let a := x ^^^ (x >>> 16)
  let b := a * 0x7A4D2B19#32
  b ^^^ (b >>> 13)

/-- `dither_key` of R42. -/
def ditherKey (seed step stream : Nat) : BitVec 32 :=
  let h := mix (0x1F35C2A7#32 ^^^ BitVec.ofNat 32 seed)
  let h := mix (h ^^^ BitVec.ofNat 32 (seed >>> 32))
  let h := mix (h ^^^ BitVec.ofNat 32 step)
  mix (h ^^^ BitVec.ofNat 32 (stream % 2 ^ 16))

/-- The last word h of R42's `dither`. -/
def ditherWord (key : BitVec 32) (tensor index : Nat) : BitVec 32 :=
  let h := mix (key ^^^ BitVec.ofNat 32 tensor)
  let h := mix (h ^^^ BitVec.ofNat 32 (index >>> 32))
  let h := mix (h ^^^ BitVec.ofNat 32 index)
  mix h

/-- `dither` of R42: 24 bits. -/
def dither (key : BitVec 32) (tensor index : Nat) : Nat :=
  (ditherWord key tensor index).toNat / 256

end Sys2Proof.Machine
end

