-- ==== Sys2Proof/Machine/AccUnit.lean ====
section
/-! DEFINITION. The accumulate units (R170 to R175): contributions, refusals, the combining buffer and converting gets. -/

namespace Sys2Proof.Machine

/-! ### The combining buffer (R174) -/

/-- The line of a location: the protected unit that holds it (R166, R174). -/
def lineOf (k : Nat) : Nat := unitOf k

/-- Lines of a unit's combining buffer (R174): 4 MiB of 32 B, 1 MiB of 64 B. -/
def bufferLines (u : Nat) : Nat := if u < 12 then 131072 else 16384

/-- The lines a unit's buffer holds, most recently used first. -/
def State.bufLines (s : State) (u : Nat) : List Nat := Sparse.get [] s.accBuf u

/-- A controller counter. -/
def ctlObj (u sub : Nat) : Nat := objKey (ctlIndex u) sub

/-- A line used by an addition: a hit is counted, a miss takes the place of the least recently used line (R174, R182). -/
def State.touchLine (s : State) (u k : Nat) : State :=
  let l := s.bufLines u
  let n := lineOf k
  if l.contains n then
    { s with accBuf := Sparse.set [] s.accBuf u (n :: l.erase n) }.bump (ctlObj u 0x0F)
  else if l.length < bufferLines u then { s with accBuf := Sparse.set [] s.accBuf u (n :: l) }
  else { s with accBuf := Sparse.set [] s.accBuf u (n :: l.dropLast) }.bump (ctlObj u 0x0E)

/-- Every unit flushed of a parcel's lines, each written back (R174). -/
def State.flushUnits (s : State) (n : Nat) : State :=
  (List.range 28).foldl (fun s u =>
    let l := s.bufLines u
    let keep := l.filter (fun k => decide (s.ownerOf k ≠ some n))
    { s with accBuf := Sparse.set [] s.accBuf u keep }.addObj (ctlObj u 0x0E) (l.length - keep.length)) s

/-! ### Residues met by a unit -/

/-- A failed residue check of a unit at a location (R63, R64, R182). -/
def State.unitResidueFail (s : State) (u k : Nat) : State :=
  let s := s.bump (ctlObj u 0x0B)
  match s.ownerOf k with
  | some n => s.raiseParcel n 0x0304 (ctlUnit u) (addrOff k) 0
  | none => s

/-- Failed checks, one entry each. -/
def State.unitResidueFails (s : State) (u k : Nat) : Nat → State
  | 0 => s
  | n + 1 => (s.unitResidueFail u k).unitResidueFails u k n

/-! ### Contributions -/

/-- The fields of an acc request (R193). -/
structure AccReq where
  anchor : Int
  srcAnchor : Int
  fmt : Nat
  mode : Nat
  block : Nat
  tscale : Nat
  count : Nat
  deriving DecidableEq, Repr

/-- The fields of an acc request. -/
def accReq (p : Packet) : AccReq :=
  let e := p.extn.toNat
  ⟨signed 16 (field e 255 240), signed 16 (field e 239 224), field e 223 220, field e 219 218, field e 217 216,
   field e 191 160, field p.arg.toNat 12 0⟩

/-- The formats that may be accumulated (R170). -/
def Fmt.accSource : Fmt → Bool
  | .int32 => false | .da64 => false | .raw8 => false | _ => true

/-- Bytes of `n` blocks with their scale bytes first, padded to 16 (R193). -/
def blocksLen (n blockBytes : Nat) : Nat := ceilDiv n 16 * 16 + n * blockBytes

/-- The payload an acc request must have, none where its elements do not fill whole blocks (R172, R193). -/
def AccReq.payloadLen (r : AccReq) (f : Fmt) : Option Nat :=
  if r.mode = 0 then some (r.count * f.width / 8)
  else
    let b := blockElems r.block
    if r.count % b = 0 then some (blocksLen (r.count / b) (f.width * b / 8)) else none

/-- The status of the first refusal of R172 in the order of the fault codes (R108), or OK. -/
def State.accCheck (s : State) (p : Packet) : Nat :=
  let r := accReq p
  let a := p.addrN
  let sp := addrSpace a
  let last := a + 16 * r.count - 1
  match Fmt.ofCode r.fmt with
  | none => stFormat
  | some f =>
    if !f.accSource || !(decide (r.mode ≤ 2) && modeOk f r.mode) || decide (sp = 0) || decide (sp = 4) || isWindow a
        || (decide (r.mode = 2) && !(decide (r.tscale < 2 ^ 31) && decide (field r.tscale 30 23 ≠ 0) && decide (field r.tscale 30 23 ≠ 255)))
        || decide (r.count = 0) || decide (r.payloadLen f ≠ some p.payload.length) then stFormat
    else if f = .da128 ∧ r.srcAnchor ≠ r.anchor then stAnchor
    else if !s.ranged a (16 * r.count) || (decide (sp = 1) && decide (addrOff a / 2 ^ 37 ≠ addrOff last / 2 ^ 37)) then stAddrRange
    else if a % 16 ≠ 0 then stAddrAlign
    else stOk

/-- A contributed element: a term, or a DA128 word as it stands. -/
inductive Contrib where
  | term (v : Num)
  | word (w : Da)
  deriving DecidableEq, Repr

/-- The elements of a contribution (R171, R193). -/
def AccReq.elements (r : AccReq) (f : Fmt) (bs : Bytes) : List Contrib :=
  if f = .da128 then (unpackCodes 128 r.count bs).map (fun c => .word (Da.unpack c))
  else if r.mode = 0 then (unpackCodes f.width r.count bs).map (fun c => .term (decodeElem f false c))
  else
    let b := blockElems r.block
    let n := r.count / b
    let t : Q := if r.mode = 2 then (match decodeFloat .fp32 r.tscale with | .fin _ q => q | _ => Q.one) else Q.one
    let codes := unpackCodes f.width r.count (bs.drop (ceilDiv n 16 * 16))
    codes.mapIdx (fun i c => .term ((scaledElem f (byteAt bs (i / b)) c).scale t))

/-- A protected unit whose read met an uncorrectable error (R173): every element poisoned, the unit written whole, the error
handled. -/
def State.poisonUnit (s : State) (u k : Nat) : State :=
  let a := unitOf k
  let n := unitSize k
  let word := leBytes 16 (Da.pack ⟨0, 0, 0, 2⟩)
  let s := (s.storeBytes a ((List.replicate (n / 16) word).flatten)).1
  (s.addObj (ctlObj u 0x09) (n / 16)).memUncorrected k

/-- One element added at a location (R171, R173, R174); `hit` lists the protected units this contribution poisoned. -/
def State.accElem (s : State) (anchor : Int) (hit : List Nat) (k : Nat) (e : Contrib) : State × List Nat :=
  let u := ctlOf k
  if hit.contains (unitOf k) then (s, hit)
  else if s.isBad k then (s.poisonUnit u k, unitOf k :: hit)
  else
    let (w, s) : Da × State := match e with
      | .term v =>
        let t := mkTerm .da128 anchor v
        (t.word, ((s.addObj (ctlObj u 0x07) (b2n t.sat)).addObj (ctlObj u 0x08) (b2n t.zeroed)).addObj (ctlObj u 0x09) (b2n t.poison))
      | .word w =>
        let (w, bad) := w.check
        (w, s.unitResidueFails u k (b2n bad))
    let (old, bad) := (Da.unpack (s.readNat k 16)).check
    let s := s.unitResidueFails u k (b2n bad)
    let o := da128Add old w
    let s := (s.addObj (ctlObj u 0x0A) (b2n o.saturated)).unitResidueFails u k (b2n o.failed)
    let s := s.writeBytes k (leBytes 16 o.sum.pack)
    (((s.bump (ctlObj u 0x06)).bump Obj.mem_ACC_TERMS_TOTAL).touchLine u k, hit)

/-- An admitted contribution: refused whole, or added element by element (R171 to R173). -/
def State.serveAcc (s : State) (p : Packet) : State × Nat :=
  let st := s.accCheck p
  let a := p.addrN % 2 ^ 44
  if st ≠ stOk then
    -- only an address in a tier has a unit that counts the refusal
    (if inTier a && !isWindow a && s.inExtent a then s.bump (ctlObj (ctlOf a) 0x0C) else s, st)
  else
    let r := accReq p
    let es := r.elements ((Fmt.ofCode r.fmt).getD .fp32) p.payload
    ((es.zipIdx.foldl (fun (x : State × List Nat) e => x.1.accElem r.anchor x.2 (a + 16 * e.2) e.1) (s, [])).1, stOk)

/-! ### Converting gets (R175, R193) -/

/-- The fields of a converting get. -/
structure ConvReq where
  anchor : Int
  fmt : Nat
  mode : Nat
  block : Nat
  terms : Nat
  divisor : Nat
  deriving DecidableEq, Repr

/-- The fields of a converting get (R193). -/
def convReq (p : Packet) : ConvReq :=
  let e := p.extn.toNat
  ⟨signed 16 (field e 255 240), field e 223 220, field e 219 218, field e 217 216, field e 191 160, field e 159 136 + 1⟩

/-- Elements converted together: a block, or one element. -/
def ConvReq.group (r : ConvReq) : Nat := if r.mode = 0 then 1 else blockElems r.block

/-- Whether a converting get is answered FORMAT (R175, R193). -/
def State.convRefused (_s : State) (p : Packet) : Bool :=
  let r := convReq p
  let n := field p.argN 12 0
  match Fmt.ofCode r.fmt with
  | none => true
  | some f =>
    decide (f = .da128) || decide (f = .raw8) || decide (2 ≤ r.mode) || !modeOk f r.mode || decide (n % 16 ≠ 0)
      || decide (n / 16 % r.group ≠ 0) || !inTier p.addrN

/-- A group of exact words converted out: scale bytes, element codes, saturations (R33 to R36, R68, R70). -/
def ConvReq.convert (r : ConvReq) (f : Fmt) (ws : List Da) : Bytes × List Nat × Nat :=
  if f = .da64 then
    let o := ws.map (fun w => da128To64 w.v)
    ([], o.map (fun x => wrap 64 x.1), (o.filter Prod.snd).length)
  else
    let vs := ws.map (convertOut .da128 r.anchor Q.one r.divisor)
    if r.mode = 0 then
      let o := vs.map (encodeElem f false none)
      ([], o.map Coded.code, (o.filter Coded.sat).length)
    else
      let b := writeBlock f false vs []
      ([BitVec.ofNat 8 b.scale], b.codes, b.sats)

/-- A converting get answered by the unit (R175): status and payload. -/
def State.serveConvert (s : State) (p : Packet) : State × Nat × Bytes :=
  if s.convRefused p then (s, stFormat, [])
  else
    let r := convReq p
    let f := (Fmt.ofCode r.fmt).getD .fp32
    let n := field p.argN 12 0
    let a := p.addrN
    if !s.ranged a n then (s, stAddrRange, [])
    else
      match s.firstBad false a n with
      | some k => (s.memUncorrected k, stMemError, [])
      | none =>
        let words := (unpackCodes 128 (n / 16) (s.readBytes a n)).mapIdx (fun i c =>
          let k := s.resolve false (a + 16 * i)
          ((Da.unpack c).check, k))
        let s := words.foldl (fun s e => s.unitResidueFails (ctlOf e.2) e.2 (b2n e.1.2)) s
        let groups := pieces r.group words
        let outs := groups.map (fun g => (r.convert f (g.map (fun e => e.1.1)), (g.map Prod.snd).headD 0))
        let s := outs.foldl (fun s o => s.addObj (ctlObj (ctlOf o.2) 0x0D) o.1.2.2) s
        let scales := outs.flatMap (fun o => o.1.1)
        let codes := outs.flatMap (fun o => o.1.2.1)
        (s, stOk, padMul 16 scales ++ packCodes f.width (codes.length * f.width / 8) codes)

end Sys2Proof.Machine
end

