-- ==== Sys2Proof/Machine/Serve.lean ====
section
/-! DEFINITION. What an admitted request does at this device and how it is answered (R96, R97, R158, R167, R192, R194,
R459). -/

namespace Sys2Proof.Machine

/-- The answer to a request: STATUS and payload (R192). -/
structure Answer where
  status : Nat
  payload : Bytes
  deriving DecidableEq, Repr

/-- Whether a run meets what a stream engine lets no put write: bytes 0x60 to 0xFF of its control block, and its bindings and
program while it is WAITING or RUNNING (R266, R268). -/
def State.steGuarded (s : State) (a n : Nat) : Bool :=
  decide (addrSpace a = 4) && [addrOff a / 2 ^ 20, (addrOff a + n - 1) / 2 ^ 20].any (fun j =>
    let v := s.obj (Obj.ste_STE_STATE j)
    crosses (addrOff a) n (j * 2 ^ 20 + 0x60) 0xA0
      || ((decide (v = 1) || decide (v = 2)) && crosses (addrOff a) n (j * 2 ^ 20 + 0x100) 0x2F00))

/-- A put (R192): refused whole outside its space and where an engine guards its memory, or its bytes written. -/
def State.servePut (s : State) (p : Packet) : State × Answer :=
  if !s.ranged p.addrN p.payload.length || s.steGuarded p.addrN p.payload.length then (s, ⟨stAddrRange, []⟩)
  else
    match s.storeBytes p.addrN p.payload with
    | (s, none) => (s, ⟨stOk, []⟩)
    | (s, some k) => (s.memUncorrected k, ⟨stMemError, []⟩)

/-- A get that does not convert (R192). -/
def State.serveGet (s : State) (p : Packet) : State × Answer :=
  let n := field p.argN 12 0
  if !s.ranged p.addrN n then (s, ⟨stAddrRange, []⟩)
  else
    match s.firstBad false p.addrN n with
    | some k => (s.memUncorrected k, ⟨stMemError, []⟩)
    | none => (s, ⟨stOk, s.readBytes p.addrN n⟩)

/-- The bytes a flag packet's ADDR and span name, none of a span of 0 (R122, R192). -/
def flagRegion (p : Packet) : List (Nat × Nat) :=
  let span := field p.argN 47 16
  if span = 0 then [] else [(p.addrN % 2 ^ 44, span)]

/-- A flag packet: 1 added to flag ARG[7:0] of core DST_CORE (R192). -/
def State.serveFlag (s : State) (p : Packet) : State × Answer :=
  (s.addFlag p.dstCore.toNat (Fin.ofNat 256 (p.argN % 256)) 1 (flagRegion p), ⟨stOk, []⟩)

/-- The receive slot of a message: length, sender's core and device, payload (R97). -/
def ringSlot (len srcCore srcDev : Nat) (payload : Bytes) : Bytes :=
  leBytes 2 len ++ leBytes 2 srcCore ++ leBytes 4 srcDev ++ List.replicate 24 0 ++ padTo 224 payload

/-- A message for ring ARG[3:0] of core DST_CORE, from the sender that its slot names (R97). -/
def State.serveMsg (s : State) (p : Packet) (srcCore srcDev : Nat) : State × Answer :=
  let c := p.dstCore.toNat
  let n := p.payload.length
  let k := s.core c
  if n = 0 ∨ 224 < n then (s, ⟨stAddrRange, []⟩)
  else
    match Sparse.get none k.rings (p.argN % 16) with
    | none => (s, ⟨stNoRing, []⟩)
    | some r =>
      let fp := k.flag r.fp
      if r.slots ≤ (fp - k.flag r.fc).toNat then (s, ⟨stRingFull, []⟩)
      else
        let (s, bad) := s.storeBytes (r.base + fp.toNat % r.slots * r.stride) (ringSlot n srcCore srcDev p.payload)
        let s := match bad with | some k => s.memUncorrected k | none => s
        (s.addFlag c r.fp 1 [], ⟨stOk, []⟩)

/-- An admitted put, get, acc, msg or flag packet carried out (R196 step 7). -/
def State.serve (s : State) (p : Packet) (srcCore srcDev : Nat) : State × Answer :=
  if p.isFlag then s.serveFlag p
  else match p.op.toNat with
    | 0 => s.servePut p
    | 1 =>
      if p.argN.testBit 16 then
        let (s, st, bs) := s.serveConvert p
        (s, ⟨st, bs⟩)
      else s.serveGet p
    | 2 =>
      let (s, st) := s.serveAcc p
      (s, ⟨st, []⟩)
    | _ => s.serveMsg p srcCore srcDev

end Sys2Proof.Machine
end

