-- ==== Sys2Proof/Machine/Sm3.lean ====
section
/-! DEFINITION. SM3 (GB/T 32905, named by R424) and HMAC-SM3 (R401). PRESUMED (log 7): the manual names the standard and
does not restate it. -/

namespace Sys2Proof.Machine

/-- Left rotation of a 32-bit word. -/
def sm3Rotl (x n : Nat) : Nat := ((x <<< (n % 32)) ||| (x >>> (32 - n % 32))) % 2 ^ 32

/-- P0 of the standard. -/
def sm3P0 (x : Nat) : Nat := x ^^^ sm3Rotl x 9 ^^^ sm3Rotl x 17

/-- P1 of the standard. -/
def sm3P1 (x : Nat) : Nat := x ^^^ sm3Rotl x 15 ^^^ sm3Rotl x 23

/-- The message expansion: the words so far, newest first, with `n` words still to form. -/
def sm3Expand : Nat → List Nat → List Nat
  | 0, ws => ws
  | n + 1, ws =>
    let g := fun i => ws.getD i 0
    let w := sm3P1 (g 15 ^^^ g 8 ^^^ sm3Rotl (g 2) 15) ^^^ sm3Rotl (g 12) 7 ^^^ g 5
    sm3Expand n (w :: ws)

/-- The eight chaining words. -/
structure Sm3Chain where
  a : Nat
  b : Nat
  c : Nat
  d : Nat
  e : Nat
  f : Nat
  g : Nat
  h : Nat

/-- Round `j` with the message words W_j and W_(j+4). -/
def sm3Round (j w w4 : Nat) (v : Sm3Chain) : Sm3Chain :=
  let m := 2 ^ 32
  let t := if j < 16 then 0x79CC4519 else 0x7A879D8A
  let ss1 := sm3Rotl ((sm3Rotl v.a 12 + v.e + sm3Rotl t j) % m) 7
  let ss2 := ss1 ^^^ sm3Rotl v.a 12
  let ff := if j < 16 then v.a ^^^ v.b ^^^ v.c else (v.a &&& v.b) ||| (v.a &&& v.c) ||| (v.b &&& v.c)
  let gg := if j < 16 then v.e ^^^ v.f ^^^ v.g else (v.e &&& v.f) ||| ((v.e ^^^ (m - 1)) &&& v.g)
  let tt1 := (ff + v.d + ss2 + (w ^^^ w4)) % m
  let tt2 := (gg + v.h + ss1 + w) % m
  { a := tt1, b := v.a, c := sm3Rotl v.b 9, d := v.c, e := sm3P0 tt2, f := v.e, g := sm3Rotl v.f 19, h := v.g }

/-- All 64 rounds over the 68 expanded words. -/
def sm3Rounds : Nat → List Nat → Nat → Sm3Chain → Sm3Chain
  | 0, _, _, v => v
  | n + 1, ws, j, v => sm3Rounds n (ws.drop 1) (j + 1) (sm3Round j (ws.getD 0 0) (ws.getD 4 0) v)

/-- Compression of one 64-byte block. -/
def sm3Block (v : Sm3Chain) (blk : Bytes) : Sm3Chain :=
  let w16 := (pieces 4 blk).map beNat
  let ws := (sm3Expand 52 w16.reverse).reverse
  let r := sm3Rounds 64 ws 0 v
  { a := v.a ^^^ r.a, b := v.b ^^^ r.b, c := v.c ^^^ r.c, d := v.d ^^^ r.d,
    e := v.e ^^^ r.e, f := v.f ^^^ r.f, g := v.g ^^^ r.g, h := v.h ^^^ r.h }

/-- The padded message. -/
def sm3Pad (m : Bytes) : Bytes :=
  let z := (119 - m.length % 64) % 64
  m ++ [(0x80 : Byte)] ++ List.replicate z 0 ++ beBytes 8 (8 * m.length)

/-- SM3 of a byte string: 32 bytes. -/
def sm3 (m : Bytes) : Bytes :=
  let iv : Sm3Chain := ⟨0x7380166F, 0x4914B2B9, 0x172442D7, 0xDA8A0600, 0xA96F30BC, 0x163138AA, 0xE38DEE4D, 0xB0FB0E4E⟩
  let r := (pieces 64 (sm3Pad m)).foldl sm3Block iv
  [r.a, r.b, r.c, r.d, r.e, r.f, r.g, r.h].flatMap (beBytes 4)

/-- HMAC-SM3 (R401), block length 64. -/
def hmacSm3 (key msg : Bytes) : Bytes :=
  let k := padTo 64 (if key.length > 64 then sm3 key else key)
  sm3 (k.map (· ^^^ 0x5C) ++ sm3 (k.map (· ^^^ 0x36) ++ msg))

end Sys2Proof.Machine
end

