-- ==== Sys2Proof/Machine/Tensor.lean ====
section
/-! DEFINITION. Tensors in memory: reading rows of codes, values and exact words, writing rows with their scales (R27 to R38),
the regions a tensor touches, residue checks with their effect (R62 to R64), and the counting of engine events (R39, R71). -/

namespace Sys2Proof.Machine

/-! ### Reading -/

/-- The element codes of row ρ (R27, R28). -/
def State.rowCodes (s : State) (d : Desc) (r : Nat) : List Nat :=
  let n := if d.blocked then d.nb * d.block else d.e0
  (unpackCodes d.fmt.width n (s.readBytes (d.rowAddr r) d.rowBytes)).take d.e0

/-- The scale codes of row ρ (R29). -/
def State.rowScales (s : State) (d : Desc) (r : Nat) : List Nat :=
  if d.blocked then (s.readBytes (d.scaleAddr r) d.nb).map BitVec.toNat else []

/-- The values of row ρ, block scales applied and the tensor scale left out (R31, R32). -/
def State.rowValues (s : State) (d : Desc) (r : Nat) : List Num :=
  let cs := s.rowCodes d r
  if d.blocked then
    let ks := s.rowScales d r
    cs.mapIdx (fun i c => scaledElem d.fmt (ks.getD (i / d.block) 0) c)
  else cs.map (decodeElem d.fmt false)

/-- The values of every row. -/
def State.values (s : State) (d : Desc) : List (List Num) := (List.range d.rows).map (s.rowValues d)

/-- The codes of every row. -/
def State.codes (s : State) (d : Desc) : List (List Nat) := (List.range d.rows).map (s.rowCodes d)

/-- A stored exact element as a word; a DA64 element carries no residue and no flags (R51). -/
def exactWord (f : Fmt) (code : Nat) : Da := if f = .da64 then Da.mk' (signed 64 code) 0 0 else Da.unpack code

/-- The code of an exact word in its format. -/
def exactCode (f : Fmt) (d : Da) : Nat := if f = .da64 then wrap 64 d.v else d.pack

/-! ### Regions -/

/-- Whether two lists of byte ranges share a byte. -/
def meets (a b : List (Nat × Nat)) : Bool :=
  a.any (fun x => b.any (fun y => decide (x.1 < y.1 + y.2) && decide (y.1 < x.1 + x.2)))

/-! ### Writing -/

/-- What writing one row gives: element bytes, scale bytes, saturations and NaN outcomes (R39). -/
structure RowOut where
  bytes : Bytes
  scales : Bytes
  sats : Nat
  nans : Nat
  deriving DecidableEq, Repr

/-- One row of values encoded, to nearest even or with the dither of a key (R33 to R38, R41, R43). -/
def Desc.encodeRow (d : Desc) (key : Option (BitVec 32)) (r : Nat) (vals : List Num) : RowOut :=
  let dith (i : Nat) : Nat := match key with | some k => dither k d.tensorId (d.logical r i) | none => 0
  if d.blocked then
    let inv := d.tq.inv
    let outs := (pieces d.block vals).mapIdx (fun b vs =>
      writeBlock d.fmt key.isSome (vs.map (Num.scale inv)) ((List.range vs.length).map (fun j => dith (b * d.block + j))))
    ⟨packCodes d.fmt.width d.rowBytes (outs.flatMap (fun o => o.codes ++ List.replicate (d.block - o.codes.length) 0)),
     outs.map (fun o => BitVec.ofNat 8 o.scale), sumN (outs.map BlockOut.sats), sumN (outs.map BlockOut.nans)⟩
  else
    let cs := vals.mapIdx (fun i v => encodeElem d.fmt false (if key.isSome then some (dith i) else none) v)
    ⟨packCodes d.fmt.width d.rowBytes (cs.map Coded.code), [], (cs.filter Coded.sat).length, (cs.filter Coded.nan0).length⟩

/-- Element and scale bytes of row ρ stored. -/
def State.storeRow (s : State) (d : Desc) (r : Nat) (o : RowOut) : State :=
  (s.writeBytes (d.rowAddr r) o.bytes).writeBytes (d.scaleAddr r) o.scales

/-- Rows of values written to a tensor; the saturations and the NaN outcomes are returned. -/
def State.storeValues (s : State) (d : Desc) (key : Option (BitVec 32)) (rows : List (List Num)) : State × Nat × Nat :=
  rows.zipIdx.foldl (fun (a : State × Nat × Nat) e =>
    let o := d.encodeRow key e.2 e.1
    (a.1.storeRow d e.2 o, a.2.1 + o.sats, a.2.2 + o.nans)) (s, 0, 0)

/-- Rows of element codes written as they stand. -/
def State.storeCodes (s : State) (d : Desc) (rows : List (List Nat)) : State :=
  rows.zipIdx.foldl (fun s e => s.writeBytes (d.rowAddr e.2) (packCodes d.fmt.width d.rowBytes e.1)) s

/-- Rows of exact words written. -/
def State.storeWords (s : State) (d : Desc) (rows : List (List Da)) : State :=
  s.storeCodes d (rows.map (·.map (exactCode d.fmt)))

/-- `n` free bytes (log 6). -/
def State.freeBytes (s : State) : Nat → Bytes × State
  | 0 => ([], s)
  | n + 1 =>
    let (v, s) := s.fresh
    let (bs, s) := s.freeBytes n
    (BitVec.ofNat 8 v :: bs, s)

/-- Every byte of some regions set to a free value: results the manual does not guarantee (R82, R99). -/
def State.freeRegions (s : State) (l : List (Nat × Nat)) : State :=
  l.foldl (fun s r =>
    let (bs, s) := s.freeBytes r.2
    s.writeBytes r.1 bs) s

/-! ### Residue checks and counters -/

/-- Failed residue checks of a core's operation: counted, and each entered step-fatal in a training parcel and advisory in a
serving one, as class 3 code 4 (R64, R378). -/
def State.residueFails (s : State) (c : Nat) : Nat → State
  | 0 => s
  | n + 1 =>
    let s := s.countCore c 0x6A 1
    let s := match s.coreParcel c with
      | some p => s.raiseParcel p 0x0304 c 0 0
      | none => s
    s.residueFails c n

/-- The exact words of every row, each DA128 word checked, and the number of failed checks (R63, R64). -/
def State.exactRows (s : State) (d : Desc) : List (List Da) × Nat :=
  let rows := (s.codes d).map (·.map (fun c => (exactWord d.fmt c).check))
  (rows.map (·.map Prod.fst), sumN (rows.map (fun r => (r.filter Prod.snd).length)))

/-- The free values of an operation's sums drawn, where any of them was open (R57, log 37). -/
def State.sumsOpened (s : State) (n : Nat) : State := if n = 0 then s else s.fresh.2

/-- The term and sum events of an engine counted: `e` is 0 for the MXE, 1 for the SPE, 2 for the VXE (R71). -/
def State.countSum (s : State) (c e : Nat) (n : SumCount) : State :=
  ((s.countCores c [(0x60 + e, n.termSat), (0x64 + e, n.termZero), (0x68, n.poison), (0x69, n.sumSat)]).residueFails c n.resFail).sumsOpened n.opened

/-- Saturations and NaN outcomes of a write counted: `e` is 1 for the MXE, 2 VXE, 3 SPE, 4 TXE (R39). -/
def State.countConv (s : State) (c e : Nat) (f : Fmt) (sats nans : Nat) : State :=
  s.countCores c [(0x10 * e + f.code, sats), (0x50 + f.code, nans)]

/-- The seed of a core's parcel (R43). -/
def State.coreSeed (s : State) (c : Nat) : Nat :=
  match s.coreParcel c with
  | some n => (s.parcel n).seed.toNat
  | none => 0

/-- The key of a stochastic conversion out of a long exact sum: stream 0x0002 and the operation's step (R40, R131). -/
def State.sumKey (s : State) (c : Nat) (src dst : Desc) (step : Option Nat) : Option (BitVec 32) :=
  if dst.fmt.isExact || !srActive src.srTerms src.terms then none
  else some (ditherKey (s.coreSeed c) (step.getD 0) 0x0002)

/-- FMT_COMBO of a conversion out that would round stochastically and names no step register (R131, R96). -/
def stepCheck (src dst : Desc) (step : Option Nat) : List Nat :=
  need (dst.fmt.isExact || dst.empty || !srActive src.srTerms src.terms || step.isSome) fFmtCombo

/-- The completion status and the largest excess over exact words (R66). -/
def statusRows (rows : List (List Da)) : Nat × Nat :=
  rows.foldl (fun a r => r.foldl (fun (a : Nat × Nat) w => (max a.1 (statusOf w.flags), max a.2 w.excess)) a) (0, 0)

end Sys2Proof.Machine
end

