-- ==== Sys2Proof/Machine/Mxe.lean ====
section
/-! DEFINITION. The matrix engine: the checks of `mxe.mm`, `mxe.mmg` and `mxe.drain` (R113 to R116, R121), their products,
anchors and results (R55, R61, R118 to R120), and the precision watch (R134 to R136). -/

namespace Sys2Proof.Machine

/-! ### Checks at the start -/

/-- The formats the MXE multiplies (R114). -/
def Fmt.mxeInput : Fmt → Bool
  | .e2m1 => true | .e2m3 => true | .e3m2 => true | .e4m3 => true | .e5m2 => true | .int8 => true
  | .bf16 => true | .fp16 => true | _ => false

/-- SPARSE_FORM other than 0 on an MXE or VXE operand (R81). -/
def Desc.denseCheck (d : Desc) : List Nat := need (decide (d.sparseForm = 0)) fFmtCombo

/-- The checks of a dense engine operand: itself and its addresses (R81, R82). -/
def Desc.engineCheck (d : Desc) (c : Nat) (routine : Bool) : List Nat := d.selfCheck routine ++ d.denseCheck ++ d.localCheck c

/-- The rules on C of a product, its anchor source and TERMS (R53, R54, R115), given whether both inputs stand in the table
of R55 and whether one carries a tensor scale. -/
def productRules (dst : Desc) (clr inTable tensorScaled : Bool) : List Nat :=
  need (decide (dst.terms ≠ 0)) fAccTerms
  ++ need (decide (dst.fmt ≠ .raw8)) fFmtCombo
  ++ need (decide (dst.anchorSrc ≠ 2)) fFmtCombo
  ++ (if dst.fmt.isExact then need (decide (dst.anchorSrc = 0)) fFmtCombo ++ need (!tensorScaled) fFmtCombo
      else need (decide (dst.anchorSrc ≠ 1) || (clr && inTable)) fFmtCombo)

/-- The bound exponent of an operand in the table of R55. -/
def Desc.bound (d : Desc) : Option Int := boundExp d.fmt d.blocked

/-- The checks that `mxe.mm` and `mxe.mmg` share (R81, R82, R114, R115, R131). -/
def productChecks (c : Nat) (routine : Bool) (dst a b : Desc) (clr : Bool) (step : Option Nat) : List Nat :=
  dst.engineCheck c routine ++ a.engineCheck c routine ++ b.engineCheck c routine
  ++ need (a.fmt.mxeInput && b.fmt.mxeInput) fFmtCombo
  ++ productRules dst clr (a.bound.isSome && b.bound.isSome) (decide (a.scaleMode = 2) || decide (b.scaleMode = 2))
  ++ stepCheck dst dst step

/-- The extents of `mxe.mm` (R113). -/
def mmShape (dst a b : Desc) : List Nat :=
  need (decide (2 ≤ a.rank ∧ a.rank ≤ 3) && decide (2 ≤ b.rank ∧ b.rank ≤ 3) && decide (2 ≤ dst.rank ∧ dst.rank ≤ 3)
    && decide (a.e0 = b.e0) && decide (dst.e0 = b.e1) && decide (dst.e1 = a.e1)
    && decide (a.e2 = b.e2) && decide (dst.e2 = a.e2)) fShape

/-- The shape rules of `mxe.mmg` (R121). -/
def mmgShape (dst a b : Desc) (axis : GatherAxis) : List Nat :=
  let np := a.e2
  need (decide (a.rank = 3) && decide (1 ≤ np ∧ np ≤ 64) && decide (b.rank = 2) && decide (dst.rank = 2)
    && decide (dst.e0 = b.e1)
    && (match axis with
        | .k => decide (b.e0 = a.e0 * np) && decide (dst.e1 = a.e1) && decide (a.e0 % 16 = 0)
            && (!a.blocked || decide (a.e0 % a.block = 0)) && (!b.blocked || decide (a.e0 % b.block = 0))
        | .m => decide (b.e0 = a.e0) && decide (dst.e1 = a.e1 * np))) fShape
  ++ need (decide (dst.anchorSrc = 0)) fFmtCombo

/-- The checks of `mxe.drain` (R53, R54, R70, R116, R131): converting between exact formats keeps the anchor. -/
def drainChecks (c : Nat) (routine : Bool) (src dst : Desc) (step : Option Nat) : List Nat :=
  src.engineCheck c routine ++ dst.engineCheck c routine
  ++ need (src.fmt.isExact && decide (dst.fmt ≠ .raw8)) fFmtCombo
  ++ need (decide (src.anchorSrc = 0) && decide (dst.anchorSrc ≠ 2) && (!dst.fmt.isExact || decide (dst.anchorSrc = 0)))
      fFmtCombo
  ++ need (!dst.fmt.isExact || decide (dst.anchor = src.anchor)) fAccAnchor
  ++ need (decide (src.terms ≠ 0)) fAccTerms
  ++ need (decide (src.exts = dst.exts)) fShape
  ++ stepCheck src dst step

/-! ### Products -/

/-- An exact product; a non-finite factor makes the term non-finite (R58, R59). -/
def Num.times (a b : Num) : Num :=
  match a, b with
  | .fin m x, .fin n y => .fin (m != n) (x.mul y)
  | _, _ => .nan

/-- An output element of a product: its exact sum, and its reference without rounding onto the grid, none once a term is
not finite (R136). -/
structure Elem where
  acc : Acc
  ref : Option Q
  anchor : Int
  deriving DecidableEq, Repr

/-- A term added to an output element. -/
def Elem.add (f : Fmt) (e : Elem) (v : Num) : Elem :=
  { e with acc := e.acc.addTerm f e.anchor v,
           ref := match e.ref, v.toQ? with
             | some r, some q => some (r.add q)
             | _, _ => none }

/-- An output element whose last term has arrived. -/
def Elem.settle (f : Fmt) (nonce place : Nat) (e : Elem) : Elem := { e with acc := e.acc.settle f nonce place }

/-- The operands of a product laid flat: the rows of A with all their K values, and the rows of B (R113, R121). -/
structure Factors where
  a : List (List Num)
  b : List (List Num)
  m : Nat
  n : Nat
  bt : Nat
  deriving DecidableEq, Repr

/-- The operands of `mxe.mm`. -/
def State.mmFactors (s : State) (a b : Desc) : Factors := ⟨s.values a, s.values b, a.e1, b.e1, a.e2⟩

/-- The operands of `mxe.mmg`: with axis k, row m meets its pieces in index order; with axis m, a piece holds rows of the
product. The order of consumption changes no sum (R122). -/
def State.mmgFactors (s : State) (a b : Desc) (axis : GatherAxis) : Factors :=
  let va := s.values a
  match axis with
  | .k => ⟨(List.range a.e1).map (fun m => (List.range a.e2).flatMap (fun p => va.getD (m + a.e1 * p) [])), s.values b,
           a.e1, b.e1, 1⟩
  | .m => ⟨va, s.values b, a.e1 * a.e2, b.e1, 1⟩

/-- The products of output element (m, n) of batch t. -/
def Factors.terms (x : Factors) (t m n : Nat) : List Num :=
  List.zipWith Num.times (x.a.getD (m + x.m * t) []) (x.b.getD (n + x.n * t) [])

/-- The pre-scan anchor of an output element (R55). -/
def State.prescan (s : State) (dst a b : Desc) (ra rb : Nat) : Int :=
  let k := a.e0
  let sa := s.rowScales a ra
  let sb := s.rowScales b rb
  let pairs := (List.range k).filterMap (fun i =>
    let ka := if a.blocked then sa.getD (i / a.block) 0 else 127
    let kb := if b.blocked then sb.getD (i / b.block) 0 else 127
    if ka = 0xFF ∨ kb = 0xFF then none else some ((ka : Int) - 127 + ((kb : Int) - 127)))
  match pairs with
  | [] => 0
  | p :: ps => ps.foldl max p + a.bound.getD 0 + b.bound.getD 0 - 1 + headroom dst.terms 23

/-- What an output element starts from (R115, R118): an exact C its stored word unless cleared, any other C nothing. -/
def startElem (dst : Desc) (anchor : Int) (clr : Bool) (w : Da) : Elem :=
  if dst.fmt.isExact && !clr then
    ⟨Acc.start w, if w.flags.testBit 1 then none else some (Q.dyad w.v (gridL dst.fmt anchor)), anchor⟩
  else ⟨Acc.empty, some Q.zero, anchor⟩

/-- The value of a stored element with its tensor scale (R31). -/
def Desc.withT (d : Desc) (v : Num) : Num := if d.scaleMode = 2 then v.scale d.tq else v

/-- The elements of a product, row by row of C: `terms` and `anchor` give the products and the anchor of element (m, n) of
batch t; beside them the failed residue checks of C's stored words (R63, R115). -/
def State.product (s : State) (dst : Desc) (m n bt : Nat) (terms : Nat → Nat → Nat → List Num)
    (anchor : Nat → Nat → Nat → Int) (clr : Bool) : List (List Elem) × Nat :=
  let f := if dst.fmt = .da64 then Fmt.da64 else .da128
  let exact := dst.fmt.isExact
  let (words, fails) := if exact && !clr then s.exactRows dst else ([], 0)
  let prior := if !exact && !clr then s.values dst else []
  let rows := (List.range (m * bt)).map (fun r =>
    let i := r % m
    let t := r / m
    (List.range n).map (fun j =>
      let e := startElem dst (if dst.anchorSrc = 1 then anchor t i j else dst.anchor) clr ((words.getD r []).getD j Da.zero)
      let e := if !exact && !clr then e.add f (dst.withT ((prior.getD r []).getD j .zero)) else e
      ((terms t i j).foldl (Elem.add f) e).settle f s.freshCtr (r * n + j)))
  (rows, fails)

/-- The counts of a product's elements. -/
def countElems (rows : List (List Elem)) : SumCount :=
  rows.foldl (fun a r => r.foldl (fun a e => a.add e.acc.cnt) a) SumCount.zero

/-- The product of the tensor scales of two operands (R32). -/
def scaleFactor (a b : Desc) : Q := a.tq.mul b.tq

/-- The output of a product written: an exact C its sums, any other C converted out (R68, R115), with what the conversion
counts for engine `e` (R39, R71). -/
def State.storeProduct (s : State) (c e : Nat) (dst a b : Desc) (rows : List (List Elem)) (step : Option Nat) : State :=
  if dst.fmt.isExact then s.storeWords dst (rows.map (·.map (fun x => x.acc.word)))
  else
    let key := s.sumKey c dst dst step
    let vals := rows.map (·.map (fun x => convertOut .da128 x.anchor (scaleFactor a b) dst.divisor x.acc.word))
    let (s, sats, nans) := s.storeValues dst key vals
    let s := s.countConv c e dst.fmt sats nans
    if key.isSome then s.countCore c 0x6D dst.count else s

/-- An output that overlaps an input has results that are not guaranteed: its bytes and the status are free values (R82). -/
def State.overlapped (s : State) (out : Desc) (ins : List Desc) (r : Nat × Nat) : State × Nat × Nat :=
  if ins.any (fun d => meets out.allRegions d.allRegions) then
    let (v, s) := s.fresh
    (s.freeRegions out.allRegions, v % 5, v / 5 % 16)
  else (s, r)

/-! ### The precision watch -/

/-- `watch_select` of R134. -/
def watchSelect (seed tensor idx rlog2 : Nat) : Bool :=
  let h := mix (BitVec.ofNat 32 seed ^^^ BitVec.ofNat 32 tensor)
  let h := mix (h ^^^ BitVec.ofNat 32 (idx >>> 32))
  let h := mix (h ^^^ BitVec.ofNat 32 idx)
  decide (h.toNat % 2 ^ rlog2 = 0)

/-- The settings an MXE operation starts with (R138). -/
def State.watchSettings (s : State) : List Nat :=
  if s.obj Obj.watch_WATCH_ENABLE = 0 then []
  else [s.obj Obj.watch_WATCH_RATE_LOG2, s.obj Obj.watch_WATCH_SEED, s.obj Obj.watch_WATCH_THRESH]

/-- The spacing of an element format's grid at a magnitude, at the largest magnitude beyond it (R136). -/
def spacing (f : Fmt) (mx : Bool) (x : Q) : Q :=
  if f = .int32 then Q.one
  else if f = .int8 then (if mx then Q.pow2 (-6) else Q.one)
  else
    let emin : Int := 1 - (f.bias : Int)
    let top : Int := match decodeFloat f f.maxCode with | .fin _ q => q.log2 | _ => 0
    let e := if x.isZero then emin else min (max x.log2 emin) top
    Q.pow2 (e - f.mbits)

/-- The histogram bin of an error r (R136). -/
def watchBin (r : Q) : Nat :=
  if r.isZero then 0
  else if r.le ⟨1, 2⟩ then 1
  else ((List.range 13).find? (fun i => r.le (Q.int (2 ^ i : Nat)))).elim 15 (· + 2)

/-- An element as the watch compares it: the error r, none of a non-finite output (R136). -/
def State.watchError (s : State) (dst : Desc) (row n : Nat) (e : Elem) (ref : Q) : Option Q :=
  if dst.fmt.isExact then
    let q := Q.pow2 (gridL dst.fmt e.anchor)
    some (((Q.dyad e.acc.word.v (gridL dst.fmt e.anchor)).sub ref).abs.div q)
  else
    match (dst.withT ((s.rowValues dst row).getD n .zero)).toQ? with
    | none => none
    | some y =>
      let k := (s.rowScales dst row).getD (n / dst.block) 127
      let scale := if dst.blocked then (Q.pow2 ((k : Int) - 127)).mul dst.tq else Q.one
      let q := (spacing dst.fmt dst.blocked (ref.abs.div scale)).mul scale
      some ((y.sub ref).abs.div q)

/-- One element of a watch tile binned, with the first-over record (R136, R138). An infinite r is recorded as the FP32
infinity. -/
def State.watchElem (s : State) (c thresh : Nat) (dst : Desc) (row n : Nat) (err : Option Q) : State :=
  let s := s.countCore c (0x70 + (match err with | some r => watchBin r | none => 15)) 1
  let limit := match decodeFloat .fp32 thresh with | .fin _ q => q | _ => Q.one
  if (match err with | some r => limit.lt r | none => true) then
    let s := s.countCore c 0x82 1
    if s.obj Obj.watch_FIRST_OVER_CORE = 0xFFFF then
      let s := s.setObj Obj.watch_FIRST_OVER_CORE c
      let s := s.setObj Obj.watch_FIRST_OVER_TENSOR dst.tensorId
      let s := s.setObj Obj.watch_FIRST_OVER_INDEX (dst.logical row n)
      let s := s.setObj Obj.watch_FIRST_OVER_R
        (match err with | some r => (encodeElem .fp32 false none (.fin false r)).code | none => 0x7F800000)
      s.setObj Obj.watch_FIRST_OVER_TIME s.now
    else s
  else s

/-- The watch tiles of an output: row and column of the first element (R134). -/
def watchTiles (x : Factors) : List (Nat × Nat) :=
  (List.range x.bt).flatMap (fun t => (List.range (ceilDiv x.m 8)).flatMap (fun i =>
    (List.range (ceilDiv x.n 8)).map (fun j => (x.m * t + 8 * i, 8 * j))))

/-- The watch over one operation (R134 to R136). `busy` lists the selected tiles, in order, that the watch found itself
computing an earlier tile at (log 9). -/
def State.watchOp (s : State) (c : Nat) (set : List Nat) (dst a b : Desc) (x : Factors) (k : Nat)
    (rows : List (List Elem)) (status : Nat) (busy : List Nat) : State :=
  match set with
  | [rate, seed, thresh] =>
    let tiles := (watchTiles x).filter (fun t => watchSelect seed dst.tensorId (dst.logical t.1 t.2) rate)
    tiles.zipIdx.foldl (fun s t =>
      if 65536 < k * (a.fmt.width + b.fmt.width) ∨ busy.contains t.2 then s.countCore c 0x81 1
      else
        let s := s.countCore c 0x80 1
        if status = 3 then s
        else
          let (r0, n0) := t.1
          let last := (r0 / x.m + 1) * x.m
          (List.range (min 8 (last - r0))).foldl (fun s i =>
            (List.range (min 8 (x.n - n0))).foldl (fun s j =>
              match ((rows.getD (r0 + i) [])[n0 + j]?) with
              | some e =>
                match e.ref with
                | some r =>
                  let ref := (r.mul (scaleFactor a b)).div (Q.int (if dst.fmt.isExact then 1 else dst.divisor))
                  s.watchElem c thresh dst (r0 + i) (n0 + j) (s.watchError dst (r0 + i) (n0 + j) e ref)
                | none => s
              | none => s) s) s) s
  | _ => s

/-! ### Completion -/

/-- A product computed, written, counted and watched: the state, its status and its excess (R66, R115, R120). -/
def State.runProduct (s : State) (c : Nat) (dst a b : Desc) (x : Factors) (k : Nat) (clr : Bool) (step : Option Nat)
    (set : List Nat) (rep : EngineReport) : State × Nat × Nat :=
  if dst.empty && a.empty && b.empty then (s, 0, 0)
  else
    let anchor (t m n : Nat) := s.prescan dst a b (m + x.m * t) (n + x.n * t)
    let (rows, fails) := s.product dst x.m x.n x.bt x.terms anchor clr
    let s := (s.residueFails c fails).countSum c 0 (countElems rows)
    let (st, ex) := statusRows (rows.map (·.map (fun e => e.acc.word)))
    let s := s.storeProduct c 1 dst a b rows step
    let (s, st, ex) := s.overlapped dst [a, b] (st, ex)
    (s.watchOp c set dst a b x k rows st rep.watchBusy, st, ex)

/-- `mxe.mm` (R113 to R120). -/
def State.runMm (s : State) (c : Nat) (dst a b : Desc) (clr : Bool) (step : Option Nat)
    (set : List Nat) (rep : EngineReport) : State × Nat × Nat :=
  s.runProduct c dst a b (s.mmFactors a b) a.e0 clr step set rep

/-- `mxe.mmg` (R121, R122), whose pieces never marked are counted. -/
def State.runMmg (s : State) (c : Nat) (dst a b : Desc) (axis : GatherAxis) (clr : Bool) (step : Option Nat)
    (marks : List Nat) (set : List Nat) (rep : EngineReport) : State × Nat × Nat :=
  (s.countCore c 0x86 (a.e2 - marks.length)).runProduct c dst a b (s.mmgFactors a b axis) b.e0 clr step set rep

/-- Exact words narrowed to DA64 (R70): the words with the flags they carry into the status, and the saturations. -/
def narrowRows (rows : List (List Da)) : List (List Da) × Nat :=
  let out := rows.map (·.map (fun w =>
    let (v, sat) := da128To64 w.v
    ((if sat then ⟨v, valueResidue v, 15, w.flags ||| 1⟩ else { w with v := v } : Da), sat)))
  (out.map (·.map Prod.fst), sumN (out.map (fun r => (r.filter Prod.snd).length)))

/-- Exact words of one exact format as words of another, by R70: the words, and the narrowings that saturated. -/
def exactToExact (src dst : Fmt) (rows : List (List Da)) : List (List Da) × Nat :=
  if src = dst then (rows, 0)
  else if dst = .da128 then
    (rows.map (·.map (fun w => { da64To128 w.v with excess := w.excess, flags := w.flags })), 0)
  else narrowRows rows

/-- Exact words converted into a tensor: by R70 into an exact one, by R68 into any other (R96, R116, R128), counted for
engine `e`. -/
def State.convertExact (s : State) (c e : Nat) (src dst : Desc) (rows : List (List Da)) (key : Option (BitVec 32)) :
    State × Nat × Nat :=
  if dst.fmt.isExact then
    let (out, sats) := exactToExact src.fmt dst.fmt rows
    ((s.storeWords dst out).countCore c 0x69 sats, statusRows out)
  else
    let vals := rows.map (·.map (convertOut src.fmt src.anchor Q.one src.divisor))
    let (s, sats, nans) := s.storeValues dst key vals
    let s := s.countConv c e dst.fmt sats nans
    (if key.isSome then s.countCore c 0x6D dst.count else s, statusRows rows)

/-- `mxe.drain` (R116). -/
def State.runDrain (s : State) (c : Nat) (src dst : Desc) (step : Option Nat) : State × Nat × Nat :=
  if src.empty then (s, 0, 0)
  else
    let (rows, fails) := s.exactRows src
    let key := s.sumKey c src dst step
    let (s, r) := (s.residueFails c fails).convertExact c 1 src dst rows key
    s.overlapped dst [src] r

end Sys2Proof.Machine
end

