-- ==== Sys2Proof/Machine/Transc.lean ====
section
/-! DEFINITION. The functions of R127 whose values are not rational, evaluated closely enough that every rounding of R125
comes out as for the exact value. A value is replaced by a rational number in the same cell of the grid of 41 significant
bits. No rounding the device makes, and no scale choice, has a boundary inside a cell: its boundaries have at most 34
significant bits (a 24-bit tensor scale times an element with its half step). -/

namespace Sys2Proof.Machine

/-- A fixed-point approximation: the number x × 2^(k − p), off by at most 2^40 units of 2^(k − p). -/
structure Fx where
  x : Int
  p : Nat
  k : Int
  deriving DecidableEq, Repr

/-- Product of two fixed-point integers with `p` fraction bits. -/
def fxMul (p : Nat) (a b : Int) : Int := Int.fdiv (a * b) (2 ^ p : Nat)

/-- Quotient of two fixed-point integers with `p` fraction bits. -/
def fxDiv (p : Nat) (a b : Int) : Int := if b = 0 then 0 else Int.fdiv (a * (2 ^ p : Nat)) b

/-- A rational as a fixed-point integer. -/
def Q.fix (p : Nat) (q : Q) : Int := Int.fdiv (q.num * (2 ^ p : Nat)) q.den

/-- One. -/
def fxOne (p : Nat) : Int := (2 ^ p : Nat)

/-- Σ of terms, each the one before times `r` divided by a number that `d` gives; `fuel` terms from the first. -/
def fxSeries (p : Nat) (r : Int) (d : Nat → Int) : Nat → Nat → Int → Int → Int
  | 0, _, _, s => s
  | fuel + 1, i, t, s =>
    let t := Int.fdiv (fxMul p t r) (d i)
    fxSeries p r d fuel (i + 1) t (s + t)

/-- Σ z^(2i+1) / (2i+1), with alternating signs when `alt` holds. -/
def fxOdd (p : Nat) (z2 : Int) (alt : Bool) : Nat → Nat → Int → Int → Int
  | 0, _, _, s => s
  | fuel + 1, i, t, s =>
    let c := Int.fdiv t (2 * i + 1)
    fxOdd p z2 alt fuel (i + 1) (fxMul p t z2) (if alt && i % 2 = 1 then s - c else s + c)

/-- atanh z, |z| ≤ 1/2. -/
def fxAtanh (p : Nat) (z : Int) : Int := fxOdd p (fxMul p z z) false p 0 z 0

/-- atan (1/n), n ≥ 2. -/
def fxAtanInv (p n : Nat) : Int :=
  let z := Int.fdiv (fxOne p) n
  fxOdd p (fxMul p z z) true p 0 z 0

/-- ln 2. -/
def fxLn2 (p : Nat) : Int := 2 * fxAtanh p (Int.fdiv (fxOne p) 3)

/-- π. -/
def fxPi (p : Nat) : Int := 16 * fxAtanInv p 5 - 4 * fxAtanInv p 239

/-- e^r, 0 ≤ r < 1. -/
def fxExpFrac (p : Nat) (r : Int) : Int := fxSeries p r (fun i => i) p 1 (fxOne p) (fxOne p)

/-- e^x of a fixed-point number. -/
def fxExp (p : Nat) (xf : Int) : Fx :=
  let l := fxLn2 p
  let k := Int.fdiv xf l
  ⟨fxExpFrac p (xf - k * l), p, k⟩

/-- A fixed-point number brought to exponent 0, with `p` fraction bits. -/
def Fx.at0 (a : Fx) : Int := if 0 ≤ a.k then a.x * (2 ^ a.k.toNat : Nat) else Int.fdiv a.x (2 ^ (-a.k).toNat : Nat)

/-- ln of a positive rational. -/
def fxLn (p : Nat) (x : Q) : Int :=
  let e := x.log2
  let m := x.mul (Q.pow2 (-e))
  let (m, e) := if Q.lt ⟨3, 2⟩ m then (m.mul ⟨1, 2⟩, e + 1) else (m, e)
  2 * fxAtanh p (((m.sub Q.one).div (m.add Q.one)).fix p) + e * fxLn2 p

/-- The floor of the square root, by bits from the highest; `fuel` bits. -/
def sqrtBits (n : Nat) : Nat → Nat → Nat
  | 0, r => r
  | fuel + 1, r =>
    let t := r + 2 ^ fuel
    sqrtBits n fuel (if t * t ≤ n then t else r)

/-- ⌊√n⌋. -/
def isqrt (n : Nat) : Nat := sqrtBits n (Nat.log2 n / 2 + 1) 0

/-- √ of a nonnegative fixed-point number. -/
def fxSqrt (p : Nat) (x : Int) : Int := isqrt (x.toNat * 2 ^ p)

/-- Σ y^n / (2n+1)!!, for a rational y ≥ 0. -/
def fxDouble (p : Nat) (y : Q) : Int :=
  fxSeries p (y.fix p) (fun i => 2 * i + 1) (p + 2 * (y.floor.toNat + 1)) 1 (fxOne p) (fxOne p)

/-- z × e^(−y/2) × Σ y^n/(2n+1)!! of a fixed-point factor z: the series of erf and Φ. -/
def fxGauss (p : Nat) (z : Int) (y : Q) : Int :=
  let e := fxExp p ((y.mul ⟨-1, 2⟩).fix p)
  let s := fxDouble p y
  fxMul p z (Int.fdiv (s * e.x) (2 ^ (p + (-e.k).toNat) : Nat))

/-- erf x = (2x/√π) e^(−x²) Σ (2x²)^n/(2n+1)!!. -/
def fxErf (p : Nat) (x : Q) : Int :=
  fxGauss p (2 * fxDiv p (x.fix p) (fxSqrt p (fxPi p))) ((x.mul x).mul (Q.int 2))

/-- Φ(x) = 1/2 + (x/√(2π)) e^(−x²/2) Σ x^(2n)/(2n+1)!!. -/
def fxPhi (p : Nat) (x : Q) : Int :=
  Int.fdiv (fxOne p) 2 + fxGauss p (fxDiv p (x.fix p) (fxSqrt p (2 * fxPi p))) (x.mul x)

/-- Sine (or cosine) series of 0 ≤ r < 2: terms from t with divisors (i+1)(i+2). -/
def fxTrig (p : Nat) (r2 : Int) : Nat → Nat → Int → Int → Int
  | 0, _, _, s => s
  | fuel + 1, i, t, s =>
    let t := -Int.fdiv (fxMul p t r2) ((i + 1) * (i + 2))
    fxTrig p r2 fuel (i + 2) t (s + t)

/-- sin x, or cos x when `c` holds, of a rational. -/
def fxSinCos (p : Nat) (c : Bool) (x : Q) : Int :=
  let pp := p + (max 0 x.abs.log2).toNat + 32
  let half := Int.fdiv (fxPi pp) 2
  let xf := x.fix pp
  let q := Int.fdiv xf half
  let r := Int.fdiv (xf - q * half) (2 ^ (pp - p) : Nat)
  let r2 := fxMul p r r
  let sin := fxTrig p r2 p 1 r r
  let cos := fxTrig p r2 p 0 (fxOne p) (fxOne p)
  match ((q + (if c then 1 else 0)) % 4).toNat with
  | 0 => sin
  | 1 => cos
  | 2 => -sin
  | _ => -cos

/-- The middle of the cell of 41 significant bits that holds the number approximated; none when the approximation does not
tell the cell. -/
def Fx.cell (a : Fx) : Option Num :=
  let m := a.x.natAbs
  let err := 2 ^ 40
  if m ≤ 2 ^ 90 then none
  else
    let lo := m - err
    let sh := Nat.log2 lo - 40
    if lo >>> sh = (m + err) >>> sh then
      some (.fin (decide (a.x < 0)) (Q.dyad (2 * (lo >>> sh) + 1 : Nat) ((sh : Int) - 1 + a.k - a.p)))
    else none

/-- The cell of a number by approximations of rising precision. -/
def cellOf (f : Nat → Fx) : List Nat → Num
  | [] => .nan
  | p :: ps =>
    match (f p).cell with
    | some v => v
    | none => cellOf f ps

/-- The precisions tried. -/
def precisions : List Nat := [192, 448, 960, 1984, 4032]

/-- The value of a function at exponent 0. -/
def cell0 (f : Nat → Int) : Num := cellOf (fun p => ⟨f p, p, 0⟩) precisions

/-- A magnitude below every destination's half smallest step. -/
def tiny : Q := Q.pow2 (-2000)
/-- A magnitude beyond every destination's range. -/
def huge : Q := Q.pow2 2000
/-- A positive rational moved just below itself, within its cell's neighbour. -/
def justBelow (x : Q) : Q := x.mul (Q.one.sub (Q.pow2 (-200)))

/-- A rational compared with an integer. -/
def Q.gtInt (x : Q) (n : Int) : Bool := (Q.int n).lt x

/-- e^x of a nonzero rational. -/
def numExp (x : Q) : Num :=
  if x.gtInt 300 then .fin false huge else if x.lt (Q.int (-300)) then .fin false tiny
  else cellOf (fun p => fxExp p (x.fix p)) precisions

/-- 2^x of a rational. -/
def numExp2 (x : Q) : Num :=
  if x.gtInt 432 then .fin false huge else if x.lt (Q.int (-432)) then .fin false tiny
  else
    let k := x.floor
    let r := x.sub (Q.int k)
    if r.isZero then .fin false (Q.pow2 k)
    else cellOf (fun p => ⟨fxExpFrac p (fxMul p (r.fix p) (fxLn2 p)), p, k⟩) precisions

/-- ln x of a positive rational. -/
def numLn (x : Q) : Num := if x.eq Q.one then .zero else cell0 (fun p => fxLn p x)

/-- log2 x of a positive rational. -/
def numLog2 (x : Q) : Num :=
  let e := x.log2
  if x.eq (Q.pow2 e) then .ofQ false (Q.int e) else cell0 (fun p => fxDiv p (fxLn p x) (fxLn2 p))

/-- tanh of a nonzero rational. -/
def numTanh (x : Q) : Num :=
  let n := decide (x.num < 0)
  let a := x.abs
  let v := if a.gtInt 300 then .fin false (justBelow Q.one)
    else cell0 (fun p =>
      let y := (fxExp p ((a.mul (Q.int (-2))).fix p)).at0
      fxDiv p (fxOne p - y) (fxOne p + y))
  if n then v.neg else v

/-- 1 / (1 + e^−x) with `p` fraction bits. -/
def fxSigmoid (p : Nat) (x : Q) : Int :=
  let y := (fxExp p ((x.abs.neg).fix p)).at0
  if 0 ≤ x.num then fxDiv p (fxOne p) (fxOne p + y) else fxDiv p y (fxOne p + y)

/-- 1 / (1 + e^−x) of a rational. -/
def numSigmoid (x : Q) : Num :=
  if x.isZero then .fin false ⟨1, 2⟩
  else if x.gtInt 300 then .fin false (justBelow Q.one)
  else if x.lt (Q.int (-300)) then .fin false tiny
  else cell0 (fun p => fxSigmoid p x)

/-- x / (1 + e^−x) of a nonzero rational. -/
def numSilu (x : Q) : Num :=
  if x.gtInt 300 then .fin false (justBelow x)
  else if x.lt (Q.int (-300)) then .fin true tiny
  else cell0 (fun p => fxMul p (x.fix p) (fxSigmoid p x))

/-- x × Φ(x) of a nonzero rational. -/
def numGelu (x : Q) : Num :=
  if x.gtInt 30 then .fin false (justBelow x)
  else if x.lt (Q.int (-30)) then .fin true tiny
  else cell0 (fun p => fxMul p (x.fix p) (fxPhi p x))

/-- erf of a nonzero rational. -/
def numErf (x : Q) : Num :=
  let a := x.abs
  let v := if a.gtInt 30 then .fin false (justBelow Q.one) else cell0 (fun p => fxErf p a)
  if x.num < 0 then v.neg else v

/-- sin of a nonzero rational. -/
def numSin (x : Q) : Num := cell0 (fun p => fxSinCos p false x)

/-- cos of a nonzero rational. -/
def numCos (x : Q) : Num := cell0 (fun p => fxSinCos p true x)

/-- √ of a positive rational: exact where it is rational, the middle of its cell otherwise. -/
def numSqrt (x : Q) : Num :=
  let e := Int.fdiv x.log2 2
  let y := x.mul (Q.pow2 (-2 * e))
  let n := isqrt (Int.fdiv (y.num * (2 ^ 160 : Nat)) y.den).toNat
  let r := Q.dyad n (-80)
  if (r.mul r).eq y then .fin false (r.mul (Q.pow2 e))
  else
    let a := isqrt y.num.toNat
    let b := isqrt y.den
    if a * a = y.num.toNat ∧ b * b = y.den then .fin false ((Q.of a b).mul (Q.pow2 e))
    else .fin false ((Q.dyad (2 * (n >>> 40) + 1 : Nat) (-41)).mul (Q.pow2 e))

end Sys2Proof.Machine
end

