-- ==== Sys2Proof/Machine/Vxe.lean ====
section
/-! DEFINITION. The vector engine: the functions of R127 with the results of R125 and R126, the checks of R124 and R128, and
the operations (R128, R129, R131). -/

namespace Sys2Proof.Machine

/-! ### Functions of values -/

/-- A sum, its zero negative only when every addend is a zero of negative sign (R125, R126). -/
def Num.plus (a b : Num) : Num :=
  match a, b with
  | .nan, _ => .nan
  | _, .nan => .nan
  | .fin m x, .fin n y =>
    .ofQ (m && n && x.isZero && y.isZero) ((if m then x.neg else x).add (if n then y.neg else y))
  | .fin _ _, y => y
  | x, .fin _ _ => x
  | x, y => if x.isNeg = y.isNeg then x else .nan

/-- A product (R125, R126). -/
def Num.prod (a b : Num) : Num :=
  match a, b with
  | .nan, _ => .nan
  | _, .nan => .nan
  | .fin m x, .fin n y => .fin (m != n) (x.mul y)
  | x, y => if x.isZero || y.isZero then .nan else .inf (x.isNeg != y.isNeg)

/-- A quotient (R125, R126). -/
def Num.quot (a b : Num) : Num :=
  match a, b with
  | .nan, _ => .nan
  | _, .nan => .nan
  | .fin m x, .fin n y =>
    if y.isZero then (if x.isZero then .nan else .ovf (m != n)) else .fin (m != n) (x.div y)
  | .fin m _, y => .fin (m != y.isNeg) Q.zero
  | x, .fin n _ => .inf (x.isNeg != n)
  | _, _ => .nan

/-- The order of MAX and MIN, −0 below +0; neither argument is a NaN (R126). -/
def Num.below (a b : Num) : Bool :=
  match a, b with
  | .fin m x, .fin n y =>
    let p := if m then x.neg else x
    let q := if n then y.neg else y
    p.lt q || (p.eq q && m && !n)
  | .fin _ _, y => !y.isNeg
  | x, .fin _ _ => x.isNeg
  | x, y => x.isNeg && !y.isNeg

/-- The larger, a NaN when either is one. -/
def Num.larger (a b : Num) : Num := if a.isNan || b.isNan then .nan else if a.below b then b else a
/-- The smaller, a NaN when either is one. -/
def Num.smaller (a b : Num) : Num := if a.isNan || b.isNan then .nan else if b.below a then b else a

/-- The magnitude. -/
def Num.magn : Num → Num
  | .nan => .nan
  | .inf _ => .inf false
  | .ovf _ => .ovf false
  | .fin _ m => .fin false m

/-- √x, −0 of −0, a NaN of any other negative value (R126). -/
def Num.root : Num → Num
  | .nan => .nan
  | .fin n m => if m.isZero then .fin n Q.zero else if n then .nan else numSqrt m
  | x => if x.isNeg then .nan else x

/-- 1/√x (R126). -/
def Num.invRoot : Num → Num
  | .nan => .nan
  | .fin n m => if m.isZero then .ovf n else if n then .nan else numSqrt m.inv
  | x => if x.isNeg then .nan else .zero

/-- A function of an odd or even kind on finite nonzero arguments, with its values at ±0 and at the infinities. -/
def Num.onFin (atZero : Bool → Num) (f : Q → Num) (atInf : Bool → Num) : Num → Num
  | .nan => .nan
  | .fin n m => if m.isZero then atZero n else f (if n then m.neg else m)
  | x => atInf x.isNeg

/-- A zero with a sign. -/
def Num.zeroOf (n : Bool) : Num := .fin n Q.zero

/-- The value one. -/
def Num.one : Num := .fin false Q.one

/-- A logarithm: of ±0 the negative largest magnitude, of a negative value a NaN (R126). -/
def Num.logBy (f : Q → Num) : Num → Num :=
  Num.onFin (fun _ => .ovf true) (fun x => if x.num < 0 then .nan else f x) (fun n => if n then .nan else .inf false)

/-- Rounding to an integer, the sign of the operand kept (R125). -/
def Num.toInt (f : Q → Int) : Num → Num
  | .nan => .nan
  | .fin n m => .fin n (Q.int ((f (if n then m.neg else m)).natAbs))
  | x => x

/-- The nearest integer, ties to even. -/
def Q.rint (q : Q) : Int := if q.num < 0 then -(q.abs.rne : Int) else q.rne

/-- The functions of `vxe.map` (R127). -/
def vxeMap (fn : Nat) (x : Num) : Num :=
  match fn with
  | 0x00 => x
  | 0x01 => x.neg
  | 0x02 => x.magn
  | 0x03 => Num.one.quot x
  | 0x04 => x.root
  | 0x05 => x.invRoot
  | 0x06 => Num.onFin (fun _ => .one) numExp (fun n => if n then .zero else .inf false) x
  | 0x07 => Num.onFin (fun _ => .one) numExp2 (fun n => if n then .zero else .inf false) x
  | 0x08 => Num.logBy numLn x
  | 0x09 => Num.logBy numLog2 x
  | 0x0A => Num.onFin Num.zeroOf numTanh (fun n => if n then Num.one.neg else .one) x
  | 0x0B => Num.onFin (fun _ => numSigmoid Q.zero) numSigmoid (fun n => if n then .zero else .one) x
  | 0x0C => Num.onFin Num.zeroOf numSilu (fun n => if n then .zeroOf true else .inf false) x
  | 0x0D => Num.onFin Num.zeroOf numGelu (fun n => if n then .zeroOf true else .inf false) x
  | 0x0E => Num.onFin Num.zeroOf numErf (fun n => if n then Num.one.neg else .one) x
  | 0x0F => Num.onFin Num.zeroOf numSin (fun _ => .nan) x
  | 0x10 => Num.onFin (fun _ => .one) numCos (fun _ => .nan) x
  | 0x11 => x.toInt Q.floor
  | 0x12 => x.toInt (fun q => -(q.neg.floor))
  | 0x13 => x.toInt Q.rint
  | _ => x.prod x

/-- A comparison as 0 or 1. -/
def numBool (b : Bool) : Num := if b then .one else .zero

/-- The functions of `vxe.zip` (R127). A comparison with a NaN gives 0, and +0 equals −0. -/
def vxeZip (fn : Nat) (a b : Num) : Num :=
  let ordered := !a.isNan && !b.isNan
  let less (x y : Num) := x.below y && !(x.isZero && y.isZero)
  match fn with
  | 0x00 => a.plus b
  | 0x01 => a.plus b.neg
  | 0x02 => a.prod b
  | 0x03 => a.quot b
  | 0x04 => a.larger b
  | 0x05 => a.smaller b
  | 0x06 => if ordered then (if a.isNeg = b.isNeg then a else a.neg) else .nan
  | 0x07 => numBool (ordered && less b a)
  | 0x08 => numBool (ordered && !less a b)
  | _ => numBool (ordered && !less a b && !less b a)

/-- A × B + C (R125). -/
def vxeFma (a b c : Num) : Num := (a.prod b).plus c

/-! ### Checks at the start -/

/-- Extents of an input against D's: equal, or 1 where D's is larger (R124). -/
def broadcastOk (d a : Desc) : Bool :=
  List.all (List.zip d.exts a.exts) (fun e => decide (e.1 = e.2) || (decide (e.2 = 1) && decide (1 < e.1)))

/-- The shape rule of R124 over the inputs. -/
def vxeShape (d : Desc) (ins : List Desc) : List Nat := need (ins.all (broadcastOk d)) fShape

/-- An anchor source named for a stored exact array (R54). -/
def Desc.anchorCheck (d : Desc) : List Nat := need (!d.fmt.isExact || decide (d.anchorSrc = 0)) fFmtCombo

/-- The checks every VXE operand has (R81, R82). -/
def vxeCommon (c : Nat) (routine : Bool) (ds : List Desc) : List Nat :=
  ds.flatMap (fun d => d.engineCheck c routine ++ d.anchorCheck)

/-- A plain integer operand (R128). -/
def Desc.plainInt (d : Desc) : Bool := decide (d.scaleMode = 0) && (decide (d.fmt = .int8) || decide (d.fmt = .int32))

/-- The format rule of the elementwise operations (R128): RAW8 only copied, exact formats not at all, and integers only by
the functions listed. -/
def elementwiseFormats (ds : List Desc) (rawOk intOk : Bool) : List Nat :=
  if ds.any (fun d => d.fmt = .raw8) then need (rawOk && ds.all (fun d => d.fmt = .raw8)) fFmtCombo
  else need (!ds.any (fun d => d.fmt.isExact)) fFmtCombo ++ need (intOk || !ds.all Desc.plainInt) fFmtCombo

/-- The codes of `vxe.map` that integers permit (R128). -/
def mapInt (fn : Nat) : Bool := [0x00, 0x01, 0x02, 0x14].contains fn
/-- The codes of `vxe.zip` that integers permit (R128). -/
def zipInt (fn : Nat) : Bool := [0x00, 0x01, 0x02, 0x04, 0x05, 0x07, 0x08, 0x09].contains fn

/-- The checks of `vxe.map`. -/
def mapChecks (c : Nat) (routine : Bool) (d a : Desc) (fn : Nat) : List Nat :=
  vxeCommon c routine [d, a] ++ need (decide (fn ≤ 0x14)) fIllegalOp
  ++ elementwiseFormats [d, a] (decide (fn = 0)) (mapInt fn || decide (0x14 < fn)) ++ vxeShape d [a]

/-- The checks of `vxe.zip`: on exact operands only ADD, with one anchor (R52, R53, R128). -/
def zipChecks (c : Nat) (routine : Bool) (d a b : Desc) (fn : Nat) : List Nat :=
  vxeCommon c routine [d, a, b] ++ need (decide (fn ≤ 0x09)) fIllegalOp ++ vxeShape d [a, b]
  ++ (if d.fmt.isExact || a.fmt.isExact || b.fmt.isExact then
        need (decide (fn = 0) && d.fmt.isExact && a.fmt.isExact && b.fmt.isExact) fFmtCombo
        ++ need (!(d.fmt.isExact && a.fmt.isExact && b.fmt.isExact) || (decide (a.anchor = d.anchor) && decide (b.anchor = d.anchor))) fAccAnchor
        ++ need (!d.fmt.isExact || decide (d.terms ≠ 0)) fAccTerms
      else elementwiseFormats [d, a, b] false (zipInt fn || decide (0x09 < fn)))

/-- The checks of `vxe.fma`. -/
def fmaChecks (c : Nat) (routine : Bool) (d a b e : Desc) : List Nat :=
  vxeCommon c routine [d, a, b, e] ++ elementwiseFormats [d, a, b, e] false false ++ vxeShape d [a, b, e]

/-- The checks of `vxe.conv`: an exact source is converted out under R68, an exact D is permitted nowhere in R128. -/
def convChecks (c : Nat) (routine : Bool) (d a : Desc) (step : Option Nat) : List Nat :=
  vxeCommon c routine [d, a] ++ vxeShape d [a]
  ++ (if a.fmt.isExact then
        need (!d.fmt.isExact && decide (d.fmt ≠ .raw8)) fFmtCombo ++ need (decide (a.terms ≠ 0)) fAccTerms ++ stepCheck a d step
      else elementwiseFormats [d, a] true true)

/-- Whether a reduction forms an exact sum (R129). -/
def redIsSum : RedOp → Bool
  | .sum => true | .sumsq => true | _ => false

/-- The checks of `vxe.red` (R53, R128, R129, R131). -/
def redChecks (c : Nat) (routine : Bool) (d a : Desc) (k : Nat) (op : RedOp) (step : Option Nat) : List Nat :=
  vxeCommon c routine [d, a]
  ++ need (!a.fmt.isExact && decide (a.fmt ≠ .raw8) && decide (d.fmt ≠ .raw8)) fFmtCombo
  ++ need (decide (d.exts = a.exts.set k 1)) fShape
  ++ (if redIsSum op then need (decide (d.anchorSrc = 0)) fFmtCombo ++ need (decide (d.terms ≠ 0)) fAccTerms ++ stepCheck d d step
      else need (!d.fmt.isExact) fFmtCombo)

/-- The checks of `vxe.rand`: D is INT32 (R105), and of the ids below 0x0100 a program of a serving parcel may name only
0x0003 (R44). -/
def randChecks (c : Nat) (routine serving : Bool) (d : Desc) (stream : Nat) : List Nat :=
  vxeCommon c routine [d] ++ need (decide (d.fmt = .int32)) fFmtCombo
  ++ need (routine || decide (0x100 ≤ stream) || (serving && decide (stream = 3))) fFmtCombo

/-! ### Operands and results -/

/-- The operand values of an input row: a SCALE_MODE 2 element is widened to FP32 (R32, R124). -/
def widenRow (d : Desc) (vs : List Num) : List Num × Nat :=
  if d.scaleMode = 2 then
    let ws := vs.map (fun v => roundFp32 (v.scale d.tq))
    (ws.map Prod.fst, (ws.filter Prod.snd).length)
  else (vs, 0)

/-- The operand values of every row of an input, and the widenings that saturated. -/
def State.operand (s : State) (d : Desc) : List (List Num) × Nat :=
  let rows := (s.values d).map (widenRow d)
  (rows.map Prod.fst, sumN (rows.map Prod.snd))

/-- Rows laid out over D's extents, an extent of 1 broadcast (R124). -/
def broadcast {α : Type} (d a : Desc) (rows : List (List α)) : List (List α) :=
  (List.range d.rows).map (fun r =>
    let (i1, i2, i3) := d.rowIdx r
    let j := (if a.e1 = 1 then 0 else i1) + a.e1 * ((if a.e2 = 1 then 0 else i2) + a.e2 * (if a.e3 = 1 then 0 else i3))
    let row := rows.getD j []
    if a.e0 = d.e0 then row
    else match row with
      | v :: _ => List.replicate d.e0 v
      | [] => [])

/-- Values written to D with what the write counts (R39). -/
def State.vxeStore (s : State) (c : Nat) (d : Desc) (rows : List (List Num)) : State :=
  let (s, sats, nans) := s.storeValues d none rows
  s.countConv c 2 d.fmt sats nans

/-- The overlap rule for elementwise operations: D may be an input's own tensor (R82). -/
def State.elementwiseOverlap (s : State) (d : Desc) (ins : List Desc) (r : Nat × Nat) : State × Nat × Nat :=
  s.overlapped d (ins.filter (fun a => decide (a ≠ d))) r

/-- An elementwise operation over its operand rows (R124, R125). -/
def State.elementwise (s : State) (c : Nat) (d : Desc) (ins : List Desc) (f : List (List Num) → List Num) :
    State × Nat × Nat :=
  if d.empty then (s, 0, 0)
  else
    let ops := ins.map (fun a => let (rows, n) := s.operand a; (broadcast d a rows, n))
    let s := s.countCore c 0x20 (sumN (ops.map Prod.snd))
    let rows := (List.range d.rows).map (fun r => f (ops.map (fun o => o.1.getD r [])))
    (s.vxeStore c d rows).elementwiseOverlap d ins (0, 0)

/-- A copy of RAW8 bytes (R128). -/
def State.rawCopy (s : State) (d a : Desc) : State × Nat × Nat :=
  (s.storeCodes d (broadcast d a (s.codes a))).elementwiseOverlap d [a] (0, 0)

/-- `vxe.map` (R125 to R128). -/
def State.runMap (s : State) (c : Nat) (d a : Desc) (fn : Nat) : State × Nat × Nat :=
  if d.fmt = .raw8 then s.rawCopy d a
  else s.elementwise c d [a] (fun rows => (rows.getD 0 []).map (vxeMap fn))

/-- `vxe.zip` ADD of exact operands: in DA128, narrowed into a DA64 D (R52, R60, R70, R128). -/
def State.runExactAdd (s : State) (c : Nat) (d a b : Desc) : State × Nat × Nat :=
  if d.empty then (s, 0, 0)
  else
    let (ra, fa) := s.exactRows a
    let (rb, fb) := s.exactRows b
    let s := s.residueFails c (fa + fb)
    let wide (x : Desc) (rows : List (List Da)) := broadcast d x (exactToExact x.fmt .da128 rows).1
    let outs := List.zipWith (List.zipWith da128Add) (wide a ra) (wide b rb)
    let s := s.countSum c 2 ⟨0, 0, 0, sumN (outs.map (fun r => (r.filter AddOut.saturated).length)),
      sumN (outs.map (fun r => (r.filter AddOut.failed).length)), 0⟩
    let (words, sats) := exactToExact .da128 d.fmt (outs.map (·.map AddOut.sum))
    ((s.storeWords d words).countCore c 0x69 sats).elementwiseOverlap d [a, b] (statusRows words)

/-- `vxe.zip` (R125 to R128). -/
def State.runZip (s : State) (c : Nat) (d a b : Desc) (fn : Nat) : State × Nat × Nat :=
  if d.fmt.isExact then s.runExactAdd c d a b
  else s.elementwise c d [a, b] (fun rows => List.zipWith (vxeZip fn) (rows.getD 0 []) (rows.getD 1 []))

/-- `vxe.fma` (R125). -/
def State.runFma (s : State) (c : Nat) (d a b e : Desc) : State × Nat × Nat :=
  s.elementwise c d [a, b, e] (fun rows =>
    List.zipWith (fun (x : Num × Num) z => vxeFma x.1 x.2 z) (List.zip (rows.getD 0 []) (rows.getD 1 [])) (rows.getD 2 []))

/-- `vxe.conv` (R37, R68, R128). -/
def State.runConv (s : State) (c : Nat) (d a : Desc) (step : Option Nat) : State × Nat × Nat :=
  if d.empty then (s, 0, 0)
  else if a.fmt.isExact then
    let (rows, fails) := s.exactRows a
    let key := s.sumKey c a d step
    let (s, r) := (s.residueFails c fails).convertExact c 2 a d (broadcast d a rows) key
    s.elementwiseOverlap d [a] r
  else if d.fmt = .raw8 then s.rawCopy d a
  else s.elementwise c d [a] (fun rows => rows.getD 0 [])

/-- The elements of A that meet in one element of D, in order along dimension k (R129). -/
def redGroup {α : Type} (a : Desc) (k r i0 : Nat) (rowIdx : Nat → Nat × Nat × Nat) (rows : List (List α)) : List α :=
  let (i1, i2, i3) := rowIdx r
  let at_ (j0 j1 j2 j3 : Nat) : List α := ((rows.getD (j1 + a.e1 * (j2 + a.e2 * j3)) [])[j0]?).toList
  (List.range ([a.e0, a.e1, a.e2, a.e3].getD k 0)).flatMap (fun j =>
    match k with
    | 0 => at_ j i1 i2 i3
    | 1 => at_ i0 j i2 i3
    | 2 => at_ i0 i1 j i3
    | _ => at_ i0 i1 i2 j)

/-- The largest or smallest element or the largest magnitude, of no elements as R129 says. -/
def redValue (op : RedOp) (g : List Num) : Num :=
  match op, g with
  | .max, v :: vs => vs.foldl Num.larger v
  | .min, v :: vs => vs.foldl Num.smaller v
  | .amax, vs => (vs.map Num.magn).foldl Num.larger .zero
  | _, _ => .nan

/-- `vxe.red` (R129). -/
def State.runRed (s : State) (c : Nat) (d a : Desc) (k : Nat) (op : RedOp) (clr : Bool) (step : Option Nat) :
    State × Nat × Nat :=
  if d.empty then (s, 0, 0)
  else
    let (rows, n) := s.operand a
    let s := s.countCore c 0x20 n
    let groups := (List.range d.rows).map (fun r => (List.range d.e0).map (fun i => redGroup a k r i d.rowIdx rows))
    if redIsSum op then
      let f := if d.fmt = .da64 then Fmt.da64 else .da128
      let (prior, fails) := if d.fmt.isExact && !clr then s.exactRows d else ([], 0)
      let elems := groups.mapIdx (fun r row => row.mapIdx (fun i g =>
        let e := startElem d d.anchor clr ((prior.getD r []).getD i Da.zero)
        ((if op = .sumsq then g.map (fun v => v.times v) else g).foldl (Elem.add f) e).settle f s.freshCtr (r * d.e0 + i)))
      let s := (s.residueFails c fails).countSum c 2 (countElems elems)
      let words := elems.map (·.map (fun e => e.acc.word))
      let s :=
        if d.fmt.isExact then s.storeWords d words
        else
          let key := s.sumKey c d d step
          let (s, sats, nans) := s.storeValues d key (words.map (·.map (convertOut .da128 d.anchor Q.one d.divisor)))
          let s := s.countConv c 2 d.fmt sats nans
          if key.isSome then s.countCore c 0x6D d.count else s
      s.overlapped d [a] (statusRows words)
    else (s.vxeStore c d (groups.map (·.map (redValue op)))).overlapped d [a] (0, 0)

/-- `vxe.rand`: the dither of R42 of every element as INT32. -/
def State.runRand (s : State) (c : Nat) (d : Desc) (stream step : Nat) : State × Nat × Nat :=
  if d.empty then (s, 0, 0)
  else
    let key := ditherKey (s.coreSeed c) step stream
    (s.storeCodes d ((List.range d.rows).map (fun r =>
      (List.range d.e0).map (fun i => dither key d.tensorId (d.logical r i)))), 0, 0)

end Sys2Proof.Machine
end

