-- ==== Sys2Proof/Machine/Spe.lean ====
section
/-! DEFINITION. The sparse engine: compressed operands (R139 to R141), the metadata checks (R142), the sparse product (R143 to
R145), the tiles handed over (R150) and packing (R152). -/

namespace Sys2Proof.Machine

/-! ### Reading the forms -/

/-- The metadata bits of row ρ as a number, bit i for position i (R139, R140). -/
def State.metaRow (s : State) (d : Desc) (r : Nat) : Nat :=
  s.readNat ((d.metaBase + r * d.metaBytes) % 2 ^ 64) d.metaBytes

/-- The positions below `n` of the bits set, ascending. -/
def bitPositions (n w : Nat) : List Nat := (List.range n).filter w.testBit

/-- The bits set among the low `n`. -/
def popcount (n w : Nat) : Nat := (bitPositions n w).length

/-- The metadata bits of every row. -/
def State.metaRows (s : State) (d : Desc) : List Nat := (List.range d.rows).map (s.metaRow d)

/-- A stored position of a row: the position, its value, and the scale code of its block (0x7F without scales). -/
structure Stored where
  pos : Nat
  val : Num
  scale : Nat
  deriving DecidableEq, Repr

/-- Slot j of a value row. -/
def slotAt (d : Desc) (vals : List Num) (scales : List Nat) (pos j : Nat) : Stored :=
  ⟨pos, vals.getD j .zero, if d.blocked then scales.getD (j / d.block) 0x7F else 0x7F⟩

/-- Positions numbered in packed order over all rows: the positions of each row with their packed indices (R139). -/
def numberRows : Nat → List (List Nat) → List (List (Nat × Nat))
  | _, [] => []
  | n, r :: rs => r.mapIdx (fun i p => (p, n + i)) :: numberRows (n + r.length) rs

/-- Positions of a row in its groups' slots: the i-th stored position of group g takes slot g × N + i (R140). -/
def groupSlots (d : Desc) (ps : List Nat) : List (Nat × Nat) :=
  (List.range d.groups).flatMap (fun g =>
    (ps.filter (fun p => decide (p / d.gM = g))).mapIdx (fun i p => (p, g * d.groupN + i)))

/-- The stored positions of every row, bits at or beyond n0 left out (R139, R140, R142). -/
def State.stored (s : State) (d : Desc) : List (List Stored) :=
  let v := d.packed
  let ps := (s.metaRows d).map (bitPositions d.e0)
  if d.sparseForm = 1 then
    let vals := s.rowValues v 0
    let scales := s.rowScales v 0
    (numberRows 0 ps).map (·.map (fun e => slotAt d vals scales e.1 e.2))
  else ps.mapIdx (fun r row =>
    let vals := s.rowValues v r
    let scales := s.rowScales v r
    (groupSlots d row).map (fun e => slotAt d vals scales e.1 e.2))

/-! ### Checks -/

/-- The regions of a sparse operand lie in the core's own SRAM, aligned, and apart from one another (R82, R141). -/
def Desc.sparseCheck (d : Desc) (c : Nat) : List Nat :=
  if d.empty then []
  else
    let v := d.packed
    let rs := d.allRegions
    need (v.empty || inOwnSram c v.base (v.span + v.rowBytes)) fAddrRange
    ++ need (v.empty || !v.blocked || inOwnSram c v.scaleBase (v.rows * v.nb)) fAddrRange
    ++ need (inOwnSram c d.metaBase (d.rows * d.metaBytes)) fAddrRange
    ++ need (!meets [(d.metaBase % 2 ^ 44, d.rows * d.metaBytes)] (rs.take (rs.length - 1))
        && (!v.blocked || v.empty || !meets [(v.scaleBase % 2 ^ 44, v.rows * v.nb)] (rs.take (rs.length - 2)))) fAddrRange
    ++ need (v.empty || v.alignOk) fAddrAlign ++ need (decide (d.metaBase % 8 = 0)) fAddrAlign

/-- A failure of the check pass: its code, and row, position and population as R142 records them. -/
structure MetaFault where
  code : Nat
  row : Nat
  pos : Nat
  count : Nat
  deriving DecidableEq, Repr

/-- The first element of a list of options that is there. -/
def firstSome {α : Type} : List (Option α) → Option α
  | [] => none
  | some a :: _ => some a
  | none :: l => firstSome l

/-- The bits of a row's metadata region. -/
def Desc.metaBits (d : Desc) : Nat := 8 * d.metaBytes

/-- The check pass of R142: the failure of lowest code, and among those the first in row and position order. -/
def State.metaCheck (s : State) (d : Desc) : Option MetaFault :=
  let rows := s.metaRows d
  let total := sumN (rows.map (popcount d.metaBits))
  let length : Option MetaFault :=
    if d.sparseForm = 1 ∧ total ≠ d.packedLen then some ⟨fSpLength, 0, 0, total⟩ else none
  let group : Option MetaFault :=
    if d.sparseForm = 2 then
      firstSome (rows.mapIdx (fun r w => firstSome ((List.range d.groups).map (fun g =>
        let n := popcount d.gM (w >>> (g * d.gM))
        if d.groupN < n then some ⟨fSpGroup, r, g * d.gM, n⟩ else none))))
    else none
  let width := if d.sparseForm = 1 then d.metaBits else d.groups * d.gM
  let index : Option MetaFault :=
    firstSome (rows.mapIdx (fun r w =>
      ((bitPositions width w).find? (fun p => decide (d.e0 ≤ p))).map (fun p => ⟨fSpIndex, r, p, popcount width w⟩)))
  (length.or group).or index

/-- The checks of `spe.mm` on its descriptors (R81, R82, R114, R115, R141, R143). -/
def speChecks (c : Nat) (routine : Bool) (dst a b : Desc) (clr : Bool) (step : Option Nat) : List Nat :=
  dst.engineCheck c routine ++ b.engineCheck c routine ++ a.selfCheck routine ++ a.sparseCheck c
  ++ need (decide (a.sparseForm ≠ 0)) fFmtCombo
  ++ need (a.fmt.mxeInput && b.fmt.mxeInput) fFmtCombo
  ++ productRules dst clr (a.bound.isSome && b.bound.isSome) (decide (a.scaleMode = 2) || decide (b.scaleMode = 2))
  ++ mmShape dst a b ++ stepCheck dst dst step

/-- The checks of `spe.pack` on its descriptors (R37, R152). Exact formats and RAW8 are converted by no rule of R152. -/
def packChecks (c : Nat) (routine : Bool) (d a : Desc) : List Nat :=
  a.engineCheck c routine ++ d.selfCheck routine ++ d.sparseCheck c
  ++ need (decide (d.sparseForm ≠ 0)) fFmtCombo
  ++ need (!a.fmt.isExact && !d.fmt.isExact && decide (a.fmt ≠ .raw8) && decide (d.fmt ≠ .raw8)) fFmtCombo
  ++ need (decide (d.exts = a.exts)) fShape

/-- A metadata fault recorded: the first since the parcel started (R142, R155). -/
def State.recordMeta (s : State) (c : Nat) (m : MetaFault) : State :=
  let s := s.bump Obj.spe_SP_FAULTS_TOTAL
  if s.obj (Obj.core_SP_FAULT_ROW c) = 0xFFFFFFFF then
    ((s.setObj (Obj.core_SP_FAULT_ROW c) m.row).setObj (Obj.core_SP_FAULT_POS c) m.pos).setObj
      (Obj.core_SP_FAULT_COUNT c) m.count
  else s

/-! ### The product -/

/-- The pre-scan anchor over a row's stored positions (R144). -/
def storedAnchor (dst a b : Desc) (row : List Stored) (sb : List Nat) : Int :=
  let es := row.filterMap (fun x =>
    let kb := if b.blocked then sb.getD (x.pos / b.block) 0 else 127
    if x.scale = 0xFF ∨ kb = 0xFF then none else some ((x.scale : Int) - 127 + ((kb : Int) - 127)))
  match es with
  | [] => 0
  | p :: ps => ps.foldl max p + a.bound.getD 0 + b.bound.getD 0 - 1 + headroom dst.terms 23

/-- Positions of a K segment, by the width of B (R146). -/
def segmentLen (b : Desc) : Nat := if b.fmt.width = 4 then 4096 else if b.fmt.width ≤ 8 then 2048 else 1024

/-- The handover threshold of the wider input (R150); `set` is SP_HANDOFF and the three thresholds. -/
def handThreshold (set : List Nat) (a b : Desc) : Nat :=
  let w := max a.fmt.width b.fmt.width
  set.getD (if w ≤ 6 then 1 else if w ≤ 8 then 2 else 3) 32

/-- A length cut into segments: their starts and lengths. -/
def segments (n len : Nat) : List (Nat × Nat) :=
  (List.range (ceilDiv n len)).map (fun i => (i * len, min len (n - i * len)))

/-- The tiles of an `spe.mm`: for each, its stored positions and its positions (R146, R150). -/
def speTiles (a b : Desc) (rows : List (List Stored)) : List (Nat × Nat) :=
  (List.range a.e2).flatMap (fun t => (segments a.e1 512).flatMap (fun rb => (segments rb.2 128).flatMap (fun tr =>
    (segments a.e0 (segmentLen b)).flatMap (fun ks => (segments ks.2 256).map (fun tk =>
      let lo := ks.1 + tk.1
      let here := (rows.drop (t * a.e1 + rb.1 + tr.1)).take tr.2
      (sumN (here.map (fun r => (r.filter (fun x => decide (lo ≤ x.pos) && decide (x.pos < lo + tk.2))).length)), tr.2 * tk.2))))))

/-- The layout counters of an `spe.mm` (R150, R155); which dense tiles stay because the MXE is busy is timing (log 9). -/
def State.countTiles (s : State) (c : Nat) (a b : Desc) (rows : List (List Stored)) (routeSpe : Bool) (set : List Nat)
    (rep : EngineReport) : State :=
  let strips := ceilDiv b.e1 64
  let tiles := speTiles a b rows
  let thr := handThreshold set a b
  let dense := if routeSpe || decide (set.getD 0 1 = 0) then 0
    else strips * (tiles.filter (fun t => decide (thr * t.2 ≤ 256 * t.1))).length
  let kept := min rep.denseKept dense
  let handed := dense - kept
  s.countCores c [(0x92, strips * tiles.length - handed), (0x93, handed), (0x94, kept),
    (0x91, if b.e1 = 0 then 0 else sumN (rows.map List.length))]

/-- `spe.mm` (R143 to R145, R150). -/
def State.runSpeMm (s : State) (c : Nat) (dst a b : Desc) (clr routeSpe : Bool) (step : Option Nat) (set : List Nat)
    (rep : EngineReport) : State × Nat × Nat :=
  if dst.empty && a.empty && b.empty then (s, 0, 0)
  else
    let rowsA := s.stored a
    let vb := s.values b
    let row (t m : Nat) := rowsA.getD (m + a.e1 * t) []
    let terms (t m n : Nat) : List Num :=
      let bs := vb.getD (n + b.e1 * t) []
      (row t m).map (fun x => x.val.times (bs.getD x.pos .zero))
    let anchor (t m n : Nat) : Int := storedAnchor dst a b (row t m) (s.rowScales b (n + b.e1 * t))
    let (elems, fails) := s.product dst a.e1 b.e1 a.e2 terms anchor clr
    let s := ((s.residueFails c fails).countSum c 1 (countElems elems)).countTiles c a b rowsA routeSpe set rep
    let r := statusRows (elems.map (·.map (fun e => e.acc.word)))
    (s.storeProduct c 3 dst a b elems step).overlapped dst [a, b] r

/-! ### Packing -/

/-- Insertion by a key, equal keys kept in order. -/
def insertBy {α : Type} (lt : α → α → Bool) (x : α) : List α → List α
  | [] => [x]
  | y :: ys => if lt x y then x :: y :: ys else y :: insertBy lt x ys

/-- A list in ascending order, equal elements kept in order. -/
def sortBy {α : Type} (lt : α → α → Bool) (l : List α) : List α := l.foldr (insertBy lt) []

/-- The nonzero positions of a row of values (R152). -/
def nonzeroAt (row : List Num) : List Nat := (List.range row.length).filter (fun i => !(row.getD i .zero).isZero)

/-- Whether the first of two values is the larger in magnitude, a NaN counting as largest (R152). -/
def largerMag (a b : Num) : Bool := (a.isNan && !b.isNan) || (!a.isNan && !b.isNan && b.magn.below a.magn)

/-- The positions of a group that `prune` keeps: the N largest, ties to the lower position (R152). -/
def pruneGroup (row : List Num) (n : Nat) (ps : List Nat) : List Nat :=
  let kept := (sortBy (fun i j => largerMag (row.getD i .zero) (row.getD j .zero)) ps).take n
  ps.filter kept.contains

/-- The positions of zero elements that the bitmap form stores besides the nonzero ones: those of lowest linear index
(R80, R152). -/
def padPositions (d : Desc) (rows : List (List Num)) (n : Nat) : List (Nat × Nat) :=
  let zeros := (rows.mapIdx (fun r row =>
    ((List.range row.length).filter (fun i => (row.getD i .zero).isZero)).map (fun i => (r, i)))).flatten
  (sortBy (fun x y => decide (d.logical x.1 x.2 < d.logical y.1 y.2)) zeros).take n

/-- What the count pass of `spe.pack` settles: the stored positions of every row, or the code of its fault; the added and
the dropped positions (R152). -/
structure PackPlan where
  rows : List (List Nat)
  pad : Nat
  pruned : Nat
  fault : Option Nat
  deriving DecidableEq, Repr

/-- The values of A that `spe.pack` stores (R37): a mode-2 element with its tensor scale. -/
def State.packValues (s : State) (a : Desc) : List (List Num) := (s.values a).map (·.map a.withT)

/-- The count pass of `spe.pack` (R152). -/
def packPlan (d : Desc) (prune : Bool) (vals : List (List Num)) : PackPlan :=
  let nz := vals.map nonzeroAt
  let total := sumN (nz.map List.length)
  if d.sparseForm = 1 then
    if d.packedLen < total ∨ d.count < d.packedLen then ⟨nz, 0, 0, some fSpLength⟩
    else
      let add := padPositions d vals (d.packedLen - total)
      ⟨nz.mapIdx (fun r ps => (List.range d.e0).filter (fun i => ps.contains i || add.contains (r, i))), add.length, 0, none⟩
  else
    let group (r g : Nat) := (nz.getD r []).filter (fun p => decide (p / d.gM = g))
    let past := (List.range d.rows).any (fun r => (List.range d.groups).any (fun g => decide (d.groupN < (group r g).length)))
    if past && !prune then ⟨nz, 0, 0, some fSpGroup⟩
    else
      let kept := (List.range d.rows).map (fun r =>
        (List.range d.groups).flatMap (fun g => pruneGroup (vals.getD r []) d.groupN (group r g)))
      ⟨kept, 0, total - sumN (kept.map List.length), none⟩

/-- The metadata word of a row's stored positions. -/
def metaWord (ps : List Nat) : Nat := ps.foldl (fun w p => w ||| 2 ^ p) 0

/-- `spe.pack` after its count pass (R152). -/
def State.runPack (s : State) (c : Nat) (d a : Desc) (prune : Bool) : State × Nat × Nat :=
  if d.empty && a.empty then (s, 0, 0)
  else
    let vals := s.packValues a
    let plan := packPlan d prune vals
    let v := d.packed
    let value (r p : Nat) := (vals.getD r []).getD p .zero
    let valueRows : List (List Num) :=
      if d.sparseForm = 1 then [(plan.rows.mapIdx (fun r ps => ps.map (value r))).flatten]
      else plan.rows.mapIdx (fun r ps =>
        let slots := groupSlots d ps
        (List.range (d.groups * d.groupN)).map (fun j =>
          match slots.find? (fun e => decide (e.2 = j)) with
          | some e => value r e.1
          | none => .zero))
    -- a stored zero, +0 or −0, is written as +0
    let clean := valueRows.map (·.map (fun x => if x.isZero then Num.zero else x))
    let s := (plan.rows.zipIdx).foldl (fun s e =>
      s.writeBytes ((d.metaBase + e.2 * d.metaBytes) % 2 ^ 64) (leBytes d.metaBytes (metaWord e.1))) s
    let (s, sats, nans) := s.storeValues v none clean
    let s := (s.countConv c 3 d.fmt sats nans).countCores c [(0x9C, plan.pad), (0x9D, plan.pruned)]
    s.overlapped d [a] (0, 0)

end Sys2Proof.Machine
end

