-- ==== Sys2Proof/Machine/Txe.lean ====
section
/-! DEFINITION. The transfer engine: the checks of its operations (R82, R95 to R98, R153, R170, R175, R458), conversions
(R37, R68, R70), the packets of an operation (R193, R195), the source window (R209), answers (R194) and completion (R96). -/

namespace Sys2Proof.Machine

/-! ### Checks at the start -/

/-- No conversion between two tensors: the same format, and the same scaling as far as it has any (R26, R37). -/
def sameElements (a b : Desc) : Bool :=
  decide (a.format = b.format) && decide (a.scaleMode = b.scaleMode)
    && (decide (a.scaleMode = 0) || decide (a.blockSize = b.blockSize))
    && (decide (a.scaleMode ≠ 2) || decide (a.tscale = b.tscale))

/-- The alignment of R82 and R141 on a transfer's descriptor. -/
def Desc.alignCheck (d : Desc) : List Nat :=
  need (d.empty || d.packed.empty || d.packed.alignOk) fAddrAlign
  ++ need (d.empty || decide (d.sparseForm = 0) || decide (d.metaBase % 8 = 0)) fAddrAlign

/-- A descriptor of a transfer by itself; a stored exact array takes its anchor from the descriptor (R54, R81, R82). -/
def Desc.moveCheck (d : Desc) (routine : Bool) : List Nat :=
  d.selfCheck routine ++ d.alignCheck ++ need (!d.fmt.isExact || decide (d.anchorSrc = 0)) fFmtCombo

/-- A source and a destination descriptor that a compressed transfer may pair (R153). -/
def sparsePair (d s : Desc) : Bool :=
  decide (s.sparseForm ≠ 0) && decide (d.format = s.format) && decide (d.scaleMode = s.scaleMode)
    && decide (d.blockSize = s.blockSize) && decide (d.sparseForm = s.sparseForm) && decide (d.groupM = s.groupM)
    && decide (d.groupN = s.groupN) && decide (d.packedLen = s.packedLen) && decide (d.ext = s.ext)

/-- What put and get check of a pair of descriptors (R37, R52, R53, R70, R153). -/
def pairCheck (d s : Desc) (step : Option Nat) : List Nat :=
  if d.sparseForm ≠ 0 ∨ s.sparseForm ≠ 0 then need (sparsePair d s) fFmtCombo
  else
    need (decide (d.exts = s.exts)) fShape
    ++ (if d.fmt.isExact && s.fmt.isExact then need (decide (d.anchor = s.anchor)) fAccAnchor
        else if sameElements d s then []
        else
          need (decide (d.fmt ≠ .raw8) && decide (s.fmt ≠ .raw8)) fFmtCombo
          ++ (if s.fmt.isExact then need (decide (s.terms ≠ 0)) fAccTerms ++ stepCheck s d step else []))

/-- A get that the source's accumulate unit converts (R175): DA128 in either tier into another format. -/
def convertingGet (d s : Desc) : Bool :=
  decide (s.fmt = .da128) && decide (d.fmt ≠ .da128) && inTier s.base && decide (s.sparseForm = 0)

/-- Whether a tensor's rows are whole blocks (R170, R193). -/
def Desc.wholeBlocks (d : Desc) : Bool := !d.blocked || decide (d.e0 % d.block = 0)

/-- The runs of a list that lie on this device. -/
def State.ownRuns (s : State) (l : List (Nat × Nat)) : List (Nat × Nat) := l.filter (fun r => decide (addrDev r.1 = s.ownDev))

/-- The runs of a local operand, whose device field is not examined (R458). -/
def localRuns (d : Desc) : List (Nat × Nat) := d.allRegions

/-- A destination flag on this device names a core of the parcel (R15, R95). -/
def State.dflagFault (s : State) (n : Nat) (own : Bool) (df : Option (Nat × Flag)) : List Nat :=
  match df with
  | some (k, _) => need (!own || decide (s.coreParcel k = some n)) fAccessDenied
  | none => []

/-- The checks of a TXE operation of a core of parcel n at its start, lowest code first reported (R81, R82, R95 to R98). -/
def State.txeFaults (s : State) (c n : Nat) (routine : Bool) : QOp → List Nat
  | .put d a _ step df =>
    d.moveCheck routine ++ a.moveCheck routine ++ pairCheck d a step ++ s.localFaults n false (localRuns a)
      ++ s.localFaults n true (s.ownRuns d.places) ++ s.dflagFault n (decide (addrDev d.base = s.ownDev)) df
  | .get d a _ df =>
    d.moveCheck routine ++ a.moveCheck routine ++ pairCheck d a none
      ++ need (d.places.all (fun r => inOwnSram c r.1 r.2)) fAddrRange
      ++ (if convertingGet d a then need (decide (d.scaleMode ≠ 2) && d.wholeBlocks) fFmtCombo else [])
      ++ s.localFaults n false (s.ownRuns a.places) ++ s.dflagFault n true df
  | .acc d a _ df =>
    d.moveCheck routine ++ a.moveCheck routine
      ++ need (decide (d.sparseForm = 0) && decide (a.sparseForm = 0) && decide (d.fmt = .da128) && a.fmt.accSource
          && a.wholeBlocks && decide (addrSpace d.base ≠ 0) && decide (addrSpace d.base ≠ 4) && !isWindow d.base) fFmtCombo
      ++ need (decide (d.exts = a.exts)) fShape ++ s.localFaults n false (localRuns a)
      ++ s.localFaults n true (s.ownRuns d.places) ++ s.dflagFault n (decide (addrDev d.base = s.ownDev)) df
  | .ring _ h _ _ =>
    h.selfCheck routine
      ++ need (decide (h.fmt = .raw8) && decide (h.rank = 2) && decide (h.sparseForm = 0) && decide (h.e0 = 256)
          && decide (2 ≤ h.e1 ∧ h.e1 ≤ 4096) && decide (h.e1 = 2 ^ Nat.log2 h.e1) && decide (256 ≤ h.stride.1)
          && decide (h.stride.1 % 8 = 0)) fFmtCombo
      ++ s.localFaults n true (localRuns h)
  | .msg dev k _ a len _ =>
    need (decide (1 ≤ len ∧ len ≤ 224) && decide (a + len ≤ 2 ^ 21)) fAddrRange
      ++ need (decide (dev ≠ s.ownDev) || decide (s.coreParcel k = some n)) fAccessDenied
  | .digest a h =>
    h.moveCheck routine ++ need (decide (a + 32 ≤ 2 ^ 21)) fAddrRange ++ need (decide (a % 8 = 0)) fAddrAlign
      ++ s.localFaults n false (localRuns h)
  | .fill d _ _ =>
    d.moveCheck routine ++ need (decide (d.sparseForm = 0)) fFmtCombo ++ s.localFaults n true (s.ownRuns d.places)
  | _ => []

/-- The parcel in whose REFUSED_ACCESS an ACCESS_DENIED of an operation counts (R15). -/
def State.txeDenied (s : State) (n : Nat) (op : QOp) : Option Nat :=
  let flagOwner (df : Option (Nat × Flag)) : Option Nat := df.bind (fun x => s.coreParcel x.1)
  let pick (l : List (Nat × Nat)) (df : Option (Nat × Flag)) : Option Nat :=
    if (l.any (fun r => (s.foreign n r.1 r.2).isSome)) then s.deniedOwner n l
    else match flagOwner df with
      | some m => if m = n then none else some m
      | none => none
  match op with
  | .put d a _ _ df => pick (localRuns a ++ s.ownRuns d.places) df
  | .get _ a _ df => pick (s.ownRuns a.places) df
  | .acc d a _ df => pick (localRuns a ++ s.ownRuns d.places) df
  | .ring _ h _ _ => s.deniedOwner n (localRuns h)
  | .msg _ k _ _ _ _ => s.coreParcel k
  | .digest _ h => s.deniedOwner n (localRuns h)
  | .fill d _ _ => s.deniedOwner n (s.ownRuns d.places)
  | _ => none

/-- The local runs an operation reads at its start (R74, R458). -/
def txeSources (c : Nat) : QOp → List (Nat × Nat)
  | .put _ a _ _ _ => localRuns a
  | .acc _ a _ _ => localRuns a
  | .msg _ _ _ a n _ => [(c * 2 ^ 21 + a, n)]
  | .digest _ h => localRuns h
  | _ => []

/-! ### Conversions -/

/-- A dense tensor laid out without gaps from address 0, rows first and scales after them. -/
def Desc.flat (d : Desc) : Desc :=
  let b := d.rowBytes
  { d with base := 0, stride := (b, b * d.e1, b * d.e1 * d.e2), scaleBase := d.rows * b }

/-- A memory that holds a byte string of a transfer from address 0. -/
def scratch (m : Sparse Byte) : State := { State.reset with mem := m }

/-- The bytes of a tensor, run by run. -/
def State.runBytes (s : State) (d : Desc) : List Bytes := d.allRegions.map (fun r => s.readBytes r.1 r.2)

/-- What moving a tensor gives: the bytes of each run of the destination, the status and excess, and what is counted. -/
structure Moved where
  bytes : List Bytes
  status : Nat
  excess : Nat
  sats : Nat
  nans : Nat
  sumSat : Nat
  poison : Nat
  stoch : Nat
  fails : Nat
  deriving DecidableEq, Repr

/-- Bytes moved as they stand. -/
def Moved.plain (bs : List Bytes) : Moved := ⟨bs, 0, 0, 0, 0, 0, 0, 0, 0⟩

/-- A tensor read from `t` as the destination holds it (R37, R58, R68, R70, R96). DA128 elements are checked as they are read
(R63). -/
def moveTensor (t : State) (src dst : Desc) (key : Option (BitVec 32)) : Moved :=
  let out := dst.flat
  if src.sparseForm ≠ 0 then Moved.plain (t.runBytes src)
  else if src.empty then Moved.plain []
  else if src.fmt.isExact then
    let (rows, fails) := t.exactRows src
    if dst.fmt.isExact then
      let (words, sats) := exactToExact src.fmt dst.fmt rows
      let bs := ((scratch []).storeWords out words).runBytes out
      let r := statusRows words
      if src.fmt = dst.fmt then { Moved.plain bs with status := if fails = 0 then 0 else 4, fails := fails }
      else { Moved.plain bs with status := r.1, excess := r.2, sumSat := sats, fails := fails }
    else
      let r := statusRows rows
      let (m, sats, nans) := (scratch []).storeValues out key (rows.map (·.map (convertOut src.fmt src.anchor Q.one src.divisor)))
      { Moved.plain (m.runBytes out) with
        status := r.1, excess := r.2, sats := sats, nans := nans,
        stoch := if key.isSome then dst.count else 0, fails := fails }
  else if sameElements src dst then Moved.plain (t.runBytes src)
  else
    let vals := (t.values src).map (·.map src.withT)
    if dst.fmt.isExact then
      let sums := vals.map (·.map (Acc.addTerm dst.fmt dst.anchor Acc.empty))
      let words := sums.map (·.map Acc.word)
      let r := statusRows words
      { Moved.plain (((scratch []).storeWords out words).runBytes out) with
        status := r.1, excess := r.2, poison := sumN (sums.map (fun l => sumN (l.map (fun a => a.cnt.poison)))) }
    else
      let (m, sats, nans) := (scratch []).storeValues out key vals
      { Moved.plain (m.runBytes out) with sats := sats, nans := nans }

/-- What a move counts for its core (R39, R64, R71). -/
def State.countMoved (s : State) (c : Nat) (dst : Desc) (m : Moved) : State :=
  let s := s.countConv c 4 dst.fmt m.sats m.nans
  (s.countCores c [(0x68, m.poison), (0x69, m.sumSat), (0x6D, m.stoch)]).residueFails c m.fails

/-! ### Packets -/

/-- A length cut into pieces of at most `per`: their starts and lengths. -/
def cut (n per : Nat) : List (Nat × Nat) := (List.range (ceilDiv n per)).map (fun i => (i * per, min per (n - i * per)))

/-- A request packet not yet sent. -/
def outOf (pos : Nat) (p : Packet) : OutPkt := ⟨p, pos, none⟩

/-- Puts of a byte string from an address (R195). -/
def State.putPackets (s : State) (n c tc a : Nat) (bs : Bytes) : List OutPkt :=
  (cut bs.length 4096).map (fun r => outOf 0 (s.request n c opPut tc (a + r.1) 0 (slice bs r.1 r.2)))

/-- Puts of the runs of a tensor. -/
def State.putRuns (s : State) (n c tc : Nat) (places : List (Nat × Nat)) (bytes : List Bytes) : List OutPkt :=
  (List.zip places bytes).flatMap (fun e => s.putPackets n c tc e.1.1 e.2)

/-- Gets of the runs of a source, whose bytes follow one another (R195). -/
def State.getRuns (s : State) (n c tc : Nat) : Nat → List (Nat × Nat) → List OutPkt
  | _, [] => []
  | pos, r :: rs =>
    (cut r.2 4096).map (fun k => outOf (pos + k.1) (s.request n c opGet tc (r.1 + k.1) k.2 []))
      ++ s.getRuns n c tc (pos + r.2) rs

/-- The extension of a converting get (R193). -/
def convExt (d a : Desc) : Nat :=
  wrap 16 a.anchor * 2 ^ 240 + d.format * 2 ^ 220 + d.scaleMode * 2 ^ 218 + d.blockSize % 4 * 2 ^ 216
    + a.terms * 2 ^ 160 + a.divisorM1 % 2 ^ 24 * 2 ^ 136

/-- Converting gets (R175, R193): 256 elements of a row at a time, whose place is that of their bytes in the destination laid
out without gaps. -/
def State.convRuns (s : State) (n c tc : Nat) (d a : Desc) : List OutPkt :=
  (List.range a.rows).flatMap (fun r => (cut a.e0 256).map (fun k =>
    outOf (r * d.rowBytes + k.1 * d.fmt.width / 8)
      ((s.request n c opGet tc (a.rowAddr r + 16 * k.1) (2 ^ 16 + 16 * k.2) []).withExt (convExt d a))))

/-- Elements of an acc packet: whole blocks, within 4,096 payload bytes (R193, R195). -/
def accPer (a : Desc) : Nat :=
  if a.blocked then
    -- the largest number of blocks whose scale bytes, padded, and storage fit
    a.block * ((List.range 512).filter (fun k => decide (blocksLen k a.blockBytes ≤ 4096))).length.pred
  else 4096 * 8 / a.fmt.width

/-- The extension of an acc request (R193). -/
def accExt (d a : Desc) : Nat :=
  wrap 16 d.anchor * 2 ^ 240 + (if a.fmt = .da128 then wrap 16 a.anchor else 0) * 2 ^ 224 + a.format * 2 ^ 220
    + a.scaleMode * 2 ^ 218 + a.blockSize % 4 * 2 ^ 216 + (if a.scaleMode = 2 then a.tscale else 0) * 2 ^ 160

/-- The acc packets of a tensor (R193, R195). -/
def State.accRuns (s : State) (n c tc : Nat) (d a : Desc) : List OutPkt :=
  (List.range a.rows).flatMap (fun r =>
    let row := s.readBytes (a.rowAddr r) a.rowBytes
    let scales := if a.blocked then s.readBytes (a.scaleAddr r) a.nb else []
    (cut a.e0 (accPer a)).map (fun k =>
      let w := a.fmt.width
      let body := slice row (k.1 * w / 8) (k.2 * w / 8)
      let payload := if a.blocked then padMul 16 (slice scales (k.1 / a.block) (k.2 / a.block)) ++ body else body
      outOf 0 ((s.request n c opAcc tc (d.rowAddr r + 16 * k.1) k.2 payload).withExt (accExt d a))))

/-- The message packet (R97, R193). -/
def State.msgPacket (s : State) (n c tc dev k ring a len : Nat) : OutPkt :=
  outOf 0 { s.request n c opMsg tc 0 ring (s.readBytes (c * 2 ^ 21 + a) len) with
    dst := BitVec.ofNat 20 dev, dstCore := BitVec.ofNat 12 k }

/-- `n` bytes of the 8-byte pattern (R458). -/
def patternBytes (pat n : Nat) : Bytes :=
  let p := leBytes 8 pat
  (List.range n).map (fun i => p.getD (i % 8) 0)

/-! ### Sending -/

/-- Endpoint of the internal port that core c sends through (R10, R220, log 21). -/
def corePort (c : Nat) : Nat := 144 + 6 * (c / 192) + c % 6

/-- A packet of this device. -/
def ownAt : RxAt := ⟨none, 0, 0, 0⟩

/-- A packet given to an endpoint to be cut into cells (R222). -/
def State.inject (s : State) (x : Nat) (p : Packet) : State :=
  { s with txq := Sparse.modify [] s.txq x (fun l => l ++ [⟨p, ownAt, none, 0, none⟩]) }

/-- The die of a packet's target on this device, none outside the dies (R10). -/
def targetDie (p : Packet) : Option Nat :=
  let a := p.addrN
  if p.op = opMsg ∨ p.isFlag then (if p.dstCore.toNat < 1152 then some (p.dstCore.toNat / 192) else none)
  else if addrSpace a = 0 then some (addrOff a / 2 ^ 21 / 192)
  else if addrSpace a = 1 then some (if addrOff a < winBase then addrOff a / 2 ^ 38 else (addrOff a - winBase) / 2 ^ 36)
  else none

/-- Whether a request reaches its target over the die's own mesh and sends no packet (R10, R11, log 18). -/
def State.onDie (s : State) (c : Nat) (p : Packet) : Bool :=
  decide (p.dst.toNat = s.ownDev) && decide (targetDie p = some (c / 192))

/-- A core's window for a class (R209). -/
def Core.window (k : Core) (tc : Nat) : TxWindow := Sparse.get TxWindow.reset k.win tc

/-- The requests of a core's TXE that have no answer yet. -/
def Core.outstanding (k : Core) : List OutPkt := k.txe.flatMap QEntry.out

/-- The first tag from `t` on that no outstanding request of the core carries (R191, R195). -/
def freeTag (used : List Nat) : Nat → Nat → Nat
  | 0, t => t
  | fuel + 1, t => if used.contains t then freeTag used fuel ((t + 1) % 2 ^ 16) else t

/-- One request sent: it takes a tag and joins its operation's outstanding packets. -/
def State.sendOne (s : State) (c i : Nat) (o : OutPkt) : State :=
  let k := s.core c
  let t := freeTag (k.outstanding.map (fun x => x.pkt.tag.toNat)) 1024 k.nextTag
  let p := { o.pkt with tag := BitVec.ofNat 16 t }
  let s := s.setCore c { k with
    nextTag := (t + 1) % 2 ^ 16,
    txe := k.txe.modify i (fun e => { e with todo := e.todo.drop 1, out := e.out ++ [{ o with pkt := p }] }) }
  s.inject (corePort c) p

/-- Whether the window of a request's class has room (R209). -/
def Core.windowOpen (k : Core) (o : OutPkt) : Bool :=
  decide ((k.outstanding.filter (fun x => decide (x.pkt.tc = o.pkt.tc))).length < (k.window o.pkt.tc.toNat).size)

/-- Requests of entry i sent while its class's window has room; `fuel` bounds their number. -/
def State.sendEntry (s : State) (c i : Nat) : Nat → State
  | 0 => s
  | fuel + 1 =>
    let k := s.core c
    match (k.txe[i]?).bind (fun e => e.todo.head?) with
    | some o => if k.windowOpen o then (s.sendOne c i o).sendEntry c i fuel else s
    | none => s

/-- Requests waiting in a core's TXE sent, operations in issue order, as far as the windows allow (R209). -/
def State.sendAll (s : State) (c : Nat) : State :=
  (List.range (s.core c).txe.length).foldl (fun s i => s.sendEntry c i 64) s

/-! ### Answers -/

/-- Bytes of a get placed by their order (log 19). -/
def placeBytes (m : Sparse Byte) (pos : Nat) (bs : Bytes) : Sparse Byte :=
  bs.zipIdx.foldl (fun m e => Sparse.set 0 m (pos + e.2) e.1) m

/-- The bytes of an answered get kept: of a converting get its scale bytes apart from its elements (R193). -/
def QEntry.keep (e : QEntry) (o : OutPkt) (bs : Bytes) : QEntry :=
  match e.op with
  | .get d a _ _ =>
    if convertingGet d a then
      let n := field o.pkt.argN 12 0 / 16
      let nb := if d.blocked then n / d.block else 0
      let row := if d.rowBytes = 0 then 0 else o.pos / d.rowBytes
      let first := if d.blockBytes = 0 then 0 else o.pos % d.rowBytes / d.blockBytes
      let got := placeBytes e.got o.pos ((bs.drop (ceilDiv nb 16 * 16)).take (n * d.fmt.width / 8))
      { e with got := placeBytes got (d.rows * d.rowBytes + row * d.nb + first) (bs.take nb) }
    else { e with got := placeBytes e.got o.pos (bs.take (field o.pkt.argN 12 0)) }
  | _ => e

/-- An operation that was refused ends with its fault (R194, R195). -/
def State.endRefused (s : State) (c i status : Nat) : State :=
  match (s.core c).txe[i]? with
  | some e => (s.dropEntry c .txe i).coreFault c 4 (statusFault status) e.seq
  | none => s

/-- Request j of entry i answered (R97, R194, R195). A flag packet answered OK frees the entry (R96). -/
def State.answered (s : State) (c i j status : Nat) (bs : Bytes) : State :=
  match (s.core c).txe[i]? with
  | none => s
  | some e =>
    match e.out[j]? with
    | none => s
    | some o =>
      if status = stRingFull then
        s.setEntry c .txe i { e with out := e.out.set j { o with full := some s.now } }
      else if status ≠ stOk then s.endRefused c i status
      else
        let e := { e.keep o bs with out := e.out.eraseIdx j }
        if e.phase = .flagSent ∧ e.out = [] ∧ e.todo = [] then s.dropEntry c .txe i
        else s.setEntry c .txe i e

/-- A request to the core's own die carried out at once, its answer applied; `bad` is the status of a refusal. -/
def State.serveDirect (s : State) (c : Nat) (x : QEntry × Option Nat) (o : OutPkt) : State × QEntry × Option Nat :=
  match x with
  | (e, some st) => (s, e, some st)
  | (e, none) =>
    let (s, a) := s.serve o.pkt c s.ownDev
    if a.status = stOk then (s, e.keep o a.payload, none)
    else if a.status = stRingFull then
      let k := s.core c
      let t := freeTag ((k.outstanding ++ e.out).map (fun x => x.pkt.tag.toNat)) 1024 k.nextTag
      (s.setCore c { k with nextTag := (t + 1) % 2 ^ 16 },
        { e with out := e.out ++ [{ o with pkt := { o.pkt with tag := BitVec.ofNat 16 t }, full := some s.now }] }, none)
    else (s, e, some a.status)

/-! ### Start and completion -/

/-- The requests of an operation, and what it keeps for its completion: status and excess of a put, the digest's bytes. -/
def State.txeBuild (s : State) (c n : Nat) (e : QEntry) : State × QEntry × List OutPkt :=
  match e.op with
  | .put d a tc step _ =>
    let m := moveTensor s a d (s.sumKey c a d step)
    (s.countMoved c d m, { e with settings := [m.status, m.excess] }, s.putRuns n c tc d.places m.bytes)
  | .get d a tc _ =>
    (s, e, if convertingGet d a then s.convRuns n c tc d a else s.getRuns n c tc 0 a.places)
  | .acc d a tc _ => (s, e, s.accRuns n c tc d a)
  | .msg dev k r a len tc => (s, e, [s.msgPacket n c tc dev k r a len])
  | .digest _ h => (s, { e with got := placeBytes [] 0 (sm3 (s.runBytes h).flatten) }, [])
  | .fill d pat tc => (s, e, s.putRuns n c tc d.places (d.places.map (fun r => patternBytes pat r.2)))
  | _ => (s, e, [])

/-- Whether a request of an operation is carried out without a packet: on the core's own die, or a fill of this device's
own memory (R458). -/
def State.isDirect (s : State) (c : Nat) (op : QOp) (p : Packet) : Bool :=
  s.onDie c p || (match op with | .fill .. => decide (p.dst.toNat = s.ownDev) | _ => false)

/-- A TXE operation of parcel n at place i started: its checks, its local sources, its effects on its own die, and its
packets (R74, R81, R95). -/
def State.startTxe (s : State) (c n i : Nat) (e : QEntry) : State :=
  match lowest (s.txeFaults c n e.routine e.op) with
  | some code =>
    let s := if code = fAccessDenied then s.countRefused (s.txeDenied n e.op) else s
    s.coreFault c 4 code e.seq
  | none =>
    match firstSome ((txeSources c e.op).map (fun r => s.firstBad false r.1 r.2)) with
    | some k => (s.memUncorrected k).coreFault c 4 fMemUncorrected e.seq
    | none =>
      let e := { e with phase := .started, startAt := s.now }
      let (s, e, l) := s.txeBuild c n e
      let direct := l.filter (fun (o : OutPkt) => s.isDirect c e.op o.pkt)
      let e := { e with todo := l.filter (fun (o : OutPkt) => !s.isDirect c e.op o.pkt) }
      let s := s.setEntry c .txe i e
      let (s, e, bad) := direct.foldl (fun (x : State × QEntry × Option Nat) o => x.1.serveDirect c x.2 o) (s, e, none)
      -- the entry keeps the marks and the place it has; a halt in between leaves it where it stands
      let i := ((s.core c).txe.findIdx? (fun x => decide (x.seq = e.seq))).getD i
      match bad with
      | some st => (s.setEntry c .txe i e).endRefused c i st
      | none => (s.setEntry c .txe i e).sendAll c

/-- Bytes of runs written. -/
def State.writeRuns (s : State) (l : List ((Nat × Nat) × Bytes)) : State := l.foldl (fun s e => s.writeBytes e.1.1 e.2) s

/-- A get's data written to its destination (R96, R175, log 19): the state, the status and the excess. -/
def State.finishGet (s : State) (c : Nat) (d a : Desc) (got : Sparse Byte) : State × Nat × Nat :=
  let m :=
    if convertingGet d a then Moved.plain ((scratch got).runBytes d.flat)
    else if a.sparseForm ≠ 0 then
      -- a compressed tensor's runs follow one another in the order of its places
      Moved.plain ((a.places.foldl (fun (x : Nat × List Bytes) r =>
        (x.1 + r.2, x.2 ++ [(scratch got).readBytes x.1 r.2])) (0, [])).2)
    else moveTensor (scratch got) a.flat d none
  ((s.countMoved c d m).writeRuns (List.zip d.places m.bytes), m.status, m.excess)

/-- The first destination byte of an operation and its span, 0 and 0 of none (R192, R195). -/
def spanOf (l : List (Nat × Nat)) : Nat × Nat :=
  let l := l.filter (fun r => decide (r.2 ≠ 0))
  match l with
  | [] => (0, 0)
  | r :: rs =>
    let lo := rs.foldl (fun m x => min m x.1) r.1
    let hi := rs.foldl (fun m x => max m (x.1 + x.2)) (r.1 + r.2)
    (lo, hi - lo)

/-- The destination flag of a put or acc: its device, core, flag, class and range. -/
def QOp.remoteFlag : QOp → Option (Nat × Nat × Flag × Nat × (Nat × Nat))
  | .put d _ tc _ (some (k, f)) => some (addrDev d.base, k, f, tc.val, spanOf d.places)
  | .acc d _ tc (some (k, f)) => some (addrDev d.base, k, f, tc.val, spanOf d.places)
  | _ => none

/-- The effect a TXE operation has when it completes: the state, status, excess and the runs its increment marks. -/
def State.txeFinish (s : State) (c : Nat) (e : QEntry) : State × Nat × Nat × List (Nat × Nat) :=
  match e.op with
  | .get d a _ _ =>
    let (s, st, ex) := s.finishGet c d a e.got
    (s, st, ex, d.allRegions)
  | .put .. => (s, e.settings.getD 0 0, e.settings.getD 1 0, [])
  | .ring k h fp fc =>
    (s.modCore c (fun q => { q with rings := Sparse.set none q.rings k.val (some ⟨h.base, h.stride.1, h.e1, fp, fc⟩) }), 0, 0, [])
  | .digest a _ => (s.writeBytes (c * 2 ^ 21 + a) ((scratch e.got).readBytes 0 32), 0, 0, [])
  | _ => (s, 0, 0, [])

/-- A TXE operation whose every packet was answered OK completes: COMP, then its destination flag (R96, R195). -/
def State.completeTxe (s : State) (c n i : Nat) (e : QEntry) : State :=
  let (s, st, ex, region) := s.txeFinish c e
  let s := if st = 2 then s.countCore c 0x6B 1 else s
  let s := s.completeFlag c e.comp st ex region
  match e.op with
  | .get _ _ _ (some (k, f)) => (s.addFlag k f 1 []).dropEntry c .txe i
  | _ =>
    match e.op.remoteFlag with
    | none => s.dropEntry c .txe i
    | some (dev, k, f, tc, range) =>
      let p := s.flagPacket n c tc dev k f.val range
      if s.onDie c p then
        let (s, _) := s.serveFlag p
        s.dropEntry c .txe i
      else
        let e := ((s.core c).txe[i]?).getD e
        (s.setEntry c .txe i { e with phase := .flagSent, todo := [outOf 0 p] }).sendAll c

end Sys2Proof.Machine
end

