-- ==== Sys2Proof/Machine/Engines.lean ====
section
/-! DEFINITION. Operations starting and completing on the engines (R74, R81, R86, R88, R123, R142), the timeouts of waiting
operations (R86, R95, R97), and the power ramp governor (R75, R434). -/

namespace Sys2Proof.Machine

/-! ### The power ramp governor (R434) -/

/-- SPREAD of a RAMP_RATE (R434): the budget per slot b = RAMP_RATE × 64 mA admits ⌊b / 210⌋ cores a phase. -/
def spreadOf (rate : Nat) : Nat := ceilDiv 1152 (max 1 (rate * 64 / 210))

/-- SPREAD (R434). -/
def State.spread (s : State) : Nat := spreadOf (s.obj Obj.pow_RAMP_RATE)

/-- The first slot from `t` on whose place in the spread is core c's phase (R434). -/
def State.phaseSlot (s : State) (c t : Nat) : Nat := t + (c % s.spread + s.spread - t % s.spread) % s.spread

/-- Whether an engine is warm or running. -/
def Core.isWarm (k : Core) (q : Queue) : Bool := k.warm.testBit (queueIdx q)

/-- An engine that runs, warm from then on until it cools (R434). -/
def State.warmUp (s : State) (c : Nat) (q : Queue) : State :=
  s.modCore c (fun k => { k with warm := setBit k.warm (queueIdx q) true })

/-- A start on a cold engine held to the core's next phase slot; each hold is counted (R434). -/
def State.ramp (s : State) (c : Nat) (q : Queue) : State :=
  if (s.core c).isWarm q then s
  else
    let t := s.phaseSlot c s.slot
    if t = s.slot then s else (s.advanceTo (t * 1024)).bump Obj.pow_RAMP_HELD

/-- Whether an operation of an engine is running. -/
def Core.running (k : Core) (q : Queue) : Bool := (k.queue q).any (fun e => decide (e.phase ≠ .waiting))

/-- The start of a core's phase slot: its idle engines become cold (R434). -/
def execRampCooling (c : CoreId) (s : State) : Out :=
  let t := s.phaseSlot c (ceilDiv s.now 1024)
  let s := s.advanceTo (t * 1024)
  .next (s.modCore c (fun k =>
    let w := [Queue.mxe, .vxe, .spe, .txe].foldl (fun w q => if k.running q then w else setBit w (queueIdx q) false) k.warm
    { k with warm := w }))

/-! ### Start -/

/-- The parcel of a core that issues; a core in no parcel executes nothing (R13). -/
def State.parcelOf (s : State) (c : Nat) : Nat := (s.coreParcel c).getD 0

/-- The descriptor checks of an MXE, VXE or SPE operation (R81). -/
def State.engineFaults (s : State) (c : Nat) (routine : Bool) : QOp → List Nat
  | .mm d a b clr step => productChecks c routine d a b clr step ++ mmShape d a b
  | .mmg d a b _ _ axis clr step => productChecks c routine d a b clr step ++ mmgShape d a b axis
  | .drain a d step => drainChecks c routine a d step
  | .map d a fn => mapChecks c routine d a fn
  | .zip d a b fn => zipChecks c routine d a b fn
  | .fma d a b e => fmaChecks c routine d a b e
  | .red d a k op _ step => redChecks c routine d a k op step
  | .conv d a step => convChecks c routine d a step
  | .rand d stream _ => randChecks c routine (decide (s.parMode (s.parcelOf c) = 1)) d stream
  | .speMm d a b clr _ step => speChecks c routine d a b clr step
  | .pack d a _ => packChecks c routine d a
  | _ => []

/-- The settings an operation starts with (R138, R156). -/
def State.opSettings (s : State) : QOp → List Nat
  | .mm .. => s.watchSettings
  | .mmg .. => s.watchSettings
  | .speMm .. => [s.obj Obj.spe_SP_HANDOFF, s.obj Obj.spe_SP_THRESH_4, s.obj Obj.spe_SP_THRESH_8, s.obj Obj.spe_SP_THRESH_16]
  | _ => []

/-- The check pass of an SPE operation: its fault, recorded (R142, R152, R155). -/
def State.spePass (s : State) (c : Nat) : QOp → State × Option Nat
  | .speMm d a b _ _ _ =>
    if d.empty && a.empty && b.empty then (s, none)
    else match s.metaCheck a with
      | some m => (s.recordMeta c m, some m.code)
      | none => (s, none)
  | .pack d a prune =>
    match (packPlan d prune (s.packValues a)).fault with
    | some code => (s.bump Obj.spe_SP_FAULTS_TOTAL, some code)
    | none => (s, none)
  | _ => (s, none)

/-- The tensors of an operation of an MXE, VXE or SPE that nothing may write while it runs, and its output among them (R99). The
gathered pieces of an `mxe.mmg` are written while it runs. -/
def QOp.operands : QOp → List Desc × List Desc
  | .mm d a b _ _ => ([d, a, b], [d])
  | .mmg d _ b _ _ _ _ _ => ([d, b], [d])
  | .drain a d _ => ([a, d], [d])
  | .map d a _ => ([d, a], [d])
  | .zip d a b _ => ([d, a, b], [d])
  | .fma d a b x => ([d, a, b, x], [d])
  | .red d a _ _ _ _ => ([d, a], [d])
  | .conv d a _ => ([d, a], [d])
  | .rand d _ _ => ([d], [d])
  | .speMm d a b _ _ _ => ([d, a, b], [d])
  | .pack d a _ => ([d, a], [d])
  | _ => ([], [])

/-- The bytes of an operation's operands. -/
def State.opImage (s : State) (op : QOp) : Bytes :=
  (op.operands.1.flatMap Desc.allRegions).flatMap (fun r => s.readBytes r.1 r.2)

/-- The operation at the head of an MXE, VXE or SPE queue started (R81, R142). -/
def State.startEngine (s : State) (c : Nat) (q : Queue) (i : Nat) (e : QEntry) : State :=
  match lowest (s.engineFaults c e.routine e.op) with
  | some code => s.coreFault c (queueCode q) code e.seq
  | none =>
    match s.spePass c e.op with
    | (s, some code) => s.coreFault c (queueCode q) code e.seq
    | (s, none) =>
      s.setEntry c q i
        { e with phase := .started, startAt := s.now, settings := s.opSettings e.op, image := s.opImage e.op }

/-- The operation at the head of a queue starts once its gate is satisfied and the governor lets it (R74, R75, R86). -/
def execEngineOpStart (c : CoreId) (q : Queue) (errs : List MemErr) (s : State) : Out :=
  let k := s.core c
  match k.headIdx q with
  | none => .next s
  | some i =>
    match (k.queue q)[i]? with
    | none => .next s
    | some e =>
      if k.gateOpen e then
        let s := (((s.ramp c q).plant errs).warmUp c q)
        .next (if q = .txe then s.startTxe c (s.parcelOf c) i e else s.startEngine c q i e)
      else .next s

/-! ### Completion -/

/-- What an engine operation does when it completes with its operands untouched: the state, its status and its excess (R66, R88). -/
def State.runBody (s : State) (c : Nat) (e : QEntry) (rep : EngineReport) : State × Nat × Nat :=
  match e.op with
  | .mm d a b clr step => s.runMm c d a b clr step e.settings rep
  | .mmg d a b _ _ axis clr step => s.runMmg c d a b axis clr step e.marks e.settings rep
  | .drain a d step => s.runDrain c a d step
  | .map d a fn => s.runMap c d a fn
  | .zip d a b fn => s.runZip c d a b fn
  | .fma d a b x => s.runFma c d a b x
  | .red d a k op clr step => s.runRed c d a k op clr step
  | .conv d a step => s.runConv c d a step
  | .rand d stream step => s.runRand c d stream step
  | .speMm d a b clr routeSpe step => s.runSpeMm c d a b clr routeSpe step e.settings rep
  | .pack d a prune => s.runPack c d a prune
  | _ => (s, 0, 0)

/-- What an engine operation does when it completes. Its results are not guaranteed, and its output and status are free values, where
an operand was written while it ran (R99, R142) or a piece was filled by several transfers (R123). -/
def State.runOp (s : State) (c : Nat) (e : QEntry) (rep : EngineReport) : State × Nat × Nat :=
  let r := s.runBody c e rep
  if e.spoilt || decide (s.opImage e.op ≠ e.image) then
    let (v, t) := r.1.fresh
    (t.freeRegions (e.op.operands.2.flatMap Desc.allRegions), v % 5, v / 5 % 16)
  else r

/-- The timing counters of an operation (R39, R119, R137, R150, R151, R155, log 9). -/
def State.countTiming (s : State) (c : Nat) (q : Queue) (rep : EngineReport) : State :=
  match q with
  | .mxe => s.countCores c [(0x83, rep.cycles), (0x85, rep.prescanWait)]
  | .vxe => s.countCores c [(0x84, rep.cycles)]
  | .spe => s.countCores c [(0x90, rep.cycles), (0x83, rep.mxeBusy), (0x95, rep.steals), (0x96, rep.bankStall),
      (0x97, rep.bankQueued), (0x98, rep.handoffDelay)]
  | .txe => s

/-- Whether a started operation can complete: an `mxe.mmg` once every piece was marked or its flag has reached b + np
(R122). -/
def Core.canComplete (k : Core) (e : QEntry) : Bool :=
  match e.op with
  | .mmg _ a _ f base _ _ _ =>
    decide (a.e2 ≤ e.marks.length) || flagGe (k.flag f) (BitVec.ofNat 32 (base + a.e2))
  | _ => true

/-- A started operation of an MXE, VXE or SPE completes (R88, R120, R122). -/
def State.completeEngine (s : State) (c : Nat) (q : Queue) (i : Nat) (e : QEntry) (rep : EngineReport) : State :=
  let (s, st, ex) := s.runOp c e rep
  let s := s.countTiming c q rep
  let s := if st = 2 then s.countCore c 0x6B 1 else s
  (s.completeFlag c e.comp st ex []).dropEntry c q i

/-- A started operation completes: its effect, its flag with status and excess, its entry freed (R73, R88, R96). -/
def execEngineOpComplete (c : CoreId) (q : Queue) (i : Nat) (rep : EngineReport) (s : State) : Out :=
  match ((s.core c).queue q)[i]? with
  | none => .next s
  | some e =>
    if e.phase = .started then
      if q = .txe then
        .next (if e.todo = [] ∧ e.out = [] then s.completeTxe c (s.parcelOf c) i e else s)
      else .next (if (s.core c).canComplete e then s.completeEngine c q i e rep else s)
    else .next s

/-! ### Timeouts -/

/-- GATE_TIMEOUT of a core's parcel in Fabric Time (R111). -/
def State.gateTime (s : State) (c : Nat) : Nat := s.obj (Obj.partmo_GATE_TIMEOUT (s.parcelOf c)) * 1024

/-- REMOTE_TIMEOUT of a core's parcel in Fabric Time (R111). -/
def State.remoteTime (s : State) (c : Nat) : Nat := s.obj (Obj.partmo_REMOTE_TIMEOUT (s.parcelOf c)) * 1024

/-- The gate timeout of the operation at a queue's head (R86). -/
def execGateTimeout (c : CoreId) (q : Queue) (s : State) : Out :=
  let k := s.core c
  match (k.headIdx q).bind (fun i => (k.queue q)[i]?) with
  | some e =>
    match e.gate, e.headAt with
    | some (f, v), some t =>
      let d := t + s.gateTime c
      let s' := s.advanceTo d
      .next (if !k.gateOpen e ∧ d ≤ s'.now then
        s'.coreFaultWith c (queueCode q) fWaitExpired e.seq (some (f.val, v, (k.flag f).toNat)) 0 else s)
    | _, _ => .next s
  | none => .next s

/-- The wait of an `mxe.mmg` for its pieces (R123). -/
def execMmgWaitExpired (c : CoreId) (s : State) : Out :=
  let k := s.core c
  match k.mxe with
  | e :: _ =>
    match e.op with
    | .mmg _ a _ f base _ _ _ =>
      let d := e.startAt + s.gateTime c
      let want := (base + a.e2) % 2 ^ 32
      let s' := s.advanceTo d
      .next (if e.phase = .started ∧ !flagGe (k.flag f) (BitVec.ofNat 32 want) ∧ d ≤ s'.now then
        (s'.dropEntry c .mxe 0).coreFaultWith c 1 fWaitExpired e.seq (some (f.val, want, (k.flag f).toNat)) 0 else s)
    | _ => .next s
  | [] => .next s

/-- A TXE operation, or its flag packet, that was not answered within REMOTE_TIMEOUT of the operation's start (R95, R96). -/
def execRemoteTimeout (c : CoreId) (i : Nat) (s : State) : Out :=
  match (s.core c).txe[i]? with
  | some e =>
    let d := e.startAt + s.remoteTime c
    let s' := s.advanceTo d
    let n := s.parcelOf c
    -- a rollback, a stop and a reclaim await the responses still due, and an expiry ends the wait (R362, R369)
    let waiting := decide (s.jobState n = 3) || decide (s.parState n = 4) || decide (2 ≤ (s.parcel n).reclaim)
    .next (if e.phase ≠ .waiting ∧ (e.out ≠ [] ∨ e.todo ≠ []) ∧ d ≤ s'.now then
      (if waiting then s'.dropEntry c .txe i else (s'.dropEntry c .txe i).coreFault c 4 fRemoteTimeout e.seq) else s)
  | none => .next s

/-- The place of an outstanding request of a core's TXE by its tag. -/
def Core.findOut (k : Core) (tag : Nat) : Option (Nat × Nat) :=
  firstSome (k.txe.mapIdx (fun i e => (e.out.findIdx? (fun o => decide (o.pkt.tag.toNat = tag))).map (fun j => (i, j))))

/-- A request answered RING_FULL sent again one slot later, until REMOTE_TIMEOUT (R97). -/
def State.resendCore (s : State) (c tag : Nat) : State :=
  match (s.core c).findOut tag with
  | none => s
  | some (i, j) =>
    match (s.core c).txe[i]? with
    | none => s
    | some e =>
      match e.out[j]? with
      | none => s
      | some o =>
        match o.full with
        | none => s
        | some t =>
          let s' := s.advanceTo (t + 1024)
          if t + 1024 ≤ s'.now ∧ s'.now < e.startAt + s.remoteTime c then
            let s' := s'.setEntry c .txe i { e with out := e.out.set j { o with full := none } }
            if s'.onDie c o.pkt then
              let (s', a) := s'.serve o.pkt c s'.ownDev
              s'.answered c i j a.status a.payload
            else s'.inject (corePort c) o.pkt
          else s

end Sys2Proof.Machine
end

