-- ==== Sys2Proof/Machine/Pool.lean ====
section
/-! DEFINITION. The buffer pool manager: allocation, release and sharing (R230 to R235), what is held and by whom
(R207, R228, R237), levels (R236) and the counts that the pool objects read (R240, R243). Pool 0 holds cells, pool 1 pages. -/

namespace Sys2Proof.Machine

/-- NIL (R230). -/
def nil : Nat := 0x1FFFFFF

/-- The capacity of a pool (R240). -/
def State.poolCap (s : State) (q : Nat) : Nat := if q = 0 then 786432 else s.obj Obj.mem_SPILL_GIB * 262144

/-- A pool. -/
def State.pool (s : State) (q : Nat) : Pool := if q = 0 then s.sw.cells else s.sw.pages

/-- A pool replaced. -/
def State.setPool (s : State) (q : Nat) (p : Pool) : State :=
  if q = 0 then { s with sw := { s.sw with cells := p } } else { s with sw := { s.sw with pages := p } }

/-- A pool changed, HIGH_WATER kept (R240). -/
def State.putPool (s : State) (q : Nat) (p : Pool) : State := (s.setPool q p).raiseObj (Obj.pool_HIGH_WATER q) p.used

/-- A header word read. -/
def Pool.rd (p : Pool) (b : Nat) : Nat := Sparse.get 0 p.words b

/-- A header word written. -/
def Pool.wr (p : Pool) (b w : Nat) : Pool := { p with words := Sparse.set 0 p.words b w }

/-- REF of a header word. -/
def refOf (w : Nat) : Nat := field w 62 55

/-- A corrupt list (R235). -/
def State.listCorrupt (s : State) (q b : Nat) : State :=
  let s := s.setPool q { s.pool q with stopped := true }
  (s.bump (Obj.pool_LIST_CORRUPT q)).raise ⟨3, 4, none, 0x0510, 0xFFFF, b⟩

/-- `alloc` of R231; none when the pool is empty, has stopped, or is found corrupt. -/
def State.alloc (s : State) (q : Nat) : State × Option Nat :=
  let p := s.pool q
  if p.stopped then (s, none)
  else if p.head ≠ nil then
    let b := p.head
    let h := p.rd b
    if h.testBit 63 then (s.listCorrupt q b, none)
    else
      let p := { p.wr b (2 ^ 63 + 2 ^ 55 + nil * 2 ^ 30) with head := field h 54 30, used := p.used + 1 }
      (s.putPool q p, some b)
  else if p.fresh = s.poolCap q then (s, none)
  else
    let b := p.fresh
    let p := { p.wr b (2 ^ 63 + 2 ^ 55 + nil * 2 ^ 30) with fresh := b + 1, used := p.used + 1 }
    (s.putPool q p, some b)

/-- `refuse` of R231 with R233: code 1 DOUBLE_FREE, 2 BAD_INDEX, 3 REF_OVERFLOW. -/
def State.refuseBuf (s : State) (q b code : Nat) : State :=
  let counter := if code = 1 then Obj.pool_DOUBLE_FREE q else if code = 2 then Obj.pool_BAD_INDEX q else Obj.pool_REF_OVERFLOW q
  let s := s.bump counter
  let s := if s.obj (Obj.pool_FIRST_REFUSED_CODE q) = 0 then
      (s.setObj (Obj.pool_FIRST_REFUSED_BUF q) b).setObj (Obj.pool_FIRST_REFUSED_CODE q) code else s
  let training := [0, 1, 2, 3].any (fun n => decide (s.parMode n = 2 ∧ s.parState n = 3))
  s.raise ⟨if code ≠ 3 && training then 2 else 0, 4, none, 0x0500 + code, 0xFFFF, b⟩

/-- `release` of R231, and whether the buffer was freed. -/
def State.release (s : State) (q b : Nat) : State × Bool :=
  let p := s.pool q
  if p.fresh ≤ b then (s.refuseBuf q b 2, false)
  else
    let h := p.rd b
    if !h.testBit 63 then (s.refuseBuf q b 1, false)
    else if 1 < refOf h then (s.setPool q (p.wr b (h - 2 ^ 55)), false)
    else (s.setPool q { p.wr b (p.head * 2 ^ 30) with head := b, used := p.used - 1 }, true)

/-- `share` of R231: n references added, or refused. -/
def State.share (s : State) (q b n : Nat) : State :=
  let p := s.pool q
  if p.fresh ≤ b then s.refuseBuf q b 2
  else
    let h := p.rd b
    if !h.testBit 63 then s.refuseBuf q b 1
    else if 255 < refOf h + n then s.refuseBuf q b 3
    else s.setPool q (p.wr b (h + n * 2 ^ 55))

/-- FIRST, LAST, LEN and NEXT of an allocated buffer, its ALLOC and REF kept (R230). -/
def State.describe (s : State) (q b next : Nat) (first last : Bool) (len : Nat) : State :=
  let p := s.pool q
  let h := p.rd b
  s.setPool q (p.wr b (field h 63 55 * 2 ^ 55 + next * 2 ^ 30 + b2n first * 2 ^ 29 + b2n last * 2 ^ 28 + len * 2 ^ 20))

/-- NEXT of an allocated buffer. -/
def State.linkBuf (s : State) (q b next : Nat) : State :=
  let p := s.pool q
  let h := p.rd b
  s.setPool q (p.wr b (field h 63 55 * 2 ^ 55 + next * 2 ^ 30 + field h 29 0))

/-! ### Levels (R236) -/

/-- Level T of a pool, in buffers (R236). -/
def State.levelOf (s : State) (q t : Nat) : Nat := s.poolCap q * t / 256
/-- WARN, in buffers. -/
def State.warnLevel (s : State) (q : Nat) : Nat := s.levelOf q (s.obj (Obj.pool_WARN q))
/-- BACKPRESSURE, in buffers. -/
def State.bpLevel (s : State) (q : Nat) : Nat := s.levelOf q (s.obj (Obj.pool_BACKPRESSURE q))
/-- CRITICAL, in buffers. -/
def State.critLevel (s : State) (q : Nat) : Nat := s.levelOf q (s.obj (Obj.pool_CRITICAL q))

/-- Which of the tests of `above` held last: 0 WARN and 1 BACKPRESSURE of cells, 2 and 3 of pages, 4 + n limit of parcel n. -/
def State.wasAbove (s : State) (i : Nat) : Bool := s.sw.above.getD i false

/-- Whether a class is lossless (R245). -/
def State.lossless (s : State) (c : Nat) : Bool := (s.obj Obj.cls_LOSSLESS).testBit c

/-- The parcel an endpoint's cells are charged to (R237): of an internal port its die's parcel, of a stream engine
attachment that of its engines. -/
def State.chargeOf (s : State) (x : Nat) : Option Nat :=
  if 144 ≤ x ∧ x < 180 then s.dieParcel ((x - 144) / 6)
  else if 180 ≤ x ∧ x < 204 then (s.steParcel (2 * (x - 180))).or (s.steParcel (2 * (x - 180) + 1))
  else none

/-- Parcel n's limit (R237). -/
def State.poolLimit (s : State) (n : Nat) : Nat := max 4096 (s.bpLevel 0 * s.obj (Obj.par_SWITCH_SHARE n) / 64)

/-- Cells charged to parcel n (R243). -/
def State.charged (s : State) (n : Nat) : Nat := (s.sw.info.filter (fun e => decide (e.1 < 2 ^ 20) && decide (e.2.charge = some n))).length

/-- Cells on die of one kind (R228). -/
def State.cellsOf (s : State) (k : CellKind) : Nat := (s.sw.info.filter (fun e => decide (e.1 < 2 ^ 20) && decide (e.2.kind = k))).length

/-- The lossless sum S (R228). -/
def State.losslessSum (s : State) : Nat :=
  let perInput := sumN ((List.range 144).map (fun p => 5 * s.obj (Obj.sw_CREDIT_SCALE p))) + 36 + 41
  perInput * sumN ((List.range 8).map (fun c => if s.lossless c then s.obj (Obj.lim_CREDIT c) else 0))

/-- LOSSY_ALLOW (R228). -/
def State.lossyAllow (s : State) : Nat := s.poolCap 0 - s.losslessSum - 4096

/-! ### Who a buffer is accounted to (R207, R228, R237) -/

/-- The key of a page slot's record. -/
def slotKey (p slot : Nat) : Nat := 2 ^ 20 + 16 * p + slot

/-- A buffer's record. -/
def State.cellInfo (s : State) (k : Nat) : CellInfo := Sparse.get CellInfo.reset s.sw.info k

/-- A buffer's record set. -/
def State.setInfo (s : State) (k : Nat) (i : CellInfo) : State :=
  { s with sw := { s.sw with info := Sparse.set CellInfo.reset s.sw.info k i } }

/-- Returns of a class's credits are withheld at an input (R207, R236, R237): lossless returns above the cell pool's
BACKPRESSURE, and those of a parcel's ports above its limit. -/
def State.withheld (s : State) (x c : Nat) : Bool :=
  s.lossless c && (s.wasAbove 1 || (match s.chargeOf x with | some n => s.wasAbove (4 + n) | none => false))

/-- One credit of key 40 × input + pair returned at once: granted to the peer of a fabric port, no longer taken at any
other input (R207). -/
def State.grant (s : State) (key : Nat) : State :=
  let x := key / 40
  if x < 125 then
    { s with links := Sparse.modify Link.reset s.links x (fun l =>
        { l with granted := Sparse.modify 0 l.granted (key % 40) (fun n => (n + 1) % 2 ^ 16) }) }
  else { s with sw := { s.sw with taken := Sparse.modify 0 s.sw.taken key (· - 1) } }

/-- One credit returned, or owed while its return is withheld. A service port has no credits: its count is of cells held
(R252). -/
def State.giveBack (s : State) (key : Nat) : State :=
  let x := key / 40
  if !(decide (125 ≤ x) && decide (x < 144)) && s.withheld x (key % 40 / 5) then
    { s with sw := { s.sw with owed := Sparse.modify 0 s.sw.owed key (· + 1) } }
  else s.grant key

/-- Cells of class c that service port p holds (R252). -/
def State.svcHeld (s : State) (p c : Nat) : Nat := Sparse.get 0 s.sw.taken (40 * p + 5 * c)

/-- A cell released; when that frees it, its credit returns and its record ends (R207, R231). -/
def State.releaseCell (s : State) (b : Nat) : State :=
  match s.release 0 b with
  | (s, false) => s
  | (s, true) =>
    let i := s.cellInfo b
    let s := s.setInfo b CellInfo.reset
    let s := { s with sw := { s.sw with shared := s.sw.shared.filter (fun e => decide (e.2 ≠ b + 1)) } }
    match i.credit with
    | some k => s.giveBack k
    | none => s

/-! ### Queues and counts (R226, R229, R242) -/

/-- The key of an output queue (R226). -/
def queueKey (x c h : Nat) : Nat := 40 * x + 5 * c + h

/-- An output queue. -/
def State.outQ (s : State) (k : Nat) : OutQ := Sparse.get OutQ.reset s.sw.queues k

/-- An output queue replaced. -/
def State.setOutQ (s : State) (k : Nat) (q : OutQ) : State :=
  { s with sw := { s.sw with queues := Sparse.set OutQ.reset s.sw.queues k q } }

/-- The cells of a queue in order. -/
def OutQ.cells (q : OutQ) : List CellAt := q.pkts.flatMap QPkt.cells

/-- Whether a cell lies in a page. -/
def CellAt.spilled : CellAt → Bool
  | .die _ => false
  | .page _ _ => true

/-- Occupancy of class c at output x, over all hop sets and spilled cells included (R229). -/
def State.occupancy (s : State) (x c : Nat) : Nat :=
  sumN ([0, 1, 2, 3, 4].map (fun h => (s.outQ (queueKey x c h)).cells.length))

/-- Cells of an output's queues that satisfy a test. -/
def State.outCells (s : State) (x : Nat) (f : CellAt → Bool) : Nat :=
  sumN ((s.sw.queues.filter (fun e => decide (e.1 / 40 = x))).map (fun e => (e.2.cells.filter f).length))

/-- OQ_CELLS (R242). -/
def State.oqCells (s : State) (x : Nat) : Nat := s.outCells x (fun c => !c.spilled)
/-- OQ_SPILLED (R242). -/
def State.oqSpilled (s : State) (x : Nat) : Nat := s.outCells x CellAt.spilled

/-- ENTRIES_FREE (R226, R240). -/
def State.entriesFree (s : State) : Nat := 1048576 - sumN (s.sw.queues.map (fun e => e.2.pkts.length))

/-- Buffers of a pool that queues, stages and outputs hold (R240): UNACCOUNTED is IN_USE less these. -/
def State.poolHeld (s : State) (q : Nat) : Nat :=
  let queued := s.sw.queues.flatMap (fun e => e.2.cells)
  let sending := s.sw.outs.flatMap (fun e => match e.2.sending with | some p => p.cells | none => [])
  if q = 0 then
    let die := (queued ++ sending).filterMap (fun c => match c with | .die b => some b | .page _ _ => none)
    let parts := s.sw.parts.flatMap (fun e => match e.2 with | some p => p.bufs | none => [])
    let staged := s.sw.stages.flatMap (fun e => e.2.cells.filterMap StCell.buf)
    (die ++ parts ++ staged).eraseDups.length
  else (queued.filterMap (fun c => match c with | .die _ => none | .page p _ => some p)).eraseDups.length

/-- A packet lost to an empty cell pool or entry memory (R234): counted; a lossless one is entered as advisory. -/
def State.emptyDrop (s : State) (c : Nat) : State :=
  let s := s.bump (Obj.pool_EMPTY_DROPS 0)
  if s.lossless c then s.advise 4 none 0x0511 0xFFFF 0 else s

end Sys2Proof.Machine
end

