-- ==== Sys2Proof/Machine/Route.lean ====
section
/-! DEFINITION. Topology, ports and routing (R199 to R205), and where a packet for this device is delivered (R221, R294). -/

namespace Sys2Proof.Machine

/-! ### Topology (R199 to R201) -/

/-- Coordinate dk of a logical id (R8). -/
def coord (id k : Nat) : Nat := id / 32 ^ k % 32

/-- Dimensions used (R199). -/
def State.dims (s : State) : Nat := s.obj Obj.topo_TOPO_DIMS
/-- SIZE of dimension k. -/
def State.sizeD (s : State) (k : Nat) : Nat := s.obj (Obj.topo_SIZE k)
/-- TRUNK of dimension k. -/
def State.trunkD (s : State) (k : Nat) : Nat := s.obj (Obj.topo_TRUNK k)
/-- Whether each D0 group has a spare. -/
def State.hasSpares (s : State) : Bool := decide (s.obj Obj.topo_SPARES = 1)
/-- Whether this device is a spare (R217). -/
def State.onSpare (s : State) : Bool := decide (s.obj Obj.topo_POSITION = 32)
/-- Coordinate k of this device; that of D0 is its position, 32 on a spare. -/
def State.ownCoord (s : State) (k : Nat) : Nat :=
  if k = 0 then s.obj Obj.topo_POSITION else coord (s.obj Obj.topo_GROUP * 32) k

/-- Peers of dimension k that a layout gives ports (R200). -/
def State.peersD (s : State) (k : Nat) : Nat := s.sizeD k - 1 + b2n (decide (k = 0) && s.hasSpares)

/-- base_k of R200. -/
def State.baseD (s : State) : Nat → Nat
  | 0 => 0
  | k + 1 => s.baseD k + s.peersD k * s.trunkD k

/-- The ports toward index j of dimension k, in the order of the trunk's members (R201). -/
def State.trunk (s : State) (k j : Nat) : List Nat :=
  (List.range (s.trunkD k)).map (fun m => s.baseD k + j * s.trunkD k + m)

/-- The local index of position q in dimension k (R201). -/
def State.localIdx (s : State) (k q : Nat) : Nat :=
  if k = 0 ∧ s.onSpare then q
  else if q < s.ownCoord k then q else q - 1

/-- The ports toward position q of dimension k; position 32 of D0 is the spare (R201). -/
def State.toward (s : State) (k q : Nat) : List Nat :=
  if k = 0 ∧ q = 32 then (if s.hasSpares && !s.onSpare then s.trunk 0 (s.sizeD 0 - 1) else [])
  else s.trunk k (s.localIdx k q)

/-- Whether a port's link is up (R216). -/
def State.linkUp (s : State) (p : Nat) : Bool :=
  decide (s.obj (Obj.port_LINK_STATE p) = 2) || decide (s.obj (Obj.port_LINK_STATE p) = 3)

/-- A destination that can be routed (R199). -/
def State.routable (s : State) (dst : Nat) : Bool :=
  [0, 1, 2, 3].all (fun k => if k < s.dims then decide (coord dst k < s.sizeD k) else decide (coord dst k = 0))

/-! ### The peer expected on a port (R190, R201) -/

/-- The position at local index j of dimension k, the inverse of `localIdx`; 32 for the spare. -/
def State.posAt (s : State) (k j : Nat) : Nat :=
  if k = 0 ∧ s.onSpare then j
  else if k = 0 ∧ j = s.sizeD 0 - 1 then 32
  else if j < s.ownCoord k then j else j + 1

/-- The dimension, local index and trunk member of a fabric port, none beyond the layout. -/
def State.place3 (s : State) (p : Nat) : Option (Nat × Nat × Nat) :=
  match ([0, 1, 2, 3].filter (fun k => decide (k < s.dims))).find? (fun k => decide (s.baseD k ≤ p) && decide (p < s.baseD (k + 1))) with
  | none => none
  | some k => some (k, (p - s.baseD k) / s.trunkD k, (p - s.baseD k) % s.trunkD k)

/-- GROUP, POSITION and PORT that a control unit received on port p must carry (R190, R201). -/
def State.expected (s : State) (p : Nat) : Option (Nat × Nat × Nat) :=
  match s.place3 p with
  | none => none
  | some (k, j, m) =>
    let g := s.obj Obj.topo_GROUP
    let q := s.posAt k j
    let own := s.ownCoord k
    let w := s.trunkD k
    if k = 0 then
      -- the peer reaches this device at its own local index
      let back := if q = 32 then own else if s.onSpare then s.sizeD 0 - 1 else if own < q then own else own - 1
      some (g, q, s.baseD 0 + back * w + m)
    else
      let peerGroup := g - coord (g * 32) k * 32 ^ (k - 1) + q * 32 ^ (k - 1)
      let back := if own < q then own else own - 1
      some (peerGroup, s.obj Obj.topo_POSITION, s.baseD k + back * w + m)

/-! ### Credits of a link (R207) -/

/-- The credits available for class c and hop set h on fabric port p. -/
def State.creditsOf (s : State) (p c h : Nat) : Nat :=
  let l := Sparse.get Link.reset s.links p
  let i := 5 * c + h
  (l.creditInit.getD i 0 + Sparse.get 0 l.returned i + (2 ^ 16 - Sparse.get 0 l.consumed i % 2 ^ 16)) % 2 ^ 16

/-! ### Routes (R202 to R205) -/

/-- How a packet leaves the input stage. -/
inductive Route where
  /-- to external port `p`, with DETOUR set on it when `detour` -/
  | out (p : Nat) (detour : Bool)
  /-- to endpoint `x` of this device -/
  | here (x : Nat)
  | noRoute
  deriving DecidableEq, Repr

/-- ROUTE 0: member (SRC + DST) mod W, or the first after it whose link is up (R202). -/
def State.fixedMember (s : State) (p : Packet) (ports : List Nat) : Option Nat :=
  let w := ports.length
  let m := (p.src.toNat + p.dst.toNat) % (max w 1)
  ((ports.drop m) ++ ports.take m).find? s.linkUp

/-- ROUTE 1: the port with the most credits, ties to the first in the order given (R202). -/
def State.mostCredits (s : State) (c h : Nat) (ports : List Nat) : Option Nat :=
  (ports.filter s.linkUp).foldl (fun (b : Option Nat) p =>
    match b with
    | none => some p
    | some q => if s.creditsOf q c h < s.creditsOf p c h then some p else some q) none

/-- The member of one trunk by the packet's ROUTE. -/
def State.member (s : State) (adaptive : Bool) (p : Packet) (h : Nat) (ports : List Nat) : Option Nat :=
  if adaptive then s.mostCredits p.tc.toNat h ports else s.fixedMember p ports

/-- The port of a packet that is not for this device; h is the hop set of its next link (R202, R204, R205). -/
def State.routePort (s : State) (p : Packet) (h : Nat) : Route :=
  let dst := p.dst.toNat
  if !s.routable dst || decide (p.route = 2) then .noRoute
  else
    let adaptive := decide (p.route = 1) || (s.onSpare && p.detour)
    let todo := [1, 2, 3].filter (fun k => decide (k < s.dims) && decide (coord dst k ≠ s.ownCoord k))
    match todo with
    | k :: _ =>
      let cand := if adaptive then todo.flatMap (fun k => s.toward k (coord dst k)) else s.toward k (coord dst k)
      match s.member adaptive p h cand with
      | some q => .out q false
      | none =>
        if p.detour || s.onSpare then .noRoute
        else match s.member adaptive p h (s.toward 0 32) with
          | some q => .out q true
          | none => .noRoute
    | [] =>
      let q := coord dst 0
      let q := if !s.onSpare && s.hasSpares && decide (q = s.standin) then 32 else q
      match s.member adaptive p h (s.toward 0 q) with
      | some x => .out x false
      | none => .noRoute

/-! ### Local delivery (R221) -/

/-- C of a core. -/
def coreEnd (c : Nat) : Nat := 144 + 6 * (c / 192) + c % 6

/-- A number's little-endian field of n bytes from byte o. -/
def bytesField (v o n : Nat) : Nat := v / 256 ^ o % 256 ^ n

/-- The stream engine of a coll packet, by the group table (R294); none for a group that is not valid. -/
def State.collEngine (s : State) (g cseq phase : Nat) : Option Nat :=
  let e := s.obj (Obj.grp_ENTRY g)
  let cnt := bytesField e 17 1
  if g < 4096 ∧ bytesField e 0 1 ≠ 0 then some (bytesField e 16 1 + (cseq + phase) % (max cnt 1)) else none

/-- The endpoint that an address's resource is reached by. -/
def addrEnd (a : Nat) : Option Nat :=
  let o := addrOff a
  match addrSpace a with
  | 0 => if o ≤ 0x8FFFFFFF then some (coreEnd (o / 2 ^ 21)) else none
  | 1 =>
    let stack := if o < winBase then o / 2 ^ 37 else (o - winBase) / 2 ^ 35
    if stack < 12 then some (144 + 6 * (stack / 2) + o / 256 % 6) else none
  | 2 => some (204 + o / 4096 % 8)
  | 3 => some (212 + o / 4096 % 8)
  | 4 => if o / 2 ^ 20 < 48 then some (180 + o / 2 ^ 20 / 2) else none
  | _ => none

/-- Where a packet for this device is delivered (R221). What names no endpoint goes to A40, which answers or discards it
by R158, R194 and R196 (log 26). -/
def State.deliverTo (s : State) (p : Packet) : Nat :=
  let k := p.dstCore.toNat
  let byUnit : Option Nat :=
    if k < 1152 then some (coreEnd k)
    else if 0xF00 ≤ k ∧ k < 0xF30 then some (180 + (k - 0xF00) / 2)
    else if k = 0xFFE then some 220
    else addrEnd p.addrN
  let x : Option Nat :=
    if p.resp then byUnit
    else if p.isFlag || decide (p.op = opMsg) then (if k < 1152 then some (coreEnd k) else none)
    else if p.op = opMgmt then some 220
    else if p.op = opColl then
      (s.collEngine (p.extField 255 240) (p.extField 239 208) (p.extField 189 186)).map (fun j => 180 + j / 2)
    else addrEnd p.addrN
  x.getD 220

/-- The way of a packet at the input stage: `h` is its hop set if it leaves on a link (R221). -/
def State.routeOfPacket (s : State) (p : Packet) (h : Nat) : Route :=
  if p.dst.toNat = s.logicalId then .here (s.deliverTo p) else s.routePort p h

end Sys2Proof.Machine
end

