-- ==== Sys2Proof/Machine/Switch.lean ====
section
/-! DEFINITION. The switch core's input side: cells (R222), input stages (R223), matching (R224, R225), admission of lossy
packets (R229), queueing (R226), congestion marks (R208) and pacing (R250). -/

namespace Sys2Proof.Machine

/-! ### Input stages (R222, R223) -/

/-- An input's stage. -/
def State.stageOf (s : State) (x : Nat) : Stage := Sparse.get Stage.reset s.sw.stages x

/-- An input's stage replaced. -/
def State.setStage (s : State) (x : Nat) (st : Stage) : State :=
  { s with sw := { s.sw with stages := Sparse.set Stage.reset s.sw.stages x st } }

/-- The key of the credit a cell of class c and hop set h uses at input x (R207); a service port's cells are counted under the
same keys (R252). -/
def State.creditKey (s : State) (x c h : Nat) : Option Nat :=
  if 125 ≤ x ∧ x < 144 then some (40 * x + 5 * c)
  else if s.lossless c then some (40 * x + 5 * c + (if x < 125 then h else 0))
  else none

/-- The credit of a cell that is discarded before it has a buffer (R207). -/
def State.discardCredit (s : State) (x c h : Nat) : State :=
  if 125 ≤ x ∧ x < 144 then s
  else match s.creditKey x c h with
    | some k => s.giveBack k
    | none => s

/-- The input stage examines a packet's first cell (R203, R205, R221): the outputs it is bound for and its DETOUR. -/
def State.examine (s : State) (x : Nat) (p : Packet) (hop : Option Nat) (dest : Option RxAt) : State × List Nat × Bool :=
  match dest.bind RxAt.port with
  | some q => (s, [q.val], p.detour)
  | none =>
    let h := match hop with | some h => h + 1 | none => 0
    match s.routeOfPacket p h with
    | .here o => (s, [o], p.detour)
    | .noRoute =>
      let s := s.bump Obj.topo_NO_ROUTE_TOTAL
      (if x < 144 then s.bump (Obj.port_NO_ROUTE x) else s, [], p.detour)
    | .out q d =>
      if h = 5 then (s.bump Obj.topo_HOP_LIMIT_DROPS, [], p.detour)
      else (if d then s.bump Obj.topo_DETOURS_TOTAL else s, [q], p.detour || d)

/-- The next data bytes of a packet join its input's stage, or are discarded when no output takes them (R222, R223). -/
def State.arrive (s : State) (x : Nat) (a : Arrival) (first : Bool) (bytes : Bytes) : State :=
  let len := min 248 a.left
  let last := decide (a.left ≤ 248)
  let st := s.stageOf x
  let cur := if last then none else some { a with left := a.left - len, cell := a.cell + 1 }
  if a.outs = [] then (s.setStage x { st with cur := cur }).discardCredit x a.cls (a.hop.getD 0)
  else
    let c : StCell :=
      { bytes := padTo 248 bytes, first := first, last := last, len := len, outs := a.outs, fan := a.outs.length, cls := a.cls,
        hop := a.hop, detour := a.detour, at_ := a.at_, dest := a.dest, buf := none,
        share := if first then none else a.share.map (fun k => 32 * k + a.cell) }
    s.setStage x ⟨st.cells ++ [c], cur⟩

/-! ### Queueing (R208, R226, R229) -/

/-- The hop set of a packet at output x (R226). -/
def hopSet (x : Nat) (hop : Option Nat) : Nat :=
  match hop with
  | none => 0
  | some h => if x < 144 then h + 1 else if x < 180 then h else 0

/-- Whether a queue's class spills (R238). -/
def State.spills (s : State) (c : Nat) : Bool := (s.obj Obj.lim_SPILL_CLASSES).testBit c

/-- Tail cells join the head when no cell is spilled and the head is short of SPILL_START (R238, log 27). -/
def State.joinTail (s : State) (k : Nat) : State :=
  let q := s.outQ k
  if q.cells.any CellAt.spilled then s
  else if s.spills (k % 40 / 5) && decide (s.obj Obj.lim_SPILL_START ≤ q.head) then s
  else s.setOutQ k { q with head := q.cells.length }

/-- Whether a lossy packet enqueued from input i receives CM for want of buffers (R236, R237). -/
def State.poolMark (s : State) (i c : Nat) : Bool :=
  !s.lossless c && (s.wasAbove 1 || (match s.chargeOf i with | some n => s.wasAbove (4 + n) | none => false))

/-- A packet whose last cell has been transferred enters its queue at output o (R226), marked under R208 and R236. -/
def State.enqueuePkt (s : State) (i o : Nat) (c : StCell) (part : Part) : State :=
  if s.entriesFree = 0 then part.bufs.foldl State.releaseCell (s.emptyDrop c.cls)
  else
    let p := Packet.parse part.bytes
    let h := hopSet o c.hop
    let past := decide (s.obj (Obj.lim_MARK_THRESH c.cls) < s.occupancy o c.cls)
    let p := { p with hop := if o < 144 then BitVec.ofNat 3 h else p.hop, detour := c.detour, cm := p.cm || past || s.poolMark i c.cls }
    let k := queueKey o c.cls h
    let q := s.outQ k
    let direct := !s.spills c.cls || (decide (q.head = q.cells.length) && decide (q.head < s.obj Obj.lim_SPILL_START))
    let cells := part.bufs.map CellAt.die
    let s := s.setOutQ k ⟨q.pkts ++ [⟨p, c.at_, c.dest, cells⟩], if direct then q.head + cells.length else q.head⟩
    let s := if past && decide (o < 144) then s.bump (Obj.port_CM_MARKED o) else s
    s.raiseObj (Obj.sw_OQ_HIGH_WATER o) (s.oqCells o + s.oqSpilled o)

/-- Whether a lossy packet is dropped at output o, and whether for the pool's critical level (R229). -/
def State.lossyDrop (s : State) (c o : Nat) : Option Bool :=
  if s.lossless c then none
  else if s.critLevel 0 ≤ (s.pool 0).used then some true
  else if s.lossyAllow ≤ s.cellsOf .lossy ∨ s.obj (Obj.lim_OQ_LIMIT c) ≤ s.occupancy o c then some false
  else none

/-! ### Transfers (R224, R225, R229, R231, R234) -/

/-- The key of a packet being transferred from input i to output o. -/
def partKey (i o : Nat) : Nat := 221 * i + o

/-- What output o has taken of a packet of input i. -/
def State.partOf (s : State) (i o : Nat) : Option Part := Sparse.get none s.sw.parts (partKey i o)

/-- What output o has taken of a packet of input i set. -/
def State.setPart (s : State) (i o : Nat) (p : Option Part) : State :=
  { s with sw := { s.sw with parts := Sparse.set none s.sw.parts (partKey i o) p } }

/-- The packet that staged cell n of a stage belongs to, from that cell on: its number of staged cells, and whether its last
cell is among them. -/
def restOf : List StCell → Nat × Bool
  | [] => (0, false)
  | c :: cs => if c.last then (1, true) else ((restOf cs).1 + 1, (restOf cs).2)

/-- The packet of staged cell n of input i is bound for output o no more (R229, R234): what the output took of it is released,
its cells still staged and still to come go to the other outputs only, and a cell left with none is discarded. -/
def State.unbind (s : State) (i n o : Nat) : State :=
  let s := match s.partOf i o with
    | some p => (p.bufs.foldl State.releaseCell s).setPart i o none
    | none => s
  let st := s.stageOf i
  let (m, ended) := restOf (st.cells.drop n)
  let mine := (st.cells.drop n).take m
  let upd (c : StCell) : StCell := if c.outs.contains o then { c with outs := c.outs.erase o, fan := c.fan - 1 } else c
  let s := mine.foldl (fun s c =>
    match c.buf with
    | some b => if c.outs.contains o then s.releaseCell b else s
    | none => if c.outs = [o] then s.discardCredit i c.cls (c.hop.getD 0) else s) s
  let cells := st.cells.take n ++ ((mine.map upd).filter (fun c => decide (c.outs ≠ []))) ++ st.cells.drop (n + m)
  let cur := if ended then st.cur else st.cur.map (fun a => { a with outs := a.outs.erase o })
  s.setStage i ⟨cells, cur⟩

/-- A lossy packet dropped at output o: counted per packet, and per cell at the critical level (R229). -/
def State.dropAt (s : State) (i n o : Nat) (c : StCell) (critical : Bool) : State :=
  let p := Packet.parse c.bytes
  let cells := ceilDiv (32 + (if p.ext then 32 else 0) + p.len.toNat) 248
  let s := (s.bump (Obj.sw_LOSSY_DROPS o)).bump Obj.lim_LOSSY_DROPS_TOTAL
  let s := if critical then s.addObj (Obj.pool_CRIT_DROPS 0) cells else s
  s.unbind i n o

/-- Staged cell n of input i, in buffer b, given to the outputs that accepted it; a packet whose last cell this is enters
its queues (R226). -/
def State.giveCell (s : State) (i n : Nat) (c : StCell) (b : Nat) (outs : List Nat) : State :=
  let s := outs.foldl (fun s o =>
    let p := (s.partOf i o).getD ⟨[], []⟩
    let s := match p.bufs.getLast? with
      | some prev => s.linkBuf 0 prev b
      | none => s
    let p : Part := ⟨p.bufs ++ [b], p.bytes ++ c.bytes.take c.len⟩
    if c.last then (s.enqueuePkt i o c p).setPart i o none else s.setPart i o (some p)) s
  let st := s.stageOf i
  let left := c.outs.filter (fun o => !outs.contains o)
  let cells := if left = [] then st.cells.eraseIdx n
    else st.cells.set n { c with outs := left, buf := some b }
  s.setStage i { st with cells := cells }

/-- A new buffer accounted to the input it came by (R207, R228, R237, R252). -/
def State.account (s : State) (i b : Nat) (c : StCell) : State :=
  let key := s.creditKey i c.cls (c.hop.getD 0)
  let s := s.setInfo b ⟨key, s.chargeOf i, if s.lossless c.cls then .lossless else .lossy⟩
  match key with
  | some k => if 125 ≤ i ∧ i < 144 then { s with sw := { s.sw with taken := Sparse.modify 0 s.sw.taken k (· + 1) } } else s
  | none => s

/-- The buffer that already holds a shared cell (R275). -/
def State.sharedBuf (s : State) (c : StCell) : Option Nat :=
  match c.share with
  | none => none
  | some k => match Sparse.get 0 s.sw.shared k with
    | 0 => none
    | b + 1 => some b

/-- Staged cell n of input i transferred to outputs in one slot (R224). -/
def State.transfer (s : State) (i n : Nat) (outs : List Nat) : State :=
  match (s.stageOf i).cells[n]? with
  | none => s
  | some c =>
    let s := s.bump (Obj.sw_XBAR_CELLS i)
    let s := if 144 ≤ i ∧ i < 180 ∧ c.cls < 6 then
        match s.chargeOf i with
        | some k => { s with sw := { s.sw with paced := s.sw.paced.modify k (· + 1) } }
        | none => s
      else s
    let lost := if c.first then outs.filter (fun o => (s.lossyDrop c.cls o).isSome) else []
    let s := lost.foldl (fun s o => s.dropAt i n o c ((s.lossyDrop c.cls o).getD false)) s
    let kept := outs.filter (fun o => !lost.contains o)
    if kept = [] then s
    else
      match (s.stageOf i).cells[n]? with
      | none => s
      | some c =>
        match c.buf with
        | some b => s.giveCell i n c b kept
        | none =>
          match s.sharedBuf c with
          | some b => ((s.share 0 b 1).discardCredit i c.cls (c.hop.getD 0)).giveCell i n c b kept
          | none =>
          match s.alloc 0 with
          | (s, none) => c.outs.foldl (fun s o => s.unbind i n o) (s.emptyDrop c.cls)
          | (s, some b) =>
            let s := s.describe 0 b nil c.first c.last c.len
            let s := if 1 < c.fan then s.share 0 b (c.fan - 1) else s
            let s := match c.share with
              | some k => { s with sw := { s.sw with shared := Sparse.set 0 s.sw.shared k (b + 1) } }
              | none => s
            (s.account i b c).giveCell i n c b kept

/-! ### Matching (R224) -/

/-- A request: input, output, staged cell; whether the cell continues a packet, and its class. -/
structure XReq where
  i : Nat
  o : Nat
  n : Nat
  cont : Bool
  cls : Nat
  deriving DecidableEq, Repr

/-- A match: input, staged cell, outputs. -/
structure XMatch where
  i : Nat
  n : Nat
  outs : List Nat
  deriving DecidableEq, Repr

/-- Ports of a parcel held by pacing (R250): those for which no cell of the window's budget is left, one a port in ascending
order (log 28). -/
def State.paceHeld (s : State) (i c : Nat) : Bool :=
  if i < 144 ∨ 180 ≤ i ∨ 6 ≤ c then false
  else
    match s.chargeOf i with
    | none => false
    | some n =>
      let budget := 225 * s.obj (Obj.par_SWITCH_SHARE n)
      let before := (s.sw.stages.filter (fun e => decide (144 ≤ e.1) && decide (e.1 < i) && decide (s.chargeOf e.1 = some n)
        && e.2.cells.any (fun c => decide (c.cls < 6)))).length
      decide (budget ≤ s.sw.paced.getD n 0 + before)

/-- Step 1 of R224 for one input: for each output not yet requested its oldest staged cell. -/
def stageRequests (i : Nat) (held : Nat → Bool) (busy : List Nat) : List StCell → Nat → List XReq
  | [], _ => []
  | c :: cs, n =>
    let mine := if held c.cls then [] else c.outs.filter (fun o => !busy.contains o)
    mine.map (fun o => ⟨i, o, n, !c.first, c.cls⟩) ++ stageRequests i held (mine ++ busy) cs (n + 1)

/-- The order of step 2 of R224 as a number: a continued packet, then the class, then the place from the grant pointer. -/
def grantRank (gp : Nat) (r : XReq) : Nat :=
  ((if r.cont then 0 else 3) + (if r.cls = 7 then 0 else if r.cls = 6 then 1 else 2)) * 221 + (r.i + 221 - gp) % 221

/-- The request of least rank. -/
def bestReq (gp : Nat) : List XReq → Option XReq
  | [] => none
  | r :: rs =>
    match bestReq gp rs with
    | some q => if grantRank gp q < grantRank gp r then some q else some r
    | none => some r

/-- The grant pointer of output o (R224). -/
def State.gpOf (s : State) (o : Nat) : Nat := Sparse.get 0 s.sw.gp o

/-- One iteration of R224 over what earlier iterations matched. -/
def State.matchOnce (s : State) (held : Nat → Nat → Bool) (done : List XMatch) : List XMatch :=
  let ins := done.map XMatch.i
  let busy := done.flatMap XMatch.outs
  let reqs := (s.sw.stages.filter (fun e => !ins.contains e.1)).flatMap (fun e => stageRequests e.1 (held e.1) busy e.2.cells 0)
  let grants := (reqs.map XReq.o).eraseDups.filterMap (fun o => bestReq (s.gpOf o) (reqs.filter (fun r => decide (r.o = o))))
  (grants.map XReq.i).eraseDups.map (fun i =>
    let mine := grants.filter (fun r => decide (r.i = i))
    let n := mine.foldl (fun m r => min m r.n) 4
    ⟨i, n, (mine.filter (fun r => decide (r.n = n))).map XReq.o⟩)

/-- The grant pointers after the first iteration (R224). -/
def State.movePointers (s : State) (ms : List XMatch) : State :=
  { s with sw := { s.sw with gp := ms.foldl (fun g m => m.outs.foldl (fun g o => Sparse.set 0 g o ((m.i + 1) % 221)) g) s.sw.gp } }

/-- The matches of a slot by ascending input. -/
def sortMatches (ms : List XMatch) : List XMatch := (List.range 221).filterMap (fun i => ms.find? (fun m => decide (m.i = i)))

/-- One transfer slot (R224): three iterations, then the transfers in ascending order of their inputs (R226). -/
def State.slotMatch (s : State) : State :=
  let held := s.paceHeld
  let m1 := s.matchOnce held []
  let m2 := m1 ++ s.matchOnce held m1
  let m3 := m2 ++ s.matchOnce held m2
  let s := s.movePointers m1
  (sortMatches m3).foldl (fun s m => s.transfer m.i m.n m.outs) s

/-- Ports held by pacing counted, once in a cell time (R250). -/
def State.countHeld (s : State) : State :=
  s.sw.stages.foldl (fun s' e =>
    if e.2.cells.any (fun c => s.paceHeld e.1 c.cls) then
      match s.chargeOf e.1 with
      | some n => s'.bump (Obj.parfab_PACE_HELD n)
      | none => s'
    else s') s

/-! ### Packets cut into cells (R222, R223) -/

/-- Whether a waiting packet has credits for all of its cells at its input (R207, R228). -/
def State.injectOk (s : State) (x : Nat) (t : TxItem) : Bool :=
  let c := t.pkt.tc.toNat
  if x < 144 ∨ !s.lossless c then true
  else decide (Sparse.get 0 s.sw.taken (40 * x + 5 * c) + t.pkt.cells ≤ s.obj (Obj.lim_CREDIT c))

/-- The packet an endpoint offers next: the first whose class has credits, none overtaking another of its class. -/
def State.nextItem (s : State) (x : Nat) : List TxItem → List Nat → Option TxItem
  | [], _ => none
  | t :: ts, blocked =>
    let c := t.pkt.tc.toNat
    if !blocked.contains c && s.injectOk x t then some t else s.nextItem x ts (c :: blocked)

/-- The packets waiting at an endpoint replaced. -/
def State.setTxq (s : State) (x : Nat) (l : List TxItem) : State := { s with txq := Sparse.set [] s.txq x l }

/-- The first cell of a waiting packet staged: its credits are taken, and it is examined (R207, R221). -/
def State.beginItem (s : State) (x : Nat) (t : TxItem) : State :=
  let c := t.pkt.tc.toNat
  let hop := if x < 144 then some t.pkt.hop.toNat else none
  let s := if 144 ≤ x ∧ s.lossless c then
      { s with sw := { s.sw with taken := Sparse.modify 0 s.sw.taken (40 * x + 5 * c) (· + t.pkt.cells) } } else s
  let (s, outs, detour) := s.examine x t.pkt hop t.dest
  s.arrive x ⟨outs, c, hop, detour, t.at_, t.dest, t.pkt.size, t.share, 0⟩ true (slice t.pkt.bytes 0 248)

/-- One cell of an endpoint's waiting packets staged when its stage has room (R222, R223). -/
def State.offer (s : State) (x : Nat) (items : List TxItem) : State :=
  let st := s.stageOf x
  if 4 ≤ st.cells.length then s
  else
    match st.cur, items with
    | some a, t :: ts =>
      let s := s.arrive x a false (slice t.pkt.bytes (248 * t.pos) 248)
      s.setTxq x (if a.left ≤ 248 then ts else { t with pos := t.pos + 1 } :: ts)
    | _, _ =>
      match s.nextItem x items [] with
      | none => s
      | some t =>
        let rest := items.erase t
        let s := s.beginItem x t
        s.setTxq x (if t.pkt.cells ≤ 1 then rest else { t with pos := 1 } :: rest)

/-- Every endpoint offers a cell, once in a cell time (R220, R222; log 28). -/
def State.offerAll (s : State) : State := s.txq.foldl (fun s e => s.offer e.1 e.2) s

/-- Whether the fabric function switches: it is RUNNING or STOPPING (R393, R394). -/
def State.fabricOn (s : State) : Bool := decide (s.fnState 4 = 3) || decide (s.fnState 4 = 4)

end Sys2Proof.Machine
end

