-- ==== Sys2Proof/Machine/TimeBase.lean ====
section
/-! DEFINITION. The time function: states, the choice of the datum and steering (R325, R330 to R333), and the pins (R337). -/

namespace Sys2Proof.Machine

/-- Whether the time function runs. -/
def State.timeOn (s : State) : Bool := s.fnState 3 = 3 || s.fnState 3 = 4

/-- The time unit of a fabric port. -/
def State.timePort (s : State) (p : Nat) : TimePort := Sparse.get TimePort.reset s.time.ports p

/-- The time unit of a fabric port replaced. -/
def State.setTimePort (s : State) (p : Nat) (t : TimePort) : State :=
  { s with time := { s.time with ports := Sparse.set TimePort.reset s.time.ports p t } }

/-- The time function's record changed. -/
def State.modTime (s : State) (f : TimeSt → TimeSt) : State := { s with time := f s.time }

/-- The datum's source changed. -/
def State.modSrc (s : State) (f : TimeSrc → TimeSrc) : State := s.modTime (fun t => { t with src := f t.src })

/-- This device's physical id as advertisements carry it (R328). -/
def State.physId (s : State) : Nat := s.sealed.physId % 2 ^ 21

/-- A candidate as one number: the lower pair (TIME_PRIORITY, physical id) is the lower number (R330). -/
def candKey (prio phys : Nat) : Nat := prio * 2 ^ 21 + phys

/-- Whether a port's advertisement counts: it is fresh, names a candidate, and is not of this device (R330, log 32). -/
def State.counts (s : State) (t : TimePort) : Bool :=
  match t.adv, t.fresh with
  | some a, some u => decide (s.now < u + s.obj Obj.time_DATUM_TIMEOUT * 1024) && decide (a.prio ≠ 255) && decide (a.dist ≤ 6)
      && decide (a.phys ≠ s.physId)
  | _, _ => false

/-- The advertisements that count, by port. -/
def State.offers (s : State) : List (Nat × TimeAdv) :=
  (s.time.ports.filter (fun e => s.counts e.2)).filterMap (fun e => e.2.adv.map (fun a => (e.1, a)))

/-- The best of the candidates (R330). -/
def bestKey (l : List Nat) : Option Nat := l.foldl (fun b k => match b with | none => some k | some j => some (Nat.min j k)) none

/-- ACQUIRING entered with nothing estimated (R331). -/
def State.acquire (s : State) : State :=
  (s.modTime (fun t => { t with est := none, good := 0, bad := 0 })).setTimeState 1

/-- The source let go when this device is no longer the datum (R339). -/
def State.leaveSource (s : State) : State :=
  if s.obj Obj.time_TIME_STATE = 4 then (s.modSrc (fun _ => TimeSrc.reset)).setObj Obj.time_SOURCE_STATE 0 else s

/-- The election's outcome taken: none, this device, or another through its parent port (R330, R331). -/
def State.elect (s : State) : State :=
  if !s.timeOn then s
  else
    let prio := s.obj Obj.time_TIME_PRIORITY
    let own := if prio = 255 then [] else [candKey prio s.physId]
    let os := s.offers
    let best := bestKey (own ++ os.map (fun o => candKey o.2.prio o.2.phys))
    let old := candKey (s.obj Obj.time_DATUM_PRIO) (s.obj Obj.time_DATUM_PHYS)
    let s := match best with
      | some k => if k = old then s else s.bump Obj.time_ELECTIONS
      | none => if s.obj Obj.time_DATUM_DIST = 0xFF then s else s.bump Obj.time_ELECTIONS
    match best with
    | none => (s.leaveSource.setDatum 0xFFFFFFFF 0xFF 0xFF 0xFF).setTimeState 3
    | some k =>
      if own = [k] then
        let s := s.setDatum s.physId prio 0 0xFF
        let s := s.setObj Obj.time_EPOCH_IN_USE (s.obj Obj.time_EPOCH_TAI)
        if s.obj Obj.time_TIME_STATE = 4 then s
        else
          let s := s.modTime (fun t => { t with est := none, src := { TimeSrc.reset with edgeAt := s.now } })
          (s.setFreq 0).setTimeState 4
      else
        let mine := os.filter (fun o => candKey o.2.prio o.2.phys = k)
        let d := (mine.map (fun o => o.2.dist)).foldl Nat.min 255
        let cur := s.obj Obj.time_PARENT_PORT
        match (mine.find? (fun o => o.1 = cur && o.2.dist = d)).or (mine.find? (fun o => o.2.dist = d)) with
        | none => s
        | some (p, a) =>
          let s := s.leaveSource
          let st := s.obj Obj.time_TIME_STATE
          let s := (s.setDatum a.phys a.prio (a.dist + 1) p).setObj Obj.time_EPOCH_IN_USE a.epoch
          if p ≠ cur ∨ !(st = 1 ∨ st = 2) then s.acquire else s

/-- A fabric link comes up or goes down: its time unit begins anew (R329, R330). -/
def State.timeLink (s : State) (p : Nat) : State := (s.setTimePort p TimePort.reset).elect

/-- Twice an offset in units, as picoseconds in an I32 (R352). -/
def offsetPs (x : Int) : Nat := wrap 32 (satI (Int.tdiv (x * 125) 4) (-(2 ^ 31)) (2 ^ 31 - 1))

/-- An estimated offset, as twice its units, from the parent or from the source: reported, tested against the locking limits, and
steered by (R324, R325, R331). -/
def State.steer (s : State) (x : Int) : State :=
  let s := s.setObj Obj.time_OFFSET_EST (offsetPs x)
  let good := if x.natAbs ≤ 16 then s.time.good + 1 else 0
  let bad := if 48 < x.natAbs then s.time.bad + 1 else 0
  let s := (s.modTime (fun t => { t with est := some x, good := good, bad := bad })).setFreq (Config.steering x)
  let st := s.obj Obj.time_TIME_STATE
  if st = 1 ∧ 64 ≤ good then s.setTimeState 2
  else if st = 2 ∧ 16 ≤ bad then (s.modTime (fun t => { t with good := 0 })).setTimeState 1
  else s

/-- Fabric Time set by a step, to a count that is not guaranteed where it leaves the counter's range (R323). -/
def State.setFt (s : State) (t : Int) : State :=
  if 0 ≤ t ∧ t < 2 ^ 64 then { s with ft := BitVec.ofInt 64 t }
  else
    let (v, s) := s.fresh
    { s with ft := BitVec.ofNat 64 v }

/-- Level of PPS_OUT (R337). -/
def State.ppsOut (s : State) : Bool :=
  (s.obj Obj.time_TIME_STATE = 2 || s.obj Obj.time_TIME_STATE = 3 || s.obj Obj.time_TIME_STATE = 4)
    && decide (s.now % 16000000000 < 1600000000)

/-- Level of CLK10M_OUT (R337). -/
def State.clk10mOut (s : State) : Bool :=
  (s.obj Obj.time_TIME_STATE = 2 || s.obj Obj.time_TIME_STATE = 3 || s.obj Obj.time_TIME_STATE = 4)
    && decide (s.now % 1600 < 800)

end Sys2Proof.Machine
end

