-- ==== Sys2Proof/Machine/Link.lean ====
section
/-! DEFINITION. The link layer of the fabric ports (R184, R187 to R190, R204, R206, R207, R215). -/

namespace Sys2Proof.Machine

/-! ### Link units (R187) -/

/-- A link unit: 248 data bytes and the trailer (R187). -/
def linkUnit (kind seq ack : Nat) (nak : Bool) (data : Bytes) : Bytes :=
  let body := padTo 248 data ++ beBytes 4 (kind * 2 ^ 28 + seq % 4096 * 2 ^ 16 + ack % 4096 * 2 ^ 4 + b2n nak * 2 ^ 3)
  body ++ beBytes 4 (crc32 body)

/-- Whether a unit's CRC is good. -/
def unitGood (lu : Bytes) : Bool := decide (lu.length = 256) && decide (crc32 (lu.take 252) = beAt lu 252 4)
/-- KIND of a unit. -/
def unitKind (lu : Bytes) : Nat := field (beAt lu 248 4) 31 28
/-- SEQ of a unit. -/
def unitSeq (lu : Bytes) : Nat := field (beAt lu 248 4) 27 16
/-- ACK of a unit. -/
def unitAck (lu : Bytes) : Nat := field (beAt lu 248 4) 15 4
/-- NAK of a unit. -/
def unitNak (lu : Bytes) : Bool := (beAt lu 248 4).testBit 3

/-- A port's link layer. -/
def State.link (s : State) (p : Nat) : Link := Sparse.get Link.reset s.links p

/-- A port's link layer replaced. -/
def State.setLink (s : State) (p : Nat) (l : Link) : State := { s with links := Sparse.set Link.reset s.links p l }

/-- The device sends. -/
def State.emit (s : State) (o : Output) : State := { s with sent := s.sent ++ [o] }

/-- A unit sent on fabric port p, with the receiver's ACK and NAK; idle units are not counted in TX_LU (R187, R216). -/
def State.sendUnit (s : State) (p : PortId) (kind seq : Nat) (data : Bytes) : State :=
  let l := s.link p
  let s := s.emit (.lu p (linkUnit kind seq l.accepted l.nak data))
  if kind = 0 then s else s.bump (Obj.port_TX_LU p)

/-- Whether the device holds its fabric ports disabled (R204, R206). -/
def State.portsDisabled (s : State) : Bool :=
  s.fatal || (decide (s.obj Obj.topo_POSITION < 32) && decide (s.obj Obj.topo_POSITION = s.standin))

/-! ### Links down and up (R190, R207) -/

/-- A queued packet of a link that is down routed again (R190): it keeps its hop set; one without a route is lost. -/
def State.rerouteOne (s : State) (c h : Nat) (q : QPkt) : State :=
  match s.routePort q.pkt h with
  | .out o d =>
    let s := if d then s.bump Obj.topo_DETOURS_TOTAL else s
    let k := queueKey o c h
    let dst := s.outQ k
    let all := dst.head = dst.cells.length
    let s := s.setOutQ k ⟨dst.pkts ++ [{ q with pkt := { q.pkt with detour := q.pkt.detour || d } }],
      if all ∧ !q.cells.any CellAt.spilled then dst.head + q.cells.length
      else if all then dst.head + (q.cells.takeWhile (fun c => !c.spilled)).length else dst.head⟩
    s.raiseObj (Obj.sw_OQ_HIGH_WATER o) (s.oqCells o + s.oqSpilled o)
  | _ =>
    let s := s.bump Obj.topo_NO_ROUTE_TOTAL
    let s := match q.at_.port with
      | some x => s.bump (Obj.port_NO_ROUTE x)
      | none => s
    q.cells.foldl (fun s c => match c with | .die b => s.releaseCell b | .page _ _ => s) s

/-- Pages that no queue refers to any more released (R239). -/
def State.freePages (s : State) (ps : List Nat) : State :=
  let held := s.sw.queues.flatMap (fun e => e.2.cells.filterMap (fun c => match c with | .die _ => none | .page p _ => some p))
  ps.eraseDups.foldl (fun s p => if held.contains p then s else (s.release 1 p).1) s

/-- The packets queued for fabric port p routed again (R190). -/
def State.reroute (s : State) (p : Nat) : State :=
  let qs := s.sw.queues.filter (fun e => decide (e.1 / 40 = p))
  if qs = [] then s
  else
    let s := qs.foldl (fun s e => s.setOutQ e.1 OutQ.reset) s
    let s := qs.foldl (fun s e => e.2.pkts.foldl (fun s q => s.rerouteOne (e.1 % 40 / 5) (e.1 % 5) q) s) s
    s.freePages (qs.flatMap (fun e => e.2.cells.filterMap (fun c => match c with | .die _ => none | .page q _ => some q)))

/-- An output's scheduler. -/
def State.outPort (s : State) (x : Nat) : OutPort := Sparse.get OutPort.reset s.sw.outs x

/-- An output's scheduler replaced. -/
def State.setOut (s : State) (x : Nat) (o : OutPort) : State := { s with sw := { s.sw with outs := Sparse.set OutPort.reset s.sw.outs x o } }

/-- The packet an output is sending is lost (R190). -/
def State.dropSending (s : State) (x : Nat) : State :=
  let o := s.outPort x
  match o.sending with
  | none => s
  | some q =>
    let s := s.setOut x { o with sending := none, next := 0 }
    q.cells.foldl (fun s c => match c with | .die b => s.releaseCell b | .page _ _ => s) s

/-- What a fabric port's sender and receiver held when its link stops (R190): the replay buffer and the started packet are
discarded, a packet half received ends, and queued packets are routed again. -/
def State.stopLink (s : State) (p : Nat) : State :=
  let s := s.setLink p (s.link p).down
  let s := s.dropSending p
  let st := s.stageOf p
  let s := match st.cur with
    | some a => a.outs.foldl (fun (s : State) o =>
        s.unbind p (st.cells.length - (st.cells.reverse.takeWhile (fun (c : StCell) => !c.last)).length) o) s
    | none => s
  let s := s.setStage p { s.stageOf p with cur := none }
  (s.timeLink p).reroute p

/-- A link goes down (R190): counted, entered as an advisory, and its port left in LINK_STATE `v`. -/
def State.linkDown (s : State) (p v : Nat) : State :=
  if s.linkUp p then
    let s := ((s.setObj (Obj.port_LINK_STATE p) v).bump (Obj.port_LINK_DOWNS p)).advise 4 none 0x0601 p 0
    if p < 125 then s.stopLink p else s
  else s.setObj (Obj.port_LINK_STATE p) v

/-- The initial credits of a port's 40 pairs (R207, R228). -/
def State.initialCredits (s : State) (p : Nat) : List Nat :=
  (List.range 40).map (fun i => s.obj (Obj.lim_CREDIT (i / 5)) * s.obj (Obj.sw_CREDIT_SCALE p))

/-- A fabric link comes up (R184, R190, R207): sequence numbers start at 0 (log 29). -/
def State.bringUp (s : State) (p : Nat) : State :=
  let l := s.link p
  let s := s.setLink p { l.down with creditInit := s.initialCredits p, progressAt := s.now }
  (s.setObj (Obj.port_LINK_STATE p) (if l.half then 3 else 2)).timeLink p

/-! ### Retry (R188) -/

/-- A replay of every unacknowledged unit (R188, R215): after eight without ACK progress the link goes down instead (log 29). -/
def State.replay (s : State) (p : PortId) : State :=
  let l := s.link p
  if l.replay = [] then s
  else if 8 ≤ l.stuck then s.linkDown p 1
  else
    let s := s.setLink p { l with stuck := l.stuck + 1, progressAt := s.now }
    let s := (s.bump (Obj.port_REPLAYS p)).addObj (Obj.port_LU_REPLAYED p) l.replay.length
    let s := [0, 1, 2, 3].foldl (fun s n => s.addObj (Obj.parfab_LU_REPLAYED n) l.replay.length) s
    l.replay.foldl (fun s u => s.sendUnit p u.2.1 u.1 u.2.2) s

/-- Units that ACK covers leave the replay buffer; progress ends the run of replays (R188). -/
def Link.acked (l : Link) (ack now : Nat) : Link :=
  match l.replay.findIdx? (fun u => decide (u.1 = ack)) with
  | none => l
  | some i => { l with replay := l.replay.drop (i + 1), stuck := 0, replayedFrom := none, progressAt := now }

/-- The ACK and NAK of a received trailer taken (R188): a NAK starts a replay when it names an ACK not replayed from yet. -/
def State.takeAck (s : State) (p : PortId) (lu : Bytes) : State :=
  let l := (s.link p).acked (unitAck lu) s.now
  let s := s.setLink p l
  if unitNak lu && decide (l.replayedFrom ≠ some (unitAck lu)) && decide (l.replay ≠ []) then
    (s.setLink p { l with replayedFrom := some (unitAck lu) }).replay p
  else s

/-! ### Sequenced units (R188, R191, R222, R223) -/

/-- A packet as its first unit shows it, with a payload of LEN bytes. -/
def firstLook (data : Bytes) : Packet :=
  let p := Packet.parse data
  { p with payload := padTo p.len.toNat p.payload }

/-- Whether a unit of KIND `kind` is a time packet, which comes at any unit boundary and takes no credit (R196, R327). -/
def isTimeUnit (kind : Nat) (data : Bytes) : Bool := decide (kind = 1) && decide ((firstLook data).op = opTime)

/-- Data bytes of an accepted unit taken by the input (R191, R221, R222, R223): a time packet is left for the time unit (R196);
a lossy class's credit returns at once (R207); a packet with a reserved encoding is discarded. -/
def State.takeUnit (s : State) (p : PortId) (kind : Nat) (data : Bytes) : State :=
  let st := s.stageOf p
  if isTimeUnit kind data then
    if (firstLook data).requestOk 4096 then { s with inbox := s.inbox ++ [(⟨some p, 0, 0, 0⟩, firstLook data)] }
    else s.bump (Obj.port_RX_DISCARD p)
  else match st.cur with
  | some a =>
    let s := if s.lossless a.cls then s else s.grant (40 * p + 5 * a.cls + a.hop.getD 0)
    s.arrive p a false data
  | none =>
    let k := firstLook data
    let c := k.tc.toNat
    let h := k.hop.toNat
    let hop := if h ≤ 4 then some h else none
    let s := if s.lossless c then s else s.grant (40 * p + 5 * c + hop.getD 0)
    let at_ : RxAt := ⟨some p, 0, 0, 0⟩
    let a : Arrival := ⟨[], c, hop, k.detour, at_, none, k.size, none, 0⟩
    if !(k.requestOk 4096 || k.responseOk 4096) then (s.bump (Obj.port_RX_DISCARD p)).arrive p a true data
    else
      let (s, outs, detour) := s.examine p k hop none
      s.arrive p { a with outs := outs, detour := detour } true data

/-- Whether a fabric port takes sequenced units. -/
def State.linkOpen (s : State) (p : Nat) : Bool := decide (p < 125) && s.linkUp p && s.fabricOn && !s.portsDisabled

/-- A link unit received (R187, R188, R223). -/
def State.unitRx (s : State) (p : PortId) (lu : Bytes) : State :=
  if !s.linkOpen p then s
  else
    let kind := unitKind lu
    let nak (s : State) : State := s.setLink p { s.link p with nak := true }
    if !unitGood lu then (if kind = 1 ∨ kind = 2 then nak (s.bump (Obj.port_CRC_ERR p)) else s)
    else
      let s := s.takeAck p lu
      if !(decide (kind = 1) || decide (kind = 2)) || !s.linkUp p then s
      else if unitSeq lu ≠ ((s.link p).accepted + 1) % 4096 then nak s
      else if 4 ≤ (s.stageOf p).cells.length then
        nak ((s.bump (Obj.sw_STAGE_NAK p)).bump Obj.lim_STAGE_NAK_TOTAL)
      else
        let s := s.setLink p { s.link p with accepted := unitSeq lu, nak := false }
        (s.bump (Obj.port_RX_LU p)).takeUnit p kind (lu.take 248)

/-- R188: a link unit arrives. -/
def execLinkUnitRx (p : PortId) (lu : Bytes) (s : State) : Out := .next (s.unitRx p lu)

/-- R188: no ACK progress for REPLAY_TIMEOUT slots. -/
def execReplayTimeout (p : PortId) (s : State) : Out :=
  let l := s.link p
  if s.linkOpen p && decide (l.replay ≠ []) then
    .next ((s.advanceTo (l.progressAt + s.obj Obj.topo_REPLAY_TIMEOUT * 1024)).replay p)
  else .next s

/-! ### Control units (R189, R190, R206, R207) -/

/-- What a control unit says of its sender (R189). -/
def peerOf (d : Bytes) : PeerInfo :=
  { physId := beAt d 80 3 % 2 ^ 21, group := beAt d 83 2 % 2 ^ 15, position := beAt d 85 1, port := beAt d 86 1,
    disabled := (beAt d 87 1).testBit 0 }

/-- The cumulative counts of a control unit (R189, R207). -/
def Link.takeCredits (l : Link) (d : Bytes) : Link :=
  { l with returned := (List.range 40).foldl (fun r i => Sparse.set 0 r i (beAt d (2 * i) 2)) l.returned }

/-- A good control unit (R189, R190): the peer becomes known; a peer that is disabled takes or holds the link down, an
unexpected one holds it down, the expected one brings it up. -/
def State.controlRx (s : State) (p : PortId) (lu : Bytes) : State :=
  let info := peerOf lu
  let s := s.setLink p { s.link p with peer := some info }
  let s := (s.setObj (Obj.port_PEER_PHYS_ID p) info.physId).setObj (Obj.port_PEER_PORT p) info.port
  if s.portsDisabled then s
  else if info.disabled then (s.linkDown p 0).setObj (Obj.port_WIRING p) 2
  else if s.linkUp p then
    let s := s.takeAck p lu
    if s.linkUp p then s.setLink p ((s.link p).takeCredits lu) else s
  else if s.expected p = some (info.group, info.position, info.port) then
    let s := s.setObj (Obj.port_WIRING p) 0
    if s.fabricOn then
      let s := s.bringUp p
      s.setLink p ((s.link p).takeCredits lu)
    else s
  else
    let s := if s.obj (Obj.port_WIRING p) = 1 then s else s.advise 4 none 0x0602 p 0
    (s.setObj (Obj.port_WIRING p) 1).setObj (Obj.port_LINK_STATE p) 0

/-- R189: a control unit arrives; one with a bad CRC is discarded. -/
def execControlUnitRx (p : PortId) (lu : Bytes) (s : State) : Out :=
  if decide (p.val < 125) && decide (s.obj (Obj.port_ROLE p) = 1) && (s.link p).locked && unitGood lu && decide (unitKind lu = 3) then
    .next (s.controlRx p lu)
  else .next s

/-- The data of the control unit a port sends (R189). -/
def State.controlData (s : State) (p : Nat) : Bytes :=
  let l := s.link p
  (List.range 40).flatMap (fun i => beBytes 2 (Sparse.get 0 l.granted i)) ++ beBytes 3 (s.sealed.physId % 2 ^ 21)
    ++ beBytes 2 (s.obj Obj.topo_GROUP % 2 ^ 15) ++ beBytes 1 (s.obj Obj.topo_POSITION) ++ beBytes 1 p ++ beBytes 1 (b2n s.portsDisabled)

/-- R189: the port sends a control unit. A fatal or stood-in device goes on sending them (R206). -/
def execControlUnitTx (p : PortId) (s : State) : Out :=
  let l := s.link p
  if decide (p.val < 125) && decide (s.obj (Obj.port_ROLE p) = 1) && l.locked then
    let s := s.sendUnit p 3 l.nextSeq (s.controlData p)
    .next (s.setLink p { l with sentGrant := l.granted, controlAt := s.now })
  else .next s

/-! ### The PCS (R184, R190) -/

/-- R190: PCS lock lost for more than 1 µs; the device retrains the link. -/
def execPcsLockLoss (p : PortId) (s : State) : Out :=
  if (s.link p).locked then
    let s := if s.obj (Obj.port_LINK_STATE p) = 4 then s else s.linkDown p 1
    .next (s.setLink p { (s.link p).down with locked := false, peer := none })
  else .next s

/-- R184, R190: link training completes and the PCS locks. Nothing trains before FABRIC initialises the SerDes (R419). A port whose
role is off does not train, and only FULL comes up on one lane pair; a service port is up once its PCS locks (log 29). -/
def execLinkTrainDone (p : PortId) (res : TrainResult) (s : State) : Out :=
  let role := s.obj (Obj.port_ROLE p)
  let full := decide (res = .full)
  if s.fnState 4 = 0 ∨ role = 0 ∨ (!full ∧ s.obj (Obj.port_MODE p) ≠ 1) then .next s
  else
    let s := if s.linkUp p then s.linkDown p 1 else s
    let s := s.setLink p { Link.reset with locked := true, half := !full }
    .next (if role = 2 then s.setObj (Obj.port_LINK_STATE p) 2
      else if s.portsDisabled then s.setObj (Obj.port_LINK_STATE p) 4 else s.setObj (Obj.port_LINK_STATE p) 1)

/-! ### STANDIN (R204) -/

/-- Ports disabled, or let go, as STANDIN and POSITION say (R204, R206). -/
def State.applyDisabled (s : State) : State :=
  (List.range 125).foldl (fun s p =>
    if s.obj (Obj.port_ROLE p) ≠ 1 then s
    else if s.portsDisabled then
      if s.linkUp p then ((s.setObj (Obj.port_LINK_STATE p) 4).stopLink p) else s.setObj (Obj.port_LINK_STATE p) 4
    else if s.obj (Obj.port_LINK_STATE p) = 4 then s.setObj (Obj.port_LINK_STATE p) (b2n (s.link p).locked) else s) s

/-- R204: a new STANDIN takes effect at the start of the next slot. -/
def execStandinApply (s : State) : Out :=
  if s.standin = s.obj Obj.topo_STANDIN then .next s
  else
    let s := s.advanceTo ((s.slot + 1) * 1024)
    .next ({ s with standin := s.obj Obj.topo_STANDIN }.applyDisabled)

end Sys2Proof.Machine
end

