-- ==== Sys2Proof/Machine/Output.lean ====
section
/-! DEFINITION. The switch core's output side and the service ports' flow control: selection (R246 to R248), the shaper (R249),
sending (R187, R211, R226), levels and withheld credits (R236, R237), PFC (R251 to R253), spill (R238, R239), and pacing
windows (R250). -/

namespace Sys2Proof.Machine

/-! ### Priority flow control (R251 to R253) -/

/-- A service port's record. -/
def State.svc (s : State) (p : Nat) : Svc := Sparse.get Svc.reset s.sw.svc p

/-- A service port's record replaced. -/
def State.setSvc (s : State) (p : Nat) (v : Svc) : State := { s with sw := { s.sw with svc := Sparse.set Svc.reset s.sw.svc p v } }

/-- A byte string as the number an OCT object holds: byte 0 least significant (R387). -/
def octNat (n v : Nat) : Nat := leNat (beBytes n v)

/-- Bytes of an OCT object, byte 0 first. -/
def State.octBytes (s : State) (k n : Nat) : Bytes := leBytes n (s.obj k)

/-- A PFC frame from its destination address to its padding, without FCS (R251; its layout is IEEE 802.1Qbb's, log 30). -/
def State.pfcFrame (s : State) (p : Nat) (vec : Nat) (quanta : Nat → Nat) : Bytes :=
  padTo 60 (beBytes 6 0x0180C2000001 ++ s.octBytes (Obj.port_SVC_MAC p) 6 ++ beBytes 2 0x8808 ++ beBytes 2 0x0101 ++ beBytes 2 vec
    ++ (List.range 8).flatMap (fun c => beBytes 2 (quanta c)))

/-- Whether a service port must pause class c: the cells held have risen to 2k, or the cell pool is above BACKPRESSURE
(R252). -/
def State.mustPause (s : State) (p c : Nat) : Bool :=
  let k := s.obj (Obj.lim_CREDIT c) * s.obj (Obj.sw_CREDIT_SCALE p)
  s.lossless c && (decide (2 * k ≤ s.svcHeld p c) || s.wasAbove 1)

/-- Whether a service port may let class c go on (R252). -/
def State.mayResume (s : State) (p c : Nat) : Bool :=
  let k := s.obj (Obj.lim_CREDIT c) * s.obj (Obj.sw_CREDIT_SCALE p)
  decide (s.svcHeld p c ≤ k) && !s.wasAbove 1

/-- A mask of classes. -/
def classMask (l : List Nat) : Nat := sumN (l.map (fun c => 2 ^ c))

/-- XOFF frames counted. -/
def State.countXoff (s : State) (p : Nat) (l : List Nat) : State := l.foldl (fun s c => s.bump (Obj.sw_PFC_XOFF_TX p c)) s

/-- Whether a service port is up. -/
def State.svcUp (s : State) (p : Nat) : Bool :=
  decide (125 ≤ p) && decide (s.obj (Obj.port_ROLE p) = 2) && s.linkUp p && s.fabricOn

/-- XOFF and XON of one service port, in one frame for every class whose state changes (R252). -/
def State.pfcPort (s : State) (p : PortId) : State :=
  let v := s.svc p
  let off := (List.range 8).filter (fun c => !v.xoff.getD c false && s.mustPause p c)
  let on := (List.range 8).filter (fun c => v.xoff.getD c false && s.mayResume p c)
  if (off = [] ∧ on = []) ∨ !s.svcUp p then s
  else
    let q := s.obj Obj.cls_PFC_QUANTA
    let s := s.emit (.frame p (s.pfcFrame p (classMask (off ++ on)) (fun c => if off.contains c then q else 0)))
    let x := (List.range 8).map (fun c => (v.xoff.getD c false || off.contains c) && !on.contains c)
    (s.setSvc p { v with xoff := x, xoffAt := if off = [] then v.xoffAt else s.now }).countXoff p off

/-- PFC of every service port. -/
def State.pfcAll (s : State) : State :=
  (List.finRange 144).foldl (fun s p => if 125 ≤ p.val then s.pfcPort p else s) s

/-- R252: an XOFF is repeated PFC_REFRESH slots after the last while its condition holds. -/
def execPfcRefresh (p : PortId) (s : State) : Out :=
  let v := s.svc p
  let on := (List.range 8).filter (fun c => v.xoff.getD c false)
  if on = [] ∨ !s.svcUp p then .next s
  else
    let s := s.advanceTo (v.xoffAt + s.obj Obj.cls_PFC_REFRESH * 1024)
    let q := s.obj Obj.cls_PFC_QUANTA
    let s := s.emit (.frame p (s.pfcFrame p (classMask on) (fun c => if on.contains c then q else 0)))
    .next ((s.setSvc p { v with xoffAt := s.now }).countXoff p on)

/-- Data rate of a port mode in Gb/s (R184). -/
def modeRate (m : Nat) : Nat :=
  match m with
  | 1 => 800 | 2 => 400 | 3 => 400 | 4 => 800 | 5 => 400 | 6 => 200 | 7 => 100 | _ => 800

/-- R253: a PFC frame pauses or resumes classes; bits of lossy classes are ignored. A quantum is 512 bit times. -/
def execPfcFrameRx (p : PortId) (vec : BitVec 8) (quanta : Vector (BitVec 16) 8) (s : State) : Out :=
  if !s.svcUp p then .next s
  else
    let cs := (List.finRange 8).filter (fun c => vec.toNat.testBit c.val && s.lossless c.val)
    let rate := modeRate (s.obj (Obj.port_MODE p))
    .next (cs.foldl (fun (s : State) (c : Fin 8) =>
      let q : Nat := (quanta.get c).toNat
      let s := if q = 0 then s else s.bump (Obj.sw_PFC_XOFF_RX p c.val)
      let v := s.svc p
      s.setSvc p { v with paused := v.paused.set c.val (if q = 0 then none else some (s.now + ceilDiv (q * 8192) rate)) }) s)

/-- R253: the pause of a class runs out. -/
def execPfcPauseExpiry (p : PortId) (k : ClassId) (s : State) : Out :=
  let v := s.svc p
  match v.paused.getD k.val none with
  | none => .next s
  | some t =>
    let s := s.advanceTo t
    .next (s.setSvc p { v with paused := v.paused.set k.val none })

/-! ### Selection (R246 to R248) -/

/-- The head packet of a queue when it may be sent: whole in the head segment (R239), with link credits for every cell on a
fabric port (R207). -/
def State.sendable (s : State) (x c h : Nat) : Option QPkt :=
  let q := s.outQ (queueKey x c h)
  match q.pkts with
  | [] => none
  | k :: _ =>
    if q.head < k.cells.length then none
    else if x < 125 ∧ s.creditsOf x c h < k.cells.length then none
    else some k

/-- The hop sets in the order a class serves them (R248). -/
def hopOrder (hp : Nat) : List Nat := (List.range 5).map (fun i => (hp + i) % 5)

/-- The hop set and packet a class would send (R248). -/
def State.choice (s : State) (x c hp : Nat) : Option (Nat × QPkt) :=
  (hopOrder hp).findSome? (fun h => (s.sendable x c h).map (fun k => (h, k)))

/-- Whether a class is shaped (R249). -/
def State.shaped (s : State) (c : Nat) : Bool := (s.obj Obj.cls_SHAPE_ENABLE).testBit c

/-- Whether a service port's class is paused now (R253). -/
def State.classPaused (s : State) (x c : Nat) : Bool :=
  decide (125 ≤ x) && decide (x < 144) &&
    (match (s.svc x).paused.getD c none with
     | some t => decide (s.now < t)
     | none => false)

/-- A ready class's packet (R246). -/
def State.ready (s : State) (x : Nat) (o : OutPort) (c : Nat) : Option (Nat × QPkt) :=
  if s.classPaused x c || (s.shaped c && decide (o.cr.getD c 0 < 0)) then none else s.choice x c (o.hp.getD c 0)

/-- Whether no queue of a class holds a packet. -/
def State.classEmpty (s : State) (x c : Nat) : Bool := [0, 1, 2, 3, 4].all (fun h => (s.outQ (queueKey x c h)).pkts.isEmpty)

/-- `select_group` of R247: deficits, current class and `fresh`, with the class selected. -/
def State.selectGroup (s : State) (x : Nat) : Nat → OutPort → OutPort × Option Nat
  | 0, o => (o, none)
  | fuel + 1, o =>
    let c := o.cur
    match s.ready x o c with
    | none =>
      let o := if s.classEmpty x c then { o with defs := o.defs.set c 0 } else o
      s.selectGroup x fuel { o with cur := (c + 1) % 6, fresh := true }
    | some (_, k) =>
      let d := o.defs.getD c 0 + (if o.fresh then s.obj (Obj.cls_WEIGHT c) else 0)
      if k.cells.length ≤ d then ({ o with defs := o.defs.set c (d - k.cells.length), fresh := false }, some c)
      else s.selectGroup x fuel { o with defs := o.defs.set c d, cur := (c + 1) % 6, fresh := true }

/-- The selection of R246. -/
def State.select (s : State) (x : Nat) (o : OutPort) : OutPort × Option Nat :=
  if (s.ready x o 7).isSome then (o, some 7)
  else if (s.ready x o 6).isSome then (o, some 6)
  else s.selectGroup x 7 o

/-- A free output begins the packet it selects; that packet leaves its queue (R226, R246, R248). -/
def State.beginPacket (s : State) (x : Nat) : State :=
  let o := s.outPort x
  match s.select x o with
  | (o, none) => s.setOut x o
  | (o, some c) =>
    match s.choice x c (o.hp.getD c 0) with
    | none => s.setOut x o
    | some (h, k) =>
      let key := queueKey x c h
      let q := s.outQ key
      let s := s.setOutQ key ⟨q.pkts.drop 1, q.head - k.cells.length⟩
      (s.joinTail key).setOut x { o with sending := some k, next := 0, hp := o.hp.set c ((h + 1) % 5) }

/-! ### Sending -/

/-- A packet wholly sent: it leaves by a service port or arrives at a unit of this device, and its cells are released
(R211, R226, R231). -/
def State.endPacket (s : State) (x : EndId) (k : QPkt) : State :=
  let s :=
    if h : x.val < 144 then
      if x.val < 125 then s
      else match k.dest with
        | some r => s.emit (.datagram ⟨x.val, h⟩ r.peerAddr r.peerPort r.peerMac (if k.pkt.cm then 3 else 2) k.pkt.bytes)
        | none => s
    else { s with inbox := s.inbox ++ [(k.at_, k.pkt)] }
  k.cells.foldl (fun s c => match c with | .die b => s.releaseCell b | .page _ _ => s) s

/-- One cell of the packet being sent: on a fabric port a sequenced unit that consumes a credit and is kept for replay
(R187, R188, R207). -/
def State.sendCell (s : State) (x : EndId) (k : QPkt) : State :=
  let o := s.outPort x
  let n := o.next
  let c := k.pkt.tc.toNat
  let s := s.bump (Obj.sw_TX_CELLS x c)
  let s :=
    if h : x.val < 125 then
      let p : PortId := ⟨x.val, by omega⟩
      let data := slice k.pkt.bytes (248 * n) 248
      let l := s.link p
      let kind := if n = 0 then 1 else 2
      let s := s.sendUnit p kind l.nextSeq data
      s.setLink p { l with nextSeq := (l.nextSeq + 1) % 4096,
                           replay := l.replay ++ [(l.nextSeq, kind, padTo 248 data)],
                           progressAt := if l.replay = [] then s.now else l.progressAt,
                           consumed := Sparse.modify 0 l.consumed (5 * c + k.pkt.hop.toNat) (fun v => (v + 1) % 2 ^ 16) }
    else s
  if n + 1 = k.cells.length then (s.setOut x { o with sending := none, next := 0 }).endPacket x k
  else s.setOut x { o with next := n + 1 }

/-- The shaper's settings: SHAPE_ENABLE, IDLE_c and HI_c (R259). -/
def State.shaperSet (s : State) : List Nat :=
  s.obj Obj.cls_SHAPE_ENABLE :: (List.range 8).map (fun c => s.obj (Obj.cls_IDLE c))
    ++ (List.range 8).map (fun c => s.obj (Obj.cls_HI c))

/-- The shaper at the end of an output's cell time (R249), under the settings of the output's last selection (R259); `sent` is
the class of the cell sent. -/
def State.shape (s : State) (x : Nat) (sent : Option Nat) : State :=
  let o := s.outPort x
  let l := if o.live = [] then s.shaperSet else o.live
  let cr := (List.range 8).map (fun c =>
    let v := o.cr.getD c 0
    if !(l.getD 0 0).testBit c then 0
    else
      let idle : Int := l.getD (1 + c) 0
      if sent = some c then v - (256 - idle)
      else if !s.classEmpty x c ∨ v < 0 then min (v + idle) (256 * (l.getD (9 + c) 0 : Int))
      else 0)
  s.setOut x { o with cr := cr }

/-- The settings taken at a selection, credits above a lowered ceiling clamped (R259). -/
def State.takeSettings (s : State) (x : Nat) : State :=
  let o := s.outPort x
  s.setOut x { o with live := s.shaperSet,
                      cr := (List.range 8).map (fun c => min (o.cr.getD c 0) (256 * (s.obj (Obj.cls_HI c) : Int))) }

/-- Whether an endpoint has cell times: its link is up, or it leads into this device. -/
def State.outputOn (s : State) (x : Nat) : Bool :=
  s.fabricOn && !s.fatal && (decide (144 ≤ x) || (s.linkUp x && (decide (125 ≤ x) || !s.portsDisabled)))

/-- One cell time of an output (R246, R249): it goes on with its packet or begins the one it selects; a fabric port with
nothing to send, or with 2,048 units unacknowledged, sends an idle unit (R187, R188). -/
def execOutputCellTime (x : EndId) (s : State) : Out :=
  if !s.outputOn x then .next s
  else
    let full := decide (x.val < 125) && decide (2048 ≤ (s.link x).replay.length)
    let s := if full ∨ (s.outPort x).sending ≠ none then s else (s.takeSettings x).beginPacket x
    let (s, sent) := match full, (s.outPort x).sending with
      | false, some k => (s.sendCell x k, some k.pkt.tc.toNat)
      | _, _ =>
        if h : x.val < 125 then
          let p : PortId := ⟨x.val, by omega⟩
          (s.sendUnit p 0 (s.link p).nextSeq [], none)
        else (s, none)
    .next ((s.shape x sent).pfcAll)

/-! ### The transfer slots (R224) -/

/-- R224: one transfer slot, slot 0 and slot 1 in turn. After slot 1 every endpoint with a packet waiting offers a cell
(log 28); packets queued for a port whose link is down are routed again (R190). -/
def execXbarMatch (s : State) : Out :=
  if !s.fabricOn then .next s
  else
    let slot := s.sw.phase
    let s := if slot = 0 then s.countHeld else s
    let s := s.slotMatch
    let s := if slot = 0 then s else s.offerAll
    let s := { s with sw := { s.sw with phase := 1 - slot } }
    let downs := ((s.sw.queues.map (fun e => e.1 / 40)).eraseDups).filter (fun x => decide (x < 125) && !s.linkUp x)
    .next ((downs.foldl State.reroute s).pfcAll)

/-! ### Levels (R236, R237) -/

/-- The tests of one cell time (R236, R237), in the order of `Switch.above`. -/
def State.levelTests (s : State) : List Bool :=
  [decide (s.warnLevel 0 < (s.pool 0).used), decide (s.bpLevel 0 < (s.pool 0).used),
   decide (s.warnLevel 1 < (s.pool 1).used), decide (s.bpLevel 1 < (s.pool 1).used)]
    ++ [0, 1, 2, 3].map (fun n => decide (s.poolLimit n < s.charged n))

/-- The counter of each test's rises. -/
def levelCounters : List Nat :=
  [Obj.pool_WARN_EVENTS 0, Obj.pool_BP_EVENTS 0, Obj.pool_WARN_EVENTS 1, Obj.pool_BP_EVENTS 1]
    ++ [0, 1, 2, 3].map Obj.parfab_LIMIT_EVENTS

/-- One credit granted n times. -/
def State.grantN (s : State) (key : Nat) : Nat → State
  | 0 => s
  | n + 1 => (s.grant key).grantN key n

/-- Withheld credits returned where the condition has ended (R207, R236, R237). -/
def State.payOwed (s : State) : State :=
  s.sw.owed.foldl (fun s e =>
    if s.withheld (e.1 / 40) (e.1 % 40 / 5) then s
    else ({ s with sw := { s.sw with owed := Sparse.drop s.sw.owed e.1 } }).grantN e.1 e.2) s

/-- R236: the counts in use tested against the levels, and the parcels against their limits; rises are counted, credit
returns withheld or made good, XOFF and XON sent (R252). -/
def execPoolLevelTest (s : State) : Out :=
  if !s.fabricOn then .next s
  else
    let now := s.levelTests
    let s' := (now.zip (levelCounters.zip s.sw.above)).foldl (fun t e => if e.1 && !e.2.2 then t.bump e.2.1 else t) s
    let s' := { s' with sw := { s'.sw with above := now } }
    .next (s'.payOwed.pfcAll)

/-- R250: a pacing window begins, at the next slot number that is a multiple of 16. -/
def execPacingWindow (s : State) : Out :=
  let s := s.advanceTo ((s.now / 16384 + 1) * 16384)
  .next { s with sw := { s.sw with paced := [0, 0, 0, 0] } }

/-! ### Spill (R238, R239) -/

/-- Location [43:0] of byte o of page p (R179). -/
def State.pageByte (s : State) (p o : Nat) : Nat :=
  bulkAddr (16 * s.modBytes - s.obj Obj.mem_SPILL_GIB * 2 ^ 30 + p * 4096 + o)

/-- Bytes written into a page from byte o; a page lies in one 4 KiB run of a channel (R160, R179). -/
def State.pokePage (s : State) (p o : Nat) (bs : Bytes) : State :=
  bs.zipIdx.foldl (fun s e => s.pokeByte (s.pageByte p (o + e.2)) e.1) s

/-- A page's header word written into its bytes 248 to 255 (R230). -/
def State.syncPage (s : State) (p : Nat) : State := s.pokePage p 248 (leBytes 8 (s.sw.pages.rd p))

/-- Whether a cell lies in page p. -/
def CellAt.inPage (c : CellAt) (p : Nat) : Bool :=
  match c with
  | .page g _ => decide (g = p)
  | .die _ => false

/-- A queue's cells with those of `f` replaced, packet by packet. -/
def QPkt.mapCells (q : QPkt) (f : CellAt → CellAt) : QPkt := { q with cells := q.cells.map f }

/-- Index of the first spilled cell of a queue, its length when there is none. -/
def OutQ.firstSpilled (q : OutQ) : Nat := (q.cells.takeWhile (fun c => !c.spilled)).length

/-- The oldest tail cells of a queue: those after its spilled segment, or after its head (R238). -/
def OutQ.tail (q : OutQ) : List CellAt :=
  let cs := q.cells
  if cs.any CellAt.spilled then (cs.reverse.takeWhile (fun c => !c.spilled)).reverse else cs.drop q.head

/-- The cell of a queue with its place in its packet: its data bytes and whether it is first and last. -/
def QPkt.cellData (q : QPkt) (i : Nat) : Bytes := padTo 248 (slice q.pkt.bytes (248 * i) 248)

/-- Data, FIRST, LAST and LEN of each cell of a queue, in order. -/
def OutQ.contents (q : OutQ) : List (CellAt × Bytes × Nat) :=
  q.pkts.flatMap (fun k => k.cells.zipIdx.map (fun e => (e.1, k.cellData e.2, min 248 (k.pkt.size - 248 * e.2))))

/-- One tail cell copied into slot i of page p and released; a service port's count goes with it (R238, R252). -/
def State.spillCell (s : State) (p i : Nat) (b : Nat) (data : Bytes) : State :=
  let s := s.pokePage p (256 * i) (data ++ leBytes 8 (s.sw.cells.rd b))
  let info := s.cellInfo b
  let svc := match info.credit with
    | some k => decide (125 ≤ k / 40) && decide (k / 40 < 144)
    | none => false
  let s := if svc then (s.setInfo (slotKey p i) ⟨info.credit, none, .lossless⟩).setInfo b { info with credit := none } else s
  s.releaseCell b

/-- R238: 15 tail cells of a queue written into a page. -/
def execSpillPage (x : EndId) (q : Fin 40) (s : State) : Out :=
  let key := 40 * x.val + q.val
  let c := q.val / 5
  let oq := s.outQ key
  let used := (s.pool 1).used
  let tail := oq.tail.take 15
  if s.fabricOn && s.spills c && decide (tail.length = 15) && decide (s.modBytes ≠ 0) && decide (used < s.critLevel 1)
      && (!s.lossless c || decide (used < s.bpLevel 1)) then
    match s.alloc 1 with
    | (s, none) => .next s
    | (s, some p) =>
      let last := oq.cells.foldl (fun (l : Option Nat) e => match e with | .page g _ => some g | .die _ => l) none
      let s := s.describe 1 p nil false false 15
      let s := match last with
        | some g => (s.linkBuf 1 g p).syncPage g
        | none => s
      let cells := oq.contents.filter (fun e => tail.contains e.1)
      let s := (s.setOutQ key ⟨oq.pkts.map (fun k => k.mapCells (fun e =>
          match tail.findIdx? (fun t => decide (t = e)) with
          | some i => .page p (i + 1)
          | none => e)), oq.head⟩)
      let s := cells.zipIdx.foldl (fun s e =>
        match e.1.1 with
        | .die b => s.spillCell p (e.2 + 1) b e.1.2.1
        | .page _ _ => s) s
      .next ((s.syncPage p).pfcAll)
  else .next s

/-- The cells of a packet that leaves its queue unsent let go. -/
def State.loseQueued (s : State) (k : QPkt) : State :=
  k.cells.foldl (fun s c =>
    match c with
    | .die b => s.releaseCell b
    | .page p i =>
      let info := s.cellInfo (slotKey p i)
      let s := s.setInfo (slotKey p i) CellInfo.reset
      match info.credit with
      | some key => s.giveBack key
      | none => s) s

/-- A packet of a queue lost to an uncorrectable error in a page (R239). -/
def State.loseSpilled (s : State) (k : QPkt) : State := (s.emptyDrop k.pkt.tc.toNat).loseQueued k

/-- One cell of a page brought back on die (R238): a returned cell, charged to no parcel and holding no credit. -/
def State.returnCell (s : State) (p : Nat) (c : CellAt) (n len : Nat) (first last : Bool) : State :=
  match c with
  | .die _ => s
  | .page g i =>
    if g ≠ p then s
    else
      match s.alloc 0 with
      | (s, none) => s
      | (s, some b) =>
        let s := s.describe 0 b nil first last len
        let info := s.cellInfo (slotKey p i)
        let s := (s.setInfo (slotKey p i) CellInfo.reset).setInfo b ⟨info.credit, none, .returned⟩
        let oq := s.outQ n
        s.setOutQ n { oq with pkts := oq.pkts.map (fun k => k.mapCells (fun e => if e = c then .die b else e)) }

/-- The page's cells that a queue still holds brought back, in order. -/
def State.returnQueue (s : State) (p n : Nat) : State :=
  let cs := (s.outQ n).pkts.flatMap (fun k => k.cells.zipIdx.map (fun e =>
    (e.1, min 248 (k.pkt.size - 248 * e.2), decide (e.2 = 0), decide (e.2 + 1 = k.cells.length))))
  let upTo := maxN (cs.zipIdx.map (fun e => if e.1.1.inPage p then e.2 + 1 else 0))
  let s := cs.foldl (fun s e => s.returnCell p e.1 n e.2.1 e.2.2.1 e.2.2.2) s
  let oq := s.outQ n
  -- cells before the next spilled one make up the head; with none left, those up to the last one returned
  (s.setOutQ n { oq with head := if oq.cells.any CellAt.spilled then oq.firstSpilled else upTo }).joinTail n

/-- R238, R239: the oldest page of a queue returned. `badSlots` are the slots whose lines meet an uncorrectable error, slot 0
that of the page's header word. -/
def execSpillReturn (x : EndId) (q : Fin 40) (badSlots : List (Fin 16)) (s : State) : Out :=
  let key := 40 * x.val + q.val
  let oq := s.outQ key
  let head := if oq.cells.any CellAt.spilled then oq.firstSpilled else oq.head
  match oq.cells.find? CellAt.spilled with
  | some (.page p _) =>
    if s.fabricOn && !(s.pool 0).stopped && decide (head < s.obj Obj.lim_SPILL_RETURN) && decide ((s.pool 0).used < s.bpLevel 0)
        && decide (s.cellsOf .returned ≤ 4081) then
      if badSlots.any (fun b => decide (b.val = 0)) then .next ((s.memUncorrected (s.pageByte p 248)).listCorrupt 1 p)
      else
        let bad := badSlots.map (fun b => b.val)
        let s := bad.foldl (fun s i => s.memUncorrected (s.pageByte p (256 * i))) s
        let isBad (k : QPkt) : Bool := k.cells.any (fun c => match c with | .page g i => decide (g = p) && bad.contains i | .die _ => false)
        let keys := s.sw.queues.map Prod.fst
        -- packets of a rerouted queue may share the page (R190)
        let s := keys.foldl (fun s n =>
          let oq := s.outQ n
          let lost := oq.pkts.filter isBad
          if lost = [] then s else lost.foldl State.loseSpilled (s.setOutQ n { oq with pkts := oq.pkts.filter (fun k => !isBad k) })) s
        let pages := oq.cells.filterMap (fun c => match c with | .page g _ => some g | .die _ => none)
        let s := keys.foldl (fun s n => if (s.outQ n).cells.any (fun c => c.inPage p) then
          s.returnQueue p n else s) s
        let s := (s.freePages (p :: pages)).syncPage p
        .next s.pfcAll
    else .next s
  | _ => .next s

end Sys2Proof.Machine
end

