-- ==== Sys2Proof/Machine/Service.lean ====
section
/-! DEFINITION. Service ports: the frames they take (R210, R211), policing (R256 to R258), ECN (R255), peers (R213, R219) and
neighbour discovery (R210). -/

namespace Sys2Proof.Machine

/-! ### Policing (R256, R257) -/

/-- The index of a service port's policer of class c (R261). -/
def polIdx (p c : Nat) : Nat := 8 * (p - 125) + c

/-- The policer modes of a service port's classes as their objects give them (R261). -/
def State.polModes (s : State) (p : Nat) : List Nat := (List.range 8).map (fun c => s.obj (Obj.pol_MODE (polIdx p c)))

/-- Buckets after the refill of one slot (R256), the policer's settings taken (R261). -/
def State.refillPort (s : State) (p : Nat) : State :=
  let v := s.svc p
  let fill (old : List Int) (rate size : Nat → Nat) : List Int :=
    (List.range 8).map (fun c => min (old.getD c 0 + (s.obj (rate (polIdx p c)) * 8 : Nat)) (s.obj (size (polIdx p c)) * 1000 : Nat))
  s.setSvc p { v with tc := fill v.tc Obj.pol_CIR Obj.pol_CBS, tp := fill v.tp Obj.pol_PIR Obj.pol_PBS, mode := s.polModes p }

/-- R256: the refill at the start of the next slot. -/
def execPolicerRefill (s : State) : Out :=
  let s := s.advanceTo ((s.slot + 1) * 1024)
  .next ((List.range 19).foldl (fun s i => s.refillPort (125 + i)) s)

/-- Both buckets of a policer full (R257). -/
def State.fillBuckets (s : State) (p c : Nat) : State :=
  let v := s.svc p
  s.setSvc p { v with tc := v.tc.set c (s.obj (Obj.pol_CBS (polIdx p c)) * 1000 : Nat),
                      tp := v.tp.set c (s.obj (Obj.pol_PBS (polIdx p c)) * 1000 : Nat) }

/-- The policer modes in force after a start of the fabric function (R257). -/
def State.takeModes (s : State) (p : Nat) : State := s.setSvc p { s.svc p with mode := s.polModes p }

/-- `police` of R256 for a frame of `bytes` bytes: 0 green, 1 yellow, 2 red, counted (R258). -/
def State.police (s : State) (p c bytes dscp : Nat) : State × Nat :=
  let i := polIdx p c
  let mode := (s.svc p).mode.getD c 0
  if mode = 0 then (s, 0)
  else
    let pre := if mode = 2 then (if field dscp 2 1 = 2 then 1 else if field dscp 2 1 = 3 then 2 else 0) else 0
    let b : Int := (bytes * 1000 : Nat)
    let v := s.svc p
    let tp := v.tp.getD c 0
    let tc := v.tc.getD c 0
    if pre = 2 ∨ tp - b < 0 then (s.bump (Obj.pol_RED i), 2)
    else if pre = 1 ∨ tc - b < 0 then ((s.setSvc p { v with tp := v.tp.set c (tp - b) }).bump (Obj.pol_YELLOW i), 1)
    else ((s.setSvc p { v with tp := v.tp.set c (tp - b), tc := v.tc.set c (tc - b) }).bump (Obj.pol_GREEN i), 0)

/-! ### Frames (R210, R211) -/

/-- A frame that is discarded before its network layer is looked at (R210). -/
def State.frameRefused (s : State) (p : Nat) (f : EthFrame) : Bool :=
  let vid := s.obj (Obj.port_SVC_VID p)
  decide (s.obj (Obj.port_SVC_MTU p) + 22 < f.bytes) || f.stacked
    || (match f.vid with | some v => decide (v.toNat ≠ vid) | none => decide (vid ≠ 0))
    || !f.ipv6 || f.extHeaders

/-- The largest LEN of an operation on a service port (R191, R212). -/
def State.svcLimit (s : State) (p : Nat) : Nat := min 4096 ((s.obj (Obj.port_SVC_MTU p) - 112) / 64 * 64)

/-- The peer table entry of an address (R213, R219). -/
def State.peerEntry (s : State) (a : BitVec 128) : Option Nat :=
  if a = 0 then none
  else (List.range 1024).find? (fun i => decide (s.obj (Obj.peer_PEER_ADDR i) = octNat 16 a.toNat))

/-- The checks of a Renensan datagram after policing (R191, R196, R213): the state with what they count, and whether the
packet is taken. -/
def State.svcAdmit (s : State) (p : Nat) (addr : BitVec 128) (k : Packet) : State × Bool :=
  if k.op = opTime ∨ !(k.requestOk (s.svcLimit p) || k.responseOk (s.svcLimit p)) then (s.bump (Obj.port_RX_DISCARD p), false)
  else if !k.resp && (s.peerEntry addr).isNone then (s.bump (Obj.port_PEER_UNKNOWN p), false)
  else if k.dst.toNat ≠ s.logicalId then (s.bump (Obj.port_RX_REFUSED p), false)
  else (s, true)

/-- A Renensan datagram (R211, R255, R256): checked, policed, marked, and put before the input stage. -/
def State.datagramRx (s : State) (p : PortId) (f : EthFrame) : State :=
  let k := Packet.parse f.payload
  let k := { k with payload := f.payload.drop (if k.ext then 64 else 32) }
  if !f.csumOk then s.bump (Obj.port_UDP_CSUM_ERR p)
  else if s.obj (Obj.port_SVC_MTU p) - 48 < f.payload.length then s.bump (Obj.port_ETH_DISCARD p)
  else
    let (s, colour) := s.police p k.tc.toNat f.bytes f.dscp.toNat
    if colour = 2 then s
    else
      let k := { k with cm := k.cm || decide (colour = 1) || decide (f.ecn = 3) }
      match if f.payload.length < 32 then (s.bump (Obj.port_RX_DISCARD p), false) else s.svcAdmit p f.srcAddr k with
      | (s, false) => s
      | (s, true) => s.setTxq p (Sparse.get [] s.txq p ++ [⟨k, ⟨some p, f.srcAddr, f.udpSrc, f.srcMac⟩, none, 0, none⟩])

/-- The ports of IEEE 1588 over UDP, whose messages have commands of their own (R340; log 30). -/
def ptpPort (n : Nat) : Bool := decide (n = 319) || decide (n = 320)

/-- The multicast address of IEEE 1588 over IPv6 that R340 names. -/
def ptpGroup : BitVec 128 := 0xFF0E0000000000000000000000000181

/-- The message types supported: Sync, Delay_Req, Follow_Up, Delay_Resp, Announce (R340; their codes are the standard's, log 16). -/
def ptpKnown (payload : Bytes) : Bool := [0, 1, 8, 9, 11].contains (byteAt payload 0 % 16)

/-- R210: an Ethernet frame on a service port. -/
def execSvcFrameRx (p : PortId) (f : EthFrame) (s : State) : Out :=
  .next (
    if !s.svcUp p then s
    else if !f.fcsOk then s.bump (Obj.port_ETH_FCS_ERR p)
    else if s.frameRefused p f || !f.udp then s.bump (Obj.port_ETH_DISCARD p)
    else if ptpPort f.udpDst.toNat && decide (f.dstAddr = ptpGroup) then
      (if ptpKnown f.payload then s else s.bump (Obj.port_ETH_DISCARD p))
    else if octNat 16 f.dstAddr.toNat ≠ s.obj (Obj.port_SVC_ADDR p) then s.bump (Obj.port_ETH_DISCARD p)
    else if f.udpDst = 48211 then s.datagramRx p f
    else if ptpPort f.udpDst.toNat && ptpKnown f.payload then s
    else s.bump (Obj.port_ETH_DISCARD p))

/-! ### Neighbour discovery (R210) -/

/-- The ones' complement sum of 16-bit words. -/
def onesSum (bs : Bytes) : Nat :=
  let t := sumN ((pieces 2 bs).map (fun w => beNat (padTo 2 w)))
  let t := t % 65536 + t / 65536
  t % 65536 + t / 65536

/-- A Neighbor Advertisement frame for SVC_ADDR, from its destination address to its last option, without FCS; its layout is
the IETF's (log 30). -/
def State.advertFrame (s : State) (p : Nat) (f : EthFrame) : Bytes :=
  let mac := s.octBytes (Obj.port_SVC_MAC p) 6
  let addr := s.octBytes (Obj.port_SVC_ADDR p) 16
  let vid := s.obj (Obj.port_SVC_VID p)
  let solicited := decide (f.srcAddr ≠ 0)
  let dst := if solicited then beBytes 16 f.srcAddr.toNat else beBytes 16 0xFF020000000000000000000000000001
  let body := beBytes 4 (if solicited then 0x60000000 else 0x20000000) ++ addr ++ beBytes 2 0x0201 ++ mac
  let pseudo := addr ++ dst ++ beBytes 4 32 ++ beBytes 4 58
  let sum := 0xFFFF - onesSum (pseudo ++ beBytes 2 0x8800 ++ beBytes 2 0 ++ body)
  beBytes 6 f.srcMac.toNat ++ mac ++ (if vid = 0 then [] else beBytes 2 0x8100 ++ beBytes 2 vid) ++ beBytes 2 0x86DD
    ++ beBytes 4 0x60000000 ++ beBytes 2 32 ++ beBytes 1 58 ++ beBytes 1 255 ++ addr ++ dst
    ++ beBytes 2 0x8800 ++ beBytes 2 sum ++ body

/-- R210: a Neighbor Solicitation; one for SVC_ADDR is answered with an advertisement. -/
def execNeighborSolicitationRx (p : PortId) (f : EthFrame) (target : BitVec 128) (s : State) : Out :=
  .next (
    if !s.svcUp p then s
    else if !f.fcsOk then s.bump (Obj.port_ETH_FCS_ERR p)
    else if s.frameRefused p f || decide (target = 0) || decide (octNat 16 target.toNat ≠ s.obj (Obj.port_SVC_ADDR p)) then
      s.bump (Obj.port_ETH_DISCARD p)
    else s.emit (.frame p (s.advertFrame p f)))

end Sys2Proof.Machine
end

