-- ==== Sys2Proof/Machine/Receive.lean ====
section
/-! DEFINITION. Requests as this device takes them (R191, R196 to R198, R213) and answers them (R192, R208, R211), and responses
as its cores take them (R194, R195, R209). -/

namespace Sys2Proof

/-- Whether a packet came by a service port. -/
def RxAt.service (at_ : RxAt) : Bool :=
  match at_.port with
  | some p => decide (125 ≤ p.val)
  | none => false

/-- Whether a response is one that its request can have (R194): its operation is the request's. -/
def Packet.answers (k q : Packet) : Bool := decide (k.op = q.op)

end Sys2Proof

namespace Sys2Proof.Machine

/-! ### What arrives -/

/-- Whether a packet stands received: it lies in this device's inbox, or its port is up and can have brought it (R190, R206). -/
def State.received (s : State) (at_ : RxAt) (k : Packet) : Bool :=
  s.inbox.contains (at_, k) ||
    (match at_.port with
     | none => false
     | some p => if p.val < 125 then s.linkOpen p else s.svcUp p)

/-- The inbox without a packet. -/
def State.taken (s : State) (at_ : RxAt) (k : Packet) : State := { s with inbox := s.inbox.erase (at_, k) }

/-- RX_DISCARD of the port a packet came by (R191). -/
def State.discardRx (s : State) (at_ : RxAt) : State :=
  match at_.port with
  | some p => s.bump (Obj.port_RX_DISCARD p)
  | none => s

/-- RX_REFUSED of the port a packet came by (R15, R158, R196). -/
def State.refuseRx (s : State) (at_ : RxAt) : State :=
  match at_.port with
  | some p => s.bump (Obj.port_RX_REFUSED p)
  | none => s

/-- The largest LEN a packet may have where it came by (R191, R212). -/
def State.lenLimit (s : State) (at_ : RxAt) : Nat :=
  match at_.port with
  | some p => if 125 ≤ p.val then s.svcLimit p else 4096
  | none => 4096

/-- A packet for another device: routed onward from a fabric port, refused on a service port (R196 step 1). -/
def State.onward (s : State) (at_ : RxAt) (k : Packet) : State :=
  match at_.port with
  | some p => if 125 ≤ p.val then s.bump (Obj.port_RX_REFUSED p) else s.setTxq p (Sparse.get [] s.txq p ++ [⟨k, at_, none, 0, none⟩])
  | none => s

/-! ### Answers (R192, R211) -/

/-- A response sent from endpoint x: to a service-port peer by its port, split as R211 says; otherwise through the switch. -/
def State.reply (s : State) (x : Nat) (at_ : RxAt) (r : Packet) : State :=
  if at_.service then
    let p := match at_.port with | some p => p.val | none => 0
    let lim := s.obj (Obj.port_SVC_MTU p) - 48 - 32
    let parts := if r.payload.length ≤ lim then [(0, r.payload.length)] else cut r.payload.length lim
    let items : List TxItem := parts.map (fun (e : Nat × Nat) =>
      ⟨{ r with addr := r.addr + BitVec.ofNat 64 e.1, len := BitVec.ofNat 16 e.2, payload := slice r.payload e.1 e.2 }, ownAt, some at_, 0, none⟩)
    s.setTxq x (Sparse.get [] s.txq x ++ items)
  else s.inject x r

/-- A request answered from the endpoint it was delivered to. -/
def State.respond (s : State) (at_ : RxAt) (k : Packet) (st : Nat) (bs : Bytes) : State :=
  s.reply (s.deliverTo k) at_ (s.response k st bs)

/-! ### Admission (R196, R213, R219) -/

/-- The PEER_OPS bit of an operation (R219); none where no bit permits it. -/
def peerBit (op : BitVec 3) : Option Nat :=
  match op.toNat with
  | 0 => some 0 | 1 => some 1 | 2 => some 2 | 3 => some 3 | _ => none

/-- Whether the peer of entry i may carry out an operation on parcel n. -/
def State.peerMay (s : State) (i : Nat) (op : BitVec 3) (n : Option Nat) : Bool :=
  (match peerBit op with
   | some b => (s.obj (Obj.peer_PEER_OPS i)).testBit b
   | none => false)
  && (match n with
      | some n => (s.obj (Obj.peer_PEER_PARCELS i)).testBit n
      | none => true)

/-- What a request's checks give: the state with what they count, and, when it is to be carried out, the peer's entry. -/
structure Checked where
  s : State
  peer : Option (Option Nat)

/-- A request's header, destination and peer checked (R191, R196 step 1, R213). -/
def State.checkRequest (s : State) (at_ : RxAt) (k : Packet) : Checked :=
  if !k.requestOk (s.lenLimit at_) then ⟨s.discardRx at_, none⟩
  else if at_.service then
    match s.peerEntry at_.peerAddr, at_.port with
    | some i, some p => if k.dst.toNat ≠ s.logicalId then ⟨s.bump (Obj.port_RX_REFUSED p), none⟩ else ⟨s, some (some i)⟩
    | _, some p => ⟨s.bump (Obj.port_PEER_UNKNOWN p), none⟩
    | _, none => ⟨s, none⟩
  else if k.dst.toNat ≠ s.logicalId then ⟨s.onward at_ k, none⟩
  else ⟨s, some none⟩

/-- A request of a service-port peer counted in its entry (R219). -/
def State.notePeer (s : State) (peer : Option Nat) : State :=
  match peer with | some i => s.bump (Obj.peer_PEER_REQUESTS i) | none => s

/-- Whether a request's peer, where it came by a service port, may have it carried out on a parcel (R213, R219). -/
def State.requestMay (s : State) (peer : Option Nat) (op : BitVec 3) (n : Option Nat) : Bool :=
  match peer with | some i => s.peerMay i op n | none => true

/-- The core and device that a request's effects name as its sender: for a service port its peer (R97, R213). -/
def senderOf (peer : Option Nat) (k : Packet) : Nat × Nat :=
  match peer with | some i => (0x8000 + i, 0xFFFFF) | none => (k.srcCore.toNat, k.src.toNat)

/-- A request whose admission is decided (R196 steps 5 to 7): discarded, refused with ADDR_RANGE, or carried out and answered. -/
def State.settleRequest (s : State) (at_ : RxAt) (k : Packet) (peer : Option Nat) (a : Admission) : State :=
  match a with
  | .ok n =>
    if s.requestMay peer k.op (some n) then
      let (s, b) := (s.notePeer peer).serve k (senderOf peer k).1 (senderOf peer k).2
      let s := if b.status = stAddrRange then s.refuseRx at_ else s
      s.respond at_ k b.status b.payload
    else s.countRefused (some n)
  | .range => if s.requestMay peer k.op none then ((s.notePeer peer).refuseRx at_).respond at_ k stAddrRange [] else s.refuseRx at_
  | .no (some n) => s.countRefused (some n)
  | .no none => s.refuseRx at_

/-- A put, get, acc, msg or flag packet received (R191, R196, R213). -/
def State.takeRequest (s : State) (at_ : RxAt) (k : Packet) : State :=
  let r := (s.taken at_ k).checkRequest at_ k
  match r.peer with
  | none => r.s
  | some peer => r.s.settleRequest at_ k peer (r.s.admission at_.port.isNone k)

/-- A request command whose packet is of the right kind and stands received. -/
def State.rxRequest (s : State) (at_ : RxAt) (k : Packet) (kind : Bool) (errs : List MemErr) : State :=
  if kind && !k.resp && s.received at_ k then (s.plant errs).takeRequest at_ k else s

/-- R196: a put. -/
def execRxPut (at_ : RxAt) (k : Packet) (errs : List MemErr) (s : State) : Out :=
  .next (s.rxRequest at_ k (decide (k.op = opPut) && !k.isFlag) errs)

/-- R192: a flag packet. -/
def execRxFlagPacket (at_ : RxAt) (k : Packet) (s : State) : Out := .next (s.rxRequest at_ k k.isFlag [])

/-- R192: a get. -/
def execRxGet (at_ : RxAt) (k : Packet) (errs : List MemErr) (s : State) : Out :=
  .next (s.rxRequest at_ k (decide (k.op = opGet)) errs)

/-- R171: a contribution to an accumulate unit. -/
def execRxAcc (at_ : RxAt) (k : Packet) (errs : List MemErr) (s : State) : Out :=
  .next (s.rxRequest at_ k (decide (k.op = opAcc)) errs)

/-- R97: a message for a receive ring. -/
def execRxMsg (at_ : RxAt) (k : Packet) (s : State) : Out := .next (s.rxRequest at_ k (decide (k.op = opMsg)) [])

/-! ### Responses (R194, R195, R209) -/

/-- The window of a class after a response (R209). -/
def TxWindow.respond (w : TxWindow) (echo : Bool) (slot : Nat) : TxWindow :=
  if echo then
    match w.lastCut with
    | some t => if slot < t + 16 then { w with run := 0 } else ⟨max 1 (w.size - ceilDiv w.size 4), some slot, 0⟩
    | none => ⟨max 1 (w.size - ceilDiv w.size 4), some slot, 0⟩
  else if w.size ≤ w.run + 1 then { w with size := min 64 (w.size + 1), run := 0 }
  else { w with run := w.run + 1 }

/-- A response whose TAG matches request j of entry i of core c (R194, R195): the window moves, the answer is applied, and
requests that waited for the window are sent. -/
def State.coreAnswer (s : State) (c i j : Nat) (k : Packet) : State :=
  let tc := k.tc.toNat
  let s := s.modCore c (fun e => { e with win := Sparse.set TxWindow.reset e.win tc ((e.window tc).respond k.ceEcho s.slot) })
  (s.answered c i j k.status.toNat k.payload).sendAll c

/-- A response for a core (R194, R197): matched by DST_CORE and TAG, else discarded. -/
def State.coreResponse (s : State) (at_ : RxAt) (c : Nat) (k : Packet) : State :=
  match (s.core c).findOut k.tag.toNat with
  | some (i, j) =>
    match ((s.core c).txe[i]?).bind (fun e => e.out[j]?) with
    | some o => if k.answers o.pkt && o.full.isNone then s.coreAnswer c i j k else s.discardRx at_
    | none => s.discardRx at_
  | none => s.discardRx at_

end Sys2Proof.Machine
end

