-- ==== Sys2Proof/Machine/SteRec.lean ====
section
/-! DEFINITION. Records of the stream engines and the operations on streams of them: layouts (R270), keys and their order (R280),
exact sums and conversions (R281, R282), and each operation of R279 as a function of its input streams. -/

namespace Sys2Proof.Machine

/-! ### Layouts (R270) -/

/-- KEY_FMT, VAL_FMT, VAL_N and RSIZE (R270). -/
structure StLay where
  kf : Nat
  vf : Nat
  vn : Nat
  rs : Nat
  deriving DecidableEq, Repr

/-- n rounded up to a multiple of 8. -/
def up8 (n : Nat) : Nat := ceilDiv n 8 * 8

/-- The value format; a reserved code is refused at START. -/
def StLay.fmt (l : StLay) : Fmt := (Fmt.ofCode (l.vf % 16)).getD .raw8
/-- The scaling mode. -/
def StLay.mode (l : StLay) : Nat := l.vf / 16 % 4
/-- Elements of a block. -/
def StLay.block (l : StLay) : Nat := blockElems (l.vf / 64)
/-- Blocks of a record. -/
def StLay.blocks (l : StLay) : Nat := if l.mode = 1 then ceilDiv l.vn l.block else 0
/-- Bytes of the key field. -/
def StLay.keyLen (l : StLay) : Nat := if l.kf = 0 then 0 else 8
/-- Bytes of the packed elements before their padding. -/
def StLay.elemLen (l : StLay) : Nat := ceilDiv (l.vn * l.fmt.width) 8
/-- Bytes of the value region. -/
def StLay.valLen (l : StLay) : Nat := up8 l.blocks + up8 l.elemLen
/-- Bytes of the layout (R270). -/
def StLay.size (l : StLay) : Nat := l.keyLen + l.valLen

/-- A layout that R270 permits. -/
def StLay.ok (l : StLay) : Bool :=
  decide (l.kf ≤ 6) && (Fmt.ofCode (l.vf % 16)).isSome && decide (l.fmt ≠ .da64) && decide (l.mode ≤ 1) && modeOk l.fmt l.mode
    && decide (l.size = l.rs) && decide (8 ≤ l.rs) && decide (l.rs ≤ 4096)

/-- The value region of a record. -/
def StLay.region (l : StLay) (bs : Bytes) : Bytes := bs.drop l.keyLen
/-- Element codes of a record. -/
def StLay.codes (l : StLay) (bs : Bytes) : List Nat :=
  unpackCodes l.fmt.width l.vn (padTo (ceilDiv (l.vn * l.fmt.width) 8) ((l.region bs).drop (up8 l.blocks)))
/-- Values of a record, block scales applied (R31). -/
def StLay.values (l : StLay) (bs : Bytes) : List Num :=
  if l.mode = 1 then (l.codes bs).mapIdx (fun i c => scaledElem l.fmt (byteAt (l.region bs) (i / l.block)) c)
  else (l.codes bs).map (decodeElem l.fmt false)

/-- The key field of a record as its bytes. -/
def StLay.keyBytes (l : StLay) (bs : Bytes) : Bytes := bs.take l.keyLen

/-- A value region of element codes as they stand. -/
def StLay.withCodes (l : StLay) (cs : List Nat) : Bytes :=
  List.replicate (up8 l.blocks) 0 ++ padTo (up8 l.elemLen) (packCodes l.fmt.width l.elemLen cs)

/-- A value region written to nearest even (R282): bytes, saturations, NaN outcomes (R39). -/
def StLay.encode (l : StLay) (vs : List Num) : Bytes × Nat × Nat :=
  if l.mode = 1 then
    let outs := (pieces l.block vs).map (fun b => writeBlock l.fmt false b [])
    (padTo (up8 l.blocks) (outs.map (fun o => BitVec.ofNat 8 o.scale))
      ++ padTo (up8 l.elemLen) (packCodes l.fmt.width l.elemLen (outs.flatMap BlockOut.codes)),
     sumN (outs.map BlockOut.sats), sumN (outs.map BlockOut.nans))
  else
    let cs := vs.map (encodeElem l.fmt false none)
    (padTo (up8 l.elemLen) (packCodes l.fmt.width l.elemLen (cs.map Coded.code)), (cs.filter Coded.sat).length, (cs.filter Coded.nan0).length)

/-! ### Keys (R277, R280) -/

/-- `okey` of R280. -/
def okey (k kf : Nat) : Nat :=
  if kf = 3 then (k % 2 ^ 32) ^^^ 0x80000000
  else if kf = 4 then k ^^^ 0x8000000000000000
  else if kf = 5 ∨ kf = 6 then
    let f := if kf = 6 then k % 2 ^ 16 * 2 ^ 16 else k % 2 ^ 32
    let f := if 0x7F800000 < f % 2 ^ 31 then 0x7FC00000 else f
    let f := if f = 0x80000000 then 0 else f
    if f.testBit 31 then 2 ^ 32 - 1 - f else f + 2 ^ 31
  else if kf = 1 then k % 2 ^ 32
  else k

/-- The key format of a KSEL: the record's, or that of a value element (R277, R280). -/
def StLay.keyFmt (l : StLay) (ksel : Nat) : Nat :=
  if ksel = 0xFF then l.kf else match l.fmt with | .fp32 => 5 | .bf16 => 6 | _ => 3

/-- The key a KSEL selects (R277). -/
def StLay.key (l : StLay) (ksel : Nat) (bs : Bytes) : Nat :=
  if ksel = 0xFF then leAt bs 0 8 else (l.codes bs).getD ksel 0

/-- The key read as an index (R277, R283): a U32 key's other bytes are ignored. -/
def StLay.indexOf (l : StLay) (ksel : Nat) (r : StRec) : Nat :=
  if ksel = 0xFF ∧ l.kf = 1 then l.key ksel r.bytes % 2 ^ 32 else l.key ksel r.bytes

/-- The order key of a record. -/
def StLay.order (l : StLay) (ksel : Nat) (r : StRec) : Nat := okey (l.key ksel r.bytes) (l.keyFmt ksel)

/-- Source order (R271). -/
def StRec.before (a b : StRec) : Bool := decide (a.rank < b.rank) || (decide (a.rank = b.rank) && decide (a.seq ≤ b.seq))

/-- A stable insertion sort by an order on keys. -/
def insertOrd {α : Type} (le : α → α → Bool) (x : α) : List α → List α
  | [] => [x]
  | y :: ys => if le x y then x :: y :: ys else y :: insertOrd le x ys

/-- The stable sort: an element stays before later ones that do not precede it. -/
def sortOrd {α : Type} (le : α → α → Bool) (l : List α) : List α := l.foldr (insertOrd le) []

/-- Records sorted by key, equal keys in the order given (R280). -/
def sortRecs (l : StLay) (ksel : Nat) (desc : Bool) (rs : List StRec) : List StRec :=
  (sortOrd (fun (a b : Nat × StRec) => if desc then decide (b.1 ≤ a.1) else decide (a.1 ≤ b.1)) (rs.map (fun r => (l.order ksel r, r)))).map Prod.snd

/-! ### What an instruction gives -/

/-- What an instruction's records give to count (R289), and the status and excess of its exact elements (R281). -/
structure StCount where
  sums : SumCount
  convSat : Nat
  nans : Nat
  dropped : Nat
  status : Nat
  excess : Nat
  deriving DecidableEq, Repr

/-- Nothing counted. -/
def StCount.zero : StCount := ⟨SumCount.zero, 0, 0, 0, 0, 0⟩

/-- Two counts together. -/
def StCount.add (a b : StCount) : StCount :=
  ⟨a.sums.add b.sums, a.convSat + b.convSat, a.nans + b.nans, a.dropped + b.dropped, max a.status b.status, max a.excess b.excess⟩

/-- What an instruction gives: records for D and for B, and counts; or a fault with the end concerned. -/
inductive StOut where
  | ok (d b : List StRec) (n : StCount)
  | fault (code end_ : Nat)
  deriving DecidableEq, Repr

/-- Fault codes of R288. -/
def steIllegal : Nat := 1
/-- R288. -/
def steGraph : Nat := 2
/-- R288. -/
def steFormat : Nat := 3
/-- R288. -/
def steRegion : Nat := 4
/-- R288. -/
def steOverflow : Nat := 5
/-- R288. -/
def steLength : Nat := 6
/-- R288. -/
def steIndex : Nat := 7
/-- R288. -/
def steUnsorted : Nat := 8
/-- R288. -/
def steAnchor : Nat := 9
/-- R288. -/
def steOrder : Nat := 10
/-- R288. -/
def steRemote : Nat := 11
/-- R288. -/
def steExpired : Nat := 12
/-- R288. -/
def steMem : Nat := 13

/-! ### Exact sums (R281) -/

/-- The elements of a record as they enter a sum. -/
inductive StElem where
  | term (v : Num)
  | word (w : Da)
  deriving DecidableEq, Repr

/-- The elements of a record: DA128 words checked (R63), and CLOSURE_FAIL on those of a record whose copies differed (R313). -/
def StLay.elems (l : StLay) (r : StRec) : List (StElem × Bool) :=
  if l.fmt = .da128 then (l.codes r.bytes).map (fun c => let x := (Da.unpack c).check; (.word x.1, x.2))
  else (l.values r.bytes).map (fun v => (.term v, false))

/-- An element added to a sum in progress; `bad` marks the sum CLOSURE_FAIL. -/
def addElem (anchor : Int) (bad : Bool) (a : Acc) (e : StElem × Bool) : Acc :=
  let a := match e.1 with
    | .term v => a.addTerm .da128 anchor v
    | .word w => a.addWord .da128 w
  let a := { a with cnt := { a.cnt with resFail := a.cnt.resFail + b2n e.2 } }
  if bad then { a with word := { a.word with flags := a.word.flags ||| 8 } } else a

/-- One record added elementwise to a row of sums. -/
def addRecord (l : StLay) (anchor : Int) (sums : List Acc) (r : StRec) : List Acc :=
  sums.zipWith (addElem anchor r.bad) (l.elems r)

/-- A row of sums as the value region of D (R281): DA128 words with their flags, or converted out and divided by n. PARTIAL is
set on the sums of a partial input. -/
def sumsOut (d : StLay) (anchor : Int) (n : Nat) (part : Bool) (sums : List Acc) : Bytes × StCount :=
  let ws := sums.map (fun a => if part then { a.word with flags := a.word.flags ||| 4 } else a.word)
  let cnt := sums.foldl (fun c a => SumCount.add c a.cnt) SumCount.zero
  let st := ws.foldl (fun m w => max m (statusOf w.flags)) 0
  let ex := ws.foldl (fun m w => max m w.excess) 0
  if d.fmt = .da128 then (d.withCodes (ws.map Da.pack), ⟨cnt, 0, 0, 0, st, ex⟩)
  else
    let (bs, sats, nans) := d.encode (ws.map (convertOut .da128 anchor Q.one n))
    (bs, ⟨cnt, sats, nans, 0, st, ex⟩)

/-- Rows of sums as records of D. -/
def sumRecords (d : StLay) (anchor : Int) (n : Nat) (part : Bool) (rows : List (List Acc × Nat × Nat)) : StOut :=
  let outs := rows.map (fun r => (sumsOut d anchor n part r.1, r.2))
  .ok (outs.map (fun o => ⟨o.1.1, o.2.1, o.2.2, false⟩)) [] (outs.foldl (fun c o => c.add o.1.2) StCount.zero)

/-- ZSUM (R279): record n of A and record n of B; a record keeps A's tag (log 31). -/
def zsum (a b d : StLay) (anchor : Int) (n : Nat) (part : Bool) (xs ys : List StRec) (endB : Nat) : StOut :=
  if xs.length ≠ ys.length then .fault steLength endB
  else
    let zero := List.replicate a.vn Acc.empty
    sumRecords d anchor (max n 1) part (List.zipWith (fun x y => (addRecord b anchor (addRecord a anchor zero x) y, x.rank, x.seq)) xs ys)

/-- RSUM (R279): for every seq the sum over all ranks; `place` is that of its first sum among the stage's (log 37). -/
def rsum (a d : StLay) (anchor : Int) (n nrec nonce place : Nat) (part : Bool) (xs : List StRec) : StOut :=
  let zero := List.replicate a.vn Acc.empty
  sumRecords d anchor (max n 1) part ((List.range nrec).map (fun q =>
    (((xs.filter (fun x => decide (x.seq = q))).foldl (addRecord a anchor) zero).mapIdx (fun i s => s.settle .da128 nonce (place + q * a.vn + i)), 0, q)))

/-- The larger of two values; a NaN makes the result NaN (R281). -/
def maxNum (a b : Num) : Num :=
  match a, b with
  | .nan, _ => .nan
  | _, .nan => .nan
  | .inf false, _ => .inf false
  | _, .inf false => .inf false
  | .inf true, y => y
  | x, .inf true => x
  | .fin n p, .fin m q =>
    let sp := if n then p.neg else p
    let sq := if m then q.neg else q
    if sp.lt sq then .fin m q else if sq.lt sp then .fin n p else .fin (n && m) p
  | x, _ => x

/-- ⌊log2 |t|⌋ of a finite nonzero term. -/
def expOf : Num → Option Int
  | .fin _ q => if q.isZero then none else some q.log2
  | _ => none

/-- The magnitude of a value. -/
def absNum : Num → Num
  | .fin _ q => .fin false q
  | .inf _ => .inf false
  | .ovf _ => .ovf false
  | .nan => .nan

/-- The larger of an optional exponent and a term's. -/
def maxExp (m : Option Int) (v : Num) : Option Int :=
  match m, expOf v with
  | none, e => e
  | some a, none => some a
  | some a, some b => some (max a b)

/-- RMAX (R279, R281): mode 0 MAX, 1 AMAX, 2 MAXEXP. DA128 words of one anchor are compared by their values. -/
def rmax (a d : StLay) (mode nrec : Nat) (part : Bool) (xs : List StRec) : StOut :=
  let rows := (List.range nrec).map (fun q => xs.filter (fun x => decide (x.seq = q)))
  if a.fmt = .da128 then
    let outs := rows.map (fun rs =>
      let ws := rs.map (fun r => (a.codes r.bytes).map (fun c => (Da.unpack c).check))
      let best := (List.range a.vn).map (fun i =>
        let col := ws.map (fun w => (w.getD i (Da.zero, false)))
        let vals := col.map (fun c => if mode = 1 then (c.1.v.natAbs : Int) else c.1.v)
        let v := vals.foldl max (vals.headD 0)
        let f := col.foldl (fun f c => f ||| c.1.flags) (if part then 4 else 0)
        Da.mk' v (maxN (col.map (fun c => c.1.excess))) f)
      let fails := sumN (ws.map (fun w => (w.filter Prod.snd).length))
      (best, fails))
    .ok (outs.mapIdx (fun q o => ⟨d.withCodes (o.1.map Da.pack), 0, q, false⟩)) []
      ⟨⟨0, 0, 0, 0, sumN (outs.map Prod.snd), 0⟩, 0, 0, 0, maxN (outs.flatMap (fun o => o.1.map (fun w => statusOf w.flags))),
       maxN (outs.flatMap (fun o => o.1.map Da.excess))⟩
  else
    let vals := rows.map (fun rs => rs.map (fun r => a.values r.bytes))
    if mode = 2 then
      .ok (vals.mapIdx (fun q vs => ⟨d.withCodes ((List.range a.vn).map (fun i =>
        wrap 32 (((vs.map (fun v => v.getD i .zero)).foldl maxExp none).getD 0))), 0, q, false⟩)) [] StCount.zero
    else
      let best := vals.map (fun vs => (List.range a.vn).map (fun i =>
        let col := vs.map (fun v => let x := v.getD i .zero; if mode = 1 then absNum x else x)
        match col with
        | [] => Num.zero
        | x :: rest => rest.foldl maxNum x))
      let outs := best.map d.encode
      .ok (outs.mapIdx (fun q o => ⟨o.1, 0, q, false⟩)) []
        ⟨SumCount.zero, sumN (outs.map (fun o => o.2.1)), sumN (outs.map (fun o => o.2.2)), 0, 0, 0⟩

/-- CONV (R279, R282): each value written into D's format; a DA128 input is converted out at the instruction's anchor, and a
DA128 output receives one term an element (log 31). -/
def convRecords (a d : StLay) (anchor : Int) (part : Bool) (xs : List StRec) : StOut :=
  let outs := xs.map (fun r =>
    if a.fmt = .da128 ∨ d.fmt = .da128 then
      (sumsOut d anchor 1 part (addRecord a anchor (List.replicate a.vn Acc.empty) r), r)
    else
      let (bs, s, n) := d.encode (a.values r.bytes)
      ((bs, ⟨SumCount.zero, s, n, 0, 0, 0⟩), r))
  .ok (outs.map (fun o => { o.2 with bytes := a.keyBytes o.2.bytes ++ o.1.1 })) [] (outs.foldl (fun c o => c.add o.1.2) StCount.zero)

/-! ### Ordering (R279, R280) -/

/-- Whether a stream is in the order a MERGE names, equal keys in source order. -/
def inOrder (l : StLay) (ksel : Nat) (desc : Bool) : List StRec → Bool
  | [] => true
  | [_] => true
  | x :: y :: rs =>
    let a := l.order ksel x
    let b := l.order ksel y
    (decide (if desc then b < a else a < b) || (decide (a = b) && x.before y)) && inOrder l ksel desc (y :: rs)

/-- MERGE (R279, R280). -/
def mergeRecords (l : StLay) (ksel : Nat) (desc : Bool) (ins : List (Nat × List StRec)) : StOut :=
  match ins.find? (fun e => !inOrder l ksel desc e.2) with
  | some e => .fault steUnsorted e.1
  | none =>
    let all := (ins.flatMap Prod.snd).map (fun r => (l.order ksel r, r))
    let le (a b : Nat × StRec) : Bool :=
      decide (if desc then b.1 < a.1 else a.1 < b.1) || (decide (a.1 = b.1) && a.2.before b.2)
    .ok ((sortOrd le all).map Prod.snd) [] StCount.zero

/-- The comparisons of FILTER (R279). -/
def compareKeys (cond a b : Nat) : Bool :=
  match cond with
  | 0 => decide (a = b) | 1 => decide (a ≠ b) | 2 => decide (a < b) | 3 => decide (a ≤ b) | 4 => decide (b < a) | _ => decide (b ≤ a)

/-- FILTER (R279, R280). -/
def filterRecords (l : StLay) (ksel cond imm : Nat) (xs : List StRec) : StOut :=
  let kf := l.keyFmt ksel
  let keep (r : StRec) : Bool := compareKeys cond (l.order ksel r) (okey imm kf)
  .ok (xs.filter keep) (xs.filter (fun r => !keep r)) StCount.zero

/-- TOPK (R279, R280). -/
def topkRecords (l : StLay) (ksel k : Nat) (desc sorted : Bool) (xs : List StRec) : StOut :=
  let idx := xs.zipIdx.map (fun e => (l.order ksel e.1, e))
  let srt := sortOrd (fun (a b : Nat × StRec × Nat) => if desc then decide (b.1 ≤ a.1) else decide (a.1 ≤ b.1)) idx
  let top := (srt.take k).map Prod.snd
  let places := top.map Prod.snd
  .ok (if sorted then top.map Prod.fst else (xs.zipIdx.filter (fun e => places.contains e.2)).map Prod.fst) [] StCount.zero

/-- COUNT (R279): a key of n or more faults with STE_INDEX (R286). -/
def countRecords (l d : StLay) (ksel n : Nat) (pre : Bool) (xs : List StRec) (endA : Nat) : StOut :=
  let keys := xs.map (l.indexOf ksel)
  if keys.any (fun k => decide (n ≤ k)) then .fault steIndex endA
  else
    let at_ (v : Nat) : Nat := (keys.filter (fun k => if pre then decide (k < v) else decide (k = v))).length
    .ok ((List.range n).map (fun v => ⟨leBytes 8 v ++ d.withCodes [at_ v % 2 ^ 32], 0, v, false⟩)) [] StCount.zero

/-- ENUM (R279): element `e` receives the number of earlier records with an equal key. -/
def enumRecords (l : StLay) (ksel e : Nat) (xs : List StRec) : StOut :=
  let keys := xs.map (l.order ksel)
  .ok (xs.mapIdx (fun i r =>
    let n := ((keys.take i).filter (fun k => decide (k = keys.getD i 0))).length
    { r with bytes := l.keyBytes r.bytes ++ l.withCodes ((l.codes r.bytes).set e (n % 2 ^ 32)) })) [] StCount.zero

/-- DIGEST (R279). -/
def digestRecords (xs : List StRec) : StOut := .ok [⟨sm3 (xs.flatMap StRec.bytes), 0, 0, false⟩] [] StCount.zero

end Sys2Proof.Machine
end

