-- ==== Sys2Proof/Machine/SteCheck.lean ====
section
/-! DEFINITION. Stream engine bindings (R272, R275, R276), instructions (R277, R279) and the checks of START (R270, R273, R278, R281,
R286). A check gives a fault code of R288 with the instruction and the end concerned. -/

namespace Sys2Proof.Machine

/-- A little-endian field of `n` bytes at byte `o` of a number. -/
def fieldAt (v o n : Nat) : Nat := v / 256 ^ o % 256 ^ n

/-! ### Bindings -/

/-- An input binding taken apart (R272). -/
structure InBind where
  kind : Nat
  order : Nat
  lay : StLay
  rank : Nat
  nrec : Nat
  base : Nat
  anchor : Int
  srcEngine : Nat
  srcOut : Nat
  group : Nat
  phase : Nat
  nslot : Nat
  cseq0 : Nat
  deadline : Nat
  force : Nat
  deriving DecidableEq, Repr

/-- An input binding read (R272). -/
def InBind.parse (v : Nat) : InBind :=
  { kind := fieldAt v 0 1, order := fieldAt v 1 1, lay := ⟨fieldAt v 2 1, fieldAt v 3 1, fieldAt v 4 2, fieldAt v 6 2⟩,
    rank := fieldAt v 8 4, nrec := fieldAt v 12 4, base := fieldAt v 16 4, anchor := signed 16 (fieldAt v 20 2),
    srcEngine := fieldAt v 22 1, srcOut := fieldAt v 23 1, group := fieldAt v 24 2, phase := fieldAt v 26 1,
    nslot := fieldAt v 27 1, cseq0 := fieldAt v 28 4, deadline := fieldAt v 32 4, force := fieldAt v 40 8 }

/-- Byte fields of a binding that are not all 0. -/
def anySet (v : Nat) (l : List (Nat × Nat)) : Bool := l.any (fun e => decide (fieldAt v e.1 e.2 ≠ 0))

/-- Reserved values, the reserved phase codes of R295 among them, and fields that do not apply to an input's kind (R272). -/
def inIllegal (v : Nat) : Bool :=
  let b := InBind.parse v
  match b.kind with
  | 0 => anySet v [(1, 63)]
  | 1 => decide (b.order ≠ 0) || decide (6 < b.lay.kf) || anySet v [(20, 44)]
  | 2 => decide (1 < b.order) || decide (6 < b.lay.kf) || decide (0xA < b.phase) || anySet v [(8, 4), (22, 2), (36, 4), (48, 16)]
      || (decide (b.lay.fmt ≠ .da128) && decide (b.anchor ≠ 0))
  | 3 => decide (b.order ≠ 0) || decide (6 < b.lay.kf) || decide (3 < b.srcOut) || anySet v [(12, 10), (24, 40)]
  | _ => true

/-- Slots an input awaits: those of FORCE_MASK when it is nonzero, else all (R274). -/
def InBind.slots (b : InBind) : Nat := if b.force = 0 then 2 ^ b.nslot - 1 else b.force % 2 ^ b.nslot

/-- An output binding taken apart (R275). -/
structure OutBind where
  kind : Nat
  op : Nat
  lay : StLay
  nrec : Nat
  base : Nat
  addr : Nat
  tc : Nat
  flags : Nat
  dcount : Nat
  tgtEngine : Nat
  tgtIn : Nat
  phase : Nat
  role : Nat
  dflag : Nat
  dflagCore : Nat
  group : Nat
  slot : Nat
  anchor : Int
  cseq0 : Nat
  deriving DecidableEq, Repr

/-- An output binding read (R275). -/
def OutBind.parse (v : Nat) : OutBind :=
  { kind := fieldAt v 0 1, op := fieldAt v 1 1, lay := ⟨fieldAt v 2 1, fieldAt v 3 1, fieldAt v 4 2, fieldAt v 6 2⟩,
    nrec := fieldAt v 8 4, base := fieldAt v 12 4, addr := fieldAt v 16 8, tc := fieldAt v 24 1, flags := fieldAt v 25 1,
    dcount := fieldAt v 26 1, tgtEngine := fieldAt v 27 1, tgtIn := fieldAt v 28 1, phase := fieldAt v 29 1,
    role := fieldAt v 30 1, dflag := fieldAt v 31 1, dflagCore := fieldAt v 32 2, group := fieldAt v 34 2,
    slot := fieldAt v 36 2, anchor := signed 16 (fieldAt v 38 2), cseq0 := fieldAt v 40 4 }

/-- Reserved values, the reserved phase codes of R295 among them, and fields that do not apply to an output's kind (R275). -/
def outIllegal (v : Nat) : Bool :=
  let b := OutBind.parse v
  match b.kind with
  | 0 => anySet v [(1, 63)]
  | 1 => decide (6 < b.lay.kf) || anySet v [(1, 1), (16, 48)]
  | 2 => !(decide (b.op = 0) || decide (b.op = 2) || decide (b.op = 4)) || decide (6 < b.lay.kf) || decide (7 < b.tc)
      || decide (3 < b.flags) || decide (2 < b.role) || decide (0xA < b.phase) || anySet v [(8, 4), (27, 2), (44, 20)]
  | 3 => decide (6 < b.lay.kf) || decide (7 < b.tgtIn) || anySet v [(1, 1), (8, 19), (29, 35)]
  | _ => true

/-- A temporary's binding (R276). -/
structure TmpBind where
  base : Nat
  nrec : Nat
  lay : StLay
  deriving DecidableEq, Repr

/-- A temporary's binding read (R276). -/
def TmpBind.parse (v : Nat) : TmpBind :=
  ⟨fieldAt v 0 4, fieldAt v 4 4, ⟨fieldAt v 8 1, fieldAt v 9 1, fieldAt v 10 2, fieldAt v 12 2⟩⟩

/-- Reserved values of a temporary's binding. -/
def tmpIllegal (v : Nat) : Bool := anySet v [(14, 2)] || decide (6 < fieldAt v 8 1)

/-! ### Instructions (R277, R279) -/

/-- An instruction at its index, its parameters taken (R277). -/
structure StIns where
  pc : Nat
  opc : Nat
  d : Nat
  a : Nat
  b : Nat
  ksel : Nat
  flags : Nat
  imm16 : Nat
  imm64 : Nat
  deriving DecidableEq, Repr

/-- An instruction of 16 bytes as stored. -/
def StIns.parse (pc v : Nat) : StIns :=
  ⟨pc, fieldAt v 0 1, fieldAt v 1 1, fieldAt v 2 1, fieldAt v 3 1, fieldAt v 4 1, fieldAt v 5 1, fieldAt v 6 2, fieldAt v 8 8⟩

/-- The anchor is a parameter's (R277). -/
def StIns.anchorParam (i : StIns) : Bool := i.flags.testBit 6
/-- IMM64 is a parameter (R277). -/
def StIns.immParam (i : StIns) : Bool := i.flags.testBit 7
/-- An instruction with the parameters of a run (R277). -/
def StIns.withParams (i : StIns) (ps : List Nat) : StIns :=
  { i with imm16 := if i.anchorParam then ps.getD (i.imm16 % 8) 0 % 2 ^ 16 else i.imm16,
           imm64 := if i.immParam then ps.getD (i.imm64 % 8) 0 else i.imm64 }
/-- The anchor of an instruction. -/
def StIns.anchor (i : StIns) : Int := signed 16 i.imm16
/-- DESC. -/
def StIns.desc (i : StIns) : Bool := i.flags.testBit 0
/-- SORTED. -/
def StIns.sorted (i : StIns) : Bool := i.flags.testBit 1
/-- PREFIX. -/
def StIns.pre (i : StIns) : Bool := i.flags.testBit 2

/-- The operations that take records (R279). -/
def recordOps : List Nat := [0x10, 0x11, 0x20, 0x21, 0x22, 0x30, 0x31, 0x32, 0x33, 0x34, 0x35, 0x40, 0x41, 0x50]

/-- Input and temporary ends. -/
def isInput (e : Nat) : Bool := decide (e < 8)
/-- Output ends. -/
def isOutput (e : Nat) : Bool := decide (0x10 ≤ e) && decide (e < 0x14)
/-- Temporary ends. -/
def isTemp (e : Nat) : Bool := decide (0x20 ≤ e) && decide (e < 0x30)
/-- End codes that are not reserved (R277). -/
def endOk (e : Nat) : Bool := isInput e || isOutput e || isTemp e || decide (e = 0xFF)

/-- The ends a MERGE names (R279). -/
def mergeEnds (m : Nat) : List Nat :=
  ((List.range 8).filter (fun q => m.testBit q)) ++ (((List.range 16).filter (fun t => m.testBit (8 + t))).map (fun t => 0x20 + t))

/-- The ends an instruction reads. -/
def StIns.reads (i : StIns) : List Nat :=
  if i.opc = 0x31 then mergeEnds i.imm64
  else if i.opc = 0x20 then [i.a, i.b]
  else [i.a]

/-- The ends an instruction writes. -/
def StIns.writes (i : StIns) : List Nat :=
  if (i.opc = 0x32 ∨ i.opc = 0x41) ∧ i.b ≠ 0xFF then [i.d, i.b] else [i.d]

/-- Whether an operation is a record operation. -/
def StIns.isRecord (i : StIns) : Bool := recordOps.contains i.opc

/-! ### What START loads (R267) -/

/-- Layout of an end. -/
def Ste.lay (e : Ste) (x : Nat) : StLay :=
  if x < 8 then (InBind.parse (e.ins.getD x 0)).lay
  else if x < 0x20 then (OutBind.parse (e.outs.getD (x - 0x10) 0)).lay
  else (TmpBind.parse (e.temps.getD (x - 0x20) 0)).lay

/-- Input binding q. -/
def Ste.inb (e : Ste) (q : Nat) : InBind := InBind.parse (e.ins.getD q 0)
/-- Output binding q. -/
def Ste.outb (e : Ste) (q : Nat) : OutBind := OutBind.parse (e.outs.getD q 0)
/-- Temporary binding t. -/
def Ste.tmpb (e : Ste) (t : Nat) : TmpBind := TmpBind.parse (e.temps.getD t 0)

/-- Whether an end is bound. -/
def Ste.bound (e : Ste) (x : Nat) : Bool :=
  if x < 8 then decide ((e.inb x).kind ≠ 0)
  else if x < 0x20 then decide ((e.outb (x - 0x10)).kind ≠ 0)
  else decide ((e.tmpb (x - 0x20)).nrec ≠ 0)

/-- The instructions of a loaded program. -/
def Ste.code (e : Ste) : List StIns := e.prog.mapIdx StIns.parse

/-- The stage of each record instruction, by the number of STAGE before it. -/
def stageList : List StIns → Nat → List (Nat × StIns)
  | [], _ => []
  | i :: is, n =>
    if i.opc = 1 then stageList is (n + 1)
    else if i.isRecord then (n, i) :: stageList is n
    else stageList is n

/-- Record instructions with their stages. -/
def Ste.staged (e : Ste) : List (Nat × StIns) := stageList e.code 0

/-! ### The checks (R278) -/

/-- A failed check: code, instruction, end. -/
abbrev SteFail := Nat × Nat × Nat

/-- No instruction, no end. -/
def noPc : Nat := 0xFFFF

/-- STE_ILLEGAL (R278, R288). -/
def Ste.illegal (e : Ste) : List SteFail :=
  let bad (b : Bool) (pc x : Nat) : List SteFail := if b then [(steIllegal, pc, x)] else []
  bad (decide (e.runTimeout = 0)) noPc 0xFF
  ++ bad (decide (e.notify / 2 % 128 ≠ 0) || decide (e.notify / 2 ^ 16 % 16 ≠ 0) || decide (2 ^ 52 ≤ e.notify)) noPc 0xFF
  ++ bad (match e.code.getLast? with | some i => decide (i.opc ≠ 2) | none => true) noPc 0xFF
  ++ (List.range 8).flatMap (fun q => bad (inIllegal (e.ins.getD q 0)) noPc q)
  ++ (List.range 4).flatMap (fun q => bad (outIllegal (e.outs.getD q 0)) noPc (0x10 + q))
  ++ (List.range 16).flatMap (fun t => bad (tmpIllegal (e.temps.getD t 0)) noPc (0x20 + t))
  ++ e.code.flatMap (fun i =>
    bad (!(decide (i.opc ≤ 2) || i.isRecord) || decide (i.flags / 8 % 8 ≠ 0)
      || (i.isRecord && !(endOk i.d && endOk i.a && endOk i.b))) i.pc 0xFF)

/-- Whether an end can be read, and written. -/
def readable (x : Nat) : Bool := isInput x || isTemp x
/-- Whether an end can be written. -/
def writable (x : Nat) : Bool := isOutput x || isTemp x

/-- The instruction that writes temporary t, as its stage. -/
def writerOf (l : List (Nat × StIns)) (x : Nat) : Option (Nat × StIns) := l.find? (fun e => e.2.writes.contains x)

/-- Whether the temporaries of a stage form no cycle: every instruction can be taken in turn after those it reads from. -/
def acyclic (is : List StIns) : Nat → List Nat → Bool
  | 0, done => decide (is.all (fun i => done.contains i.pc))
  | fuel + 1, done =>
    let ok (i : StIns) : Bool := i.reads.all (fun x => !isTemp x ||
      (match is.find? (fun w => w.writes.contains x) with | some w => done.contains w.pc | none => true))
    acyclic is fuel (done ++ ((is.filter (fun i => !done.contains i.pc && ok i)).map StIns.pc))

/-- STE_GRAPH (R273, R278). -/
def Ste.graph (e : Ste) (j : Nat) (peer : Nat → Nat × Nat × List Nat × List Nat) (parcel : Nat) : List SteFail :=
  let l := e.staged
  let bad (b : Bool) (pc x : Nat) : List SteFail := if b then [(steGraph, pc, x)] else []
  let reads := l.flatMap (fun p => p.2.reads)
  let writes := l.flatMap (fun p => p.2.writes)
  l.flatMap (fun p =>
    let i := p.2
    i.reads.flatMap (fun x => bad (!(readable x && e.bound x) || decide (1 < reads.count x)) i.pc x)
    ++ i.writes.flatMap (fun x => bad (!(writable x && e.bound x) || decide (1 < writes.count x)) i.pc x)
    -- a temporary is read once, never in an earlier stage than its writer
    ++ (i.reads.filter isTemp).flatMap (fun x => bad (match writerOf l x with | some w => decide (p.1 < w.1) | none => true) i.pc x)
    ++ (i.writes.filter isTemp).flatMap (fun x => bad (decide (reads.count x ≠ 1)) i.pc x))
  ++ ((l.map Prod.fst).eraseDups).flatMap (fun st =>
    let is := (l.filter (fun p => decide (p.1 = st))).map Prod.snd
    bad (decide (32 < is.length) || !acyclic is is.length []) ((is.map StIns.pc).headD noPc) 0xFF)
  -- CHAIN ends name each other, lie in one parcel and agree in layout
  ++ (List.range 8).flatMap (fun q =>
    let b := e.inb q
    if b.kind = 3 then
      let (n, _, _, outs) := peer b.srcEngine
      let o := OutBind.parse (outs.getD b.srcOut 0)
      bad (decide (48 ≤ b.srcEngine) || decide (n ≠ parcel) || !(decide (o.kind = 3) && decide (o.tgtEngine = j) && decide (o.tgtIn = q)
        && decide (o.lay = b.lay))) noPc q
    else [])
  ++ (List.range 4).flatMap (fun q =>
    let b := e.outb q
    if b.kind = 3 then
      let (n, _, ins, _) := peer b.tgtEngine
      let o := InBind.parse (ins.getD b.tgtIn 0)
      bad (decide (48 ≤ b.tgtEngine) || decide (n ≠ parcel) || !(decide (o.kind = 3) && decide (o.srcEngine = j) && decide (o.srcOut = q)
        && decide (o.lay = b.lay))) noPc (0x10 + q)
    else [])

/-- Key formats that may be an index (R277, R284). -/
def indexKey (kf : Nat) : Bool := decide (kf = 1) || decide (kf = 2)

/-- A KSEL that its layout permits (R277). -/
def kselOk (l : StLay) (ksel : Nat) : Bool :=
  if ksel = 0xFF then decide (l.kf ≠ 0)
  else decide (ksel < l.vn) && (decide (l.fmt = .fp32) || decide (l.fmt = .bf16) || decide (l.fmt = .int32)) && decide (l.mode = 0)

/-- The immediates of an exact sum: TERMS at least 1, divisor at most 2^24 (R281). -/
def sumImmOk (i : StIns) : Bool := i.immParam || (decide (i.imm64 % 2 ^ 32 ≠ 0) && decide (i.imm64 / 2 ^ 32 ≤ 2 ^ 24))

/-- Formats that can be summed (R270, R281). -/
def summable (f : Fmt) : Bool := decide (f ≠ .raw8)

/-- Whether the layouts and immediates of an instruction agree (R278 to R284, R286). -/
def Ste.shapeOk (e : Ste) (i : StIns) : Bool :=
  let a := e.lay i.a
  let b := e.lay i.b
  let d := e.lay i.d
  let tableOk := i.immParam || decide (i.imm64 % 2 ^ 32 % 8 = 0)
  match i.opc with
  | 0x10 => decide (a = d)
  | 0x11 => decide (a.kf = d.kf) && decide (a.vn = d.vn) && summable a.fmt && summable d.fmt
  | 0x20 => decide (a.kf = 0) && decide (b.kf = 0) && decide (d.kf = 0) && decide (a.vn = b.vn) && decide (a.vn = d.vn)
      && summable a.fmt && summable b.fmt && summable d.fmt && sumImmOk i
  | 0x21 => decide (a.kf = 0) && decide (d.kf = 0) && decide (a.vn = d.vn) && summable a.fmt && summable d.fmt && sumImmOk i
  | 0x22 => decide (a.kf = 0) && decide (d.kf = 0) && decide (a.vn = d.vn) && summable a.fmt && summable d.fmt && decide (i.imm16 ≤ 2)
      && (decide (i.imm16 ≠ 2) || (decide (d.fmt = .int32) && decide (a.fmt ≠ .da128)))
      && (decide (i.imm16 = 2) || (decide (a.fmt = .da128) == decide (d.fmt = .da128)))
  | 0x30 => decide (a = d) && kselOk a i.ksel
  | 0x31 => (mergeEnds i.imm64).all (fun x => decide (e.lay x = d)) && kselOk d i.ksel && !i.immParam
      && decide (i.imm64 < 2 ^ 24) && decide (2 ≤ (mergeEnds i.imm64).length)
  | 0x32 => decide (a = d) && (decide (i.b = 0xFF) || decide (a = b)) && kselOk a i.ksel && decide (i.imm16 ≤ 5)
  | 0x33 => decide (a = d) && kselOk a i.ksel && decide (1 ≤ i.imm16) && decide (i.imm16 ≤ 1024)
  | 0x34 => kselOk a i.ksel && (if i.ksel = 0xFF then indexKey a.kf else decide (a.fmt = .int32)) && decide (d.kf = 1) && decide (d.fmt = .int32) && decide (d.vn = 1)
      && decide (1 ≤ i.imm16) && decide (i.imm16 ≤ 4096)
  | 0x35 => decide (a = d) && kselOk a i.ksel && decide (a.fmt = .int32) && decide (i.imm16 < a.vn)
  | 0x40 => kselOk a i.ksel && (if i.ksel = 0xFF then indexKey a.kf else decide (a.fmt = .int32)) && decide (d.kf = a.kf)
      && decide (d.fmt = .raw8) && decide (a.valLen ≤ d.vn) && tableOk
  | 0x41 => indexKey a.kf && decide (e.lay i.a = d) && (decide (i.b = 0xFF) || decide (a = b)) && decide (i.imm16 + 4 ≤ a.valLen) && tableOk
      && isOutput i.d && decide ((e.outb (i.d - 0x10)).kind = 2) && decide ((e.outb (i.d - 0x10)).op = 0)
  | 0x50 => decide (d.kf = 0) && decide (d.fmt = .raw8) && decide (d.vn = 32)
  | _ => true

/-- Values that an acc output may send (R170, R275). -/
def accValue (l : StLay) : Bool :=
  decide (l.kf = 0) && decide (l.fmt ≠ .int32) && decide (l.fmt ≠ .raw8) && (decide (l.mode = 0) || decide (l.vn % l.block = 0))

/-- STE_FORMAT (R270, R278, R281, R286). -/
def Ste.format (e : Ste) : List SteFail :=
  let bad (b : Bool) (pc x : Nat) : List SteFail := if b then [(steFormat, pc, x)] else []
  (List.range 8).flatMap (fun q =>
    let b := e.inb q
    bad (decide (b.kind ≠ 0) && (!b.lay.ok || (decide (b.kind = 2) && (decide (b.nslot = 0) || decide (64 < b.nslot))))) noPc q)
  ++ (List.range 4).flatMap (fun q =>
    let b := e.outb q
    bad (decide (b.kind ≠ 0) && (!b.lay.ok || decide (64 < b.dcount) || (decide (b.kind = 2) && decide (b.op = 4) && decide (b.dcount = 0))
      || (decide (b.kind = 2) && decide (b.op = 2) && !accValue b.lay))) noPc (0x10 + q))
  ++ (List.range 16).flatMap (fun t => bad (e.bound (0x20 + t) && !(e.tmpb t).lay.ok) noPc (0x20 + t))
  ++ (e.staged.map Prod.snd).flatMap (fun i => bad (!e.shapeOk i) i.pc 0xFF)

/-- A table's offset, none when it is a parameter's. -/
def StIns.table (i : StIns) : Option Nat :=
  if (i.opc = 0x40 ∨ i.opc = 0x41) ∧ !i.immParam then some (i.imm64 % 2 ^ 32) else none

/-- The regions an engine reads only: offset, length, end. `nkey` gives a scatter table's NKEY. -/
def Ste.readRegions (e : Ste) (nkey : Nat → Nat) : List (Nat × Nat × Nat) :=
  ((List.range 8).filter (fun q => decide ((e.inb q).kind = 1))).map (fun q => ((e.inb q).base, (e.inb q).nrec * (e.inb q).lay.rs, q))
  ++ ((List.range 4).filter (fun q => decide ((e.outb q).kind = 2) && decide ((e.outb q).dcount ≠ 0))).map
    (fun q => ((e.outb q).base, 4 * (e.outb q).dcount, 0x10 + q))
  ++ (e.staged.map Prod.snd).filterMap (fun i => i.table.map (fun o => (o, if i.opc = 0x40 then 24 else 16 + 8 * nkey o, 0xFF)))

/-- The regions an engine writes: MEM outputs, both halves of landing regions, temporaries (R278). -/
def Ste.writeRegions (e : Ste) : List (Nat × Nat × Nat) :=
  ((List.range 4).filter (fun q => decide ((e.outb q).kind = 1))).map (fun q => ((e.outb q).base, (e.outb q).nrec * (e.outb q).lay.rs, 0x10 + q))
  ++ ((List.range 8).filter (fun q => decide ((e.inb q).kind = 2))).map
    (fun q => ((e.inb q).base, 2 * (e.inb q).nslot * (e.inb q).nrec * (e.inb q).lay.rs, q))
  ++ ((List.range 16).filter (fun t => e.bound (0x20 + t))).map (fun t => ((e.tmpb t).base, (e.tmpb t).nrec * (e.tmpb t).lay.rs, 0x20 + t))

/-- STE_REGION (R278). -/
def Ste.region (e : Ste) (nkey : Nat → Nat) : List SteFail :=
  let rd := e.readRegions nkey
  let wr := e.writeRegions
  let out (r : Nat × Nat × Nat) : Bool := decide (r.1 < 0x3000) || decide (2 ^ 20 < r.1 + r.2.1)
  let meet (a b : Nat × Nat × Nat) : Bool := decide (a.1 < b.1 + b.2.1) && decide (b.1 < a.1 + a.2.1) && decide (0 < a.2.1) && decide (0 < b.2.1)
  ((rd ++ wr).filter out).map (fun r => (steRegion, noPc, r.2.2))
  ++ (wr.zipIdx.filter (fun w => rd.any (meet w.1) || wr.zipIdx.any (fun v => decide (v.2 ≠ w.2) && meet v.1 w.1))).map
    (fun w => (steRegion, noPc, w.1.2.2))

/-- STE_OVERFLOW that the bindings show: the accumulator entries of a stage (R281, R286). -/
def Ste.overflow (e : Ste) : List SteFail :=
  let l := e.staged
  ((l.map Prod.fst).eraseDups).flatMap (fun st =>
    let is := (l.filter (fun p => decide (p.1 = st) && (decide (p.2.opc = 0x21) || decide (p.2.opc = 0x22)))).map Prod.snd
    let n := sumN (is.map (fun i => if isInput i.a then (e.inb i.a).nrec * (e.inb i.a).lay.vn else 0))
    if 4096 < n then [(steOverflow, (is.map StIns.pc).headD noPc, 0xFF)] else [])

/-- STE_ORDER (R278). -/
def Ste.orderFail (e : Ste) : List SteFail :=
  (e.staged.map Prod.snd).flatMap (fun i =>
    if i.opc = 0x20 ∨ i.opc = 0x21 ∨ i.opc = 0x22 then []
    else (i.reads.filter (fun x => isInput x && decide ((e.inb x).order = 1))).map (fun x => (steOrder, i.pc, x)))

/-- The check that faults: the lowest code, and the first of that code (log 31). -/
def firstFail (l : List SteFail) : Option SteFail :=
  l.foldl (fun (b : Option SteFail) f => match b with
    | none => some f
    | some g => if f.1 < g.1 then some f else some g) none

end Sys2Proof.Machine
end

