-- ==== Sys2Proof/Machine/SteEval.lean ====
section
/-! DEFINITION. The inputs of a stream engine's run and the evaluation of one stage (R271 to R274, R278 to R284, R286): a function of
the engine's memory, its temporaries and what has landed. -/

namespace Sys2Proof.Machine

/-- A stream engine beside its memory. -/
def State.ste (s : State) (j : Nat) : Ste := Sparse.get Ste.reset s.stes j
/-- A stream engine replaced. -/
def State.setSte (s : State) (j : Nat) (e : Ste) : State := { s with stes := Sparse.set Ste.reset s.stes j e }
/-- STATE of an engine (R266). -/
def State.steState (s : State) (j : Nat) : Nat := s.obj (Obj.ste_STE_STATE j)
/-- A field of an engine's memory read. -/
def State.stePeek (s : State) (j o n : Nat) : Nat := s.readNat (steAddr j o) n
/-- A field of an engine's memory written by the engine. -/
def State.stePoke (s : State) (j o n v : Nat) : State := s.writeBytes (steAddr j o) (leBytes n v)

/-! ### RECV inputs (R274) -/

/-- The key under which a landed record is noted: input, run parity, slot, index. -/
def landKey (q par slot i : Nat) : Nat := ((q * 2 + par) * 64 + slot) * 2 ^ 20 + i

/-- Offset of record i of slot s of a landing region's half. -/
def InBind.landOff (b : InBind) (par slot i : Nat) : Nat := b.base + (par * b.nslot * b.nrec + slot * b.nrec + i) * b.lay.rs

/-- Every record of a slot has landed. -/
def Ste.slotDone (e : Ste) (q par slot : Nat) : Bool :=
  (List.range (e.inb q).nrec).all (fun i => Sparse.get false e.landed (landKey q par slot i))

/-- Slots excluded by the deadline of an input. -/
def Ste.lost (e : Ste) (q par : Nat) : Nat := Sparse.get 0 e.excluded (q * 2 + par)

/-- Slots an input awaits that the deadline has not excluded. -/
def Ste.awaited (e : Ste) (q par : Nat) : List Nat :=
  (List.range (e.inb q).nslot).filter (fun sl => (e.inb q).slots.testBit sl && !(e.lost q par).testBit sl)

/-- Completed slots of an input: its inclusion mask (R274). -/
def Ste.mask (e : Ste) (q par : Nat) : Nat :=
  ((e.awaited q par).filter (e.slotDone q par)).foldl (fun m sl => m ||| 2 ^ sl) 0

/-- Whether an input has ended: a RECV once every slot is completed or excluded, a CHAIN once its producer has given its records. -/
def Ste.ended (e : Ste) (q : Nat) : Bool :=
  match (e.inb q).kind with
  | 1 => true
  | 2 => (e.awaited q (e.run % 2)).all (e.slotDone q (e.run % 2))
  | 3 => (Sparse.get none e.chainQ q).isSome
  | _ => false

/-- Whether a RECV input has excluded a slot. -/
def Ste.partialIn (e : Ste) (q : Nat) : Bool :=
  decide ((e.inb q).kind = 2) && decide ((e.awaited q (e.run % 2)).length < (e.inb q).nslot)

/-- The records of an input in source order, with their tags (R271). -/
def State.steInput (s : State) (j q : Nat) : List StRec :=
  let e := s.ste j
  let b := e.inb q
  let par := e.run % 2
  match b.kind with
  | 1 => (List.range b.nrec).map (fun i => ⟨s.readBytes (steAddr j (b.base + i * b.lay.rs)) b.lay.rs, b.rank, i, false⟩)
  | 2 => (e.awaited q par).flatMap (fun sl => (List.range b.nrec).map (fun i =>
      ⟨s.readBytes (steAddr j (b.landOff par sl i)) b.lay.rs, sl, i, Sparse.get false e.differ (landKey q par sl i)⟩))
  | 3 => ((Sparse.get none e.chainQ q).getD []).mapIdx (fun i r => { r with rank := b.rank, seq := i })
  | _ => []

/-- The slots of an input that take part: the AUTO divisor of RSUM (R281). -/
def Ste.autoDiv (e : Ste) (x : Nat) : Nat :=
  if x < 8 ∧ (e.inb x).kind = 2 then (e.awaited x (e.run % 2)).length else 1

/-! ### Anchors (R281) -/

/-- The anchor of the DA128 records of an end, where the bindings and the program give one. -/
def Ste.anchorOf (e : Ste) (code : List StIns) : Nat → Nat → Option Int
  | 0, _ => none
  | fuel + 1, x =>
    if x < 8 then (if (e.inb x).kind = 2 then some (e.inb x).anchor else none)
    else match code.find? (fun i => i.isRecord && i.writes.contains x) with
      | some i => if i.opc = 0x11 ∨ i.opc = 0x20 ∨ i.opc = 0x21 then some i.anchor else e.anchorOf code fuel (i.reads.headD 0xFF)
      | none => none

/-- An input whose DA128 records have another anchor than the instruction's. -/
def Ste.anchorFail (e : Ste) (code : List StIns) (i : StIns) : Option Nat :=
  i.reads.find? (fun x => decide ((e.lay x).fmt = .da128) &&
    (match e.anchorOf code 64 x with | some a => decide (a ≠ i.anchor) | none => false))

/-! ### What an instruction of a stage gives -/

/-- Records for D and B, puts of their own (SCATTER), and counts. -/
structure InsRes where
  d : List StRec
  b : List StRec
  puts : List (Nat × Bytes)
  cnt : StCount
  deriving DecidableEq, Repr

/-- An instruction done, rows it must fetch first (place, address, length), or a fault with its end. -/
inductive InsOut where
  | done (r : InsRes)
  | need (l : List (Nat × Nat × Nat))
  | fault (code end_ : Nat)
  deriving DecidableEq, Repr

/-- An operation without puts. -/
def InsOut.ofOut : StOut → InsOut
  | .ok d b n => .done ⟨d, b, [], n⟩
  | .fault c x => .fault c x

/-- The fetch that serves each row of a GATHER: its own, or an earlier one of the same row within the last 64 (R283). -/
def fetches (pc : Nat) : List Nat → Nat → List (Nat × Nat) → List (Nat × Nat)
  | [], _, _ => []
  | x :: xs, k, recent =>
    match recent.find? (fun r => decide (r.1 = x)) with
    | some r => r :: fetches pc xs (k + 1) recent
    | none =>
      let r := (x, pc * 2 ^ 40 + k)
      r :: fetches pc xs (k + 1) ((r :: recent).take 64)

/-- A table's offset lies in the data area, aligned. -/
def tableOk (o len : Nat) : Bool := decide (o % 8 = 0) && decide (0x3000 ≤ o) && decide (o + len ≤ 2 ^ 20)

/-- GATHER (R283). -/
def State.gatherIns (s : State) (j : Nat) (e : Ste) (i : StIns) (xs : List StRec) : InsOut :=
  let a := e.lay i.a
  let d := e.lay i.d
  let o := i.imm64 % 2 ^ 32
  let addr := s.stePeek j o 8
  let rows := s.stePeek j (o + 8) 4
  let rb := s.stePeek j (o + 12) 4
  let stride := s.stePeek j (o + 16) 4
  let idx := xs.map (a.indexOf i.ksel)
  if !tableOk o 24 || decide (d.vn ≠ a.valLen + rb) then .fault steFormat 0xFF
  else if idx.any (fun x => decide (rows ≤ x) || (decide (i.ksel ≠ 0xFF) && decide (2 ^ 31 ≤ x))) then .fault steIndex i.a
  else
    let f := fetches i.pc idx 0 []
    let place (x : Nat) : Nat := (addr + x * stride) % 2 ^ 64
    let own (x : Nat) : Bool := decide (addrDev (place x) = s.ownDev) && decide (place x % 2 ^ 44 / 2 ^ 20 = steAddr j 0 / 2 ^ 20)
      && decide (place x % 2 ^ 20 + rb ≤ 2 ^ 20)
    let missing := (f.filter (fun r => decide (0 < rb) && !own r.1 && decide (Sparse.get [] e.rows r.2 = []))).eraseDups
    let bad := f.any (fun r => own r.1 && (s.firstBad false (place r.1 % 2 ^ 44) rb).isSome)
    if bad then .fault steMem i.a
    else if missing ≠ [] then .need (missing.map (fun r => (r.2, place r.1, rb)))
    else
      let row (r : Nat × Nat) : Bytes :=
        if rb = 0 then [] else if own r.1 then s.readBytes (place r.1 % 2 ^ 44) rb else Sparse.get [] e.rows r.2
      .done ⟨List.zipWith (fun x r => { x with bytes := a.keyBytes x.bytes ++ padTo d.valLen (a.region x.bytes ++ row r) }) xs f, [], [],
        StCount.zero⟩

/-- SCATTER (R284). -/
def State.scatterIns (s : State) (j : Nat) (e : Ste) (i : StIns) (xs : List StRec) : InsOut :=
  let a := e.lay i.a
  let o := i.imm64 % 2 ^ 32
  let stride := s.stePeek j o 4
  let limit := s.stePeek j (o + 4) 4
  let skip := s.stePeek j (o + 8) 4
  let nkey := s.stePeek j (o + 12) 4
  let key (x : StRec) : Nat := a.indexOf 0xFF x
  let ord (x : StRec) : Nat := leAt (a.region x.bytes) i.imm16 4
  if !tableOk o (16 + 8 * nkey) || decide (nkey = 0) || decide (4096 < nkey) then .fault steFormat 0xFF
  else if xs.any (fun x => decide (nkey ≤ key x)) then .fault steIndex i.a
  else
    let put := xs.filter (fun x => decide (ord x < limit))
    let past := xs.filter (fun x => decide (limit ≤ ord x))
    .done ⟨[], if i.b = 0xFF then [] else past,
      put.map (fun x => ((s.stePeek j (o + 16 + 8 * key x) 8 + ord x * stride) % 2 ^ 64, (a.region x.bytes).drop skip)),
      { StCount.zero with dropped := if i.b = 0xFF then past.length else 0 }⟩

/-- Records that D of RSUM and RMAX receives (R279): NREC of a MEM or RECV input, as many as its highest seq of another (log 31). -/
def Ste.seqs (e : Ste) (x : Nat) (xs : List StRec) : Nat :=
  if x < 8 ∧ (e.inb x).kind ≠ 3 then (e.inb x).nrec else maxN (xs.map (fun r => r.seq + 1))

/-- One record instruction on its input streams (R279). `ins` gives the records of an end. -/
def State.steIns (s : State) (j : Nat) (e : Ste) (code : List StIns) (part : Bool) (ins : Nat → List StRec) (i : StIns) : InsOut :=
  let a := e.lay i.a
  let b := e.lay i.b
  let d := e.lay i.d
  let xs := ins i.a
  let n := i.imm64 / 2 ^ 32
  let sums := i.opc = 0x20 ∨ i.opc = 0x21
  if sums ∧ (i.imm64 % 2 ^ 32 = 0 ∨ 2 ^ 24 < n) then .fault steFormat 0xFF
  else if (sums ∨ i.opc = 0x11) ∧ (e.anchorFail code i).isSome then .fault steAnchor ((e.anchorFail code i).getD 0xFF)
  else
    match i.opc with
    | 0x10 => .done ⟨xs, [], [], StCount.zero⟩
    | 0x11 => InsOut.ofOut (convRecords a d i.anchor part xs)
    | 0x20 => InsOut.ofOut (zsum a b d i.anchor n part xs (ins i.b) i.b)
    | 0x21 => InsOut.ofOut (rsum a d i.anchor (if n = 0 then e.autoDiv i.a else n) (e.seqs i.a xs) s.freshCtr (2 ^ 16 * i.pc) part xs)
    | 0x22 => InsOut.ofOut (rmax a d i.imm16 (e.seqs i.a xs) part xs)
    | 0x30 => .done ⟨sortRecs a i.ksel i.desc xs, [], [], StCount.zero⟩
    | 0x31 => InsOut.ofOut (mergeRecords d i.ksel i.desc ((mergeEnds i.imm64).map (fun x => (x, ins x))))
    | 0x32 =>
      match filterRecords a i.ksel i.imm16 i.imm64 xs with
      | .ok k r c => .done ⟨k, if i.b = 0xFF then [] else r, [], c⟩
      | .fault c x => .fault c x
    | 0x33 => InsOut.ofOut (topkRecords a i.ksel i.imm16 i.desc i.sorted xs)
    | 0x34 => InsOut.ofOut (countRecords a d i.ksel i.imm16 i.pre xs i.a)
    | 0x35 => InsOut.ofOut (enumRecords a i.ksel i.imm16 xs)
    | 0x40 => s.gatherIns j e i xs
    | 0x41 => s.scatterIns j e i xs
    | 0x50 => InsOut.ofOut (digestRecords xs)
    | _ => .done ⟨[], [], [], StCount.zero⟩

/-! ### A stage (R278) -/

/-- What the instructions of a stage done so far gave: records by end, ends derived from a partial input, puts by end, counts, and
the instructions themselves. -/
structure StageRun where
  recs : List (Nat × List StRec)
  parts : List Nat
  puts : List (Nat × Nat × Bytes)
  cnt : StCount
  taken : Nat
  done : List Nat
  deriving DecidableEq, Repr

/-- A stage evaluated: every instruction done, rows to fetch first, or a fault with its instruction and end. -/
inductive StageOut where
  | done (r : StageRun)
  | need (l : List (Nat × Nat × Nat))
  | fault (code pc end_ : Nat)
  deriving DecidableEq, Repr

/-- Instructions of the stage in progress, with the run's parameters. -/
def Ste.stageCode (e : Ste) : List StIns :=
  ((e.staged.filter (fun p => decide (p.1 = e.stage))).map Prod.snd).map (fun i => i.withParams e.params)

/-- The records an end gives in a stage: an input's, or those a temporary holds. -/
def State.steRecs (s : State) (j : Nat) (e : Ste) (r : StageRun) (x : Nat) : List StRec :=
  if x < 8 then s.steInput j x
  else match r.recs.find? (fun p => decide (p.1 = x)) with
    | some p => p.2
    | none => (Sparse.get none e.tempQ x).getD []

/-- Whether an end is at hand: an input, a temporary of an earlier stage, or one written in this stage already. -/
def StageRun.has (r : StageRun) (e : Ste) (x : Nat) : Bool :=
  decide (x < 8) || r.recs.any (fun p => decide (p.1 = x)) || (Sparse.get none e.tempQ x).isSome

/-- Whether an end derives from a partial input (R281). -/
def StageRun.part (r : StageRun) (e : Ste) (x : Nat) : Bool :=
  (decide (x < 8) && e.partialIn x) || r.parts.contains x || e.partials.contains x

/-- One instruction of a stage taken when its inputs are at hand. -/
def State.steStep (s : State) (j : Nat) (e : Ste) (code : List StIns) (o : StageOut) (i : StIns) : StageOut :=
  match o with
  | .done r =>
    if r.done.contains i.pc || !i.reads.all (r.has e) then .done r
    else
      let part := i.reads.any (r.part e)
      match s.steIns j e code part (s.steRecs j e r) i with
      | .done x =>
        let two := decide (i.writes.length = 2)
        .done { recs := r.recs ++ [(i.d, x.d)] ++ (if two then [(i.b, x.b)] else []),
                parts := if part then r.parts ++ i.writes else r.parts,
                puts := r.puts ++ x.puts.map (fun p => (i.d, p)),
                cnt := r.cnt.add x.cnt,
                taken := r.taken + sumN ((i.reads.filter isInput).map (fun q => (s.steInput j q).length)),
                done := r.done ++ [i.pc] }
      | .need l => .need l
      | .fault c x => .fault c i.pc x
  | o => o

/-- A stage evaluated: instructions in turn, until every one whose inputs can be had is done. -/
def State.steEval (s : State) (j : Nat) (e : Ste) (code is : List StIns) : StageOut :=
  is.foldl (fun o _ => is.foldl (s.steStep j e code) o) (.done ⟨[], [], [], StCount.zero, 0, []⟩)

/-- The limits a stage can exceed at run time (R275, R278, R286): the instruction and end of the first STE_OVERFLOW. `recs` gives
the records of an end. -/
def Ste.overflows (e : Ste) (is : List StIns) (recs : Nat → List StRec) (r : StageRun) : Option (Nat × Nat) :=
  let sorts := is.filter (fun i => decide (i.opc = 0x30))
  let sums := is.filter (fun i => decide (i.opc = 0x21) || decide (i.opc = 0x22))
  let later (x : Nat) : Bool := !(is.any (fun i => i.reads.contains x))
  let writer (x : Nat) : Nat := ((is.find? (fun i => i.writes.contains x)).map StIns.pc).getD noPc
  let past := r.recs.find? (fun p =>
    (isTemp p.1 && later p.1 && decide ((e.tmpb (p.1 - 0x20)).nrec < p.2.length))
      || (isOutput p.1 && decide ((e.outb (p.1 - 0x10)).kind = 1) && decide ((e.outb (p.1 - 0x10)).nrec < p.2.length)))
  if 16384 < sumN (sorts.map (fun i => (recs i.a).length)) then some ((sorts.map StIns.pc).headD noPc, 0xFF)
  else if 4096 < sumN (sums.map (fun i => e.seqs i.a (recs i.a) * (e.lay i.a).vn)) then some ((sums.map StIns.pc).headD noPc, 0xFF)
  else past.map (fun p => (writer p.1, p.1))

end Sys2Proof.Machine
end

