-- ==== Sys2Proof/Machine/SteRun.lean ====
section
/-! DEFINITION. Stream engines at work: starting and stopping (R266 to R268), the sending of a stage (R275, R283), the end of stages
and runs (R269, R278) and faults (R287). -/

namespace Sys2Proof.Machine

/-! ### Faults (R287, R289) -/

/-- An engine faults: it discards what it holds, writes its fault fields and enters FAULTED. -/
def State.steFault (s : State) (j code pc end_ : Nat) : State :=
  let s := (s.steBusy j).clearSte j
  let s := ((s.stePoke j 0x67 1 code).stePoke j 0x6C 2 pc).stePoke j 0x6E 1 end_
  let s := s.setSteState j 4
  let s :=
    if s.obj (Obj.ste_FAULT_CODE j) = 0 then
      (((s.setObj (Obj.ste_FAULT_CODE j) code).setObj (Obj.ste_FAULT_PC j) pc).setObj (Obj.ste_FAULT_END j) end_).setObj
        (Obj.ste_FAULT_TIME j) s.now
    else s
  let s := s.bump Obj.stetot_STE_FAULTS_TOTAL
  match s.steParcel j with
  | some n => s.raiseParcel n (0x0200 + code) j 0 0
  | none => s

/-! ### Commands (R267) -/

/-- The start of the next slot, or the present instant when a slot starts now. -/
def State.slotStart (s : State) : State := s.advanceTo (ceilDiv s.now 1024 * 1024)

/-- Whether an engine's parcel is RUNNING. -/
def State.steLive (s : State) (j : Nat) : Bool :=
  match s.steParcel j with
  | some n => decide (s.parState n = 3)
  | none => false

/-- A command refused and counted. -/
def State.steRefuse (s : State) (j : Nat) : State :=
  (s.stePoke j 0x78 4 (satN 32 (s.stePeek j 0x78 4 + 1))).bump (Obj.ste_CMD_REFUSED j)

/-- What START loads: the program up to END, the bindings and the control fields (R267, R278). -/
def State.steLoad (s : State) (j : Nat) : Ste :=
  let words := (List.range 512).map (fun i => s.stePeek j (0x1000 + 16 * i) 16)
  let prog := match words.findIdx? (fun w => decide (w % 256 = 2)) with | some i => words.take (i + 1) | none => words
  let t := s.stePeek j 0x08 8
  { Ste.reset with
    prog := prog
    ins := (List.range 8).map (fun q => s.stePeek j (0x100 + 64 * q) 64)
    outs := (List.range 4).map (fun q => s.stePeek j (0x300 + 64 * q) 64)
    temps := (List.range 16).map (fun t => s.stePeek j (0x400 + 16 * t) 16)
    runs := s.stePeek j 0x04 4
    startSlot := t
    notify := s.stePeek j 0x50 8
    runTimeout := s.stePeek j 0x58 4
    runSlot := if t < s.slot ∨ t = 0 then s.slot + 1 else t
    nextTag := (s.ste j).nextTag }

/-- Bindings of an engine as its memory holds them, for the checks of CHAIN ends (R273). -/
def State.stePeer (s : State) (k : Nat) : Nat × Nat × List Nat × List Nat :=
  ((s.steParcel k).getD 4, s.steState k, (List.range 8).map (fun q => s.stePeek k (0x100 + 64 * q) 64),
    (List.range 4).map (fun q => s.stePeek k (0x300 + 64 * q) 64))

/-- The checks of START (R278), the one that faults. -/
def State.steChecks (s : State) (j : Nat) (e : Ste) : Option SteFail :=
  firstFail (e.illegal ++ e.graph j s.stePeer ((s.steParcel j).getD 4) ++ e.format ++ e.region (fun o => s.stePeek j (o + 12) 4)
    ++ e.overflow ++ e.orderFail)

/-- Whether bytes of an engine's memory meet an uncorrectable error. -/
def State.steBadAt (s : State) (j o n : Nat) : Bool := decide (o + n ≤ 2 ^ 20) && (s.firstBad false (steAddr j o) n).isSome

/-- The command word sampled at the start of a slot (R267); an uncorrectable error in what START loads is STE_MEM (R288). -/
def State.steTake (s : State) (j : Nat) : State :=
  let w := s.stePeek j 0 4
  let v := s.steState j
  let s := s.stePoke j 0x60 4 (w / 256)
  if w % 256 = 1 then
    if v = 1 ∨ v = 2 then s.steRefuse j
    else
      let e := s.steLoad j
      let s := ((s.setSte j e).stePoke j 0x67 1 0).stePoke j 0x68 4 0
      if s.steBadAt j 0 0x500 || s.steBadAt j 0x1000 (16 * e.prog.length) then s.steFault j steMem noPc 0xFF
      else
        match s.steChecks j e with
        | some (code, pc, x) => s.steFault j code pc x
        | none => s.setSteState j 1
  else if w % 256 = 2 then s.stopSte j
  else s.steRefuse j

/-- Whether a command waits to be taken (R267). -/
def State.stePending (s : State) (j : Nat) : Bool := s.steLive j && decide (s.stePeek j 0 4 / 256 ≠ s.stePeek j 0x60 4)

/-! ### Runs (R268, R269) -/

/-- A stream engine changed. -/
def State.modSte (s : State) (j : Nat) (f : Ste → Ste) : State := s.setSte j (f (s.ste j))

/-- What a stage reads of engine memory (R274, R275, R283, R284): instruction, end, offset and length of each part. -/
def State.steReads (s : State) (j : Nat) (e : Ste) (is : List StIns) : List (Nat × Nat × Nat × Nat) :=
  let par := e.run % 2
  is.flatMap (fun i =>
    (i.reads.filter isInput).flatMap (fun q =>
      let b := e.inb q
      if b.kind = 1 then [(i.pc, q, b.base, b.nrec * b.lay.rs)]
      else if b.kind = 2 then (e.awaited q par).map (fun sl => (i.pc, q, b.landOff par sl 0, b.nrec * b.lay.rs))
      else [])
    ++ (i.writes.filter (fun x => isOutput x && decide ((e.outb (x - 0x10)).kind = 2))).map (fun x =>
      (i.pc, x, (e.outb (x - 0x10)).base, 4 * (e.outb (x - 0x10)).dcount))
    ++ (if i.opc = 0x40 then [(i.pc, 0xFF, i.imm64 % 2 ^ 32, 24)]
      else if i.opc = 0x41 then [(i.pc, 0xFF, i.imm64 % 2 ^ 32, 16 + 8 * s.stePeek j (i.imm64 % 2 ^ 32 + 12) 4)]
      else []))

/-- The bytes that a stage reads of engine memory besides landed records: MEM inputs, lists of devices, tables, and the rows of a
GATHER table in that memory (R268, R283). -/
def State.steImage (s : State) (j : Nat) (e : Ste) : Bytes :=
  let rs := (s.steReads j e e.stageCode).filter (fun r => !isInput r.2.1 || decide ((e.inb r.2.1).kind = 1))
  let tables := (e.stageCode.filter (fun i => decide (i.opc = 0x40))).flatMap (fun i =>
    let o := i.imm64 % 2 ^ 32
    let a := s.stePeek j o 8
    let n := s.stePeek j (o + 8) 4 * s.stePeek j (o + 16) 4
    if addrDev a = s.ownDev ∧ a % 2 ^ 44 / 2 ^ 20 = steAddr j 0 / 2 ^ 20 then [(a % 2 ^ 20, min n (2 ^ 20 - a % 2 ^ 20))] else [])
  (rs.map (fun r => (r.2.2.1, r.2.2.2)) ++ tables).flatMap (fun r => s.readBytes (steAddr j r.1) r.2)

/-- What the stage in progress reads noted (R268). -/
def State.steWatch (s : State) (j : Nat) : State := s.modSte j (fun e => { e with image := s.steImage j e })

/-- A run begins: fresh parameters, empty temporaries. -/
def State.steBegin (s : State) (j : Nat) : State :=
  let t := if s.steState j = 2 then (s.ste j).busyAt else s.now
  let s := s.modSte j (fun e => { e with
    runSlot := s.slot, params := (List.range 8).map (fun i => s.stePeek j (0x10 + 8 * i) 8), stage := 0, at_ := .stage,
    busyAt := t, tempQ := [], partials := [], outCount := [0, 0, 0, 0], status := 0, excess := 0, rows := [], gets := [],
    flagDevs := [] })
  (s.steWatch j).setSteState j 2

/-- What a run's inputs and landed records hold given up, the run after it expected (R274). -/
def Ste.nextRun (e : Ste) (slot : Nat) : Ste :=
  let par := e.run % 2
  let keep (m : Sparse Bool) : Sparse Bool := m.filter (fun x => decide (x.1 / 2 ^ 26 % 2 ≠ par))
  { e with
    run := e.run + 1, runSlot := slot + 1, at_ := .between, chainQ := [], landed := keep e.landed, differ := keep e.differ,
    excluded := e.excluded.filter (fun x => decide (x.1 % 2 ≠ par)) }

/-- Step 4 of R269: the next run awaits the next slot, or the engine has ended. -/
def State.steNext (s : State) (j : Nat) : State :=
  let e := s.ste j
  if e.runs ≠ 0 ∧ e.runs ≤ s.stePeek j 0x68 4 then ((s.steBusy j).clearSte j).setSteState j 3
  else s.setSte j (e.nextRun s.slot)

/-! ### Sending (R275, R283) -/

/-- The endpoint of a stream engine (R263). -/
def steEnd (j : Nat) : Nat := 180 + j / 2

/-- A packet of an engine sent: it takes a TAG and awaits its response. Copies of one packet carry one number (R275). -/
def State.steSend (s : State) (j : Nat) (share : Option Nat) (fetch : Option Nat) (p : Packet) : State :=
  let e := s.ste j
  let t := freeTag (e.out.map (fun o => o.pkt.tag.toNat)) 65536 e.nextTag
  let p := { p with tag := BitVec.ofNat 16 t }
  let s := s.setSte j { e with nextTag := (t + 1) % 2 ^ 16, out := e.out ++ [⟨p, s.now, none, fetch⟩] }
  s.setTxq (steEnd j) (Sparse.get [] s.txq (steEnd j) ++ [⟨p, ownAt, none, 0, share⟩])

/-- The copies of one packet sent (R275). -/
def State.steCopies (s : State) (j : Nat) (l : List Packet) : State :=
  let share := if 1 < l.length then some (j * 2 ^ 16 + (s.ste j).nextTag) else none
  l.foldl (fun s p => s.steSend j share none p) s

/-- The devices an output lists; none where it lists none. -/
def State.steDevices (s : State) (j : Nat) (b : OutBind) : List Nat :=
  (List.range b.dcount).map (fun i => s.stePeek j (b.base + 4 * i) 4 % 2 ^ 20)

/-- A packet for each listed device, ADDR[63:44] replaced; as it stands when none is listed (R275). -/
def copiesTo (devs : List Nat) (p : Packet) : List Packet :=
  if devs = [] then [p]
  else devs.map (fun d => { p with dst := BitVec.ofNat 20 d, addr := BitVec.ofNat 64 (d * 2 ^ 44 + p.addrN % 2 ^ 44) })

/-- Payload bytes of an acc packet of k records (R193). -/
def StLay.accBytes (l : StLay) (k : Nat) : Nat :=
  (if l.mode = 1 then ceilDiv (k * l.blocks) 16 * 16 else 0) + ceilDiv (k * l.vn * l.fmt.width) 8

/-- Records an acc packet can hold. -/
def StLay.accPer (l : StLay) : Nat :=
  max 1 (((List.range 8193).filter (fun k => decide (l.accBytes k ≤ 4096))).length - 1)

/-- Payload of an acc packet: scale bytes padded to 16, then the elements of every record (R193). -/
def StLay.accPayload (l : StLay) (rs : List StRec) : Bytes :=
  let codes := rs.flatMap (fun r => l.codes r.bytes)
  let body := packCodes l.fmt.width (ceilDiv (codes.length * l.fmt.width) 8) codes
  if l.mode = 1 then padMul 16 (rs.flatMap (fun r => (l.region r.bytes).take l.blocks)) ++ body else body

/-- The packets of a SEND output, one list of copies for each (R275). -/
def State.stePackets (s : State) (j n : Nat) (e : Ste) (q : Nat) (recs : List StRec) : List (List Packet) :=
  let b := e.outb q
  let l := b.lay
  let strip := b.flags.testBit 0
  let w := l.rs - (if strip then l.keyLen else 0)
  let body (rs : List StRec) : Bytes := rs.flatMap (fun r => if strip then r.bytes.drop l.keyLen else r.bytes)
  let devs := s.steDevices j b
  let per := if b.op = 2 then l.accPer else if w = 0 then 1 else 4096 / w
  let one (c : Nat × Nat) : Packet :=
    let rs := (recs.drop c.1).take c.2
    match b.op with
    | 0 => s.request n (0xF00 + j) opPut b.tc ((b.addr + c.1 * w) % 2 ^ 64) 0 (body rs)
    | 2 =>
      let a := wrap 16 b.anchor
      (s.request n (0xF00 + j) opAcc b.tc ((b.addr + 16 * c.1 * l.vn) % 2 ^ 64) (c.2 * l.vn) (l.accPayload rs)).withExt
        (a * 2 ^ 240 + (if l.fmt = .da128 then a else 0) * 2 ^ 224 + l.fmt.code * 2 ^ 220 + l.mode * 2 ^ 218 + l.vf / 64 * 2 ^ 216)
    | _ =>
      (s.request n (0xF00 + j) opColl b.tc 0 0 (body rs)).withExt
        (b.group * 2 ^ 240 + (b.cseq0 + e.run) % 2 ^ 32 * 2 ^ 208 + b.slot * 2 ^ 192 + b.role * 2 ^ 190 + b.phase * 2 ^ 186
          + (if l.fmt = .da128 then wrap 16 b.anchor else 0) * 2 ^ 160 + c.1 * 2 ^ 112 + (if l.kf = 0 then l.fmt.code else Fmt.raw8.code) * 2 ^ 108)
  (((cut recs.length per).map one).filter (fun p => decide (p.payload ≠ []))).map (copiesTo devs)

/-- Gets that have room among the 64 in flight, sent (R283). -/
def State.stePump (s : State) (j : Nat) : State :=
  let e := s.ste j
  let k := 64 - (e.out.filter (fun o => o.fetch.isSome)).length
  let l := e.gets.take k
  l.foldl (fun s o => (s.steSend j none o.fetch o.pkt).bump (Obj.ste_GETS_ISSUED j)) (s.setSte j { e with gets := e.gets.drop k })

/-- Rows to fetch that are neither fetched nor asked for are asked for (R283). -/
def State.steFetch (s : State) (j n : Nat) (l : List (Nat × Nat × Nat)) : State :=
  let e := s.ste j
  let asked (k : Nat) : Bool := (e.out ++ e.gets).any (fun o => decide (o.fetch = some k))
  let new := (l.filter (fun f => !asked f.1)).map (fun f =>
    ⟨s.request n (0xF00 + j) opGet 0 f.2.1 f.2.2 [], s.now, none, some f.1⟩)
  (s.setSte j { e with gets := e.gets ++ new }).stePump j

/-! ### Stages (R278) -/

/-- What a stage counted (R71, R281, R289). -/
def State.steCount (s : State) (j : Nat) (r : StageRun) (outs : Nat) : State :=
  let c := r.cnt
  let s := [(Obj.ste_RECORDS_IN j, r.taken), (Obj.ste_RECORDS_OUT j, outs), (Obj.ste_TERM_SAT j, c.sums.termSat),
      (Obj.stetot_STE_TERM_SAT_TOTAL, c.sums.termSat), (Obj.ste_TERM_ZERO j, c.sums.termZero), (Obj.ste_TERM_POISON j, c.sums.poison),
      (Obj.ste_SUM_SAT j, c.sums.sumSat), (Obj.ste_RESIDUE_FAIL j, c.sums.resFail), (Obj.stetot_STE_RESIDUE_FAIL_TOTAL, c.sums.resFail),
      (Obj.ste_CONV_SAT j, c.convSat), (Obj.stetot_STE_CONV_SAT_TOTAL, c.convSat), (Obj.ste_NAN_OUT j, c.nans),
      (Obj.ste_SCATTER_DROPPED j, c.dropped)].foldl (fun (s : State) (e : Nat × Nat) => s.addObj e.1 e.2) s
  match s.steParcel j with
  | some n => ((List.range c.sums.resFail).foldl (fun s _ => s.raiseParcel n 0x0304 j 0 0) s).sumsOpened c.sums.opened
  | none => s.sumsOpened c.sums.opened

/-- Records written from an offset of the data area, `n` places repeated (R275, R276). -/
def State.steStore (s : State) (j base n rs : Nat) (recs : List StRec) : State :=
  (recs.zipIdx).foldl (fun s r => if n = 0 then s else s.writeBytes (steAddr j (base + r.2 % n * rs)) r.1.bytes) s

/-- The records of one end of a stage go where the end leads: to memory, to a consumer, into packets, or into a temporary. -/
def State.steEmit (s : State) (j n : Nat) (x : Nat) (recs : List StRec) : State :=
  let e := s.ste j
  if isTemp x then
    let t := e.tmpb (x - 0x20)
    (s.setSte j { e with tempQ := Sparse.set none e.tempQ x (some recs) }).steStore j t.base t.nrec t.lay.rs recs
  else if isOutput x then
    let q := x - 0x10
    let b := e.outb q
    match b.kind with
    | 1 => (s.setSte j { e with outCount := e.outCount.set q recs.length }).steStore j b.base b.nrec b.lay.rs recs
    | 2 => (s.stePackets j n e q recs).foldl (fun s l => s.steCopies j l) s
    | 3 => s.modSte b.tgtEngine (fun t => { t with chainQ := Sparse.set none t.chainQ b.tgtIn (some recs) })
    | _ => s
  else s

/-- Devices that an output's packets go to. -/
def State.steDests (s : State) (j : Nat) (e : Ste) (q : Nat) (puts : List Nat) : List Nat :=
  let b := e.outb q
  if puts ≠ [] then (puts.map addrDev).eraseDups
  else if b.dcount = 0 then [addrDev b.addr] else (s.steDevices j b).eraseDups

/-- The destination flags that the outputs of a stage owe (R275, R284). -/
def State.steFlags (s : State) (j : Nat) (e : Ste) (r : StageRun) : List (Nat × Nat × Nat × Nat) :=
  (r.recs.filter (fun p => isOutput p.1)).flatMap (fun p =>
    let q := p.1 - 0x10
    let b := e.outb q
    let puts := (r.puts.filter (fun x => decide (x.1 = p.1))).map (fun x => x.2.1)
    if decide (b.kind = 2) && b.flags.testBit 1 && (decide (p.2 ≠ []) || decide (puts ≠ [])) then
      (s.steDests j e q puts).map (fun d => (d, b.dflagCore, b.dflag, b.tc))
    else [])

/-- An evaluated stage takes effect: its records, packets, counts, status and the flags it owes. -/
def State.steCommit (s : State) (j n : Nat) (r : StageRun) : State :=
  let e := s.ste j
  let s := s.setSte j { e with
    at_ := .sent, partials := e.partials ++ r.parts, status := max e.status r.cnt.status, excess := max e.excess r.cnt.excess,
    flagDevs := e.flagDevs ++ s.steFlags j e r }
  let s := s.steCount j r (sumN (((r.recs.filter (fun p => isOutput p.1))).map (fun p => p.2.length)) + r.puts.length)
  let s := r.recs.foldl (fun s p => s.steEmit j n p.1 p.2) s
  r.puts.foldl (fun s p =>
    if p.2.2 = [] then s
    else s.steCopies j [s.request n (0xF00 + j) opPut (e.outb (p.1 - 0x10)).tc p.2.1 0 p.2.2]) s

/-- Whether the consumers of a stage's CHAIN outputs can take its records (R273). -/
def State.chainReady (s : State) (e : Ste) (is : List StIns) : Bool :=
  (is.flatMap StIns.writes).all (fun x =>
    if isOutput x ∧ (e.outb (x - 0x10)).kind = 3 then
      let b := e.outb (x - 0x10)
      decide (s.steState b.tgtEngine = 2) && (Sparse.get none (s.ste b.tgtEngine).chainQ b.tgtIn).isNone
    else true)

/-- The first read of a stage that meets an uncorrectable error of engine memory (R288). -/
def State.steBad (s : State) (j : Nat) (e : Ste) (is : List StIns) : Option (Nat × Nat) :=
  ((s.steReads j e is).find? (fun r => s.steBadAt j r.2.2.1 r.2.2.2)).map (fun r => (r.1, r.2.1))

/-- A stage whose operands were written while it ran: its records and its status are free values (R268, R283). -/
def State.freeStage (s : State) (r : StageRun) : State × StageRun :=
  let free (x : State × List Bytes) (n : Nat) : State × List Bytes :=
    let (bs, s) := x.1.freeBytes n
    (s, x.2 ++ [bs])
  let (s, recs) := r.recs.foldl (fun (x : State × List (Nat × List StRec)) p =>
    let y := (p.2.map (fun q => q.bytes.length)).foldl free (x.1, [])
    (y.1, x.2 ++ [(p.1, List.zipWith (fun (q : StRec) bs => { q with bytes := bs }) p.2 y.2)])) (s, [])
  let (s, bs) := (r.puts.map (fun p => p.2.2.length)).foldl free (s, [])
  let (v, s) := s.fresh
  (s, { r with recs := recs, puts := List.zipWith (fun p b => (p.1, p.2.1, b)) r.puts bs,
               cnt := { r.cnt with status := v % 5, excess := v / 5 % 16 } })

/-- The instructions of the stage in progress carried out, if their inputs have ended (R278). -/
def State.steStage (s : State) (j n : Nat) : State :=
  let e := s.ste j
  let is := e.stageCode
  if !((is.flatMap StIns.reads).filter isInput).all e.ended || !s.chainReady e is then s
  else
    match s.steBad j e is with
    | some (pc, x) => s.steFault j steMem pc x
    | none =>
      match s.steEval j e (e.code.map (fun i => i.withParams e.params)) is with
      | .need l => s.steFetch j n l
      | .fault c pc x => s.steFault j c pc x
      | .done r =>
        match e.overflows is (s.steRecs j e r) r with
        | some (pc, x) => s.steFault j steOverflow pc x
        | none =>
          let x := if s.steImage j e = e.image then (s, r) else s.freeStage r
          x.1.steCommit j n x.2

/-- The stage after the one in progress, or the run's destination flags after the last (R269, R275, R278). -/
def State.stageEnd (s : State) (j n : Nat) : State :=
  let e := s.ste j
  if e.stage < (e.code.filter (fun i => decide (i.opc = 1))).length then (s.setSte j { e with stage := e.stage + 1, at_ := .stage }).steWatch j
  else
    e.flagDevs.eraseDups.foldl (fun s f => s.steSend j none none (s.flagPacket n (0xF00 + j) f.2.2.2 f.1 f.2.1 f.2.2.1 (0, 0)))
      (s.setSte j { e with at_ := .flags })

/-- The end of a run recorded (R269 steps 1 to 3). -/
def State.steRecord (s : State) (j n : Nat) : State :=
  let e := s.ste j
  let par := e.run % 2
  let s := (s.stePoke j 0x65 1 e.status).stePoke j 0x66 1 e.excess
  let s := (List.range 8).foldl (fun (s : State) q => s.stePoke j (0x80 + 8 * q) 8 (if (e.inb q).kind = 2 then e.mask q par else 0)) s
  let s := (List.range 4).foldl (fun (s : State) q => s.stePoke j (0xC0 + 4 * q) 4 (e.outCount.getD q 0)) s
  let s := s.stePoke j 0x70 8 s.now
  let s := s.stePoke j 0x68 4 ((s.stePeek j 0x68 4 + 1) % 2 ^ 32)
  let s := (s.bump (Obj.ste_RUNS_TOTAL j)).bump Obj.stetot_STE_RUNS_TOTAL
  let s :=
    if (List.range 8).any e.partialIn then (s.bump (Obj.ste_PARTIAL_RUNS j)).bump Obj.stetot_STE_PARTIAL_RUNS_TOTAL else s
  if e.notify % 2 = 1 then
    (s.setSte j { e with at_ := .notify }).steSend j none none
      (s.flagPacket n (0xF00 + j) 0 (field e.notify 51 32) (field e.notify 31 20) (field e.notify 15 8) (0, 0))
  else s.steNext j

/-! ### Answers (R269, R275, R283) -/

/-- The response to packet i of an engine: a RING_FULL waits to be resent, another status than OK is STE_REMOTE; a fetched row is
kept, and the answered NOTIFY of a run ends it. -/
def State.steAnswer (s : State) (j i status : Nat) (bs : Bytes) : State :=
  let e := s.ste j
  match e.out[i]? with
  | none => s
  | some o =>
    if status = stRingFull then s.setSte j { e with out := e.out.set i { o with full := some s.now } }
    else if status ≠ stOk then s.steFault j steRemote noPc 0xFF
    else
      let e := { e with out := e.out.eraseIdx i }
      let e := match o.fetch with | some k => { e with rows := Sparse.set [] e.rows k (bs.take (field o.pkt.argN 12 0)) } | none => e
      let s := (s.setSte j e).stePump j
      if e.at_ = .notify ∧ e.out = [] then s.steNext j else s

/-- A packet of an engine answered RING_FULL sent again a slot later, until REMOTE_TIMEOUT (R275). -/
def State.resendSte (s : State) (j tag : Nat) : State :=
  let e := s.ste j
  match e.out.findIdx? (fun o => decide (o.pkt.tag.toNat = tag)), s.steParcel j with
  | some i, some n =>
    match e.out[i]?.bind (fun o => o.full.map (fun t => (o, t))) with
    | some (o, t) =>
      let s' := s.advanceTo (t + 1024)
      if t + 1024 ≤ s'.now ∧ s'.now < o.at_ + s.obj (Obj.partmo_REMOTE_TIMEOUT n) * 1024 then
        (s'.setSte j { e with out := e.out.set i { o with full := none } }).inject (steEnd j) o.pkt
      else s
    | none => s
  | _, _ => s

end Sys2Proof.Machine
end

