-- ==== Sys2Proof/Machine/CollPlan.lean ====
section
/-! DEFINITION. Groups and ranks (R291, R292), the choice of the algorithm (R304), chunks (R303) and the rounds of an instance
(R305 to R309, R314, R319, R359). -/

namespace Sys2Proof.Machine

/-! ### Groups (R291 to R294) -/

/-- A group table entry taken apart (R291). -/
structure GroupEntry where
  valid : Nat
  parcel : Nat
  early : Nat
  lo : Nat
  cnt : Nat
  start : Nat
  len : Nat
  base : Nat
  count : Nat
  deriving DecidableEq, Repr

/-- An entry read from its 64 bytes (R291). -/
def GroupEntry.parse (v : Nat) : GroupEntry :=
  ⟨bytesField v 0 1, bytesField v 1 1, bytesField v 2 2, bytesField v 4 4, bytesField v 8 4, bytesField v 12 2, bytesField v 14 2,
    bytesField v 16 1, bytesField v 17 1⟩

/-- Entry g of the group table. -/
def State.groupOf (s : State) (g : Nat) : GroupEntry := GroupEntry.parse (if g < 4096 then s.obj (Obj.grp_ENTRY g) else 0)

/-- Count of a box in dimension k. -/
def GroupEntry.boxN (e : GroupEntry) (k : Nat) : Nat := coord e.cnt k + 1
/-- Whether a group is a box. -/
def GroupEntry.box (e : GroupEntry) : Bool := decide (e.valid = 1)

/-- N (R292). -/
def GroupEntry.size (e : GroupEntry) : Nat := if e.box then e.boxN 0 * e.boxN 1 * e.boxN 2 * e.boxN 3 else e.len

/-- The member of rank r of a box (R292). -/
def GroupEntry.boxMember (e : GroupEntry) (r : Nat) : Nat :=
  let i0 := r % e.boxN 0
  let r := r / e.boxN 0
  let i1 := r % e.boxN 1
  let r := r / e.boxN 1
  let i2 := r % e.boxN 2
  let i3 := r / e.boxN 2
  (coord e.lo 0 + i0) + 32 * (coord e.lo 1 + i1) + 1024 * (coord e.lo 2 + i2) + 32768 * (coord e.lo 3 + i3)

/-- The members of a group in rank order (R292). -/
def State.groupMembers (s : State) (e : GroupEntry) : List Nat :=
  if e.box then (List.range e.size).map e.boxMember
  else (List.range e.len).map (fun i => s.obj (Obj.grp_MEMBER (e.start + i)) % 2 ^ 20)

/-- Counts of a box before dimension k. -/
def GroupEntry.strideOf (e : GroupEntry) : Nat → Nat
  | 0 => 1
  | k + 1 => e.strideOf k * e.boxN k

/-- The dimensions of an instance's stages, ascending, for the member of rank r: a list is one; a group of one member has one of
count 1 (R292, R305). -/
def GroupEntry.cdims (e : GroupEntry) (r : Nat) : List CDim :=
  if e.box then
    let l := ([0, 1, 2, 3].filter (fun k => decide (1 < e.boxN k))).map (fun k =>
      (⟨k, e.boxN k, r / e.strideOf k % e.boxN k, e.strideOf k⟩ : CDim))
    if l = [] then [⟨0, 1, 0, 1⟩] else l
  else [⟨0, e.len, r, 1⟩]

/-- Single-stage groups (R292). -/
def GroupEntry.single (e : GroupEntry) : Bool :=
  if e.box then decide (([0, 1, 2, 3].filter (fun k => decide (1 < e.boxN k))).length ≤ 1) else decide (e.len ≤ 64)

/-- What a group keeps beside its entry. -/
def State.groupSt (s : State) (g : Nat) : GroupSt := Sparse.get ⟨0, 0, 0⟩ s.groups g
/-- A change of it. -/
def State.modGroup (s : State) (g : Nat) (f : GroupSt → GroupSt) : State :=
  { s with groups := Sparse.modify ⟨0, 0, 0⟩ s.groups g f }

/-- The valid groups of a parcel (R291). -/
def State.groupsOf (s : State) (n : Nat) : List Nat :=
  (List.range 4096).filter (fun g => let e := s.groupOf g; decide (e.valid ≠ 0) && decide (e.parcel = n))

/-- NEXT_CSEQ of every group of a parcel set (R296, R356). -/
def State.setCseqs (s : State) (n v : Nat) : State :=
  (s.groupsOf n).foldl (fun s g => s.modGroup g (fun t => { t with next := v % 2 ^ 32 })) s

/-- The engine of a group, sequence number and phase (R294). -/
def State.phaseEngine (s : State) (g cseq phase : Nat) : Nat :=
  let e := s.groupOf g
  e.base + (cseq + phase) % max e.count 1

/-! ### The choice of the algorithm (R304) -/

/-- `choose` of R304. -/
def chooseAlgo (kind algo : Nat) (box single : Bool) (n b : Nat) (slots dl aligned : Bool) (dmax amin : Nat) : Nat :=
  if 5 ≤ kind then (if algo = 0 ∧ (kind = 6 ∨ box) then 1 else 0)
  else
    let direct := box || (single && decide (n ≤ 64))
    if slots || dl then
      (if kind ≤ 2 ∧ single ∧ b ≤ dmax ∧ (algo = 0 ∨ algo = 1) then 1 else 0)
    else if algo = 1 then (if direct then 1 else 0)
    else if algo = 3 then (if box ∧ kind ≤ 2 ∧ aligned then 3 else 0)
    else if algo = 2 then 2
    else if direct ∧ b ≤ dmax then 1
    else if box ∧ kind ≤ 2 ∧ aligned ∧ amin ≤ b then 3
    else 2

/-! ### Chunks (R303) -/

/-- Elements of the source. -/
def Coll.e (c : Coll) : Nat := c.src.count
/-- N. -/
def Coll.n (c : Coll) : Nat := c.members.length
/-- The slots of the contributions: N without NSLOT (R301). -/
def Coll.slots (c : Coll) : Nat := if c.nslot = 0 then c.n else c.nslot

/-- u of R303. -/
def Coll.unit (c : Coll) : Nat :=
  max 64 (max (if c.src.blocked then c.src.block else 0) (if c.dst.blocked then c.dst.block else 0))

/-- The first element of chunk r (R303), or of rank r's part of a gather. -/
def Coll.chunkLo (c : Coll) (r : Nat) : Nat :=
  match c.kind with
  | 1 => min c.e (c.unit * (r * ceilDiv c.e c.unit / max c.n 1))
  | 2 => r * (c.e / max c.n 1)
  | 3 => r * c.e
  | _ => if r = 0 then 0 else c.e

/-- Elements of the whole result space. -/
def Coll.total (c : Coll) : Nat := if c.kind = 3 then c.n * c.e else c.e

/-- The first rank of the group of digit 0 to n − 1 of a dimension that holds this member. -/
def Coll.blockRank (c : Coll) (d : CDim) : Nat := c.rank / (d.n * d.stride) * (d.n * d.stride)

/-- The elements of the ranks that have digit q in a dimension and share this member's higher digits: first and last + 1. -/
def Coll.part (c : Coll) (d : CDim) (q : Nat) : Nat × Nat :=
  let r := c.blockRank d + q * d.stride
  (c.chunkLo r, c.chunkLo (r + d.stride))

/-- The peer of digit q in a dimension. -/
def Coll.peer (c : Coll) (d : CDim) (q : Nat) : Nat := c.members.getD (c.rank - d.i * d.stride + q * d.stride) 0

/-- The slot that names digit q of a dimension (the model's numbering, log 25). -/
def CDim.slot (d : CDim) (q : Nat) : Nat := 32 * d.k + q

/-! ### Rounds -/

/-- A small reduction over the group (R308, R314, R319, R359). -/
def miniRounds (phase : Nat) (ds : List CDim) : List CRound :=
  .miniBegin phase :: (ds.map (.mini phase) ++ [.miniEnd phase])

/-- Whether a masked instance agrees its mask (R314). -/
def Coll.masked (c : Coll) : Bool := decide (c.deadline ≠ 0) && decide (c.force = 0)

/-- Direct stages, each followed by its sum; the mask is agreed in between (R305, R314). -/
def Coll.stageRounds (c : Coll) : Nat → List CDim → List CRound
  | _, [] => []
  | t, d :: ds => [.reduce t d] ++ (if c.masked then miniRounds 8 c.dims else []) ++ [.sum t d] ++ c.stageRounds (t + 1) ds

/-- The rounds of an instance after its contribution is read. `replay` says that REPLAY_MASK comes first (R359). -/
def Coll.plan (c : Coll) (replay : Bool) : List CRound :=
  let pre := if replay then miniRounds 0xA c.dims else []
  let anchor := if c.kind ≤ 2 ∧ c.dst.anchorSrc = 2 then miniRounds 0 c.dims else []
  let agree := if c.opts.testBit 0 then miniRounds 9 c.dims else []
  let down := c.dims.reverse
  let steps (n : Nat) : List Nat := (List.range (n - 1)).map (· + 1)
  let body :=
    if c.by_ = .ready then c.stageRounds 0 c.dims
    else if 5 ≤ c.kind then [.move]
    else if c.algo = 3 then [.accClear, .accAdd, .accOut] ++ (if c.kind = 1 then [.accWait] else [])
    else if c.algo = 1 then
      match c.kind with
      | 1 =>
        if c.replicate then c.stageRounds 0 c.dims ++ [.convert]
        else c.stageRounds 0 down ++ [.convert] ++ c.dims.map .gather
      | 2 => c.stageRounds 0 (if c.replicate then c.dims else down) ++ [.convert]
      | 3 => .convert :: c.dims.map .gather
      | _ => .convert :: c.dims.map .spread
    else
      let rings := down.flatMap (fun d => (steps d.n).map (.ring d))
      let gathers := c.dims.flatMap (fun d => (steps d.n).map (.ringGather d))
      match c.kind with
      | 1 => rings ++ [.convert] ++ gathers
      | 2 => rings ++ [.convert]
      | 3 => .convert :: gathers
      | _ => .convert :: c.dims.map .chain
  pre ++ [.read] ++ anchor ++ body ++ agree

end Sys2Proof.Machine
end

