-- ==== Sys2Proof/Machine/CollVal.lean ====
section
/-! DEFINITION. The elements of an instance as packets carry them (R193, R303) and as sums take them (R281, R305): own
contributions, landed parts, exact sums, and the result in its format. -/

namespace Sys2Proof.Machine

/-! ### Formats of the phases -/

/-- How the elements of a phase travel: format, blocks (row length and block size) if scaled, number of elements, anchor of DA128. -/
structure Geo where
  fmt : Fmt
  blocks : Option (Nat × Nat)
  total : Nat
  anchor : Int
  deriving DecidableEq, Repr

/-- A descriptor's elements. -/
def Desc.geo (d : Desc) (total : Nat) (anchor : Int) : Geo :=
  ⟨d.fmt, if d.blocked then some (max d.e0 1, d.block) else none, total, anchor⟩

/-- The elements of each phase (R295, R305, R306, R308, R314, R319). -/
def Coll.geo (c : Coll) (phase : Nat) : Geo :=
  match phase with
  | 0 => ⟨.int32, none, 1, 0⟩
  | 1 => c.src.geo c.e c.src.anchor
  | 5 => c.dst.geo c.total (if c.kind ≤ 2 then c.anchor else c.dst.anchor)
  | 7 => c.dst.geo c.total (if c.kind ≤ 2 then c.anchor else c.dst.anchor)
  | 8 => ⟨.raw8, none, 8, 0⟩
  | 9 => ⟨.int32, none, 32, 0⟩
  | 0xA => ⟨.raw8, none, 8, 0⟩
  | _ => ⟨.da128, none, c.e, c.anchor⟩

/-- The lengths of the blocks, or parts of blocks, that n elements from `lo` fall into. -/
def spans (e0 b : Nat) : Nat → Nat → Nat → List Nat
  | 0, _, _ => []
  | fuel + 1, lo, n =>
    if n = 0 then []
    else
      let col := lo % e0
      let len := max 1 (min n (min (b - col % b) (e0 - col)))
      len :: spans e0 b fuel (lo + len) (n - len)

/-- Number of the block of an element among the scales of its tensor. -/
def scaleIdx (e0 b x : Nat) : Nat := x / e0 * ceilDiv e0 b + x % e0 / b

/-- Lengths of the scaled groups of a range; none of an unscaled one. -/
def Geo.groups (g : Geo) (lo n : Nat) : List Nat :=
  match g.blocks with
  | some (e0, b) => spans e0 b n lo n
  | none => []

/-- Elements a range's packets carry, each within 4,096 payload bytes (R193, R195). -/
def Geo.cuts (g : Geo) (lo n : Nat) : List (Nat × Nat) :=
  match g.blocks with
  | some (e0, b) =>
    let per := max 1 (((List.range 513).filter (fun k => decide (blocksLen k (g.fmt.width * b / 8) ≤ 4096))).length - 1)
    ((pieces per (spans e0 b n lo n)).foldl (fun (x : Nat × List (Nat × Nat)) p => (x.1 + sumN p, x.2 ++ [(x.1, sumN p)])) (lo, [])).2
  | none => (cut n (max 64 (4096 * 8 / g.fmt.width / 64 * 64))).map (fun r => (lo + r.1, r.2))

/-- The payload of a range (R193). -/
def Geo.payload (g : Geo) (codes scales : List Nat) : Bytes :=
  let body := packCodes g.fmt.width (ceilDiv (codes.length * g.fmt.width) 8) codes
  if g.blocks.isSome then padMul 16 (scales.map (BitVec.ofNat 8)) ++ body else body

/-- Elements and scale bytes of a payload that begins at element `off`; none of a payload that no range has. -/
def Geo.read (g : Geo) (off : Nat) (bs : Bytes) : Option (List Nat × List Nat) :=
  match g.blocks with
  | none =>
    let n := bs.length * 8 / g.fmt.width
    if n = 0 ∨ ceilDiv (n * g.fmt.width) 8 ≠ bs.length then none else some (unpackCodes g.fmt.width n bs, [])
  | some (e0, b) =>
    let l := spans e0 b 512 off (512 * b)
    (((List.range 512).map (· + 1)).find? (fun k =>
      decide (ceilDiv k 16 * 16 + ceilDiv (sumN (l.take k) * g.fmt.width) 8 = bs.length))).map (fun k =>
        (unpackCodes g.fmt.width (sumN (l.take k)) (bs.drop (ceilDiv k 16 * 16)), (bs.take k).map BitVec.toNat))

/-- Elements as a sum takes them: words, or values with their scales. -/
def Geo.elems (g : Geo) (off : Nat) (codes scales : List Nat) : List StElem :=
  if g.fmt = .da128 then codes.map (fun c => .word (Da.unpack c))
  else match g.blocks with
    | none => codes.map (fun c => .term (decodeElem g.fmt false c))
    | some (e0, b) =>
      let base := scaleIdx e0 b off
      codes.mapIdx (fun i c => .term (scaledElem g.fmt (scales.getD (scaleIdx e0 b (off + i) - base) 127) c))

/-! ### Own and landed elements -/

/-- n elements of a list from place `lo`. -/
def window {α : Type} (l : List α) (lo n : Nat) : List α := (l.drop lo).take n

/-- This member's elements of a range: its sums so far, or its contribution. -/
def Coll.own (c : Coll) (lo n : Nat) : List StElem :=
  match c.cur with
  | some ws => (window ws (lo - c.curLo) n).map .word
  | none =>
    let g := c.geo 1
    let sc := match g.blocks with | some (e0, b) => c.scales.drop (scaleIdx e0 b lo) | none => []
    g.elems lo (window c.codes lo n) sc

/-- The parts of a phase landed for a slot. -/
def Coll.parts (c : Coll) (phase slot : Nat) : List CollLand :=
  c.landed.filter (fun l => decide (l.phase = phase) && decide (l.slot = slot))

/-- Every element of a range landed. -/
def Coll.has (c : Coll) (phase slot : Nat) (r : Nat × Nat) : Bool :=
  decide (r.2 - r.1 ≤ sumN ((c.parts phase slot).map (fun l => min (l.off + l.codes.length) r.2 - max l.off r.1)))

/-- The elements of a range that landed for a slot, each with whether its record's copies differed (R313). -/
def Coll.got (c : Coll) (phase slot : Nat) (r : Nat × Nat) : List (StElem × Bool) :=
  let ps := (c.parts phase slot).flatMap (fun l => ((c.geo phase).elems l.off l.codes l.scales).mapIdx (fun i e => (l.off + i, e, l.bad)))
  (List.range (r.2 - r.1)).map (fun i =>
    match ps.find? (fun p => decide (p.1 = r.1 + i)) with
    | some p => p.2
    | none => (.word Da.zero, false))

/-- Codes of a range that landed for a slot. -/
def Coll.gotCodes (c : Coll) (phase slot : Nat) (r : Nat × Nat) : List Nat :=
  let ps := (c.parts phase slot).flatMap (fun l => l.codes.mapIdx (fun i e => (l.off + i, e)))
  (List.range (r.2 - r.1)).map (fun i => ((ps.find? (fun p => decide (p.1 = r.1 + i))).map Prod.snd).getD 0)

/-! ### Sums -/

/-- Rows of elements summed exactly on an anchor, DA128 words checked as they enter (R60, R63, R281). -/
def sumRows (anchor : Int) (nonce n : Nat) (part : Bool) (rows : List (List (StElem × Bool))) : List Da × SumCount :=
  let step (a : Acc) (e : StElem × Bool) : Acc :=
    match e.1 with
    | .term v => addElem anchor e.2 a (.term v, false)
    | .word w => let x := w.check; addElem anchor e.2 a (.word x.1, x.2)
  let sums := (rows.foldl (fun acc row => acc.zipWith step row) (List.replicate n Acc.empty)).mapIdx (fun i a => a.settle .da128 nonce i)
  (sums.map (fun a => if part then { a.word with flags := a.word.flags ||| 4 } else a.word),
    sums.foldl (fun k a => SumCount.add k a.cnt) SumCount.zero)

/-- The larger of each element over rows of DA128 words (R363). -/
def maxRows (n : Nat) (rows : List (List (StElem × Bool))) : List Da :=
  let words := rows.map (fun row => row.map (fun e => match e.1 with | .word w => w | .term _ => Da.zero))
  words.tail.foldl (fun acc row => List.zipWith (fun a b => if a.v < b.v then b else a) acc row)
    (words.headD (List.replicate n Da.zero))

/-- Own elements as rows. -/
def Coll.ownRow (c : Coll) (r : Nat × Nat) : List (StElem × Bool) := (c.own r.1 (r.2 - r.1)).map (fun e => (e, false))

/-- What the sums of an instance count at its engine (R289). -/
def State.countColl (s : State) (j : Nat) (k : SumCount) : State :=
  [(Obj.ste_TERM_SAT j, k.termSat), (Obj.stetot_STE_TERM_SAT_TOTAL, k.termSat), (Obj.ste_TERM_ZERO j, k.termZero),
    (Obj.ste_TERM_POISON j, k.poison), (Obj.ste_SUM_SAT j, k.sumSat), (Obj.ste_RESIDUE_FAIL j, k.resFail),
    (Obj.stetot_STE_RESIDUE_FAIL_TOTAL, k.resFail)].foldl (fun (s : State) (e : Nat × Nat) => s.addObj e.1 e.2) s
  |> fun s => match s.steParcel j with
    | some n => ((List.range k.resFail).foldl (fun s _ => s.raiseParcel n 0x0304 j 0 0) s).sumsOpened k.opened
    | none => s.sumsOpened k.opened

/-! ### Results -/

/-- Sums written in a result's format, to nearest even (R68, R282): codes, scale bytes, saturations, NaN outcomes. -/
def Geo.write (g : Geo) (lo div : Nat) (ws : List Da) : List Nat × List Nat × Nat × Nat :=
  if g.fmt = .da128 then (ws.map Da.pack, [], 0, 0)
  else
    let vs := ws.map (convertOut .da128 g.anchor Q.one div)
    match g.blocks with
    | some (e0, b) =>
      let l := spans e0 b vs.length lo vs.length
      let outs := (l.foldl (fun (x : List Num × List BlockOut) n => (x.1.drop n, x.2 ++ [writeBlock g.fmt false (x.1.take n) []])) (vs, [])).2
      (outs.flatMap BlockOut.codes, outs.map BlockOut.scale, sumN (outs.map BlockOut.sats), sumN (outs.map BlockOut.nans))
    | none =>
      let cs := vs.map (encodeElem g.fmt false none)
      (cs.map Coded.code, [], (cs.filter Coded.sat).length, (cs.filter Coded.nan0).length)

/-- Result elements kept in the context. -/
def Coll.keep (c : Coll) (lo : Nat) (codes scales : List Nat) : Coll :=
  let base := match (c.geo 5).blocks with | some (e0, b) => scaleIdx e0 b lo | none => 0
  { c with
    result := codes.zipIdx.foldl (fun m e => Sparse.set none m (lo + e.2) (some e.1)) c.result
    resScale := scales.zipIdx.foldl (fun m e => Sparse.set 0 m (base + e.2) e.1) c.resScale }

/-- Codes of a range of the result. -/
def Coll.resCodes (c : Coll) (lo n : Nat) : List Nat := (List.range n).map (fun i => (Sparse.get none c.result (lo + i)).getD 0)
/-- Scale bytes of a range of the result. -/
def Coll.resScales (c : Coll) (lo n : Nat) : List Nat :=
  match (c.geo 5).blocks with
  | some (e0, b) => if n = 0 then [] else
      let a := scaleIdx e0 b lo
      (List.range (scaleIdx e0 b (lo + n - 1) + 1 - a)).map (fun i => Sparse.get 0 c.resScale (a + i))
  | none => []

/-- Elements of a tensor replaced from element `lo`: each row that the range meets is written with its other elements as they
stand, and the scale bytes from that of the first element. -/
def State.storeElems (s : State) (d : Desc) (lo : Nat) (codes scales : List Nat) : State :=
  let e0 := max d.e0 1
  let n := codes.length
  let s := if n = 0 then s else
    (List.range ((lo + n - 1) / e0 + 1 - lo / e0)).foldl (fun (s : State) i =>
      let r := lo / e0 + i
      let row := (s.rowCodes d r).mapIdx (fun c v => let x := r * e0 + c; if lo ≤ x ∧ x < lo + n then codes.getD (x - lo) 0 else v)
      s.writeBytes (d.rowAddr r) (packCodes d.fmt.width d.rowBytes row)) s
  if d.blocked then s.writeBytes (d.scaleAddr 0 + scaleIdx e0 d.block lo) (scales.map (BitVec.ofNat 8)) else s

/-- The bytes that hold a range of elements of a tensor, with their addresses. -/
def State.elemRuns (s : State) (d : Desc) (lo n : Nat) : List (Nat × Bytes) :=
  let e0 := max d.e0 1
  let w := d.fmt.width
  if n = 0 then []
  else
    (List.range ((lo + n - 1) / e0 + 1 - lo / e0)).map (fun i =>
      let r := lo / e0 + i
      let a := max lo (r * e0) - r * e0
      let b := min (lo + n) ((r + 1) * e0) - r * e0
      let x := a * w / 8
      let y := ceilDiv (b * w) 8
      (d.rowAddr r + x, s.readBytes (d.rowAddr r + x) (y - x)))
    ++ (if d.blocked then
          let x := scaleIdx e0 d.block lo
          let k := scaleIdx e0 d.block (lo + n - 1) + 1 - x
          [(d.scaleAddr 0 + x, s.readBytes (d.scaleAddr 0 + x) k)]
        else [])

/-- Status and excess of words (R66). -/
def wordsStatus (ws : List Da) : Nat × Nat :=
  (maxN (ws.map (fun w => statusOf w.flags)), maxN (ws.map Da.excess))

end Sys2Proof.Machine
end

