-- ==== Sys2Proof/Machine/CollRun.lean ====
section
/-! DEFINITION. The rounds of a collective instance carried out (R305 to R310, R312 to R316, R319, R359): sending, landing,
and going on as far as what has landed allows. -/

namespace Sys2Proof.Machine

/-! ### Contexts -/

/-- The context of an instance. -/
def State.collOf (s : State) (g q : Nat) : Option Coll := s.colls.find? (fun c => decide (c.group = g) && decide (c.cseq = q))

/-- A context replaced, by its instance. -/
def State.setColl (s : State) (c : Coll) : State :=
  { s with colls := s.colls.map (fun x => if x.group = c.group ∧ x.cseq = c.cseq then c else x) }

/-- A context released (R297). -/
def State.dropColl (s : State) (g q : Nat) : State :=
  { s with colls := s.colls.filter (fun c => !(decide (c.group = g) && decide (c.cseq = q))) }

/-- An instance that failed on this device ends without a result (R302). -/
def Coll.fail (c : Coll) : Coll := { c with failed := true, rounds := [], out := [], owed := [] }

/-- The result of an instance stands on this device, and every packet it sent is answered. -/
def Coll.complete (c : Coll) : Bool := c.begun && c.rounds.isEmpty && c.out.isEmpty && c.owed.isEmpty && !c.failed

/-- The slots an instance awaits: those forced, else all, less those its deadline excluded (R274, R314, R315). -/
def Coll.awaited (c : Coll) : List Nat :=
  (List.range c.slots).filter (fun sl => (decide (c.force = 0) || c.force.testBit sl) && !c.lost.testBit sl)

/-- M (R314 to R316). -/
def Coll.m (c : Coll) : Nat :=
  if c.nslot = 0 then 0 else c.mask.getD (if c.force = 0 then 2 ^ c.nslot - 1 else c.force % 2 ^ c.nslot)

/-- Whether M lacks a slot (R316). -/
def Coll.short (c : Coll) : Bool := decide (c.nslot ≠ 0) && decide (c.m ≠ 2 ^ c.nslot - 1)

/-- INCLUDED (R316). -/
def Coll.included (c : Coll) : Nat :=
  if c.nslot = 0 then c.n else ((List.range c.nslot).filter (fun sl => c.m.testBit sl)).length

/-- This member sends its contribution (R312, R315). -/
def Coll.contributes (c : Coll) : Bool :=
  decide (c.nslot = 0) || (decide (c.slot < c.nslot) && (decide (c.force = 0) || c.force.testBit c.slot))

/-- The reserved flags of an instance on its core: owners ready, contributions arrived, results arrived (the model's choice, log 25). -/
def Coll.resFlag (c : Coll) (i : Nat) : Flag := Fin.ofNat 256 (240 + 3 * (c.cseq % 5) + i)

/-- Value of a reserved flag. -/
def State.resCount (s : State) (c : Coll) (i : Nat) : Nat := ((s.core c.core).flag (c.resFlag i)).toNat

/-- A reserved flag lowered by what was counted on it. -/
def State.resTake (s : State) (c : Coll) (i n : Nat) : State :=
  s.modCore c.core (fun k => k.setFlag (c.resFlag i) (k.flag (c.resFlag i) - BitVec.ofNat 32 n))

/-! ### Sending -/

/-- A packet of an instance sent by a stream engine (R294, R305): it takes a TAG of the engine and awaits its answer. -/
def State.collSend (s : State) (c : Coll) (phase slot dev off role : Nat) (payload : Bytes) : State × Coll :=
  let g := c.geo phase
  let j := s.phaseEngine c.group c.cseq phase
  let tc := if phase = 0 ∨ 8 ≤ phase then 7 else c.tc
  let p := (s.request c.parcel (0xF00 + j) opColl tc (dev * 2 ^ 44) 0 payload).withExt
    (c.group * 2 ^ 240 + c.cseq * 2 ^ 208 + slot * 2 ^ 192 + role * 2 ^ 190 + phase * 2 ^ 186
      + (if g.fmt = .da128 then wrap 16 g.anchor else 0) * 2 ^ 160 + off * 2 ^ 112 + g.fmt.code * 2 ^ 108)
  let e := s.ste j
  let t := e.nextTag
  let p := { p with tag := BitVec.ofNat 16 t }
  let s := s.setSte j { e with nextTag := (t + 1) % 2 ^ 16 }
  (s.inject (steEnd j) p, { c with out := c.out ++ [⟨p, s.now, none, none⟩] })

/-- A packet of an instance sent by the TXE of its core (R307, R309). -/
def State.coreSend (s : State) (c : Coll) (p : Packet) : State × Coll :=
  let k := s.core c.core
  let p := { p with tag := BitVec.ofNat 16 k.nextTag }
  let s := s.setCore c.core { k with nextTag := (k.nextTag + 1) % 2 ^ 16 }
  (s.inject (corePort c.core) p, { c with out := c.out ++ [⟨p, s.now, none, none⟩] })

/-- A range of elements sent to a device (R193, R195). -/
def State.sendRange (s : State) (c : Coll) (phase slot dev role : Nat) (r : Nat × Nat) (codes scales : Nat → Nat → List Nat) :
    State × Coll :=
  let g := c.geo phase
  (g.cuts r.1 (r.2 - r.1)).foldl (fun (x : State × Coll) k =>
    x.1.collSend x.2 phase slot dev k.1 role (g.payload (codes k.1 k.2) (scales k.1 k.2))) (s, c)

/-- This member's part of a direct stage: in its contribution's format in the first, as DA128 afterwards (R305). -/
def Coll.stageCodes (c : Coll) (t : Nat) (lo n : Nat) : List Nat :=
  if t = 0 then window c.codes lo n else match c.cur with | some ws => (window ws (lo - c.curLo) n).map Da.pack | none => []

/-- Scale bytes of a range of the contribution. -/
def Coll.srcScales (c : Coll) (t : Nat) (lo n : Nat) : List Nat :=
  match t, (c.geo 1).blocks with
  | 0, some (e0, b) => if n = 0 then [] else window c.scales (scaleIdx e0 b lo) (scaleIdx e0 b (lo + n - 1) + 1 - scaleIdx e0 b lo)
  | _, _ => []

/-- Slot that this member's part carries in a stage. -/
def Coll.stageSlot (c : Coll) (t : Nat) (d : CDim) (q : Nat) : Nat := if t = 0 ∧ c.nslot ≠ 0 then c.slot else d.slot q

/-- The range of a stage for digit q: everything in replicate mode, the part of digit q in chunked mode (R305). -/
def Coll.stageRange (c : Coll) (d : CDim) (q : Nat) : Nat × Nat := if c.replicate then (0, c.e) else c.part d q

/-- Devices' digits other than this member's. -/
def CDim.others (d : CDim) : List Nat := (List.range d.n).filter (fun q => decide (q ≠ d.i))

/-- The chunk a ring member sends at a step, and its sums: its own elements at the first, else what it received with its own
added (R306). -/
def Coll.ringSend (c : Coll) (d : CDim) (step : Nat) : Nat × List Da × SumCount :=
  let k := (d.i + d.n * step - step) % d.n
  let r := c.part d k
  let rows := if step = 1 then [c.ownRow r] else [c.got 6 (d.slot k) r, c.ownRow r]
  let (ws, n) := sumRows c.anchor 0 (r.2 - r.1) false rows
  (k, ws, n)

/-- Values of a small reduction as element codes. -/
def miniCodes (phase : Nat) (v : List Int) : List Nat :=
  if phase = 0 ∨ phase = 9 then v.map (wrap 32) else (leBytes 8 (v.headD 0).toNat).map BitVec.toNat

/-- Codes of a small reduction as values. -/
def miniVals (phase : Nat) (codes : List Nat) : List Int :=
  if phase = 0 ∨ phase = 9 then codes.map (signed 32) else [(leNat (codes.map (BitVec.ofNat 8)) : Int)]

/-- Two values of a small reduction combined: the larger, or the common slots (R308, R314, R319). -/
def miniJoin (phase : Nat) (a b : List Int) : List Int :=
  if phase = 0 ∨ phase = 9 then List.zipWith max a b else List.zipWith (fun (x y : Int) => ((x.toNat &&& y.toNat : Nat) : Int)) a b

/-- Whether the digits of the dimensions above one are the root's (R305). -/
def Coll.aboveRoot (c : Coll) (d : CDim) : Bool := decide (c.rank / (d.n * d.stride) = c.root / (d.n * d.stride))

/-- The root's digit. -/
def Coll.rootDigit (c : Coll) (d : CDim) : Nat := c.root / d.stride % d.n

/-- The device's own elements landed where they are its own to sum (R305, R312). -/
def Coll.selfLand (c : Coll) (phase slot : Nat) (r : Nat × Nat) (codes scales : List Nat) : Coll :=
  if r.2 ≤ r.1 then c else { c with landed := c.landed ++ [⟨phase, slot, r.1, codes, scales, false⟩] }

/-- The flag packet to a core flag of a member (R307, R309). -/
def State.memberFlag (s : State) (c : Coll) (dev i : Nat) (region : Nat × Nat) : Packet :=
  s.flagPacket c.parcel c.core c.tc dev c.core (c.resFlag i).val region

/-- The acc packets of a chunk of the contribution to an owner's staging array (R193, R307). -/
def State.collAcc (s : State) (c : Coll) (j : Nat) : List Packet :=
  let lo := c.chunkLo j
  let g := c.geo 1
  let dev := c.members.getD j 0
  (g.cuts lo (c.chunkLo (j + 1) - lo)).map (fun k =>
    { (s.request c.parcel c.core opAcc c.tc (dev * 2 ^ 44 + (c.acc.base + 16 * (k.1 - lo)) % 2 ^ 44) k.2
        (g.payload (window c.codes k.1 k.2) (c.srcScales 0 k.1 k.2))).withExt
      (wrap 16 c.anchor * 2 ^ 240 + (if c.src.fmt = .da128 then wrap 16 c.src.anchor else 0) * 2 ^ 224 + c.src.format * 2 ^ 220
        + c.src.scaleMode * 2 ^ 218 + c.src.blockSize % 4 * 2 ^ 216) with route := 0 })

/-- Puts of byte runs to the same places of another device. -/
def State.collPuts (s : State) (c : Coll) (dev : Nat) (runs : List (Nat × Bytes)) : List Packet :=
  runs.flatMap (fun r => (cut r.2.length 4096).map (fun k =>
    s.request c.parcel c.core opPut c.tc (dev * 2 ^ 44 + (r.1 + k.1) % 2 ^ 44) 0 (slice r.2 k.1 k.2)))

/-- Packets sent by the core's TXE, and flag packets owed after their answers. -/
def State.coreSends (s : State) (c : Coll) (ps owed : List Packet) : State × Coll :=
  ps.foldl (fun (x : State × Coll) p => x.1.coreSend x.2 p) (s, { c with owed := c.owed ++ owed })

/-- The bytes of the source as the destination lays them out (R309). -/
def Coll.movedRuns (c : Coll) : List (Nat × Bytes) :=
  let d := c.dst
  (List.range d.rows).map (fun r => (d.rowAddr r, packCodes d.fmt.width d.rowBytes (window c.codes (r * d.e0) d.e0)))
    ++ (if d.blocked then [(d.scaleAddr 0, c.scales.map (BitVec.ofNat 8))] else [])

/-- The rank that a SHIFT or PERMUTE puts to, and the rank that puts to this member (R309). -/
def Coll.shiftTo (c : Coll) (n i stride : Nat) (delta : Int) : Option Nat :=
  let t := (i : Int) + delta
  if 0 ≤ t ∧ t < n then some (c.rank - i * stride + t.toNat * stride)
  else if c.opts.testBit 3 then some (c.rank - i * stride + (t % (n : Int)).toNat * stride)
  else none

/-- Target and source ranks of this member. -/
def Coll.moves (c : Coll) : Option Nat × Option Nat :=
  if c.kind = 5 then
    match c.dims.find? (fun d => decide (d.k = c.dim)) with
    | some d => (c.shiftTo d.n d.i d.stride c.delta, c.shiftTo d.n d.i d.stride (-c.delta))
    | none => (none, none)
  else (c.perm[c.rank]?, c.perm.findIdx? (fun t => decide (t = c.rank)))

/-! ### A round begins: what it sends -/

/-- What a round sends. -/
def State.roundSend (s : State) (c : Coll) (r : CRound) : State × Coll :=
  match r with
  | .mini phase d =>
    d.others.foldl (fun (x : State × Coll) q =>
      x.1.collSend x.2 phase (d.slot d.i) (c.peer d q) 0 0 ((c.geo phase).payload (miniCodes phase c.mini) [])) (s, c)
  | .reduce t d =>
    if t = 0 ∧ !c.contributes then (s, c)
    else
      let phase := 1 + t
      let slot := c.stageSlot t d d.i
      let role := if t = 0 then c.role else 0
      let qs := if c.replicate then List.range d.n else d.others
      let x := qs.foldl (fun (x : State × Coll) q =>
        x.1.sendRange x.2 phase slot (c.peer d q) role (c.stageRange d q) (c.stageCodes t) (c.srcScales t)) (s, c)
      if c.replicate then x
      else
        let o := c.stageRange d d.i
        (x.1, x.2.selfLand phase slot o (c.stageCodes t o.1 (o.2 - o.1)) (c.srcScales t o.1 (o.2 - o.1)))
  | .ring d step =>
    let (k, ws, n) := c.ringSend d step
    let s := s.countColl (s.phaseEngine c.group c.cseq 6) n
    let p := c.part d k
    s.sendRange c 6 (d.slot k) (c.peer d ((d.i + 1) % d.n)) (if step = 1 then 0 else 2) p
      (fun lo m => (window ws (lo - p.1) m).map Da.pack) (fun _ _ => [])
  | .gather d =>
    d.others.foldl (fun (x : State × Coll) q =>
      x.1.sendRange x.2 5 (d.slot d.i) (c.peer d q) 0 (c.part d d.i) c.resCodes c.resScales) (s, c)
  | .ringGather d step =>
    let k := (d.i + 1 + d.n * step - step) % d.n
    s.sendRange c 7 (d.slot k) (c.peer d ((d.i + 1) % d.n)) (if step = 1 then 0 else 2) (c.part d k) c.resCodes c.resScales
  | .spread d =>
    if c.aboveRoot d && decide (d.i = c.rootDigit d) then
      d.others.foldl (fun (x : State × Coll) q =>
        x.1.sendRange x.2 5 (d.slot d.i) (c.peer d q) 0 (0, c.e) c.resCodes c.resScales) (s, c)
    else (s, c)
  | .chain d =>
    if c.aboveRoot d && decide (d.i = c.rootDigit d) && decide (1 < d.n) then
      s.sendRange c 7 (d.slot d.i) (c.peer d ((d.i + 1) % d.n)) 0 (0, c.e) c.resCodes c.resScales
    else (s, c)
  | .accClear =>
    let s := s.writeBytes c.acc.base (List.replicate (16 * (c.e / max c.n 1)) 0)
    s.coreSends c (c.members.map (fun d => s.memberFlag c d 0 (0, 0))) []
  | .accAdd =>
    s.coreSends c ((List.range c.n).flatMap (s.collAcc c)) (c.members.map (fun d => s.memberFlag c d 1 (0, 0)))
  | .move =>
    match c.moves.1 with
    | some t =>
      let dev := c.members.getD t 0
      s.coreSends c (s.collPuts c dev c.movedRuns) [s.memberFlag c dev 0 (0, 0)]
    | none => (s, c)
  | _ => (s, c)

/-! ### A round ends: what it awaits and does -/

/-- Every slot a contribution stage awaits has landed its range (R274, R305). -/
def Coll.landedAll (c : Coll) (t : Nat) (d : CDim) : Bool :=
  let r := c.stageRange d d.i
  if t = 0 ∧ c.nslot ≠ 0 then c.awaited.all (fun sl => c.has 1 sl r)
  else (List.range d.n).all (fun q => c.has (1 + t) (d.slot q) r)

/-- Whether a round has all it awaits. -/
def State.roundReady (s : State) (c : Coll) (r : CRound) : Bool :=
  let quiet := c.out.isEmpty && c.owed.isEmpty
  match r with
  | .mini phase d => d.others.all (fun q => c.has phase (d.slot q) (0, (c.geo phase).total))
  | .reduce t d => c.landedAll t d
  | .ring d step =>
    let k := (d.i + d.n * (step + 1) - (step + 1)) % d.n
    c.has 6 (d.slot k) (c.part d k)
  | .gather d => d.others.all (fun q => c.has 5 (d.slot q) (c.part d q))
  | .ringGather d step =>
    let k := (d.i + d.n * step - step) % d.n
    c.has 7 (d.slot k) (c.part d k)
  | .spread d => !(c.aboveRoot d && decide (d.i ≠ c.rootDigit d)) || c.has 5 (d.slot (c.rootDigit d)) (0, c.e)
  | .chain d => !(c.aboveRoot d && decide (d.i ≠ c.rootDigit d)) || c.has 7 (d.slot ((d.i + d.n - 1) % d.n)) (0, c.e)
  | .accClear => quiet && decide (c.n ≤ s.resCount c 0)
  | .accAdd => quiet
  | .accOut => decide (c.n ≤ s.resCount c 1)
  | .accWait => quiet && decide (c.n ≤ s.resCount c 2)
  | .move => quiet && (c.moves.2.isNone || decide (1 ≤ s.resCount c 0))
  | _ => true

/-- PFLAG of the instance's core, for a piece of the result (R310). -/
def State.piece (s : State) (c : Coll) (lo n : Nat) : State :=
  if c.opts.testBit 2 ∧ c.by_ = .program then
    let rows := (s.elemRuns c.dst lo n).map (fun r => (r.1 % 2 ^ 44, r.2.length))
    s.addFlag c.core (Fin.ofNat 256 c.pflag) 1 rows
  else s

/-- Result elements taken: kept, and written to H_DST, in whose own elements `shift` less; each chunk is a piece (R305, R310). -/
def State.takeResult (s : State) (c : Coll) (r : Nat × Nat) (shift : Nat) (codes scales : List Nat) : State × Coll :=
  let c := c.keep r.1 codes scales
  if c.by_ = .commit ∨ c.by_ = .ready then (s, c)
  else
    let s := s.storeElems c.dst (r.1 - shift) codes scales
    let chunks := (List.range c.n).filter (fun k => decide (r.1 ≤ c.chunkLo k) && decide (c.chunkLo (k + 1) ≤ r.2) && decide (c.kind = 1 ∨ c.kind = 3))
    (chunks.foldl (fun s k => s.piece c (c.chunkLo k) (c.chunkLo (k + 1) - c.chunkLo k)) s, c)

/-- Landed result elements of a phase taken. -/
def State.takeLanded (s : State) (c : Coll) (phase slot : Nat) (r : Nat × Nat) : State × Coll :=
  let sc := (c.parts phase slot).foldl (fun (x : Coll) l => x.keep l.off l.codes l.scales) c
  s.takeResult sc r 0 (c.gotCodes phase slot r) (sc.resScales r.1 (r.2 - r.1))

/-- Own sums converted into the result's format (R68, R303, R305, R316). -/
def State.convertOwn (s : State) (c : Coll) (r : Nat × Nat) : State × Coll :=
  let ws := (c.own r.1 (r.2 - r.1)).map (fun e => match e with | .word w => w | .term _ => Da.zero)
  let shift := if c.kind = 2 then r.1 else 0
  let div := if c.opts.testBit 1 then c.included else c.dst.divisor
  let g := c.geo 5
  let (codes, scales, sats, nans) := { g with anchor := c.anchor }.write (r.1 - shift) div ws
  let j := s.phaseEngine c.group c.cseq 5
  let s := ((s.addObj (Obj.ste_CONV_SAT j) sats).addObj Obj.stetot_STE_CONV_SAT_TOTAL sats).addObj (Obj.ste_NAN_OUT j) nans
  let (st, ex) := wordsStatus ws
  s.takeResult { c with status := max c.status st, excess := max c.excess ex } r shift codes scales

/-- Status and excess of the elements that other members converted, which a format without flags does not carry: free values
(log 25). -/
def State.othersStatus (s : State) (c : Coll) : State × Coll :=
  if c.dst.fmt = .da128 ∨ c.n ≤ 1 then (s, c)
  else
    let (v, s) := s.fresh
    (s, { c with status := max c.status (v % 5), excess := max c.excess (v / 5 % 16) })

/-- The own exponent of a contribution: the largest ⌊log2 |t|⌋ of its finite nonzero terms (R56, R308). -/
def Coll.topExp (c : Coll) : Int :=
  let vs := (c.own 0 c.e).map (fun e => match e with | .term v => v | .word w => convertOut .da128 c.src.anchor Q.one 1 w)
  (vs.foldl maxExp none).getD (-(2 ^ 31 : Nat))

/-- The 32 halfwords of a digest and their negatives (R319). -/
def halfwords (d : Bytes) : List Int :=
  let h := (List.range 16).map (fun i => ((byteAt d (2 * i) * 256 + byteAt d (2 * i + 1) : Nat) : Int))
  h ++ h.map (fun x => -x)

/-- The bytes DIGEST is formed from (R319). -/
def State.digestOf (s : State) (c : Coll) : Bytes :=
  let d := c.dst
  let body :=
    if c.kind = 1 ∨ c.kind = 3 ∨ c.kind = 4 then
      if c.by_ = .commit ∨ c.by_ = .ready then packCodes d.fmt.width (ceilDiv (c.total * d.fmt.width) 8) (c.resCodes 0 c.total)
      else (List.range d.rows).flatMap (fun r => s.readBytes (d.rowAddr r) d.rowBytes)
        ++ (if d.blocked then s.readBytes (d.scaleAddr 0) (d.rows * d.nb) else [])
    else []
  sm3 (body ++ leBytes 8 c.m ++ leBytes 4 c.included ++ leBytes 1 c.status ++ leBytes 1 c.excess ++ leBytes 2 (wrap 16 c.anchor))

/-- The mask a small reduction of masks begins with: the slots landed (R314), or the first attempt's mask (R359). -/
def Coll.ownMask (c : Coll) : Nat :=
  match c.dims.head? with
  | some d => (c.awaited.filter (fun sl => c.has 1 sl (c.stageRange d d.i))).foldl (fun m sl => m ||| 2 ^ sl) 0
  | none => 0

/-- An error of collectives (R313, R319): step-fatal in a training parcel, advisory in a serving one. -/
def State.collError (s : State) (c : Coll) (code : Nat) : State :=
  s.raiseParcel c.parcel (0x0A00 + code) (s.phaseEngine c.group c.cseq 1) c.cseq 0

/-- An engine of an instance faults: the instance ends without a result (R287, R302). -/
def State.collFault (s : State) (c : Coll) (code : Nat) : State × Coll :=
  let j := s.phaseEngine c.group c.cseq 1
  ((s.bump Obj.stetot_STE_FAULTS_TOTAL).raiseParcel c.parcel (0x0200 + code) j 0 0, c.fail)

/-- A DA128 contribution whose anchor is not the instance's (R281): STE_ANCHOR. -/
def State.anchorCheck (s : State) (c : Coll) : State × Coll :=
  if c.kind ≤ 2 ∧ c.src.fmt = .da128 ∧ c.src.anchor ≠ c.anchor ∧ c.algo ≠ 3 then s.collFault c steAnchor else (s, c)

/-- Status and excess of a DA128 result, whose words carry their flags (R66). -/
def Coll.final (c : Coll) : Coll :=
  if c.kind ≤ 2 ∧ c.dst.fmt = .da128 then
    let (st, ex) := wordsStatus (c.result.map (fun e => Da.unpack (e.2.getD 0)))
    { c with status := max c.status st, excess := max c.excess ex }
  else c

/-- What a round does once it has all it awaits; the context goes on to the next round. `first` gives the first attempt's mask. -/
def State.roundTake (s : State) (first : Coll → Nat) (c : Coll) (r : CRound) : State × Coll :=
  let part := c.short
  match r with
  | .read => if c.dst.anchorSrc = 2 then (s, c) else s.anchorCheck c
  | .miniBegin phase =>
    if phase = 9 then
      let c := c.final
      let d := s.digestOf c
      (s, { c with digest := d, mini := halfwords d })
    else (s, { c with mini := if phase = 0 then [c.topExp] else if phase = 8 then [(c.ownMask : Int)] else [(first c : Int)] })
  | .mini phase d =>
    (s, { c with mini := d.others.foldl (fun m q => miniJoin phase m (miniVals phase (c.gotCodes phase (d.slot q) (0, (c.geo phase).total)))) c.mini })
  | .miniEnd phase =>
    let v := c.mini.headD 0
    if phase = 0 then
      let a0 : Int := if v = -(2 ^ 31 : Nat) then 0 else v
      s.anchorCheck { c with anchor := satI (a0 + headroom c.dst.terms (guardBits .da128)) (-32768) 32767 }
    else if phase = 8 then (s, { c with mask := some v.toNat })
    else if phase = 0xA then
      let c := if v.toNat = 2 ^ c.nslot - 1 then c else { c with force := v.toNat }
      (s, { c with rounds := c.plan false })
    else
      let ok := (List.range 16).all (fun i => decide (c.mini.getD i 0 = -(c.mini.getD (16 + i) 0)))
      if ok then (s, c) else ((s.bump Obj.coll_AGREE_FAIL_TOTAL).collError c 2, { c with status := 4 })
  | .reduce _ _ => (s, c)
  | .sum t d =>
    let r := c.stageRange d d.i
    let slots := if t = 0 ∧ c.nslot ≠ 0 then (List.range c.nslot).filter (fun sl => c.m.testBit sl) else (List.range d.n).map d.slot
    let rows := slots.map (fun sl => c.got (1 + t) sl r)
    let (ws, n) := if c.by_ = .ready then (maxRows (r.2 - r.1) rows, SumCount.zero) else sumRows c.anchor s.freshCtr (r.2 - r.1) part rows
    (s.countColl (s.phaseEngine c.group c.cseq (1 + t)) n, { c with cur := some ws, curLo := r.1 })
  | .ring d step =>
    if step + 1 < d.n then (s, c)
    else
      let (k, ws, n) := c.ringSend d d.n
      (s.countColl (s.phaseEngine c.group c.cseq 6) n, { c with cur := some ws, curLo := (c.part d k).1 })
  | .convert =>
    if c.kind = 3 then s.takeResult c (c.chunkLo c.rank, c.chunkLo (c.rank + 1)) 0 c.codes c.scales
    else if c.kind = 4 then (if c.rank = c.root then s.takeResult c (0, c.e) 0 c.codes c.scales else (s, c))
    else
      -- a group of one member under TRAVERSE has no ring: its own terms are its sum
      let c := if c.cur.isSome then c else { c with cur := some (sumRows c.anchor 0 c.e part [c.ownRow (0, c.e)]).1, curLo := 0 }
      if c.kind = 2 then s.convertOwn c (c.chunkLo c.rank, c.chunkLo (c.rank + 1))
      else if c.replicate then (List.range c.n).foldl (fun (x : State × Coll) k => x.1.convertOwn x.2 (c.chunkLo k, c.chunkLo (k + 1))) (s, c)
      else
        let x := s.convertOwn c (c.chunkLo c.rank, c.chunkLo (c.rank + 1))
        x.1.othersStatus x.2
  | .gather d => d.others.foldl (fun (x : State × Coll) q => x.1.takeLanded x.2 5 (d.slot q) (c.part d q)) (s, c)
  | .ringGather d step =>
    let k := (d.i + d.n * step - step) % d.n
    s.takeLanded c 7 (d.slot k) (c.part d k)
  | .spread d =>
    if c.aboveRoot d && decide (d.i ≠ c.rootDigit d) then s.takeLanded c 5 (d.slot (c.rootDigit d)) (0, c.e) else (s, c)
  | .chain d =>
    if c.aboveRoot d && decide (d.i ≠ c.rootDigit d) then
      let (s, c) := s.takeLanded c 7 (d.slot ((d.i + d.n - 1) % d.n)) (0, c.e)
      if (d.i + 1) % d.n = c.rootDigit d then (s, c)
      else s.sendRange c 7 (d.slot d.i) (c.peer d ((d.i + 1) % d.n)) 2 (0, c.e) c.resCodes c.resScales
    else (s, c)
  | .accClear => (s.resTake c 0 c.n, c)
  | .accAdd => (s, c)
  | .accOut =>
    let s := s.resTake c 1 c.n
    let r := (c.chunkLo c.rank, c.chunkLo (c.rank + 1))
    let raw := (List.range (r.2 - r.1)).map (fun i => (Da.unpack (s.readNat (c.acc.base + 16 * i) 16)).check)
    let s := s.countColl (s.phaseEngine c.group c.cseq 5) ⟨0, 0, 0, 0, (raw.filter Prod.snd).length, 0⟩
    let (s, c) := s.convertOwn { c with cur := some (raw.map Prod.fst), curLo := r.1 } r
    if c.kind = 2 then (s, c)
    else
      let (s, c) := s.othersStatus c
      let runs := s.elemRuns c.dst r.1 (r.2 - r.1)
      let range := spanOf (runs.map (fun x => (x.1, x.2.length)))
      let devs := c.members.filter (fun d => decide (d ≠ s.ownDev))
      let flags := devs.flatMap (fun d =>
        s.memberFlag c d 2 range :: (if c.opts.testBit 2 then [s.flagPacket c.parcel c.core c.tc d c.core c.pflag (d * 2 ^ 44 + range.1 % 2 ^ 44, range.2)] else []))
      let s := s.addFlag c.core (c.resFlag 2) 1 []
      s.coreSends c (devs.flatMap (fun d => s.collPuts c d runs)) flags
  | .accWait =>
    let s := s.resTake c 2 c.n
    (s, c)
  | .move => (if c.moves.2.isSome then s.resTake c 0 1 else s, c)

/-- Flag packets owed go out once every packet is answered. -/
def State.sendOwed (s : State) (c : Coll) : State × Coll :=
  if c.out.isEmpty ∧ !c.owed.isEmpty then c.owed.foldl (fun (x : State × Coll) p => x.1.coreSend x.2 p) (s, { c with owed := [] }) else (s, c)

/-- An instance goes on as far as what has landed allows; `fuel` bounds the rounds. -/
def State.collGo (first : Coll → Nat) : Nat → State → Coll → State
  | 0, s, c => s.setColl c
  | fuel + 1, s, c =>
    let (s, c) := s.sendOwed c
    match c.rounds with
    | [] => s.setColl c
    | r :: rs =>
      let (s, c) := if c.sent then (s, c) else
        let x := s.roundSend c r
        (x.1, { x.2 with sent := true })
      if !s.roundReady c r then s.setColl c
      else
        let (s, c) := s.roundTake first { c with rounds := rs, sent := false } r
        State.collGo first fuel s c

end Sys2Proof.Machine
end

