-- ==== Sys2Proof/Machine/Scalar.lean ====
section
/-! DEFINITION. The control operations of a core: scalar arithmetic, loads and stores, descriptors, flags and waits, control
flow, time and the end of a program (R87 to R93, R105). -/

namespace Sys2Proof.Machine

/-- A two-operand scalar operation (R105). -/
def State.scalar (s : State) (c : CoreId) (d : Reg) (a b : Src) (f : BitVec 64 → BitVec 64 → BitVec 64) : State :=
  s.control c false [] (fun s => s.setReg c d (f ((s.core c).val a) ((s.core c).val b)))

/-- `sc.li` (R105). -/
def execScLi (c : CoreId) (d : Reg) (v : BitVec 64) (s : State) : Out :=
  .next (s.control c false [] (fun s => s.setReg c d v))

/-- `sc.add` (R105). -/
def execScAdd (c : CoreId) (d : Reg) (a b : Src) (s : State) : Out := .next (s.scalar c d a b (· + ·))
/-- `sc.sub` (R105). -/
def execScSub (c : CoreId) (d : Reg) (a b : Src) (s : State) : Out := .next (s.scalar c d a b (· - ·))
/-- `sc.mul` (R105). -/
def execScMul (c : CoreId) (d : Reg) (a b : Src) (s : State) : Out := .next (s.scalar c d a b (· * ·))
/-- `sc.and` (R105). -/
def execScAnd (c : CoreId) (d : Reg) (a b : Src) (s : State) : Out := .next (s.scalar c d a b (· &&& ·))
/-- `sc.or` (R105). -/
def execScOr (c : CoreId) (d : Reg) (a b : Src) (s : State) : Out := .next (s.scalar c d a b (· ||| ·))
/-- `sc.xor` (R105). -/
def execScXor (c : CoreId) (d : Reg) (a b : Src) (s : State) : Out := .next (s.scalar c d a b (· ^^^ ·))
/-- `sc.shl`: the count is the low 6 bits (R105). -/
def execScShl (c : CoreId) (d : Reg) (a b : Src) (s : State) : Out :=
  .next (s.scalar c d a b (fun x y => x <<< (y.toNat % 64)))
/-- `sc.shr`: a logical shift by the low 6 bits of the count (R105). -/
def execScShr (c : CoreId) (d : Reg) (a b : Src) (s : State) : Out :=
  .next (s.scalar c d a b (fun x y => x >>> (y.toNat % 64)))

/-- −1, 0 or 1 as a is less than, equal to or greater than b, both read as i64 (R105). -/
def cmp64 (x y : BitVec 64) : BitVec 64 :=
  if x.toInt < y.toInt then BitVec.allOnes 64 else if x = y then 0 else 1

/-- `sc.cmp` (R105). -/
def execScCmp (c : CoreId) (d : Reg) (a b : Src) (s : State) : Out := .next (s.scalar c d a b cmp64)

/-- Fabric address of an SRAM offset of a core (R157). -/
def sramAddr (c off : Nat) : Nat := c * 2 ^ 21 + off

/-- The checks of `n` bytes at an SRAM offset, aligned to `al` (R105, R458, R82). -/
def sramCheck (a n al : Nat) : List Nat :=
  need (decide (a + n ≤ 2 ^ 21)) fAddrRange ++ need (decide (a % al = 0)) fAddrAlign

/-- `sc.ld`: eight bytes of own SRAM, aligned to 8 B (R105). -/
def execScLd (c : CoreId) (d : Reg) (a : Src) (s : State) : Out :=
  let o := ((s.core c).val a).toNat
  .next (s.control c false (sramCheck o 8 8) (fun s => s.setReg c d (BitVec.ofNat 64 (s.readNat (sramAddr c o) 8))))

/-- `sc.st`: eight bytes of own SRAM, aligned to 8 B (R105). -/
def execScSt (c : CoreId) (v : Src) (a : Src) (s : State) : Out :=
  let o := ((s.core c).val a).toNat
  .next (s.control c false (sramCheck o 8 8)
    (fun s => s.writeBytes (sramAddr c o) (leBytes 8 ((s.core c).val v).toNat)))

/-- `desc.set`: 128 B of own SRAM into a table entry, its generation incremented, the handle returned (R76, R77, R105). -/
def execDescSet (c : CoreId) (routine : Bool) (d : Reg) (i : Src) (a : Src) (s : State) : Out :=
  let n := ((s.core c).val i).toNat
  let o := ((s.core c).val a).toNat
  let faults := need (decide (n < (if routine then 4096 else 3840))) fHandleReserved ++ sramCheck o 128 1
  .next (s.control c routine faults (fun s =>
    let bytes := s.readNat (sramAddr c o) 128
    s.modCore c (fun k =>
      let g := Sparse.get 0 k.gens n + 1
      { k with desc := Sparse.set 0 k.desc n bytes, gens := Sparse.set 0 k.gens n g }.setReg d
        (BitVec.ofNat 64 (g.toNat * 4096 + n)))))

/-- `desc.get`: the entry named by a valid handle to own SRAM (R105). -/
def execDescGet (c : CoreId) (routine : Bool) (h : Src) (a : Src) (s : State) : Out :=
  let k := s.core c
  let n := (k.val h).toNat % 2 ^ 16
  let o := (k.val a).toNat
  .next (s.control c routine (k.handleCheck routine n ++ sramCheck o 128 1) (fun s =>
    s.writeBytes (sramAddr c o) (leBytes 128 (Sparse.get 0 (s.core c).desc (n % 4096)))))

/-- `flag.set` (R83, R88). -/
def execFlagSet (c : CoreId) (routine : Bool) (f : Flag) (v : Src) (s : State) : Out :=
  .next (s.control c routine (flagCheck routine f) (fun s => s.writeFlag c f (BitVec.ofNat 32 ((s.core c).val32 v))))

/-- `flag.add` (R83): its increment marks no piece of an `mxe.mmg` (R122). -/
def execFlagAdd (c : CoreId) (routine : Bool) (f : Flag) (v : Src) (s : State) : Out :=
  .next (s.control c routine (flagCheck routine f) (fun s => s.addFlag c f (BitVec.ofNat 32 ((s.core c).val32 v)) []))

/-- The WAIT_EXPIRED of a `flag.wait`: the control core, the flag, the awaited value and the value seen (R87, R110). -/
def State.waitFault (s : State) (c : Nat) (f : Flag) (v seq : Nat) : State :=
  s.coreFaultWith c 0 fWaitExpired seq (some (f.val, v, ((s.core c).flag f).toNat)) 0

/-- `flag.wait` (R87): it continues when its condition holds, expires at once with a timeout of 0, and otherwise holds the
core until a deadline. -/
def execFlagWait (c : CoreId) (routine : Bool) (f : Flag) (cond : WaitCond) (v : Src) (timeout : Src) (s : State) : Out :=
  .next (s.control c routine (flagCheck routine f) (fun s =>
    let k := s.core c
    let n := k.val32 v
    let t := k.val32 timeout
    let seq := s.opsIssued c - 1
    if waitHolds cond (k.flag f) (BitVec.ofNat 32 n) then s
    else if t = 0 then s.waitFault c f n seq
    else (s.setCore c { k with hold := .flagWait f cond n (s.now + t * 1024) seq }).settle c))

/-- The deadline of a `flag.wait`, or of a COLL_WAIT (R302), passes; of a `flag.wait` with its condition false (R87): a condition that held at any earlier test has
released the core already. -/
def execWaitExpired (c : CoreId) (s : State) : Out :=
  match (s.core c).hold with
  | .flagWait f _ v deadline seq =>
    let t := s.advanceTo deadline
    .next (if deadline ≤ t.now then t.waitFault c f v seq else s)
  | _ =>
    match (s.core c).lib with
    | some (.coll g q deadline) =>
      -- COLL_WAIT's own timeout (R302): the instance is abandoned, and the flag named is the routine's reserved flag f255 (log 25)
      let t := s.advanceTo deadline
      if deadline ≤ t.now then
        .next ({ t with colls := t.colls.filter (fun x => !(decide (x.group = g) && decide (x.cseq = q))) }.waitFault c 255 0 (t.opsIssued c))
      else .next s
    | _ => .next s

/-- `flag.status` (R88). -/
def execFlagStatus (c : CoreId) (routine : Bool) (d : Reg) (f : Flag) (s : State) : Out :=
  .next (s.control c routine (flagCheck routine f) (fun s => s.setReg c d ((s.core c).flagStatus f)))

/-- The condition of `skip.if` (R91). -/
def skipHolds (cond : SkipCond) (f v : BitVec 32) : Bool :=
  match cond with
  | .eq => f == v
  | .ne => f != v
  | .ge => flagGe f v
  | .lt => !flagGe f v

/-- `skip.if` (R91): `room` operations follow at the skip's nesting level up to the enclosing `loop.end` or the end of the
program, and the next n of them take `span` positions (log 10). -/
def execSkipIf (c : CoreId) (routine : Bool) (f : Flag) (cond : SkipCond) (v : Src) (n : Fin 256) (room : Nat) (span : Nat)
    (s : State) : Out :=
  .next (s.control c routine (flagCheck routine f ++ need (decide (n.val ≤ room)) fSkipRange) (fun s =>
    let k := s.core c
    if skipHolds cond (k.flag f) (BitVec.ofNat 32 (k.val32 v)) && !routine then
      s.setCore c { k with pos := k.pos + span }
    else s))

/-- The open loops of a program or of a routine, innermost first (R90, R94). -/
def Core.loopStack (k : Core) (routine : Bool) : List LoopFrame := if routine then k.libLoops else k.loops

/-- The open loops replaced. -/
def Core.setLoops (k : Core) (routine : Bool) (l : List LoopFrame) : Core :=
  if routine then { k with libLoops := l } else { k with loops := l }

/-- A program's position set; a routine's is not kept. -/
def Core.setPos (k : Core) (routine : Bool) (p : Nat) : Core := if routine then k else { k with pos := p }

/-- `loop.begin` (R90): the depth is checked before the count; a count of 0 passes the body, whose `body` positions end with
its `loop.end` (log 10). -/
def execLoopBegin (c : CoreId) (routine : Bool) (n : Src) (body : Nat) (s : State) : Out :=
  .next (s.control c routine (need (decide (((s.core c).loopStack routine).length < 4)) fLoopDepth) (fun s =>
    let k := s.core c
    let count := k.val32 n
    if count = 0 then s.setCore c (k.setPos routine (k.pos + body))
    else s.setCore c (k.setLoops routine (⟨k.pos, count, 0⟩ :: k.loopStack routine))))

/-- `loop.end` (R90): the next iteration, or the end of the loop. With no loop open there is nothing to end (log 5). -/
def execLoopEnd (c : CoreId) (routine : Bool) (s : State) : Out :=
  .next (match (s.core c).loopStack routine with
    | [] => s
    | _ => s.control c routine [] (fun s =>
      let k := s.core c
      match k.loopStack routine with
      | fr :: rest =>
        if fr.iter + 1 < fr.count then
          s.setCore c ((k.setLoops routine ({ fr with iter := fr.iter + 1 } :: rest)).setPos routine fr.body)
        else s.setCore c (k.setLoops routine rest)
      | [] => s))

/-- `loop.idx` (R90). With fewer loops open than the operation counts out, the manual states no value: a free value
(log 6). -/
def execLoopIdx (c : CoreId) (routine : Bool) (d : Reg) (k : Fin 4) (s : State) : Out :=
  .next (s.control c routine [] (fun s =>
    match ((s.core c).loopStack routine)[k.val]? with
    | some fr => s.setReg c d (BitVec.ofNat 64 fr.iter)
    | none =>
      let (v, s) := s.fresh
      s.setReg c d (BitVec.ofNat 64 v)))

/-- `time.wait T` (R92): a start already past continues at once and is counted in LATE_SLOT. -/
def execTimeWait (c : CoreId) (t : Src) (s : State) : Out :=
  .next (s.control c false [] (fun s =>
    let k := s.core c
    let slot := (k.val t).toNat
    if s.now < slot * 1024 then (s.setCore c { k with hold := .timeWait slot }).settle c
    else if slot * 1024 < s.now then s.countCore c 0x0F 1
    else s))

/-- Fabric Time reaches the start of the slot a `time.wait` awaits (R92). -/
def execTimeWaitRelease (c : CoreId) (s : State) : Out :=
  match (s.core c).hold with
  | .timeWait slot =>
    let t := s.advanceTo (slot * 1024)
    .next (if slot * 1024 ≤ t.now then (t.modCore c (fun k => { k with hold := .none })).settle c else s)
  | _ => .next s

/-- `core.id`: logical device id in [19:0], core index in [31:20] (R105). -/
def execCoreIdOp (c : CoreId) (d : Reg) (s : State) : Out :=
  .next (s.control c false [] (fun s => s.setReg c d (BitVec.ofNat 64 (c.val * 2 ^ 20 + s.logicalId % 2 ^ 20))))

/-- `core.time` (R105). -/
def execCoreTime (c : CoreId) (d : Reg) (s : State) : Out :=
  .next (s.control c false [] (fun s => s.setReg c d s.ft))

/-- `core.end` (R93): issue stops; ENDED shows once every operation already issued has completed. -/
def execCoreEnd (c : CoreId) (s : State) : Out :=
  .next (s.control c false [] (fun s => (s.modCore c (fun k => { k with stopped := true, ended := true })).settle c))

/-- An undefined instruction, or issue past the end of the code image (R93, R108). -/
def execIllegalOp (c : CoreId) (s : State) : Out := .next (s.control c false [fIllegalOp] (fun s => s))

/-- The routine ids of R94. -/
def libIds : List Nat := [0x01, 0x02, 0x03, 0x10, 0x20, 0x21, 0x22, 0x23, 0x30, 0x31]

/-- `lib.call` with an id outside the table of R94; an id in the table is the call of its routine, another command. -/
def execLibUnknown (c : CoreId) (id : BitVec 16) (s : State) : Out :=
  .next (if libIds.contains id.toNat then s else s.control c false [fLibUnknown] (fun s => s))

end Sys2Proof.Machine
end

