-- ==== Sys2Proof/Machine/CollCmd.lean ====
section
/-! DEFINITION. COLL_START, COLL_WAIT and ANCHOR_RETRY (R67, R301 to R304), the arrival of coll packets (R274, R298, R299, R313), the
deadline of an instance (R314) and its completion (R301, R302, R358). -/

namespace Sys2Proof.Machine

/-! ### The step log (R358, R359) -/

/-- K of an instance: its CSEQ less the base of its step and attempt (R356). -/
def stepK (cseq : Nat) : Nat := cseq % 65536

/-- The mask this member contributes to REPLAY_MASK: that of its attempt-0 entry, or every slot (R359). -/
def State.firstMask (s : State) (c : Coll) : Nat :=
  match (s.parcel c.parcel).log.find? (fun e => decide (e.attempt = 0) && decide (e.group = c.group) && decide (e.k = stepK c.cseq)) with
  | some e => e.mask
  | none => 2 ^ c.nslot - 1

/-- An instance goes on. -/
def State.collRun (s : State) (c : Coll) : State := s.collGo s.firstMask 4096 c

/-! ### Landing (R274, R298, R313) -/

/-- Fields of a coll packet's extension (R193). -/
structure CollHdr where
  group : Nat
  cseq : Nat
  slot : Nat
  phase : Nat
  anchor : Nat
  off : Nat
  fmt : Nat
  deriving DecidableEq, Repr

/-- The extension of a coll packet. -/
def collHdr (k : Packet) : CollHdr :=
  ⟨k.extField 255 240, k.extField 239 208, k.extField 207 192, k.extField 189 186, k.extField 175 160, k.extField 143 112, k.extField 111 108⟩

/-- The input of an engine that takes a packet, with the run it belongs to (R274). -/
def State.recvInput (s : State) (j : Nat) (h : CollHdr) : Option (Nat × Nat) :=
  if s.steState j = 1 ∨ s.steState j = 2 then
    let e := s.ste j
    firstSome ((List.range 8).map (fun q =>
      let b := e.inb q
      if b.kind = 2 ∧ b.group = h.group ∧ b.phase = h.phase then
        (if (b.cseq0 + e.run) % 2 ^ 32 = h.cseq then some (q, e.run)
         else if (b.cseq0 + e.run + 1) % 2 ^ 32 = h.cseq then some (q, e.run + 1) else none)
      else none))
  else none

/-- Whether a context takes packets of a phase: it has begun, and no older instance of its group that falls on the same engine is
still at work (R298, R311). -/
def State.collReady (s : State) (c : Coll) (phase : Nat) : Bool :=
  c.begun && !(s.colls.any (fun x => decide (x.group = c.group) && !x.rounds.isEmpty
    && decide ((c.cseq + 2 ^ 32 - x.cseq) % 2 ^ 32 < 2 ^ 31) && decide (x.cseq ≠ c.cseq)
    && decide (s.phaseEngine x.group x.cseq phase = s.phaseEngine c.group c.cseq phase)))

/-- How an arriving packet stands (R298). -/
inductive CollClass where
  | recv (j q run : Nat)
  | active (c : Coll)
  | early
  | stale
  deriving DecidableEq, Repr

/-- A packet classified (R274, R298). -/
def State.classify (s : State) (h : CollHdr) : CollClass :=
  let j := s.phaseEngine h.group h.cseq h.phase
  match s.recvInput j h with
  | some (q, run) => .recv j q run
  | none =>
    match s.collOf h.group h.cseq with
    | some c => if s.collReady c h.phase then .active c else .early
    | none => if (h.cseq + 2 ^ 32 - (s.groupSt h.group).next) % 2 ^ 32 < 2 ^ 31 then .early else .stale

/-- A packet refused by an engine's input (R274). -/
def State.recvRefuse (s : State) (j st : Nat) : State × Nat := (s.bump (Obj.ste_RX_REFUSED j), st)

/-- A copy that differs from the landed one (R313). -/
def State.mismatch (s : State) (n j cseq : Nat) : State := (s.bump Obj.coll_BACKUP_MISMATCH_TOTAL).raiseParcel n 0x0A01 j cseq 0

/-- One record landed at an input; a second copy is compared (R274, R313). -/
def State.landRecord (s : State) (j q par slot i : Nat) (bs : Bytes) (cseq : Nat) : State :=
  let e := s.ste j
  let b := e.inb q
  let a := steAddr j (b.landOff par slot i)
  let k := landKey q par slot i
  if Sparse.get false e.landed k then
    if s.readBytes a b.lay.rs = bs then s.bump Obj.coll_BACKUP_MATCH_TOTAL
    else (s.setSte j { e with differ := Sparse.set false e.differ k true }).mismatch ((s.steParcel j).getD 0) j cseq
  else (s.setSte j { e with landed := Sparse.set false e.landed k true }).writeBytes a bs

/-- A packet landed at a RECV input: the STATUS of its answer (R274). -/
def State.landRecv (s : State) (j q run : Nat) (h : CollHdr) (bs : Bytes) : State × Nat :=
  let e := s.ste j
  let b := e.inb q
  let n := bs.length / b.lay.rs
  let par := run % 2
  if h.fmt ≠ (if b.lay.kf = 0 then b.lay.fmt.code else Fmt.raw8.code) ∨ n = 0 ∨ n * b.lay.rs ≠ bs.length then s.recvRefuse j stFormat
  else if b.lay.fmt = .da128 ∧ b.lay.kf = 0 ∧ h.anchor ≠ wrap 16 b.anchor then s.recvRefuse j stAnchor
  else if b.nslot ≤ h.slot ∨ b.nrec < h.off + n ∨ !b.slots.testBit h.slot then s.recvRefuse j stAddrRange
  else if (e.lost q par).testBit h.slot then (s.bump Obj.coll_LATE_RX_TOTAL, stOk)
  else ((List.range n).foldl (fun (s : State) i => s.landRecord j q par h.slot (h.off + i) (slice bs (i * b.lay.rs) b.lay.rs) h.cseq) s, stOk)

/-- Whether a slot is one that a phase of an instance has. -/
def Coll.slotOk (c : Coll) (phase slot : Nat) : Bool :=
  if phase = 1 ∧ c.nslot ≠ 0 then decide (slot < c.nslot) && (decide (c.force = 0) || c.force.testBit slot)
  else c.dims.any (fun d => decide (32 * d.k ≤ slot) && decide (slot < 32 * d.k + d.n))

/-- The anchor of an instance is settled: no pre-pass is under way (R308). -/
def Coll.anchored (c : Coll) : Bool := !c.rounds.contains (.miniEnd 0)

/-- A packet landed for an instance: the STATUS of its answer (R274, R298, R313, R314). -/
def State.landColl (s : State) (c : Coll) (h : CollHdr) (bs : Bytes) : State × Nat :=
  let j := s.phaseEngine h.group h.cseq h.phase
  let g := c.geo h.phase
  if 0xA < h.phase ∨ h.fmt ≠ g.fmt.code then s.recvRefuse j stFormat
  else if g.fmt = .da128 ∧ h.anchor ≠ wrap 16 g.anchor ∧ (h.phase = 1 ∨ c.anchored) then s.recvRefuse j stAnchor
  else if !c.slotOk h.phase h.slot then s.recvRefuse j stAddrRange
  else
    match g.read h.off bs with
    | none => s.recvRefuse j stFormat
    | some (codes, scales) =>
      if g.total < h.off + codes.length then s.recvRefuse j stAddrRange
      else if h.phase = 1 ∧ c.nslot ≠ 0 ∧ (c.lost.testBit h.slot ∨ (c.mask.isSome ∧ !c.m.testBit h.slot)) then
        (s.bump Obj.coll_LATE_RX_TOTAL, stOk)
      else
        match c.landed.find? (fun l => decide (l.phase = h.phase) && decide (l.slot = h.slot) && decide (l.off = h.off)) with
        | some l =>
          if l.codes = codes ∧ l.scales = scales then (s.bump Obj.coll_BACKUP_MATCH_TOTAL, stOk)
          else
            let c := { c with landed := c.landed.map (fun x => if x = l then { x with bad := true } else x) }
            ((s.setColl c).mismatch c.parcel j h.cseq, stOk)
        | none => (s.collRun { c with landed := c.landed ++ [⟨h.phase, h.slot, h.off, codes, scales, false⟩] }, stOk)

/-- Cells held for a group (R299). -/
def State.heldCells (s : State) (g : Nat) : Nat := sumN ((s.early.filter (fun x => decide ((collHdr x.2).group = g))).map (fun x => x.2.cells))

/-- A stale packet (R298, R321). -/
def State.staleRx (s : State) (g : Nat) : State :=
  (s.bump Obj.coll_STALE_RX_TOTAL).modGroup g (fun t => { t with stale := satN 32 (t.stale + 1) })

/-- A coll packet of a valid group taken: landed, held, refused or discarded, never kept waiting in a queue (R298 to R300). -/
def State.takeColl (s : State) (at_ : RxAt) (k : Packet) : State :=
  let h := collHdr k
  match s.classify h with
  | .recv j q run =>
    let (s, st) := s.landRecv j q run h k.payload
    s.respond at_ k st []
  | .active c =>
    let (s, st) := s.landColl c h k.payload
    s.respond at_ k st []
  | .early =>
    if s.heldCells h.group + k.cells ≤ (s.groupOf h.group).early then
      { s with early := s.early ++ [(at_, k)] }.bump Obj.coll_EARLY_HOLDS_TOTAL
    else
      ((s.bump Obj.coll_EARLY_REFUSED_TOTAL).modGroup h.group (fun t => { t with refused := satN 32 (t.refused + 1) })).respond at_ k stRingFull []
  | .stale => (s.staleRx h.group).respond at_ k stOk []

/-- Held packets that their engine or a later sequence number lets go: landed, or answered as stale, in the order held (R299). -/
def State.landHeld (s : State) : State :=
  s.early.foldl (fun (s : State) x =>
    match s.classify (collHdr x.2) with
    | .early => s
    | _ => { s with early := s.early.erase x }.takeColl x.1 x.2) s

/-- A coll packet received (R196, R291, R294). -/
def execRxColl (at_ : RxAt) (k : Packet) (s : State) : Out :=
  if decide (k.op = opColl) && !k.resp && s.received at_ k then
    let r := (s.taken at_ k).checkRequest at_ k
    match r.peer with
    | none => .next r.s
    | some peer =>
      let s := r.s
      let h := collHdr k
      if 4096 ≤ h.group then .next (s.discardRx at_)
      else
        let e := s.groupOf h.group
        let n := e.parcel
        if e.valid = 0 then .next (s.refuseRx at_)
        else if peer.isSome then .next (s.countRefused (some n))
        else
          let may := if at_.port.isNone then decide (s.sourceParcel k = some n)
            else s.parActive n && decide ((s.parcel n).reclaim < 2) && decide (k.job.toNat ≠ 0) && decide (s.jobId n = k.job.toNat)
          .next (if may then (s.takeColl at_ k).landHeld else s.countRefused (some n))
  else .next s

/-! ### Starting (R301, R303, R304, R308) -/

/-- A collective record's bytes as their little-endian number (R301). -/
def State.collRecord (s : State) (c off : Nat) : Nat := s.readNat (c * 2 ^ 21 + off) 128

/-- The descriptor a handle of a record names, and whether it is stale or reserved. -/
def Core.recDesc (k : Core) (h : Nat) : Desc × Bool :=
  (Desc.parse (Sparse.get 0 k.desc (h % 4096)), !(k.handleCheck false h).isEmpty)

/-- An instance as a record describes it (R301), its START_SLOT 0 taken as the present slot. -/
def State.collBuild (s : State) (n core off v : Nat) : Coll :=
  let k := s.core core
  let f (o w : Nat) : Nat := bytesField v o w
  let g := f 4 2
  let e := s.groupOf g
  let ms := s.groupMembers e
  let rank := (ms.findIdx? (fun d => decide (d = s.ownDev))).getD 0
  let src := (k.recDesc (f 12 2)).1
  let dst := (k.recDesc (f 14 2)).1
  let acc := (k.recDesc (f 16 2)).1
  let b := ceilDiv (src.count * src.fmt.width) 8
  let algo := chooseAlgo (f 0 1) (f 1 1) e.box e.single ms.length b (decide (f 9 1 ≠ 0)) (decide (f 28 4 ≠ 0))
    (decide (src.count % (64 * max ms.length 1) = 0)) (s.obj Obj.coll_DIRECT_MAX) (s.obj Obj.coll_ACC_MIN)
  { parcel := n, group := g, cseq := (s.groupSt g).next, core := core, by_ := .program, record := off,
    kind := f 0 1, algo := algo, tc := f 2 1, opts := f 3 1, slot := f 6 2, role := if f 9 1 = 0 then 0 else f 8 1, nslot := f 9 1,
    flag := f 10 1, pflag := f 11 1, dim := f 18 1, delta := signed 16 (f 20 2), root := f 24 4, deadline := f 28 4,
    force := f 40 8, perm := (List.range ms.length).map (fun i => s.readNat (core * 2 ^ 21 + f 48 4 + 4 * i) 4),
    src := src, dst := dst, acc := acc, members := ms, rank := rank, dims := e.cdims rank,
    replicate := decide (b ≤ s.obj Obj.coll_REPL_MAX), startSlot := if f 32 8 = 0 then s.slot else f 32 8, begun := false,
    startAt := s.now, rounds := [], sent := false, codes := [], scales := [], cur := none, curLo := 0, result := [], resScale := [],
    anchor := dst.anchor, mini := [], lost := 0, mask := none, landed := [], out := [], owed := [], status := 0, excess := 0,
    digest := List.replicate 32 0, failed := false, written := false }

/-- The operand rules of R303, R309 and R310. -/
def State.collShape (s : State) (c : Coll) : Bool :=
  let e := c.e
  let n := c.n
  let sram (d : Desc) : Bool := d.allRegions.all (fun r => inOwnSram c.core r.1 r.2) && d.alignOk && decide (d.sparseForm = 0)
  let same := decide (c.dst.format = c.src.format) && decide (c.dst.scaleMode = c.src.scaleMode)
    && (decide (c.src.scaleMode = 0) || decide (c.dst.blockSize = c.src.blockSize)) && decide (c.src.fmt ≠ .da64)
  let out := decide (c.dst.fmt ≠ .raw8) && decide (c.dst.fmt ≠ .da64)
  let dstAt := if c.kind = 2 ∧ c.algo = 3 then (s.localFaults c.parcel true c.dst.allRegions).isEmpty else sram c.dst
  let accAt := decide (c.algo ≠ 3) || (decide (c.acc.fmt = .da128) && decide (c.acc.count = e / max n 1)
    && (decide (addrSpace c.acc.base = 2) || decide (addrSpace c.acc.base = 3) || (decide (addrSpace c.acc.base = 1) && !isWindow c.acc.base))
    && decide (c.acc.base % 16 = 0) && (s.localFaults c.parcel true c.acc.allRegions).isEmpty)
  decide (0 < e) && sram c.src && dstAt && accAt
  && (match c.kind with
    | 1 => c.src.fmt.accSource && out && decide (c.dst.count = e) && (!c.opts.testBit 2 || decide (e % (c.unit * n) = 0))
    | 2 => c.src.fmt.accSource && out && decide (e % (64 * n) = 0) && decide (c.dst.count = e / n)
    | 3 => same && decide (c.dst.count = n * e)
    | 4 => same && decide (c.dst.count = e) && decide (c.root < n)
    | 5 => same && decide (c.dst.count = e) && c.dims.any (fun d => decide (d.k = c.dim) && decide (1 < d.n) && decide (c.delta.natAbs < d.n))
    | _ => same && decide (c.dst.count = e) && (List.range n).all (fun r => c.perm.contains r))

/-- Reserved fields and values of a record, and the settings that COLL_RECORD refuses (R301, R303, R308). -/
def State.recordBad (s : State) (c : Coll) (v : Nat) : Bool :=
  let f (o w : Nat) : Nat := bytesField v o w
  let k := s.core c.core
  let reduce := decide (c.kind = 1 ∨ c.kind = 2)
  decide (c.kind = 0 ∨ 6 < c.kind) || decide (3 < f 1 1) || decide (7 < f 2 1) || decide (15 < f 3 1) || decide (1 < f 8 1) || decide (64 < f 9 1)
    || decide (239 < f 10 1) || decide (239 < f 11 1) || decide (f 19 1 ≠ 0) || decide (f 22 2 ≠ 0) || decide (f 52 12 ≠ 0)
    || decide (c.algo ≠ 3 ∧ f 16 2 ≠ 0)
    || (k.recDesc (f 12 2)).2 || (k.recDesc (f 14 2)).2 || (decide (c.algo = 3) && (k.recDesc (f 16 2)).2)
    || c.src.rsv || c.dst.rsv || decide (c.src.scaleMode = 2) || decide (c.dst.scaleMode = 2)
    || (reduce && (decide (c.dst.anchorSrc = 1) || decide (3 ≤ c.dst.anchorSrc) || (decide (c.deadline ≠ 0) && decide (c.dst.anchorSrc ≠ 0))
        || srActive c.dst.srTerms c.dst.terms
        || (decide (c.algo = 3) && decide (c.dst.anchorSrc = 0) && decide (c.acc.anchor ≠ c.dst.anchor))))

/-- The refusal code of a start, 0 for none; of several the lowest (R301, log 25). -/
def State.collRefusal (s : State) (n core off : Nat) (c : Coll) (v : Nat) : Nat :=
  let e := s.groupOf c.group
  if 4096 ≤ c.group ∨ e.valid = 0 ∨ e.parcel ≠ n ∨ !c.members.contains s.ownDev then 1
  else if off % 8 ≠ 0 ∨ 2 ^ 21 < off + 128 ∨ core ≠ c.core ∨ s.recordBad c v then 2
  else if !s.collShape c then 3
  else if c.algo = 0 then 4
  else if 1024 ≤ s.colls.length ∨ 16 ≤ (s.colls.filter (fun x => decide (x.group = c.group))).length then 5
  else if (c.nslot ≠ 0 ∧ c.slot ≠ 0xFFFF ∧ c.nslot ≤ c.slot) ∨ (c.nslot = 0 ∧ (c.force ≠ 0 ∨ c.deadline ≠ 0)) then 6
  else 0

/-- A context begins in its slot: its contribution is read and its rounds start (R301, R305). -/
def State.collBegin (s : State) (c : Coll) : State :=
  let replay := c.masked && decide (s.parMode c.parcel = 2) && decide (c.cseq / 65536 % 2 = 1) && decide (s.jobState c.parcel = 5)
  let c := { c with begun := true }
  let c := if c.by_ = .commit ∨ c.by_ = .ready then c else
    { c with codes := (s.codes c.src).flatten, scales := ((List.range c.src.rows).map (s.rowScales c.src)).flatten }
  (s.collRun { c with rounds := c.plan replay }).landHeld

/-- A context taken for an instance (R296, R297): NEXT_CSEQ moves, and the instance begins when its slot is here. -/
def State.collOpen (s : State) (c : Coll) : State :=
  let s := s.modGroup c.group (fun t => { t with next := (t.next + 1) % 2 ^ 32 })
  let s := { s with colls := s.colls ++ [c] }.bump Obj.coll_INSTANCES_TOTAL
  if c.startSlot ≤ s.slot then s.collBegin c else s.landHeld

/-- COLL_START of a core of parcel n: the code of R301 and the CSEQ. `anchor` is that of an attempt of R67. -/
def State.collStart (s : State) (n core off : Nat) (anchor : Option Int) : State × Nat × Nat :=
  let v := s.collRecord core off
  let c := s.collBuild n core off v
  let c := match anchor with
    | some a => { c with by_ := .retry, anchor := a, dst := { c.dst with anchor := a, anchorSrc := 0 } }
    | none => c
  let code := s.collRefusal n core off c v
  if code ≠ 0 then (s, code, 0)
  else ((s.writeBytes (core * 2 ^ 21 + off + 72) (leBytes 4 c.cseq)).collOpen c, 0, c.cseq)

/-! ### Routines (R94) -/

/-- A routine's results in registers from s1. -/
def State.setResults (s : State) (c : Nat) (l : List Nat) : State :=
  s.modCore c (fun k => (l.zipIdx).foldl (fun k e => k.setReg (Fin.ofNat 32 (e.2 + 1)) (BitVec.ofNat 64 e.1)) k)

/-- An argument register. -/
def State.argReg (s : State) (c i : Nat) : Nat := ((s.core c).reg (Fin.ofNat 32 i)).toNat

/-- A waiting routine returns. -/
def State.libReturn (s : State) (c : Nat) (l : List Nat) : State :=
  ((s.modCore c (fun k => { k with lib := none, libLoops := [] })).setResults c l).settle c

/-- The core waits inside a routine. -/
def State.libWait (s : State) (c : Nat) (w : LibWait) : State := (s.modCore c (fun k => { k with lib := some w })).settle c

/-- `lib.call` COLL_START (R301). -/
def execCollStart (c : CoreId) (s : State) : Out :=
  .next (s.control c false [] (fun s =>
    match s.coreParcel c with
    | some n =>
      let (s, code, q) := s.collStart n c (s.argReg c 1) none
      if code = 0 then s.setResults c [0, q] else s.setResults c [code]
    | none => s))

/-- What COLL_WAIT returns of an instance: excess and status, then 0, or 1 where the instance failed here (R302). -/
def Coll.waitResult (c : Coll) : Option (List Nat) :=
  if c.failed then some [0, 1] else if c.written then some [c.excess % 16 * 256 + c.status, 0] else none

/-- Cores that wait in COLL_WAIT for instances that have ended return (R302). -/
def State.wakeWaits (s : State) : State :=
  (s.coresWhere (fun c => match (s.core c).lib with | some (.coll ..) => true | _ => false)).foldl (fun s c =>
    match (s.core c).lib with
    | some (.coll g q _) =>
      match s.collOf g q with
      | some x => match x.waitResult with | some l => (s.dropColl g q).libReturn c l | none => s
      | none => s.libReturn c [0, 2]
    | _ => s) s

/-- `lib.call` COLL_WAIT (R302). -/
def execCollWait (c : CoreId) (s : State) : Out :=
  .next (s.control c false [] (fun s =>
    let g := s.argReg c 1
    let q := s.argReg c 2 % 2 ^ 32
    match s.collOf g q with
    | none => s.setResults c [0, 2]
    | some x =>
      if s.coreParcel c ≠ some x.parcel then s.setResults c [0, 2]
      else match x.waitResult with
        | some l => ((s.dropColl g q).setResults c l).landHeld
        | none => s.libWait c (.coll g q (s.now + s.argReg c 3 * 1024))))

/-- One attempt of ANCHOR_RETRY (R67): the result's array cleared, its descriptor's ANCHOR set, the instance started. A refusal
returns its code above bit 16 (log 25). -/
def State.retryStart (s : State) (n c ro : Nat) (a : Int) (k : Nat) : State :=
  let i := bytesField (s.collRecord c ro) 14 2 % 4096
  let s := s.modCore c (fun q =>
    let w := Sparse.get 0 q.desc i
    { q with desc := Sparse.set 0 q.desc i (w - field w 207 192 * 2 ^ 192 + wrap 16 a * 2 ^ 192) })
  let (t, code, q) := s.collStart n c ro (some a)
  if code ≠ 0 then s.libReturn c [2 ^ 16 + code]
  else t.libWait c (.retry ro (wrap 16 a) k (bytesField (s.collRecord c ro) 4 2) q)

/-- `lib.call` ANCHOR_RETRY (R67): s1 the record, s2 the first anchor (log 25). -/
def execAnchorRetry (c : CoreId) (s : State) : Out :=
  .next (s.control c false [] (fun s =>
    match s.coreParcel c with
    | some n =>
      let ro := s.argReg c 1
      let s := if ro % 8 = 0 ∧ ro + 128 ≤ 2 ^ 21 then
          let d := ((s.core c).recDesc (bytesField (s.collRecord c ro) 14 2)).1
          d.allRegions.foldl (fun (s : State) r => if inOwnSram c r.1 r.2 then s.writeBytes r.1 (List.replicate r.2 0) else s) s
        else s
      s.retryStart n c ro (signed 16 (s.argReg c 2)) 1
    | none => s))

/-- ANCHOR_RETRY goes on when its attempt has ended (R67). -/
def State.retryNext (s : State) (c : Nat) : State :=
  match (s.core c).lib with
  | some (.retry ro anchor k g q) =>
    match s.collOf g q with
    | none => s
    | some x =>
      let a := signed 16 anchor
      if x.failed then (s.dropColl g q).libReturn c [2 ^ 17]
      else if !x.written then s
      else if x.status = 2 ∧ k < 8 ∧ a < 32767 then
        let s := x.dst.allRegions.foldl (fun (s : State) r => s.writeBytes r.1 (List.replicate r.2 0)) (s.dropColl g q)
        s.retryStart x.parcel c ro (satI (a + x.excess) (-32768) 32767) (k + 1)
      else (s.dropColl g q).libReturn c [x.status * 256 + x.excess]
  | _ => s

/-! ### Completion (R301, R358) -/

/-- The entry of the step log of a completed instance of a training parcel, off the job group (R358, R359). -/
def State.logColl (s : State) (c : Coll) : State :=
  let n := c.parcel
  if s.parMode n = 2 ∧ c.group ≠ s.obj (Obj.res_JOB_GROUP n) ∧ (s.jobState n = 1 ∨ s.jobState n = 2 ∨ s.jobState n = 5) then
    s.modParcel n (fun p =>
      if 65536 ≤ (p.log.filter (fun e => decide (e.attempt = p.attempt))).length then { p with logFull := true }
      else { p with log := p.log ++ [⟨p.attempt, c.group, stepK c.cseq, c.m, c.included, c.status, c.excess, wrap 16 c.anchor, c.digest⟩] })
  else s

/-- Bytes 64 to 127 of a record (R301). -/
def Coll.written64 (c : Coll) : Bytes :=
  leBytes 8 c.m ++ leBytes 4 c.cseq ++ leBytes 1 c.status ++ leBytes 1 (c.excess % 16) ++ leBytes 1 c.algo ++ leBytes 1 0
    ++ leBytes 4 c.included ++ leBytes 2 (wrap 16 c.anchor) ++ List.replicate 10 0 ++ padTo 32 c.digest

/-- The ready agreement is reached, or fails (R363): element 34 and the next step, or RESTART_NEEDED on every core that waits. -/
def State.readyEnd (s : State) (n : Nat) (ok : Bool) (slot : Nat) : State :=
  let cs := (s.parCores n).filter (fun c => decide ((s.core c).lib = some .ready))
  let s := s.modParcel n (fun p => { p with ready := none, calls := [] })
  if ok then cs.foldl (fun s c => s.libReturn c [slot, (s.obj (Obj.pardig_RESULT_STEP n) + 1) % 2 ^ 32]) s
  else cs.foldl (fun s c => s.libReturn c [1]) ((s.restartNeeded n).advise (8 + n) (some n) 0x0905 0xFFFF (s.obj (Obj.pardig_RESULT_STEP n)))

/-- Integer value of an exact word at the anchor of the ready agreement and of the vote's result. -/
def wordInt (anchor : Int) (w : Da) : Int :=
  match (convertOut .da128 anchor Q.one 1 w).toQ? with
  | some q => q.floor
  | none => 0

/-- Whether every pair of a ready agreement agrees: max(v) = −max(−v) (R363). -/
def readyAgrees (v : List Int) : Bool :=
  (List.range 16).all (fun i => decide (v.getD i 0 = -(v.getD (16 + i) 0))) && decide (v.getD 32 0 = -(v.getD 33 0))

/-- An instance whose result stands completes: its record, its log entry, then FLAG (R301, R316, R358). -/
def State.finishColl (s : State) (c : Coll) : State :=
  let c := { c.final with written := true }
  let s := s.setColl c
  let s := if c.short then s.bump Obj.coll_PARTIAL_TOTAL else s
  let s := if c.status = 2 then s.bump Obj.coll_ANCHOR_MISS_TOTAL else s
  let s := s.logColl c
  if c.by_ = .commit then s
  else if c.by_ = .ready then
    let v := ((c.cur.getD []).map (wordInt 60))
    (s.dropColl c.group c.cseq).readyEnd c.parcel (readyAgrees v) (v.getD 34 0).toNat
  else
    let s := s.writeBytes (c.core * 2 ^ 21 + c.record + 64) c.written64
    let s := s.addFlag c.core (Fin.ofNat 256 c.flag) 1 []
    ((s.coresWhere (fun k => match (s.core k).lib with | some (.retry ..) => true | _ => false)).foldl State.retryNext s).wakeWaits.landHeld

/-- Fabric Time at which RESUME_TIMEOUT slots have passed since a ready agreement started (R363). -/
def State.resumeDue (s : State) (c : Coll) : Nat := c.startAt + s.obj (Obj.res_RESUME_TIMEOUT c.parcel) * 1024

/-- Whether an instance is a ready agreement whose time has passed: RESUME_TIMEOUT ends it (R363). -/
def State.readyLate (s : State) (c : Coll) : Bool := decide (c.by_ = .ready) && decide (s.resumeDue c < s.now)

/-- An instance's result is complete on this device. -/
def execCollComplete (group : BitVec 16) (cseq : BitVec 32) (s : State) : Out :=
  match s.collOf group.toNat cseq.toNat with
  | some c => .next (if c.complete && !c.written && !s.readyLate c then s.finishColl c else s)
  | none => .next s

/-- An instance that failed here: its waiting cores return (R302). -/
def State.collFailed (s : State) (c : Coll) : State :=
  let s := s.setColl c.fail
  ((s.coresWhere (fun k => match (s.core k).lib with | some (.retry ..) => true | _ => false)).foldl State.retryNext s).wakeWaits

/-! ### The deadline (R314) -/

/-- Fabric Time of an instance's deadline, while it awaits contributions under one. -/
def Coll.dueAt (c : Coll) : Option Nat :=
  match c.rounds.head? with
  | some (.reduce 0 _) => if c.masked && c.sent then some ((c.startSlot + c.deadline) * 1024) else none
  | _ => none

/-- The deadline of an instance passes: slots that have not landed are excluded and what landed of them is discarded. -/
def State.collDeadline (s : State) (c : Coll) (d : CDim) : State :=
  let miss := c.awaited.filter (fun sl => !c.has 1 sl (c.stageRange d d.i))
  s.collRun { c with
    lost := miss.foldl (fun m sl => m ||| 2 ^ sl) c.lost
    landed := c.landed.filter (fun l => !(decide (l.phase = 1) && miss.contains l.slot)) }

end Sys2Proof.Machine
end

