-- ==== Sys2Proof/Machine/Sm2.lean ====
section
/-! DEFINITION. SM2 (GB/T 32918, named by R403 and R424): signatures and the key exchange with confirmation, over the
standard's recommended 256-bit curve. PRESUMED (log 8): the manual names the standard and does not restate it. -/

namespace Sys2Proof.Machine

/-- The field prime. -/
def sm2P : Nat := 0xFFFFFFFEFFFFFFFFFFFFFFFFFFFFFFFFFFFFFFFF00000000FFFFFFFFFFFFFFFF
/-- Curve coefficient a. -/
def sm2A : Nat := 0xFFFFFFFEFFFFFFFFFFFFFFFFFFFFFFFFFFFFFFFF00000000FFFFFFFFFFFFFFFC
/-- Curve coefficient b. -/
def sm2B : Nat := 0x28E9FA9E9D9F5E344D5A9E4BCF6509A7F39789F515AB8F92DDBCBD414D940E93
/-- The order of the base point. -/
def sm2N : Nat := 0xFFFFFFFEFFFFFFFFFFFFFFFFFFFFFFFF7203DF6B21C6052B53BBF40939D54123
/-- The base point. -/
def sm2Gx : Nat := 0x32C4AE2C1F1981195F9904466A39C9948FE30BBFF2660BE1715A4589334C74C7
/-- The base point. -/
def sm2Gy : Nat := 0xBC3736A2F4F6779C59BDCEE36B692153D0A9877CC62A474002DF32E52139F0A0

/-- b^e mod m by repeated squaring over the `n` low bits of e. -/
def modPow (m : Nat) : Nat → Nat → Nat → Nat
  | 0, _, _ => 1 % m
  | n + 1, b, e =>
    let r := modPow m n (b * b % m) (e / 2)
    if e % 2 = 1 then r * b % m else r

/-- The inverse modulo a 256-bit prime. -/
def modInv (m x : Nat) : Nat := modPow m 256 (x % m) (m - 2)

/-- A point of the curve, none for the point at infinity. -/
abbrev EcPoint := Option (Nat × Nat)

/-- Point addition. -/
def ecAdd (p q : EcPoint) : EcPoint :=
  match p, q with
  | none, q => q
  | p, none => p
  | some (x1, y1), some (x2, y2) =>
    if x1 = x2 ∧ (y1 + y2) % sm2P = 0 then none
    else
      let l := if x1 = x2 then (3 * x1 * x1 + sm2A) * modInv sm2P (2 * y1) % sm2P
        else (y2 + sm2P - y1) * modInv sm2P (x2 + sm2P - x1) % sm2P
      let x3 := (l * l + 2 * sm2P - x1 - x2) % sm2P
      some (x3, (l * (x1 + sm2P - x3) + sm2P - y1) % sm2P)

/-- k × P over the `n` low bits of k. -/
def ecMulBits : Nat → Nat → EcPoint → EcPoint
  | 0, _, _ => none
  | n + 1, k, p =>
    let r := ecMulBits n (k / 2) (ecAdd p p)
    if k % 2 = 1 then ecAdd r p else r

/-- k × P. -/
def ecMul (k : Nat) (p : EcPoint) : EcPoint := ecMulBits 256 k p

/-- The base point. -/
def ecG : EcPoint := some (sm2Gx, sm2Gy)

/-- Whether a pair of coordinates is a point of the curve. -/
def ecOn (x y : Nat) : Bool :=
  decide (x < sm2P) && decide (y < sm2P) && decide (y * y % sm2P = (x * x * x + sm2A * x + sm2B) % sm2P)

/-- A point as x ‖ y, 64 bytes (R402). -/
def ecBytes (p : EcPoint) : Bytes :=
  match p with
  | none => List.replicate 64 0
  | some (x, y) => beBytes 32 x ++ beBytes 32 y

/-- The point that 64 bytes x ‖ y name, none when it is not on the curve. -/
def ecOfBytes (bs : Bytes) : EcPoint :=
  let x := beAt bs 0 32
  let y := beAt bs 32 32
  if ecOn x y then some (x, y) else none

/-- The standard's Z value of a user with distinguishing identifier `id` and public key `pub`. -/
def sm2Z (id pub : Bytes) : Bytes :=
  sm3 (beBytes 2 (8 * id.length) ++ id ++ beBytes 32 sm2A ++ beBytes 32 sm2B ++ beBytes 32 sm2Gx ++ beBytes 32 sm2Gy ++ pub)

/-- The digest a signature covers: the message here is the SM3 hash the manual names. -/
def sm2E (id pub msg : Bytes) : Nat := beNat (sm3 (sm2Z id pub ++ msg))

/-- Verification of a 64-byte signature r ‖ s. -/
def sm2Verify (id pub msg sig : Bytes) : Bool :=
  let r := beAt sig 0 32
  let s := beAt sig 32 32
  let t := (r + s) % sm2N
  match ecOfBytes pub with
  | none => false
  | some p =>
    decide (0 < r) && decide (r < sm2N) && decide (0 < s) && decide (s < sm2N) && decide (t ≠ 0) &&
    (match ecAdd (ecMul s ecG) (ecMul t (some p)) with
     | none => false
     | some (x, _) => decide ((sm2E id pub msg + x) % sm2N = r))

/-- A signature with private key `d` and the random number `k`. -/
def sm2Sign (id : Bytes) (d k : Nat) (msg : Bytes) : Bytes :=
  let pub := ecBytes (ecMul d ecG)
  let x := match ecMul (k % sm2N) ecG with
    | none => 0
    | some (x, _) => x
  let r := (sm2E id pub msg + x) % sm2N
  let s := modInv sm2N (1 + d) * ((k + sm2N * (1 + d) - r * d % sm2N) % sm2N) % sm2N
  beBytes 32 r ++ beBytes 32 s

/-- The standard's key derivation function: `n` bytes. -/
def sm2Kdf (z : Bytes) (n : Nat) : Bytes :=
  ((List.range (ceilDiv n 32)).flatMap (fun i => sm3 (z ++ beBytes 4 (i + 1)))).take n

/-- The reduced abscissa of the key exchange. -/
def sm2Xbar (x : Nat) : Nat := 2 ^ 127 + x % 2 ^ 127

/-- What user B of the key exchange obtains: the shared key, its own confirmation S_B and the expected S_A. -/
structure Sm2Exchange where
  key : Bytes
  sB : Bytes
  sA : Bytes
  deriving DecidableEq, Repr

/-- The key exchange of R403 seen by user B, with B's static and ephemeral private keys. None when A's key is no point. -/
def sm2ExchangeB (idA idB pubA ra : Bytes) (dB rB : Nat) : Option Sm2Exchange :=
  let pubB := ecBytes (ecMul dB ecG)
  let rb := ecBytes (ecMul rB ecG)
  match ecOfBytes pubA, ecOfBytes ra with
  | some pa, some pra =>
    let t := (dB + sm2Xbar (beAt rb 0 32) * rB) % sm2N
    match ecMul t (ecAdd (some pa) (ecMul (sm2Xbar pra.1) (some pra))) with
    | none => none
    | some (xv, yv) =>
      let za := sm2Z idA pubA
      let zb := sm2Z idB pubB
      let inner := sm3 (beBytes 32 xv ++ za ++ zb ++ ra ++ rb)
      some {
        key := sm2Kdf (beBytes 32 xv ++ beBytes 32 yv ++ za ++ zb) 64
        sB := sm3 ([(2 : Byte)] ++ beBytes 32 yv ++ inner)
        sA := sm3 ([(3 : Byte)] ++ beBytes 32 yv ++ inner) }
  | _, _ => none

end Sys2Proof.Machine
end

