-- ==== Sys2Proof/Machine/Container.lean ====
section
/-! DEFINITION. Program containers: the checks of a start, installation (R100 to R104). -/

namespace Sys2Proof.Machine

/-- The cores that parcel n's container maps. -/
def State.mappedBy (s : State) (n : Nat) : List Nat :=
  match coreMap (s.sections n) 0x00A0 with
  | some m => (List.range 1152).filter (fun c => decide (s.mapEntry n m c ≠ 0xFF))
  | none => []

/-! ### Checks (R101, R102) -/

/-- Check 1: the header and section bounds are valid and nothing reserved is used. -/
def State.contFormat (s : State) (n : Nat) : Bool :=
  let total := s.contTotal n
  let k := s.contNat n 12 4
  let l := s.sections n
  decide (s.contNat n 0 4 = 0x315A4251) && decide (s.contNat n 10 2 = 256) && decide (1 ≤ k) && decide (k ≤ 64)
    && decide (256 + 32 * k + 64 ≤ total) && decide (total ≤ s.contRoom n)
    && decide (s.contNat n 24 1 = 1 ∨ s.contNat n 24 1 = 2)
    && (s.contBytes n 25 7).all (· == 0) && (s.contBytes n 64 192).all (· == 0)
    && l.all (fun x => decide (1 ≤ x.type) && decide (x.type ≤ 6) && decide (x.rsvd = 0) && decide (x.type ≤ 2 ∨ x.step = 0)
        && decide (256 + 32 * k ≤ x.off) && decide (x.off + x.len ≤ total - 64) && decide (x.type ≠ 2 ∨ x.len = 1152))
    && l.all (fun x => decide (x.type ≠ 2) || decide ((l.filter (fun y => decide (y.type = 2) && decide (y.step = x.step))).length = 1))

/-- "OMVAILE", the identifier of every signature of chapter 16 (R424). -/
def signId : Bytes := strBytes 7 "OMVAILE"

/-- A signature over the SM3 hash of a message (R424). -/
def signedBy (pub msg sig : Bytes) : Bool := sm2Verify signId pub (sm3 msg) sig

/-- Check 2: the signature verifies against an operator key that may sign containers (R101, R426). -/
def State.contSigned (s : State) (n : Nat) : Bool :=
  let total := s.contTotal n
  let msg := s.contBytes n 0 (total - 64)
  let sig := s.contBytes n (total - 64) 64
  s.sealed.ops.any (fun k => decide (k.role ≠ 0) && k.signs.testBit 0 && signedBy k.key msg sig)

/-- PROGRAM_DIGEST as the container's body gives it (R100). -/
def State.contDigest (s : State) (n : Nat) : Bytes := sm3 (s.contBytes n 256 (s.contTotal n - 64 - 256))

/-- Check 6: the core map for this step, the images it names and the cores it maps. -/
def State.contMap (s : State) (n : Nat) : Bool :=
  let l := s.sections n
  match coreMap l 0x00A0 with
  | none => false
  | some m => (List.range 1152).all (fun c =>
      let i := s.mapEntry n m c
      decide (i = 0xFF) || ((match l[i]? with
        | some x => decide (x.type = 1) && decide (x.step = 0x00A0)
        | none => false) && decide (s.coreParcel c = some n)))

/-- Check 7: a verified Xaisk image, and every requirement met (R101, R420). -/
def State.contXaisk (s : State) (n : Nat) : Bool :=
  let v := s.obj Obj.prog_XAISK_VERSION
  decide (v ≠ 0) && (s.sections n).all (fun x => decide (x.type ≠ 5) || decide (s.contNat n x.off (min x.len 4) ≤ v))

/-- The code of the first check of R101 that fails, 0 for none: 1 PROG_FORMAT, 2 PROG_SIG, 3 PROG_VERSION, 4 PROG_STEP (R378). -/
def State.contCheck (s : State) (n : Nat) : Nat :=
  if !s.contFormat n then 1
  else if !s.contSigned n then 2
  else if s.contDigest n ≠ s.contBytes n 32 32 then 1
  else if s.contNat n 4 2 ≠ 1 ∨ s.contNat n 6 2 ≠ 0 ∨ s.contNat n 8 2 ≠ 1 then 3
  else if s.contNat n 24 1 ≠ s.parMode n then 1
  else if !s.contMap n then 4
  else if !s.contXaisk n then 3
  else 0

/-! ### Installation (R101) -/

/-- Descriptor records: core, entry and the 128 bytes (R100). -/
def State.contDescs (s : State) (n : Nat) : List (Nat × Nat × Nat) :=
  ((s.sections n).filter (fun x => x.type = 3)).flatMap (fun x =>
    (List.range (x.len / 132)).map (fun i =>
      let o := x.off + 132 * i
      (s.contNat n o 2, s.contNat n (o + 2) 2, s.contNat n (o + 4) 128)))

/-- Descriptors installed with generation 0 in the cores of the parcel (R77, R101). -/
def State.installDescs (s : State) (n : Nat) : State :=
  (s.contDescs n).foldl (fun s e =>
    if s.coreParcel e.1 = some n ∧ e.2.1 < 4096 then
      s.modCore e.1 (fun k => { k with desc := Sparse.set 0 k.desc e.2.1 e.2.2, gens := Sparse.set 0 k.gens e.2.1 0 })
    else s) s

/-- The data records of a section: address and bytes; `fuel` bounds their number (R100). -/
def State.dataRecords (s : State) (n : Nat) : Nat → Nat → Nat → List (Nat × Bytes)
  | 0, _, _ => []
  | fuel + 1, o, hi =>
    if hi < o + 16 then []
    else
      let len := s.contNat n (o + 8) 8
      if hi < o + 16 + len then []
      else (s.contNat n o 8, s.contBytes n (o + 16) len) :: s.dataRecords n fuel (o + 16 + ceilDiv len 8 * 8) hi

/-- Data written, in the parcel's own memory (R15, R101). -/
def State.installData (s : State) (n : Nat) : State :=
  let recs := ((s.sections n).filter (fun x => x.type = 4)).flatMap (fun x => s.dataRecords n (x.len / 16 + 1) x.off (x.off + x.len))
  recs.foldl (fun s e =>
    if (s.foreign n (e.1 % 2 ^ 44) e.2.length).isNone ∧ s.ranged (e.1 % 2 ^ 44) e.2.length then (s.storeBytes (e.1 % 2 ^ 44) e.2).1
    else s) s

/-- The code images of every die of the parcel written into its code region, each where R104 places it. -/
def State.installCode (s : State) (n : Nat) : State :=
  let l := s.sections n
  (s.dies n).foldl (fun s k =>
    (s.codePlaces n k).foldl (fun s e =>
      match l[e.1]? with
      | some x => (s.storeBytes (codeRegion k + e.2) (s.contBytes n x.off x.len)).1
      | none => s) s) s

/-- A core set to the first operation of its image, with its registers 0 (R101): engines idle, windows and rings new (R97, R209). -/
def Core.start (k : Core) (mapped : Bool) : Core :=
  { k with
    regs := [], loops := [], libLoops := [], pos := 0, mapped := mapped, ended := false, stopped := false, hold := .none,
    lib := none, mxe := [], vxe := [], spe := [], txe := [], rings := [], win := [], icache := [] }

/-- The fault objects of a core and its counts since parcel start cleared (R110). -/
def State.clearCoreFaults (s : State) (c : Nat) : State :=
  [0x02, 0x03, 0x04, 0x05, 0x06, 0x07, 0x08, 0x09, 0x0A, 0x0E].foldl (fun s sub =>
    let k := objKey (0x6800 + c) sub
    s.setObj k (objDefault k)) s

/-- Every core of the parcel set up for a start: mapped ones run, the others are idle (R101, R109). -/
def State.startCores (s : State) (n : Nat) : State :=
  let on := s.mappedBy n
  ((s.dies n).flatMap (fun k => (List.range 192).map (fun i => 192 * k + i))).foldl (fun s c =>
    let m := on.contains c
    ((s.modCore c (fun k => k.start m)).clearCoreFaults c).setCoreState c (if m then 1 else 0)) s

/-- The mapped cores of a parcel restarted after a rollback: registers, flags, queues and descriptor table cleared, the container's
descriptors installed again (R362). -/
def State.restartCores (s : State) (n : Nat) : State :=
  let s := (s.mapped n).foldl (fun s c =>
    (s.setCore c { Core.reset with mapped := true, nextTag := (s.core c).nextTag, warm := (s.core c).warm }).updFill c |>.setCoreState c 1) s
  s.installDescs n

end Sys2Proof.Machine
end

