-- ==== Sys2Proof/Machine/Images.lean ====
section
/-! DEFINITION. Flash, its directory and images (R421, R422), certificates (R425), measurements (R427). -/

namespace Sys2Proof.Machine

/-- A byte of the flash; erased bytes read 0xFF (log 14), bytes of an open range a free value (R450). -/
def State.flashByte (s : State) (a : Nat) : Byte :=
  match s.flashLost.find? (fun e => decide (e.1 ≤ a) && decide (a < e.1 + e.2.1)) with
  | some e => Config.freeByte e.2.2 a
  | none => Sparse.get 0xFF s.flash a

/-- Bytes of the flash. -/
def State.flashBytes (s : State) (a n : Nat) : Bytes := (List.range n).map (fun i => s.flashByte (a + i))

/-- A little-endian number of the flash. -/
def State.flashNat (s : State) (a n : Nat) : Nat := leNat (s.flashBytes a n)

/-- A directory entry (R421). -/
structure DirEntry where
  type : Nat
  slot : Nat
  off : Nat
  len : Nat
  deriving DecidableEq, Repr

/-- Whether the directory copy at `a` is valid: its MAGIC and its DIGEST match (R421). A COUNT outside 1 to 32 leaves no place for the
digest (log 35). -/
def State.dirValid (s : State) (a : Nat) : Bool :=
  let n := s.flashNat (a + 6) 2
  decide (s.flashNat a 4 = 0x5244564F) && decide (1 ≤ n) && decide (n ≤ 32)
    && decide (s.flashBytes (a + 16 + 16 * n) 32 = sm3 (s.flashBytes a (16 + 16 * n)))

/-- Where the directory in use lies: the valid copy with the higher SEQ, the first of two equal ones (R421). -/
def State.dirAt (s : State) : Option Nat :=
  match s.dirValid 0, s.dirValid 0x1000 with
  | true, true => if s.flashNat 8 4 < s.flashNat 0x1008 4 then some 0x1000 else some 0
  | true, false => some 0
  | false, true => some 0x1000
  | false, false => none

/-- The entry of an image type and slot (R421), the first where several match. -/
def State.dirEntry (s : State) (type slot : Nat) : Option DirEntry :=
  match s.dirAt with
  | none => none
  | some a =>
    ((List.range (s.flashNat (a + 6) 2)).map (fun i =>
      let o := a + 16 + 16 * i
      (⟨s.flashNat o 1, s.flashNat (o + 1) 1, s.flashNat (o + 4) 4, s.flashNat (o + 8) 4⟩ : DirEntry))).find?
      (fun e => decide (e.type = type) && decide (e.slot = slot) && decide (slot ≤ 1) && decide (e.off % 4096 = 0))

/-- Largest image of a type, in bytes (R421). -/
def imageMax (type : Nat) : Nat := if type = 2 then 2 ^ 20 else if type = 3 then 2 ^ 18 else 2 ^ 22

/-- An image's parts (R421): 64-byte header, signer field, body, signature. -/
structure Image where
  header : Bytes
  signer : Bytes
  body : Bytes
  sig : Bytes
  deriving DecidableEq, Repr

/-- What the signature covers: header, signer field and body (R421). -/
def Image.msg (i : Image) : Bytes := i.header ++ i.signer ++ i.body
/-- The whole image. -/
def Image.bytes (i : Image) : Bytes := i.msg ++ i.sig
/-- VERSION (R421). -/
def Image.version (i : Image) : Nat := leAt i.header 8 4
/-- SVN (R421). -/
def Image.svn (i : Image) : Nat := leAt i.header 12 4

/-- The image in a slot; none when the directory names none or its lengths are not those of its slot (R421, check 1 of R422). -/
def State.imageOf (s : State) (type slot : Nat) : Option Image :=
  match s.dirEntry type slot with
  | none => none
  | some e =>
    let len := s.flashNat (e.off + 16) 4
    if 384 + len ≤ e.len ∧ 384 + len ≤ imageMax type then
      some ⟨s.flashBytes e.off 64, s.flashBytes (e.off + 64) 256, s.flashBytes (e.off + 320) len, s.flashBytes (e.off + 320 + len) 64⟩
    else none

/-! ### Certificates (R425) -/

/-- The subject key of a certificate. -/
def certKey (c : Bytes) : Bytes := slice c 32 64

/-- A certificate of a kind, signed by an issuer's key: layout, kind, issuer and signature (R425). Validity periods are not checked. -/
def certOk (kind : Nat) (issuer c : Bytes) : Bool :=
  decide (c.length = 256) && decide (leAt c 0 4 = 0x54524543) && decide (leAt c 4 2 = 1) && decide (leAt c 6 1 = kind)
    && decide (leAt c 7 1 = 0) && decide (slice c 96 32 = sm3 issuer) && signedBy issuer (c.take 192) (slice c 192 64)

/-- A certificate made by the device (R425). -/
def makeCert (kind physId : Nat) (pub ext : Bytes) (issuer : Bytes) (d k : Nat) : Bytes :=
  let b := leBytes 4 0x54524543 ++ leBytes 2 1 ++ leBytes 1 kind ++ leBytes 1 0 ++ leBytes 8 physId ++ leBytes 8 0 ++ leBytes 8 (2 ^ 64 - 1)
    ++ pub ++ sm3 issuer ++ ext
  b ++ sm2Sign signId d k (sm3 b)

/-! ### Verification (R422) -/

/-- Check 1: MAGIC, TYPE and reserved bytes. STEP is `imageStep`, and the lengths are `State.imageOf`. -/
def Image.format (i : Image) (type : Nat) : Bool :=
  decide (leAt i.header 0 4 = 0x4D49564F) && decide (leAt i.header 4 1 = type)
    && (slice i.header 5 3).all (· == 0) && (slice i.header 22 42).all (· == 0)

/-- The key that an image's signer field names, none when the field is not valid (check 2). -/
def State.signerKey (s : State) (i : Image) (type : Nat) : Option Bytes :=
  if type = 3 then
    let k := s.sealed.ops.getD (leAt i.signer 4 1) ⟨[], 0, 0⟩
    if leAt i.signer 0 4 = 0x4B504F4F ∧ leAt i.signer 5 3 = 0 ∧ (slice i.signer 72 184).all (· == 0) ∧ leAt i.signer 4 1 < 16
        ∧ slice i.signer 8 64 = k.key ∧ k.role ≠ 0 ∧ k.signs.testBit 1 then some k.key
    else none
  else if certOk 1 s.sealed.root i.signer then some (certKey i.signer) else none

/-- The code of class 0x0B with which an image fails R422, 0 for none: 1 IMAGE_SIG, 2 IMAGE_ROLLBACK, 3 IMAGE_STEP (R438). An absent
or malformed image counts as IMAGE_SIG (log 35). -/
def State.imageCheck (s : State) (type slot : Nat) : Nat :=
  match s.imageOf type slot with
  | none => 1
  | some i =>
    if !i.format type then 1
    else if leAt i.header 20 2 ≠ 0x00A0 then 3
    else match s.signerKey i type with
      | none => 1
      | some key =>
        if !signedBy key i.msg i.sig then 1
        else if i.svn < s.sealed.counters.getD (type - 1) 0 then 2
        else 0

/-! ### Measurements (R427) -/

/-- The bytes of an OCT object. -/
def State.measure (s : State) (i : Nat) : Bytes := leBytes 32 (s.obj (Obj.sec_MEASURE i))

/-- Mi extended by a 32-byte digest (R427). -/
def State.extend (s : State) (i : Nat) (d : Bytes) : State :=
  (s.setObj (Obj.sec_MEASURE i) (leNat (sm3 (s.measure i ++ d)))).bump (Obj.sec_EXTENDS i)

/-- The DETAIL of an image's entries (R438, log 35). -/
def imgDetail (type slot : Nat) : Nat := Config.imageDetail type slot % 2 ^ 64

/-- An image's failure entered (R420, R438). -/
def State.imageFailed (s : State) (type slot code : Nat) : State := s.advise 1 none (0x0B00 + code) 0xFFFF (imgDetail type slot)

/-- BOOT_SLOT of a type (R422). -/
def State.bootSlot (s : State) (type : Nat) : Nat := s.sealed.bootSlot.getD (type - 1) 0

/-- The image with which a type boots (R422): BOOT_SLOT's, else the other slot's; failures and a fallback are entered. -/
def State.selectImage (s : State) (type : Nat) : State × Option (Nat × Image) :=
  let a := s.bootSlot type
  let b := 1 - a
  let ca := s.imageCheck type a
  if ca = 0 then (s, (s.imageOf type a).map (fun i => (a, i)))
  else
    let s := s.imageFailed type a ca
    let cb := s.imageCheck type b
    if cb = 0 then
      let s := s.setObj Obj.sec_FALLBACK (setBit (s.obj Obj.sec_FALLBACK) (type - 1) true)
      (s.imageFailed type b 4, (s.imageOf type b).map (fun i => (b, i)))
    else (s.imageFailed type b cb, none)

/-- The running image of a type noted (R431). -/
def State.noteImage (s : State) (type slot svn : Nat) : State :=
  { s with sec := { s.sec with running := Sparse.set none s.sec.running type (some (slot, svn)) } }

end Sys2Proof.Machine
end

