-- ==== Sys2Proof/Machine/Time.lean ====
section
/-! DEFINITION. Time packets, the datum's timeout, steps, and the datum's sources (R327 to R341). -/

namespace Sys2Proof.Machine

/-! ### What is advertised (R330, R339, R341) -/

/-- Whether the source of TIME_SOURCE 2 is not taken until EPOCH_TAI is changed (R339). -/
def State.sourceBarred (s : State) : Bool := decide (s.time.barred = some (s.obj Obj.time_EPOCH_TAI))

/-- CLOCK_CLASS that the datum announces (R339; log 16 for a source that has given nothing yet). -/
def State.sourceClass (s : State) : Nat :=
  let st := s.obj Obj.time_SOURCE_STATE
  match s.obj Obj.time_TIME_SOURCE with
  | 1 => if st = 1 then 6 else if st = 2 then 7 else 248
  | 2 => match s.time.src.gm with
    | some g => if st = 1 then g.clockClass.toNat else 248
    | none => if st = 2 && !s.sourceBarred then 7 else 248
  | _ => 248

/-- The clock identity of a service port, as a number of 8 bytes, first byte most significant (R341). -/
def State.clockId (s : State) (p : Nat) : Nat :=
  let m := beNat (leBytes 6 (s.obj (Obj.port_SVC_MAC p)))
  m / 2 ^ 24 * 2 ^ 40 + 0xFFFE * 2 ^ 24 + m % 2 ^ 24

/-- The datum's own clock identity: that of its lowest-numbered service port with PTP_ENABLE set (R341). -/
def State.ownIdentity (s : State) : Nat :=
  match (List.range 19).find? (fun i => s.obj (Obj.port_PTP_ENABLE (125 + i)) = 1) with
  | some i => s.clockId (125 + i)
  | none => 0

/-- GM_IDENTITY and GM_STEPS of the datum (R328, R341). -/
def State.datumGm (s : State) : Nat × Nat :=
  match s.time.src.gm with
  | some g => if s.obj Obj.time_SOURCE_STATE = 1 then (g.gmIdentity.toNat, (g.stepsRemoved.toNat + 1) % 2 ^ 16) else (s.ownIdentity, 0)
  | none => (s.ownIdentity, 0)

/-- What this device advertises (R330). -/
def State.advert (s : State) : TimeAdv :=
  if s.obj Obj.time_TIME_STATE = 4 then
    { phys := s.physId, prio := s.obj Obj.time_TIME_PRIORITY, dist := 0, seq := s.time.seq,
      epoch := s.obj Obj.time_EPOCH_TAI, utc := s.obj Obj.time_UTC_OFFSET, leap := s.obj Obj.time_LEAP, cls := s.sourceClass,
      gm := s.datumGm.1, steps := s.datumGm.2 }
  else match (s.timePort (s.obj Obj.time_PARENT_PORT)).adv with
    | some a => { a with dist := a.dist + 1 }
    | none =>
      let r := s.time.relayed.getD
        { phys := 0, prio := 0, dist := 0, seq := 0, epoch := s.obj Obj.time_EPOCH_TAI, utc := s.obj Obj.time_UTC_OFFSET,
          leap := s.obj Obj.time_LEAP, cls := 0, gm := 0, steps := 0 }
      { r with phys := s.physId, prio := 255, dist := 0, seq := 0, cls := if s.obj Obj.time_TIME_STATE = 3 then 7 else 248 }

/-- The payload of a time packet (R328). -/
def timePayload (a : TimeAdv) (xmit orig recv st : Nat) : Bytes :=
  beBytes 8 xmit ++ beBytes 8 orig ++ beBytes 8 recv ++ beBytes 4 a.phys ++ beBytes 1 a.prio ++ beBytes 1 a.dist ++ beBytes 1 st
    ++ [0] ++ beBytes 4 a.seq ++ beBytes 8 a.epoch ++ beBytes 2 a.utc ++ beBytes 1 a.leap ++ beBytes 1 a.cls ++ beBytes 8 a.gm
    ++ beBytes 2 a.steps ++ beBytes 6 0

/-- The advertisement in a time packet payload (R328). -/
def advertOf (b : Bytes) : TimeAdv :=
  { phys := beAt b 24 4 % 2 ^ 21, prio := beAt b 28 1, dist := beAt b 29 1, seq := beAt b 32 4, epoch := beAt b 36 8,
    utc := beAt b 44 2, leap := beAt b 46 1, cls := beAt b 47 1, gm := beAt b 48 8, steps := beAt b 56 2 }

/-! ### Sending (R327) -/

/-- A time packet's header (R327). -/
def State.timeHeader (s : State) : Packet :=
  { Packet.zero with
    op := opTime, tc := 7, route := 2, len := 64, arg := 1, dstCore := 0, srcCore := 0,
    src := BitVec.ofNat 20 s.logicalId }

/-- A sequenced unit that carries a time packet: it consumes no credit (R188, R327). -/
def State.sendTimeUnit (s : State) (p : PortId) (data : Bytes) : State :=
  let l := s.link p
  let s := s.sendUnit p 1 l.nextSeq data
  s.setLink p { l with
    nextSeq := (l.nextSeq + 1) % 4096,
    replay := l.replay ++ [(l.nextSeq, 1, padTo 248 data)],
    progressAt := if l.replay = [] then s.now else l.progressAt }

/-- The datum's count advanced once in each interval (R330). -/
def State.countInterval (s : State) : State :=
  if s.obj Obj.time_TIME_STATE = 4 ∧ s.time.seqAt + s.obj Obj.time_SYNC_INTERVAL * 1024 ≤ s.now then
    s.modTime (fun t => { t with seq := (t.seq + 1) % 2 ^ 32, seqAt := s.now })
  else s

/-- R327: the time unit of a port sends its packet, one interval after the last. A port with 2,048 units unacknowledged sends
none (R188). -/
def execTimePacketTx (p : PortId) (s : State) : Out :=
  if !(s.timeOn && s.linkOpen p && decide ((s.link p).replay.length < 2048)) then .next s
  else
    let s := match (s.timePort p).sent with
      | t :: _ => s.advanceTo (t + s.obj Obj.time_SYNC_INTERVAL * 1024)
      | [] => s
    let s := s.elect.countInterval
    let a := s.advert
    let t := s.timePort p
    let (orig, recv) := t.heard.getD (0, 0)
    let pkt := { s.timeHeader with payload := timePayload a s.now orig recv (s.obj Obj.time_TIME_STATE) }
    let s := if a.prio = 255 ∨ s.obj Obj.time_TIME_STATE = 4 then s else s.modTime (fun t => { t with relayed := some a })
    .next ((s.setTimePort p { t with sent := (s.now :: t.sent).take 4 }).sendTimeUnit p pkt.bytes)

/-! ### Receipt (R329, R330) -/

/-- The procedure of R329, in the 64-bit arithmetic of R9: theta2 and delay2 of an accepted sample. -/
def timeSample (orig recv xmit dst : BitVec 64) (asym : Int) (rttF : Nat) (settled : Bool) : Option (Int × Int) :=
  let a := (recv - orig).toInt
  let b := (xmit - dst).toInt
  let rtt := ((dst - orig) - (xmit - recv)).toInt
  if rtt < 0 then none
  else if settled && decide (rtt > (rttF : Int) + 64) then none
  else some (a + b + asym, rtt)

/-- LINK_ASYM in units, truncated toward zero (R329). -/
def State.asym (s : State) (p : Nat) : Int := Int.tdiv (signed 32 (s.obj (Obj.port_LINK_ASYM p)) * 16) 1000

/-- Whether a time packet's header meets R327; an unknown subtype is discarded before (R191). -/
def timeHeaderOk (k : Packet) : Bool :=
  decide (k.op = opTime) && !k.resp && decide (k.tc = 7) && decide (k.hop = 0) && decide (k.route = 2) && !k.ext
    && decide (k.len = 64) && decide (k.payload.length = 64) && decide (k.dst = 0) && decide (k.dstCore = 0)
    && decide (k.srcCore = 0) && decide (k.job = 0) && decide (k.tag = 0) && decide (k.addr = 0) && decide (k.arg = 1)

/-- An advertisement received: fresh once its count exceeds the last one of the same datum (R330). -/
def TimePort.hear (t : TimePort) (a : TimeAdv) (now : Nat) : TimePort :=
  let up := match Sparse.get none t.seen a.phys with
    | some v => decide (a.seq ≠ v) && flagGe (BitVec.ofNat 32 a.seq) (BitVec.ofNat 32 v)
    | none => false
  let same := match t.adv with
    | some b => decide (b.phys = a.phys)
    | none => false
  { t with
    adv := some a, seen := Sparse.set none t.seen a.phys (some a.seq),
    fresh := if up then some now else if same then t.fresh else none }

/-- An accepted sample (R329): counted, filtered, and taken to steer by where its port is the parent. -/
def State.accept (s : State) (p : Nat) (th dl : Int) : State :=
  let t := s.timePort p
  let t := { t with accepted := t.accepted + 1, thetas := th :: t.thetas, delays := dl :: t.delays }
  let x := Config.filteredOffset t.thetas
  let s := (s.setTimePort p t).bump (Obj.port_TIME_RX p)
  let s := s.setObj (Obj.port_LINK_DELAY p) (satN 32 (Config.filteredDelay t.delays))
  let s := s.setObj (Obj.port_PEER_OFFSET p) (offsetPs x)
  if p = s.obj Obj.time_PARENT_PORT then s.steer x else s

/-- R329: a time packet received at `arrival`. -/
def execTimePacketRx (p : PortId) (pkt : Packet) (arrival : BitVec 64) (s : State) : Out :=
  let at_ : RxAt := ⟨some p, 0, 0, 0⟩
  if !(s.inbox.contains (at_, pkt) || s.linkOpen p) || decide (pkt.op ≠ opTime) then .next s
  else
    let s := { s with inbox := s.inbox.erase (at_, pkt) }.advanceTo arrival.toNat
    if !pkt.requestOk 4096 then .next (s.bump (Obj.port_RX_DISCARD p))
    else if !s.timeOn then .next s
    else if !timeHeaderOk pkt then .next (s.bump (Obj.port_TIME_BAD p))
    else
      let b := pkt.payload
      let xmit := BitVec.ofNat 64 (beAt b 0 8)
      let orig := BitVec.ofNat 64 (beAt b 8 8)
      let t := { (s.timePort p).hear (advertOf b) s.now with heard := some (xmit.toNat, arrival.toNat) }
      let s := (s.setTimePort p t).elect
      if orig = 0 then .next s
      else
        let r := if t.sent.contains orig.toNat then
            timeSample orig (BitVec.ofNat 64 (beAt b 16 8)) xmit arrival (s.asym p)
              (2 * s.obj (Obj.port_LINK_DELAY p)) (decide (16 ≤ t.accepted))
          else none
        match r with
        | none => .next (s.bump (Obj.port_TIME_BAD p))
        | some (th, dl) => .next (s.accept p th dl)

/-- R330: a datum's count has not increased for DATUM_TIMEOUT slots on a port; its advertisement is no longer fresh. -/
def execDatumTimeout (p : PortId) (s : State) : Out :=
  let t := s.timePort p
  match t.fresh with
  | some u =>
    if s.timeOn then
      let s := s.advanceTo (u + s.obj Obj.time_DATUM_TIMEOUT * 1024)
      .next (s.setTimePort p { t with fresh := none }).elect
    else .next s
  | none => .next s

/-! ### Steps (R332, R333, R336) -/

/-- Every `time.wait` for a slot that a forward step skipped goes on at once and counts in LATE_SLOT (R336). -/
def State.releaseSkipped (s : State) (t0 : Nat) : State :=
  s.cores.foldl (fun s e =>
    match e.2.hold with
    | .timeWait slot =>
      if t0 < slot * 1024 ∧ slot * 1024 ≤ s.now then
        ((s.modCore e.1 (fun k => { k with hold := .none })).countCore e.1 0x0F 1).settle e.1
      else s
    | _ => s) s

/-- Offsets measured before a step, as the stepped counter would have measured them. -/
def State.shiftOffsets (s : State) (n : Int) : State :=
  s.modTime (fun t => { t with
    ports := t.ports.map (fun e => (e.1, { e.2 with thetas := e.2.thetas.map (· - 2 * n) })),
    src := { t.src with
      thetas := t.src.thetas.map (· - 2 * n), step := false, taken := t.src.taken || t.src.step,
      sync := t.src.sync.map (fun e => (e.1, ((e.2 : Int) + n).toNat)),
      req := t.src.req.map (fun e => (e.1, ((e.2 : Int) + n).toNat)),
      down := t.src.down.map (· + n), up := t.src.up.map (· - n) },
    est := t.est.map (· - 2 * n), good := 0, bad := 0 })

/-- Whether a step is due: the estimate lies beyond STEP_LIMIT, or a source was first taken (R332, R339). -/
def State.stepDue (s : State) : Bool :=
  let st := s.obj Obj.time_TIME_STATE
  let x := s.time.est.getD 0
  s.timeOn && ((st = 4 && s.time.src.step) || ((st = 1 || st = 2 || st = 4) && decide (2 * s.obj Obj.time_STEP_LIMIT < x.natAbs)))

/-- R332: the counter steps by the estimated offset at the start of the next slot. A step after first alignment is entered, step
fatal where the device has a training parcel (R333). -/
def execTimeStep (s : State) : Out :=
  if !s.stepDue then .next s
  else
    let n := Int.tdiv (s.time.est.getD 0) 2
    let s := s.advanceTo ((s.slot + 1) * 1024)
    let t0 := s.now
    let s := ((s.setFt (t0 + n)).bump Obj.time_TIME_STEPS).setObj Obj.time_LAST_STEP_SIZE (wrap 64 n)
    let s := (s.shiftOffsets n).releaseSkipped t0
    let train := [0, 1, 2, 3].any (fun m => s.parMode m = 2)
    .next (if s.time.aligned then s.raise ⟨if train then 2 else 0, 3, none, 0x0701, 0xFFFF, wrap 64 n⟩ else s)

/-! ### PPS_IN (R338, R339) -/

/-- Distance of a Fabric Time from the nearest TAI second boundary, in units: positive after it (R338). -/
def fromSecond (t : Nat) : Int :=
  let d := t % 16000000000
  if d ≤ 8000000000 then d else (d : Int) - 16000000000

/-- An offset of the datum's source, twice its units: the first one taken is removed by one step, later ones steer (R339). -/
def State.sourceSample (s : State) (th : Int) : State :=
  let s := s.setObj Obj.time_SOURCE_STATE 1
  let src := s.time.src
  if src.taken then
    let l := th :: src.thetas
    (s.modSrc (fun r => { r with thetas := l })).steer (Config.filteredOffset l)
  else
    (s.modSrc (fun r => { r with step := true, thetas := [th] })).modTime (fun t => { t with est := some th })

/-- R338: a rising edge on PPS_IN; a pulse narrower than 100 ns is no edge (R451). The datum with TIME_SOURCE 1 takes it. -/
def execPpsInEdge (width : Nat) (s : State) : Out :=
  if width < 100 ∨ !s.poweredUp then .next s
  else
    let d := fromSecond s.now
    let s := (s.bump Obj.time_PPS_IN_SEEN).setObj Obj.time_PPS_IN_OFFSET (offsetPs (2 * d))
    .next (
      if s.timeOn && s.obj Obj.time_TIME_STATE = 4 && s.obj Obj.time_TIME_SOURCE = 1 then
        (s.modSrc (fun r => { r with edgeAt := s.now })).sourceSample (-2 * d)
      else s)

/-- R339: three seconds without an edge. -/
def execPpsInLoss (s : State) : Out :=
  if s.timeOn && s.obj Obj.time_TIME_STATE = 4 && s.obj Obj.time_TIME_SOURCE = 1 && decide (s.obj Obj.time_SOURCE_STATE ≠ 2) then
    .next ((s.advanceTo (s.time.src.edgeAt + 3 * 16000000000)).setObj Obj.time_SOURCE_STATE 2)
  else .next s

end Sys2Proof.Machine
end

