-- ==== Sys2Proof/Machine/Ptp.lean ====
section
/-! DEFINITION. IEEE 1588 on the service ports (R339 to R341). The layout of the standard's messages is not the manual's
(log 16). -/

namespace Sys2Proof.Machine

/-- Whether a service port is the slave-only port of the datum (R340). -/
def State.ptpSlaveOnly (s : State) (p : Nat) : Bool :=
  s.timeOn && s.obj Obj.time_TIME_STATE = 4 && s.obj Obj.time_TIME_SOURCE = 2 && s.obj Obj.time_SOURCE_PORT = p

/-- Whether ports send PTP messages in the present TIME_STATE (R340). -/
def State.ptpSends (s : State) : Bool :=
  let st := s.obj Obj.time_TIME_STATE
  st = 2 || st = 3 || st = 4

/-- PTP_PORT_STATE (R340, R353): 3 disabled, 9 slave, 6 master, and 1 initializing while it can be neither. -/
def State.ptpPortState (s : State) (p : Nat) : Nat :=
  if s.obj (Obj.port_PTP_ENABLE p) = 0 then 3
  else if s.ptpSlaveOnly p then (if s.time.src.gm.isSome then 9 else 1)
  else if s.ptpSends then 6 else 1

/-- Whether a service port sends as a master. -/
def State.ptpMaster (s : State) (p : Nat) : Bool := s.svcUp p && s.ptpPortState p = 6

/-- A service port's master record. -/
def State.ptpRec (s : State) (p : Nat) : PtpPort := Sparse.get PtpPort.reset s.time.ptp p

/-- A service port's master record replaced. -/
def State.setPtpRec (s : State) (p : Nat) (r : PtpPort) : State :=
  s.modTime (fun t => { t with ptp := Sparse.set PtpPort.reset t.ptp p r })

/-- A Fabric Time as a PTP timestamp: 48-bit seconds and 32-bit nanoseconds (R322). -/
def State.ptpStamp (s : State) (t : Nat) : Bytes :=
  beBytes 6 (s.obj Obj.time_EPOCH_IN_USE + t / 16000000000) ++ beBytes 4 (t % 16000000000 / 16)

/-- A PTP time in nanoseconds as a Fabric Time, which may lie outside the counter's range (R322, R339). -/
def State.ptpUnits (s : State) (ns : Nat) : Int := (ns : Int) * 16 - (s.obj Obj.time_EPOCH_TAI : Int) * 16000000000

/-- The header of a PTP message of a port: type, sequence number, log interval, flags, body length. -/
def State.ptpHeader (s : State) (p type seq log flags len : Nat) : Bytes :=
  beBytes 1 type ++ [0x12] ++ beBytes 2 (34 + len) ++ beBytes 1 (s.obj (Obj.port_PTP_DOMAIN p)) ++ [0] ++ beBytes 2 flags
    ++ beBytes 8 0 ++ beBytes 4 0 ++ beBytes 8 (s.clockId p) ++ beBytes 2 1 ++ beBytes 2 seq ++ [0] ++ beBytes 1 log

/-- A PTP message sent: to FF0E::181 on the event port or the general port (R340). -/
def State.ptpSend (s : State) (p : PortId) (event : Bool) (msg : Bytes) : State :=
  s.emit (.datagram p ptpGroup (if event then 319 else 320) 0x333300000181 0 msg)

/-- The period of a message whose logarithm of seconds is the I8 `log`, in units. -/
def ptpPeriod (log : Nat) : Nat := 16000000000 * 2 ^ (signed 8 log + 7).toNat / 128

/-- R340: a master port sends Sync, followed by Follow_Up. -/
def execPtpSyncTx (p : PortId) (s : State) : Out :=
  if !s.ptpMaster p then .next s
  else
    let r := s.ptpRec p
    let log := s.obj (Obj.port_PTP_SYNC_LOG p)
    let s := match r.syncAt with
      | some t => s.advanceTo (t + ptpPeriod log)
      | none => s
    let s := s.ptpSend p true (s.ptpHeader p 0 r.syncSeq log 0x0200 10 ++ beBytes 10 0)
    let s := s.ptpSend p false (s.ptpHeader p 8 r.syncSeq log 0 10 ++ s.ptpStamp s.now)
    .next (s.setPtpRec p { r with syncAt := some s.now, syncSeq := (r.syncSeq + 1) % 2 ^ 16 })

/-- The flags of an Announce: leap61, leap59, currentUtcOffsetValid and ptpTimescale (R341). -/
def announceFlags (leap : Nat) : Nat := b2n (leap = 1) + 2 * b2n (leap = 2) + 4 + 8

/-- The body of an Announce (R341). Its priorities, its clock accuracy and variance, and its time source are not the manual's: free
values (log 16). -/
def State.announceBody (s : State) : Bytes × State :=
  let a := s.advert
  let cls := if s.obj Obj.time_TIME_STATE = 3 then 7 else a.cls
  let (v, s) := s.fresh
  (beBytes 10 0 ++ beBytes 2 a.utc ++ [0] ++ beBytes 1 v ++ beBytes 1 cls ++ beBytes 3 (v / 2 ^ 8) ++ beBytes 1 (v / 2 ^ 32)
    ++ beBytes 8 a.gm ++ beBytes 2 (a.steps + a.dist) ++ beBytes 1 (v / 2 ^ 40), s)

/-- R341: a master port sends Announce. -/
def execPtpAnnounceTx (p : PortId) (s : State) : Out :=
  if !s.ptpMaster p then .next s
  else
    let r := s.ptpRec p
    let log := s.obj (Obj.port_PTP_ANNOUNCE_LOG p)
    let s := match r.annAt with
      | some t => s.advanceTo (t + ptpPeriod log)
      | none => s
    let (body, s) := s.announceBody
    let s := s.ptpSend p false (s.ptpHeader p 11 r.annSeq log (announceFlags s.advert.leap) 30 ++ body)
    .next (s.setPtpRec p { r with annAt := some s.now, annSeq := (r.annSeq + 1) % 2 ^ 16 })

/-- R340: a Delay_Req at a master port is answered. -/
def execPtpDelayReqRx (p : PortId) (domain : BitVec 8) (sender : BitVec 80) (seq : BitVec 16) (s : State) : Out :=
  if s.ptpMaster p && decide (domain.toNat = s.obj (Obj.port_PTP_DOMAIN p)) then
    let s := s.bump (Obj.port_PTP_DELAY_REQ_RX p)
    .next (s.ptpSend p false (s.ptpHeader p 9 seq.toNat 0 0 20 ++ s.ptpStamp s.now ++ beBytes 10 sender.toNat))
  else .next s

/-! ### The slave port of the datum (R339, R340) -/

/-- Whether the slave port takes messages of a domain. -/
def State.ptpHears (s : State) (p : Nat) (domain : BitVec 8) : Bool :=
  s.svcUp p && s.ptpSlaveOnly p && s.obj (Obj.port_PTP_ENABLE p) = 1 && decide (domain.toNat = s.obj (Obj.port_PTP_DOMAIN p))

/-- Whether a sender is the grandmaster's port that the slave follows. -/
def State.ptpFollows (s : State) (sender : BitVec 80) : Bool :=
  match s.time.src.gm with
  | some g => decide (g.sender = sender)
  | none => false

/-- R340: an Announce at the slave port: the standard's algorithm chooses among the grandmasters heard (log 16). -/
def execPtpAnnounceRx (p : PortId) (a : PtpAnnounce) (s : State) : Out :=
  if !s.ptpHears p a.domain then .next s
  else match s.time.src.gm with
    | some g =>
      if g.sender = a.sender then .next (s.modSrc (fun r => { r with gm := some a }))
      else if Config.bmcaBetter g.dataset a.dataset then
        .next (s.modSrc (fun r => { r with gm := some a, sync := none, req := none, down := none, up := none }))
      else .next s
    | none => .next (s.modSrc (fun r => { r with gm := some a, sync := none, req := none, down := none, up := none }))

/-- R339: a Sync from the grandmaster, kept with its arrival for its Follow_Up. -/
def execPtpSyncRx (p : PortId) (domain : BitVec 8) (sender : BitVec 80) (seq : BitVec 16) (s : State) : Out :=
  if s.ptpHears p domain && s.ptpFollows sender then .next (s.modSrc (fun r => { r with sync := some (seq.toNat, s.now) }))
  else .next s

/-- Whether the grandmaster's time can be represented (R339). -/
def State.ptpInRange (s : State) (ns : Nat) : Bool :=
  let e := s.obj Obj.time_EPOCH_TAI
  decide (e ≤ ns / 10 ^ 9) && decide (ns / 10 ^ 9 < e + 1152921504)

/-- R339: the Follow_Up of the last Sync, `origin` in nanoseconds of the PTP timescale: the offset from the grandmaster is updated once
the path delay is known. After a grandmaster out of range none is taken until EPOCH_TAI is changed. -/
def execPtpFollowUpRx (p : PortId) (domain : BitVec 8) (sender : BitVec 80) (seq : BitVec 16) (origin : Nat) (s : State) : Out :=
  if !(s.ptpHears p domain && s.ptpFollows sender) then .next s
  else match s.time.src.sync with
    | none => .next s
    | some (q, at_) =>
      if q ≠ seq.toNat then .next s
      else if s.sourceBarred || !s.ptpInRange origin then
        .next ((s.modTime (fun t => { t with barred := some (s.obj Obj.time_EPOCH_TAI) })).setObj Obj.time_SOURCE_STATE 2)
      else
        let d := (at_ : Int) - s.ptpUnits origin
        let s := s.modSrc (fun r => { r with sync := none, down := some d })
        match s.time.src.up with
        | some u => .next (s.sourceSample (u - d))
        | none => .next s

/-- R340: the slave port sends Delay_Req to its grandmaster. -/
def execPtpDelayReqTx (p : PortId) (s : State) : Out :=
  if s.svcUp p && s.ptpPortState p = 9 then
    let q := s.time.src.reqSeq
    let s := s.modSrc (fun r => { r with req := some (q, s.now), reqSeq := (q + 1) % 2 ^ 16 })
    .next (s.ptpSend p true (s.ptpHeader p 1 q 0x7F 0 10 ++ beBytes 10 0))
  else .next s

/-- R339: the answer to the last Delay_Req, `received` in nanoseconds of the PTP timescale: the path delay is updated. -/
def execPtpDelayRespRx (p : PortId) (domain : BitVec 8) (sender : BitVec 80) (seq : BitVec 16) (received : Nat) (s : State) : Out :=
  if !(s.ptpHears p domain && s.ptpFollows sender) then .next s
  else match s.time.src.req with
    | some (q, at_) =>
      if q = seq.toNat then .next (s.modSrc (fun r => { r with req := none, up := some (s.ptpUnits received - (at_ : Int)) }))
      else .next s
    | none => .next s

/-- R339: the slave port no longer hears its grandmaster and leaves SLAVE: the source is lost. -/
def execAnnounceReceiptTimeout (s : State) : Out :=
  if s.ptpSlaveOnly (s.obj Obj.time_SOURCE_PORT) && s.time.src.gm.isSome then
    .next ((s.modSrc (fun r => { r with gm := none, sync := none, req := none, down := none, up := none })).setObj
      Obj.time_SOURCE_STATE 2)
  else .next s

end Sys2Proof.Machine
end

