-- ==== Sys2Proof/Machine/DictRead.lean ====
section
/-! DEFINITION. Reading the dictionary (R387 to R392): values that are computed from the rest of the state, read-clearing, and the
forms in which values are sent (R401). -/

namespace Sys2Proof.Machine

/-! ### Wire forms (R401) -/

/-- A value as it is sent: numbers most significant byte first, OCT and STR byte 0 first. -/
def wireOf (t : OTy) (v : Nat) : Bytes := if t.isBytes then leBytes t.size v else beBytes t.size v

/-- The value of bytes sent. -/
def wireNat (t : OTy) (bs : Bytes) : Nat := if t.isBytes then leNat bs else beNat bs

/-! ### Computed values -/

/-- POLL_WORD (R398). -/
def State.pollWord (s : State) : Nat :=
  leNat (leBytes 4 (s.obj Obj.dev_CHANGE_SEQ) ++ leBytes 4 (s.obj Obj.ring_WRITE_SEQ) ++ leBytes 2 (s.obj Obj.dev_FAULT_MASK)
    ++ leBytes 2 (s.obj Obj.dev_RUNNING_MASK) ++ leBytes 1 (s.obj Obj.dev_DEVICE_STATE) ++ leBytes 1 (s.obj Obj.level_RETIRE_ADVICE)
    ++ leBytes 1 (s.obj Obj.time_TIME_STATE) ++ leBytes 1 (s.obj Obj.dev_BOOT_STAGE))

/-- Contexts held by a group (R297). -/
def State.groupActive (s : State) (g : Nat) : Nat := (s.colls.filter (fun c => decide (c.group = g))).length

/-- The state object of a group (R321). -/
def State.groupWord (s : State) (g : Nat) : Nat :=
  let t := s.groupSt g
  leNat (leBytes 4 t.next ++ leBytes 1 (s.groupActive g) ++ leBytes 1 0 ++ leBytes 2 (s.heldCells g) ++ leBytes 4 (satN 32 t.stale)
    ++ leBytes 4 (satN 32 t.refused))

/-- EARLY_CELLS of a group entry (R291), 0 for an unused one. -/
def earlyOf (e : Nat) : Nat := if e % 256 = 0 then 0 else e / 2 ^ 16 % 2 ^ 16

/-- The group entries that differ from 0: their keys are those of indexes 0x7100 to 0x710F. -/
def State.groupEntries (s : State) : List (Nat × Nat) := s.objs.filter (fun e => decide (0x710000 ≤ e.1) && decide (e.1 < 0x711000))

/-- EARLY_RESERVED (R320). -/
def State.earlyReserved (s : State) : Nat := sumN (s.groupEntries.map (fun e => earlyOf e.2))

/-- DEBUG_CHALLENGE: the free value drawn last (R433). -/
def State.challenge (s : State) : Nat := Config.freeNat s.sec.challenge % 2 ^ 256

/-- The 64-byte part of a certificate at sub-indexes 1 to 4 (R440). -/
def certPart (c : Bytes) (sub : Nat) : Nat := leNat (slice c (64 * (sub - 1)) 64)

/-- An operator slot. -/
def State.opSlot (s : State) (i : Nat) : OpKey := s.sealed.ops.getD i ⟨[], 0, 0⟩

/-- The objects that a measurement at the time of the read gives (R439): none of them has a value that the state fixes. -/
def measured (sub : Nat) : Bool :=
  (1 ≤ sub && sub ≤ 7) || (0x20 ≤ sub && sub < 0x26) || sub = 0x28 || (0x30 ≤ sub && sub < 0x3C)

/-- The objects whose value no command fixes: what is measured at the time of the read (R439), and a core's count of corrected errors
on fills of its instruction cache, which no command carries (R103, log 9). -/
def unfixed (idx sub : Nat) : Bool :=
  (decide (idx = 0x1200) && measured sub) || (decide (0x6800 ≤ idx) && decide (idx < 0x6C80) && decide (sub = 0x0D))

/-- The values at indexes below 0x2000 that the state gives elsewhere. -/
def State.derivedLow (s : State) (idx sub : Nat) : Option Nat :=
  if idx = 0x1000 then
    if sub = 5 then some (leNat s.sealed.serial) else if sub = 6 then some (s.sealed.physId % 2 ^ 21)
    else if sub = 0x0B then some s.sealed.bootCount else if sub = 0x0D then some (leNat (sm3 s.sealed.idPub)) else none
  else if idx = 0x1010 then (if sub = 5 then some s.mgmt.sessions.length else none)
  else if idx = 0x1100 then (if sub = 0x1F then some s.now else none)
  else if idx = 0x1200 then (if sub = 9 then some s.spread else none)
  else if idx = 0x1300 then
    if sub = 1 then some (leNat (sm3 s.sealed.root)) else if sub = 3 then some s.challenge
    else if sub = 5 then some ([1, 2, 3, 4].foldl (fun a t => a + s.bootSlot t % 2 * 2 ^ (t - 1)) 0) else none
  else if 0x1310 ≤ idx ∧ idx < 0x1320 then
    let k := s.opSlot (idx - 0x1310)
    if sub = 1 then some (leNat k.key) else if sub = 2 then some k.role else if sub = 3 then some k.signs
    else if sub = 4 then some (leNat (sm3 k.key)) else none
  else if 0x1321 ≤ idx ∧ idx ≤ 0x1324 then
    if sub = 0 then none
    else some (certPart (if idx = 0x1321 then s.sealed.idCert else if idx = 0x1322 then s.sealed.caCert
      else if idx = 0x1323 then s.sealed.mgmtCert else s.sec.attCert) sub)
  else if idx = 0x1350 ∧ 1 ≤ sub ∧ sub ≤ 8 then some (s.sealed.counters.getD (sub - 1) 0)
  else none

/-- The values of the switch and traffic objects that the state gives elsewhere (R216, R240, R242, R243). -/
def State.derivedSwitch (s : State) (idx sub : Nat) : Option Nat :=
  if idx = 0x4000 then (if sub = 0x0E then some s.logicalId else none)
  else if 0x4100 ≤ idx ∧ idx < 0x4104 then
    if sub = 0x10 then some (s.charged (idx - 0x4100)) else if sub = 0x11 then some (s.poolLimit (idx - 0x4100)) else none
  else if idx = 0x4200 ∨ idx = 0x4201 then
    let q := idx - 0x4200
    if sub = 1 then some (s.poolCap q) else if sub = 2 then some (s.pool q).used
    else if sub = 0x11 then some ((s.pool q).used - s.poolHeld q)
    else if sub = 0x12 ∧ q = 0 then some s.lossyAllow else if sub = 0x13 ∧ q = 0 then some s.entriesFree else none
  else if 0x3000 ≤ idx ∧ idx < 0x3090 then
    if sub = 0x34 then some (s.oqCells (idx - 0x3000)) else if sub = 0x35 then some (s.oqSpilled (idx - 0x3000))
    else if sub = 0x6A then some (s.ptpPortState (idx - 0x3000)) else none
  else if 0x4280 ≤ idx ∧ idx ≤ 0x42CC then
    if sub = 0x34 then some (s.oqCells (144 + idx - 0x4280)) else if sub = 0x35 then some (s.oqSpilled (144 + idx - 0x4280)) else none
  else none

/-- The value of an object that the state gives elsewhere than among the stored ones (R389 "derived"). -/
def State.derived (s : State) (idx sub : Nat) : Option Nat :=
  if idx < 0x2000 then s.derivedLow idx sub
  else if idx = 0x2000 then (if sub = 5 then some s.pollWord else none)
  else if idx < 0x5000 then s.derivedSwitch idx sub
  else if idx = 0x5000 then (if sub = 3 then some (16 * s.obj Obj.mem_BULK_MODULE_GIB) else none)
  else if 0x6100 ≤ idx ∧ idx < 0x6104 then
    if sub = 3 then some ((s.dies (idx - 0x6100)).foldl (fun a k => a + 3 * 4 ^ k) 0) else none
  else if idx = 0x7000 then
    if sub = 5 then some s.colls.length else if sub = 6 then some s.earlyReserved
    else if sub = 7 then some (sumN (s.early.map (fun x => x.2.cells))) else none
  else if 0x7300 ≤ idx ∧ idx < 0x7310 then some (s.groupWord ((idx - 0x7300) * 256 + sub))
  else if 0x7800 ≤ idx ∧ idx < 0x7830 then (if sub = 2 then some ((s.steParcel (idx - 0x7800)).getD 0xFF) else none)
  else none

/-- The value of an object at one instant (R391), with a value that no command fixes drawn free (log 35). -/
def State.readValue (s : State) (idx sub : Nat) (r : ObjRow) : State × Nat :=
  if unfixed idx sub then
    let (f, s) := s.fresh
    (s, f % 2 ^ (8 * r.ty.size))
  else
    let s := if 0x7800 ≤ idx ∧ idx < 0x7830 ∧ sub = 9 then s.steBusy (idx - 0x7800) else s
    match s.derived idx sub with
    | some v => (s, v % 2 ^ (8 * r.ty.size))
    | none => (s, s.obj (objKey idx sub))

/-! ### Status codes (R392) -/

/-- OK. -/
def dsOk : Nat := 0
/-- NoObject. -/
def dsNoObject : Nat := 1
/-- ReadOnly. -/
def dsReadOnly : Nat := 2
/-- WriteOnly. -/
def dsWriteOnly : Nat := 3
/-- RunLocked. -/
def dsRunLocked : Nat := 4
/-- Range. -/
def dsRange : Nat := 5
/-- Length. -/
def dsLength : Nat := 6
/-- State. -/
def dsState : Nat := 7
/-- Auth. -/
def dsAuth : Nat := 8
/-- TooLarge. -/
def dsTooLarge : Nat := 9
/-- NotInView. -/
def dsNotInView : Nat := 10
/-- Busy. -/
def dsBusy : Nat := 11

/-- What a read gives: status, type code and value as sent. -/
structure ReadResult where
  status : Nat
  type : Nat
  value : Bytes
  deriving DecidableEq, Repr

/-- A read of one object (R388, R391): an RC object is cleared in the same instant, unless `keep`. The type told of an object that
does not exist is free (log 36). -/
def State.dictRead (s : State) (keep : Bool) (idx sub : Nat) : State × ReadResult :=
  match objRow idx sub with
  | none => (let (f, s) := s.fresh; (s, ⟨dsNoObject, f % 256, []⟩))
  | some r =>
    if r.acc = .wo ∨ r.acc = .cmd then (s, ⟨dsWriteOnly, r.ty.code, []⟩)
    else
      let (s, v) := s.readValue idx sub r
      let s := if r.acc = .rc ∧ !keep then s.setObj (objKey idx sub) 0 else s
      (s, ⟨dsOk, r.ty.code, wireOf r.ty v⟩)

end Sys2Proof.Machine
end

