-- ==== Sys2Proof/Machine/DictRules.lean ====
section
/-! DEFINITION. The rules of writes (R388, R392): owners of run-locked objects and the ranges of every writable object, each checked
against the values the other objects hold (R397). -/

namespace Sys2Proof.Machine

/-! ### Run lock (R388) -/

/-- The function that owns the RL objects of an index (R17, R111, R180, R181, R216 to R218, R241, R242, R259, R352, R354, R384,
R439). -/
def rlOwner (idx : Nat) : Nat :=
  if idx = 0x1100 then 3
  else if idx = 0x1200 then 2
  else if 0x4100 ≤ idx ∧ idx < 0x4104 then 8 + (idx - 0x4100)
  else if idx < 0x5000 then 4
  else if idx = 0x5000 then 5
  else if idx < 0x5200 then 8 + (idx - 0x5100)
  else if idx < 0x6200 then 8 + (idx - 0x6100)
  else if idx < 0x6300 then 8 + (idx - 0x6200)
  else if idx < 0x8000 then 8 + (idx - 0x6300)
  else 8 + (idx - 0x8300)

/-- INIT, RUNNING or STOPPING. -/
def State.locked (s : State) (f : Nat) : Bool := let v := s.fnState f; decide (v = 1) || decide (v = 3) || decide (v = 4)

/-- The parcel that a group entry names; an unused entry names none (R291, log 35). -/
def entryParcel (e : Nat) : Option Nat := if e % 256 = 0 then none else some (e / 256 % 256)

/-- A parcel that is RUNNING or STOPPING holds a group entry (R291). -/
def State.entryLocked (s : State) (e : Nat) : Bool :=
  match entryParcel e with | some n => s.parActive n | none => false

/-- Member-store entries of a list group: first and number (R291). -/
def entryList (e : Nat) : Nat × Nat := (e / 2 ^ 96 % 2 ^ 16, e / 2 ^ 112 % 2 ^ 16)

/-- A valid list group that covers member entry `i` belongs to an active parcel (R293). -/
def State.memberLocked (s : State) (i : Nat) : Bool :=
  s.groupEntries.any (fun e =>
    let (a, n) := entryList e.2
    decide (e.2 % 256 = 2) && decide (a ≤ i) && decide (i < a + n) && s.entryLocked e.2)

/-- Whether a write is refused RUN_LOCKED (R291, R293, R388). -/
def State.runLocked (s : State) (idx sub v : Nat) (acc : OAcc) : Bool :=
  if 0x7100 ≤ idx ∧ idx < 0x7110 then s.entryLocked (s.obj (objKey idx sub)) || s.entryLocked v
  else if 0x7200 ≤ idx ∧ idx < 0x7240 then s.memberLocked ((idx - 0x7200) * 256 + sub)
  else decide (acc = .rl) && s.locked (rlOwner idx)

/-! ### Rules that involve other objects -/

/-- Whether a bulk region in GiB is free for parcel n: apart from the other parcels' and below the spill reserve, whose place is
known once the modules are trained (R13, R179). -/
def State.regionOk (s : State) (n base size spill : Nat) : Bool :=
  decide (size = 0) ||
    ([0, 1, 2, 3].all (fun m =>
      let b := s.obj (Obj.par_BULK_BASE m)
      let z := s.obj (Obj.par_BULK_SIZE m)
      decide (m = n) || decide (z = 0) || decide (base + size ≤ b) || decide (b + z ≤ base))
    && (let c := s.obj Obj.mem_BULK_MODULE_GIB
        decide (c = 0) || decide (base + size ≤ 16 * c - spill)))

/-- The topology's layout ends at or before P125 (R200). -/
def layoutOk (dims : Nat) (size trunk : Nat → Nat) (spares : Nat) : Bool :=
  decide (sumN ((List.range dims).map (fun k => (size k - 1 + (if k = 0 then spares else 0)) * trunk k)) ≤ 125)

/-- The layout with one topology object replaced. -/
def State.topoOk (s : State) (sub v : Nat) : Bool :=
  let g (k : Nat) : Nat := if k = sub then v else s.obj (objKey 0x4000 k)
  layoutOk (g 1) (fun k => g (2 + k)) (fun k => g (6 + k)) (g 0x0A)

/-- S stays within the cell pool's critical level (R228), with the state as the write would leave it. -/
def State.creditOk (s : State) : Bool := decide (s.losslessSum ≤ s.critLevel 0)

/-- Data rate of a service port in Mb/s (R184). -/
def State.svcRate (s : State) (p : Nat) : Nat :=
  let m := s.obj (Obj.port_MODE p)
  if m = 4 then 800000 else if m = 5 then 400000 else if m = 6 then 200000 else if m = 7 then 100000 else 0

/-- The rules of a policer's settings, with the state as the write would leave it (R261). -/
def State.policerOk (s : State) (i : Nat) : Bool :=
  let m := s.obj (Obj.pol_MODE i)
  let cir := s.obj (Obj.pol_CIR i)
  let pir := s.obj (Obj.pol_PIR i)
  let rate := s.svcRate (125 + i / 8)
  decide (m ≤ 2) && decide (cir ≤ pir) && decide (cir ≤ rate) && decide (pir ≤ rate)
    && (decide (m = 0) || (decide (s.obj (Obj.pol_CBS i) ≠ 0) && decide (s.obj (Obj.pol_PBS i) ≠ 0)))

/-- The rules of a group table entry (R291). -/
def State.groupRule (s : State) (g e : Nat) : Bool :=
  let b (o n : Nat) : Nat := e / 2 ^ (8 * o) % 2 ^ (8 * n)
  let valid := b 0 1
  let n := b 1 1
  let rest := b 18 46
  let mask := s.obj (Obj.par_STE_MASK n)
  let engines := decide (1 ≤ b 17 1) && decide (b 17 1 ≤ 16) && (List.range (b 17 1)).all (fun i => decide (b 16 1 + i < 48) && mask.testBit (b 16 1 + i))
  let others := sumN ((s.groupEntries.filter (fun x => decide (x.1 ≠ Obj.grp_ENTRY g))).map (fun x => earlyOf x.2))
  let early := decide (others + b 2 2 ≤ 32768)
  if valid = 0 then decide (e = 0)
  else if valid = 1 then
    decide (n ≤ 3) && decide (rest = 0) && engines && early && decide (b 4 4 < 2 ^ 20) && decide (b 8 4 < 2 ^ 20) && decide (b 12 4 = 0)
      && [0, 1, 2, 3].all (fun k =>
        let lo := b 4 4 / 32 ^ k % 32
        let cnt := b 8 4 / 32 ^ k % 32
        if k < s.obj Obj.topo_TOPO_DIMS then decide (lo + cnt < s.obj (Obj.topo_SIZE k)) else decide (cnt = 0))
  else if valid = 2 then
    decide (n ≤ 3) && decide (rest = 0) && engines && early && decide (b 4 8 = 0) && decide (2 ≤ b 14 2) && decide (b 14 2 ≤ 1024)
      && decide (b 12 2 + b 14 2 ≤ 16384)
  else false

/-! ### Ranges, index by index -/

/-- The write of port objects (R183, R184, R216, R242, R353), with the state as it would leave it. -/
def State.portRule (s : State) (p sub v : Nat) : Bool :=
  if sub = 1 then (if p < 125 then decide (v ≤ 1) else decide (v = 0 ∨ v = 2))
  else if sub = 2 then (if p < 125 then decide (1 ≤ v ∧ v ≤ 3) else decide (4 ≤ v ∧ v ≤ 7))
  else if sub = 3 then decide (1 ≤ v ∧ v ≤ 3)
  else if sub = 0x22 then decide (v ≤ 4094)
  else if sub = 0x23 then decide (1280 ≤ v ∧ v ≤ 9216)
  else if sub = 0x30 then decide (1 ≤ v ∧ v ≤ 4) && s.creditOk
  else if sub = 0x68 then decide (v ≤ 1)
  else if sub = 0x6B then decide (-7 ≤ signed 8 v ∧ signed 8 v ≤ 1)
  else if sub = 0x6C then decide (-3 ≤ signed 8 v ∧ signed 8 v ≤ 3)
  else true

/-- The write of topology objects (R199, R200, R204, R217). -/
def State.topoRule (s : State) (sub v : Nat) : Bool :=
  if sub = 1 then decide (1 ≤ v ∧ v ≤ 4) && s.topoOk sub v
  else if 2 ≤ sub ∧ sub ≤ 5 then decide (2 ≤ v ∧ v ≤ 32) && s.topoOk sub v
  else if 6 ≤ sub ∧ sub ≤ 9 then decide (1 ≤ v ∧ v ≤ 4) && s.topoOk sub v
  else if sub = 0x0A then decide (v ≤ 1) && s.topoOk sub v
  else if sub = 0x0B then decide (v < 2 ^ 15)
  else if sub = 0x0C then decide (v ≤ 32)
  else if sub = 0x0D then decide (v ≤ 31 ∨ v = 0xFF)
  else if sub = 0x10 then decide (v ≤ 2)
  else if sub = 0x11 then decide (v ≠ 0)
  else true

/-- The write of pool thresholds, static limits and class settings (R228, R236, R241, R259), with the state as it would leave it. -/
def State.limitRule (s : State) (idx sub v : Nat) : Bool :=
  if idx = 0x4200 ∨ idx = 0x4201 then
    let g (k : Nat) : Nat := s.obj (objKey idx k)
    decide (0 < g 4) && decide (g 4 < g 5) && decide (g 5 < g 6) && (decide (idx ≠ 0x4200) || decide (sub ≠ 6) || s.creditOk)
  else if idx = 0x4202 then
    if 0x10 ≤ sub ∧ sub < 0x18 then decide (1 ≤ v ∧ v ≤ 4096) && s.creditOk
    else if 0x20 ≤ sub ∧ sub < 0x28 then decide (v ≠ 0)
    else if sub = 0x40 then decide (v < 64)
    else if sub = 0x41 ∨ sub = 0x42 then decide (32 ≤ s.obj Obj.lim_SPILL_START) && decide (s.obj Obj.lim_SPILL_RETURN < s.obj Obj.lim_SPILL_START)
    else true
  else
    if sub = 1 then s.creditOk
    else if 0x10 ≤ sub ∧ sub < 0x16 then decide (17 ≤ v)
    else if 0x20 ≤ sub ∧ sub < 0x30 then decide (v ≠ 0)
    else if sub = 0x30 ∨ sub = 0x31 then decide (s.obj Obj.cls_PFC_REFRESH * 100 < s.obj Obj.cls_PFC_QUANTA)
    else true

/-- The write of parcel objects (R13, R17, R111, R176, R384), with the state as it would leave it. -/
def State.parcelRule (s : State) (idx sub v : Nat) : Bool :=
  if idx < 0x5200 then
    let n := idx - 0x5100
    decide (s.obj (Obj.parmem_SHARD_GIB n) ≤ 32) && decide (s.obj (Obj.parmem_SHARD_OFFSET n) + 2 * s.obj (Obj.parmem_SHARD_GIB n) ≤ 127)
  else if idx < 0x6200 then
    let n := idx - 0x6100
    let apart (k : Nat → Nat) : Bool := [0, 1, 2, 3].all (fun m => decide (m = n) || decide (v &&& s.obj (k m) = 0))
    if sub = 1 then decide (v ≤ 2)
    else if sub = 2 then decide (v < 64) && apart Obj.par_DIE_MASK
    else if sub = 4 ∨ sub = 5 then
      s.regionOk n (s.obj (Obj.par_BULK_BASE n)) (s.obj (Obj.par_BULK_SIZE n)) (s.obj Obj.mem_SPILL_GIB)
    else if sub = 6 then decide (v < 2 ^ 48) && apart Obj.par_STE_MASK
    else if sub = 7 then decide (sumN ([0, 1, 2, 3].map (fun m => s.obj (Obj.par_SWITCH_SHARE m))) ≤ 64)
    else if sub = 9 then decide (v ≤ 1)
    else true
  else if idx < 0x6300 then decide (v ≠ 0)
  else if 0x8300 ≤ idx then
    if sub = 9 ∨ sub = 0x0A ∨ sub = 0x0F then decide (v ≠ 0) else true
  else true

/-- ASCII, left-aligned, unused bytes 0 (R387). -/
def strOk (bs : Bytes) : Bool :=
  bs.all (fun b => decide (b.toNat < 128)) && ((bs.dropWhile (fun b => decide (b ≠ 0))).all (fun b => decide (b = 0)))

/-- The write of management, time, power and security objects (R352, R382, R413, R414, R426, R430, R435, R439, R440), with the state
as it would leave it. -/
def State.mgmtRule (s : State) (idx sub v : Nat) : Bool :=
  if idx = 0x1000 then strOk (leBytes 64 v)
  else if idx = 0x1010 then decide (sub ≠ 4) || decide (10 ≤ v ∧ v ≤ 3600)
  else if idx = 0x1100 then
    if sub = 2 ∨ sub = 6 then decide (v ≤ 2)
    else if sub = 3 then decide (125 ≤ v ∧ v ≤ 143)
    else if sub = 7 ∨ sub = 8 then
      let i := s.obj Obj.time_SYNC_INTERVAL
      decide (16 ≤ i ∧ i ≤ 1024) && decide (8 * i ≤ s.obj Obj.time_DATUM_TIMEOUT)
    else if sub = 9 then decide (32 ≤ v)
    else true
  else if idx = 0x1200 then
    if sub = 8 then decide (4 ≤ v ∧ v ≤ 200)
    else if sub = 0x0C then decide (signed 16 v ≤ 1040)
    else if sub = 0x0E then decide (signed 16 v ≤ 940)
    else if sub = 0x0F then [16, 17, 18, 19, 20, 21, 22, 23, 24].any (fun i => decide (v = 2 ^ i))
    else true
  else if idx = 0x1320 then
    if sub = 1 then decide (v ≤ 15) else if sub = 3 then decide (v ≤ 3) else if sub = 4 then decide (v < 4) else true
  else if idx = 0x1340 then (if sub = 1 then decide (1 ≤ v ∧ v ≤ 4) else true)
  else if 0x2100 ≤ idx ∧ idx < 0x2110 then decide (sub ≠ 6) || decide (v ≤ 1)
  else true

/-- Whether the value of a write obeys its object's rules; `s` is the state as the write would leave it. -/
def State.rangeOk (s : State) (idx sub v : Nat) : Bool :=
  if idx < 0x3000 then s.mgmtRule idx sub v
  else if idx < 0x3090 then s.portRule (idx - 0x3000) sub v
  else if idx = 0x4000 then s.topoRule sub v
  else if idx < 0x4200 then true
  else if idx < 0x4400 then s.limitRule idx sub v
  else if idx < 0x4800 then (if sub = 2 then decide (v < 16) else if sub = 3 then decide (v < 64) else true)
  else if idx < 0x5000 then s.policerOk (idx - 0x4800)
  else if idx = 0x5000 then
    if sub = 1 then decide (v = 1 ∨ v = 2)
    else if sub = 7 then decide (v ≤ 64) && [0, 1, 2, 3].all (fun n => s.regionOk n (s.obj (Obj.par_BULK_BASE n)) (s.obj (Obj.par_BULK_SIZE n)) v)
    else if sub = 8 then decide (1 ≤ v ∧ v ≤ 168) else true
  else if idx < 0x6400 then s.parcelRule idx sub v
  else if idx = 0x6500 then
    if sub = 1 then decide (v ≤ 1) else if sub = 2 then decide (v ≤ 20)
    else if sub = 4 then decide (v < 0x7F800000 ∨ v = 0x80000000) else true
  else if idx = 0x6600 then (if sub = 1 then decide (v ≤ 1) else decide (v ≠ 0))
  else if idx = 0x7000 then
    let d := s.obj Obj.coll_DIRECT_MAX
    let t := s.obj Obj.coll_TRAVERSE_PIECE
    decide (256 ≤ d ∧ d ≤ 262144) && decide (s.obj Obj.coll_REPL_MAX ≤ d) && decide (d < s.obj Obj.coll_ACC_MIN)
      && decide (t % 256 = 0 ∧ 256 ≤ t ∧ t ≤ 262144)
  else if 0x7100 ≤ idx ∧ idx < 0x7110 then s.groupRule ((idx - 0x7100) * 256 + sub) v
  else if 0x7200 ≤ idx ∧ idx < 0x7240 then decide (v < 2 ^ 20)
  else if idx = 0x8200 then decide (sub ≠ 1) || decide (60 ≤ v ∧ v ≤ 86400)
  else s.parcelRule idx sub v

end Sys2Proof.Machine
end

