-- ==== Sys2Proof/Machine/Job.lean ====
section
/-! DEFINITION. The job of a parcel: its digest record (R348, R349), sequence numbers (R356), step boundaries (R169, R215),
JOB_START (R355), adoption (R366) and STEP_BEGIN (R357). -/

namespace Sys2Proof.Machine

/-! ### Digests and the digest record (R348, R349) -/

/-- An object of octets set. -/
def State.setOct (s : State) (k : Nat) (bs : Bytes) : State := s.setObj k (leNat bs)

/-- D0 (R348): the container's numerics edition, the three digests, the seed and the first step. -/
def State.digest0 (s : State) (n seed first : Nat) : Bytes :=
  sm3 ([0x56, 0x54, 0x44, 0x30] ++ leBytes 2 1 ++ s.octBytes (Obj.pardig_PROGRAM_DIGEST n) 32
    ++ s.octBytes (Obj.pardig_WEIGHTS_DIGEST n) 32 ++ s.octBytes (Obj.pardig_INPUT_DIGEST n) 32 ++ leBytes 8 seed ++ leBytes 4 first)

/-- Address bits [43:0] of the digest record (R349). -/
def State.recordAddr (s : State) (n : Nat) : Nat := bulkAddr (s.recordBa n)

/-- The 212 bytes of a digest record that are not padding (R349). -/
def State.recordBytes (s : State) (n : Nat) : Bytes := s.readBytes (s.recordAddr n) 212

/-- MAGIC of a record matches: it is not absent (R355). -/
def recPresent (r : Bytes) : Bool := decide (leAt r 0 4 = 0x44475352)

/-- VERSION and RECORD_DIGEST of a record match (R349). -/
def recSound (r : Bytes) : Bool := decide (leAt r 4 2 = 1) && decide (slice r 180 32 = sm3 (r.take 180))

/-- RESULT_STEP, the seed, D0 and Dn of a record. -/
def recStep (r : Bytes) : Nat := leAt r 8 4
/-- The seed of a record. -/
def recSeed (r : Bytes) : Nat := leAt r 172 8

/-- The three digests of a record are the parcel's (R355, R366). -/
def State.recMatches (s : State) (n : Nat) (r : Bytes) : Bool :=
  decide (slice r 12 32 = s.octBytes (Obj.pardig_PROGRAM_DIGEST n) 32) && decide (slice r 44 32 = s.octBytes (Obj.pardig_WEIGHTS_DIGEST n) 32)
    && decide (slice r 76 32 = s.octBytes (Obj.pardig_INPUT_DIGEST n) 32)

/-- The record as the parcel's objects and seed give it, written whole with zeros after it (R349). -/
def State.writeRecord (s : State) (n : Nat) : State :=
  let b := leBytes 4 0x44475352 ++ leBytes 2 1 ++ [0, 0] ++ leBytes 4 (s.obj (Obj.pardig_RESULT_STEP n))
    ++ s.octBytes (Obj.pardig_PROGRAM_DIGEST n) 32 ++ s.octBytes (Obj.pardig_WEIGHTS_DIGEST n) 32
    ++ s.octBytes (Obj.pardig_INPUT_DIGEST n) 32 ++ s.octBytes (Obj.pardig_JOB_DIGEST n) 32
    ++ s.octBytes (Obj.pardig_RESULT_DIGEST n) 32 ++ leBytes 8 (s.parcel n).seed.toNat
  (s.storeBytes (s.recordAddr n) (padTo 4096 (b ++ sm3 b))).1

/-- The objects that mirror a record, and its seed (R354, R355). -/
def State.mirrorRecord (s : State) (n : Nat) (r : Bytes) : State :=
  let s := s.setObj (Obj.pardig_RESULT_STEP n) (recStep r)
  let s := (s.setOct (Obj.pardig_JOB_DIGEST n) (slice r 108 32)).setOct (Obj.pardig_RESULT_DIGEST n) (slice r 140 32)
  s.modParcel n (fun p => { p with seed := BitVec.ofNat 64 (recSeed r) })

/-! ### Steps -/

/-- base(n, a) (R356). -/
def stepBase (n a : Nat) : Nat := n % 32768 * 131072 + a * 65536

/-- The step after the last committed one. -/
def State.nextStep (s : State) (n : Nat) : Nat := (s.obj (Obj.pardig_RESULT_STEP n) + 1) % 2 ^ 32

/-- A step boundary of a training parcel: the sums since the last one copied, and counting restarts (R169, R215); it is a decision
point of the parcel's dies (R436). -/
def State.boundary (s : State) (n : Nat) : State :=
  let s := { s with env := { s.env with due := (s.dies n).foldl (fun m k => m ||| 2 ^ k) s.env.due } }
  [(Obj.parmem_NEAR_REFRESH n, Obj.parmem_NEAR_REFRESH_STEP n), (Obj.parmem_BULK_REFRESH n, Obj.parmem_BULK_REFRESH_STEP n),
    (Obj.parfab_LU_REPLAYED n, Obj.parfab_LU_REPLAYED_STEP n)].foldl
    (fun (s : State) (e : Nat × Nat) => (s.setObj e.2 (s.obj e.1)).setObj e.1 0) s

/-! ### JOB_START (R355) -/

/-- The job group is one of the parcel's, and holds the device; a shadow is no member of it (R355, R367). Group entries hold no
NSLOT: an instance on it has NSLOT 0 (log 33). -/
def State.jobGroupOk (s : State) (n g : Nat) : Bool :=
  let e := s.groupOf g
  decide (g < 4096) && decide (e.valid ≠ 0) && decide (e.parcel = n) && (s.isShadow n || (s.groupMembers e).contains s.ownDev)

/-- Mode REPLAY: the seed and the objects come from the record, and the step runs as attempt 1. -/
def State.jobReplay (s : State) (n g : Nat) (r : Bytes) : State × List Nat :=
  let s := (s.mirrorRecord n r).setObj (Obj.res_JOB_GROUP n) g
  let s := s.modParcel n (fun p => { p with attempt := 1 })
  (s.setCseqs n (stepBase (s.nextStep n) 1), [1, s.nextStep n])

/-- Mode FRESH: D0 computed and the record written with RESULT_STEP one below the first step. -/
def State.jobFresh (s : State) (n seed first g : Nat) : State × List Nat :=
  let d0 := s.digest0 n seed first
  let s := (s.setOct (Obj.pardig_JOB_DIGEST n) d0).setOct (Obj.pardig_RESULT_DIGEST n) d0
  let s := (s.setObj (Obj.pardig_RESULT_STEP n) ((first + 2 ^ 32 - 1) % 2 ^ 32)).setObj (Obj.res_JOB_GROUP n) g
  let s := s.modParcel n (fun p => { p with seed := BitVec.ofNat 64 seed, attempt := 0 })
  ((s.writeRecord n).setCseqs n (stepBase first 0), [0, first])

/-- The record is damaged (R355, R365). -/
def State.recordDamaged (s : State) (n : Nat) : State := (s.restartNeeded n).advise (8 + n) (some n) 0x0903 0xFFFF (s.recordBa n)

/-- JOB_START's outcome from the parcel's state and record (R355). The first rows that hold, in the order JOB_ARGS,
RESTART_NEEDED, PARKED, REPLAY, FRESH (log 33). -/
def State.jobDecide (s : State) (n seed first g : Nat) : State × List Nat :=
  match s.firstBad false (s.recordAddr n) 212 with
  | some k => (((s.memUncorrected k).recordDamaged n), [3])
  | none =>
    let r := s.recordBytes n
    if !s.jobGroupOk n g then (s, [5])
    else if s.jobState n = 7 then (s, [3])
    else if recPresent r ∧ !recSound r then (s.recordDamaged n, [3])
    else if s.obj (Obj.parmem_PARK_STATE n) = 2 then
      let s := if recPresent r then s.mirrorRecord n r else s
      let s := (s.setObj (Obj.res_JOB_GROUP n) g).modParcel n (fun p => { p with attempt := 0 })
      (s.setCseqs n (stepBase (s.nextStep n) 0), [2, s.nextStep n])
    else if recPresent r ∧ (s.jobState n = 4 ∨ s.recMatches n r) then s.jobReplay n g r
    else s.jobFresh n seed first g

/-- Whether JOB_START adopts: ADOPT_FROM names a device, this is the first call since the parcel started, and the call is otherwise
good (R366). -/
def State.mustAdopt (s : State) (n g : Nat) : Bool :=
  decide (s.obj (Obj.res_ADOPT_FROM n) ≠ 0xFFFFFFFF) && !(s.parcel n).adopted && s.jobGroupOk n g && decide (s.jobState n ≠ 7)

/-- `lib.call` JOB_START: s1 the seed, s2 the first step, s3 the job group. The first core to call decides for all; a core that
has had the outcome and calls again starts a new decision. -/
def execJobStart (c : CoreId) (s : State) : Out :=
  .next (s.control c false [] (fun s =>
    let seed := s.argReg c 1
    let first := s.argReg c 2 % 2 ^ 32
    let g := s.argReg c 3 % 2 ^ 16
    match s.coreParcel c with
    | none => s
    | some n =>
      if s.parMode n ≠ 2 then
        let s := s.modParcel n (fun p => { p with seed := BitVec.ofNat 64 seed })
        (s.setOct (Obj.pardig_JOB_DIGEST n) (s.digest0 n seed first)).setResults c [0, first]
      else
        let p := s.parcel n
        if p.adopting.isSome then s.libWait c .adopt
        else
          match p.job with
          | some (l, cs) =>
            if cs.contains c.val then
              let (s, l) := s.jobDecide n seed first g
              (s.modParcel n (fun p => { p with job := some (l, [c.val]) })).setResults c l
            else (s.modParcel n (fun p => { p with job := some (l, c.val :: cs) })).setResults c l
          | none =>
            if s.mustAdopt n g then
              (s.modParcel n (fun p => { p with adopting := some [seed, first, g], adopted := true })).libWait c .adopt
            else
              let (s, l) := s.jobDecide n seed first g
              (s.modParcel n (fun p => { p with job := some (l, [c.val]) })).setResults c l))

/-! ### Adoption (R366) -/

/-- Cores of a parcel inside a routine that a test names. -/
def State.waiters (s : State) (n : Nat) (w : LibWait → Bool) : List Nat :=
  (s.parCores n).filter (fun c => match (s.core c).lib with | some x => w x | none => false)

/-- Waiting cores return. -/
def State.returnAll (s : State) (cs : List Nat) (l : List Nat) : State := cs.foldl (fun s c => s.libReturn c l) s

/-- Near-tier location of byte w of half h of stack k of parcel n (R159, R176). -/
def State.halfAddr (s : State) (n k h w : Nat) : Nat :=
  2 ^ 41 + k * 2 ^ 37 + (s.obj (Obj.parmem_SHARD_OFFSET n) + h * s.obj (Obj.parmem_SHARD_GIB n)) * 2 ^ 30 + w

/-- Memory locations of a run set to 0, and their errors with them. -/
def State.clearMem (s : State) (a n : Nat) : State := { s with mem := Sparse.clearRange s.mem a (a + n), bad := Sparse.clearRange s.bad a (a + n) }

/-- The stacks of a parcel in order. -/
def State.stacks (s : State) (n : Nat) : List Nat := (s.dies n).flatMap (fun k => [2 * k, 2 * k + 1])

/-- The replica's shard areas written into half ACTIVE_HALF of the same stacks (R366): bytes read that the command does not list are 0.
The command gives them by their place in the replica's windows. -/
def State.adoptShards (s : State) (n : Nat) (shards : List (BitVec 44 × Bytes)) : State :=
  let h := s.obj (Obj.parmem_ACTIVE_HALF n)
  let len := s.obj (Obj.parmem_SHARD_GIB n) * 2 ^ 30
  let s := (s.stacks n).foldl (fun (s : State) k => s.clearMem (s.halfAddr n k h 0) len) s
  shards.foldl (fun (s : State) e =>
    let a := e.1.toNat
    let o := addrOff a - winBase
    let w := o % 2 ^ 35
    if isWindow a ∧ (s.stacks n).contains (o / 2 ^ 35) ∧ w + e.2.length ≤ len then
      (s.storeBytes (s.halfAddr n (o / 2 ^ 35) h w) e.2).1
    else s) s

/-- The adoption ends: the replica's record must be valid and match, every check and get must have succeeded (`ok`), and its shards
and record become the parcel's (R366). -/
def execAdoptComplete (n : ParcelId) (record : Bytes) (shards : List (BitVec 44 × Bytes)) (ok : Bool) (s : State) : Out :=
  match if s.parState n = 3 ∧ s.jobState n ≠ 3 then (s.parcel n).adopting else none with
  | none => .next s
  | some args =>
    let g := args.getD 2 0
    let cs := s.waiters n (fun w => decide (w = .adopt))
    let s := s.modParcel n (fun p => { p with adopting := none })
    let (s, l) :=
      if ok && recPresent record && recSound record && s.recMatches n record then
        let s := (s.adoptShards n shards).setObj (Obj.res_ADOPT_FROM n) 0xFFFFFFFF
        let s := (s.storeBytes (s.recordAddr n) (padTo 4096 (record.take 212))).1
        s.jobReplay n g record
      else (s.advise (8 + n) (some n.val) 0x0904 0xFFFF (s.obj (Obj.res_ADOPT_FROM n)), [4])
    .next ((s.modParcel n (fun p => { p with job := some (l, cs) })).returnAll cs l)

/-! ### STEP_BEGIN (R357) -/

/-- The first STEP_BEGIN of a step. -/
def State.beginStep (s : State) (n step slot : Nat) : State :=
  let a := (s.parcel n).attempt
  let s := s.setCseqs n (stepBase step a + 1)
  let s := s.modParcel n (fun p =>
    { p with log := if a = 0 then [] else p.log.filter (fun e => decide (e.attempt ≠ 1)), logFull := false, stepErr := false,
             begun := some (step, slot) })
  ((s.setObj (Obj.res_STEP_IN_FLIGHT n) step).setObj (Obj.res_STEP_T0 n) slot).setJobState n (if a = 0 then 1 else 5)

/-- A core held to a slot, as `time.wait` holds it (R92). -/
def State.holdTo (s : State) (c slot : Nat) : State :=
  if s.now < slot * 1024 then (s.modCore c (fun k => { k with hold := .timeWait slot })).settle c
  else if slot * 1024 < s.now then s.countCore c 0x0F 1
  else s

/-- `lib.call` STEP_BEGIN: s1 the step, s2 the start slot. A serving parcel has no steps: what the routine returns there is a free
value (log 33). -/
def execStepBegin (c : CoreId) (s : State) : Out :=
  .next (s.control c false [] (fun s =>
    let step := s.argReg c 1 % 2 ^ 32
    let slot := s.argReg c 2
    match s.coreParcel c with
    | none => s
    | some n =>
      if s.parMode n ≠ 2 then
        let (v, s) := s.fresh
        s.setResults c [v]
      else if step ≠ s.nextStep n then s.setResults c [1]
      else
        match (s.parcel n).begun with
        | some (m, t) => if m = step ∧ t = slot then (s.setResults c [0]).holdTo c slot else s.setResults c [2]
        | none => ((s.beginStep n step slot).setResults c [0]).holdTo c slot))

end Sys2Proof.Machine
end

