-- ==== Sys2Proof/Machine/Commit.lean ====
section
/-! DEFINITION. STEP_COMMIT and the commit (R358 to R361), STEP_REPLAY and the ready agreement (R363), shadows (R367, R368), and
the end of a rollback (R362). -/

namespace Sys2Proof.Machine

/-! ### Instances on the job group (R360, R363) -/

/-- A one-dimensional descriptor of `count` elements. -/
def lineDesc (f : Fmt) (anchor : Int) (terms count : Nat) : Desc :=
  { base := 0, scaleBase := 0, tensorId := 0, blockSize := 0, scaleMode := 0, format := f.code, round := 0, anchorSrc := 0,
    rankM1 := 0, sparseForm := 0, groupM := 0, groupN := 0, anchor := anchor, terms := terms, srTerms := 0, tscale := 0,
    divisorM1 := 0, packedLen := 0, ext := (count, 1, 1, 1), stride := (0, 0, 0), origin := 0, lext := (count, 1, 1, 1),
    metaBase := 0, rsv := false }

/-- The device's rank in the job group (R292). -/
def State.jobRank (s : State) (n : Nat) : Nat :=
  ((s.groupMembers (s.groupOf (s.obj (Obj.res_JOB_GROUP n)))).findIdx? (fun d => decide (d = s.ownDev))).getD 0

/-- An instance on the job group on TC7, begun at once with the elements given. -/
def State.jobColl (s : State) (n : Nat) (who : CollFor) (opts : Nat) (src dst : Desc) (codes : List Nat) : Coll :=
  let g := s.obj (Obj.res_JOB_GROUP n)
  let e := s.groupOf g
  let ms := s.groupMembers e
  let rank := s.jobRank n
  let b := ceilDiv (src.count * src.fmt.width) 8
  let algo := chooseAlgo 1 0 e.box e.single ms.length b false false (decide (src.count % (64 * max ms.length 1) = 0))
    (s.obj Obj.coll_DIRECT_MAX) (s.obj Obj.coll_ACC_MIN)
  { parcel := n, group := g, cseq := (s.groupSt g).next, core := (s.mapped n).headD 0, by_ := who, record := 0, kind := 1,
    algo := if who = .ready then 1 else algo, tc := 7, opts := opts, slot := 0xFFFF, role := 0, nslot := 0, flag := 0, pflag := 0,
    dim := 0, delta := 0, root := 0, deadline := 0, force := 0, perm := [], src := src, dst := dst, acc := dst, members := ms,
    rank := rank, dims := e.cdims rank, replicate := who = .ready || decide (b ≤ s.obj Obj.coll_REPL_MAX), startSlot := s.slot,
    begun := false, startAt := s.now, rounds := [], sent := false, codes := codes, scales := [], cur := none, curLo := 0,
    result := [], resScale := [], anchor := dst.anchor, mini := [], lost := 0, mask := none, landed := [], out := [], owed := [],
    status := 0, excess := 0, digest := List.replicate 32 0, failed := false, written := false }

/-! ### The local step digest and the vote (R358 to R360) -/

/-- An entry of the step log as its 56 bytes (R358). -/
def LogEntry.bytes (e : LogEntry) : Bytes :=
  leBytes 2 e.group ++ [0, 0] ++ leBytes 4 e.k ++ leBytes 8 e.mask ++ leBytes 4 e.included ++ leBytes 1 e.status ++ leBytes 1 e.excess
    ++ leBytes 2 e.anchor ++ padTo 32 e.digest

/-- An entry inserted in ascending group and K (R358). -/
def insertEntry (e : LogEntry) : List LogEntry → List LogEntry
  | [] => [e]
  | x :: l => if e.group < x.group ∨ (e.group = x.group ∧ e.k ≤ x.k) then e :: x :: l else x :: insertEntry e l

/-- The log entries of the attempt in flight in order. -/
def Parcel.entries (p : Parcel) : List LogEntry :=
  (p.log.filter (fun e => decide (e.attempt = p.attempt))).foldl (fun l e => insertEntry e l) []

/-- L (R358). -/
def Parcel.localDigest (p : Parcel) (r : CommitRec) : Bytes :=
  sm3 (leBytes 4 r.n ++ p.entries.flatMap LogEntry.bytes ++ r.digests)

/-- The vote (R359, R360). -/
def Parcel.vote (p : Parcel) (r : CommitRec) : Bool :=
  !p.logFull && !p.stepErr && p.entries.all (fun e =>
    decide (e.status ≠ 4) && decide (e.status ≠ 3) && (decide (e.status ≠ 2) || r.opts.testBit 0))

/-- Code of a small integer as FP32. -/
def fp32Nat (i : Nat) : Nat := (encodeElem .fp32 false none (.ofQ false (Q.int i))).code

/-- The 33 elements of a vote (R360). -/
def voteCodes (rank : Nat) (l : Bytes) (vote : Bool) : List Nat :=
  ((sm3 (leBytes 4 rank ++ l)).map (fun b => fp32Nat b.toNat)) ++ [fp32Nat (b2n vote)]

/-! ### STEP_COMMIT (R360) -/

/-- A STEP_COMMIT call gathered; the digests are those of the lowest-numbered mapped core (log 33). -/
def State.joinCommit (s : State) (n c step tc opts : Nat) (ds : Bytes) : State :=
  let first := decide ((s.mapped n).head? = some c)
  s.modParcel n (fun p =>
    let r := p.commit.getD ⟨step, tc, opts, ds, [], none, 0, false⟩
    { p with commit := some { r with cores := c :: r.cores.erase c, digests := if first then ds else r.digests } })

/-- `lib.call` STEP_COMMIT: s1 the step, s2 the commit slot, s3 the options, s4 a count of digests, s5 their SRAM offset. -/
def execStepCommit (c : CoreId) (s : State) : Out :=
  let count := s.argReg c 4
  let off := s.argReg c 5
  let faults := need (decide (count ≤ 64) && decide (s.argReg c 3 ≤ 1)) fFmtCombo ++ sramCheck off (32 * min count 64) 1
  .next (s.control c false faults (fun s =>
    match s.coreParcel c with
    | none => s
    | some n =>
      if s.parMode n ≠ 2 then
        let (v, s) := s.fresh
        s.setResults c [v]
      else (s.joinCommit n c (s.argReg c 1 % 2 ^ 32) (s.argReg c 2) (s.argReg c 3) (s.readBytes (sramAddr c off) (32 * count))).libWait c .commit))

/-- Every mapped core has called. -/
def State.allIn (s : State) (n : Nat) (cs : List Nat) : Bool := (s.mapped n).all (fun c => cs.contains c)

/-- Every queue of every mapped core is empty. -/
def State.allIdle (s : State) (n : Nat) : Bool := (s.mapped n).all (fun c => (s.core c).idle)

/-- Every instance of the parcel off the job group has completed (R360). -/
def State.stepInstancesDone (s : State) (n : Nat) : Bool :=
  s.colls.all (fun x => decide (x.parcel ≠ n) || decide (x.group = s.obj (Obj.res_JOB_GROUP n)) || x.written || x.failed)

/-- The commit begins: the accumulate units flushed, L and the vote, and the instance that carries them; a shadow starts none
(R360, R367). -/
def State.beginCommit (s : State) (n : Nat) (r : CommitRec) : State :=
  let s := s.flushUnits n
  let p := s.parcel n
  let l := p.localDigest r
  let v := p.vote r
  let s := ((s.setObj (Obj.res_LOCAL_STEP n) r.n).setOct (Obj.res_LOCAL_STEP_DIGEST n) l).setJobState n 2
  if s.isShadow n then s.modParcel n (fun p => { p with commit := some { r with startAt := s.now, vote := v } })
  else
    let members := (s.groupMembers (s.groupOf (s.obj (Obj.res_JOB_GROUP n)))).length
    let x := s.jobColl n .commit 1 (lineDesc .fp32 0 1 33) (lineDesc .da128 16 members 33) (voteCodes (s.jobRank n) l v)
    (s.modParcel n (fun p => { p with commit := some { r with startAt := s.now, vote := v, cseq := some x.cseq } })).collOpen x

/-- COMMIT_BEGIN: the last call has arrived, every queue is empty and every logged instance has completed. -/
def execCommitBegin (n : ParcelId) (s : State) : Out :=
  match (s.parcel n).commit with
  | some r =>
    .next (if (s.jobState n = 1 ∨ s.jobState n = 5) ∧ s.allIn n r.cores ∧ s.allIdle n ∧ s.stepInstancesDone n then s.beginCommit n r else s)
  | none => .next s

/-! ### The decision (R360, R367, R368) -/

/-- The instance of a commit in progress. -/
def State.commitColl (s : State) (n : Nat) (r : CommitRec) : Option Coll := r.cseq.bind (fun q => s.collOf (s.obj (Obj.res_JOB_GROUP n)) q)

/-- The integers of a commit instance's result. -/
def Coll.sums (c : Coll) : List Int := (c.resCodes 0 33).map (fun w => wordInt 16 (Da.unpack w))

/-- The agreed step digest (R360). -/
def agreedDigest (step : Nat) (sums : List Int) : Bytes :=
  sm3 (leBytes 4 step ++ (sums.take 32).flatMap (fun x => leBytes 8 x.toNat))

/-- The commit is decided in the present slot. -/
def State.decideCommit (s : State) (n : Nat) : State := s.modParcel n (fun p => { p with decided := some s.slot })

/-- The step does not commit (R361, R362, R378): entered as step-fatal, which rolls the parcel back. -/
def State.commitFails (s : State) (n code : Nat) (step : Nat) : State :=
  (s.modParcel n (fun p => { p with commit := none })).raise ⟨2, 8 + n, some n, code, 0xFFFF, step⟩

/-- A shadow whose digest differs from the target's (R368). -/
def State.shadowMismatch (s : State) (n step : Nat) : State :=
  let s := (s.setObj (Obj.res_SHADOW_STATE n) 3).setObj (Obj.res_SHADOW_MATCHES n) 0
  ((s.advise (8 + n) (some n) 0x0906 0xFFFF step).haltParcel n).setFnState (8 + n) 5

/-- Fabric Time at which COMMIT_TIMEOUT slots have passed since a commit's instance started (R360). -/
def State.commitDue (s : State) (n : Nat) (r : CommitRec) : Nat := r.startAt + s.obj (Obj.res_COMMIT_TIMEOUT n) * 1024

/-- COMMIT_DECIDE, within COMMIT_TIMEOUT. `target` is what the management processor of a shadow reads of its target: LOCAL_STEP, LOCAL_STEP_DIGEST and
RESULT_STEP (R367); the instance decides for any other parcel. -/
def execCommitDecide (n : ParcelId) (target : Option (BitVec 32 × Bytes × BitVec 32)) (s : State) : Out :=
  match (s.parcel n).commit with
  | none => .next s
  | some r =>
    if s.jobState n ≠ 2 ∨ (s.parcel n).decided.isSome ∨ s.commitDue n r < s.now then .next s
    else if s.isShadow n then
      match target with
      | none => .next s
      | some (step, digest, result) =>
        if step.toNat ≠ r.n then .next s
        else if digest ≠ s.octBytes (Obj.res_LOCAL_STEP_DIGEST n) 32 then .next (s.shadowMismatch n r.n)
        else .next (if r.n ≤ result.toNat then s.decideCommit n else s)
    else
      match s.commitColl n r with
      | none => .next s
      | some c =>
        if !c.complete then .next s
        else
          let s := if c.written then s else s.finishColl c
          match s.commitColl n r with
          | none => .next s
          | some c =>
            .next (if c.status = 0 ∧ c.sums.getD 32 0 = (c.n : Int) then s.decideCommit n
              else (s.dropColl c.group c.cseq).commitFails n 0x0902 r.n)

/-- Whether a commit's instance completed in time, so that its decision is still COMMIT_DECIDE's (R360). -/
def State.commitInTime (s : State) (n : Nat) (r : CommitRec) : Bool :=
  decide (s.now ≤ s.commitDue n r) && (match s.commitColl n r with | some c => c.complete | none => false)

/-- COMMIT_TIMEOUT: the instance has not completed within COMMIT_TIMEOUT slots of its start; a shadow is interrupted (R360, R368). -/
def execCommitTimeout (n : ParcelId) (s : State) : Out :=
  match (s.parcel n).commit with
  | none => .next s
  | some r =>
    if s.jobState n ≠ 2 ∨ (s.parcel n).decided.isSome ∨ s.commitInTime n r then .next s
    else
      let due := s.commitDue n r
      let t := s.advanceTo due
      .next (if t.now < due then s
        else if t.isShadow n then t.shadowInterrupted n
        else
          let t := match r.cseq with | some q => t.dropColl (t.obj (Obj.res_JOB_GROUP n)) q | none => t
          t.commitFails n 0x0901 r.n)

/-! ### The flip (R361) -/

/-- The slot of a flip: Tc, or the first slot after the decision when that comes later. -/
def flipSlot (tc decided : Nat) : Nat := if decided < tc then tc else decided + 1

/-- A shadow's match (R368). -/
def State.shadowMatch (s : State) (n : Nat) : State :=
  let m := Nat.min 255 (s.obj (Obj.res_SHADOW_MATCHES n) + 1)
  let s := s.setObj (Obj.res_SHADOW_MATCHES n) m
  if s.obj (Obj.res_SHADOW_NEEDED n) ≤ m then s.setObj (Obj.res_SHADOW_STATE n) 2 else s

/-- The committed step takes effect: flip, records, sequence numbers, returns (R348, R361). `agreed` is the agreed step digest. -/
def State.commitStep (s : State) (n : Nat) (r : CommitRec) (decided : Nat) (agreed : Bytes) : State :=
  let late := (s.parcel n).late
  let s := (s.setObj (Obj.parmem_ACTIVE_HALF n) (1 - s.obj (Obj.parmem_ACTIVE_HALF n))).bump (Obj.parmem_FLIPS n)
  let s := if r.tc ≤ decided then s.bump (Obj.res_COMMIT_LATE n) else s
  let dn := sm3 (s.octBytes (Obj.pardig_RESULT_DIGEST n) 32 ++ leBytes 4 r.n ++ agreed)
  let s := ((s.setOct (Obj.pardig_RESULT_DIGEST n) dn).setObj (Obj.pardig_RESULT_STEP n) r.n).setOct (Obj.res_AGREED_STEP_DIGEST n) agreed
  let s := (s.setObj (Obj.res_LAST_COMMIT_SLOT n) s.slot).writeRecord n
  let s := s.setCseqs n (stepBase (r.n + 1) 0)
  let s := (s.bump (Obj.res_COMMITS n)).boundary n
  let s := s.modParcel n (fun p => { p with attempt := 0, begun := none, commit := none, decided := none, stepErr := false, late := false })
  let s := if late then s else s.setObj (Obj.ferr_HANDLING (8 + n)) 0
  let s := (s.setJobState n 1).returnAll (s.waiters n (fun w => decide (w = .commit))) [0]
  -- an error entered after the vote belongs to the next step, and rolls it back (R360)
  if late then s.stepFatal n else s

/-- COMMIT_FLIP at its slot. A shadow takes no part in the agreement: the agreed digest it chains is a free value (log 33). -/
def execCommitFlip (n : ParcelId) (s : State) : Out :=
  match (s.parcel n).commit, (s.parcel n).decided with
  | some r, some d =>
    let slot := flipSlot r.tc d
    let t := s.advanceTo (slot * 1024)
    if t.now < slot * 1024 ∨ s.jobState n ≠ 2 then .next s
    else if t.isShadow n then
      let (v, t) := t.fresh
      .next ((t.commitStep n r d (leBytes 32 v)).shadowMatch n)
    else
      match t.commitColl n r with
      | some c => .next ((t.dropColl c.group c.cseq).commitStep n r d (agreedDigest r.n c.sums))
      | none => .next s
  | _, _ => .next s

/-! ### The ready agreement (R363) -/

/-- The 35 values of a member. -/
def State.readyValues (s : State) (n : Nat) : List Int :=
  let step : Int := s.obj (Obj.pardig_RESULT_STEP n)
  halfwords (s.octBytes (Obj.pardig_RESULT_DIGEST n) 32) ++ [step, -step, ((s.slot + s.obj (Obj.res_RESUME_MARGIN n) : Nat) : Int)]

/-- The ready agreement starts. -/
def State.readyStart (s : State) (n : Nat) : State :=
  let d := lineDesc .da128 60 1 35
  let codes := (s.readyValues n).map (fun v => (mkTerm .da128 60 (.ofQ false (Q.int v))).word.pack)
  let x := s.jobColl n .ready 0 d d codes
  (s.modParcel n (fun p => { p with ready := some x.cseq })).collOpen x

/-- A call of a routine that every mapped core must make, with its instant when it is the first. -/
def State.joinCall (s : State) (n c : Nat) : State :=
  s.modParcel n (fun p => { p with calls := c :: p.calls.erase c, callsAt := if p.calls = [] then s.now else p.callsAt })

/-- `lib.call` STEP_REPLAY. The first call is a step boundary (R169); the last starts the agreement. -/
def execStepReplay (c : CoreId) (s : State) : Out :=
  .next (s.control c false [] (fun s =>
    match s.coreParcel c with
    | none => s
    | some n =>
      if s.parMode n ≠ 2 then
        let (v, s) := s.fresh
        s.setResults c [v]
      else
        let s := if (s.parcel n).calls = [] then s.boundary n else s
        let s := (s.joinCall n c).libWait c .ready
        if (s.parcel n).ready = none ∧ s.allIn n (s.parcel n).calls then s.readyStart n else s))

/-- RESUME_TIMEOUT slots have passed since the start of the agreement (R363). -/
def execResumeTimeout (n : ParcelId) (s : State) : Out :=
  match (s.parcel n).ready.bind (fun q => s.collOf (s.obj (Obj.res_JOB_GROUP n)) q) with
  | none => .next s
  | some c =>
    let due := s.resumeDue c
    let t := s.advanceTo due
    .next (if t.now < due ∨ (c.complete ∧ s.now ≤ due) then s else (t.dropColl c.group c.cseq).readyEnd n false 0)

/-! ### Rollback (R362) -/

/-- Started operations other than the TXE's have all completed. -/
def State.enginesDone (s : State) (n : Nat) : Bool :=
  (s.mapped n).all (fun c => let k := s.core c; k.mxe.isEmpty && k.vxe.isEmpty && k.spe.isEmpty)

/-- Fabric Time at which the last unanswered request of a parcel's cores expires. -/
def State.lastExpiry (s : State) (n : Nat) : Nat :=
  maxN ((s.mapped n).flatMap (fun c => (s.core c).txe.map (fun e => e.startAt + s.remoteTime c)))

/-- Every response has arrived or expired: the requests left are dropped (R362 step 4). -/
def State.expireRequests (s : State) (n : Nat) : State :=
  (s.mapped n).foldl (fun s c => s.modQueue c .txe (fun _ => [])) (s.advanceTo (s.lastExpiry n))

/-- Steps 4 to 6 of a rollback. -/
def State.rollbackTail (s : State) (n : Nat) : State :=
  let s := (s.expireRequests n).flushUnits n
  let s := s.setCseqs n (stepBase (s.nextStep n) 1)
  let s := (s.setJobState n 4).bump (Obj.res_ROLLBACKS n)
  s.modParcel n (fun p =>
    { p with attempt := 1, begun := none, commit := none, decided := none, late := false, job := none, adopting := none, calls := [], ready := none })

/-- Phase 4 of a reclaim begins (R369). -/
def State.parkPhase (s : State) (n : Nat) : State :=
  let s := if s.jobState n = 7 then s else (s.setJobState n 6).setObj (Obj.parmem_PARK_STATE n) 1
  s.modParcel n (fun p => { p with reclaim := 3 })

/-- ROLLBACK_COMPLETE: the rest of the rollback; where a reclaim's slot has fallen meanwhile the cores are not restarted, and the
reclaim goes on at its phase 3 (R370). -/
def execRollbackComplete (n : ParcelId) (s : State) : Out :=
  if s.jobState n = 3 ∧ s.parActive n ∧ s.enginesDone n then
    let s := s.rollbackTail n
    .next (if (s.parcel n).reclaim = 2 then s.parkPhase n else s.restartCores n)
  else .next s

end Sys2Proof.Machine
end

