-- ==== Sys2Proof/Machine/Reclaim.lean ====
section
/-! DEFINITION. Park images (R178), PARK and RESTORE (R372), reclaim (R369, R370), and the commands ROLLBACK, RECLAIM and JOB_RESET
(R365, R384). -/

namespace Sys2Proof.Machine

/-! ### The park image (R178) -/

/-- P in GiB for n dies: ⌈256.375 × n⌉ (R16). -/
def parkGib (n : Nat) : Nat := ceilDiv (2051 * n) 8

/-- Bytes of one die image: 256.375 GiB. -/
def dieImage : Nat := 2051 * 2 ^ 27

/-- Bulk address of a park image. -/
def State.parkBase (s : State) (n : Nat) : Nat :=
  (s.obj (Obj.par_BULK_BASE n) + s.obj (Obj.par_BULK_SIZE n) - parkGib (s.dies n).length) * 2 ^ 30

/-- Bytes of a park image: the 64 MiB header and the die images. -/
def State.parkLen (s : State) (n : Nat) : Nat := 2 ^ 26 + (s.dies n).length * dieImage

/-- Offset in the die images of a location of the parcel's stacks and core SRAM; none for any other location. -/
def State.imageOff (s : State) (n k : Nat) : Option Nat :=
  let o := addrOff k
  if addrSpace k = 1 ∧ o < 12 * 2 ^ 37 then
    ((s.dies n).findIdx? (fun d => decide (d = o / 2 ^ 38))).map (fun i => i * dieImage + o % 2 ^ 38)
  else if addrSpace k = 0 ∧ o < 1152 * 2 ^ 21 then
    ((s.dies n).findIdx? (fun d => decide (d = o / 2 ^ 21 / 192))).map (fun i => i * dieImage + 2 ^ 38 + o % (192 * 2 ^ 21))
  else none

/-- The location that an offset in the die images holds. -/
def State.imageLoc (s : State) (n o : Nat) : Option Nat :=
  ((s.dies n)[o / dieImage]?).map (fun d =>
    let r := o % dieImage
    if r < 2 ^ 38 then 2 ^ 41 + d * 2 ^ 38 + r else d * 192 * 2 ^ 21 + (r - 2 ^ 38))

/-- Whether a location lies in a run of the bulk tier. -/
def inBulkRun (lo len k : Nat) : Bool :=
  (decide (addrSpace k = 2) || decide (addrSpace k = 3)) && decide (lo ≤ bulkOf k) && decide (bulkOf k < lo + len)

/-- Locations listed in memory moved through a map: the destination is cleared, its errors with it, and takes the bytes. -/
def State.copyRegion (s : State) (dest : Nat → Bool) (f : Nat → Option Nat) : State :=
  let moved := s.mem.filterMap (fun e => (f e.1).map (fun k => (k, e.2)))
  { s with mem := moved.foldl (fun m e => Sparse.set 0 m e.1 e.2) (s.mem.filter (fun e => !dest e.1)),
           bad := s.bad.filter (fun e => !dest e.1) }

/-- The first unit with an uncorrectable error that a test names. -/
def State.badIn (s : State) (p : Nat → Bool) : Option Nat := (s.bad.map Prod.fst).find? p

/-- The stacks and core SRAM of the parcel copied into the die images; the header bytes become 0. -/
def State.parkCopy (s : State) (n : Nat) : State :=
  let base := s.parkBase n
  s.copyRegion (inBulkRun base (s.parkLen n)) (fun k => (s.imageOff n k).map (fun o => bulkAddr (base + 2 ^ 26 + o)))

/-- The header, written last: STEP is RESULT_STEP. -/
def State.parkHeader (s : State) (n : Nat) : State :=
  let h := leBytes 4 0x4B524150 ++ leBytes 2 1 ++ leBytes 1 (s.obj (Obj.par_DIE_MASK n)) ++ leBytes 1 (s.obj (Obj.parmem_ACTIVE_HALF n))
    ++ leBytes 4 (s.obj (Obj.pardig_RESULT_STEP n)) ++ leBytes 1 (s.obj (Obj.parmem_SHARD_OFFSET n))
    ++ leBytes 1 (s.obj (Obj.parmem_SHARD_GIB n)) ++ [0, 0] ++ leBytes 8 (s.parcel n).seed.toNat ++ List.replicate 8 0
  ((s.writeBytes (bulkAddr (s.parkBase n)) (h ++ sm3 h)).setObj (Obj.parmem_PARK_STEP n) (s.obj (Obj.pardig_RESULT_STEP n))).setObj
    (Obj.parmem_PARK_STATE n) 2

/-- The image and its header written; an uncorrectable error met in what is parked leaves the header unwritten (R167, R370). -/
def State.park (s : State) (n : Nat) : State × Bool :=
  match s.badIn (fun k => (s.imageOff n k).isSome) with
  | some k => (s.memUncorrected k, false)
  | none => ((s.parkCopy n).parkHeader n, true)

/-! ### PARK and RESTORE (R94, R178, R372) -/

/-- `lib.call` PARK. The last call of the mapped cores parks the parcel; the manual gives the routine no result, so the status
returned is a free value (log 33). -/
def execPark (c : CoreId) (s : State) : Out :=
  .next (s.control c false [] (fun s =>
    match s.coreParcel c with
    | none => s
    | some n =>
      if s.parMode n ≠ 2 then
        let (v, s) := s.fresh
        s.setResults c [v]
      else
        let s := (s.joinCall n c).libWait c .park
        if s.allIn n (s.parcel n).calls then
          let s := (s.modParcel n (fun p => { p with calls := [] })).flushUnits n
          let s := ((s.setObj (Obj.parmem_PARK_STATE n) 1).park n).1
          let (v, s) := s.fresh
          s.returnAll (s.waiters n (fun w => decide (w = .park))) [v]
        else s))

/-- Whether a park header is one that RESTORE takes: MAGIC, VERSION, as many dies as the parcel holds, and HEADER_DIGEST, with the
STEP and SEED of the digest record (R178, R371, R372). -/
def State.headerOk (s : State) (n : Nat) (h r : Bytes) : Bool :=
  decide (leAt h 0 4 = 0x4B524150) && decide (leAt h 4 2 = 1)
    && decide (((List.range 6).filter (fun k => (byteAt h 6).testBit k)).length = (s.dies n).length)
    && decide (slice h 32 32 = sm3 (h.take 32)) && recPresent r && recSound r
    && decide (leAt h 8 4 = recStep r) && decide (leAt h 16 8 = recSeed r)

/-- The image read back, and the parcel made ready for a replay (R372). RESTORE_UNITS is a duration the manual leaves to the device: a
free value (log 33). -/
def State.restore (s : State) (n : Nat) : State × List Nat :=
  let base := s.parkBase n
  let h := s.readBytes (bulkAddr base) 64
  let r := s.recordBytes n
  let failed (s : State) : State × List Nat := (s.restartNeeded n, [1])
  match s.badIn (fun k => inBulkRun base (s.parkLen n) (k) || inBulkRun (s.recordBa n) 4096 k) with
  | some k => failed (s.memUncorrected k)
  | none =>
    if !s.headerOk n h r then failed s
    else
      let s := s.copyRegion (fun k => (s.imageOff n k).isSome) (fun k =>
        if inBulkRun (base + 2 ^ 26) (s.parkLen n - 2 ^ 26) k then s.imageLoc n (bulkOf k - base - 2 ^ 26) else none)
      let s := (s.mirrorRecord n r).setObj (Obj.parmem_ACTIVE_HALF n) (byteAt h 7 % 2)
      let s := ((s.setObj (Obj.parmem_PARK_STEP n) (recStep r)).setObj (Obj.parmem_PARK_STATE n) 0).setJobState n 4
      let s := (s.modParcel n (fun p => { p with attempt := 1 })).setCseqs n (stepBase (s.nextStep n) 1)
      let (v, s) := s.fresh
      (s.setObj (Obj.res_RESTORE_UNITS n) (v % 2 ^ 64), [0])

/-- `lib.call` RESTORE: the last call of the mapped cores restores. -/
def execRestore (c : CoreId) (s : State) : Out :=
  .next (s.control c false [] (fun s =>
    match s.coreParcel c with
    | none => s
    | some n =>
      if s.parMode n ≠ 2 then
        let (v, s) := s.fresh
        s.setResults c [v]
      else
        let s := (s.joinCall n c).libWait c .restore
        if s.allIn n (s.parcel n).calls then
          let (s, l) := (s.modParcel n (fun p => { p with calls := [] })).restore n
          s.returnAll (s.waiters n (fun w => decide (w = .restore))) l
        else s))

/-! ### Reclaim (R369, R370) -/

/-- Bytes of runs given free values, one each (log 6). -/
def State.scramble (s : State) (rs : List (Nat × Nat)) : State :=
  rs.foldl (fun (s : State) r => (List.range r.2).foldl (fun (s : State) i =>
    let (v, s) := s.fresh
    s.pokeByte (s.resolve true (r.1 + i)) (BitVec.ofNat 8 v)) s) s

/-- A started `mxe.mmg` that still awaits pieces is ended, its output not guaranteed (R369). -/
def State.endWaiting (s : State) (c : Nat) : State :=
  let k := s.core c
  match k.mxe with
  | e :: _ =>
    if e.phase = .started ∧ !k.canComplete e then
      match e.op with
      | .mmg d .. => (s.scramble d.allRegions).dropEntry c .mxe 0
      | _ => s
    else s
  | [] => s

/-- Phase 1 (R369). -/
def State.abandon (s : State) (n : Nat) : State :=
  let s := if s.jobState n = 7 then s else s.setJobState n 6
  let s := (s.mapped n).foldl State.endWaiting (s.haltParcel n)
  s.modParcel n (fun p => { p with reclaim := 2, reclaimAt := s.now, commit := none, decided := none, adopting := none, ready := none, calls := [] })

/-- RECLAIM_AT_TR: a parcel that is committing waits for its decision, and in a rollback the reclaim goes on when that has run to its
step 6 (R369, R370). -/
def execReclaimAtTr (n : ParcelId) (s : State) : Out :=
  let p := s.parcel n
  if p.reclaim ≠ 1 then .next s
  else
    let due := p.reclaimSlot * 1024
    let t := s.advanceTo due
    .next (if t.now < due then s
      else if t.jobState n = 2 then t
      else if t.jobState n = 3 then t.modParcel n (fun p => { p with reclaim := 2, reclaimAt := t.now })
      else t.abandon n)

/-- Packets of a job queued toward the device's own units discarded (R369). -/
def State.discardJob (s : State) (job : Nat) : State :=
  let hit (k : Packet) : Bool := decide (job ≠ 0) && decide (k.job.toNat = job) && !k.resp
  let s := { s with inbox := s.inbox.filter (fun x => !hit x.2) }
  (s.sw.queues.filter (fun e => decide (144 ≤ e.1 / 40))).foldl (fun s e =>
    let q := s.outQ e.1
    let gone := q.pkts.filter (fun k => hit k.pkt)
    let kept := q.pkts.filter (fun k => !hit k.pkt)
    let head := (q.pkts.foldl (fun (a : Nat × Nat) k =>
      (if hit k.pkt then a.1 else a.1 + min k.cells.length (q.head - a.2), a.2 + k.cells.length)) (0, 0)).1
    gone.foldl State.loseQueued (s.setOutQ e.1 ⟨kept, head⟩)) s

/-- RECLAIM_DRAIN_DONE: the responses are in or expired, and the units are flushed (phases 2 and 3). -/
def execReclaimDrainDone (n : ParcelId) (s : State) : Out :=
  .next (if (s.parcel n).reclaim = 2 ∧ s.jobState n ≠ 3 ∧ s.enginesDone n then
      (((s.expireRequests n).discardJob (s.jobId n)).flushUnits n).parkPhase n
    else s)

/-- RECLAIM_PARK_DONE: the image with its header, unless an error of the parcel prevented it, and the handover (phases 4 and 5). JOB_STATE
of a parked parcel is NONE (log 33). -/
def execReclaimParkDone (n : ParcelId) (s : State) : Out :=
  if (s.parcel n).reclaim = 3 then
    let s := if s.jobState n = 6 then (s.park n).1 else s
    let s := if s.jobState n = 6 then s.setJobState n 0 else s
    let s := s.setObj (Obj.res_RECLAIM_UNITS n) (s.now - (s.parcel n).reclaimSlot * 1024)
    let s := s.modParcel n (fun p => { p with reclaim := 0, commit := none, decided := none, begun := none, job := none, ready := none, calls := [] })
    .next (s.setFnState (8 + n) 5)
  else .next s

/-! ### Commands (R365, R384) -/

/-- ROLLBACK: the state after it, none where it is refused (R370, R384). -/
def State.rollbackCmd (s : State) (n : Nat) : Option State :=
  let j := s.jobState n
  if s.parMode n = 2 ∧ s.parState n = 3 ∧ (j = 1 ∨ j = 2 ∨ j = 5) ∧ (s.parcel n).reclaim < 2 then
    let s := match (s.parcel n).commit with
      | some r => match r.cseq with | some q => s.dropColl (s.obj (Obj.res_JOB_GROUP n)) q | none => s
      | none => s
    some (((s.modParcel n (fun p => { p with commit := none, decided := none })).haltParcel n).setJobState n 3)
  else none

/-- RECLAIM: Tr 0 names the next slot (R369). -/
def State.reclaimCmd (s : State) (n tr : Nat) : Option State :=
  if s.parMode n = 2 ∧ s.parState n = 3 ∧ (s.parcel n).reclaim = 0 then
    some (s.modParcel n (fun p => { p with reclaim := 1, reclaimSlot := if tr = 0 then s.slot + 1 else tr }))
  else none

/-- JOB_RESET: the digest record, PARK_STATE and JOB_STATE cleared (R365, R384). -/
def State.jobResetCmd (s : State) (n : Nat) : Option State :=
  if s.parState n = 5 then
    let s := if s.parMode n = 2 ∧ s.obj (Obj.par_BULK_SIZE n) ≠ 0 then (s.storeBytes (s.recordAddr n) (List.replicate 4096 0)).1 else s
    let s := [Obj.pardig_JOB_DIGEST n, Obj.pardig_RESULT_DIGEST n, Obj.pardig_RESULT_STEP n].foldl (fun (s : State) k => s.setObj k 0) s
    some ((s.setObj (Obj.parmem_PARK_STATE n) 0).setJobState n 0)
  else none

end Sys2Proof.Machine
end

