-- ==== Sys2Proof/Machine/Functions.lean ====
section
/-! DEFINITION. Functions: commands, INIT work and its end (R393 to R396), the start and stop of a parcel (R14, R16, R101, R264,
R326, R362), the training of the bulk tier (R163), the restart of the fabric (R231, R235). -/

namespace Sys2Proof.Machine

/-- Number of a function (R393). -/
def fnNum : Function → Nat
  | .mgmt => 0 | .security => 1 | .power => 2 | .time => 3 | .fabric => 4 | .bulk => 5 | .near => 6
  | .parcel n => 8 + n.val

/-! ### Acceptance (R393, R396) -/

/-- The functions that must be RUNNING for a START (R393). -/
def State.needs (s : State) (f : Nat) : List Nat :=
  if f = 0 then []
  else if f = 4 then (if s.obj Obj.mem_SPILL_GIB ≠ 0 then [0, 5] else [0])
  else if f < 8 then [0]
  else [4, 6, 2] ++ (if s.obj (Obj.par_BULK_SIZE (f - 8)) ≠ 0 then [5] else [])

/-- A training parcel's bulk region holds its container and the parking region of its dies (R16). P GiB is ⌈256.375 × dies⌉. -/
def State.parkRoom (s : State) (n : Nat) : Bool :=
  let p := ceilDiv (2051 * (s.dies n).length) 8
  decide (p * 2 ^ 30 + s.contTotal n ≤ s.obj (Obj.par_BULK_SIZE n) * 2 ^ 30)

/-- START's check (R16, R17, R326, R396): the first status that applies. -/
def State.startCheck (s : State) (f : Nat) : Nat :=
  let v := s.fnState f
  let t := s.obj Obj.time_TIME_STATE
  if 8 ≤ f ∧ (s.parMode (f - 8) = 0 ∨ (s.parMode (f - 8) = 2 ∧ !s.parkRoom (f - 8))) then dsRange
  else if !(decide (v = 2) || decide (v = 5) || decide (v = 6)) then dsState
  else if s.fatal || !(s.needs f).all (fun g => decide (s.fnState g = 3)) then dsState
  else if 8 ≤ f ∧ t ≠ 2 ∧ t ≠ 4 then dsState
  else dsOk

/-- Any parcel RUNNING or STOPPING, with a bulk region where `bulk`. -/
def State.anyActive (s : State) (bulk : Bool) : Bool :=
  [0, 1, 2, 3].any (fun n => s.parActive n && (!bulk || decide (s.obj (Obj.par_BULK_SIZE n) ≠ 0)))

/-- The STOP column of R393: whether it refuses. -/
def State.stopColumn (s : State) (f : Nat) : Bool :=
  if f ≤ 2 then true
  else if f = 5 then (decide (s.fnState 4 = 3) && decide (s.obj Obj.mem_SPILL_GIB ≠ 0)) || s.anyActive true
  else if f < 8 then s.anyActive false
  else false

/-- STOP's check (R396). -/
def State.stopCheck (s : State) (f : Nat) : Nat :=
  let v := s.fnState f
  if v = 4 ∨ v = 5 then dsOk
  else if (v = 3 ∨ v = 1) ∧ !s.stopColumn f then dsOk
  else dsState

/-- REINIT's check (R396). -/
def State.reinitCheck (s : State) (f : Nat) : Nat :=
  if (s.fnState f = 5 ∨ s.fnState f = 6) ∧ !s.fatal then dsOk else dsState

/-! ### Effects of the commands -/

/-- The marks of an INIT that a START began, and of one that a STOP ends. -/
def State.markInit (s : State) (f : Nat) (starting stopping : Bool) : State :=
  { s with sec := { s.sec with starting := setBit s.sec.starting f starting, stopping := setBit s.sec.stopping f stopping } }

/-- Clears in progress of a parcel's dies and engines (R14, R264). -/
def State.clearing (s : State) (n : Nat) : Bool :=
  (s.dies n).any s.dieClears.contains || (s.engines n).any s.steClears.contains

/-- The first-error capture of a function cleared (R379, R385). -/
def State.clearCapture (s : State) (f : Nat) : State :=
  [Obj.ferr_FIRST_ERROR f, Obj.ferr_FIRST_NESTED f, Obj.ferr_NESTED f, Obj.ferr_HANDLING f].foldl (fun s k => s.setObj k (objDefault k)) s

/-- START accepted (R14, R396): INIT, held while a clear is in progress. -/
def State.startFn (s : State) (f : Nat) : State :=
  let s := ((s.clearCapture f).markInit f true false).setFnState f 1
  if 8 ≤ f then s.modParcel (f - 8) (fun p => { p with heldStart := s.clearing (f - 8) }) else s

/-- STOP accepted (R362, R396): a RUNNING function enters STOPPING, and a parcel's cores, engines and contexts halt; an INIT is to end
at its next step boundary. -/
def State.stopFn (s : State) (f : Nat) : State :=
  let v := s.fnState f
  if v = 3 then (if 8 ≤ f then s.haltParcel (f - 8) else s).setFnState f 4
  else if v = 1 then s.markInit f (s.sec.starting.testBit f) true
  else s

/-- REINIT accepted (R396). -/
def State.reinitFn (s : State) (f : Nat) : State := (s.markInit f false false).setFnState f 1

/-! ### INIT work -/

/-- The first channel of a test. -/
def firstChannel (l : List (Option Module)) (p : Option Module → Bool) : Option Nat := l.findIdx? p

/-- A module of a supported type (R162). -/
def moduleOk : Option Module → Bool
  | some m => m.kind && [64, 96, 128, 192, 256].contains m.gib && (decide (m.ranks = 2) || decide (m.ranks = 4))
  | none => true

/-- Cause and lowest channel of a population or training failure (R163, R180), none when the channels train. `fail` is a channel whose
training fails for reasons of its own. -/
def State.popFault (s : State) (fail : Option Nat) : Option (Nat × Nat) :=
  let l := s.modules
  let first := l.headD none
  let rate := if s.obj Obj.mem_BULK_SPEED = 1 then 8800 else 8000
  let like (a b : Option Module) : Bool := match a, b with
    | some x, some y => decide (x.gib = y.gib) && decide (x.ranks = y.ranks) && decide (x.device = y.device)
    | _, _ => false
  match firstChannel l (fun m => m.isNone) with
  | some c => some (1, c)
  | none => match firstChannel l (fun m => !like m first) with
    | some c => some (2, c)
    | none => match firstChannel l (fun m => !moduleOk m) with
      | some c => some (3, c)
      | none => match firstChannel l (fun m => match m with | some x => decide (x.rate < rate) | none => false) with
        | some c => some (4, c)
        | none => fail.map (fun c => (4, c))

/-- The bulk channels trained (R163): whether they hold alike and pass. `ok` false is a training that fails at a channel of its own. -/
def State.train (s : State) (ok : Bool) : State × Bool :=
  let (f, s) := if ok then (0, s) else s.fresh
  match s.popFault (if ok then none else some (f % 16)) with
  | some (cause, chan) =>
    ((((s.setObj Obj.mem_BULK_MODULE_GIB 0).setObj Obj.mem_BULK_RATE 0).setObj Obj.mem_BULK_POP_FAULT cause).setObj Obj.mem_BULK_POP_CHAN chan, false)
  | none =>
    let gib := match s.modules.headD none with | some m => m.gib | none => 0
    ((((s.setObj Obj.mem_BULK_MODULE_GIB gib).setObj Obj.mem_BULK_RATE (if s.obj Obj.mem_BULK_SPEED = 1 then 8800 else 8000)).setObj
      Obj.mem_BULK_POP_FAULT 0).setObj Obj.mem_BULK_POP_CHAN 0xFF, true)

/-- The restart of the fabric (R223, R224, R231, R235, R247 to R249, R257): every queued packet is discarded, both pools and every
pointer are new, every bucket is full; the links train anew (log 30). -/
def State.fabricStart (s : State) : State :=
  let s := { s with sw := Switch.reset, txq := [], inbox := [], standin := s.obj Obj.topo_STANDIN }
  let s := [0, 1].foldl (fun (s : State) q => (s.setObj (Obj.pool_FIRST_REFUSED_BUF q) 0xFFFFFFFF).setObj (Obj.pool_FIRST_REFUSED_CODE q) 0) s
  let s := (List.range 152).foldl (fun s i => s.fillBuckets (125 + i / 8) (i % 8)) s
  let s := (List.range 19).foldl (fun s i => s.takeModes (125 + i)) s
  let s := (List.range 144).foldl (fun s p =>
    if s.obj (Obj.port_ROLE p) = 0 then s.setObj (Obj.port_LINK_STATE p) 0
    else
      let s := if p < 125 then s.setLink p { Link.reset with locked := (s.link p).locked, half := (s.link p).half } else s
      if 125 ≤ p ∧ s.obj (Obj.port_LINK_STATE p) = 2 then s
      else
        let was := s.linkUp p
        let s := s.setObj (Obj.port_LINK_STATE p) (b2n (s.link p).locked)
        if was then s.timeLink p else s) s
  s.applyDisabled

/-- The objects and records of a parcel that its start makes new (R110, R181, R289, R296, R321, R384), the container installed, the
cores at their first operations (R101), M6 extended (R427). -/
def State.runParcel (s : State) (n : Nat) : State :=
  let f := 8 + n
  let s := s.modParcel n (fun _ => { Parcel.reset with contLen := s.contTotal n })
  let s := s.setObj (Obj.pardig_PROGRAM_DIGEST n) (leNat (s.contDigest n))
  let s := s.extend 6 (leBytes 32 (s.obj (Obj.pardig_PROGRAM_DIGEST n)))
  let s := ((s.installDescs n).installData n).installCode n
  let s := s.setCseqs n 1
  let s := (s.groupsOf n).foldl (fun s g => s.modGroup g (fun t => { t with stale := 0, refused := 0 })) s
  let s := (s.engines n).foldl (fun s j =>
    [Obj.ste_FAULT_CODE j, Obj.ste_FAULT_PC j, Obj.ste_FAULT_END j, Obj.ste_FAULT_TIME j].foldl (fun s k => s.setObj k (objDefault k)) s) s
  let s := s.setObj (Obj.parmem_FLIPS n) 0
  let s := if [1, 2, 3, 5, 6].contains (s.jobState n) then s.setJobState n 0 else s
  let s := if s.isShadow n then (s.setObj (Obj.res_SHADOW_STATE n) 1).setObj (Obj.res_SHADOW_MATCHES n) 0 else s
  let s := s.startCores n
  (s.setObj (Obj.fn_START_RESULT f) 0).setFnState f 3

/-- A unit with an uncorrectable error inside a parcel's container. -/
def State.contBad (s : State) (n : Nat) : Option Nat :=
  let total := min (s.contTotal n) (s.contRoom n)
  (s.bad.map Prod.fst).find? (fun k =>
    if s.obj (Obj.par_BULK_SIZE n) = 0 then decide (s.contStart n ≤ k) && decide (k < s.contStart n + total)
    else inTier k && decide (addrSpace k ≠ 1) && decide (s.obj (Obj.par_BULK_BASE n) * 2 ^ 30 ≤ bulkOf k)
      && decide (bulkOf k < s.obj (Obj.par_BULK_BASE n) * 2 ^ 30 + total))

/-- The INIT of a parcel's START ends (R101, R396): RUNNING, or STOPPED with the failing check's code entered and in START_RESULT. -/
def State.parcelInit (s : State) (n : Nat) : State :=
  let f := 8 + n
  let refuse (s : State) (code : Nat) : State :=
    let s := (s.advise f (some n) (0x0800 + code) 0xFFFF 0).setObj (Obj.fn_START_RESULT f) (0x0800 + code)
    if s.fnState f = 6 then s else s.setFnState f 5
  match s.contBad n with
  | some k => refuse (s.memUncorrected k) 1
  | none =>
    let code := s.contCheck n
    if code ≠ 0 then refuse s code else s.runParcel n

/-- The error that ends the START of another function; the manual gives it no class or code: a free value (log 35). -/
def State.startFails (s : State) (f : Nat) : State :=
  let (v, s) := s.fresh
  (s.setObj (Obj.fn_START_RESULT f) (v % 2 ^ 16)).setFnState f 5

/-- A verified PHY image, without which FABRIC and BULK do not initialise (R420). -/
def State.phyOk (s : State) : Bool := (Sparse.get none s.sec.running 4).isSome

/-- The work of an INIT of a function that is no parcel's: whether it succeeds. -/
def State.initWork (s : State) (f : Nat) (ok : Bool) : State × Bool :=
  if f = 4 then (s, ok && s.phyOk)
  else if f = 5 then (if s.phyOk then s.train ok else (s, false))
  else (s, ok)

/-- The regulators do not ramp: REGULATOR_FAULT, device-fatal (R438, log 35). -/
def State.regulatorFault (s : State) : State :=
  let (v, s) := s.fresh
  s.raise ⟨4, 2, none, 0x0C05, 0xFFFF, v % 2 ^ 64⟩

/-- R395, R396. The INIT work of a function ends. -/
def State.initDone (s : State) (f : Nat) (ok : Bool) : State :=
  let starting := s.sec.starting.testBit f
  let held := decide (8 ≤ f) && (s.parcel (f - 8)).heldStart
  if s.fnState f ≠ 1 ∨ held then s
  else if s.sec.stopping.testBit f then ((s.markInit f false false).setObj (Obj.fn_START_RESULT f) 0).setFnState f 5
  else
    let s := s.markInit f false false
    if 8 ≤ f then
      if starting then s.parcelInit (f - 8) else s.setFnState f (if ok then 2 else 6)
    else
      let (s, good) := s.initWork f ok
      if f = 2 ∧ !good then s.regulatorFault
      else if starting then
        if good then
          let s := if f = 4 then s.fabricStart else s
          let s := (s.setObj (Obj.fn_START_RESULT f) 0).setFnState f 3
          if f = 3 then s.elect else s
        else s.startFails f
      else s.setFnState f (if good then 2 else 6)

/-- R393, R362. A stop completes: a parcel's requests have ended and its units are flushed. -/
def State.stopDone (s : State) (f : Nat) : State :=
  if s.fnState f = 4 then
    (if 8 ≤ f then (s.expireRequests (f - 8)).flushUnits (f - 8) else s).setFnState f 5
  else if s.fnState f = 1 ∧ s.sec.stopping.testBit f then
    ((s.markInit f false false).setObj (Obj.fn_START_RESULT f) 0).setFnState f 5
  else s

/-- R395. The management processor starts a function whose AUTO_START is set, once it is READY and its needs are RUNNING. -/
def State.autoStart (s : State) (f : Nat) : State :=
  if s.obj (Obj.fn_AUTO_START f) = 1 ∧ s.fnState f = 2 ∧ s.startCheck f = 0 then s.startFn f else s

/-! ### Clears (R14, R264) -/

/-- The held starts of parcels whose clears have all completed go on. -/
def State.releaseHeld (s : State) : State :=
  [0, 1, 2, 3].foldl (fun s n => if (s.parcel n).heldStart ∧ !s.clearing n then s.modParcel n (fun p => { p with heldStart := false }) else s) s

/-- The descriptor tables, flags and instruction caches of a die's cores zero (R14). -/
def State.wipeDie (s : State) (k : Nat) : State :=
  (List.range 192).foldl (fun s i =>
    s.modCore (192 * k + i) (fun x => { x with flags := [], fstat := [], fexc := [], desc := [], gens := [], icache := [] })) s

/-- R14. The clear of die k: SRAM, descriptor tables, flags and instruction caches of its cores are zero. -/
def State.dieCleared (s : State) (k : Nat) : State :=
  let s := s.wipeDie k
  let s := { s with
    mem := Sparse.clearRange s.mem (192 * k * 2 ^ 21) (192 * (k + 1) * 2 ^ 21)
    dieClears := s.dieClears.filter (fun j => decide (j ≠ k)) }
  s.releaseHeld

/-- R264. The clear of stream engine j: its memory is zero, it holds nothing, and it is IDLE. -/
def State.steCleared (s : State) (j : Nat) : State :=
  let s := (s.steBusy j).clearSte j
  let s := { s with
    mem := Sparse.clearRange s.mem (steAddr j 0) (steAddr j (2 ^ 20))
    steClears := s.steClears.filter (fun i => decide (i ≠ j)) }
  (s.setSteState j 0).releaseHeld

/-- DIE_CLEAR_DONE (R14). -/
def execDieClearDone (k : Fin 6) (s : State) : Out := .next (if s.dieClears.contains k.val then s.dieCleared k.val else s)

/-- STE_CLEAR_DONE (R264). -/
def execSteClearDone (j : EngineId) (s : State) : Out := .next (if s.steClears.contains j.val then s.steCleared j.val else s)

/-- R395, R396. -/
def execFunctionInitDone (f : Function) (ok : Bool) (s : State) : Out := .next (s.initDone (fnNum f) ok)

/-- R393. -/
def execFunctionStopDone (f : Function) (s : State) : Out := .next (s.stopDone (fnNum f))

/-- R395. -/
def execAutoStart (f : Function) (s : State) : Out := .next (s.autoStart (fnNum f))

end Sys2Proof.Machine
end

