-- ==== Sys2Proof/Machine/Security.lean ====
section
/-! DEFINITION. Resets (R417, R418, R450), keys and attestation (R424 to R428), update (R430), counters (R431), DEVICE_RESET (R432),
debug unlock (R433): the commands as the dictionary carries them out, each a status and the state. -/

namespace Sys2Proof.Machine

/-! ### Reset (R417, R418) -/

/-- The slot range that an update writes (R430): the entry of its type and slot, cut to the type's largest image (log 35). -/
def State.updRange (s : State) : Option (Nat × Nat) :=
  let t := s.obj Obj.upd_UPD_TYPE
  if t = 0 then none else (s.dirEntry t s.sec.updSlot).map (fun e => (e.off, min e.len (imageMax t)))

/-- The slot of an update in progress has undefined content (R450). -/
def State.loseUpdate (s : State) : State :=
  let v := s.obj Obj.upd_UPD_STATE
  if 1 ≤ v ∧ v ≤ 3 then
    match s.updRange with
    | some (o, n) => { s with flashLost := (o, n, s.freshCtr) :: s.flashLost, freshCtr := s.freshCtr + 1 }
    | none => s
  else s

/-- A reset with its cause (R417, R418): every volatile state is that of reset, with a fresh challenge (R433); the flash, the sealed
store, the supplies and the modules stay, and so does what the device has sent. -/
def State.restart (s : State) (cause : Nat) : State :=
  let s := if cause = 2 then s else s.loseUpdate
  { State.reset with
    pending := s.pending
    freshCtr := s.freshCtr + 1
    sealed := s.sealed
    flash := s.flash
    flashLost := s.flashLost
    modules := s.modules
    power := { s.power with regOn := true, bootAt := if cause ≤ 1 then 16000000 else 0 }
    sec := { SecSt.reset with challenge := s.freshCtr }
    sent := s.sent }.setObj Obj.id_RESET_CAUSE cause

/-- DEVICE_RESET (R432). -/
def State.deviceReset (s : State) : Option State :=
  if s.anyActive false ∨ s.obj Obj.upd_UPD_STATE = 1 then none else some (s.restart 2)

/-! ### Attestation (R427, R428) -/

/-- The attestation private key of this boot (R424): a free value from 1 to the order less 2. -/
def State.attPriv (s : State) : Nat := Config.freeNat s.sec.attKey % (sm2N - 2) + 1

/-- The first 128 bytes of a quote (R428). -/
def State.quoteBody (s : State) (nonce : Bytes) : Bytes :=
  leBytes 4 0x544F5551 ++ leBytes 2 1 ++ leBytes 2 0 ++ leBytes 4 (s.sealed.physId % 2 ^ 21) ++ leBytes 4 s.sealed.bootCount ++ leBytes 8 s.now
    ++ leBytes 4 (s.sealed.counters.getD 0 0) ++ leBytes 4 (s.sealed.counters.getD 2 0) ++ nonce
    ++ sm3 ([0, 1, 2, 3, 4, 5, 6, 7].flatMap s.measure) ++ leBytes 32 (s.obj Obj.id_CONFIG_DIGEST)

/-- QUOTE (R428). -/
def State.makeQuote (s : State) (nonce : Bytes) : State :=
  let (k, s) := s.fresh
  let b := s.quoteBody nonce
  let q := b ++ sm2Sign signId s.attPriv k (sm3 b)
  let s := [0, 1, 2].foldl (fun (s : State) i => s.setObj (Obj.sec_QUOTE_PART i) (leAt q (64 * i) 64)) s
  s.bump Obj.sec_QUOTES

/-! ### Operator keys (R426) -/

/-- KEY_COMMIT of the staged entry, none when it would leave no SECURITY key (R426). Sessions of a slot that it changes close; the
session that carries the commit is answered first (R403). -/
def State.commitKey (s : State) : Option State :=
  let i := s.obj Obj.sec_NEW_SLOT
  let k : OpKey := ⟨leBytes 64 (s.obj Obj.sec_NEW_KEY), s.obj Obj.sec_NEW_ROLE, s.obj Obj.sec_NEW_SIGNS⟩
  let ops := s.sealed.ops.set i k
  if !ops.any (fun o => decide (o.role = 3)) then none
  else
    let changed := decide (s.opSlot i ≠ k)
    let s := { s with
      sealed := { s.sealed with ops := ops }
      mgmt := { s.mgmt with sessions := if changed then s.mgmt.sessions.filter (fun x => decide (x.slot ≠ i)) else s.mgmt.sessions } }
    some (s.advise 1 none 0x0D03 0xFFFF i)

/-! ### Update (R430) -/

/-- The inactive slot of a type: never the running one (R430). -/
def State.inactiveSlot (s : State) (t : Nat) : Nat :=
  match Sparse.get none s.sec.running t with | some (slot, _) => 1 - slot | none => 1 - s.bootSlot t

/-- UPD_STATE set. -/
def State.setUpd (s : State) (v : Nat) : State := s.setObj Obj.upd_UPD_STATE v

/-- UPD_ERASE (R430): refused while the device erases or verifies, or when no type is selected or the directory has no such slot. -/
def State.updErase (s : State) : Option State :=
  let t := s.obj Obj.upd_UPD_TYPE
  let v := s.obj Obj.upd_UPD_STATE
  if t = 0 ∨ v = 1 ∨ v = 3 ∨ (s.dirEntry t (s.inactiveSlot t)).isNone then none
  else some (({ s with sec := { s.sec with updSlot := s.inactiveSlot t } }.setObj Obj.upd_UPD_OFFSET 0).setUpd 1)

/-- A range of the flash erased: its bytes read 0xFF. -/
def State.eraseFlash (s : State) (o n : Nat) : State :=
  { s with
    flash := Sparse.clearRange s.flash o (o + n)
    flashLost := s.flashLost.filter (fun e => !(decide (o ≤ e.1) && decide (e.1 + e.2.1 ≤ o + n))) }

/-- The erase completes (R430). -/
def State.updErased (s : State) : State :=
  if s.obj Obj.upd_UPD_STATE = 1 then
    match s.updRange with
    | some (o, n) => (s.eraseFlash o n).setUpd 2
    | none => s.setUpd 2
  else s

/-- UPD_DATA's check (R430): RANGE for a bad offset, STATE outside UPD_STATE 2. -/
def State.updDataCheck (s : State) : Nat :=
  let o := s.obj Obj.upd_UPD_OFFSET
  let size := match s.updRange with | some (_, n) => n | none => imageMax (s.obj Obj.upd_UPD_TYPE)
  if o % 64 ≠ 0 ∨ size ≤ o then dsRange else if s.obj Obj.upd_UPD_STATE ≠ 2 then dsState else dsOk

/-- UPD_DATA (R430): 64 bytes programmed at UPD_OFFSET. Bytes programmed a second time without an erase are free values (log 35). -/
def State.updProgram (s : State) (bs : Bytes) : State :=
  let o := s.obj Obj.upd_UPD_OFFSET
  let s := match s.updRange with
    | some (a, _) =>
      if (s.flashBytes (a + o) 64).all (fun b => decide (b = 0xFF)) then
        { s with flash := bs.zipIdx.foldl (fun m (e : Byte × Nat) => Sparse.set 0xFF m (a + o + e.2) e.1) s.flash }
      else { s with flashLost := (a + o, 64, s.freshCtr) :: s.flashLost, freshCtr := s.freshCtr + 1 }
    | none => s
  s.setObj Obj.upd_UPD_OFFSET ((o + 64) % 2 ^ 32)

/-- UPD_VERIFY (R430). -/
def State.updVerify (s : State) : Option State := if s.obj Obj.upd_UPD_STATE = 2 then some (s.setUpd 3) else none

/-- Verification ends (R430): the staged image passes R422, or its code is in UPD_RESULT and the failure is entered. -/
def State.updVerified (s : State) : State :=
  if s.obj Obj.upd_UPD_STATE = 3 then
    let code := s.imageCheck (s.obj Obj.upd_UPD_TYPE) s.sec.updSlot
    if code = 0 then s.setUpd 4
    else ((s.setUpd 5).setObj Obj.upd_UPD_RESULT (0x0B00 + code)).advise 1 none 0x0E01 0xFFFF s.sec.updSlot
  else s

/-- UPD_ACTIVATE (R430). -/
def State.updActivate (s : State) : Option State :=
  if s.obj Obj.upd_UPD_STATE = 4 then
    let i := s.obj Obj.upd_UPD_TYPE - 1
    let s := { s with sealed := { s.sealed with bootSlot := s.sealed.bootSlot.set i s.sec.updSlot } }
    some ((s.setUpd 6).advise 1 none 0x0E02 0xFFFF s.sec.updSlot)
  else none

/-- A write of UPD_TYPE aborts an update in progress (R430); an erase cut short leaves its slot open. -/
def State.updAbort (s : State) (old : State) : State :=
  (if old.obj Obj.upd_UPD_STATE = 1 then { s with flashLost := old.loseUpdate.flashLost, freshCtr := old.loseUpdate.freshCtr } else s).setUpd 0

/-! ### Counters (R431) -/

/-- A counter of the sealed store set. -/
def State.setCounter (s : State) (i v : Nat) : State := { s with sealed := { s.sealed with counters := s.sealed.counters.set i v } }

/-- SVN_COMMIT: the status and the state. -/
def State.svnCommit (s : State) (t : Nat) : Nat × State :=
  if t < 1 ∨ 4 < t then (dsRange, s)
  else match Sparse.get none s.sec.running t with
    | none => (dsState, s)
    | some (_, svn) =>
      if (s.obj Obj.sec_FALLBACK).testBit (t - 1) then (dsState, s)
      else (dsOk, (s.setCounter (t - 1) (max (s.sealed.counters.getD (t - 1) 0) svn)).advise 1 none 0x0E03 0xFFFF (t - 1))

/-- COUNTER_INC: the status and the state. -/
def State.counterInc (s : State) (k : Nat) : Nat × State :=
  let v := s.sealed.counters.getD (4 + k) 0
  if 3 < k ∨ v = 0xFFFFFFFF then (dsRange, s) else (dsOk, s.setCounter (4 + k) (v + 1))

/-! ### Debug access (R433) -/

/-- What an unlock token signs. -/
def State.unlockMsg (s : State) : Bytes :=
  [(0x44 : Byte), 0x42, 0x47] ++ leBytes 4 (s.sealed.physId % 2 ^ 21) ++ leBytes 32 s.challenge

/-- A fresh challenge. -/
def State.newChallenge (s : State) : State := { s with sec := { s.sec with challenge := s.freshCtr }, freshCtr := s.freshCtr + 1 }

/-- Whether a token unlocks. -/
def State.unlockOk (s : State) (token : Bytes) : Bool := signedBy s.sealed.root s.unlockMsg token

/-- An accepted token. -/
def State.unlocked (s : State) (token : Bytes) : State :=
  (((s.setObj Obj.sec_DEBUG_STATE 1).extend 5 (sm3 token)).advise 1 none 0x0D01 0xFFFF 0).newChallenge

/-- A token that fails. -/
def State.unlockRefused (s : State) : State := (s.advise 1 none 0x0D02 0xFFFF 0).newChallenge

/-- UPD_ERASE_DONE (R430). -/
def execUpdEraseDone (s : State) : Out := .next s.updErased

/-- UPD_VERIFY_DONE (R430). -/
def execUpdVerifyDone (s : State) : Out := .next s.updVerified

end Sys2Proof.Machine
end

