-- ==== Sys2Proof/Machine/DictWrite.lean ====
section
/-! DEFINITION. Writing the dictionary (R388 to R392, R405, R406): the checks of an access in their order, what a write does beside
setting its value, the commands, and the atomic write; and the commands of the table that are writes of one object. -/

namespace Sys2Proof.Machine

/-- One entry of a write: object, length of its value, the value. -/
structure WEntry where
  idx : Nat
  sub : Nat
  len : Nat
  val : Nat
  deriving DecidableEq, Repr

/-- An entry whose value stands as it is sent (R401). -/
def sentEntry (idx sub : Nat) (bs : Bytes) : WEntry :=
  ⟨idx, sub, bs.length, match objRow idx sub with | some r => wireNat r.ty bs | none => 0⟩

/-- Whether a role permits a write or command (R406, R440). -/
def mayWrite (r : Role) (idx : Nat) : Bool :=
  match r with
  | .read => false
  | .operate => !(decide (0x1300 ≤ idx) && decide (idx ≤ 0x13FF))
  | .security => true

/-- Whether the signed configuration may name an object (R429). -/
def configMay (idx sub : Nat) (acc : OAcc) : Bool :=
  acc = .rw || acc = .rl || (decide (0x2100 ≤ idx) && decide (idx < 0x2110) && decide (sub = 6))
    || (decide (idx = 0x1010) && (decide (sub = 1) || decide (sub = 2)))

/-- Dies or engines that a mask has gained. -/
def gained (n old new : Nat) : List Nat := (List.range n).filter (fun k => new.testBit k && !old.testBit k)

/-- What a write does beside setting its value (R14, R177, R190, R249, R257, R264, R430): `old` is the state before it. -/
def State.afterWrite (s old : State) (idx sub v : Nat) : State :=
  let was := old.obj (objKey idx sub)
  if 0x6100 ≤ idx ∧ idx < 0x6104 ∧ sub = 2 then { s with dieClears := s.dieClears ++ (gained 6 was v).filter (fun k => !s.dieClears.contains k) }
  else if 0x6100 ≤ idx ∧ idx < 0x6104 ∧ sub = 6 then { s with steClears := s.steClears ++ (gained 48 was v).filter (fun k => !s.steClears.contains k) }
  else if 0x6100 ≤ idx ∧ idx < 0x6104 ∧ (sub = 4 ∨ sub = 5) ∧ v ≠ was then s.setObj (Obj.parmem_ACTIVE_HALF (idx - 0x6100)) 0
  else if 0x3000 ≤ idx ∧ idx < 0x3090 ∧ (sub = 1 ∨ sub = 2) then s.linkDown (idx - 0x3000) 0
  else if idx = 0x4300 ∧ sub = 2 then
    let new := gained 8 was v
    (List.range 221).foldl (fun s x =>
      let o := s.outPort x
      s.setOut x { o with cr := o.cr.zipIdx.map (fun e => if new.contains e.2 then 0 else e.1) }) s
  else if 0x4800 ≤ idx ∧ idx < 0x4898 ∧ sub = 1 ∧ v ≠ 0 then s.fillBuckets (125 + (idx - 0x4800) / 8) ((idx - 0x4800) % 8)
  else if idx = 0x1340 ∧ sub = 1 then s.updAbort old
  else s

/-- The result of a command that is accepted or not. -/
def accepted (s : State) (r : Option State) : Nat × State :=
  match r with | some t => (dsOk, t) | none => (dsState, s)

/-- WATCH_CLEAR (R138). -/
def State.watchClear (s : State) : State :=
  [Obj.watch_FIRST_OVER_CORE, Obj.watch_FIRST_OVER_TENSOR, Obj.watch_FIRST_OVER_INDEX, Obj.watch_FIRST_OVER_R, Obj.watch_FIRST_OVER_TIME].foldl
    (fun s k => s.setObj k (objDefault k)) s

/-- A function command by its sub-index (R396, R399). -/
def State.fnCommand (s : State) (f sub : Nat) : Nat × State :=
  if sub = 3 then (let c := s.startCheck f; (c, if c = 0 then s.startFn f else s))
  else if sub = 4 then (let c := s.stopCheck f; (c, if c = 0 then s.stopFn f else s))
  else (let c := s.reinitCheck f; (c, if c = 0 then s.reinitFn f else s))

/-- KEY_COMMIT: the four staged objects must be written in the same WRITE (R426). -/
def State.keyCommit (s : State) (written : List Nat) : Nat × State :=
  if [Obj.sec_NEW_SLOT, Obj.sec_NEW_KEY, Obj.sec_NEW_ROLE, Obj.sec_NEW_SIGNS].all written.contains then
    match s.commitKey with
    | some t => (dsOk, t)
    | none => (dsRange, s)
  else (dsState, s)

/-- A command object's command (R388): the status and the state. `written` lists the objects that earlier entries of its WRITE wrote. -/
def State.command (s : State) (written : List Nat) (idx sub v : Nat) : Nat × State :=
  if 0x2100 ≤ idx ∧ idx < 0x2110 then s.fnCommand (idx - 0x2100) sub
  else if 0x8300 ≤ idx ∧ idx < 0x8304 then
    let n := idx - 0x8300
    accepted s (if sub = 0x16 then s.rollbackCmd n else if sub = 0x17 then s.reclaimCmd n v else s.jobResetCmd n)
  else if idx = 0x8200 then (dsOk, s.levelNow)
  else if idx = 0x6500 then (dsOk, s.watchClear)
  else if idx = 0x1300 then
    if sub = 4 then (if s.unlockOk (leBytes 64 v) then (dsOk, s.unlocked (leBytes 64 v)) else (dsRange, s))
    else accepted s s.deviceReset
  else if idx = 0x1301 then (dsOk, s.extend 7 (leBytes 32 v))
  else if idx = 0x1320 then s.keyCommit written
  else if idx = 0x1330 then (dsOk, s.makeQuote (leBytes 32 v))
  else if idx = 0x1340 then accepted s (if sub = 4 then s.updErase else if sub = 5 then s.updVerify else s.updActivate)
  else if sub = 9 then s.svnCommit v
  else s.counterInc v

/-- What a refused command leaves behind (R433): a debug token that fails is entered and draws a fresh challenge. -/
def State.refusedCommand (s : State) (idx sub : Nat) : State := if idx = 0x1300 ∧ sub = 4 then s.unlockRefused else s

/-- One entry of a write, checked in the order of R392 and applied; the configuration is `role` none (R429). -/
def State.writeOne (s : State) (role : Option Role) (last : Bool) (written : List Nat) (e : WEntry) : Nat × State :=
  match objRow e.idx e.sub with
  | none => (dsNoObject, s)
  | some r =>
    let auth := match role with | some x => mayWrite x e.idx | none => true
    if !auth then (dsAuth, s)
    else if (role.isNone && !configMay e.idx e.sub r.acc) || (role.isSome && (decide (r.acc = .ro) || decide (r.acc = .rc))) then (dsReadOnly, s)
    else if e.len ≠ r.ty.size then (dsLength, s)
    else if role.isSome && s.runLocked e.idx e.sub e.val r.acc then (dsRunLocked, s)
    else if r.acc = .cmd then (if last then s.command written e.idx e.sub e.val else (dsRange, s))
    else if r.ty = .bool ∧ 1 < e.val then (dsRange, s)
    else if r.acc = .wo then (let c := s.updDataCheck; (c, if c = 0 then s.updProgram (leBytes 64 e.val) else s))
    else
      let t := s.setObj (objKey e.idx e.sub) e.val
      if t.rangeOk e.idx e.sub e.val then (dsOk, t.afterWrite s e.idx e.sub e.val) else (dsRange, s)

/-- The entries of a write in order: none when all pass, else the position and code of the first that fails (R405). -/
def State.writeAll (role : Option Role) : List WEntry → Nat → List Nat → State → State × Option (Nat × Nat)
  | [], _, _, s => (s, none)
  | e :: es, i, written, s =>
    match s.writeOne role es.isEmpty written e with
    | (0, t) => State.writeAll role es (i + 1) (objKey e.idx e.sub :: written) t
    | (c, _) => (s, some (i, c))

/-- An atomic write (R405): every entry takes effect, or none; a refused command leaves what its rule says. -/
def State.dictWrite (s : State) (role : Option Role) (es : List WEntry) : State × Option (Nat × Nat) :=
  match State.writeAll role es 0 [] s with
  | (t, none) => (t, none)
  | (_, some (i, c)) =>
    match es[i]? with
    | some e => (if i + 1 = es.length ∧ c = dsRange ∧ e.len = 64 then s.refusedCommand e.idx e.sub else s, some (i, c))
    | none => (s, some (i, c))

/-- The management processor takes accesses: MGMT is RUNNING, or has run and a device-fatal error has stopped it (R376, R419). -/
def State.mgmtUp (s : State) : Bool := decide (s.fnState 0 = 3) || (s.fatal && decide (s.obj (Obj.fn_STARTS 0) ≠ 0))

/-- A write whose status goes to its sender only; without a management processor no path leads to the dictionary. -/
def State.access (s : State) (role : Role) (es : List WEntry) : State := if s.mgmtUp then (s.dictWrite (some role) es).1 else s

/-- A write of one object. -/
def State.write1 (s : State) (role : Role) (idx sub : Nat) (bs : Bytes) : State := s.access role [sentEntry idx sub bs]

/-! ### The commands that are writes of one object -/

/-- START (R396). -/
def execFunctionStart (role : Role) (f : Function) (s : State) : Out := .next (s.write1 role (0x2100 + fnNum f) 3 [])
/-- STOP (R396). -/
def execFunctionStop (role : Role) (f : Function) (s : State) : Out := .next (s.write1 role (0x2100 + fnNum f) 4 [])
/-- REINIT (R396). -/
def execFunctionReinit (role : Role) (f : Function) (s : State) : Out := .next (s.write1 role (0x2100 + fnNum f) 5 [])
/-- ROLLBACK (R362, R384). -/
def execRollback (role : Role) (n : ParcelId) (s : State) : Out := .next (s.write1 role (0x8300 + n.val) 0x16 [])
/-- RECLAIM at Tr (R369, R384). -/
def execReclaim (role : Role) (n : ParcelId) (tr : BitVec 64) (s : State) : Out := .next (s.write1 role (0x8300 + n.val) 0x17 (beBytes 8 tr.toNat))
/-- JOB_RESET (R365, R384). -/
def execJobReset (role : Role) (n : ParcelId) (s : State) : Out := .next (s.write1 role (0x8300 + n.val) 0x18 [])
/-- WATCH_CLEAR (R138). -/
def execWatchClear (role : Role) (s : State) : Out := .next (s.write1 role 0x6500 0x0A [])
/-- LEVEL_NOW (R373, R382). -/
def execLevelNow (role : Role) (s : State) : Out := .next (s.write1 role 0x8200 2 [])
/-- DEBUG_UNLOCK (R433). -/
def execDebugUnlock (role : Role) (token : Bytes) (s : State) : Out := .next (s.write1 role 0x1300 4 token)
/-- DEVICE_RESET (R432). -/
def execDeviceReset (role : Role) (s : State) : Out := .next (s.write1 role 0x1300 7 [])
/-- MEASURE_EXTEND (R427). -/
def execMeasureExtend (role : Role) (d : Bytes) (s : State) : Out := .next (s.write1 role 0x1301 9 d)
/-- KEY_COMMIT with its staged entry in one WRITE (R426). -/
def execKeyCommit (role : Role) (slot : BitVec 8) (key : Bytes) (newRole signs : BitVec 8) (s : State) : Out :=
  .next (s.access role [sentEntry 0x1320 1 [slot], sentEntry 0x1320 2 key, sentEntry 0x1320 3 [newRole], sentEntry 0x1320 4 [signs],
    sentEntry 0x1320 5 []])
/-- QUOTE (R428). -/
def execQuote (role : Role) (nonce : Bytes) (s : State) : Out := .next (s.write1 role 0x1330 1 nonce)
/-- UPD_TYPE (R430). -/
def execUpdType (role : Role) (t : BitVec 8) (s : State) : Out := .next (s.write1 role 0x1340 1 [t])
/-- UPD_ERASE (R430). -/
def execUpdErase (role : Role) (s : State) : Out := .next (s.write1 role 0x1340 4 [])
/-- UPD_DATA (R430). -/
def execUpdData (role : Role) (d : Bytes) (s : State) : Out := .next (s.write1 role 0x1340 3 d)
/-- UPD_VERIFY (R430). -/
def execUpdVerify (role : Role) (s : State) : Out := .next (s.write1 role 0x1340 5 [])
/-- UPD_ACTIVATE (R430). -/
def execUpdActivate (role : Role) (s : State) : Out := .next (s.write1 role 0x1340 6 [])
/-- SVN_COMMIT (R431). -/
def execSvnCommit (role : Role) (t : BitVec 8) (s : State) : Out := .next (s.write1 role 0x1350 9 [t])
/-- COUNTER_INC (R431). -/
def execCounterInc (role : Role) (k : BitVec 8) (s : State) : Out := .next (s.write1 role 0x1350 0x0A [k])
/-- A write of any other object (R388), its value as it is sent. -/
def execObjectWrite (role : Role) (index : BitVec 16) (sub : BitVec 8) (value : Bytes) (s : State) : Out :=
  .next (s.write1 role index.toNat sub.toNat value)

end Sys2Proof.Machine
end

