-- ==== Sys2Proof/Machine/Boot.lean ====
section
/-! DEFINITION. Supplies, RESET_N and the watchdog (R417, R418), the boot stages (R419, R420), the signed configuration (R429). -/

namespace Sys2Proof.Machine

/-! ### Supplies and reset (R417, R418) -/

/-- Validity of a supply set. -/
def State.setRail (s : State) (r : Rail) (v : Bool) : State :=
  match r with
  | .vaux33 => { s with power := { s.power with vaux33 := v } }
  | .vio18 => { s with power := { s.power with vio18 := v } }

/-- Whether a supply is valid. -/
def State.railValid (s : State) (r : Rail) : Bool :=
  match r with | .vaux33 => s.power.vaux33 | .vio18 => s.power.vio18

/-- Stage 1 may begin 1 ms from now, where nothing holds the device in reset. -/
def State.armBoot (s : State) : State := { s with power := { s.power with bootAt := s.now + 16000000 } }

/-- R417. Loss of VAUX33 or VIO18 resets the device (RESET_CAUSE is POWER_ON once it is valid again). -/
def execSupplyLoss (r : Rail) (s : State) : Out := .next (if s.railValid r then (s.restart 0).setRail r false else s)

/-- R417. A supply has stayed in its range for its time. -/
def execSupplyValid (r : Rail) (s : State) : Out := .next (if s.railValid r then s else (s.setRail r true).armBoot)

/-- R417, R448. RESET_N low for at least 1 µs resets the device, and holds it in reset until it rises. A shorter pulse does nothing. -/
def execResetNLow (nanoseconds : Nat) (s : State) : Out :=
  if nanoseconds < 1000 ∨ !s.power.resetN then .next s
  else
    let t := if s.power.vaux33 && s.power.vio18 then s.restart 1 else s
    .next { t with power := { t.power with resetN := false } }

/-- R417. RESET_N rises. -/
def execResetNRise (s : State) : Out :=
  .next (if s.power.resetN then s else { s with power := { s.power with resetN := true } }.armBoot)

/-- R418. The running management firmware did not service its watchdog within 1 s. -/
def execWatchdog (s : State) : Out := .next (if s.poweredUp && decide (1 ≤ s.sec.stageDone) then s.restart 3 else s)

/-! ### Boot stages (R419, R420) -/

/-- BOOT_STAGE entered. -/
def State.enterStage (s : State) (n : Nat) : State := s.setObj Obj.dev_BOOT_STAGE n

/-- A stage's work is done. -/
def State.finishStage (s : State) (n : Nat) : State := { s with sec := { s.sec with stageDone := n } }

/-- Whether stage n begins: the stage before it is done, nothing holds the device and no device-fatal error has been entered. -/
def State.mayEnter (s : State) (n : Nat) : Bool :=
  s.poweredUp && !s.fatal && decide (s.obj Obj.dev_BOOT_STAGE + 1 = n) && decide (s.sec.stageDone + 1 = n)

/-- A function moves from OFF to INIT (R395, R419). -/
def State.toInit (s : State) (f : Nat) : State := if s.fnState f = 0 then s.setFnState f 1 else s

/-- What M0 covers (R427, log 35). -/
def State.sealedPublic (s : State) : Bytes :=
  s.sealed.root ++ leBytes 4 (s.sealed.physId % 2 ^ 21) ++ s.sealed.counters.flatMap (leBytes 4)

/-- A damaged copy of the sealed store written again from the other (R423). -/
def State.repairStore (s : State) : State := { s with sealed := { s.sealed with damaged := 0 } }

/-- The boot count, one higher (R419). -/
def State.countBoot (s : State) : State := { s with sealed := { s.sealed with bootCount := (s.sealed.bootCount + 1) % 2 ^ 32 } }

/-- The sealed store checked (R420, R423): a damaged copy is repaired from the other; two damaged copies are a device-fatal error. -/
def State.checkStore (s : State) : State :=
  if s.sealed.damaged = 0 then s
  else if s.sealed.damaged = 1 then s.repairStore.advise 1 none 0x0F01 0xFFFF 0
  else s.raise ⟨4, 1, none, 0x0F02, 0xFFFF, 0⟩

/-- R419. Stage 1, at the instant that R417 gives: sealed store and M0, boot count, management firmware and M1. It stays undone when no
management image verifies (R420). -/
def execBootStage1 (s : State) : Out :=
  if s.mayEnter 1 then
    let s := ((s.advanceTo s.power.bootAt).enterStage 1).checkStore
    if s.fatal then .next s
    else
      let s := s.countBoot
      let s := s.extend 0 (sm3 s.sealedPublic)
      match s.selectImage 1 with
      | (s, some (slot, i)) =>
        .next ((((s.noteImage 1 slot i.svn).setObj Obj.id_FIRMWARE_VERSION i.version).extend 1 (sm3 i.msg)).finishStage 1)
      | (s, none) => .next s
  else .next s

/-- The records of a signed configuration (R429): none when one is cut short or sets its reserved byte. -/
def configRecords : Nat → Bytes → Option (List WEntry)
  | 0, _ => some []
  | fuel + 1, bs =>
    if bs.isEmpty then some []
    else
      let n := leAt bs 4 2
      if bs.length < 6 + n ∨ leAt bs 3 1 ≠ 0 then none
      else (configRecords fuel (bs.drop (ceilDiv (6 + n) 8 * 8))).map (fun l => ⟨leAt bs 0 2, leAt bs 2 1, n, leAt bs 6 n⟩ :: l)

/-- The management addresses without a configuration (R429): the factory MAC and the link-local address formed from it. -/
def State.factoryNet (s : State) : State :=
  let m := s.sealed.mac
  let addr := leBytes 2 0x80FE ++ List.replicate 6 (0 : Byte) ++ [m.getD 0 0 ^^^ 2, m.getD 1 0, m.getD 2 0, 0xFF, 0xFE, m.getD 3 0, m.getD 4 0, m.getD 5 0]
  (s.setObj Obj.mgmt_MGMT_MAC (leNat m)).setObj Obj.mgmt_MGMT_ADDR (leNat addr)

/-- The signed configuration applied as one atomic write (R429): the state and the image applied, if any. Without a type-3 entry in the
directory there is none. -/
def State.applyConfig (s : State) : State × Option (Nat × Image) :=
  if (s.dirEntry 3 0).isNone && (s.dirEntry 3 1).isNone then (s, none)
  else match s.selectImage 3 with
    | (s, none) => (s, none)
    | (s, some (slot, i)) =>
      let reject (s : State) : State × Option (Nat × Image) := (s.imageFailed 3 slot 5, none)
      match configRecords (i.body.length + 1) i.body with
      | none => reject s
      | some es => match s.dictWrite none es with
        | (t, none) => (t, some (slot, i))
        | (_, some _) => reject s

/-- A fresh attestation key (R424). -/
def State.drawAttKey (s : State) : State := { s with sec := { s.sec with attKey := s.freshCtr }, freshCtr := s.freshCtr + 1 }

/-- The attestation key and its certificate (R424, R425). -/
def State.certify (s : State) : State :=
  let s := s.drawAttKey
  let (k, s) := s.fresh
  let ext := sm3 ([0, 1, 2].flatMap s.measure) ++ leBytes 4 s.sealed.bootCount ++ List.replicate 28 (0 : Byte)
  let cert := makeCert 5 (s.sealed.physId % 2 ^ 21) (ecBytes (ecMul s.attPriv ecG)) ext s.sealed.idPub s.sealed.idPriv k
  { s with sec := { s.sec with attCert := cert } }

/-- R419, R429. Stage 2: MGMT and SECURITY enter INIT; the signed configuration and M2; the attestation key. -/
def execBootStage2 (s : State) : Out :=
  if s.mayEnter 2 then
    let s := ((s.enterStage 2).toInit 0).toInit 1
    let s := match s.factoryNet.applyConfig with
      | (s, some (slot, i)) => ((s.noteImage 3 slot i.svn).setObj Obj.id_CONFIG_DIGEST (leNat (sm3 i.bytes))).extend 2 (sm3 i.bytes)
      | (s, none) => (s.setObj Obj.id_CONFIG_DIGEST 0).extend 2 (List.replicate 32 0)
    .next (s.certify.finishStage 2)
  else .next s

/-- An image selected, noted and measured (R419, R427). -/
def State.loadImage (s : State) (type m : Nat) : State × Option Image :=
  match s.selectImage type with
  | (s, some (slot, i)) => ((s.noteImage type slot i.svn).extend m (sm3 i.bytes), some i)
  | (s, none) => (s, none)

/-- R419. Stage 3: POWER enters INIT; PHY firmware and M4. -/
def execBootStage3 (s : State) : Out :=
  if s.mayEnter 3 then .next (((((s.enterStage 3).toInit 2).loadImage 4 4).1).finishStage 3) else .next s

/-- R419. Stage 4, once POWER is RUNNING: TIME, FABRIC, NEAR and BULK enter INIT. -/
def execBootStage4 (s : State) : Out :=
  if s.mayEnter 4 ∧ s.fnState 2 = 3 then .next (([3, 4, 6, 5].foldl State.toInit (s.enterStage 4)).finishStage 4) else .next s

/-- R419, R420. Stage 5: the Xaisk image, M3 and XAISK_VERSION, 0 when none verifies. -/
def execBootStage5 (s : State) : Out :=
  if s.mayEnter 5 then
    match (s.enterStage 5).loadImage 2 3 with
    | (s, some i) => .next ((s.setObj Obj.prog_XAISK_VERSION i.version).finishStage 5)
    | (s, none) => .next ((s.setObj Obj.prog_XAISK_VERSION 0).finishStage 5)
  else .next s

/-- R419. Stage 6: the parcel functions enter INIT, from which they go to READY. -/
def execBootStage6 (s : State) : Out :=
  if s.mayEnter 6 then .next (([8, 9, 10, 11].foldl State.toInit (s.enterStage 6)).finishStage 6) else .next s

end Sys2Proof.Machine
end

