-- ==== Sys2Proof/Machine/Dap.lean ====
section
/-! DEFINITION. The Dictionary Access Protocol (R400 to R406): messages, sessions, READ, WRITE and CLOSE, and what ends a session. -/

namespace Sys2Proof.Machine

/-! ### Messages (R401, R402) -/

/-- A message as R401 lays it out; `head` is what its MAC covers. -/
structure DapMsg where
  type : Nat
  session : Nat
  seq : Nat
  body : Bytes
  head : Bytes
  mac : Bytes
  deriving DecidableEq, Repr

/-- Whether a body can be one of a request of its type (R402, R405); types that are no request's have none. -/
def dapBodyOk (t : Nat) (body : Bytes) : Bool :=
  if t = 0x02 then decide (body.length = 68) && (slice body 1 3 == [0, 0, 0])
  else if t = 0x04 then decide (body.length = 32)
  else if t = 0x10 ∨ t = 0x12 then decide (4 ≤ body.length)
  else decide (t = 0x1E) && body.isEmpty

/-- A datagram read as a request (R401, R6); none of one that is discarded. -/
def dapParse (bs : Bytes) : Option DapMsg :=
  let n := beAt bs 16 2
  let t := byteAt bs 3
  let body := slice bs 20 n
  if bs.length < 20 ∨ beAt bs 0 2 ≠ 0x4450 ∨ byteAt bs 2 ≠ 1 ∨ 1400 < n ∨ bs.length ≠ 20 + n + (if t = 0x02 then 0 else 32)
    ∨ beAt bs 18 2 ≠ 0 ∨ !dapBodyOk t body then none
  else some ⟨t, beAt bs 4 4, beAt bs 8 8, body, bs.take (20 + n), bs.drop (20 + n)⟩

/-- Header and body of a response (R401). -/
def dapHead (type session seq status : Nat) (body : Bytes) : Bytes :=
  beBytes 2 0x4450 ++ [1, BitVec.ofNat 8 type] ++ beBytes 4 session ++ beBytes 8 seq ++ beBytes 2 body.length
    ++ [BitVec.ofNat 8 status, 0] ++ body

/-- A response with its MAC (R401, R403). -/
def dapSealed (key : Bytes) (type session seq status : Nat) (body : Bytes) : Bytes :=
  let h := dapHead type session seq status body
  h ++ hmacSm3 key h

/-! ### Sessions (R403, R404) -/

/-- The session of a number. -/
def State.session (s : State) (id : Nat) : Option Session := s.mgmt.sessions.find? (fun x => decide (x.id = id))

/-- A session without its place in the table. -/
def State.dropSession (s : State) (id : Nat) : State :=
  { s with mgmt := { s.mgmt with sessions := s.mgmt.sessions.filter (fun x => decide (x.id ≠ id)) } }

/-- A session's entry changed, where it still stands. -/
def State.setSession (s : State) (x : Session) : State :=
  { s with mgmt := { s.mgmt with sessions := s.mgmt.sessions.map (fun y => if y.id = x.id then x else y) } }

/-- When a session expires that has its last valid request now (R403, R414). -/
def State.idleAt (s : State) : Nat := s.now + s.obj Obj.mgmt_SESSION_IDLE * 16000000000

/-- The role of a slot (R406, R426). -/
def slotRole (k : OpKey) : Option Role :=
  if k.role = 1 then some .read else if k.role = 2 then some .operate else if k.role = 3 then some .security else none

/-- ID_A (R403). -/
def dapClientId (slot : Nat) : Bytes :=
  strBytes 11 "DAP-CLIENT-" ++ [BitVec.ofNat 8 (0x30 + slot / 10), BitVec.ofNat 8 (0x30 + slot % 10)]

/-- ID_B (R403). -/
def dapDeviceId : Bytes := strBytes 10 "DAP-DEVICE"

/-- OPEN_A refused (R403). -/
def State.refuseOpen (s : State) (cl : DapClient) (m : DapMsg) (status counter : Nat) : State :=
  (s.bump counter).emit (.dap cl (dapHead 0x03 0 m.seq status []))

/-- OPEN_A (R403): AUTH of an empty slot or a key that is none, BUSY of a full table, or a half-open session and OPEN_B. -/
def State.dapOpen (s : State) (cl : DapClient) (m : DapMsg) : State :=
  let slot := byteAt m.body 0
  let k := s.opSlot slot
  let (f, t) := s.fresh
  let rB := f % (sm2N - 1) + 1
  if (slotRole k).isNone then s.refuseOpen cl m dsAuth Obj.mgc_DAP_OPEN_FAIL
  else match sm2ExchangeB (dapClientId slot) dapDeviceId k.key (slice m.body 4 64) s.sealed.mgmtPriv rB with
    | none => s.refuseOpen cl m dsAuth Obj.mgc_DAP_OPEN_FAIL
    | some x =>
      if 8 ≤ s.mgmt.sessions.length then s.refuseOpen cl m dsBusy Obj.mgc_DAP_BUSY
      else
        let id := (Config.sessionBase + s.mgmt.nextId) % 2 ^ 32
        let e : Session := ⟨id, slot, false, x.key.take 32, x.key.drop 32, x.sA, 0, [], s.now + 16000000000⟩
        let t := { t with mgmt := { t.mgmt with sessions := t.mgmt.sessions ++ [e], nextId := t.mgmt.nextId + 1 } }
        (t.bump Obj.mgc_DAP_RX).emit (.dap cl (dapHead 0x03 id m.seq dsOk (ecBytes (ecMul rB ecG) ++ x.sB)))

/-- A message of a session answered, its response stored (R404), where the session still stands; a device that the message reset
(R432) has no session and no count. -/
def State.dapAnswer (s : State) (cl : DapClient) (x : Session) (m : DapMsg) (type status : Nat) (body : Bytes) : State :=
  let r := dapSealed x.keyOut type x.id m.seq status body
  let s := if s.mgmtUp then (s.setSession { x with confirmed := true, last := m.seq, resp := r, expires := s.idleAt }).bump Obj.mgc_DAP_RX else s
  s.emit (.dap cl r)

/-- A request of a confirmed session (R404): MAC, then SEQ; `act` carries out a new one. -/
def State.dapRequest (s : State) (cl : DapClient) (m : DapMsg) (act : State → Session → State) : State :=
  match s.session m.session with
  | none => s.bump Obj.mgc_DAP_MAC_FAIL
  | some x =>
    if !x.confirmed || (hmacSm3 x.keyIn m.head != m.mac) then s.bump Obj.mgc_DAP_MAC_FAIL
    else if m.seq = x.last then
      ((s.setSession { x with expires := s.idleAt }).bump Obj.mgc_DAP_RESENT).emit (.dap cl x.resp)
    else if m.seq = x.last + 1 ∧ m.type ≠ 0x04 then act s x
    else s.bump Obj.mgc_DAP_SEQ_DISCARD

/-- OPEN_C (R403, R404): a wrong S_A discards a half-open session; a right one confirms it. -/
def State.dapConfirm (s : State) (cl : DapClient) (m : DapMsg) : State :=
  match s.session m.session with
  | none => s.bump Obj.mgc_DAP_MAC_FAIL
  | some x =>
    if x.confirmed then s.dapRequest cl m (fun s _ => s)
    else if m.body ≠ x.sA then (s.dropSession x.id).bump Obj.mgc_DAP_OPEN_FAIL
    else if hmacSm3 x.keyIn m.head ≠ m.mac then s.bump Obj.mgc_DAP_MAC_FAIL
    else if m.seq ≠ 0 then s.bump Obj.mgc_DAP_SEQ_DISCARD
    else s.dapAnswer cl x m 0x05 dsOk []

/-! ### READ (R405) -/

/-- An entry of a READ response. -/
def readEntry (e : Bytes) (r : ReadResult) : Bytes :=
  slice e 0 3 ++ [BitVec.ofNat 8 r.status, BitVec.ofNat 8 r.type, 0] ++ beBytes 2 r.value.length ++ r.value

/-- The length of the value that a read of an object carries. -/
def valueLen (idx sub : Nat) : Nat :=
  match objRow idx sub with
  | some r => if r.acc = .wo ∨ r.acc = .cmd then 0 else r.ty.size
  | none => 0

/-- The entries of a READ in order (R405): `used` bytes stand before; once a value would carry the body past 1,400 B, that entry and
every later one are TOO_LARGE and unread. -/
def State.readEntries (keep : Bool) : List Bytes → Nat → Bool → State → State × Bytes
  | [], _, _, s => (s, [])
  | e :: es, used, full, s =>
    let idx := beAt e 0 2
    let sub := byteAt e 2
    let n := valueLen idx sub
    let full := full || (decide (0 < n) && decide (1400 < used + 8 + n + 8 * es.length))
    let (r, s) : ReadResult × State :=
      if full then
        match objRow idx sub with
        | some row => (⟨dsTooLarge, row.ty.code, []⟩, s)
        | none => (let (f, s) := s.fresh; (⟨dsTooLarge, f % 256, []⟩, s))
      else (let (s, r) := s.dictRead keep idx sub; (r, s))
    let b := readEntry e r
    let (s, bs) := State.readEntries keep es (used + b.length) full s
    (s, b ++ bs)

/-- READ (R405): status and body of its response. -/
def State.dapReadBody (s : State) (body : Bytes) : State × Nat × Bytes :=
  let n := byteAt body 0
  let es := pieces 4 (body.drop 4)
  if n = 0 ∨ 64 < n ∨ 1 < byteAt body 1 ∨ beAt body 2 2 ≠ 0 ∨ es.any (fun e => decide (byteAt e 3 ≠ 0)) then (s, dsRange, [])
  else if body.length ≠ 4 + 4 * n then (s, dsLength, [])
  else
    let (s, b) := State.readEntries (byteAt body 1 = 1) es 0 false s
    (s, dsOk, b)

/-! ### WRITE (R405) -/

/-- The entries of a WRITE; none when they do not fill the body, or one sets its reserved byte. -/
def writeEntries : Nat → Bytes → Option (List WEntry)
  | 0, bs => if bs.isEmpty then some [] else none
  | n + 1, bs =>
    let len := beAt bs 4 2
    if bs.length < 6 + len ∨ byteAt bs 3 ≠ 0 then none
    else (writeEntries n (bs.drop (6 + len))).map (fun l => sentEntry (beAt bs 0 2) (byteAt bs 2) (slice bs 6 len) :: l)

/-- WRITE (R405): status and FAIL_ENTRY of its response. FAIL_ENTRY is free where no entry is at fault (log 36). -/
def State.dapWriteBody (s : State) (role : Role) (body : Bytes) : State × Nat × Nat :=
  let n := byteAt body 0
  let (f, t) := s.fresh
  if n = 0 ∨ 32 < n ∨ beAt body 1 3 ≠ 0 then (t, dsRange, f % 256)
  else match writeEntries n (body.drop 4) with
    | none => (t, dsLength, f % 256)
    | some es => match s.dictWrite (some role) es with
      | (s, none) => (s, dsOk, 0xFF)
      | (s, some (i, c)) => (s, c, i)

/-! ### Commands -/

/-- A datagram that a row stands for (R400, R401): discarded and counted when it is no request; a request of another type is another
row's. -/
def State.dap (s : State) (type : Nat) (msg : Bytes) (act : State → DapMsg → State) : State :=
  if !s.mgmtUp then s
  else match dapParse msg with
    | none => s.bump Obj.mgc_DAP_DISCARD
    | some m => if m.type = type then act s m else s

/-- R403. OPEN_A. -/
def execDapOpenA (cl : DapClient) (msg : Bytes) (s : State) : Out := .next (s.dap 0x02 msg (fun s m => s.dapOpen cl m))

/-- R403. OPEN_C. -/
def execDapOpenC (cl : DapClient) (msg : Bytes) (s : State) : Out := .next (s.dap 0x04 msg (fun s m => s.dapConfirm cl m))

/-- R405. READ. -/
def execDapRead (cl : DapClient) (msg : Bytes) (s : State) : Out :=
  .next (s.dap 0x10 msg (fun s m => s.dapRequest cl m (fun s x =>
    let (s, st, body) := s.dapReadBody m.body
    s.dapAnswer cl x m 0x11 st body)))

/-- R405. WRITE, under the role of the session's slot (R406). -/
def execDapWrite (cl : DapClient) (msg : Bytes) (s : State) : Out :=
  .next (s.dap 0x12 msg (fun s m => s.dapRequest cl m (fun s x =>
    let (s, st, i) := s.dapWriteBody ((slotRole (s.opSlot x.slot)).getD .read) m.body
    s.dapAnswer cl x m 0x13 st [BitVec.ofNat 8 i, 0, 0, 0])))

/-- R403. CLOSE: the session ends after its response. -/
def execDapClose (cl : DapClient) (msg : Bytes) (s : State) : Out :=
  .next (s.dap 0x1E msg (fun s m => s.dapRequest cl m (fun s x => (s.dapAnswer cl x m 0x1F dsOk []).dropSession x.id)))

/-- R403. A half-open session has had no valid OPEN_C for 1 s. -/
def execDapHalfOpenExpiry (session : BitVec 32) (s : State) : Out :=
  match s.session session.toNat with
  | some x => .next (if x.confirmed then s else ((s.advanceTo x.expires).dropSession x.id).bump Obj.mgc_DAP_OPEN_FAIL)
  | none => .next s

/-- R403. A session has had no valid request for SESSION_IDLE. -/
def execSessionIdle (session : BitVec 32) (s : State) : Out :=
  match s.session session.toNat with
  | some x => .next (if x.confirmed then (s.advanceTo x.expires).dropSession x.id else s)
  | none => .next s

end Sys2Proof.Machine
end

