-- ==== Sys2Proof/Machine/I3c.lean ====
section
/-! DEFINITION. The I3C view (R409 to R411) and the link of the management port (R400). -/

namespace Sys2Proof.Machine

/-- The dynamic address and the selector set. -/
def State.setI3c (s : State) (addr : Option Nat) (sel : Option (Nat × Nat)) : State :=
  { s with mgmt := { s.mgmt with i3cAddr := addr, i3cSel := sel } }

/-- A transfer that the target answers (R409): both supplies valid and RESET_N high. -/
def State.onI3c (s : State) (act : State → State) : State := if s.poweredUp then act s else s

/-! ### Addresses and common commands (R409) -/

/-- R409. SETDASA: the static address 0x3A gains a dynamic one. -/
def execSetdasa (static_ dynamic : BitVec 7) (s : State) : Out :=
  .next (s.onI3c (fun s => if static_ = 0x3A then s.setI3c (some dynamic.toNat) none else s))

/-- R409. ENTDAA: a target without a dynamic address gains one. -/
def execEntdaa (dynamic : BitVec 7) (s : State) : Out :=
  .next (s.onI3c (fun s => if s.mgmt.i3cAddr.isNone then s.setI3c (some dynamic.toNat) none else s))

/-- R409. RSTDAA: the dynamic address is given up. -/
def execRstdaa (s : State) : Out := .next (s.onI3c (fun s => s.setI3c none none))

/-- The provisional ID (R409). -/
def State.provisionalId (s : State) : Nat := Config.mipiCode % 2 ^ 15 * 2 ^ 33 + s.sealed.physId % 2 ^ 21

/-- A common command directed at the target's dynamic address, and its answer. -/
def State.direct (s : State) (bs : Bytes) : State := s.onI3c (fun s => if s.mgmt.i3cAddr.isSome then s.emit (.i3c bs) else s)

/-- R409. GETPID. -/
def execGetpid (s : State) : Out := .next (s.direct (beBytes 6 s.provisionalId))

/-- R409. GETBCR. -/
def execGetbcr (s : State) : Out := .next (s.direct [0])

/-- R409. GETDCR. -/
def execGetdcr (s : State) : Out := .next (s.direct [0])

/-- R409. GETSTATUS: two bytes that the manual does not give (log 36). -/
def execGetstatus (s : State) : Out :=
  let (f, t) := s.fresh
  .next (t.direct (beBytes 2 f))

/-! ### The view (R410, R411) -/

/-- Whether the view holds an object, and since when: 0 from the view answering, 1 from MGMT, 2 from POWER; none for no object of it. -/
def viewFrom (idx sub : Nat) : Option Nat :=
  if (idx = 0x1000 ∧ 1 ≤ sub ∧ sub ≤ 7) ∨ (idx = 0x2000 ∧ (sub = 1 ∨ sub = 5 ∨ sub = 6))
    ∨ (0x2100 ≤ idx ∧ idx < 0x2110 ∧ isFunction (idx - 0x2100) ∧ sub = 2) then some 0
  else if idx = 0x1100 ∧ sub = 0x10 then some 1
  else if 0x1200 ≤ idx ∧ idx ≤ 0x12FF then
    match objRow idx sub with
    | some r => if r.acc = .ro ∧ r.ty.size ≤ 8 then some (if idx = 0x1200 ∧ 1 ≤ sub ∧ sub ≤ 5 then 0 else 2) else none
    | none => none
  else none

/-- Whether the objects of a class of R411 are available. -/
def State.viewReady (s : State) (c : Nat) : Bool := if c = 0 then true else if c = 1 then s.mgmtUp else decide (s.fnState 2 = 3)

/-- What the view answers of a selector (R410, R411). The type told of what is not in the view is free (log 36). -/
def State.viewRead (s : State) (sel : Option (Nat × Nat)) : State × ReadResult :=
  match sel with
  | none => (let (f, s) := s.fresh; (s, ⟨dsNoObject, f % 256, []⟩))
  | some (idx, sub) =>
    match viewFrom idx sub, objRow idx sub with
    | some c, some r =>
      if s.viewReady c then
        let (s, v) := s.readValue idx sub r
        let v := if idx = 0x2000 ∧ sub = 5 ∧ !s.mgmtUp then v / 2 ^ 120 * 2 ^ 120 else v
        (s, ⟨dsOk, r.ty.code, wireOf r.ty v⟩)
      else (s, ⟨dsState, r.ty.code, []⟩)
    | _, _ => (let (f, s) := s.fresh; (s, ⟨dsNotInView, f % 256, []⟩))

/-- The bytes of an answer, with PEC over the selector and them (R410). -/
def viewBytes (sel : Option (Nat × Nat)) (r : ReadResult) : Bytes :=
  let a : Bytes := [BitVec.ofNat 8 r.status, BitVec.ofNat 8 r.type, BitVec.ofNat 8 r.value.length] ++ r.value
  let h : Bytes := match sel with | some (idx, sub) => beBytes 2 idx ++ beBytes 1 sub | none => []
  a ++ [BitVec.ofNat 8 (crc8 (h ++ a))]

/-- R410. The selector: a private write of any length other than 3 bytes is ignored. -/
def execI3cSelectorWrite (data : Bytes) (s : State) : Out :=
  .next (s.onI3c (fun s =>
    if s.mgmt.i3cAddr.isSome ∧ data.length = 3 then s.setI3c s.mgmt.i3cAddr (some (beAt data 0 2, byteAt data 2)) else s))

/-- R410. A private read. -/
def execI3cPrivateRead (s : State) : Out :=
  .next (s.onI3c (fun s =>
    if s.mgmt.i3cAddr.isSome then
      let sel := s.mgmt.i3cSel
      let (s, r) := s.viewRead sel
      let s := s.bump Obj.mgc_I3C_READS
      let s := if r.status = dsNotInView ∨ r.status = dsNoObject then s.bump Obj.mgc_I3C_NOT_IN_VIEW else s
      s.emit (.i3c (viewBytes sel r))
    else s))

/-! ### The management port's link (R400) -/

/-- MGMT_LINK and what the port tries. -/
def State.setMgmtLink (s : State) (v : Nat) (slow : Bool) : State :=
  { s with mgmt := { s.mgmt with slowLink := slow } }.setObj Obj.mgmt_MGMT_LINK v

/-- The port is run by MGMT, which has left OFF. -/
def State.mgmtLinkOn (s : State) : Bool := decide (s.fnState 0 ≠ 0)

/-- R400. The port locks in the mode that it tries. -/
def execMgmtLinkUp (gigabit : Bool) (s : State) : Out :=
  .next (if s.mgmtLinkOn ∧ s.obj Obj.mgmt_MGMT_LINK = 0 ∧ s.mgmt.slowLink = gigabit then s.setMgmtLink (if gigabit then 2 else 1) gigabit else s)

/-- R400. The link is lost: 10GBASE-R is tried again. -/
def execMgmtLinkDown (s : State) : Out :=
  .next (if s.mgmtLinkOn ∧ s.obj Obj.mgmt_MGMT_LINK ≠ 0 then s.setMgmtLink 0 false else s)

/-- R400. 10GBASE-R has not locked within 2 s. -/
def execMgmtLinkFallback (s : State) : Out :=
  .next (if s.mgmtLinkOn ∧ s.obj Obj.mgmt_MGMT_LINK = 0 ∧ !s.mgmt.slowLink then s.setMgmtLink 0 true else s)

end Sys2Proof.Machine
end

