-- ==== Sys2Proof/Machine/Issue.lean ====
section
/-! DEFINITION. The issue of the queued operations (R105, R458): each is checked, its operands read and its descriptors
copied, and placed in its engine's queue (R72, R73, R78). -/

namespace Sys2Proof.Machine

/-- The issue checks of a list of descriptor operands. -/
def State.handles (s : State) (i : Issue) (hs : List HRef) : List Nat :=
  hs.flatMap ((s.core i.core).hrefCheck i.routine)

/-- `mxe.mm` (R113). -/
def execMxeMm (i : Issue) (hC hA hB : HRef) (clr : Bool) (step : Option Reg) (s : State) : Out :=
  .next (s.enqueue i .mxe (s.handles i [hC, hA, hB])
    (fun k => .mm (k.copyDesc hC) (k.copyDesc hA) (k.copyDesc hB) clr (k.step step)))

/-- `mxe.mmg`: the base is read at issue (R121). -/
def execMxeMmg (i : Issue) (hC hA hB : HRef) (f : Flag) (base : Reg) (axis : GatherAxis) (clr : Bool) (step : Option Reg)
    (s : State) : Out :=
  .next (s.enqueue i .mxe (flagCheck i.routine f ++ s.handles i [hC, hA, hB])
    (fun k => .mmg (k.copyDesc hC) (k.copyDesc hA) (k.copyDesc hB) f ((k.reg base).toNat % 2 ^ 32) axis clr (k.step step)))

/-- `mxe.drain` (R116). -/
def execMxeDrain (i : Issue) (hC hD : HRef) (step : Option Reg) (s : State) : Out :=
  .next (s.enqueue i .mxe (s.handles i [hC, hD]) (fun k => .drain (k.copyDesc hC) (k.copyDesc hD) (k.step step)))

/-- `vxe.map` (R127). -/
def execVxeMap (i : Issue) (hD hA : HRef) (fn : BitVec 8) (s : State) : Out :=
  .next (s.enqueue i .vxe (s.handles i [hD, hA]) (fun k => .map (k.copyDesc hD) (k.copyDesc hA) fn.toNat))

/-- `vxe.zip` (R127). -/
def execVxeZip (i : Issue) (hD hA hB : HRef) (fn : BitVec 8) (s : State) : Out :=
  .next (s.enqueue i .vxe (s.handles i [hD, hA, hB])
    (fun k => .zip (k.copyDesc hD) (k.copyDesc hA) (k.copyDesc hB) fn.toNat))

/-- `vxe.fma` (R125). -/
def execVxeFma (i : Issue) (hD hA hB hC : HRef) (s : State) : Out :=
  .next (s.enqueue i .vxe (s.handles i [hD, hA, hB, hC])
    (fun k => .fma (k.copyDesc hD) (k.copyDesc hA) (k.copyDesc hB) (k.copyDesc hC)))

/-- `vxe.red` (R129). -/
def execVxeRed (i : Issue) (hD hA : HRef) (k : Fin 4) (op : RedOp) (clr : Bool) (step : Option Reg) (s : State) : Out :=
  .next (s.enqueue i .vxe (s.handles i [hD, hA])
    (fun q => .red (q.copyDesc hD) (q.copyDesc hA) k.val op clr (q.step step)))

/-- `vxe.conv` (R37). -/
def execVxeConv (i : Issue) (hD hA : HRef) (step : Option Reg) (s : State) : Out :=
  .next (s.enqueue i .vxe (s.handles i [hD, hA]) (fun k => .conv (k.copyDesc hD) (k.copyDesc hA) (k.step step)))

/-- `vxe.rand` (R42). -/
def execVxeRand (i : Issue) (hD : HRef) (stream : BitVec 16) (step : Reg) (s : State) : Out :=
  .next (s.enqueue i .vxe (s.handles i [hD])
    (fun k => .rand (k.copyDesc hD) stream.toNat ((k.reg step).toNat % 2 ^ 32)))

/-- `spe.mm` (R145). -/
def execSpeMm (i : Issue) (hC hA hB : HRef) (clr : Bool) (routeSpe : Bool) (step : Option Reg) (s : State) : Out :=
  .next (s.enqueue i .spe (s.handles i [hC, hA, hB])
    (fun k => .speMm (k.copyDesc hC) (k.copyDesc hA) (k.copyDesc hB) clr routeSpe (k.step step)))

/-- `spe.pack` (R151). -/
def execSpePack (i : Issue) (hD hA : HRef) (prune : Bool) (s : State) : Out :=
  .next (s.enqueue i .spe (s.handles i [hD, hA]) (fun k => .pack (k.copyDesc hD) (k.copyDesc hA) prune))

/-- `txe.put` (R96). -/
def execTxePut (i : Issue) (hD hS : HRef) (tc : ClassId) (step : Option Reg) (dflag : Option (Src × Flag)) (s : State) :
    Out :=
  .next (s.enqueue i .txe (dflagCheck dflag ++ s.handles i [hD, hS])
    (fun k => .put (k.copyDesc hD) (k.copyDesc hS) tc (k.step step) (k.dflag dflag)))

/-- `txe.get` (R96). -/
def execTxeGet (i : Issue) (hD hS : HRef) (tc : ClassId) (dflag : Option (Src × Flag)) (s : State) : Out :=
  .next (s.enqueue i .txe (dflagCheck dflag ++ s.handles i [hD, hS])
    (fun k => .get (k.copyDesc hD) (k.copyDesc hS) tc (k.dflag dflag)))

/-- `txe.acc` (R96). -/
def execTxeAcc (i : Issue) (hD hS : HRef) (tc : ClassId) (dflag : Option (Src × Flag)) (s : State) : Out :=
  .next (s.enqueue i .txe (dflagCheck dflag ++ s.handles i [hD, hS])
    (fun k => .acc (k.copyDesc hD) (k.copyDesc hS) tc (k.dflag dflag)))

/-- `txe.ring` (R97). -/
def execTxeRing (i : Issue) (r : Fin 16) (h : HRef) (fp fc : Flag) (s : State) : Out :=
  .next (s.enqueue i .txe (flagCheck i.routine fp ++ flagCheck i.routine fc ++ s.handles i [h])
    (fun k => .ring r (k.copyDesc h) fp fc))

/-- `txe.msg`: the destination's device in [19:0] and core in [31:20] of a register (R97, R458). -/
def execTxeMsg (i : Issue) (dest : Reg) (r : Fin 16) (a : Src) (n : Src) (tc : ClassId) (s : State) : Out :=
  .next (s.enqueue i .txe [] (fun k =>
    let w := (k.reg dest).toNat
    .msg (w % 2 ^ 20) (field w 31 20) r (k.val a).toNat (k.val32 n) tc))

/-- `txe.digest` (R98). -/
def execTxeDigest (i : Issue) (a : Src) (hS : HRef) (s : State) : Out :=
  .next (s.enqueue i .txe (s.handles i [hS]) (fun k => .digest (k.val a).toNat (k.copyDesc hS)))

/-- `txe.fill` (R98, R458). -/
def execTxeFill (i : Issue) (hD : HRef) (pat : Reg) (tc : ClassId) (s : State) : Out :=
  .next (s.enqueue i .txe (s.handles i [hD]) (fun k => .fill (k.copyDesc hD) (k.reg pat).toNat tc))

end Sys2Proof.Machine
end

