-- ==== Sys2Proof/Machine/MgmtPkt.lean ====
section
/-! DEFINITION. Management over Renensan (R192, R196, R408): mgmt packets admitted, carried out on the dictionary and answered. -/

namespace Sys2Proof.Machine

/-- The kind of access of a mgmt packet (R193): 0 read, 1 write, 2 command. -/
def mgmtKind (k : Packet) : Nat := field k.argN 1 0

/-- Whether a peer's entry permits a mgmt packet (R196, R219). -/
def State.peerManages (s : State) (i : Nat) (k : Packet) : Bool :=
  (s.obj (Obj.peer_PEER_OPS i)).testBit (if mgmtKind k = 0 then 4 else 5)

/-- The role that FABRIC_MGMT gives (R408). -/
def State.fabricRole (s : State) : Role := if s.obj Obj.topo_FABRIC_MGMT = 2 then .operate else .read

/-- An admitted mgmt packet carried out (R408): the dictionary code, and the value read. -/
def State.mgmtAccess (s : State) (k : Packet) : State × Nat × Bytes :=
  let off := addrOff k.addrN
  if addrSpace k.addrN ≠ 5 ∨ 2 ^ 24 ≤ off then (s, dsNoObject, [])
  else if mgmtKind k = 0 then
    if k.payload.isEmpty then
      let (s, r) := s.dictRead false (off / 256) (off % 256)
      (s, r.status, r.value)
    else
      (s, match objRow (off / 256) (off % 256) with
        | none => dsNoObject
        | some r => if r.acc = .wo ∨ r.acc = .cmd then dsWriteOnly else dsLength, [])
  else
    match s.dictWrite (some s.fabricRole) [sentEntry (off / 256) (off % 256) k.payload] with
    | (s, none) => (s, dsOk, [])
    | (s, some (_, c)) => (s, c, [])

/-- A mgmt packet answered (R192, R194, R408): the code in ARG[15:8], and STATUS. -/
def State.mgmtAnswer (s : State) (at_ : RxAt) (k : Packet) (code : Nat) (value : Bytes) : State :=
  let s := if code ≠ dsOk then s.bump Obj.mgc_MGMT_PKT_REFUSED else s
  s.reply (s.deliverTo k) at_
    { s.response k (if code = dsOk then stOk else stMgmtRefused) value with arg := BitVec.ofNat 48 (code * 256) }

/-- A mgmt packet taken (R196 step 3): discarded when not admitted, else counted, carried out and answered. -/
def State.takeMgmt (s : State) (at_ : RxAt) (k : Packet) : State :=
  let r := (s.taken at_ k).checkRequest at_ k
  match r.peer with
  | none => r.s
  | some peer =>
    let s := r.s
    let may := match peer with | some i => s.peerManages i k | none => true
    if s.obj Obj.topo_FABRIC_MGMT = 0 ∨ !s.mgmtUp ∨ !may then s.refuseRx at_
    else
      let s := s.notePeer peer
      let (t, code, value) := (s.bump Obj.mgc_MGMT_PKT_RX).mgmtAccess k
      t.mgmtAnswer at_ k code value

/-- A mgmt packet of one kind that stands received. -/
def State.rxMgmt (s : State) (at_ : RxAt) (k : Packet) (kind : Nat) : State :=
  if k.op = opMgmt ∧ mgmtKind k = kind ∧ !k.resp ∧ s.received at_ k then s.takeMgmt at_ k else s

/-- R408. A mgmt read. -/
def execMgmtRead (at_ : RxAt) (k : Packet) (s : State) : Out := .next (s.rxMgmt at_ k 0)

/-- R408. A mgmt write. -/
def execMgmtWrite (at_ : RxAt) (k : Packet) (s : State) : Out := .next (s.rxMgmt at_ k 1)

/-- R408. A mgmt command. -/
def execMgmtCommand (at_ : RxAt) (k : Packet) (s : State) : Out := .next (s.rxMgmt at_ k 2)

end Sys2Proof.Machine
end

