-- ==== Sys2Proof/Machine/OptStep.lean ====
section
/-! DEFINITION. The Xaisk routine OPT_STEP (R132, R133). -/

namespace Sys2Proof.Machine

/-- An optimizer record (R132): its algorithm, its handles and its FP32 parameters. -/
structure OptRec where
  alg : Nat
  hIn : Nat
  hOut : Nat
  hG : Nat
  hM : Nat
  hV : Nat
  par : List Num
  rsvd : Bool
  deriving DecidableEq, Repr

/-- A record read from 64 bytes of SRAM: the parameters LR, B1, C1, B2, C2, EPS, WD, K1, K2 and GSCALE in this order. -/
def State.optRec (s : State) (a : Nat) : OptRec :=
  let f (o n : Nat) : Nat := s.readNat (a + o) n
  { alg := f 0 1, hIn := f 4 2, hOut := f 6 2, hG := f 8 2, hM := f 10 2, hV := f 12 2,
    par := (List.range 10).map (fun i => decodeElem .fp32 false (f (16 + 4 * i) 4)),
    rsvd := decide (f 1 3 ≠ 0) || decide (f 14 2 ≠ 0) || decide (f 56 8 ≠ 0) }

/-- The descriptor a handle of a record names. -/
def Core.optDesc (k : Core) (h : Nat) : Desc := Desc.parse (Sparse.get 0 k.desc (h % 4096))

/-- A value with the count of its saturations on the way. -/
abbrev Fl := Num × Nat

/-- Rounded once to FP32 to nearest even (R38, R133). -/
def Fl.round (x : Num) (n : Nat) : Fl := let r := roundFp32 x; (r.1, n + b2n r.2)

/-- One element of a record (R133): the parameters, w, g, m and v; the results w1, m1 and v1 with the saturations on the way. -/
def optElem (alg : Nat) (par : List Num) (w g m v : Num) : Num × Num × Num × Nat :=
  let p (i : Nat) : Num := par.getD i .zero
  let (g, n) := Fl.round (g.prod (p 9)) 0
  let (wd, n) := Fl.round ((p 6).prod w) n
  if alg = 1 then
    let (m1, n) := Fl.round (vxeFma (p 1) m g) n
    let (u, n) := Fl.round (m1.plus wd) n
    let (lu, n) := Fl.round ((p 0).prod u) n
    let (w1, n) := Fl.round (w.plus lu.neg) n
    (w1, m1, v, n)
  else
    let (cg, n) := Fl.round ((p 2).prod g) n
    let (m1, n) := Fl.round (vxeFma (p 1) m cg) n
    let (gg, n) := Fl.round (g.prod g) n
    let (cgg, n) := Fl.round ((p 4).prod gg) n
    let (v1, n) := Fl.round (vxeFma (p 3) v cgg) n
    let (mk, n) := Fl.round (m1.prod (p 7)) n
    let (vk, n) := Fl.round (v1.prod (p 8)) n
    let (rt, n) := Fl.round vk.root n
    let (de, n) := Fl.round (rt.plus (p 5)) n
    let (q, n) := Fl.round (mk.quot de) n
    let (u, n) := Fl.round (q.plus wd) n
    let (lu, n) := Fl.round ((p 0).prod u) n
    let (w1, n) := Fl.round (w.plus lu.neg) n
    (w1, m1, v1, n)

/-- A weight or moment operand: its own rules and a format it may have. -/
def Desc.optCheck (d : Desc) (fmts : Bool) : List Nat :=
  d.selfCheck true ++ d.denseCheck ++ need (fmts && d.alignOk) fFmtCombo

/-- The faults of a record (R81, R132; log 33). -/
def State.optFaults (s : State) (c n : Nat) (r : OptRec) : List Nat :=
  let k := s.core c
  let hs := [r.hIn, r.hOut, r.hG, r.hM] ++ (if r.alg = 2 then [r.hV] else [])
  let ds := hs.map k.optDesc
  let d (h : Nat) : Desc := k.optDesc h
  let moment (x : Desc) : Bool := decide (x.fmt = .fp32) || decide (x.fmt = .bf16)
  let wr := [d r.hOut, d r.hM] ++ (if r.alg = 2 then [d r.hV] else [])
  need (decide (r.alg = 1 ∨ r.alg = 2) && !r.rsvd) fFmtCombo
  ++ hs.flatMap (k.handleCheck false)
  ++ (d r.hIn).optCheck (d r.hIn).fmt.isFloat ++ (d r.hOut).optCheck (d r.hOut).fmt.isFloat
  ++ (d r.hG).optCheck ((d r.hG).fmt.isExact) ++ (d r.hM).optCheck (moment (d r.hM))
  ++ (if r.alg = 2 then (d r.hV).optCheck (moment (d r.hV)) else [])
  ++ need (decide ((d r.hG).terms ≠ 0)) fAccTerms
  ++ need (ds.all (fun x => decide (x.exts = (d r.hIn).exts) && decide (x.lext = (d r.hIn).lext))) fShape
  ++ s.localFaults n false (ds.flatMap Desc.allRegions) ++ s.localFaults n true (wr.flatMap Desc.allRegions)

/-- The first uncorrectable location that a record's reads meet (R167). -/
def State.optBad (s : State) (ds : List Desc) : Option Nat :=
  firstSome ((ds.flatMap Desc.allRegions).map (fun r => s.firstBad false r.1 r.2))

/-- Values written to a tensor with what the write counts (R39). -/
def State.optStore (s : State) (c : Nat) (d : Desc) (key : Option (BitVec 32)) (rows : List (List Num)) : State :=
  let (s, sats, nans) := s.storeValues d key rows
  s.countConv c 2 d.fmt sats nans

/-- A record carried out (R133): the state, and the status and excess of its gradient. -/
def State.optRun (s : State) (c step : Nat) (r : OptRec) : State × Nat × Nat :=
  let k := s.core c
  let wi := k.optDesc r.hIn
  let wo := k.optDesc r.hOut
  let g := k.optDesc r.hG
  let m := k.optDesc r.hM
  let v := k.optDesc r.hV
  if wi.empty then (s, 0, 0)
  else
    let (gs, fails) := s.exactRows g
    let (ws, nw) := s.operand wi
    let (ms, nm) := s.operand m
    let (vs, nv) := if r.alg = 2 then s.operand v else (ms, 0)
    let s := s.residueFails c fails
    let outs := (List.range wi.rows).map (fun i =>
      List.zipWith (fun (x : Num × Da) (y : Num × Num) =>
        let gv := roundFp32 (convertOut g.fmt g.anchor Q.one g.divisor x.2)
        let o := optElem r.alg r.par x.1 gv.1 y.1 y.2
        (o.1, o.2.1, o.2.2.1, o.2.2.2 + b2n gv.2)) (List.zip (ws.getD i []) (gs.getD i [])) (List.zip (ms.getD i []) (vs.getD i [])))
    let sats := sumN (outs.map (fun row => sumN (row.map (fun o => o.2.2.2)))) + nw + nm + nv
    let s := s.countCore c 0x20 sats
    let s := s.optStore c m none (outs.map (·.map (fun o => o.2.1)))
    let s := if r.alg = 2 then s.optStore c v none (outs.map (·.map (fun o => o.2.2.1))) else s
    let s := s.optStore c wo (some (ditherKey (s.coreSeed c) step 0x0001)) (outs.map (·.map (fun o => o.1)))
    let ins := [wi, g, m, v].filter (fun a => decide (a ≠ wo) && !isWindow wo.base)
    s.overlapped wo ins (statusRows gs)

/-- Records carried out one after another; a record that faults ends the routine with its core fault. -/
def State.optRecords (s : State) (c n base step : Nat) : Nat → Nat → Nat → Nat → State
  | 0, _, st, ex => s.modCore c (fun k => k.setReg 1 (BitVec.ofNat 64 (ex % 16 * 256 + st)))
  | left + 1, i, st, ex =>
    let r := s.optRec (sramAddr c (base + 64 * i))
    match lowest (s.optFaults c n r) with
    | some code => s.coreFault c 0 code (s.opsIssued c - 1)
    | none =>
      let k := s.core c
      let ds := [r.hIn, r.hG, r.hM].map k.optDesc ++ (if r.alg = 2 then [k.optDesc r.hV] else [])
      match s.optBad ds with
      | some a => (s.memUncorrected a).coreFault c 0 fMemUncorrected (s.opsIssued c - 1)
      | none =>
        let (s, st', ex') := s.optRun c step r
        s.optRecords c n base step left (i + 1) (max st st') (max ex ex')

/-- `lib.call` OPT_STEP (R132): s1 the first record, s2 the step, s3 the count. -/
def execOptStep (c : CoreId) (s : State) : Out :=
  let k := s.core c
  let base := (k.reg 1).toNat
  let count := (k.reg 3).toNat
  let faults := need (decide (1 ≤ count ∧ count ≤ 256)) fFmtCombo ++ sramCheck base (64 * count) 8
  .next (s.control c false faults (fun s =>
    s.optRecords c ((s.coreParcel c).getD 0) base ((k.reg 2).toNat % 2 ^ 32) count 0 0 0))

end Sys2Proof.Machine
end

