-- ==== Sys2Proof/Machine/SteCmd.lean ====
section
/-! DEFINITION. The commands of the stream engines (R264 to R288), the responses a device takes (R194, R197) and the resending of
requests answered RING_FULL (R97, R275, R299). -/

namespace Sys2Proof.Machine

/-- START sampled, or a command that is refused (R267). A packet held for the engine lands once it waits (R299). -/
def execSteStart (j : EngineId) (s : State) : Out :=
  let t := s.slotStart
  .next (if t.stePending j && decide (t.stePeek j 0 1 ≠ 2) then (t.steTake j).landHeld else s)

/-- STOP sampled (R267, R287). -/
def execSteStop (j : EngineId) (s : State) : Out :=
  let t := s.slotStart
  .next (if t.stePending j && decide (t.stePeek j 0 1 = 2) then t.steTake j else s)

/-- The earliest of some instances by a time each may have. -/
def firstColl (l : List (Nat × Coll)) : Option (Nat × Coll) :=
  l.foldl (fun (b : Option (Nat × Coll)) e => match b with | none => some e | some x => if e.1 < x.1 then some e else some x) none

/-- The instances of an engine that have not begun, by the instant of their slot (R301). -/
def State.collsToBegin (s : State) (j : Nat) : List (Nat × Coll) :=
  (s.colls.filter (fun c => !c.begun && !c.failed && decide (s.phaseEngine c.group c.cseq 1 = j))).map (fun c => (c.startSlot * 1024, c))

/-- A run begins at its slot with fresh parameters (R267 to R269); where the engine awaits none, an instance that falls on it begins
in its START_SLOT (R301). -/
def execSteRunBegin (j : EngineId) (s : State) : Out :=
  let e := s.ste j
  let v := s.steState j
  if s.steLive j && (decide (v = 1) || (decide (v = 2) && decide (e.at_ = .between))) then
    let t := s.advanceTo (e.runSlot * 1024)
    .next (if e.runSlot * 1024 ≤ t.now then t.steBegin j else s)
  else
    match firstColl (s.collsToBegin j) with
    | some (a, c) =>
      let t := s.advanceTo a
      .next (if a ≤ t.now then t.collBegin c else s)
    | none => .next s

/-- The instructions of a stage carried out, and its end once every packet it sent is answered OK (R278). -/
def execSteStageEnd (j : EngineId) (s : State) : Out :=
  match s.steParcel j with
  | some n =>
    if s.steState j ≠ 2 then .next s
    else
      let s := if (s.ste j).at_ = .stage then s.steStage j n else s
      let e := s.ste j
      .next (if s.steState j = 2 ∧ e.at_ = .sent ∧ e.out = [] then s.stageEnd j n else s)
  | none => .next s

/-- A run ends (R269). -/
def execSteRunEnd (j : EngineId) (s : State) : Out :=
  let e := s.ste j
  match s.steParcel j with
  | some n => .next (if s.steState j = 2 ∧ e.at_ = .flags ∧ e.out = [] then (s.steRecord j n).landHeld else s)
  | none => .next s

/-- A run that has not ended RUN_TIMEOUT slots after its start faults (R269). -/
def execSteExpired (j : EngineId) (s : State) : Out :=
  let e := s.ste j
  if s.steState j = 2 ∧ e.at_ ≠ .between ∧ e.at_ ≠ .notify then
    let due := (e.runSlot + e.runTimeout) * 1024
    let t := s.advanceTo due
    .next (if due ≤ t.now then t.steFault j steExpired noPc 0xFF else s)
  else .next s

/-- REMOTE_TIMEOUT of a parcel in Fabric Time units (R111). -/
def State.remoteOf (s : State) (n : Nat) : Nat := s.obj (Obj.partmo_REMOTE_TIMEOUT n) * 1024

/-- Earliest first sending of unanswered packets. -/
def oldest (l : List SteOut) : Option Nat := (l.map SteOut.at_).foldl (fun (m : Option Nat) x => match m with | none => some x | some y => some (min x y)) none

/-- The instances of an engine with unanswered packets, by the instant at which the oldest expires. -/
def State.collsExpiring (s : State) (j : Nat) : List (Nat × Coll) :=
  s.colls.filterMap (fun c =>
    match oldest (c.out.filter (fun o => decide (o.pkt.srcCore.toNat = 0xF00 + j)
        || (decide (o.pkt.srcCore.toNat < 1152) && decide (s.phaseEngine c.group c.cseq 1 = j)))) with
    | some t => some (t + s.remoteOf c.parcel, c)
    | none => none)

/-- A packet with no OK response within REMOTE_TIMEOUT of its first sending: the engine faults (R275, R283), or the instance it
belongs to ends here without a result (R302). -/
def execSteRemote (j : EngineId) (s : State) : Out :=
  match oldest (s.ste j).out, s.steParcel j with
  | some t0, some n =>
    let t := s.advanceTo (t0 + s.remoteOf n)
    .next (if t0 + s.remoteOf n ≤ t.now then t.steFault j steRemote noPc 0xFF else s)
  | _, _ =>
    match firstColl (s.collsExpiring j) with
    | some (a, c) =>
      let t := s.advanceTo a
      if a ≤ t.now then
        let (t, c) := t.collFault c steRemote
        .next (t.collFailed c)
      else .next s
    | none => .next s

/-- The deadline of a RECV input passes (R274): slots not landed whole are excluded and what landed of them is discarded. -/
def State.recvDeadline (s : State) (j q : Nat) : State :=
  let e := s.ste j
  let par := e.run % 2
  let miss := (e.awaited q par).filter (fun sl => !e.slotDone q par sl)
  let gone (k : Nat) : Bool := decide (k / 2 ^ 26 = q * 2 + par) && miss.contains (k / 2 ^ 20 % 64)
  s.setSte j { e with
    excluded := Sparse.modify 0 e.excluded (q * 2 + par) (fun m => miss.foldl (fun m sl => m ||| 2 ^ sl) m)
    landed := e.landed.filter (fun x => !gone x.1)
    differ := e.differ.filter (fun x => !gone x.1) }

/-- The deadline of a RECV input of a run, or of an instance whose contributions fall on the engine (R274, R314). -/
def execSteRecvDeadline (j : EngineId) (q : Fin 8) (s : State) : Out :=
  let e := s.ste j
  let b := e.inb q
  if s.steState j = 2 ∧ e.at_ ≠ .between ∧ b.kind = 2 ∧ b.deadline ≠ 0 then
    let due := (e.runSlot + b.deadline) * 1024
    let t := s.advanceTo due
    .next (if due ≤ t.now then t.recvDeadline j q else s)
  else
    let l := s.colls.filterMap (fun c => if s.phaseEngine c.group c.cseq 1 = j.val then c.dueAt.map (fun t => (t, c)) else none)
    match firstColl l with
    | some (a, c) =>
      let t := s.advanceTo a
      match c.rounds.head? with
      | some (.reduce _ d) => .next (if a ≤ t.now then t.collDeadline c d else s)
      | _ => .next s
    | none => .next s

/-! ### Responses (R194, R197) -/

/-- The instance and place of an unanswered packet by its source and TAG. -/
def State.findCollOut (s : State) (srcCore tag : Nat) : Option (Coll × Nat) :=
  firstSome (s.colls.map (fun c =>
    (c.out.findIdx? (fun o => decide (o.pkt.srcCore.toNat = srcCore) && decide (o.pkt.tag.toNat = tag))).map (fun i => (c, i))))

/-- The answer to packet i of an instance (R275, R299, R302). -/
def State.collAnswer (s : State) (c : Coll) (i status : Nat) : State :=
  match c.out[i]? with
  | none => s
  | some o =>
    if status = stRingFull then s.setColl { c with out := c.out.set i { o with full := some s.now } }
    else if status ≠ stOk then
      let (s, c) := s.collFault c steRemote
      s.collFailed c
    else s.collRun { c with out := c.out.eraseIdx i }

/-- A response for an instance, or none that awaits it. -/
def State.collResponse (s : State) (at_ : RxAt) (src : Nat) (k : Packet) : State :=
  match s.findCollOut src k.tag.toNat with
  | some (c, i) =>
    match c.out[i]? with
    | some o => if k.answers o.pkt && o.full.isNone then s.collAnswer c i k.status.toNat else s.discardRx at_
    | none => s.discardRx at_
  | none => s.discardRx at_

/-- A response for stream engine j (R275, R283): its own packet's, or an instance's. -/
def State.steResponse (s : State) (at_ : RxAt) (j : Nat) (k : Packet) : State :=
  match (s.ste j).out.findIdx? (fun o => decide (o.pkt.tag = k.tag)) with
  | some i =>
    match (s.ste j).out[i]? with
    | some o => if k.answers o.pkt && o.full.isNone then s.steAnswer j i k.status.toNat k.payload else s.discardRx at_
    | none => s.discardRx at_
  | none => s.collResponse at_ (0xF00 + j) k

/-- A response received: checked, routed onward when it is another device's, and matched by DST_CORE and TAG (R191, R194, R197). -/
def execRxResponse (at_ : RxAt) (k : Packet) (s : State) : Out :=
  if k.resp && s.received at_ k then
    let s := s.taken at_ k
    if !k.responseOk (s.lenLimit at_) then .next (s.discardRx at_)
    else if k.dst.toNat ≠ s.logicalId then .next (s.onward at_ k)
    else
      let c := k.dstCore.toNat
      if c < 1152 then
        .next (match (s.core c).findOut k.tag.toNat with
          | some _ => s.coreResponse at_ c k
          | none => s.collResponse at_ c k)
      else if 0xF00 ≤ c ∧ c < 0xF30 then .next (s.steResponse at_ (c - 0xF00) k)
      else .next (s.discardRx at_)
  else .next s

/-- A packet of an instance answered RING_FULL sent again a slot later (R299). -/
def State.resendColl (s : State) (src tag x : Nat) : State :=
  match s.findCollOut src tag with
  | some (c, i) =>
    match (c.out[i]?).bind (fun o => o.full.map (fun t => (o, t))) with
    | some (o, t) =>
      let s' := s.advanceTo (t + 1024)
      if t + 1024 ≤ s'.now ∧ s'.now < o.at_ + s.remoteOf c.parcel then
        (s'.setColl { c with out := c.out.set i { o with full := none } }).inject x o.pkt
      else s
    | none => s
  | none => s

/-- A request answered RING_FULL is sent again, once per slot until REMOTE_TIMEOUT (R97, R275, R299). -/
def execTxeResend (who : Sender) (s : State) : Out :=
  match who with
  | .core c tag =>
    .next (match (s.core c).findOut tag.toNat with
      | some _ => s.resendCore c tag.toNat
      | none => s.resendColl c.val tag.toNat (corePort c))
  | .engine j tag =>
    .next (match (s.ste j).out.findIdx? (fun o => decide (o.pkt.tag = tag)) with
      | some _ => s.resendSte j tag.toNat
      | none => s.resendColl (0xF00 + j) tag.toNat (steEnd j))

end Sys2Proof.Machine
end

