-- ==== Sys2Proof/Machine/Dispatch.lean ====
section
/-! DEFINITION. The meaning of every command: one arm per constructor of Instr, each one direct call of its meaning. -/

namespace Sys2Proof.Machine

/-- The effect of a command on everything but the queue. -/
def exec (i : Instr) (s : State) : Host.Outcome State Fault Refusal :=
  match i with
  | .scLi c d v => Sys2Proof.Machine.execScLi c d v s
  | .scAdd c d a b => Sys2Proof.Machine.execScAdd c d a b s
  | .scSub c d a b => Sys2Proof.Machine.execScSub c d a b s
  | .scMul c d a b => Sys2Proof.Machine.execScMul c d a b s
  | .scAnd c d a b => Sys2Proof.Machine.execScAnd c d a b s
  | .scOr c d a b => Sys2Proof.Machine.execScOr c d a b s
  | .scXor c d a b => Sys2Proof.Machine.execScXor c d a b s
  | .scShl c d a b => Sys2Proof.Machine.execScShl c d a b s
  | .scShr c d a b => Sys2Proof.Machine.execScShr c d a b s
  | .scCmp c d a b => Sys2Proof.Machine.execScCmp c d a b s
  | .scLd c d a => Sys2Proof.Machine.execScLd c d a s
  | .scSt c v a => Sys2Proof.Machine.execScSt c v a s
  | .descSet c routine d i1 a => Sys2Proof.Machine.execDescSet c routine d i1 a s
  | .descGet c routine h a => Sys2Proof.Machine.execDescGet c routine h a s
  | .flagSet c routine f v => Sys2Proof.Machine.execFlagSet c routine f v s
  | .flagAdd c routine f v => Sys2Proof.Machine.execFlagAdd c routine f v s
  | .flagWait c routine f cond v timeout => Sys2Proof.Machine.execFlagWait c routine f cond v timeout s
  | .waitExpired c => Sys2Proof.Machine.execWaitExpired c s
  | .flagStatus c routine d f => Sys2Proof.Machine.execFlagStatus c routine d f s
  | .skipIf c routine f cond v n room span => Sys2Proof.Machine.execSkipIf c routine f cond v n room span s
  | .loopBegin c routine n body => Sys2Proof.Machine.execLoopBegin c routine n body s
  | .loopEnd c routine => Sys2Proof.Machine.execLoopEnd c routine s
  | .loopIdx c routine d k => Sys2Proof.Machine.execLoopIdx c routine d k s
  | .timeWait c t => Sys2Proof.Machine.execTimeWait c t s
  | .timeWaitRelease c => Sys2Proof.Machine.execTimeWaitRelease c s
  | .coreIdOp c d => Sys2Proof.Machine.execCoreIdOp c d s
  | .coreTime c d => Sys2Proof.Machine.execCoreTime c d s
  | .coreEnd c => Sys2Proof.Machine.execCoreEnd c s
  | .illegalOp c => Sys2Proof.Machine.execIllegalOp c s
  | .libUnknown c id => Sys2Proof.Machine.execLibUnknown c id s
  | .mxeMm iss hC hA hB clr step => Sys2Proof.Machine.execMxeMm iss hC hA hB clr step s
  | .mxeMmg iss hC hA hB f base axis clr step => Sys2Proof.Machine.execMxeMmg iss hC hA hB f base axis clr step s
  | .mxeDrain iss hC hD step => Sys2Proof.Machine.execMxeDrain iss hC hD step s
  | .vxeMap iss hD hA fn => Sys2Proof.Machine.execVxeMap iss hD hA fn s
  | .vxeZip iss hD hA hB fn => Sys2Proof.Machine.execVxeZip iss hD hA hB fn s
  | .vxeFma iss hD hA hB hC => Sys2Proof.Machine.execVxeFma iss hD hA hB hC s
  | .vxeRed iss hD hA k op clr step => Sys2Proof.Machine.execVxeRed iss hD hA k op clr step s
  | .vxeConv iss hD hA step => Sys2Proof.Machine.execVxeConv iss hD hA step s
  | .vxeRand iss hD stream step => Sys2Proof.Machine.execVxeRand iss hD stream step s
  | .speMm iss hC hA hB clr routeSpe step => Sys2Proof.Machine.execSpeMm iss hC hA hB clr routeSpe step s
  | .spePack iss hD hA prune => Sys2Proof.Machine.execSpePack iss hD hA prune s
  | .txePut iss hD hS tc step dflag => Sys2Proof.Machine.execTxePut iss hD hS tc step dflag s
  | .txeGet iss hD hS tc dflag => Sys2Proof.Machine.execTxeGet iss hD hS tc dflag s
  | .txeAcc iss hD hS tc dflag => Sys2Proof.Machine.execTxeAcc iss hD hS tc dflag s
  | .txeRing iss k h fp fc => Sys2Proof.Machine.execTxeRing iss k h fp fc s
  | .txeMsg iss dest k a n tc => Sys2Proof.Machine.execTxeMsg iss dest k a n tc s
  | .txeDigest iss a hS => Sys2Proof.Machine.execTxeDigest iss a hS s
  | .txeFill iss hD pat tc => Sys2Proof.Machine.execTxeFill iss hD pat tc s
  | .engineOpStart c q errs => Sys2Proof.Machine.execEngineOpStart c q errs s
  | .engineOpComplete c q i1 rep => Sys2Proof.Machine.execEngineOpComplete c q i1 rep s
  | .gateTimeout c q => Sys2Proof.Machine.execGateTimeout c q s
  | .remoteTimeout c i1 => Sys2Proof.Machine.execRemoteTimeout c i1 s
  | .txeResend who => Sys2Proof.Machine.execTxeResend who s
  | .collStart c => Sys2Proof.Machine.execCollStart c s
  | .collWait c => Sys2Proof.Machine.execCollWait c s
  | .anchorRetry c => Sys2Proof.Machine.execAnchorRetry c s
  | .optStep c => Sys2Proof.Machine.execOptStep c s
  | .jobStart c => Sys2Proof.Machine.execJobStart c s
  | .stepBegin c => Sys2Proof.Machine.execStepBegin c s
  | .stepCommit c => Sys2Proof.Machine.execStepCommit c s
  | .stepReplay c => Sys2Proof.Machine.execStepReplay c s
  | .park c => Sys2Proof.Machine.execPark c s
  | .restore c => Sys2Proof.Machine.execRestore c s
  | .collComplete group cseq => Sys2Proof.Machine.execCollComplete group cseq s
  | .adoptComplete n record shards ok => Sys2Proof.Machine.execAdoptComplete n record shards ok s
  | .commitBegin n => Sys2Proof.Machine.execCommitBegin n s
  | .commitDecide n target => Sys2Proof.Machine.execCommitDecide n target s
  | .commitTimeout n => Sys2Proof.Machine.execCommitTimeout n s
  | .commitFlip n => Sys2Proof.Machine.execCommitFlip n s
  | .rollbackComplete n => Sys2Proof.Machine.execRollbackComplete n s
  | .reclaimDrainDone n => Sys2Proof.Machine.execReclaimDrainDone n s
  | .reclaimParkDone n => Sys2Proof.Machine.execReclaimParkDone n s
  | .dieClearDone k => Sys2Proof.Machine.execDieClearDone k s
  | .steClearDone j => Sys2Proof.Machine.execSteClearDone j s
  | .linkUnitRx p lu => Sys2Proof.Machine.execLinkUnitRx p lu s
  | .replayTimeout p => Sys2Proof.Machine.execReplayTimeout p s
  | .controlUnitRx p lu => Sys2Proof.Machine.execControlUnitRx p lu s
  | .controlUnitTx p => Sys2Proof.Machine.execControlUnitTx p s
  | .pcsLockLoss p => Sys2Proof.Machine.execPcsLockLoss p s
  | .linkTrainDone p res => Sys2Proof.Machine.execLinkTrainDone p res s
  | .rxPut at_ pkt errs => Sys2Proof.Machine.execRxPut at_ pkt errs s
  | .rxFlagPacket at_ pkt => Sys2Proof.Machine.execRxFlagPacket at_ pkt s
  | .rxGet at_ pkt errs => Sys2Proof.Machine.execRxGet at_ pkt errs s
  | .rxAcc at_ pkt errs => Sys2Proof.Machine.execRxAcc at_ pkt errs s
  | .rxMsg at_ pkt => Sys2Proof.Machine.execRxMsg at_ pkt s
  | .rxColl at_ pkt => Sys2Proof.Machine.execRxColl at_ pkt s
  | .mgmtRead at_ pkt => Sys2Proof.Machine.execMgmtRead at_ pkt s
  | .mgmtWrite at_ pkt => Sys2Proof.Machine.execMgmtWrite at_ pkt s
  | .mgmtCommand at_ pkt => Sys2Proof.Machine.execMgmtCommand at_ pkt s
  | .rxResponse at_ pkt => Sys2Proof.Machine.execRxResponse at_ pkt s
  | .xbarMatch => Sys2Proof.Machine.execXbarMatch s
  | .outputCellTime x => Sys2Proof.Machine.execOutputCellTime x s
  | .poolLevelTest => Sys2Proof.Machine.execPoolLevelTest s
  | .spillPage x q => Sys2Proof.Machine.execSpillPage x q s
  | .spillReturn x q badSlots => Sys2Proof.Machine.execSpillReturn x q badSlots s
  | .pacingWindow => Sys2Proof.Machine.execPacingWindow s
  | .policerRefill => Sys2Proof.Machine.execPolicerRefill s
  | .svcFrameRx p f => Sys2Proof.Machine.execSvcFrameRx p f s
  | .neighborSolicitationRx p f target => Sys2Proof.Machine.execNeighborSolicitationRx p f target s
  | .pfcFrameRx p vec quanta => Sys2Proof.Machine.execPfcFrameRx p vec quanta s
  | .pfcPauseExpiry p k => Sys2Proof.Machine.execPfcPauseExpiry p k s
  | .pfcRefresh p => Sys2Proof.Machine.execPfcRefresh p s
  | .timePacketTx p => Sys2Proof.Machine.execTimePacketTx p s
  | .timePacketRx p pkt arrival => Sys2Proof.Machine.execTimePacketRx p pkt arrival s
  | .datumTimeout p => Sys2Proof.Machine.execDatumTimeout p s
  | .timeStep => Sys2Proof.Machine.execTimeStep s
  | .ppsInEdge width => Sys2Proof.Machine.execPpsInEdge width s
  | .ppsInLoss => Sys2Proof.Machine.execPpsInLoss s
  | .ptpSyncTx p => Sys2Proof.Machine.execPtpSyncTx p s
  | .ptpAnnounceTx p => Sys2Proof.Machine.execPtpAnnounceTx p s
  | .ptpDelayReqRx p domain sender seq => Sys2Proof.Machine.execPtpDelayReqRx p domain sender seq s
  | .ptpSyncRx p domain sender seq => Sys2Proof.Machine.execPtpSyncRx p domain sender seq s
  | .ptpFollowUpRx p domain sender seq origin => Sys2Proof.Machine.execPtpFollowUpRx p domain sender seq origin s
  | .ptpAnnounceRx p a => Sys2Proof.Machine.execPtpAnnounceRx p a s
  | .ptpDelayRespRx p domain sender seq received => Sys2Proof.Machine.execPtpDelayRespRx p domain sender seq received s
  | .standinApply => Sys2Proof.Machine.execStandinApply s
  | .steStart j => Sys2Proof.Machine.execSteStart j s
  | .steStop j => Sys2Proof.Machine.execSteStop j s
  | .steRunBegin j => Sys2Proof.Machine.execSteRunBegin j s
  | .steStageEnd j => Sys2Proof.Machine.execSteStageEnd j s
  | .steRunEnd j => Sys2Proof.Machine.execSteRunEnd j s
  | .steExpired j => Sys2Proof.Machine.execSteExpired j s
  | .steRecvDeadline j q => Sys2Proof.Machine.execSteRecvDeadline j q s
  | .memRefresh m delays => Sys2Proof.Machine.execMemRefresh m delays s
  | .bulkRetune m delays => Sys2Proof.Machine.execBulkRetune m delays s
  | .scrubPass m errs => Sys2Proof.Machine.execScrubPass m errs s
  | .moduleTempRead temps => Sys2Proof.Machine.execModuleTempRead temps s
  | .opticsCycle b readings => Sys2Proof.Machine.execOpticsCycle b readings s
  | .levelRunStart => Sys2Proof.Machine.execLevelRunStart s
  | .levelNow role => Sys2Proof.Machine.execLevelNow role s
  | .levelRunEnd meas => Sys2Proof.Machine.execLevelRunEnd meas s
  | .thermDecision k junction stackLo stackHi => Sys2Proof.Machine.execThermDecision k junction stackLo stackHi s
  | .thermCrit k junction stackLo stackHi => Sys2Proof.Machine.execThermCrit k junction stackLo stackHi s
  | .thermShutdown k junction => Sys2Proof.Machine.execThermShutdown k junction s
  | .overcurrent milliamps => Sys2Proof.Machine.execOvercurrent milliamps s
  | .overcurrentRestore => Sys2Proof.Machine.execOvercurrentRestore s
  | .rampCooling c => Sys2Proof.Machine.execRampCooling c s
  | .supplyOut => Sys2Proof.Machine.execSupplyOut s
  | .supplyLoss r => Sys2Proof.Machine.execSupplyLoss r s
  | .supplyValid r => Sys2Proof.Machine.execSupplyValid r s
  | .resetNLow nanoseconds => Sys2Proof.Machine.execResetNLow nanoseconds s
  | .resetNRise => Sys2Proof.Machine.execResetNRise s
  | .watchdog => Sys2Proof.Machine.execWatchdog s
  | .bootStage1 => Sys2Proof.Machine.execBootStage1 s
  | .bootStage2 => Sys2Proof.Machine.execBootStage2 s
  | .bootStage3 => Sys2Proof.Machine.execBootStage3 s
  | .bootStage4 => Sys2Proof.Machine.execBootStage4 s
  | .bootStage5 => Sys2Proof.Machine.execBootStage5 s
  | .bootStage6 => Sys2Proof.Machine.execBootStage6 s
  | .functionStart role f => Sys2Proof.Machine.execFunctionStart role f s
  | .functionStop role f => Sys2Proof.Machine.execFunctionStop role f s
  | .functionReinit role f => Sys2Proof.Machine.execFunctionReinit role f s
  | .functionInitDone f ok => Sys2Proof.Machine.execFunctionInitDone f ok s
  | .functionStopDone f => Sys2Proof.Machine.execFunctionStopDone f s
  | .autoStart f => Sys2Proof.Machine.execAutoStart f s
  | .rollback role n => Sys2Proof.Machine.execRollback role n s
  | .reclaim role n tr => Sys2Proof.Machine.execReclaim role n tr s
  | .jobReset role n => Sys2Proof.Machine.execJobReset role n s
  | .watchClear role => Sys2Proof.Machine.execWatchClear role s
  | .debugUnlock role token => Sys2Proof.Machine.execDebugUnlock role token s
  | .deviceReset role => Sys2Proof.Machine.execDeviceReset role s
  | .measureExtend role d => Sys2Proof.Machine.execMeasureExtend role d s
  | .keyCommit role slot key newRole signs => Sys2Proof.Machine.execKeyCommit role slot key newRole signs s
  | .quote role nonce => Sys2Proof.Machine.execQuote role nonce s
  | .updType role t => Sys2Proof.Machine.execUpdType role t s
  | .updErase role => Sys2Proof.Machine.execUpdErase role s
  | .updEraseDone => Sys2Proof.Machine.execUpdEraseDone s
  | .updData role d => Sys2Proof.Machine.execUpdData role d s
  | .updVerify role => Sys2Proof.Machine.execUpdVerify role s
  | .updActivate role => Sys2Proof.Machine.execUpdActivate role s
  | .svnCommit role t => Sys2Proof.Machine.execSvnCommit role t s
  | .counterInc role k => Sys2Proof.Machine.execCounterInc role k s
  | .objectWrite role index sub value => Sys2Proof.Machine.execObjectWrite role index sub value s
  | .dapOpenA from_ msg => Sys2Proof.Machine.execDapOpenA from_ msg s
  | .dapOpenC from_ msg => Sys2Proof.Machine.execDapOpenC from_ msg s
  | .dapRead from_ msg => Sys2Proof.Machine.execDapRead from_ msg s
  | .dapWrite from_ msg => Sys2Proof.Machine.execDapWrite from_ msg s
  | .dapClose from_ msg => Sys2Proof.Machine.execDapClose from_ msg s
  | .dapHalfOpenExpiry session => Sys2Proof.Machine.execDapHalfOpenExpiry session s
  | .sessionIdle session => Sys2Proof.Machine.execSessionIdle session s
  | .i3cSelectorWrite data => Sys2Proof.Machine.execI3cSelectorWrite data s
  | .i3cPrivateRead => Sys2Proof.Machine.execI3cPrivateRead s
  | .setdasa static_ dynamic => Sys2Proof.Machine.execSetdasa static_ dynamic s
  | .entdaa dynamic => Sys2Proof.Machine.execEntdaa dynamic s
  | .rstdaa => Sys2Proof.Machine.execRstdaa s
  | .getpid => Sys2Proof.Machine.execGetpid s
  | .getbcr => Sys2Proof.Machine.execGetbcr s
  | .getdcr => Sys2Proof.Machine.execGetdcr s
  | .getstatus => Sys2Proof.Machine.execGetstatus s
  | .mmgWaitExpired c => Sys2Proof.Machine.execMmgWaitExpired c s
  | .steRemote j => Sys2Proof.Machine.execSteRemote j s
  | .resumeTimeout n => Sys2Proof.Machine.execResumeTimeout n s
  | .reclaimAtTr n => Sys2Proof.Machine.execReclaimAtTr n s
  | .updVerifyDone => Sys2Proof.Machine.execUpdVerifyDone s
  | .mgmtLinkUp gigabit => Sys2Proof.Machine.execMgmtLinkUp gigabit s
  | .mgmtLinkDown => Sys2Proof.Machine.execMgmtLinkDown s
  | .mgmtLinkFallback => Sys2Proof.Machine.execMgmtLinkFallback s
  | .announceReceiptTimeout => Sys2Proof.Machine.execAnnounceReceiptTimeout s
  | .ptpDelayReqTx p => Sys2Proof.Machine.execPtpDelayReqTx p s

end Sys2Proof.Machine
end

