-- ==== Sys2Proof/Machine/Step.lean ====
section
/-! DEFINITION. One step: the command at the front of the queue, or a tick of Fabric Time when the queue is empty. -/

namespace Sys2Proof.Machine

/-- One step. With an empty queue the Fabric Time counter advances by one period of its oscillator (R324, log 3); a tick that
would carry the counter past 2^64 stops (R323, log 11). -/
def step (s : State) : Host.Outcome State Fault Refusal :=
  match s.pending with
  | [] => if s.tickWraps then .fault .timeWrapped else .next s.tick
  | c :: rest => exec c { s with pending := rest }

/-- The state with the command that a word spells put at the front of its queue; unchanged where the word spells none. -/
def State.withFetchWord (s : State) (nbits w : Nat) : State :=
  match decodeTableWord nbits w with
  | some c => { s with pending := c :: s.pending }
  | none => s

end Sys2Proof.Machine
end

