-- ==== Sys2Proof/Safety.lean ====
section
/-! DEFINITION. What counts as a well-formed state and a safe run, in the terms the statements use. -/

namespace Sys2Proof.Machine

/-- Memory holds its canonical form: addresses rising, no byte equal to what an unlisted address reads as. -/
def State.memWf (s : State) : Bool := Sparse.wf 0 s.mem

/-- Dictionary values in canonical form: keys rising, no value equal to its object's Default (R389). -/
def dictForm : Sparse Nat → Bool
  | [] => true
  | (k, v) :: m => Sparse.above k m && decide (v ≠ objDefault k) && dictForm m

/-- The dictionary holds its canonical form. -/
def State.dictWf (s : State) : Bool := dictForm s.objs

/-- The records of the sealed store that manufacture writes (R423): the keys, the certificates, PHYS_ID, SERIAL and the factory MAC
address. -/
def Sealed.identity (x : Sealed) : Bytes × Nat × Bytes × Nat × Bytes × Bytes × Bytes × Bytes × Nat × Bytes × Bytes :=
  (x.root, x.idPriv, x.idPub, x.mgmtPriv, x.mgmtPub, x.caCert, x.idCert, x.mgmtCert, x.physId, x.serial, x.mac)

/-- The operator key table has 16 slots, at least one of them of role SECURITY (R426). -/
def Sealed.keysOk (x : Sealed) : Bool := decide (x.ops.length = 16) && x.ops.any (fun o => decide (o.role = 3))

/-- No counter of `y` is below its counter of `x` (R431). -/
def Sealed.countersRise (x y : Sealed) : Prop :=
  y.counters.length = x.counters.length ∧ ∀ i, x.counters.getD i 0 ≤ y.counters.getD i 0

/-! ### What a command leaves as it was -/

/-- Nothing differs but the dictionary, and of it only the objects `ks`. -/
def OnlyObjs (ks : List Nat) (s t : State) : Prop := { t with objs := s.objs } = s ∧ ∀ k, k ∉ ks → t.obj k = s.obj k

/-- Nothing differs but core `c` and the dictionary objects `ks`. -/
def OnlyCore (c : Nat) (ks : List Nat) (s t : State) : Prop :=
  { t with objs := s.objs, cores := s.cores } = s ∧ (∀ k, k ∉ ks → t.obj k = s.obj k) ∧ ∀ b, b ≠ c → t.core b = s.core b

/-- One control operation of core `c` was issued (R72): it is counted in OPS_ISSUED (R110), and nothing differs but the core, that
count and the objects `ks`. -/
def Issued (c : Nat) (ks : List Nat) (s t : State) : Prop :=
  OnlyCore c (Obj.core_OPS_ISSUED c :: ks) s t ∧
    t.obj (Obj.core_OPS_ISSUED c) = min (2 ^ 64 - 1) (s.obj (Obj.core_OPS_ISSUED c) + 1)

/-- A core issues in `s₀`, and `s` is the state after the fetch of the operation at its position, which met no uncorrectable error
(R72, R103). -/
def Fetched (s₀ : State) (c : Nat) (routine : Bool) (s : State) : Prop := s₀.issues c routine = true ∧ s₀.fetch c routine = (s, none)

/-- The program's position past the operation; a routine's operations do not move it (R94). -/
def Core.nextPos (k : Core) (routine : Bool) : Nat := if routine then k.pos else k.pos + 1

/-- A core moved past an operation, and nothing else of it. -/
def Core.moved (k : Core) (routine : Bool) : Core := { k with pos := k.nextPos routine }

/-- The core after an operation that writes `v` to register `d` and nothing else: s0 reads as 0 and discards the write (R72). -/
def RegWritten (k k' : Core) (routine : Bool) (d : Reg) (v : BitVec 64) : Prop :=
  { k' with regs := k.regs } = k.moved routine ∧ ∀ r, k'.reg r = if r = 0 then 0 else if r = d then v else k.reg r

/-- What each scalar operation writes, by R105: the core, its register and the value. -/
def scalarResult (s : State) : Instr → Option (CoreId × Reg × BitVec 64)
  | .scLi c d v => some (c, d, v)
  | .scAdd c d a b => some (c, d, (s.core c).val a + (s.core c).val b)
  | .scSub c d a b => some (c, d, (s.core c).val a - (s.core c).val b)
  | .scMul c d a b => some (c, d, (s.core c).val a * (s.core c).val b)
  | .scAnd c d a b => some (c, d, (s.core c).val a &&& (s.core c).val b)
  | .scOr c d a b => some (c, d, (s.core c).val a ||| (s.core c).val b)
  | .scXor c d a b => some (c, d, (s.core c).val a ^^^ (s.core c).val b)
  | .scShl c d a b => some (c, d, (s.core c).val a <<< ((s.core c).val b &&& 63#64))
  | .scShr c d a b => some (c, d, (s.core c).val a >>> ((s.core c).val b &&& 63#64))
  | .scCmp c d a b =>
    let x := ((s.core c).val a).toInt
    let y := ((s.core c).val b).toInt
    some (c, d, BitVec.ofInt 64 (if x < y then -1 else if x = y then 0 else 1))
  | .coreIdOp c d => some (c, d, BitVec.ofNat 64 (s.logicalId % 2 ^ 20 + c.val * 2 ^ 20))
  | .coreTime c d => some (c, d, BitVec.ofNat 64 s.now)
  | _ => none

/-- A counter one larger, saturating at its type's largest value (R39). -/
def Counted (k : Nat) (s t : State) : Prop := t.obj k = min (2 ^ objBits k - 1) (s.obj k + 1)

/-- A core whose registers from s1 on hold `l`, its other registers and everything else but its position and the routine it was inside
as they were (R94). -/
def Returned (k k' : Core) (l : List Nat) : Prop :=
  { k' with regs := k.regs, pos := k.pos, lib := k.lib, libLoops := k.libLoops } = k ∧
    ∀ r : Reg, k'.reg r = if 1 ≤ r.val ∧ r.val ≤ l.length then BitVec.ofNat 64 (l.getD (r.val - 1) 0) else k.reg r

/-- Bytes `bs` stand from address `a` where nothing of them was written over, and no other location changed (R157, R176). -/
def Wrote (a : Nat) (bs : Bytes) (s t : State) : Prop :=
  (∀ j, j < bs.length → (∀ i, j < i → i < bs.length → s.resolve true (a + i) ≠ s.resolve true (a + j)) →
    Sparse.get 0 t.mem (s.resolve true (a + j)) = bs.getD j 0) ∧
  ∀ k, (∀ j, j < bs.length → s.resolve true (a + j) ≠ k) → Sparse.get 0 t.mem k = Sparse.get 0 s.mem k

/-- The command that takes a request of its kind: put, flag packet, get, acc or msg (R192, R196). -/
def rxCommand (at_ : RxAt) (k : Packet) : Option Instr :=
  if k.op = opPut then some (if k.isFlag then .rxFlagPacket at_ k else .rxPut at_ k [])
  else if k.op = opGet then some (.rxGet at_ k [])
  else if k.op = opAcc then some (.rxAcc at_ k [])
  else if k.op = opMsg then some (.rxMsg at_ k)
  else none

/-- A request that stands received over the fabric, or from this device itself, well formed and for this device (R191, R196). -/
def Arrived (s : State) (at_ : RxAt) (k : Packet) : Prop :=
  k.resp = false ∧ at_.service = false ∧ s.received at_ k = true ∧ k.requestOk 4096 = true ∧ k.dst.toNat = s.logicalId

/-- One response to `k` joins the packets of one endpoint, and nothing else differs (R191, R192, R197). -/
def Answered (k : Packet) (st : Nat) (bs : Bytes) (s t : State) : Prop :=
  { t with txq := s.txq } = s ∧ ∃ (x : Nat) (p : Packet),
    (∀ y, Sparse.get [] t.txq y = if y = x then Sparse.get [] s.txq x ++ [⟨p, ownAt, none, 0, none⟩] else Sparse.get [] s.txq y) ∧
    p.resp = true ∧ p.op = k.op ∧ p.tc = k.tc ∧ p.tag = k.tag ∧ p.job = k.job ∧ p.addr = k.addr ∧ p.dst = k.src ∧
    p.dstCore = k.srcCore ∧ p.srcCore = k.dstCore ∧ p.ceEcho = k.cm ∧ p.status = BitVec.ofNat 8 st ∧
    p.len = BitVec.ofNat 16 bs.length ∧ p.payload = bs

/-- What each queued operation places in its engine's queue, by R105 and R458, for the core's state at issue: who issues it and under
what gate and completion flag, the queue, the descriptor operands, the flags of its own core and the destination flags it names besides, and
its operands with descriptors copied and registers read. -/
def queuedOp (s : State) : Instr → Option (Issue × Queue × List HRef × List Flag × List Flag × QOp)
  | .mxeMm i hC hA hB clr step =>
    let k := s.core i.core
    some (i, .mxe, [hC, hA, hB], [], [], .mm (k.copyDesc hC) (k.copyDesc hA) (k.copyDesc hB) clr (k.step step))
  | .mxeMmg i hC hA hB f base axis clr step =>
    let k := s.core i.core
    some (i, .mxe, [hC, hA, hB], [f], [],
      .mmg (k.copyDesc hC) (k.copyDesc hA) (k.copyDesc hB) f (k.val32 (.reg base)) axis clr (k.step step))
  | .mxeDrain i hC hD step =>
    let k := s.core i.core
    some (i, .mxe, [hC, hD], [], [], .drain (k.copyDesc hC) (k.copyDesc hD) (k.step step))
  | .vxeMap i hD hA fn => let k := s.core i.core; some (i, .vxe, [hD, hA], [], [], .map (k.copyDesc hD) (k.copyDesc hA) fn.toNat)
  | .vxeZip i hD hA hB fn =>
    let k := s.core i.core
    some (i, .vxe, [hD, hA, hB], [], [], .zip (k.copyDesc hD) (k.copyDesc hA) (k.copyDesc hB) fn.toNat)
  | .vxeFma i hD hA hB hC =>
    let k := s.core i.core
    some (i, .vxe, [hD, hA, hB, hC], [], [], .fma (k.copyDesc hD) (k.copyDesc hA) (k.copyDesc hB) (k.copyDesc hC))
  | .vxeRed i hD hA d op clr step =>
    let k := s.core i.core
    some (i, .vxe, [hD, hA], [], [], .red (k.copyDesc hD) (k.copyDesc hA) d.val op clr (k.step step))
  | .vxeConv i hD hA step => let k := s.core i.core; some (i, .vxe, [hD, hA], [], [], .conv (k.copyDesc hD) (k.copyDesc hA) (k.step step))
  | .vxeRand i hD stream step =>
    let k := s.core i.core
    some (i, .vxe, [hD], [], [], .rand (k.copyDesc hD) stream.toNat (k.val32 (.reg step)))
  | .speMm i hC hA hB clr routeSpe step =>
    let k := s.core i.core
    some (i, .spe, [hC, hA, hB], [], [], .speMm (k.copyDesc hC) (k.copyDesc hA) (k.copyDesc hB) clr routeSpe (k.step step))
  | .spePack i hD hA prune => let k := s.core i.core; some (i, .spe, [hD, hA], [], [], .pack (k.copyDesc hD) (k.copyDesc hA) prune)
  | .txePut i hD hS tc step dflag =>
    let k := s.core i.core
    some (i, .txe, [hD, hS], [], dflag.toList.map Prod.snd, .put (k.copyDesc hD) (k.copyDesc hS) tc (k.step step) (k.dflag dflag))
  | .txeGet i hD hS tc dflag =>
    let k := s.core i.core
    some (i, .txe, [hD, hS], [], dflag.toList.map Prod.snd, .get (k.copyDesc hD) (k.copyDesc hS) tc (k.dflag dflag))
  | .txeAcc i hD hS tc dflag =>
    let k := s.core i.core
    some (i, .txe, [hD, hS], [], dflag.toList.map Prod.snd, .acc (k.copyDesc hD) (k.copyDesc hS) tc (k.dflag dflag))
  | .txeRing i k h fp fc => some (i, .txe, [h], [fp, fc], [], .ring k ((s.core i.core).copyDesc h) fp fc)
  | .txeMsg i dest r a n tc =>
    let k := s.core i.core
    some (i, .txe, [], [], [], .msg ((k.reg dest).extractLsb' 0 20).toNat ((k.reg dest).extractLsb' 20 12).toNat r (k.val a).toNat
      (k.val32 n) tc)
  | .txeDigest i a hS => let k := s.core i.core; some (i, .txe, [hS], [], [], .digest (k.val a).toNat (k.copyDesc hS))
  | .txeFill i hD pat tc => let k := s.core i.core; some (i, .txe, [hD], [], [], .fill (k.copyDesc hD) (k.reg pat).toNat tc)
  | _ => none

/-- The flags that the gate and the completion field of an operation name. -/
def issueFlags (i : Issue) : List Flag := i.gate.toList.map Prod.fst ++ i.comp.toList

/-- A handle that is valid at issue (R77). -/
def Core.valid (k : Core) (h : HRef) : Prop := (Sparse.get 0 k.gens (k.handle h % 4096)).toNat = k.handle h / 4096

/-- The queue entry that an operation takes at issue (R73, R78, R86), `seq` operations having been issued before it. -/
def Core.entry (k : Core) (i : Issue) (seq : Nat) (op : QOp) : QEntry :=
  { seq := seq, routine := i.routine, gate := i.gate.map (fun g => (g.1, k.val32 g.2)), comp := i.comp, op := op,
    phase := .waiting, headAt := none, startAt := 0, todo := [], out := [], got := [], marks := [], settings := [], image := [], spoilt := false }

/-- The state after a reset with its cause (R417, R418, R432): what the manual calls volatile is as it is right after reset; the sealed
store, the flash and the modules stay, and so does what waits and what has been sent. -/
def Restarted (cause : Nat) (s t : State) : Prop :=
  (t.mem = [] ∧ t.cores = [] ∧ t.links = [] ∧ t.parcels = [] ∧ t.colls = [] ∧ t.stes = [] ∧ t.now = 0 ∧ t.fatal = false) ∧
    (∀ k, t.obj k = if k = Obj.id_RESET_CAUSE then cause else objDefault k) ∧ t.sealed = s.sealed ∧ t.flash = s.flash ∧
    t.modules = s.modules ∧ t.sent = s.sent ∧ t.pending = s.pending

end Sys2Proof.Machine
end

