-- ==== Sys2Proof/Certificates/Slice0/Obligations.lean ====
section
/-! DEFINITION. The statements for the provers: what the commands and the block do, by the numbered rules. -/

open Sys2Proof Sys2Proof.Machine

/-- For every command c and state s, step of s with c at the front of its queue is exec of c on s with the queue's rest. The queue
is the form this row gives a block, not a rule of the spec. -/
def Obligations.StepRunsTheFrontCommand : Prop :=
  ∀ (c : Instr) (rest : List Instr) (s : State), step { s with pending := c :: rest } = exec c { s with pending := rest }

/-- On an empty queue the Fabric Time counter with its fraction advances by its increment (R324, the tick is the model's choice, log
3), and nothing else changes; when the count would pass 2^64 the step stops with the fault timeWrapped (R323 says the wrap is
not handled; log 11). The step always answers one of the two. On a device held in reset nothing changes. -/
def Obligations.IdleStepAdvancesFabricTime : Prop :=
  ∀ s : State, s.pending = [] → (s.poweredUp = false → step s = .next s) ∧ (s.poweredUp = true →
    (s.ft.toNat * 2 ^ 40 + s.ftFrac.toNat + s.ftInc.toNat < 2 ^ 104 →
      ∃ t, step s = .next t ∧ { t with ft := s.ft, ftFrac := s.ftFrac } = s ∧
        t.ft.toNat * 2 ^ 40 + t.ftFrac.toNat = s.ft.toNat * 2 ^ 40 + s.ftFrac.toNat + s.ftInc.toNat) ∧
    (2 ^ 104 ≤ s.ft.toNat * 2 ^ 40 + s.ftFrac.toNat + s.ftInc.toNat → step s = .fault .timeWrapped))

/-- For sc.li, sc.add, sc.sub, sc.mul, sc.and, sc.or, sc.xor, sc.shl, sc.shr, sc.cmp, core.id and core.time, in every state in which
the core issues: exec answers a next state in which the destination register holds the value of R105 (a write of s0 is discarded
and s0 reads 0), every other register, flag, descriptor, queue and hold of the core is unchanged, OPS_ISSUED is one larger
(saturating), the program's position is one further, and no other object, core, memory byte or unit differs. Everything is told
of the state after the operation's fetch (R103), which changes only the core's cache and ICACHE_MISS. -/
def Obligations.ScalarOperationWritesItsRegister : Prop :=
  ∀ (s₀ s : State) (i : Instr) (c : CoreId) (d : Reg) (v : BitVec 64),
    scalarResult s i = some (c, d, v) → Fetched s₀ c false s →
    ∃ t, exec i s₀ = .next t ∧ Issued c [] s t ∧ RegWritten (s.core c) (t.core c) false d v

/-- In every state in which the core issues: sc.ld of an aligned offset inside SRAM writes to its register the eight bytes of own
SRAM there, least significant first; flag.status writes the excess nibble in [11:8] and the status byte in [7:0] of a flag the
program may name; loop.idx writes the iteration of the loop k levels out. With fewer than k + 1 loops open the manual states no
value and the register takes a free value (log 6), the only case in which anything but the core and OPS_ISSUED differs.
Everything is told of the state after the operation's fetch (R103), which changes only the core's cache and ICACHE_MISS. -/
def Obligations.LoadsOfACoreWriteTheirRegister : Prop :=
  ∀ (s₀ s : State) (c : CoreId) (d : Reg),
    (∀ a o, o = ((s.core c).val a).toNat → Fetched s₀ c false s → o % 8 = 0 → o + 8 ≤ 2 ^ 21 →
      ∃ t v, exec (.scLd c d a) s₀ = .next t ∧ Issued c [] s t ∧ RegWritten (s.core c) (t.core c) false d v ∧
        ∀ j, j < 8 → (v >>> (8 * j)).setWidth 8 = s.readByte (c.val * 2 ^ 21 + o + j)) ∧
    (∀ routine f, Fetched s₀ c routine s → (routine = true ∨ f.val < 240) →
      ∃ t, exec (.flagStatus c routine d f) s₀ = .next t ∧ Issued c [] s t ∧
        RegWritten (s.core c) (t.core c) routine d
          ((Sparse.get 0 (s.core c).fexc f.val ++ Sparse.get 0 (s.core c).fstat f.val).setWidth 64)) ∧
    (∀ routine k, Fetched s₀ c routine s →
      ∃ t, exec (.loopIdx c routine d k) s₀ = .next t ∧ Issued c [] s { t with freshCtr := s.freshCtr } ∧
        (∀ fr, ((s.core c).loopStack routine)[k.val]? = some fr →
          t.freshCtr = s.freshCtr ∧ RegWritten (s.core c) (t.core c) routine d (BitVec.ofNat 64 fr.iter)) ∧
        (((s.core c).loopStack routine)[k.val]? = none →
          t.freshCtr = s.freshCtr + 1 ∧ RegWritten (s.core c) (t.core c) routine d (BitVec.ofNat 64 (Config.freeNat s.freshCtr))))

/-- In every state in which the core issues: sc.st to an aligned offset inside SRAM stores the eight bytes of its value there, least
significant first; desc.get with a valid handle stores the 128 bytes of the named table entry at an offset that leaves room.
Byte j of the value lands at the own-SRAM address of the offset plus j; every byte whose location is not one of those reads as
before; of the core only the position differs, and of the rest only OPS_ISSUED. Everything is told of the state after the
operation's fetch (R103), which changes only the core's cache and ICACHE_MISS. -/
def Obligations.StoresOfACoreWriteOnlyTheirBytes : Prop :=
  ∀ (s₀ s : State) (c : CoreId) (a : Src) (o : Nat), o = ((s.core c).val a).toNat →
    (∀ v, Fetched s₀ c false s → o % 8 = 0 → o + 8 ≤ 2 ^ 21 →
      ∃ t, exec (.scSt c v a) s₀ = .next t ∧ Issued c [] s { t with mem := s.mem } ∧ t.core c = (s.core c).moved false ∧
        (∀ j, j < 8 → t.readByte (c.val * 2 ^ 21 + o + j) = ((s.core c).val v >>> (8 * j)).setWidth 8) ∧
        ∀ b, (∀ j, j < 8 → s.resolve false b ≠ c.val * 2 ^ 21 + o + j) → t.readByte b = s.readByte b) ∧
    (∀ routine h n, Fetched s₀ c routine s → n = ((s.core c).val h).toNat % 2 ^ 16 →
      (Sparse.get 0 (s.core c).gens (n % 4096)).toNat = n / 4096 → (routine = true ∨ n % 4096 < 3840) → o + 128 ≤ 2 ^ 21 →
      ∃ t, exec (.descGet c routine h a) s₀ = .next t ∧ Issued c [] s { t with mem := s.mem } ∧
        t.core c = (s.core c).moved routine ∧
        (∀ j, j < 128 → (t.readByte (c.val * 2 ^ 21 + o + j)).toNat = Sparse.get 0 (s.core c).desc (n % 4096) / 256 ^ j % 256) ∧
        ∀ b, (∀ j, j < 128 → s.resolve false b ≠ c.val * 2 ^ 21 + o + j) → t.readByte b = s.readByte b)

/-- In every state in which the core issues, for an entry the issuer may name and an offset that leaves 128 bytes of room: the
entry's byte j is the SRAM byte at offset + j; its generation is one larger modulo 16; the register holds {generation, index};
every other entry, generation, register and part of the core is unchanged, and nothing else differs but OPS_ISSUED. Everything
is told of the state after the operation's fetch (R103), which changes only the core's cache and ICACHE_MISS. -/
def Obligations.DescSetInstallsTheEntry : Prop :=
  ∀ (s₀ s : State) (c : CoreId) (routine : Bool) (d : Reg) (i a : Src) (n o : Nat), Fetched s₀ c routine s →
    n = ((s.core c).val i).toNat → o = ((s.core c).val a).toNat → n < (if routine then 4096 else 3840) → o + 128 ≤ 2 ^ 21 →
    ∃ t g, exec (.descSet c routine d i a) s₀ = .next t ∧ Issued c [] s t ∧
      g = Sparse.get 0 (s.core c).gens n + 1 ∧
      RegWritten (s.core c) { t.core c with desc := (s.core c).desc, gens := (s.core c).gens } routine d
        (BitVec.ofNat 64 (g.toNat * 2 ^ 12 + n)) ∧
      (∀ m, Sparse.get 0 (t.core c).gens m = if m = n then g else Sparse.get 0 (s.core c).gens m) ∧
      (∀ m, m ≠ n → Sparse.get 0 (t.core c).desc m = Sparse.get 0 (s.core c).desc m) ∧
      ∀ j, j < 128 → Sparse.get 0 (t.core c).desc n / 256 ^ j % 256 = (s.readByte (c.val * 2 ^ 21 + o + j)).toNat

/-- In every state in which the core issues, for a flag the issuer may name: after flag.set the flag holds the low 32 bits of the
operand and its status byte and excess nibble are 0; after flag.add it holds its old value plus them modulo 2^32. Every other
flag, status byte, excess nibble and part of the core is unchanged, and nothing else differs but OPS_ISSUED. Everything is told
of the state after the operation's fetch (R103), which changes only the core's cache and ICACHE_MISS. -/
def Obligations.FlagWritesChangeOneFlag : Prop :=
  ∀ (s₀ s : State) (c : CoreId) (routine : Bool) (f : Flag) (v : Src), Fetched s₀ c routine s → (routine = true ∨ f.val < 240) →
    (∃ t, exec (.flagSet c routine f v) s₀ = .next t ∧ Issued c [] s t ∧
      { t.core c with flags := (s.core c).flags, fstat := (s.core c).fstat, fexc := (s.core c).fexc } = (s.core c).moved routine ∧
      (∀ g, (t.core c).flag g = if g = f then ((s.core c).val v).setWidth 32 else (s.core c).flag g) ∧
      (∀ g, Sparse.get 0 (t.core c).fstat g = if g = f.val then 0 else Sparse.get 0 (s.core c).fstat g) ∧
      ∀ g, Sparse.get 0 (t.core c).fexc g = if g = f.val then 0 else Sparse.get 0 (s.core c).fexc g) ∧
    (∃ t, exec (.flagAdd c routine f v) s₀ = .next t ∧ Issued c [] s t ∧
      { t.core c with flags := (s.core c).flags } = (s.core c).moved routine ∧
      ∀ g, (t.core c).flag g = if g = f then (s.core c).flag f + ((s.core c).val v).setWidth 32 else (s.core c).flag g)

/-- For all 32-bit f and v, the comparison that the model's gates, waits and skips use holds exactly when f − v, modulo 2^32, is
below 2^31: flag.wait with GE, skip.if with GE, skip.if with LT as its opposite, and the gate of a queued operation. A value
2^31 or more away gives the opposite answer. -/
def Obligations.FlagComparisonIsModular : Prop :=
  ∀ f v : BitVec 32,
    (waitHolds .ge f v = true ↔ ((f.toNat : Int) - v.toNat) % 2 ^ 32 < 2 ^ 31) ∧
    (skipHolds .ge f v = true ↔ ((f.toNat : Int) - v.toNat) % 2 ^ 32 < 2 ^ 31) ∧
    (skipHolds .lt f v = true ↔ ¬ ((f.toNat : Int) - v.toNat) % 2 ^ 32 < 2 ^ 31) ∧
    (∀ (k : Core) (e : QEntry) (g : Flag) (n : Nat), e.gate = some (g, n) → n < 2 ^ 32 →
      (k.gateOpen e = true ↔ (((k.flag g).toNat : Int) - n) % 2 ^ 32 < 2 ^ 31))

/-- In every state in which a core that has not ended issues a flag.wait on a flag the issuer may name. With the condition true (GE
by R84, EQ by equality) only the position and OPS_ISSUED move. With it false and a timeout of 0 the core takes the fault
WAIT_EXPIRED of the control core with the flag, the awaited value and the value seen. Otherwise the core is held on the wait
with the deadline now + timeout × 1,024, CORE_STATE is WAITING, and nothing else differs. WAIT_EXPIRED at that deadline, with
the condition still false, takes the same fault at the deadline. Everything is told of the state after the operation's fetch
(R103), which changes only the core's cache and ICACHE_MISS. -/
def Obligations.FlagWaitHoldsUntilItsDeadline : Prop :=
  ∀ (s₀ s : State) (c : CoreId),
    (∀ routine f cond v timeout, Fetched s₀ c routine s → (s.core c).ended = false → (routine = true ∨ f.val < 240) →
      (waitHolds cond ((s.core c).flag f) (((s.core c).val v).setWidth 32) = true →
        ∃ t, exec (.flagWait c routine f cond v timeout) s₀ = .next t ∧ Issued c [] s t ∧ t.core c = (s.core c).moved routine) ∧
      (waitHolds cond ((s.core c).flag f) (((s.core c).val v).setWidth 32) = false → (s.core c).val32 timeout = 0 →
        ∃ u seq, Issued c [] s u ∧ u.core c = (s.core c).moved routine ∧
          seq + 1 = min (2 ^ 64 - 1) (s.obj (Obj.core_OPS_ISSUED c) + 1) ∧ exec (.flagWait c routine f cond v timeout) s₀ =
            .next (u.coreFaultWith c 0 0x20 seq (some (f.val, (s.core c).val32 v, ((s.core c).flag f).toNat)) 0)) ∧
      (waitHolds cond ((s.core c).flag f) (((s.core c).val v).setWidth 32) = false → (s.core c).val32 timeout ≠ 0 →
        ∃ t, exec (.flagWait c routine f cond v timeout) s₀ = .next t ∧ Issued c [Obj.core_CORE_STATE c] s t ∧
          t.obj (Obj.core_CORE_STATE c) = 2 ∧ ∃ seq, seq + 1 = min (2 ^ 64 - 1) (s.obj (Obj.core_OPS_ISSUED c) + 1) ∧ t.core c = { (s.core c).moved routine with
            hold := .flagWait f cond ((s.core c).val32 v) (s.now + (s.core c).val32 timeout * 1024) seq })) ∧
    (∀ f cond v deadline seq, (s.core c).hold = .flagWait f cond v deadline seq → deadline < 2 ^ 64 →
      exec (.waitExpired c) s = .next
        ((s.advanceTo deadline).coreFaultWith c 0 0x20 seq (some (f.val, v, ((s.core c).flag f).toNat)) 0))

/-- In every state in which a core that has not ended issues time.wait T. Before the start of slot T (T × 1,024) the core is held
and CORE_STATE is WAITING; after it the core continues and LATE_SLOT is one larger; at it the core continues and nothing is
counted. TIME_WAIT_RELEASE of a held core, with the start of the slot below 2^64, brings Fabric Time to that start unless it is
later already, ends the hold and makes CORE_STATE RUNNING. Everything is told of the state after the operation's fetch (R103),
which changes only the core's cache and ICACHE_MISS. -/
def Obligations.TimeWaitHoldsUntilItsSlot : Prop :=
  ∀ (s₀ s : State) (c : CoreId),
    (∀ x T, T = ((s.core c).val x).toNat → Fetched s₀ c false s → (s.core c).ended = false →
      (s.now < T * 1024 → ∃ t, exec (.timeWait c x) s₀ = .next t ∧ Issued c [Obj.core_CORE_STATE c] s t ∧
        t.obj (Obj.core_CORE_STATE c) = 2 ∧ t.core c = { (s.core c).moved false with hold := .timeWait T }) ∧
      (T * 1024 < s.now → ∃ t, exec (.timeWait c x) s₀ = .next t ∧ Issued c [Obj.core_LATE_SLOT c] s t ∧
        t.obj (Obj.core_LATE_SLOT c) = min (2 ^ 32 - 1) (s.obj (Obj.core_LATE_SLOT c) + 1) ∧
        t.core c = (s.core c).moved false) ∧
      (T * 1024 = s.now → ∃ t, exec (.timeWait c x) s₀ = .next t ∧ Issued c [] s t ∧ t.core c = (s.core c).moved false)) ∧
    (∀ T, (s.core c).hold = .timeWait T → T * 1024 < 2 ^ 64 → s.obj (Obj.core_CORE_STATE c) = 2 → (s.core c).lib = none →
      (s.core c).ended = false →
      ∃ t, exec (.timeWaitRelease c) s = .next t ∧ OnlyCore c [Obj.core_CORE_STATE c] s { t with ft := s.ft } ∧
        t.now = max s.now (T * 1024) ∧ t.core c = { s.core c with hold := .none } ∧ t.obj (Obj.core_CORE_STATE c) = 1)

/-- In every state in which the core issues. skip.if on a flag the issuer may name, with room for its n operations, passes their
span when its condition holds and only itself otherwise (a routine's position is not kept, log 10). loop.begin with fewer than
four loops open latches its count with iteration 0, or passes the body when the count is 0. loop.end with a loop open returns to
the body with the iteration one larger while another is left, and otherwise drops the loop. core.end stops issue and makes
CORE_STATE ENDED at once when the queues are empty. Nothing else differs but OPS_ISSUED. Everything is told of the state after
the operation's fetch (R103), which changes only the core's cache and ICACHE_MISS. -/
def Obligations.ControlFlowMovesThePosition : Prop :=
  ∀ (s₀ s : State) (c : CoreId) (routine : Bool), Fetched s₀ c routine s →
    (∀ f cond v n room span, (routine = true ∨ f.val < 240) → n.val ≤ room →
      ∃ t, exec (.skipIf c routine f cond v n room span) s₀ = .next t ∧ Issued c [] s t ∧
        t.core c = (if routine = false ∧ skipHolds cond ((s.core c).flag f) (((s.core c).val v).setWidth 32) = true
          then ((s.core c).moved routine).setPos routine ((s.core c).pos + 1 + span) else (s.core c).moved routine)) ∧
    (∀ n body, ((s.core c).loopStack routine).length < 4 →
      ∃ t, exec (.loopBegin c routine n body) s₀ = .next t ∧ Issued c [] s t ∧
        t.core c = (if (s.core c).val32 n = 0 then ((s.core c).moved routine).setPos routine ((s.core c).pos + 1 + body)
          else ((s.core c).moved routine).setLoops routine
            (⟨(s.core c).nextPos routine, (s.core c).val32 n, 0⟩ :: (s.core c).loopStack routine))) ∧
    (∀ fr rest, (s.core c).loopStack routine = fr :: rest →
      ∃ t, exec (.loopEnd c routine) s₀ = .next t ∧ Issued c [] s t ∧
        t.core c = (if fr.iter + 1 < fr.count then
            (((s.core c).moved routine).setLoops routine ({ fr with iter := fr.iter + 1 } :: rest)).setPos routine fr.body
          else ((s.core c).moved routine).setLoops routine rest)) ∧
    (routine = false → ∃ t, exec (.coreEnd c) s₀ = .next t ∧ Issued c [Obj.core_CORE_STATE c] s t ∧
        t.core c = { (s.core c).moved false with stopped := true, ended := true } ∧
        t.obj (Obj.core_CORE_STATE c) = if (s.core c).idle then 5 else 1)

/-- A routine's operation passes no cache. A program's operation fetches its lines in order up to the first bad one. A line that
hits becomes the most recently used; a miss is counted in ICACHE_MISS and puts the line first, and where its set holds four
lines already the least recently used of them goes; a fill that meets an uncorrectable error fills nothing, and each control
operation named here then faults with ICACHE_FAULT. A fetch changes nothing but the cache and ICACHE_MISS (which lines an
operation lies in is the model's free layout, log 10). After a fetch that met no error: an undefined instruction faults with
ILLEGAL_OP, a routine id outside the table with LIB_UNKNOWN, a misaligned sc.ld or sc.st inside SRAM with ADDR_ALIGN and one
past its end with ADDR_RANGE, a program's flag operation on f240 to f255 with FLAG_RESERVED, desc.set to a reserved entry with
HANDLE_RESERVED, desc.get of a stale handle with HANDLE_STALE, loop.begin with four loops open with LOOP_DEPTH whatever its
count, and skip.if without room with SKIP_RANGE whether or not its condition holds. The faulting operation is not counted in
OPS_ISSUED (log 17). -/
def Obligations.OperationIsFetchedThroughTheCacheOrFaults : Prop :=
  ∀ (s₀ : State) (c : CoreId),
    (∀ routine, OnlyCore c [Obj.core_ICACHE_MISS c] s₀ (s₀.fetch c routine).1 ∧
      { (s₀.fetch c routine).1.core c with icache := (s₀.core c).icache } = s₀.core c) ∧
    s₀.fetch c true = (s₀, none) ∧
    s₀.fetch c false = (s₀.codeLines c).foldl (fun x l => if x.2 = none then x.1.fetchLine c l else x) (s₀, none) ∧
    (∀ l, (l ∈ (s₀.core c).icache → ∃ t, s₀.fetchLine c l = (t, none) ∧ (∀ k, t.obj k = s₀.obj k) ∧
        (t.core c).icache = l :: (s₀.core c).icache.erase l) ∧
      (∀ set, l ∉ (s₀.core c).icache → set = (s₀.core c).icache.filter (fun x => x % 64 = l % 64) → s₀.firstBad false (l * 256) 256 = none →
        ∃ t, s₀.fetchLine c l = (t, none) ∧ Counted (Obj.core_ICACHE_MISS c) s₀ t ∧
          (set.length < 4 → (t.core c).icache = l :: (s₀.core c).icache) ∧
          (∀ old rest, set = rest ++ [old] → 3 ≤ rest.length → (t.core c).icache = l :: (s₀.core c).icache.erase old)) ∧
      (∀ k, l ∉ (s₀.core c).icache → s₀.firstBad false (l * 256) 256 = some k → s₀.fetchLine c l = (s₀, some k))) ∧
    (∀ x d v y, s₀.issues c false = true → x ∈ [Instr.scLi c d v, .scAdd c d y y, .coreEnd c, .illegalOp c, .jobStart c] →
      (∃ t, s₀.fetch c false = (t, none)) ∨
      ∃ t k, s₀.fetch c false = (t, some k) ∧
        exec x s₀ = .next ((t.memUncorrected k).coreFaultWith c 0 0x31 (t.obj (Obj.core_OPS_ISSUED c)) none 0)) ∧
    ∀ s, Fetched s₀ c false s →
    (let bad := fun code => (.next (s.coreFaultWith c 0 code (s.obj (Obj.core_OPS_ISSUED c)) none 0) : Host.Outcome State Fault Refusal)
    exec (.illegalOp c) s₀ = bad 0x16 ∧
    (∀ id : BitVec 16, id.toNat ∉ [0x01, 0x02, 0x03, 0x10, 0x20, 0x21, 0x22, 0x23, 0x30, 0x31] → exec (.libUnknown c id) s₀ = bad 0x15) ∧
    (∀ d v a o, o = ((s.core c).val a).toNat → o + 8 ≤ 2 ^ 21 → o % 8 ≠ 0 →
      exec (.scLd c d a) s₀ = bad 0x08 ∧ exec (.scSt c v a) s₀ = bad 0x08) ∧
    (∀ d v a, 2 ^ 21 < ((s.core c).val a).toNat + 8 → exec (.scLd c d a) s₀ = bad 0x07 ∧ exec (.scSt c v a) s₀ = bad 0x07) ∧
    (∀ f v cond timeout d, 240 ≤ f.val → exec (.flagSet c false f v) s₀ = bad 0x12 ∧ exec (.flagAdd c false f v) s₀ = bad 0x12 ∧
      exec (.flagWait c false f cond v timeout) s₀ = bad 0x12 ∧ exec (.flagStatus c false d f) s₀ = bad 0x12) ∧
    (∀ d i a, 3840 ≤ ((s.core c).val i).toNat → ((s.core c).val a).toNat + 128 ≤ 2 ^ 21 → exec (.descSet c false d i a) s₀ = bad 0x11) ∧
    (∀ h a n, n = ((s.core c).val h).toNat % 2 ^ 16 → (Sparse.get 0 (s.core c).gens (n % 4096)).toNat ≠ n / 4096 →
      ((s.core c).val a).toNat + 128 ≤ 2 ^ 21 → exec (.descGet c false h a) s₀ = bad 0x10) ∧
    (∀ n body, 4 ≤ (s.core c).loops.length → exec (.loopBegin c false n body) s₀ = bad 0x13) ∧
    (∀ f cond v n room span, f.val < 240 → room < n.val → exec (.skipIf c false f cond v n room span) s₀ = bad 0x14))

/-- For every state, core, queue code, fault code, count and wait record: the core's issue stops, its operations not yet started
leave their queues, CORE_STATE is FAULTED and QUEUE_FILL the occupancy left. While FAULT_CODE is 0 the fault objects take the
code, queue, flag, awaited value, value seen, Fabric Time and count; otherwise they stay and NESTED_FAULTS is one larger. No
flag changes and nothing else differs, but that the result is then raised as an error of the core's parcel, if it has one, with
code 0x0100 + the fault code and the core index as UNIT: step-fatal in a training parcel, function-fatal in any other. -/
def Obligations.CoreFaultIsRecordedAndHaltsTheCore : Prop :=
  ∀ (s : State) (c : CoreId) (q code seq detail : Nat) (w : Option (Nat × Nat × Nat)),
    ∃ u : State, s.coreFaultWith c q code seq w detail =
        (match s.coreParcel c with
         | some n => u.raise ⟨if s.parMode n = 2 then 2 else 3, 8 + n, some n, 0x0100 + code, c.val, detail⟩
         | none => u) ∧
      OnlyCore c [Obj.core_CORE_STATE c, Obj.core_FAULT_CODE c, Obj.core_FAULT_QUEUE c, Obj.core_FAULT_FLAG c,
        Obj.core_FAULT_WANT c, Obj.core_FAULT_SEEN c, Obj.core_FAULT_TIME c, Obj.core_FAULT_OPSEQ c, Obj.core_NESTED_FAULTS c,
        Obj.core_QUEUE_FILL c] s u ∧
      (∀ e, (e ∈ (u.core c).mxe ↔ e ∈ (s.core c).mxe ∧ e.phase ≠ .waiting) ∧ (e ∈ (u.core c).vxe ↔ e ∈ (s.core c).vxe ∧ e.phase ≠ .waiting) ∧
        (e ∈ (u.core c).spe ↔ e ∈ (s.core c).spe ∧ e.phase ≠ .waiting) ∧ (e ∈ (u.core c).txe ↔ e ∈ (s.core c).txe ∧ e.phase ≠ .waiting)) ∧
      { u.core c with mxe := (s.core c).mxe, vxe := (s.core c).vxe, spe := (s.core c).spe, txe := (s.core c).txe } =
        { s.core c with hold := .none, lib := none, stopped := true } ∧
      u.obj (Obj.core_CORE_STATE c) = 6 ∧
      u.obj (Obj.core_QUEUE_FILL c) = (u.core c).txe.length * 2 ^ 24 + (u.core c).spe.length * 2 ^ 16 + (u.core c).vxe.length * 2 ^ 8 + (u.core c).mxe.length ∧
      (s.obj (Obj.core_FAULT_CODE c) = 0 → u.obj (Obj.core_FAULT_CODE c) = code ∧ u.obj (Obj.core_FAULT_QUEUE c) = q ∧
        u.obj (Obj.core_FAULT_FLAG c) = (w.getD (0xFFFF, 0, 0)).1 ∧ u.obj (Obj.core_FAULT_WANT c) = (w.getD (0xFFFF, 0, 0)).2.1 ∧
        u.obj (Obj.core_FAULT_SEEN c) = (w.getD (0xFFFF, 0, 0)).2.2 ∧ u.obj (Obj.core_FAULT_TIME c) = s.now ∧
        u.obj (Obj.core_FAULT_OPSEQ c) = seq ∧ u.obj (Obj.core_NESTED_FAULTS c) = s.obj (Obj.core_NESTED_FAULTS c)) ∧
      (s.obj (Obj.core_FAULT_CODE c) ≠ 0 →
        u.obj (Obj.core_NESTED_FAULTS c) = min (2 ^ 32 - 1) (s.obj (Obj.core_NESTED_FAULTS c) + 1) ∧
        ∀ k, k ∈ [Obj.core_FAULT_CODE c, Obj.core_FAULT_QUEUE c, Obj.core_FAULT_FLAG c, Obj.core_FAULT_WANT c, Obj.core_FAULT_SEEN c,
          Obj.core_FAULT_TIME c, Obj.core_FAULT_OPSEQ c] → u.obj k = s.obj k)

/-- For mxe.mm, mxe.mmg, mxe.drain, vxe.map, vxe.zip, vxe.fma, vxe.red, vxe.conv, vxe.rand, spe.mm, spe.pack, txe.put, txe.get,
txe.acc, txe.ring, txe.msg, txe.digest and txe.fill, in every state in which a core that has not ended issues, with valid
handles and flags the issuer may name: with room in the queue the operation is its last entry, gate and operands read and
descriptors copied at issue, and the head is noted; with the queue full the core is held on the operation and CORE_STATE is
STALLED. The rest of the core, memory and every other object but OPS_ISSUED, QUEUE_FILL and CORE_STATE are unchanged. Everything
is told of the state after the operation's fetch (R103), which changes only the core's cache and ICACHE_MISS. -/
def Obligations.QueuedOperationEntersItsQueue : Prop :=
  ∀ (s₀ s : State) (x : Instr) (i : Issue) (q : Queue) (hs : List HRef) (fs ds : List Flag) (op : QOp),
    queuedOp s x = some (i, q, hs, fs, ds, op) → Fetched s₀ i.core i.routine s → (s.core i.core).ended = false →
    (∀ h ∈ hs, (s.core i.core).valid h ∧ (i.routine = true ∨ (s.core i.core).handle h % 4096 < 3840)) →
    (∀ f ∈ issueFlags i ++ fs, i.routine = true ∨ f.val < 240) → (∀ f ∈ ds, f.val < 240) →
    ∃ t seq, exec x s₀ = .next t ∧ seq + 1 = min (2 ^ 64 - 1) (s.obj (Obj.core_OPS_ISSUED i.core) + 1) ∧
      Issued i.core [Obj.core_QUEUE_FILL i.core, Obj.core_CORE_STATE i.core] s t ∧
      (((s.core i.core).queue q).length < queueDepth q →
        t.core i.core = (((s.core i.core).moved i.routine).setQueue q
          ((s.core i.core).queue q ++ [(s.core i.core).entry i seq op])).noteHead q s.now ∧
        t.obj (Obj.core_QUEUE_FILL i.core) = (t.core i.core).txe.length * 2 ^ 24 + (t.core i.core).spe.length * 2 ^ 16 +
          (t.core i.core).vxe.length * 2 ^ 8 + (t.core i.core).mxe.length ∧
        t.obj (Obj.core_CORE_STATE i.core) = if (s.core i.core).lib = none then 1 else 4) ∧
      (queueDepth q ≤ ((s.core i.core).queue q).length →
        t.core i.core = { (s.core i.core).moved i.routine with hold := .stall q ((s.core i.core).entry i seq op) s.now } ∧
        t.obj (Obj.core_CORE_STATE i.core) = 3)

/-- For every queued operation, in every state in which the core issues: with a handle whose generation is not its entry's the core
faults with HANDLE_STALE; else, for a program that names an entry from 3,840 on, with HANDLE_RESERVED; else with FLAG_RESERVED
for one of f240 to f255 named by a program in its gate, its completion field or its operands, or by anyone as a destination
flag. Each names the control core, and nothing is queued. Everything is told of the state after the operation's fetch (R103),
which changes only the core's cache and ICACHE_MISS. -/
def Obligations.QueuedOperationFaultsAtIssue : Prop :=
  ∀ (s₀ s : State) (x : Instr) (i : Issue) (q : Queue) (hs : List HRef) (fs ds : List Flag) (op : QOp),
    queuedOp s x = some (i, q, hs, fs, ds, op) → Fetched s₀ i.core i.routine s →
    ((∃ h ∈ hs, ¬ (s.core i.core).valid h) →
      exec x s₀ = .next (s.coreFaultWith i.core 0 0x10 (s.obj (Obj.core_OPS_ISSUED i.core)) none 0)) ∧
    ((∀ h ∈ hs, (s.core i.core).valid h) → i.routine = false → (∃ h ∈ hs, 3840 ≤ (s.core i.core).handle h % 4096) →
      exec x s₀ = .next (s.coreFaultWith i.core 0 0x11 (s.obj (Obj.core_OPS_ISSUED i.core)) none 0)) ∧
    ((∀ h ∈ hs, (s.core i.core).valid h ∧ (i.routine = true ∨ (s.core i.core).handle h % 4096 < 3840)) →
      ((i.routine = false ∧ ∃ f ∈ issueFlags i ++ fs, 240 ≤ f.val) ∨ ∃ f ∈ ds, 240 ≤ f.val) →
      exec x s₀ = .next (s.coreFaultWith i.core 0 0x12 (s.obj (Obj.core_OPS_ISSUED i.core)) none 0))

/-- For the waiting operation first in the queue of an MXE, VXE or SPE, its gate satisfied, its engine warm (so that the ramp
governor holds nothing) and no memory error met: when a descriptor check of R81 fails, the core faults with the lowest code of
those that fail, naming the engine; when none fails but the check pass of a sparse operation does, with the code of that pass;
when nothing fails, the operation is started at the present Fabric Time with its settings and a copy of its operands' bytes, and
every other entry of the queue stands as it was. Memory and every object but QUEUE_FILL, ISSUE_STALL and CORE_STATE are
unchanged. -/
def Obligations.EngineOperationStartsAtItsHead : Prop :=
  ∀ (s : State) (c : CoreId) (q : Queue) (e : QEntry) (rest : List QEntry), q ≠ .txe → (s.core c).queue q = e :: rest →
    e.phase = .waiting → (s.core c).gateOpen e = true → (s.core c).isWarm q = true →
    let u := s.warmUp c q
    (∀ code, lowest (u.engineFaults c e.routine e.op) = some code →
      exec (.engineOpStart c q []) s = .next (u.coreFaultWith c (queueCode q) code e.seq none 0)) ∧
    (∀ v code, u.engineFaults c e.routine e.op = [] → u.spePass c e.op = (v, some code) →
      exec (.engineOpStart c q []) s = .next (v.coreFaultWith c (queueCode q) code e.seq none 0)) ∧
    (u.engineFaults c e.routine e.op = [] → u.spePass c e.op = (u, none) →
      ∃ t, exec (.engineOpStart c q []) s = .next t ∧
        OnlyCore c [Obj.core_QUEUE_FILL c, Obj.core_ISSUE_STALL c, Obj.core_CORE_STATE c] s t ∧
        ((t.core c).queue q)[0]? = some { e with phase := .started, startAt := s.now, settings := u.opSettings e.op, image := u.opImage e.op } ∧
        ∀ j, j < rest.length → ((t.core c).queue q)[j + 1]? = rest[j]?)

/-- For a started operation of an MXE, VXE or SPE (of an mxe.mmg one whose pieces are all marked or whose flag has reached its last
value): exec answers a next state whose memory is what the operation's effect leaves, its entry gone from its queue and the
others in order; its completion flag, when it names one, has moved on by 1, its status byte is the larger of what it was and the
operation's status, and no other flag has changed. An mxe.mm or vxe.map whose operands are all empty, none of them written while
it ran, reads and writes nothing and completes with status OK. -/
def Obligations.EngineOperationCompletes : Prop :=
  ∀ (s : State) (c : CoreId) (q : Queue) (i : Nat) (e : QEntry) (rep : EngineReport), q ≠ .txe →
    ((s.core c).queue q)[i]? = some e → e.phase = .started → (s.core c).canComplete e = true →
    ∃ t u st ex, exec (.engineOpComplete c q i rep) s = .next t ∧ s.runOp c e rep = (u, st, ex) ∧ t.mem = u.mem ∧
      (((s.core c).queue q).eraseIdx i).map QEntry.seq <+: ((t.core c).queue q).map QEntry.seq ∧
      (∀ f, (t.core c).flag f = if e.comp = some f then (s.core c).flag f + 1 else (s.core c).flag f) ∧
      (∀ f, e.comp = some f → st < 256 →
        (Sparse.get 0 (t.core c).fstat f.val).toNat = max (Sparse.get 0 (s.core c).fstat f.val).toNat st) ∧
      (∀ d a b clr step, e.op = .mm d a b clr step → e.spoilt = false → s.opImage e.op = e.image →
        d.empty = true → a.empty = true → b.empty = true → u = s ∧ st = 0 ∧ ex = 0) ∧
      (∀ d a fn, e.op = .map d a fn → e.spoilt = false → s.opImage e.op = e.image → d.empty = true → d.fmt ≠ .raw8 → u = s ∧ st = 0 ∧ ex = 0)

/-- For a started TXE operation with no request waiting or unanswered. A txe.ring leaves ring k declared with its base, stride,
slots and flags, and memory unchanged; a txe.digest leaves its 32 result bytes at its offset of own SRAM, and every other byte
unchanged; a put, an acc or a fill without a destination flag leaves memory unchanged. Each completion flag moves on by 1, no
other flag of the core changes, and the entry leaves the queue with the others in order. -/
def Obligations.TransferEngineOperationCompletes : Prop :=
  ∀ (s : State) (c : CoreId) (i : Nat) (e : QEntry) (rep : EngineReport), (s.core c).txe[i]? = some e → e.phase = .started →
    e.todo = [] → e.out = [] →
    ((∃ k h fp fc, e.op = .ring k h fp fc) ∨ (∃ a h, e.op = .digest a h ∧ a + 32 ≤ 2 ^ 21) ∨
      (∃ d a tc step, e.op = .put d a tc step none) ∨ (∃ d a tc, e.op = .acc d a tc none) ∨ ∃ d pat tc, e.op = .fill d pat tc) →
    ∃ t, exec (.engineOpComplete c .txe i rep) s = .next t ∧
      (((s.core c).txe).eraseIdx i).map QEntry.seq <+: (t.core c).txe.map QEntry.seq ∧
      (∀ f, (t.core c).flag f = if e.comp = some f then (s.core c).flag f + 1 else (s.core c).flag f) ∧
      (∀ k h fp fc, e.op = .ring k h fp fc → t.mem = s.mem ∧
        ∀ j, Sparse.get none (t.core c).rings j = if j = k.val then some ⟨h.base, h.stride.1, h.e1, fp, fc⟩ else Sparse.get none (s.core c).rings j) ∧
      (∀ a h, e.op = .digest a h →
        (∀ j, j < 32 → t.readByte (c.val * 2 ^ 21 + a + j) = Sparse.get 0 e.got j) ∧
        ∀ b, (∀ j, j < 32 → s.resolve false b ≠ c.val * 2 ^ 21 + a + j) → t.readByte b = s.readByte b) ∧
      ((∀ a h, e.op ≠ .digest a h) → t.mem = s.mem)

/-- GATE_TIMEOUT of the waiting operation at a queue's head, its gate unsatisfied, faults the core with WAIT_EXPIRED at the instant
it reached the head plus GATE_TIMEOUT slots, naming the queue, the flag, the awaited value and the value seen. The wait of a
started mxe.mmg ends so at its start plus GATE_TIMEOUT, its entry dropped. REMOTE_TIMEOUT of a started TXE operation with
requests outstanding drops its entry and faults with REMOTE_TIMEOUT at its start plus REMOTE_TIMEOUT slots, and in a rollback, a
stop or a reclaim only drops it. A request answered RING_FULL is sent again one slot later while REMOTE_TIMEOUT has not passed. -/
def Obligations.WaitingOperationTimesOut : Prop :=
  ∀ (s : State) (c : CoreId),
    (∀ q e f v since d, ((s.core c).headIdx q).bind (fun i => ((s.core c).queue q)[i]?) = some e → e.gate = some (f, v) →
      e.headAt = some since → (s.core c).gateOpen e = false → d = since + s.gateTime c → d < 2 ^ 64 →
      exec (.gateTimeout c q) s = .next ((s.advanceTo d).coreFaultWith c (queueCode q) 0x20 e.seq
        (some (f.val, v, ((s.core c).flag f).toNat)) 0)) ∧
    (∀ e rest dC a b f base axis clr step d, (s.core c).mxe = e :: rest → e.op = .mmg dC a b f base axis clr step → e.phase = .started →
      flagGe ((s.core c).flag f) (BitVec.ofNat 32 ((base + a.e2) % 2 ^ 32)) = false → d = e.startAt + s.gateTime c → d < 2 ^ 64 →
      exec (.mmgWaitExpired c) s = .next (((s.advanceTo d).dropEntry c .mxe 0).coreFaultWith c 1 0x20 e.seq
        (some (f.val, (base + a.e2) % 2 ^ 32, ((s.core c).flag f).toNat)) 0)) ∧
    (∀ i e d, (s.core c).txe[i]? = some e → e.phase ≠ .waiting → e.out ++ e.todo ≠ [] → d = e.startAt + s.remoteTime c → d < 2 ^ 64 →
      exec (.remoteTimeout c i) s = .next
        (if s.jobState (s.parcelOf c) = 3 ∨ s.parState (s.parcelOf c) = 4 ∨ 2 ≤ (s.parcel (s.parcelOf c)).reclaim
          then (s.advanceTo d).dropEntry c .txe i
          else ((s.advanceTo d).dropEntry c .txe i).coreFaultWith c 4 0x21 e.seq none 0)) ∧
    (∀ tag i j e o since, (s.core c).findOut tag.toNat = some (i, j) → (s.core c).txe[i]? = some e → e.out[j]? = some o →
      o.full = some since → since + 1024 < 2 ^ 64 → max s.now (since + 1024) < e.startAt + s.remoteTime c →
      (let u := (s.advanceTo (since + 1024)).setEntry c .txe i { e with out := e.out.set j { o with full := none } }
      u.onDie c o.pkt = false → exec (.txeResend (.core c tag)) s = .next (u.inject (144 + 6 * (c.val / 192) + c.val % 6) o.pkt)))

/-- For a core of a parcel that issues COLL_START, with no early arrivals held: an instance that is refused (R301) leaves its code
in s1 and changes nothing else but OPS_ISSUED; one that is not, and whose start slot is still to come, is added to the contexts
with the group's NEXT_CSEQ as its CSEQ, NEXT_CSEQ moves on by 1 modulo 2^32 for that group alone, INSTANCES_TOTAL counts it, its
CSEQ stands in bytes 72 to 75 of its record, and the routine returns 0 and the CSEQ. Everything is told of the state after the
operation's fetch (R103), which changes only the core's cache and ICACHE_MISS. -/
def Obligations.CollectiveStartsOrIsRefused : Prop :=
  ∀ (s₀ s : State) (c : CoreId) (n : Nat), Fetched s₀ c false s → s.coreParcel c = some n → s.early = [] →
    let u := s.issued c false
    let off := u.argReg c 1
    let x := u.collBuild n c off (u.collRecord c off)
    let code := u.collRefusal n c off x (u.collRecord c off)
    (code ≠ 0 → ∃ t, exec (.collStart c) s₀ = .next t ∧ Issued c [] s t ∧ Returned (s.core c) (t.core c) [code]) ∧
    (code = 0 → u.slot < x.startSlot → ∃ t, exec (.collStart c) s₀ = .next t ∧ t.colls = s.colls ++ [x] ∧
      x.cseq = (s.groupSt x.group).next ∧
      (∀ g, t.groupSt g = if g = x.group then { s.groupSt g with next := (x.cseq + 1) % 2 ^ 32 } else s.groupSt g) ∧
      Counted Obj.coll_INSTANCES_TOTAL s t ∧ Returned (s.core c) (t.core c) [0, x.cseq] ∧
      (∀ j, j < 4 → (t.readByte (c.val * 2 ^ 21 + off + 72 + j)).toNat = x.cseq / 256 ^ j % 256) ∧
      ∀ b, (∀ j, j < 4 → s.resolve false b ≠ c.val * 2 ^ 21 + off + 72 + j) → t.readByte b = s.readByte b)

/-- For a core that issues COLL_WAIT, with no early arrivals held. An instance that is not here, or not of the core's parcel,
returns 0 and 2; one that failed here returns 0 and 1 and releases its context; one whose result is written returns {excess,
status} and 0 and releases its context; any other leaves a core that has not ended inside the routine until Fabric Time plus its
timeout, CORE_STATE LIBRARY. Everything is told of the state after the operation's fetch (R103), which changes only the core's
cache and ICACHE_MISS. -/
def Obligations.CollectiveWaitReturnsItsInstance : Prop :=
  ∀ (s₀ s : State) (c : CoreId), Fetched s₀ c false s → (s.core c).ended = false → s.early = [] →
    let g := s.argReg c 1
    let q := s.argReg c 2 % 2 ^ 32
    ((∀ x, s.collOf g q = some x → s.coreParcel c ≠ some x.parcel) →
      ∃ t, exec (.collWait c) s₀ = .next t ∧ Issued c [] s t ∧ Returned (s.core c) (t.core c) [0, 2]) ∧
    (∀ x, s.collOf g q = some x → s.coreParcel c = some x.parcel → x.failed = true ∨ x.written = true →
      ∃ t, exec (.collWait c) s₀ = .next t ∧ Issued c [] s { t with colls := s.colls } ∧
        (∀ y, y ∈ t.colls ↔ y ∈ s.colls ∧ ¬ (y.group = g ∧ y.cseq = q)) ∧
        Returned (s.core c) (t.core c) (if x.failed then [0, 1] else [x.excess % 16 * 256 + x.status, 0])) ∧
    (∀ x, s.collOf g q = some x → s.coreParcel c = some x.parcel → x.failed = false → x.written = false →
      ∃ t, exec (.collWait c) s₀ = .next t ∧ Issued c [Obj.core_CORE_STATE c] s t ∧ t.obj (Obj.core_CORE_STATE c) = 4 ∧
        t.core c = { (s.core c).moved false with lib := some (.coll g q (s.now + s.argReg c 3 * 1024)) })

/-- For a core of a parcel that issues ANCHOR_RETRY on a record aligned and inside SRAM: every byte of the result array's regions
that lie in own SRAM is zero, nothing else but memory has changed, and the first attempt starts at the anchor in s2. An attempt
sets the ANCHOR of the result's table entry and starts the instance: a refusal returns 2^16 + its code (the model's choice, log
25), and otherwise the core is inside the routine, waiting on the instance started. Everything is told of the state after the
operation's fetch (R103), which changes only the core's cache and ICACHE_MISS. -/
def Obligations.AnchorRetryClearsAndStartsItsAttempt : Prop :=
  ∀ (s₀ s : State) (c : CoreId) (n : Nat),
    (Fetched s₀ c false s → s.coreParcel c = some n → s.argReg c 1 % 8 = 0 → s.argReg c 1 + 128 ≤ 2 ^ 21 →
      let u := s.issued c false
      let ro := u.argReg c 1
      let d := ((u.core c).recDesc (bytesField (u.collRecord c ro) 14 2)).1
      ∃ w : State, exec (.anchorRetry c) s₀ = .next (w.retryStart n c ro (signed 16 (u.argReg c 2)) 1) ∧ { w with mem := u.mem } = u ∧
        ∀ r ∈ d.allRegions, inOwnSram c r.1 r.2 = true → ∀ j, j < r.2 → w.readByte (r.1 + j) = 0) ∧
    (∀ (ro k : Nat) (a : Int), ∃ v w : Nat, ∃ u : State,
      let i := bytesField (s.collRecord c ro) 14 2 % 4096
      v = Sparse.get 0 (s.core c).desc i ∧ w % 2 ^ 192 = v % 2 ^ 192 ∧ w / 2 ^ 192 % 2 ^ 16 = wrap 16 a ∧ w / 2 ^ 208 = v / 2 ^ 208 ∧
      u = s.setCore c { s.core c with desc := Sparse.set 0 (s.core c).desc i w } ∧
      let r := u.collStart n c ro (some a)
      s.retryStart n c ro a k = if r.2.1 ≠ 0 then u.libReturn c [2 ^ 16 + r.2.1]
        else r.1.libWait c (.retry ro (wrap 16 a) k (bytesField (u.collRecord c ro) 4 2) r.2.2))

/-- For a core of a parcel that issues OPT_STEP with one record, aligned and inside SRAM: a check that fails faults the core with
the lowest code of those that fail; otherwise, with no uncorrectable error under its operands, memory is what carrying the
record out leaves, and s1 holds {excess, status} of its gradient. A count of 0 or above 256 faults with FMT_COMBO. An element of
algorithm 1 is computed as R133 writes it, each step rounded once to FP32. Everything is told of the state after the operation's
fetch (R103), which changes only the core's cache and ICACHE_MISS. -/
def Obligations.OptimizerStepRunsItsRecord : Prop :=
  ∀ (s₀ s : State) (c : CoreId) (n : Nat), Fetched s₀ c false s → s.coreParcel c = some n →
    (((s.core c).reg 3).toNat = 1 → ((s.core c).reg 1).toNat % 8 = 0 → ((s.core c).reg 1).toNat + 64 ≤ 2 ^ 21 →
      let u := s.issued c false
      let r := u.optRec (c.val * 2 ^ 21 + ((s.core c).reg 1).toNat)
      (∀ code, lowest (u.optFaults c n r) = some code →
        exec (.optStep c) s₀ = .next (u.coreFaultWith c 0 code (u.obj (Obj.core_OPS_ISSUED c) - 1) none 0)) ∧
      (u.optFaults c n r = [] → u.bad = [] →
        ∃ t v st ex, u.optRun c (((s.core c).reg 2).toNat % 2 ^ 32) r = (v, st, ex) ∧ exec (.optStep c) s₀ = .next t ∧
          t = v.setReg c 1 (BitVec.ofNat 64 (ex % 16 * 256 + st)) ∧ t.mem = v.mem)) ∧
    (((s.core c).reg 3).toNat = 0 ∨ 256 < ((s.core c).reg 3).toNat →
      exec (.optStep c) s₀ = .next (s.coreFaultWith c 0 0x02 (s.obj (Obj.core_OPS_ISSUED c)) none 0)) ∧
    ∀ (par : List Sys2Proof.Machine.Num) (w g m v : Sys2Proof.Machine.Num), let p := fun i => par.getD i Sys2Proof.Machine.Num.zero
      let rd := fun x => (roundFp32 x).1
      let m1 := rd (vxeFma (p 1) m (rd (g.prod (p 9))))
      let step := rd (m1.plus (rd ((p 6).prod w)))
      (optElem 1 par w g m v).1 = rd (w.plus (rd ((p 0).prod step)).neg) ∧ (optElem 1 par w g m v).2.1 = m1 ∧
        (optElem 1 par w g m v).2.2.1 = v

/-- For a core of parcel n that issues JOB_START. In a serving parcel it installs the seed of s1, JOB_DIGEST is D0 of the seed and
first step, and it returns 0 and the first step. In a training parcel that needs no adoption, on the first call, with no memory
error: a job group that is not the parcel's returns 5; else JOB_STATE RESTART_NEEDED returns 3; else, the digest record absent
and no park image held, it starts a fresh job: the seed, JOB_DIGEST and RESULT_DIGEST D0, RESULT_STEP one below the first step
modulo 2^32, JOB_GROUP, attempt 0, every group of the parcel at base(first, 0), returning 0 and the first step. A later call of
another core returns the same and changes only who has had it. Everything is told of the state after the operation's fetch
(R103), which changes only the core's cache and ICACHE_MISS. -/
def Obligations.JobStartInstallsTheJob : Prop :=
  ∀ (s₀ s : State) (c : CoreId) (n : Nat), Fetched s₀ c false s → s.coreParcel c = some n →
    let seed := s.argReg c 1
    let first := s.argReg c 2 % 2 ^ 32
    let g := s.argReg c 3 % 2 ^ 16
    (s.parMode n ≠ 2 → ∃ t, exec (.jobStart c) s₀ = .next t ∧ (t.parcel n).seed = BitVec.ofNat 64 seed ∧
      t.obj (Obj.pardig_JOB_DIGEST n) = leNat (s.digest0 n seed first) ∧ Returned (s.core c) (t.core c) [0, first] ∧
      Issued c [Obj.pardig_JOB_DIGEST n] s { t with parcels := s.parcels }) ∧
    (s.parMode n = 2 → (s.parcel n).adopting = none → (s.parcel n).job = none → s.mustAdopt n g = false → s.bad = [] →
      (s.jobGroupOk n g = false →
        ∃ t, exec (.jobStart c) s₀ = .next t ∧ Returned (s.core c) (t.core c) [5] ∧ (t.parcel n).job = some ([5], [c.val])) ∧
      (s.jobGroupOk n g = true → s.jobState n = 7 →
        ∃ t, exec (.jobStart c) s₀ = .next t ∧ Returned (s.core c) (t.core c) [3] ∧ (t.parcel n).job = some ([3], [c.val])) ∧
      (s.jobGroupOk n g = true → s.jobState n ≠ 7 → recPresent (s.recordBytes n) = false → s.obj (Obj.parmem_PARK_STATE n) ≠ 2 →
        ∃ t, exec (.jobStart c) s₀ = .next t ∧ Returned (s.core c) (t.core c) [0, first] ∧
          (t.parcel n).job = some ([0, first], [c.val]) ∧ (t.parcel n).seed = BitVec.ofNat 64 seed ∧ (t.parcel n).attempt = 0 ∧
          t.obj (Obj.pardig_JOB_DIGEST n) = leNat (s.digest0 n seed first) ∧
          t.obj (Obj.pardig_RESULT_DIGEST n) = leNat (s.digest0 n seed first) ∧
          t.obj (Obj.pardig_RESULT_STEP n) = (first + (2 ^ 32 - 1)) % 2 ^ 32 ∧ t.obj (Obj.res_JOB_GROUP n) = g ∧
          ∀ h ∈ s.groupsOf n, (t.groupSt h).next = first % 2 ^ 15 * 2 ^ 17)) ∧
    (∀ l cs, s.parMode n = 2 → (s.parcel n).adopting = none → (s.parcel n).job = some (l, cs) → c.val ∉ cs → l.length ≤ 2 →
      ∃ t, exec (.jobStart c) s₀ = .next t ∧ Returned (s.core c) (t.core c) l ∧ (t.parcel n).job = some (l, c.val :: cs) ∧
        Issued c [] s { t with parcels := s.parcels })

/-- For a core of a training parcel that issues STEP_BEGIN and has not ended. A step that is not the one after RESULT_STEP returns 1
and changes nothing else. The first STEP_BEGIN of that step makes STEP_IN_FLIGHT and STEP_T0 its step and slot and JOB_STATE
IN_STEP (1), or REPLAYING (5) for attempt 1, sets every group of the parcel to base(step, attempt) + 1, and returns 0; with the
slot still to come the core is held to it, CORE_STATE WAITING. A later STEP_BEGIN with the same step and slot returns 0 and is
held likewise, and with others returns 2. Everything is told of the state after the operation's fetch (R103), which changes only
the core's cache and ICACHE_MISS. -/
def Obligations.StepBeginStartsTheNextStep : Prop :=
  ∀ (s₀ s : State) (c : CoreId) (n : Nat), Fetched s₀ c false s → (s.core c).ended = false → s.coreParcel c = some n → s.parMode n = 2 →
    let step := s.argReg c 1 % 2 ^ 32
    let slot := s.argReg c 2
    (step ≠ (s.obj (Obj.pardig_RESULT_STEP n) + 1) % 2 ^ 32 →
      ∃ t, exec (.stepBegin c) s₀ = .next t ∧ Issued c [] s t ∧ Returned (s.core c) (t.core c) [1]) ∧
    (step = (s.obj (Obj.pardig_RESULT_STEP n) + 1) % 2 ^ 32 → (s.parcel n).begun = none → s.now < slot * 1024 →
      ∃ t, exec (.stepBegin c) s₀ = .next t ∧ t.obj (Obj.res_STEP_IN_FLIGHT n) = step ∧ t.obj (Obj.res_STEP_T0 n) = slot ∧
        t.obj (Obj.res_JOB_STATE n) = (if (s.parcel n).attempt = 0 then 1 else 5) ∧ (t.parcel n).begun = some (step, slot) ∧
        (∀ h ∈ s.groupsOf n, (t.groupSt h).next = (step % 2 ^ 15 * 2 ^ 17 + (s.parcel n).attempt * 2 ^ 16 + 1) % 2 ^ 32) ∧
        Returned { s.core c with hold := .timeWait slot } (t.core c) [0] ∧ t.obj (Obj.core_CORE_STATE c) = 2 ∧ t.mem = s.mem) ∧
    (∀ m y, step = (s.obj (Obj.pardig_RESULT_STEP n) + 1) % 2 ^ 32 → (s.parcel n).begun = some (m, y) →
      (¬ (m = step ∧ y = slot) → ∃ t, exec (.stepBegin c) s₀ = .next t ∧ Issued c [] s t ∧ Returned (s.core c) (t.core c) [2]) ∧
      (m = step → y = slot → s.now < slot * 1024 → ∃ t, exec (.stepBegin c) s₀ = .next t ∧ Issued c [Obj.core_CORE_STATE c] s t ∧
        Returned { s.core c with hold := .timeWait slot } (t.core c) [0] ∧ t.obj (Obj.core_CORE_STATE c) = 2))

/-- For a core of a training parcel that issues one of them and has not ended. STEP_COMMIT with at most 64 digests inside SRAM and
no undefined option joins the commit, the first call giving its step, slot and options, and the core waits inside the routine.
STEP_REPLAY, PARK or RESTORE, while another mapped core has yet to call, joins the calls, and the core waits inside the routine.
CORE_STATE is LIBRARY, and the core changes in nothing else. Everything is told of the state after the operation's fetch (R103),
which changes only the core's cache and ICACHE_MISS. -/
def Obligations.StepRoutinesGatherTheirCalls : Prop :=
  ∀ (s₀ s : State) (c : CoreId) (n : Nat), Fetched s₀ c false s → (s.core c).ended = false → s.coreParcel c = some n → s.parMode n = 2 →
    (s.argReg c 4 ≤ 64 → s.argReg c 3 ≤ 1 → s.argReg c 5 + 32 * s.argReg c 4 ≤ 2 ^ 21 →
      ∃ t r, exec (.stepCommit c) s₀ = .next t ∧ (t.parcel n).commit = some r ∧ c.val ∈ r.cores ∧
        ((s.parcel n).commit = none → r.n = s.argReg c 1 % 2 ^ 32 ∧ r.tc = s.argReg c 2 ∧ r.opts = s.argReg c 3 ∧ r.cores = [c.val] ∧
          r.digests = s.readBytes (c.val * 2 ^ 21 + s.argReg c 5) (32 * s.argReg c 4)) ∧
        (∀ o, (s.parcel n).commit = some o → r.n = o.n ∧ r.tc = o.tc ∧ r.opts = o.opts ∧ ∀ b ∈ o.cores, b ∈ r.cores) ∧
        Issued c [Obj.core_CORE_STATE c] s { t with parcels := s.parcels } ∧ t.obj (Obj.core_CORE_STATE c) = 4 ∧
        t.core c = { (s.core c).moved false with lib := some .commit }) ∧
    (s.allIn n (c.val :: (s.parcel n).calls) = false →
      (∃ t, exec (.stepReplay c) s₀ = .next t ∧ (∀ b, b ∈ (t.parcel n).calls ↔ b = c.val ∨ b ∈ (s.parcel n).calls) ∧
        t.core c = { (s.core c).moved false with lib := some .ready } ∧ t.obj (Obj.core_CORE_STATE c) = 4 ∧ t.mem = s.mem) ∧
      (∃ t, exec (.park c) s₀ = .next t ∧ (∀ b, b ∈ (t.parcel n).calls ↔ b = c.val ∨ b ∈ (s.parcel n).calls) ∧
        Issued c [Obj.core_CORE_STATE c] s { t with parcels := s.parcels } ∧
        t.core c = { (s.core c).moved false with lib := some .park } ∧ t.obj (Obj.core_CORE_STATE c) = 4) ∧
      (∃ t, exec (.restore c) s₀ = .next t ∧ (∀ b, b ∈ (t.parcel n).calls ↔ b = c.val ∨ b ∈ (s.parcel n).calls) ∧
        Issued c [Obj.core_CORE_STATE c] s { t with parcels := s.parcels } ∧
        t.core c = { (s.core c).moved false with lib := some .restore } ∧ t.obj (Obj.core_CORE_STATE c) = 4))

/-- For an instance of a program whose result is complete on this device and not yet written, with no early arrivals held and no
core inside ANCHOR_RETRY: bytes 64 to 127 of its record in its core's SRAM take M, the CSEQ, status, excess, algorithm, count,
anchor and digest of R301; its flag moves on by 1 and no other flag of any core changes; no context of that instance that is
left is still unwritten, and every byte outside those 64 reads as before. -/
def Obligations.CompletedCollectiveWritesItsRecord : Prop :=
  ∀ (s : State) (group : BitVec 16) (cseq : BitVec 32) (x : Coll), s.collOf group.toNat cseq.toNat = some x →
    x.complete = true → x.written = false → x.by_ = .program → x.core < 1152 → x.record + 128 ≤ 2 ^ 21 → x.digest.length = 32 →
    x.flag < 256 → s.early = [] → (∀ b ro a k g q, (s.core b).lib ≠ some (.retry ro a k g q)) →
    ∃ t, exec (.collComplete group cseq) s = .next t ∧
      (∀ j, j < 64 → t.readByte (x.core * 2 ^ 21 + x.record + 64 + j) =
        (leBytes 8 x.final.m ++ leBytes 4 x.cseq ++ leBytes 1 x.final.status ++ leBytes 1 (x.final.excess % 16) ++ leBytes 1 x.algo ++ [0] ++
          leBytes 4 x.final.included ++ leBytes 2 (wrap 16 x.anchor) ++ List.replicate 10 0 ++ x.digest).getD j 0) ∧
      (∀ b, (∀ j, j < 64 → s.resolve false b ≠ x.core * 2 ^ 21 + x.record + 64 + j) → t.readByte b = s.readByte b) ∧
      (∀ b f, (t.core b).flag f = if b = x.core ∧ f.val = x.flag then (s.core b).flag f + 1 else (s.core b).flag f) ∧
      ∀ y ∈ t.colls, y.group = group.toNat → y.cseq = cseq.toNat → y.written = true

/-- For a RUNNING parcel that adopts and is in no rollback. When a read failed or the replica's record is absent, unsound or of
other digests, the outcome is 4, and memory and RESULT_STEP stay as they were. Otherwise ADOPT_FROM reads none, RESULT_STEP,
RESULT_DIGEST and the seed are the record's, JOB_GROUP is JOB_START's, the attempt is 1, and the outcome is 1 with the step
after RESULT_STEP. Either way the adoption is over, the outcome is kept for the parcel's cores, and every core waiting for it
returns with it. -/
def Obligations.AdoptionEndsJobStart : Prop :=
  ∀ (s : State) (n : ParcelId) (record : Bytes) (shards : List (BitVec 44 × Bytes)) (ok : Bool) (seed first g : Nat),
    s.parState n = 3 → s.jobState n ≠ 3 → (s.parcel n).adopting = some [seed, first, g] →
    ∃ t l, exec (.adoptComplete n record shards ok) s = .next t ∧ (t.parcel n).adopting = none ∧
      (∃ cs, (t.parcel n).job = some (l, cs)) ∧
      (∀ b, s.coreParcel b = some n.val → (s.core b).lib = some .adopt → Returned (s.core b) (t.core b) l ∧ (t.core b).lib = none) ∧
      (¬ (ok = true ∧ recPresent record = true ∧ recSound record = true ∧ s.recMatches n record = true) →
        l = [4] ∧ t.mem = s.mem ∧ t.obj (Obj.pardig_RESULT_STEP n) = s.obj (Obj.pardig_RESULT_STEP n)) ∧
      (ok = true → recPresent record = true → recSound record = true → s.recMatches n record = true →
        l = [1, (leAt record 8 4 + 1) % 2 ^ 32] ∧ t.obj (Obj.res_ADOPT_FROM n) = 0xFFFFFFFF ∧
        t.obj (Obj.pardig_RESULT_STEP n) = leAt record 8 4 ∧ t.obj (Obj.pardig_RESULT_DIGEST n) = leAt record 140 32 ∧
        (t.parcel n).seed = BitVec.ofNat 64 (leAt record 172 8) ∧ t.obj (Obj.res_JOB_GROUP n) = g ∧ (t.parcel n).attempt = 1)

/-- COMMIT_BEGIN, once every mapped core has called, every queue is empty and every instance off the job group has ended, makes
JOB_STATE COMMITTING (2), LOCAL_STEP the step and LOCAL_STEP_DIGEST L of R358, keeps the vote of R359 and the instant, and for a
parcel that is no shadow opens on the job group, on TC7, the instance that carries the 33 elements of R360 under the group's
next CSEQ. COMMIT_DECIDE of a complete instance within COMMIT_TIMEOUT decides the commit in the present slot when its status is
OK and every member voted yes, and otherwise drops it and raises COMMIT code 0x0902 as step-fatal. COMMIT_TIMEOUT, undecided
COMMIT_TIMEOUT slots after the start of an instance not complete in time, raises 0x0901 so. -/
def Obligations.CommitBeginsIsDecidedOrTimesOut : Prop :=
  ∀ (s : State) (n : ParcelId) (r : CommitRec), (s.parcel n).commit = some r →
    (s.jobState n = 1 ∨ s.jobState n = 5 → s.allIn n r.cores = true → s.allIdle n = true → s.stepInstancesDone n = true →
      ∃ w : State, w.obj (Obj.res_JOB_STATE n) = 2 ∧ w.obj (Obj.res_LOCAL_STEP n) = r.n ∧
        w.obj (Obj.res_LOCAL_STEP_DIGEST n) = leNat ((s.parcel n).localDigest r) ∧ w.mem = s.mem ∧ w.cores = s.cores ∧
        (s.isShadow n = true → exec (.commitBegin n) s = .next w ∧
          (w.parcel n).commit = some { r with startAt := s.now, vote := (s.parcel n).vote r }) ∧
        (s.isShadow n = false → ∃ x, exec (.commitBegin n) s = .next (w.collOpen x) ∧
          (w.parcel n).commit = some { r with startAt := s.now, vote := (s.parcel n).vote r, cseq := some x.cseq } ∧
          x.group = s.obj (Obj.res_JOB_GROUP n) ∧ x.cseq = (s.groupSt x.group).next ∧ x.tc = 7 ∧
          x.codes = voteCodes (s.jobRank n) ((s.parcel n).localDigest r) ((s.parcel n).vote r))) ∧
    (∀ target x, s.jobState n = 2 → (s.parcel n).decided = none → s.isShadow n = false → s.commitColl n r = some x →
      x.complete = true → x.written = true → s.now ≤ s.commitDue n r →
      (x.status = 0 → x.sums.getD 32 0 = (x.n : Int) → ∃ t, exec (.commitDecide n target) s = .next t ∧
        { t with parcels := s.parcels } = s ∧ t.parcel n = { s.parcel n with decided := some s.slot }) ∧
      (¬ (x.status = 0 ∧ x.sums.getD 32 0 = (x.n : Int)) → exec (.commitDecide n target) s = .next
        (((s.dropColl x.group x.cseq).modParcel n (fun p => { p with commit := none })).raise
          ⟨2, 8 + n.val, some n.val, 0x0902, 0xFFFF, r.n⟩))) ∧
    (∀ due q, s.jobState n = 2 → (s.parcel n).decided = none → s.isShadow n = false → r.cseq = some q →
      s.commitInTime n r = false → due = r.startAt + s.obj (Obj.res_COMMIT_TIMEOUT n) * 1024 → due < 2 ^ 64 →
      exec (.commitTimeout n) s = .next
        ((((s.advanceTo due).dropColl (s.obj (Obj.res_JOB_GROUP n)) q).modParcel n (fun p => { p with commit := none })).raise
          ⟨2, 8 + n.val, some n.val, 0x0901, 0xFFFF, r.n⟩))

/-- For a decided commit of a parcel that is no shadow, with no error entered after its vote: at the start of slot Tc, or of the
slot after the decision where that was not before Tc (then counted in COMMIT_LATE), ACTIVE_HALF is the other half, FLIPS and
COMMITS count it, RESULT_STEP is the step, AGREED_STEP_DIGEST the agreed digest and RESULT_DIGEST the SM3 of the old one, the
step and the agreed digest, LAST_COMMIT_SLOT the slot, JOB_STATE IN_STEP (1), the attempt 0 with no commit or step begun, the
groups of the parcel at base(step + 1, 0), and every core inside STEP_COMMIT returns 0. -/
def Obligations.CommittedStepTakesEffect : Prop :=
  ∀ (s : State) (n : ParcelId) (r : CommitRec) (d at_ : Nat) (x : Coll), (s.parcel n).commit = some r → (s.parcel n).decided = some d →
    (s.parcel n).late = false → s.jobState n = 2 → s.isShadow n = false → s.commitColl n r = some x →
    at_ = (if d < r.tc then r.tc else d + 1) → at_ * 1024 < 2 ^ 64 →
    ∃ t, exec (.commitFlip n) s = .next t ∧ t.now = max s.now (at_ * 1024) ∧
      t.obj (Obj.parmem_ACTIVE_HALF n) = 1 - s.obj (Obj.parmem_ACTIVE_HALF n) ∧ Counted (Obj.parmem_FLIPS n) s t ∧
      (if r.tc ≤ d then Counted (Obj.res_COMMIT_LATE n) s t else t.obj (Obj.res_COMMIT_LATE n) = s.obj (Obj.res_COMMIT_LATE n)) ∧
      t.obj (Obj.pardig_RESULT_STEP n) = r.n ∧ t.obj (Obj.res_AGREED_STEP_DIGEST n) = leNat (agreedDigest r.n x.sums) ∧
      t.obj (Obj.pardig_RESULT_DIGEST n) =
        leNat (sm3 (s.octBytes (Obj.pardig_RESULT_DIGEST n) 32 ++ leBytes 4 r.n ++ agreedDigest r.n x.sums)) ∧
      t.obj (Obj.res_LAST_COMMIT_SLOT n) = t.slot ∧ Counted (Obj.res_COMMITS n) s t ∧ t.obj (Obj.res_JOB_STATE n) = 1 ∧
      (t.parcel n).attempt = 0 ∧ (t.parcel n).begun = none ∧ (t.parcel n).commit = none ∧ (t.parcel n).decided = none ∧
      (∀ h ∈ s.groupsOf n, (t.groupSt h).next = (r.n + 1) % 2 ^ 15 * 2 ^ 17) ∧
      ∀ b, s.coreParcel b = some n.val → (s.core b).lib = some .commit → (t.core b).lib = none ∧ (t.core b).reg 1 = 0

/-- ROLLBACK_COMPLETE of a RUNNING or STOPPING parcel whose engines are done, no reclaim fallen due: JOB_STATE is ROLLED_BACK (4),
ROLLBACKS counts it, the attempt is 1 with nothing begun, committed or agreed, the groups stand at base(RESULT_STEP + 1, 1), and
every mapped core is RUNNING with registers and flags clear and its queues empty. RESUME_TIMEOUT of a ready agreement not
complete in time, RESUME_TIMEOUT slots after its start: JOB_STATE is RESTART_NEEDED (7), the agreement and the calls are over,
and every core inside STEP_REPLAY returns 1. -/
def Obligations.RollbackAndReadyAgreementEnd : Prop :=
  ∀ (s : State) (n : ParcelId),
    (s.jobState n = 3 → s.parActive n = true → s.enginesDone n = true → (s.parcel n).reclaim ≠ 2 →
      ∃ t, exec (.rollbackComplete n) s = .next t ∧ t.obj (Obj.res_JOB_STATE n) = 4 ∧ Counted (Obj.res_ROLLBACKS n) s t ∧
        (t.parcel n).attempt = 1 ∧ (t.parcel n).begun = none ∧ (t.parcel n).commit = none ∧ (t.parcel n).ready = none ∧
        (∀ h ∈ s.groupsOf n, (t.groupSt h).next = (s.obj (Obj.pardig_RESULT_STEP n) + 1) % 2 ^ 15 * 2 ^ 17 + 2 ^ 16) ∧
        ∀ b ∈ s.mapped n, t.obj (Obj.core_CORE_STATE b) = 1 ∧ (t.core b).mapped = true ∧ (t.core b).regs = [] ∧ (t.core b).flags = [] ∧
          (t.core b).mxe = [] ∧ (t.core b).vxe = [] ∧ (t.core b).spe = [] ∧ (t.core b).txe = []) ∧
    (∀ q x due, (s.parcel n).ready = some q → s.collOf (s.obj (Obj.res_JOB_GROUP n)) q = some x → x.parcel = n.val →
      (x.complete = false ∨ due < s.now) → due = x.startAt + s.obj (Obj.res_RESUME_TIMEOUT n) * 1024 → due < 2 ^ 64 →
      ∃ t, exec (.resumeTimeout n) s = .next t ∧ t.now = max s.now due ∧ t.obj (Obj.res_JOB_STATE n) = 7 ∧ (t.parcel n).ready = none ∧
        (t.parcel n).calls = [] ∧
        ∀ b, s.coreParcel b = some n.val → (s.core b).lib = some .ready → (t.core b).lib = none ∧ (t.core b).reg 1 = 1)

/-- RECLAIM_AT_TR, at the start of slot Tr: a parcel that is committing only reaches that instant; one in a rollback is marked as
draining from it; any other stops issue on every mapped core, drops its commit and agreement, and is RECLAIMING (6) unless it
needs a restart. RECLAIM_DRAIN_DONE outside a rollback with the engines done parks: JOB_STATE RECLAIMING and PARK_STATE PARKING
(1) unless a restart is needed, with no transfer left in a mapped core that nothing holds. RECLAIM_PARK_DONE with no memory
error leaves PARK_STATE PARKED (2), PARK_STEP RESULT_STEP and JOB_STATE NONE, RECLAIM_UNITS the time since Tr, the reclaim over
and the parcel's function FINISHED (5). -/
def Obligations.ReclaimRunsThroughItsPhases : Prop :=
  ∀ (s : State) (n : ParcelId),
    (∀ due, (s.parcel n).reclaim = 1 → due = (s.parcel n).reclaimSlot * 1024 → due < 2 ^ 64 →
      (s.jobState n = 2 → exec (.reclaimAtTr n) s = .next (s.advanceTo due)) ∧
      (s.jobState n = 3 → ∃ t, exec (.reclaimAtTr n) s = .next t ∧ { t with ft := s.ft, parcels := s.parcels } = s ∧
        t.parcel n = { s.parcel n with reclaim := 2, reclaimAt := t.now } ∧ t.now = max s.now due) ∧
      (s.jobState n ≠ 2 → s.jobState n ≠ 3 → ∃ t, exec (.reclaimAtTr n) s = .next t ∧ t.now = max s.now due ∧
        t.obj (Obj.res_JOB_STATE n) = (if s.jobState n = 7 then 7 else 6) ∧ (t.parcel n).reclaim = 2 ∧ (t.parcel n).commit = none ∧
        (t.parcel n).ready = none ∧ ∀ b ∈ s.mapped n, (t.core b).stopped = true)) ∧
    ((s.parcel n).reclaim = 2 → s.jobState n ≠ 3 → s.enginesDone n = true →
      ∃ t, exec (.reclaimDrainDone n) s = .next t ∧ (t.parcel n).reclaim = 3 ∧
        t.obj (Obj.res_JOB_STATE n) = (if s.jobState n = 7 then 7 else 6) ∧
        (s.jobState n ≠ 7 → t.obj (Obj.parmem_PARK_STATE n) = 1) ∧ ∀ b ∈ s.mapped n, (s.core b).hold = .none → (t.core b).txe = []) ∧
    ((s.parcel n).reclaim = 3 → s.jobState n = 6 → s.bad = [] →
      ∃ t, exec (.reclaimParkDone n) s = .next t ∧ t.fnState (8 + n.val) = 5 ∧ (t.parcel n).reclaim = 0 ∧ t.obj (Obj.res_JOB_STATE n) = 0 ∧
        t.obj (Obj.parmem_PARK_STATE n) = 2 ∧ t.obj (Obj.parmem_PARK_STEP n) = s.obj (Obj.pardig_RESULT_STEP n) ∧
        t.obj (Obj.res_RECLAIM_UNITS n) = s.now - (s.parcel n).reclaimSlot * 1024)

/-- DIE_CLEAR_DONE of a die whose clear is in progress: every byte of its 192 cores' SRAM reads 0 and every other byte as before;
their descriptors, generations, flags, status bytes and excess nibbles are 0; cores of other dies are unchanged. STE_CLEAR_DONE
of an engine whose clear is in progress: its state is IDLE in STE_STATE and in its control block, every other byte of its memory
reads 0 and every byte outside it as before, and no run or input is left. The clear is no longer in progress; Fabric Time,
functions and cores are otherwise as before. -/
def Obligations.ClearsLeaveZeroes : Prop :=
  ∀ s : State,
    (∀ k : Fin 6, k.val ∈ s.dieClears → ∃ t, exec (.dieClearDone k) s = .next t ∧
      (∀ a, Sparse.get 0 t.mem a = if 192 * k.val * 2 ^ 21 ≤ a ∧ a < 192 * (k.val + 1) * 2 ^ 21 then 0 else Sparse.get 0 s.mem a) ∧
      (∀ b, b / 192 ≠ k.val → t.core b = s.core b) ∧
      (∀ b, b / 192 = k.val → (∀ f, (t.core b).flag f = 0) ∧ (t.core b).desc = [] ∧ (t.core b).gens = [] ∧ (t.core b).fstat = [] ∧
        (t.core b).fexc = []) ∧
      k.val ∉ t.dieClears ∧ t.objs = s.objs ∧ t.ft = s.ft) ∧
    (∀ j : EngineId, j.val ∈ s.steClears → ∃ t, exec (.steClearDone j) s = .next t ∧ t.obj (Obj.ste_STE_STATE j) = 0 ∧
      (∀ a, Sparse.get 0 t.mem a = if 4 * 2 ^ 41 + j.val * 2 ^ 20 ≤ a ∧ a < 4 * 2 ^ 41 + (j.val + 1) * 2 ^ 20 then 0 else Sparse.get 0 s.mem a) ∧
      Sparse.get Ste.reset t.stes j = { Ste.reset with nextTag := (Sparse.get Ste.reset s.stes j).nextTag } ∧
      j.val ∉ t.steClears ∧ t.cores = s.cores ∧ t.ft = s.ft)

/-- On a fabric port that takes sequenced units. A sequenced unit with a bad CRC sets NAK in later trailers and counts CRC_ERR. A
good one that carries no NAK and whose SEQ is not the next, or that meets a full input stage, sets NAK and is not accepted, the
full stage counted. A good one that is next, with room in the stage, makes its SEQ the last accepted, clears NAK and counts
RX_LU before its data bytes are taken by the input. Units that its ACK covers leave the replay buffer, and of other ports
nothing changes before the data is taken. -/
def Obligations.LinkUnitsAreAcceptedInOrder : Prop :=
  ∀ (s : State) (p : PortId) (lu : Bytes), s.linkOpen p = true → unitKind lu = 1 ∨ unitKind lu = 2 →
    let l := (s.link p).acked (unitAck lu) s.now
    (unitGood lu = false → ∃ t, exec (.linkUnitRx p lu) s = .next t ∧ Counted (Obj.port_CRC_ERR p) s t ∧
      OnlyObjs [Obj.port_CRC_ERR p] s { t with links := s.links } ∧
      ∀ q, t.link q = if q = p.val then { s.link p with nak := true } else s.link q) ∧
    (unitGood lu = true → unitNak lu = false → unitSeq lu ≠ (l.accepted + 1) % 4096 →
      ∃ t, exec (.linkUnitRx p lu) s = .next t ∧ { t with links := s.links } = s ∧
        ∀ q, t.link q = if q = p.val then { l with nak := true } else s.link q) ∧
    (unitGood lu = true → unitNak lu = false → unitSeq lu = (l.accepted + 1) % 4096 → 4 ≤ (s.stageOf p).cells.length →
      ∃ t, exec (.linkUnitRx p lu) s = .next t ∧ Counted (Obj.sw_STAGE_NAK p) s t ∧ Counted Obj.lim_STAGE_NAK_TOTAL s t ∧
        OnlyObjs [Obj.sw_STAGE_NAK p, Obj.lim_STAGE_NAK_TOTAL] s { t with links := s.links } ∧
        ∀ q, t.link q = if q = p.val then { l with nak := true } else s.link q) ∧
    (unitGood lu = true → unitNak lu = false → unitSeq lu = (l.accepted + 1) % 4096 → (s.stageOf p).cells.length < 4 →
      ∃ w : State, exec (.linkUnitRx p lu) s = .next (w.takeUnit p (unitKind lu) (lu.take 248)) ∧ Counted (Obj.port_RX_LU p) s w ∧
        OnlyObjs [Obj.port_RX_LU p] s { w with links := s.links } ∧
        ∀ q, w.link q = if q = p.val then { l with accepted := unitSeq lu, nak := false } else s.link q)

/-- REPLAY_TIMEOUT on a fabric port with unacknowledged units, at the last progress plus REPLAY_TIMEOUT slots when that is below
2^64: after fewer than eight replays without progress, every unit of the replay buffer is sent again in order under its own SEQ,
with the receiver's ACK and NAK, the run of replays is one longer, REPLAYS counts one and LU_REPLAYED all of them; after eight,
the link goes down instead. -/
def Obligations.ReplayResendsEveryUnacknowledgedUnit : Prop :=
  ∀ (s : State) (p : PortId) (due : Nat), s.linkOpen p = true → (s.link p).replay ≠ [] →
    due = (s.link p).progressAt + s.obj Obj.topo_REPLAY_TIMEOUT * 1024 → due < 2 ^ 64 →
    ((s.link p).stuck < 8 → ∃ t, exec (.replayTimeout p) s = .next t ∧ t.now = max s.now due ∧
      t.sent = s.sent ++ (s.link p).replay.map
        (fun u => Output.lu p (linkUnit u.2.1 u.1 (s.link p).accepted (s.link p).nak u.2.2)) ∧
      Counted (Obj.port_REPLAYS p) s t ∧
      t.obj (Obj.port_LU_REPLAYED p) =
        min (2 ^ objBits (Obj.port_LU_REPLAYED p) - 1) (s.obj (Obj.port_LU_REPLAYED p) + (s.link p).replay.length) ∧
      (∀ q, t.link q = if q = p.val then { s.link p with stuck := (s.link p).stuck + 1, progressAt := t.now } else s.link q) ∧
      t.mem = s.mem ∧ t.cores = s.cores) ∧
    (8 ≤ (s.link p).stuck → exec (.replayTimeout p) s = .next ((s.advanceTo due).linkDown p 1))

/-- A good control unit on a locked fabric port of a device whose ports are not disabled, its link down: from the peer that the
port's wiring expects, the port's PEER objects take what it says, WIRING reads as expected, and with the fabric function running
the link layer starts anew with the initial credits and the counts of the unit; from an enabled peer that is not the one
expected, WIRING is 1 and LINK_STATE 0. A locked fabric port that sends a control unit sends KIND 3 with its next SEQ, ACK, NAK
and the data of R189, and notes what it granted. -/
def Obligations.ControlUnitsBringLinksUp : Prop :=
  ∀ (s : State) (p : PortId), p.val < 125 → s.obj (Obj.port_ROLE p) = 1 → (s.link p).locked = true →
    (∀ lu, unitGood lu = true → unitKind lu = 3 → s.portsDisabled = false → s.linkUp p = false → (peerOf lu).disabled = false →
      (s.expected p = some ((peerOf lu).group, (peerOf lu).position, (peerOf lu).port) → s.fabricOn = true →
        ∃ t w : State, exec (.controlUnitRx p lu) s = .next t ∧
          OnlyObjs [Obj.port_PEER_PHYS_ID p, Obj.port_PEER_PORT p, Obj.port_WIRING p] s { w with links := s.links } ∧
          w.obj (Obj.port_PEER_PHYS_ID p) = (peerOf lu).physId ∧ w.obj (Obj.port_PEER_PORT p) = (peerOf lu).port ∧
          w.obj (Obj.port_WIRING p) = 0 ∧ t = (w.bringUp p).setLink p (((w.bringUp p).link p).takeCredits lu) ∧
          (t.link p).creditInit = s.initialCredits p ∧ (t.link p).nextSeq = 0 ∧ (t.link p).accepted = 4095 ∧ (t.link p).replay = [] ∧
          ∀ i, i < 40 → Sparse.get 0 (t.link p).returned i = beAt lu (2 * i) 2) ∧
      (s.expected p ≠ some ((peerOf lu).group, (peerOf lu).position, (peerOf lu).port) →
        ∃ t, exec (.controlUnitRx p lu) s = .next t ∧ t.obj (Obj.port_WIRING p) = 1 ∧ t.obj (Obj.port_LINK_STATE p) = 0 ∧
          t.link p = { s.link p with peer := some (peerOf lu) } ∧ t.mem = s.mem ∧ t.cores = s.cores)) ∧
    (∃ t, exec (.controlUnitTx p) s = .next t ∧
      t.sent = s.sent ++ [.lu p (linkUnit 3 (s.link p).nextSeq (s.link p).accepted (s.link p).nak (s.controlData p))] ∧
      OnlyObjs [Obj.port_TX_LU p] s { t with links := s.links, sent := s.sent } ∧
      t.link p = { s.link p with sentGrant := (s.link p).granted, controlAt := s.now })

/-- LINK_TRAIN_DONE, with FABRIC not OFF, of a port whose role is not off and, on one lane pair, whose mode is FULL: the link layer
is as after reset but locked, on one lane pair when that is how it trained; a service port's LINK_STATE is 2; a fabric port's is
1, or 4 on a device that holds its ports disabled, when its link was down before. PCS_LOCK_LOSS of a locked port: the link layer
is unlocked with no peer, no replay buffer and no credits, and the LINK_STATE of a port whose link was down is 1, or stays 4. -/
def Obligations.TrainingStartsTheLinkLayerAnew : Prop :=
  ∀ (s : State) (p : PortId),
    (∀ res, s.fnState 4 ≠ 0 → s.obj (Obj.port_ROLE p) ≠ 0 → (res = .full ∨ s.obj (Obj.port_MODE p) = 1) →
      ∃ t, exec (.linkTrainDone p res) s = .next t ∧ t.link p = { Link.reset with locked := true, half := decide (res ≠ .full) } ∧
        (s.obj (Obj.port_ROLE p) = 2 → t.obj (Obj.port_LINK_STATE p) = 2) ∧
        (s.obj (Obj.port_ROLE p) ≠ 2 → s.linkUp p = false → t.obj (Obj.port_LINK_STATE p) = (if s.portsDisabled then 4 else 1) ∧
          OnlyObjs [Obj.port_LINK_STATE p] s { t with links := s.links })) ∧
    ((s.link p).locked = true → ∃ t, exec (.pcsLockLoss p) s = .next t ∧
      (s.linkUp p = false → t.link p = { Link.reset with half := (s.link p).half } ∧
        t.obj (Obj.port_LINK_STATE p) = (if s.obj (Obj.port_LINK_STATE p) = 4 then 4 else 1) ∧
        OnlyObjs [Obj.port_LINK_STATE p] s { t with links := s.links }) ∧
      (t.link p).locked = false ∧ (t.link p).peer = none ∧ (t.link p).replay = [] ∧ (t.link p).creditInit = [])

/-- For a request received over the fabric or from this device, well formed, for this device and admitted for a parcel, with no
uncorrectable error in memory. A put inside its space and not guarded by a stream engine writes its payload and nothing else; a
flag packet increments its flag of its core and no other flag; a get that converts nothing is answered with the bytes at its
address and changes nothing; a msg of 1 to 224 bytes to a declared ring with room writes its slot of 256 bytes and increments
the producer flag; an acc that its unit accepts leaves what the unit's additions leave. Each is answered with STATUS OK to its
source under its TAG, and is taken from what arrived. -/
def Obligations.AdmittedRequestIsCarriedOutAndAnswered : Prop :=
  ∀ (s : State) (at_ : RxAt) (k : Packet) (n : Nat), Arrived s at_ k → (s.taken at_ k).admission at_.port.isNone k = .ok n → s.bad = [] →
    (k.op = opPut → k.isFlag = false → s.ranged k.addrN k.payload.length = true → s.steGuarded k.addrN k.payload.length = false →
      ∃ w t : State, exec (.rxPut at_ k []) s = .next t ∧ Answered k 0 [] w t ∧ { w with mem := s.mem } = s.taken at_ k ∧
        Wrote k.addrN k.payload s w) ∧
    (k.op = opPut → k.isFlag = true →
      ∃ w t : State, exec (.rxFlagPacket at_ k) s = .next t ∧ Answered k 0 [] w t ∧ w.mem = s.mem ∧
        ∀ b f, (w.core b).flag f = if b = k.dstCore.toNat ∧ f.val = k.argN % 256 then (s.core b).flag f + 1 else (s.core b).flag f) ∧
    (k.op = opGet → k.argN.testBit 16 = false → s.ranged k.addrN (k.argN % 2 ^ 13) = true →
      ∃ t : State, exec (.rxGet at_ k []) s = .next t ∧
        Answered k 0 ((List.range (k.argN % 2 ^ 13)).map (fun i => s.readByte (k.addrN + i))) (s.taken at_ k) t) ∧
    (∀ r, k.op = opMsg → 1 ≤ k.payload.length → k.payload.length ≤ 224 →
      Sparse.get none (s.core k.dstCore.toNat).rings (k.argN % 16) = some r →
      ((s.core k.dstCore.toNat).flag r.fp - (s.core k.dstCore.toNat).flag r.fc).toNat < r.slots →
      ∃ w t : State, exec (.rxMsg at_ k) s = .next t ∧ Answered k 0 [] w t ∧
        Wrote (r.base + ((s.core k.dstCore.toNat).flag r.fp).toNat % r.slots * r.stride)
          (leBytes 2 k.payload.length ++ leBytes 2 k.srcCore.toNat ++ leBytes 4 k.src.toNat ++ List.replicate 24 0 ++ k.payload ++
            List.replicate (224 - k.payload.length) 0) s w ∧
        ∀ b f, (w.core b).flag f = if b = k.dstCore.toNat ∧ f = r.fp then (s.core b).flag f + 1 else (s.core b).flag f) ∧
    (∀ w, k.op = opAcc → (s.taken at_ k).serveAcc k = (w, 0) → ∃ t, exec (.rxAcc at_ k []) s = .next t ∧ Answered k 0 [] w t)

/-- For a put, flag packet, get, acc or msg that stands received over the fabric. With a reserved encoding (R191) it is discarded:
of the state nothing differs but RX_DISCARD of its port, one larger, and what arrived. Well formed, for this device, and not
admitted: nothing differs but one counter, REFUSED_ACCESS of the parcel it targets, or RX_REFUSED of its port where it targets
none, and what arrived. Neither is answered, so no packet joins any endpoint. -/
def Obligations.UnadmittedRequestHasNoEffect : Prop :=
  ∀ (s : State) (at_ : RxAt) (p : PortId) (k : Packet) (x : Instr), rxCommand at_ k = some x → k.resp = false →
    at_.port = some p → p.val < 125 → s.received at_ k = true →
    (k.requestOk 4096 = false → ∃ t, exec x s = .next t ∧ OnlyObjs [Obj.port_RX_DISCARD p] (s.taken at_ k) t ∧
      Counted (Obj.port_RX_DISCARD p) s t) ∧
    (k.requestOk 4096 = true → k.dst.toNat = s.logicalId → ∀ target, (s.taken at_ k).admission false k = .no target →
      ∃ t o, exec x s = .next t ∧ o = (match target with | some n => Obj.par_REFUSED_ACCESS n | none => Obj.port_RX_REFUSED p) ∧
        OnlyObjs [o] (s.taken at_ k) t ∧ Counted o s t)

/-- For a well-formed response for this device whose DST_CORE and TAG match an unanswered request of that core, of its operation,
with no request of the core waiting to be sent. The window of its class moves as R209 says. OK takes the request off its
operation and the operation stays, or leaves its queue when that was its flag packet; RING_FULL keeps the request, refused now.
A response that matches no request is discarded and counted. -/
def Obligations.ResponsesAnswerTheirRequests : Prop :=
  ∀ (s : State) (at_ : RxAt) (k : Packet), k.resp = true → s.received at_ k = true → k.responseOk (s.lenLimit at_) = true →
    k.dst.toNat = s.logicalId → k.dstCore.toNat < 1152 →
    (∀ i j e o, (s.core k.dstCore.toNat).findOut k.tag.toNat = some (i, j) → (s.core k.dstCore.toNat).txe[i]? = some e → e.out[j]? = some o →
      k.op = o.pkt.op → o.full = none → (∀ e' ∈ (s.core k.dstCore.toNat).txe, e'.todo = []) →
      (k.status = 0 → e.phase ≠ .flagSent → ∃ t, exec (.rxResponse at_ k) s = .next t ∧
        ((t.core k.dstCore.toNat).txe[i]?).map QEntry.out = some (e.out.eraseIdx j) ∧
        (t.core k.dstCore.toNat).window k.tc.toNat = ((s.core k.dstCore.toNat).window k.tc.toNat).respond k.ceEcho s.slot ∧
        t.mem = s.mem ∧ t.inbox = s.inbox.erase (at_, k)) ∧
      (k.status = 0 → e.phase = .flagSent → e.out = [o] → ∃ t, exec (.rxResponse at_ k) s = .next t ∧
        ((s.core k.dstCore.toNat).txe.eraseIdx i).map QEntry.seq <+: (t.core k.dstCore.toNat).txe.map QEntry.seq ∧ t.mem = s.mem) ∧
      (k.status = 5 → ∃ t, exec (.rxResponse at_ k) s = .next t ∧
        ((t.core k.dstCore.toNat).txe[i]?).map QEntry.out = some (e.out.set j { o with full := some s.now }) ∧ t.mem = s.mem)) ∧
    ((s.core k.dstCore.toNat).findOut k.tag.toNat = none → s.findCollOut k.dstCore.toNat k.tag.toNat = none → ∀ p, at_.port = some p →
      ∃ t, exec (.rxResponse at_ k) s = .next t ∧ OnlyObjs [Obj.port_RX_DISCARD p] (s.taken at_ k) t ∧ Counted (Obj.port_RX_DISCARD p) s t)

/-- For a well-formed coll packet that stands received from the fabric for an active parcel's group with the parcel's job, with no
early arrivals held. Early with room in the group's early limit, it is held, counted, not answered, and nothing else differs;
stale, it is answered OK, STALE_RX_TOTAL and the group count it; for a context that has begun it lands and is answered as
landing says. -/
def Obligations.CollectivePacketsLandOrAreHeld : Prop :=
  ∀ (s : State) (at_ : RxAt) (p : PortId) (k : Packet), k.op = opColl → Arrived s at_ k → at_.port = some p → s.early = [] →
    (collHdr k).group < 4096 → (s.groupOf (collHdr k).group).valid ≠ 0 → s.parActive (s.groupOf (collHdr k).group).parcel = true →
    (s.parcel (s.groupOf (collHdr k).group).parcel).reclaim < 2 → k.job.toNat ≠ 0 →
    s.jobId (s.groupOf (collHdr k).group).parcel = k.job.toNat →
    let u := s.taken at_ k
    (u.classify (collHdr k) = .early → k.cells ≤ (s.groupOf (collHdr k).group).early →
      ∃ t, exec (.rxColl at_ k) s = .next t ∧ t.txq = s.txq ∧ Counted Obj.coll_EARLY_HOLDS_TOTAL s t ∧
        t.early = [(at_, k)] ∧
        OnlyObjs [Obj.coll_EARLY_HOLDS_TOTAL] u { t with early := [] }) ∧
    (u.classify (collHdr k) = .stale → ∃ w t : State, exec (.rxColl at_ k) s = .next t ∧ Answered k 0 [] w t ∧
      Counted Obj.coll_STALE_RX_TOTAL s w ∧ OnlyObjs [Obj.coll_STALE_RX_TOTAL] u { w with groups := s.groups } ∧
      ∀ g, w.groupSt g = if g = (collHdr k).group then { s.groupSt g with stale := min (2 ^ 32 - 1) ((s.groupSt g).stale + 1) } else s.groupSt g) ∧
    (∀ x w st, u.classify (collHdr k) = .active x → u.landColl x (collHdr k) k.payload = (w, st) → w.early = [] →
      ∃ t, exec (.rxColl at_ k) s = .next t ∧ Answered k st [] w t)

/-- For a well-formed mgmt packet received over the fabric for this device, with FABRIC_MGMT not OFF and MGMT up, whose address lies
in space 5 below 2^24. A read without payload answers the value of its object with the status of the read; a write or a command
makes the one write of its payload that FABRIC_MGMT's role may make and answers its code. MGMT_PKT_RX counts it first,
MGMT_PKT_REFUSED a code other than OK; STATUS is OK or MGMT_REFUSED and ARG[15:8] the code. With FABRIC_MGMT OFF the packet is
only counted in RX_REFUSED. -/
def Obligations.ManagementPacketsReachTheDictionary : Prop :=
  ∀ (s : State) (at_ : RxAt) (k : Packet), k.op = opMgmt → Arrived s at_ k → addrSpace k.addrN = 5 → addrOff k.addrN < 2 ^ 24 →
    (s.obj Obj.topo_FABRIC_MGMT ≠ 0 → s.mgmtUp = true →
      let u := (s.taken at_ k).bump Obj.mgc_MGMT_PKT_RX
      let idx := addrOff k.addrN / 256
      let sub := addrOff k.addrN % 256
      let ends := fun (v : State) (code : Nat) (bs : Bytes) (t : State) =>
        ∃ (w : State) (x : Nat) (p : Packet), { t with txq := v.txq } = w ∧ (code = 0 → w = v) ∧
          (code ≠ 0 → OnlyObjs [Obj.mgc_MGMT_PKT_REFUSED] v w ∧ Counted Obj.mgc_MGMT_PKT_REFUSED v w) ∧
          Sparse.get [] t.txq x = Sparse.get [] v.txq x ++ [⟨p, ownAt, none, 0, none⟩] ∧ p.resp = true ∧ p.tag = k.tag ∧ p.dst = k.src ∧
          p.status = (if code = 0 then 0 else BitVec.ofNat 8 stMgmtRefused) ∧ p.arg = BitVec.ofNat 48 (code * 256) ∧ p.payload = bs
      (k.argN % 4 = 0 → k.payload = [] → ∀ v r, u.dictRead false idx sub = (v, r) →
        ∃ t, exec (.mgmtRead at_ k) s = .next t ∧ ends v r.status r.value t) ∧
      (∀ v e, u.dictWrite (some (if s.obj Obj.topo_FABRIC_MGMT = 2 then .operate else .read)) [sentEntry idx sub k.payload] = (v, e) →
        (k.argN % 4 = 1 → ∃ t, exec (.mgmtWrite at_ k) s = .next t ∧ ends v (match e with | none => 0 | some x => x.2) [] t) ∧
        (k.argN % 4 = 2 → ∃ t, exec (.mgmtCommand at_ k) s = .next t ∧ ends v (match e with | none => 0 | some x => x.2) [] t))) ∧
    (s.obj Obj.topo_FABRIC_MGMT = 0 → ∀ p x, at_.port = some p →
      (x = .mgmtRead at_ k ∧ k.argN % 4 = 0) ∨ (x = .mgmtWrite at_ k ∧ k.argN % 4 = 1) ∨ (x = .mgmtCommand at_ k ∧ k.argN % 4 = 2) →
      ∃ t, exec x s = .next t ∧ OnlyObjs [Obj.port_RX_REFUSED p] (s.taken at_ k) t ∧ Counted (Obj.port_RX_REFUSED p) s t)

/-- XBAR_MATCH with one staged cell in the switch, a whole lossless packet bound for one output that is free, not held by pacing,
with a buffer and an entry left: the stage is empty, the output's grant pointer passes the input, the cell is counted, and its
packet joins the queue of its class and hop set in the next fresh buffer, with its HOP, DETOUR and CM set; other queues, memory
and cores are unchanged. OUTPUT_CELL_TIME of an output that is on and sends nothing, when class 7 has a packet that may be sent:
that packet leaves its queue and its first cell is counted in TX_CELLS; while it has further cells it stays the packet being
sent. On a fabric port the cell is a sequenced unit under the next SEQ that is kept for replay; from another endpoint a packet
of one cell leaves to its port or arrives in the device. With no packet in any queue of a fabric port an idle unit is sent,
which is not counted and takes no SEQ. PFC of the service ports is brought up to date after each. -/
def Obligations.SwitchTransfersAndSendsCells : Prop :=
  ∀ s : State,
    (∀ i o c h, s.fabricOn = true → s.sw.stages = [(i, ⟨[c], none⟩)] → i < 221 → o < 221 → c.outs = [o] → c.fan = 1 → c.first = true →
      c.last = true → c.buf = none → c.share = none → c.cls < 8 → h = hopSet o c.hop → h < 5 → s.lossless c.cls = true →
      s.paceHeld i c.cls = false → s.partOf i o = none → (s.pool 0).stopped = false → (s.pool 0).head = nil →
      (s.pool 0).fresh < 786432 → 0 < s.entriesFree → s.txq = [] →
      (∀ x, x < 125 → (x = o ∨ ∃ e ∈ s.sw.queues, e.1 / 40 = x) → s.linkUp x = true) →
      ∃ (w : State) (p : Packet), exec .xbarMatch s = .next w.pfcAll ∧ w.sw.phase = 1 - s.sw.phase ∧ w.sw.stages = [] ∧
        w.gpOf o = (i + 1) % 221 ∧ Counted (Obj.sw_XBAR_CELLS i) s w ∧ (w.pool 0).fresh = (s.pool 0).fresh + 1 ∧
        (w.pool 0).used = (s.pool 0).used + 1 ∧
        (∀ k, (w.outQ k).pkts = if k = queueKey o c.cls h then (s.outQ k).pkts ++ [⟨p, c.at_, c.dest, [.die (s.pool 0).fresh]⟩]
          else (s.outQ k).pkts) ∧
        { p with hop := (Packet.parse (c.bytes.take c.len)).hop, detour := (Packet.parse (c.bytes.take c.len)).detour,
                 cm := (Packet.parse (c.bytes.take c.len)).cm } = Packet.parse (c.bytes.take c.len) ∧
        p.detour = c.detour ∧ (o < 144 → p.hop = BitVec.ofNat 3 h) ∧
        p.cm = ((Packet.parse (c.bytes.take c.len)).cm || decide (s.obj (Obj.lim_MARK_THRESH c.cls) < s.occupancy o c.cls)) ∧
        w.mem = s.mem ∧ w.cores = s.cores) ∧
    (∀ (x : EndId) (h : Nat) (k : QPkt) (l : Link), s.outputOn x = true → (s.outPort x).sending = none → s.shaped 7 = false →
      s.classPaused x 7 = false → l = s.link x → (x.val < 125 → l.replay.length < 2048) →
      s.choice x 7 ((s.outPort x).hp.getD 7 0) = some (h, k) → h < 5 →
      (1 < k.cells.length ∨ ∃ b, k.cells = [.die b] ∧ b < (s.pool 0).fresh ∧ ((s.pool 0).rd b).testBit 63 = true) →
      ∃ w : State, exec (.outputCellTime x) s = .next w.pfcAll ∧ (w.outQ (queueKey x 7 h)).pkts = (s.outQ (queueKey x 7 h)).pkts.drop 1 ∧
        Counted (Obj.sw_TX_CELLS x k.pkt.tc.toNat) s w ∧ w.mem = s.mem ∧ w.cores = s.cores ∧
        (w.outPort x).sending = (if k.cells.length = 1 then none else some k) ∧
        (∀ p : PortId, p.val = x.val → p.val < 125 →
          w.sent = s.sent ++ [.lu p (linkUnit 1 l.nextSeq l.accepted l.nak (slice k.pkt.bytes 0 248))] ∧
          (w.link p).nextSeq = (l.nextSeq + 1) % 4096 ∧
          (w.link p).replay = l.replay ++ [(l.nextSeq, 1, padTo 248 (slice k.pkt.bytes 0 248))] ∧ Counted (Obj.port_TX_LU p) s w) ∧
        (144 ≤ x.val → k.cells.length = 1 → w.inbox = s.inbox ++ [(k.at_, k.pkt)]) ∧
        (∀ p r, p.val = x.val → 125 ≤ p.val → k.cells.length = 1 → k.dest = some r →
          w.sent = s.sent ++ [.datagram p r.peerAddr r.peerPort r.peerMac (if k.pkt.cm then 3 else 2) k.pkt.bytes])) ∧
    (∀ (p : PortId) (x : EndId), x.val = p.val → p.val < 125 → s.outputOn p = true → (s.outPort p).sending = none →
      (∀ c h, (s.outQ (queueKey p c h)).pkts = []) →
      ∃ w : State, exec (.outputCellTime x) s = .next w.pfcAll ∧ w.links = s.links ∧ w.objs = s.objs ∧
        w.sent = s.sent ++ [.lu p (linkUnit 0 (s.link p).nextSeq (s.link p).accepted (s.link p).nak [])] ∧
        w.mem = s.mem ∧ w.cores = s.cores ∧ w.inbox = s.inbox)

/-- POOL_LEVEL_TEST with the fabric function on: the tests that now hold are kept; each of the eight that holds and did not hold
before is counted once in its own counter, no other counter of the eight changes, and memory and cores stay. PACING_WINDOW: at
the next multiple of 16 slots every parcel's spent budget is 0, and nothing else differs. POLICER_REFILL: at the start of the
next slot each bucket of each service port holds its old contents plus CIR × 8, or PIR × 8, but no more than its size × 1,000,
the MODE of its class is in force from then on, and nothing else differs. Each instant must lie below 2^64. -/
def Obligations.PoolLevelsAndPacingFollowTheirClock : Prop :=
  ∀ s : State,
    (s.fabricOn = true → s.sw.above.length = 8 → ∃ w : State, exec .poolLevelTest s = .next w.pfcAll ∧ w.sw.above = s.levelTests ∧
      w.mem = s.mem ∧ w.cores = s.cores ∧
      ∀ i k, levelCounters[i]? = some k → w.obj k =
        if s.levelTests.getD i false = true ∧ s.wasAbove i = false then min (2 ^ objBits k - 1) (s.obj k + 1) else s.obj k) ∧
    ((s.now / 16384 + 1) * 16384 < 2 ^ 64 → ∃ t : State, exec .pacingWindow s = .next t ∧ t.now = (s.now / 16384 + 1) * 16384 ∧
      t.sw = { s.sw with paced := [0, 0, 0, 0] } ∧ { t with ft := s.ft, sw := s.sw } = s) ∧
    ((s.slot + 1) * 1024 < 2 ^ 64 → ∃ t : State, exec .policerRefill s = .next t ∧ t.now = (s.slot + 1) * 1024 ∧
      { t with ft := s.ft, sw := s.sw } = s ∧ { t.sw with svc := s.sw.svc } = s.sw ∧
      ∀ p c, 125 ≤ p → p < 144 → c < 8 →
        (t.svc p).tc.getD c 0 = min ((s.svc p).tc.getD c 0 + (s.obj (Obj.pol_CIR (8 * (p - 125) + c)) : Int) * 8)
          ((s.obj (Obj.pol_CBS (8 * (p - 125) + c)) : Int) * 1000) ∧
        (t.svc p).tp.getD c 0 = min ((s.svc p).tp.getD c 0 + (s.obj (Obj.pol_PIR (8 * (p - 125) + c)) : Int) * 8)
          ((s.obj (Obj.pol_PBS (8 * (p - 125) + c)) : Int) * 1000) ∧
        (t.svc p).mode.getD c 0 = s.obj (Obj.pol_MODE (8 * (p - 125) + c)) ∧
        { t.svc p with tc := (s.svc p).tc, tp := (s.svc p).tp, mode := (s.svc p).mode } = s.svc p)

/-- SPILL_PAGE of a queue with no page yet, all cells different and allocated on die, at least 15 of them past its head, when its
class spills, the bulk tier is trained and the page pool is below its levels and has a fresh page: the 15 oldest tail cells
become slots 1 to 15 of the page in order, packets and head are kept, the 248 data bytes of each stand in its slot, and no byte
outside the page changes. SPILL_RETURN of a queue whose oldest page is held by no other queue, with no slot bad, below its
levels and with fresh cells enough: none of the page's cells is left in the queue, its other cells and its packets are
unchanged, each brought back is a cell of its own, the page is freed to the head of the free list. PFC is brought up to date
after each. -/
def Obligations.SpilledPagesKeepQueueOrder : Prop :=
  ∀ (s : State) (x : EndId) (q : Fin 40) (key : Nat), key = 40 * x.val + q.val → s.fabricOn = true → (s.outQ key).cells.Nodup →
    (∀ p oq, p = (s.pool 1).fresh → oq = s.outQ key → s.spills (q.val / 5) = true → s.modBytes ≠ 0 → oq.head + 15 ≤ oq.cells.length →
      (∀ e ∈ oq.cells, ∃ b, e = .die b ∧ b < (s.pool 0).fresh ∧ ((s.pool 0).rd b).testBit 63 = true) →
      (s.pool 1).used < s.critLevel 1 → (s.lossless (q.val / 5) = true → (s.pool 1).used < s.bpLevel 1) →
      (s.pool 1).stopped = false → (s.pool 1).head = nil → p < s.poolCap 1 →
      ∃ w : State, exec (.spillPage x q) s = .next w.pfcAll ∧ (w.outQ key).head = oq.head ∧
        (w.outQ key).pkts.map QPkt.pkt = oq.pkts.map QPkt.pkt ∧
        (w.outQ key).cells = oq.cells.take oq.head ++ (List.range 15).map (fun i => CellAt.page p (i + 1)) ++ oq.cells.drop (oq.head + 15) ∧
        (∀ i j e, i < 15 → j < 248 → oq.contents[oq.head + i]? = some e →
          Sparse.get 0 w.mem (s.pageByte p (256 * (i + 1) + j)) = e.2.1.getD j 0) ∧
        (∀ k, (∀ o, o < 4096 → s.pageByte p o ≠ k) → Sparse.get 0 w.mem k = Sparse.get 0 s.mem k) ∧
        (w.pool 1).used = (s.pool 1).used + 1 ∧ w.cores = s.cores) ∧
    (∀ p n oq, oq = s.outQ key → oq.cells.find? CellAt.spilled = some (.page p n) → oq.firstSpilled < s.obj Obj.lim_SPILL_RETURN →
      (∀ k, k ≠ key → (s.outQ k).cells.any (fun c => c.inPage p) = false) →
      (s.pool 0).stopped = false → (s.pool 0).used < s.bpLevel 0 → s.cellsOf .returned ≤ 4081 → (s.pool 0).head = nil →
      (s.pool 0).fresh + (oq.cells.filter (fun c => c.inPage p)).length ≤ 786432 →
      (∀ b, CellAt.die b ∈ oq.cells → b < (s.pool 0).fresh) →
      p < (s.pool 1).fresh → ((s.pool 1).rd p).testBit 63 = true → refOf ((s.pool 1).rd p) = 1 →
      ∃ w : State, exec (.spillReturn x q []) s = .next w.pfcAll ∧ (w.outQ key).pkts.map QPkt.pkt = oq.pkts.map QPkt.pkt ∧
        (w.outQ key).cells.length = oq.cells.length ∧ (w.outQ key).cells.Nodup ∧
        (∀ (j : Nat) (c : CellAt), oq.cells[j]? = some c → c.inPage p = false → (w.outQ key).cells[j]? = some c) ∧
        (∀ (j : Nat) (c : CellAt), oq.cells[j]? = some c → c.inPage p = true → ∃ b, (w.outQ key).cells[j]? = some (CellAt.die b) ∧ (s.pool 0).fresh ≤ b) ∧
        (w.pool 1).head = p ∧ (w.pool 0).used = (s.pool 0).used + (oq.cells.filter (fun c => c.inPage p)).length ∧ w.cores = s.cores)

/-- On a service port that is up. A frame with a bad FCS is counted in ETH_FCS_ERR, one that R210 refuses in ETH_DISCARD, and
nothing else differs. A Renensan datagram for this port that is admitted joins the port's packets with CM set when it was set,
when its ECN is 3 or when policing finds it yellow; red loses it; the colour is counted and the buckets of its class debited by
its bytes × 1,000 (both for green, the peak bucket for yellow, none for red), and without policing neither, under the MODE of
the class's last refill. A solicitation for the port's address is answered by one advertisement from its MAC to the sender. A
PFC frame pauses each lossless class it names for its quanta of 512 bit times at the port's rate, counted, or resumes it with
quanta 0; a pause ends at its time; an XOFF that holds is sent again PFC_REFRESH slots after the last. A port pauses a class
that must pause, keeps a pause until it may resume, and with no service port up PFC changes nothing. -/
def Obligations.ServicePortsTakeFramesAndPause : Prop :=
  ∀ (s : State) (p : PortId), s.svcUp p = true →
    (∀ f : EthFrame, f.fcsOk = false → ∃ t, exec (.svcFrameRx p f) s = .next t ∧ OnlyObjs [Obj.port_ETH_FCS_ERR p] s t ∧
      Counted (Obj.port_ETH_FCS_ERR p) s t) ∧
    (∀ f : EthFrame, f.fcsOk = true → (s.frameRefused p f = true ∨ f.udp = false) →
      ∃ t, exec (.svcFrameRx p f) s = .next t ∧ OnlyObjs [Obj.port_ETH_DISCARD p] s t ∧ Counted (Obj.port_ETH_DISCARD p) s t) ∧
    (∀ (f : EthFrame) (k : Packet) (i c pre mode : Nat) (b : Int), f.fcsOk = true → s.frameRefused p f = false → f.udp = true →
      octNat 16 f.dstAddr.toNat = s.obj (Obj.port_SVC_ADDR p) → f.udpDst = 48211 → f.csumOk = true →
      f.payload.length ≤ s.obj (Obj.port_SVC_MTU p) - 48 → 32 ≤ f.payload.length →
      k = { Packet.parse f.payload with payload := f.payload.drop (if (Packet.parse f.payload).ext then 64 else 32) } →
      k.op ≠ opTime → (k.requestOk (s.svcLimit p) = true ∨ k.responseOk (s.svcLimit p) = true) →
      (k.resp = true ∨ s.peerEntry f.srcAddr ≠ none) → k.dst.toNat = s.logicalId →
      c = k.tc.toNat → i = polIdx p c → mode = (s.svc p).mode.getD c 0 → b = (f.bytes : Int) * 1000 → (s.svc p).tp.length = 8 → (s.svc p).tc.length = 8 →
      pre = (if mode = 2 ∧ f.dscp.toNat / 2 % 4 = 2 then 1
        else if mode = 2 ∧ f.dscp.toNat / 2 % 4 = 3 then 2 else 0) →
      let item := fun (cm : Bool) => (⟨{ k with cm := k.cm || cm || decide (f.ecn = 3) }, ⟨some p, f.srcAddr, f.udpSrc, f.srcMac⟩, none, 0, none⟩ : TxItem)
      let tp := (s.svc p).tp.getD c 0
      let tc := (s.svc p).tc.getD c 0
      (mode = 0 →
        exec (.svcFrameRx p f) s = .next (s.setTxq p (Sparse.get [] s.txq p ++ [item false]))) ∧
      (mode ≠ 0 → (pre = 2 ∨ tp < b) → ∃ t, exec (.svcFrameRx p f) s = .next t ∧ OnlyObjs [Obj.pol_RED i] s t ∧
        Counted (Obj.pol_RED i) s t) ∧
      (mode ≠ 0 → pre ≠ 2 → b ≤ tp → (pre = 1 ∨ tc < b) → ∃ w : State,
        exec (.svcFrameRx p f) s = .next (w.setTxq p (Sparse.get [] s.txq p ++ [item true])) ∧ Counted (Obj.pol_YELLOW i) s w ∧
        OnlyObjs [Obj.pol_YELLOW i] s { w with sw := s.sw } ∧ { w.svc p with tp := (s.svc p).tp } = s.svc p ∧
        ∀ d, d < 8 → (w.svc p).tp.getD d 0 = if d = c then tp - b else (s.svc p).tp.getD d 0) ∧
      (mode ≠ 0 → pre = 0 → b ≤ tp → b ≤ tc → ∃ w : State,
        exec (.svcFrameRx p f) s = .next (w.setTxq p (Sparse.get [] s.txq p ++ [item false])) ∧ Counted (Obj.pol_GREEN i) s w ∧
        OnlyObjs [Obj.pol_GREEN i] s { w with sw := s.sw } ∧ { w.svc p with tp := (s.svc p).tp, tc := (s.svc p).tc } = s.svc p ∧
        ∀ d, d < 8 → (w.svc p).tp.getD d 0 = (if d = c then tp - b else (s.svc p).tp.getD d 0) ∧
          (w.svc p).tc.getD d 0 = (if d = c then tc - b else (s.svc p).tc.getD d 0))) ∧
    (∀ (f : EthFrame) (target : BitVec 128), f.fcsOk = true → s.frameRefused p f = false → target ≠ 0 →
      octNat 16 target.toNat = s.obj (Obj.port_SVC_ADDR p) →
      ∃ bs, exec (.neighborSolicitationRx p f target) s = .next { s with sent := s.sent ++ [.frame p bs] } ∧
        bs.take 12 = beBytes 6 f.srcMac.toNat ++ s.octBytes (Obj.port_SVC_MAC p) 6) ∧
    ((s.svc p).paused.length = 8 →
      (∀ (vec : BitVec 8) (quanta : Vector (BitVec 16) 8), ∃ t : State, exec (.pfcFrameRx p vec quanta) s = .next t ∧
        OnlyObjs ((List.range 8).map (Obj.sw_PFC_XOFF_RX p)) s { t with sw := s.sw } ∧
        { t.svc p with paused := (s.svc p).paused } = s.svc p ∧
        ∀ c : Fin 8, if vec.toNat.testBit c.val = true ∧ s.lossless c.val = true
          then (if quanta.get c = 0 then (t.svc p).paused.getD c none = none ∧ t.obj (Obj.sw_PFC_XOFF_RX p c) = s.obj (Obj.sw_PFC_XOFF_RX p c)
            else (t.svc p).paused.getD c none =
                some (s.now + ceilDiv ((quanta.get c).toNat * 8192) (modeRate (s.obj (Obj.port_MODE p)))) ∧
              Counted (Obj.sw_PFC_XOFF_RX p c) s t)
          else (t.svc p).paused.getD c none = (s.svc p).paused.getD c none ∧
            t.obj (Obj.sw_PFC_XOFF_RX p c) = s.obj (Obj.sw_PFC_XOFF_RX p c)) ∧
      (∀ (c : ClassId) (at_ : Nat), (s.svc p).paused.getD c.val none = some at_ → at_ < 2 ^ 64 →
        ∃ t : State, exec (.pfcPauseExpiry p c) s = .next t ∧ t.now = max s.now at_ ∧ { t with ft := s.ft, sw := s.sw } = s ∧
          ∀ d, (t.svc p).paused.getD d none = if d = c.val then none else (s.svc p).paused.getD d none)) ∧
    (∀ on due, on = (List.range 8).filter (fun c => (s.svc p).xoff.getD c false) → on ≠ [] →
      due = (s.svc p).xoffAt + s.obj Obj.cls_PFC_REFRESH * 1024 → due < 2 ^ 64 →
      ∃ t : State, exec (.pfcRefresh p) s = .next t ∧ t.now = max s.now due ∧
        t.sent = s.sent ++ [.frame p (s.pfcFrame p (classMask on) (fun c => if on.contains c then s.obj Obj.cls_PFC_QUANTA else 0))] ∧
        t.svc p = { s.svc p with xoffAt := t.now } ∧ ∀ c, c < 8 → t.obj (Obj.sw_PFC_XOFF_TX p c) =
          if on.contains c then min (2 ^ objBits (Obj.sw_PFC_XOFF_TX p c) - 1) (s.obj (Obj.sw_PFC_XOFF_TX p c) + 1)
          else s.obj (Obj.sw_PFC_XOFF_TX p c)) ∧
    (∀ c, c < 8 → ((s.pfcPort p).svc p).xoff.getD c false = (if (s.svc p).xoff.getD c false then !s.mayResume p c else s.mustPause p c)) ∧
    ∀ u : State, (∀ q, u.svcUp q = false) → u.pfcAll = u

/-- TIME_PACKET_TX sends, one interval after the last, a sequenced unit with the header of R327, T_XMIT the present time and T_ORIG
and T_RECV of what was last heard, and keeps T_XMIT. TIME_PACKET_RX with a good header keeps T_XMIT and arrival; T_ORIG 0 forms
no sample; a T_ORIG of the last four with the procedure of R329 accepting counts TIME_RX and keeps theta2 and delay2; any other
counts TIME_BAD. DATUM_TIMEOUT ends the freshness; with no other fresh candidate a device of TIME_PRIORITY 255 is in HOLDOVER
without a datum, any other becomes the datum. TIME_STEP moves the counter at the next slot by half the estimate's value, counted
and recorded, entered as advisory after first alignment on a device with no training parcel; each core waiting for a slot
skipped goes on, counted in LATE_SLOT. PPS_IN edges of 100 ns or more are counted outside reset with their distance; three
seconds without one lose the source. STANDIN is applied at the next slot: a spare takes the logical id, ports of the device that
it names read LINK_STATE 4 and others leave 4. -/
def Obligations.TimePacketsMeasureElectAndStep : Prop :=
  ∀ s : State,
    (∀ (p : PortId) (due : Nat), s.timeOn = true → s.linkOpen p = true → (s.link p).replay.length < 2048 →
      due = (match (s.timePort p).sent with | t :: _ => t + s.obj Obj.time_SYNC_INTERVAL * 1024 | [] => 0) → due < 2 ^ 64 →
      ∃ (t : State) (k : Packet), exec (.timePacketTx p) s = .next t ∧ t.now = max s.now due ∧
        t.sent = s.sent ++ [.lu p (linkUnit 1 (s.link p).nextSeq (s.link p).accepted (s.link p).nak k.bytes)] ∧
        k.op = opTime ∧ k.resp = false ∧ k.tc = 7 ∧ k.hop = 0 ∧ k.route = 2 ∧ k.ext = false ∧ k.len = 64 ∧ k.arg = 1 ∧ k.dst = 0 ∧
        k.src = BitVec.ofNat 20 s.logicalId ∧ k.tag = 0 ∧ k.addr = 0 ∧ k.payload.length = 64 ∧ beAt k.payload 0 8 = t.now ∧
        beAt k.payload 8 8 = ((s.timePort p).heard.getD (0, 0)).1 % 2 ^ 64 ∧
        beAt k.payload 16 8 = ((s.timePort p).heard.getD (0, 0)).2 % 2 ^ 64 ∧
        (t.timePort p).sent = (t.now :: (s.timePort p).sent).take 4 ∧ (t.link p).nextSeq = ((s.link p).nextSeq + 1) % 4096 ∧
        (t.link p).replay = (s.link p).replay ++ [((s.link p).nextSeq, 1, padTo 248 k.bytes)] ∧ (t.link p).consumed = (s.link p).consumed) ∧
    (∀ (p : PortId) (k : Packet) (at_ orig recv xmit : BitVec 64), s.timeOn = true → s.linkOpen p = true → timeHeaderOk k = true →
      k.requestOk 4096 = true → xmit = BitVec.ofNat 64 (beAt k.payload 0 8) → orig = BitVec.ofNat 64 (beAt k.payload 8 8) →
      recv = BitVec.ofNat 64 (beAt k.payload 16 8) →
      let old := s.timePort p
      let rtt := ((at_ - orig) - (xmit - recv)).toInt
      let good := orig.toNat ∈ old.sent ∧ 0 ≤ rtt ∧
        (16 ≤ old.accepted → rtt ≤ 2 * (s.obj (Obj.port_LINK_DELAY p) : Int) + 64)
      ∃ t : State, exec (.timePacketRx p k at_) s = .next t ∧ t.now = max s.now at_.toNat ∧ t.mem = s.mem ∧ t.cores = s.cores ∧
        (t.timePort p).heard = some (xmit.toNat, at_.toNat) ∧ (t.timePort p).adv = some (advertOf k.payload) ∧
        (orig = 0 → (t.timePort p).thetas = old.thetas ∧ t.obj (Obj.port_TIME_RX p) = s.obj (Obj.port_TIME_RX p) ∧
          t.obj (Obj.port_TIME_BAD p) = s.obj (Obj.port_TIME_BAD p)) ∧
        (orig ≠ 0 → good → Counted (Obj.port_TIME_RX p) s t ∧ t.obj (Obj.port_TIME_BAD p) = s.obj (Obj.port_TIME_BAD p) ∧
          (t.timePort p).accepted = old.accepted + 1 ∧ (t.timePort p).delays = rtt :: old.delays ∧
          (t.timePort p).thetas = ((recv - orig).toInt + (xmit - at_).toInt + s.asym p) :: old.thetas) ∧
        (orig ≠ 0 → ¬ good → Counted (Obj.port_TIME_BAD p) s t ∧ t.obj (Obj.port_TIME_RX p) = s.obj (Obj.port_TIME_RX p) ∧
          (t.timePort p).thetas = old.thetas)) ∧
    (∀ (p : PortId) (u : Nat), s.timeOn = true → (s.timePort p).fresh = some u → u + s.obj Obj.time_DATUM_TIMEOUT * 1024 < 2 ^ 64 →
      Sparse.wf TimePort.reset s.time.ports = true → (∀ e ∈ s.time.ports, e.1 = p.val ∨ e.2.fresh = none) →
      ∃ t : State, exec (.datumTimeout p) s = .next t ∧ t.now = max s.now (u + s.obj Obj.time_DATUM_TIMEOUT * 1024) ∧
        t.timePort p = { s.timePort p with fresh := none } ∧ t.mem = s.mem ∧ t.cores = s.cores ∧
        (s.obj Obj.time_TIME_PRIORITY = 255 → t.obj Obj.time_TIME_STATE = 3 ∧ t.obj Obj.time_DATUM_PHYS = 0xFFFFFFFF ∧
          t.obj Obj.time_DATUM_DIST = 0xFF ∧ t.obj Obj.time_PARENT_PORT = 0xFF) ∧
        (s.obj Obj.time_TIME_PRIORITY ≠ 255 → t.obj Obj.time_TIME_STATE = 4 ∧ t.obj Obj.time_DATUM_PHYS = s.physId ∧
          t.obj Obj.time_DATUM_PRIO = s.obj Obj.time_TIME_PRIORITY ∧ t.obj Obj.time_DATUM_DIST = 0 ∧ t.obj Obj.time_PARENT_PORT = 0xFF)) ∧
    (∀ n : Int, s.stepDue = true → n = Int.tdiv (s.time.est.getD 0) 2 → (s.slot + 1) * 1024 < 2 ^ 64 →
      0 ≤ ((s.slot + 1) * 1024 : Nat) + n → ((s.slot + 1) * 1024 : Nat) + n < 2 ^ 64 → (∀ m, m < 4 → s.parMode m ≠ 2) →
      ∃ t : State, exec .timeStep s = .next t ∧ (t.now : Int) = ((s.slot + 1) * 1024 : Nat) + n ∧ Counted Obj.time_TIME_STEPS s t ∧
        t.obj Obj.time_LAST_STEP_SIZE = wrap 64 n ∧ t.mem = s.mem ∧
        t.obj Obj.ring_WRITE_SEQ = (if s.time.aligned then (s.obj Obj.ring_WRITE_SEQ + 1) % 2 ^ 32 else s.obj Obj.ring_WRITE_SEQ) ∧
        ((∀ e ∈ s.cores, ∀ T, e.2.hold ≠ .timeWait T) → t.cores = s.cores) ∧
        (Sparse.wf Core.reset s.cores = true → ∀ (c : CoreId) T, (s.core c).hold = .timeWait T → (s.slot + 1) * 1024 < T * 1024 →
          T * 1024 ≤ t.now → t.core c = { s.core c with hold := .none } ∧ Counted (Obj.core_LATE_SLOT c) s t)) ∧
    (∀ width, width < 100 ∨ s.poweredUp = false → exec (.ppsInEdge width) s = .next s) ∧
    (∀ width, 100 ≤ width → s.poweredUp = true → ∃ t : State, exec (.ppsInEdge width) s = .next t ∧ Counted Obj.time_PPS_IN_SEEN s t ∧
      t.obj Obj.time_PPS_IN_OFFSET = offsetPs (2 * fromSecond s.now) ∧
      (s.obj Obj.time_TIME_STATE ≠ 4 → OnlyObjs [Obj.time_PPS_IN_SEEN, Obj.time_PPS_IN_OFFSET] s t) ∧
      (s.timeOn = true → s.obj Obj.time_TIME_STATE = 4 → s.obj Obj.time_TIME_SOURCE = 1 → s.time.src.taken = false →
        t.obj Obj.time_SOURCE_STATE = 1 ∧ t.time.est = some (-2 * fromSecond s.now) ∧ t.time.src.step = true ∧
        t.time.src.edgeAt = s.now)) ∧
    (∀ due, due = s.time.src.edgeAt + 48000000000 → due < 2 ^ 64 → s.timeOn = true → s.obj Obj.time_TIME_STATE = 4 →
      s.obj Obj.time_TIME_SOURCE = 1 → s.obj Obj.time_SOURCE_STATE ≠ 2 → ∃ t : State, exec .ppsInLoss s = .next t ∧ t.now = max s.now due ∧
        t.obj Obj.time_SOURCE_STATE = 2 ∧ OnlyObjs [Obj.time_SOURCE_STATE] s { t with ft := s.ft }) ∧
    (s.standin ≠ s.obj Obj.topo_STANDIN → (s.slot + 1) * 1024 < 2 ^ 64 → s.fatal = false → (∀ p, p < 125 → s.linkUp p = false) →
      ∃ t : State, exec .standinApply s = .next t ∧ t.now = (s.slot + 1) * 1024 ∧ t.standin = s.obj Obj.topo_STANDIN ∧
        OnlyObjs ((List.range 125).map Obj.port_LINK_STATE) s { t with ft := s.ft, standin := s.standin } ∧
        (s.obj Obj.topo_POSITION = 32 → t.standin < 32 → t.logicalId = s.obj Obj.topo_GROUP * 32 + t.standin) ∧
        ∀ p, p < 125 → t.obj (Obj.port_LINK_STATE p) =
          if s.obj (Obj.port_ROLE p) ≠ 1 then s.obj (Obj.port_LINK_STATE p)
          else if s.obj Obj.topo_POSITION < 32 ∧ s.obj Obj.topo_POSITION = t.standin then 4
          else if s.obj (Obj.port_LINK_STATE p) = 4 then (if (s.link p).locked then 1 else 0) else s.obj (Obj.port_LINK_STATE p))

/-- On a master port, with sequence numbers below 2^16: PTP_SYNC_TX sends, at the period after the last, Sync to port 319 and
Follow_Up to port 320 of FF0E::181 under one sequence number with the clock identity of R341, the Follow_Up with the time of the
Sync in seconds of EPOCH_IN_USE and nanoseconds; PTP_ANNOUNCE_TX sends Announce with UTC_OFFSET and CLOCK_CLASS, or 7 in
HOLDOVER; a Delay_Req of the port's domain is counted and answered with its arrival under its sender and number. Fields that the
manual leaves to the standard take one free value (log 16). On the slave port: Announce from a first or better grandmaster is
followed; its Sync is kept with its arrival; the Follow_Up of that Sync, in the range of R339, gives the offset once the path is
known, and the first one taken requires a step; out of range the source is lost, and none is taken until EPOCH_TAI changes;
Delay_Req is sent under the next number and its answer gives the path; without Announce the grandmaster is forgotten and the
source lost. -/
def Obligations.ClockMessagesAreSentAndTaken : Prop :=
  ∀ (s : State) (p : PortId),
    (s.ptpMaster p = true → ∀ r, r = s.ptpRec p → r.syncSeq < 2 ^ 16 → r.annSeq < 2 ^ 16 →
      (∀ due, due = (match r.syncAt with | some t => t + ptpPeriod (s.obj (Obj.port_PTP_SYNC_LOG p)) | none => 0) → due < 2 ^ 64 →
        ∃ (t : State) (a b : Bytes), exec (.ptpSyncTx p) s = .next t ∧ t.now = max s.now due ∧
          t.sent = s.sent ++ [.datagram p ptpGroup 319 0x333300000181 0 a, .datagram p ptpGroup 320 0x333300000181 0 b] ∧
          a.length = 44 ∧ b.length = 44 ∧ byteAt a 0 = 0 ∧ byteAt b 0 = 8 ∧ beAt a 30 2 = r.syncSeq ∧ beAt b 30 2 = r.syncSeq ∧
          beAt a 20 8 = s.clockId p % 2 ^ 64 ∧ beAt b 34 6 = (s.obj Obj.time_EPOCH_IN_USE + t.now / 16000000000) % 2 ^ 48 ∧
          beAt b 40 4 = t.now % 16000000000 / 16 ∧
          t.ptpRec p = { r with syncAt := some t.now, syncSeq := (r.syncSeq + 1) % 2 ^ 16 } ∧
          { t with ft := s.ft, time := s.time, sent := s.sent } = s) ∧
      (∀ due, due = (match r.annAt with | some t => t + ptpPeriod (s.obj (Obj.port_PTP_ANNOUNCE_LOG p)) | none => 0) → due < 2 ^ 64 →
        ∃ (t : State) (a : Bytes), exec (.ptpAnnounceTx p) s = .next t ∧ t.now = max s.now due ∧
          t.sent = s.sent ++ [.datagram p ptpGroup 320 0x333300000181 0 a] ∧ a.length = 64 ∧ byteAt a 0 = 11 ∧ beAt a 30 2 = r.annSeq ∧
          beAt a 44 2 = s.advert.utc % 2 ^ 16 ∧ byteAt a 48 = (if s.obj Obj.time_TIME_STATE = 3 then 7 else s.advert.cls % 256) ∧
          beAt a 53 8 = s.advert.gm % 2 ^ 64 ∧ beAt a 61 2 = (s.advert.steps + s.advert.dist) % 2 ^ 16 ∧ t.freshCtr = s.freshCtr + 1 ∧
          t.ptpRec p = { r with annAt := some t.now, annSeq := (r.annSeq + 1) % 2 ^ 16 } ∧
          { t with ft := s.ft, time := s.time, sent := s.sent, freshCtr := s.freshCtr } = s) ∧
      (∀ (domain : BitVec 8) (sender : BitVec 80) (seq : BitVec 16), domain.toNat = s.obj (Obj.port_PTP_DOMAIN p) →
        ∃ (t : State) (a : Bytes), exec (.ptpDelayReqRx p domain sender seq) s = .next t ∧
          t.sent = s.sent ++ [.datagram p ptpGroup 320 0x333300000181 0 a] ∧ byteAt a 0 = 9 ∧ beAt a 30 2 = seq.toNat ∧
          beAt a 34 6 = (s.obj Obj.time_EPOCH_IN_USE + s.now / 16000000000) % 2 ^ 48 ∧ beAt a 40 4 = s.now % 16000000000 / 16 ∧
          beAt a 44 10 = sender.toNat ∧ Counted (Obj.port_PTP_DELAY_REQ_RX p) s t ∧
          OnlyObjs [Obj.port_PTP_DELAY_REQ_RX p] s { t with sent := s.sent })) ∧
    (∀ (domain : BitVec 8) (seq : BitVec 16) (g : PtpAnnounce), s.ptpHears p domain = true → s.time.src.gm = some g →
      let src := s.time.src
      exec (.ptpSyncRx p domain g.sender seq) s =
        .next { s with time := { s.time with src := { src with sync := some (seq.toNat, s.now) } } } ∧
      (∀ (at_ origin : Nat) (u d : Int), src.sync = some (seq.toNat, at_) → src.up = some u → d = (at_ : Int) - s.ptpUnits origin →
        (s.ptpInRange origin = true → s.sourceBarred = false → src.taken = false → ∃ t : State, exec (.ptpFollowUpRx p domain g.sender seq origin) s = .next t ∧
          t.obj Obj.time_SOURCE_STATE = 1 ∧ OnlyObjs [Obj.time_SOURCE_STATE] s { t with time := s.time } ∧ t.time.est = some (u - d) ∧
          t.time.src = { src with sync := none, down := some d, step := true, thetas := [u - d] }) ∧
        (s.ptpInRange origin = false ∨ s.sourceBarred = true →
          ∃ t : State, exec (.ptpFollowUpRx p domain g.sender seq origin) s = .next t ∧ t.obj Obj.time_SOURCE_STATE = 2 ∧
          OnlyObjs [Obj.time_SOURCE_STATE] s { t with time := s.time } ∧
          t.time = { s.time with barred := some (s.obj Obj.time_EPOCH_TAI) })) ∧
      (∀ at_ received : Nat, src.req = some (seq.toNat, at_) → exec (.ptpDelayRespRx p domain g.sender seq received) s =
        .next { s with time := { s.time with src := { src with req := none, up := some (s.ptpUnits received - (at_ : Int)) } } })) ∧
    (∀ a : PtpAnnounce, s.ptpHears p a.domain = true →
      (s.time.src.gm = none ∨ ∃ g, s.time.src.gm = some g ∧ g.sender ≠ a.sender ∧ Config.bmcaBetter g.dataset a.dataset = true) →
      ∃ t : State, exec (.ptpAnnounceRx p a) s = .next t ∧ { t with time := s.time } = s ∧
        t.time.src = { s.time.src with gm := some a, sync := none, req := none, down := none, up := none }) ∧
    (∀ (a g : PtpAnnounce), s.ptpHears p a.domain = true → s.time.src.gm = some g → g.sender = a.sender →
      ∃ t : State, exec (.ptpAnnounceRx p a) s = .next t ∧ { t with time := s.time } = s ∧ t.time.src = { s.time.src with gm := some a }) ∧
    (s.svcUp p = true → s.ptpPortState p = 9 → s.time.src.reqSeq < 2 ^ 16 →
      ∃ (t : State) (a : Bytes), exec (.ptpDelayReqTx p) s = .next t ∧ { t with time := s.time, sent := s.sent } = s ∧
        t.sent = s.sent ++ [.datagram p ptpGroup 319 0x333300000181 0 a] ∧ byteAt a 0 = 1 ∧ beAt a 30 2 = s.time.src.reqSeq ∧
        t.time.src = { s.time.src with req := some (s.time.src.reqSeq, s.now), reqSeq := (s.time.src.reqSeq + 1) % 2 ^ 16 }) ∧
    (∀ g, s.ptpSlaveOnly (s.obj Obj.time_SOURCE_PORT) = true → s.time.src.gm = some g →
      ∃ t : State, exec .announceReceiptTimeout s = .next t ∧ t.obj Obj.time_SOURCE_STATE = 2 ∧
        OnlyObjs [Obj.time_SOURCE_STATE] s { t with time := s.time } ∧
        t.time.src = { s.time.src with gm := none, sync := none, req := none, down := none, up := none })

/-- With no early coll packet held and the parcel RUNNING. A command word not yet taken is taken at the start of a slot and its
number acknowledged: START of an engine not WAITING or RUNNING loads it, clears FAULT and RUNS_DONE and makes it WAITING when
the checks pass and faults it otherwise; START of another, command 0 and a reserved one are refused and counted; STOP ends a run
and leaves other states. A WAITING engine enters RUNNING at its slot with its parameters read. A stage of one COPY from a MEM
input, not written since the stage began, to a MEM output of the same shape copies the records' bytes, and as the last stage
leaves the run waiting for its flags; a stage whose packets are answered gives way to the next. A run ends with status, time and
RUNS_DONE written and counted; without NOTIFY the next run awaits the next slot, or the engine ends after RUNS of them. A run
past RUN_TIMEOUT, or a packet past REMOTE_TIMEOUT, faults the engine with the fields of R266 and R288 and discards what it
holds. The deadline of a RECV input excludes exactly the slots awaited that have not landed whole. -/
def Obligations.StreamEnginesStartRunAndStop : Prop :=
  ∀ (s : State) (j : EngineId) (n : Nat), s.steParcel j = some n → s.early = [] →
    let v := s.obj (Obj.ste_STE_STATE j)
    let faulted := fun (w : State) (code at_ : Nat) => w.now = max s.now at_ ∧ w.obj (Obj.ste_STE_STATE j) = 4 ∧
      w.stePeek j 0x64 1 = 4 ∧ w.stePeek j 0x67 1 = code ∧ w.stePeek j 0x6C 2 = 0xFFFF ∧ w.stePeek j 0x6E 1 = 0xFF ∧
      w.obj (Obj.ste_FAULT_CODE j) = (if s.obj (Obj.ste_FAULT_CODE j) = 0 then code else s.obj (Obj.ste_FAULT_CODE j)) ∧
      Counted Obj.stetot_STE_FAULTS_TOTAL s w ∧ w.ste j = { Ste.reset with nextTag := (s.ste j).nextTag } ∧ w.cores = s.cores
    (∀ a cmd, a = ceilDiv s.now 1024 * 1024 → a < 2 ^ 64 → cmd = s.stePeek j 0 4 → s.parState n = 3 → cmd / 256 ≠ s.stePeek j 0x60 4 →
      let u := (s.advanceTo a).stePoke j 0x60 4 (cmd / 256)
      (cmd % 256 = 1 → v ≠ 1 → v ≠ 2 →
        let w := ((u.setSte j (u.steLoad j)).stePoke j 0x67 1 0).stePoke j 0x68 4 0
        (w.steChecks j (u.steLoad j) = none → ∃ t, exec (.steStart j) s = .next t ∧ t.now = a ∧ t.obj (Obj.ste_STE_STATE j) = 1 ∧
          OnlyObjs [Obj.ste_STE_STATE j] s { t with ft := s.ft, mem := s.mem, stes := s.stes } ∧ t.stePeek j 0x60 4 = cmd / 256 ∧
          t.stePeek j 0x64 1 = 1 ∧ t.stePeek j 0x67 1 = 0 ∧ t.stePeek j 0x68 4 = 0 ∧ (t.ste j).runs = s.stePeek j 4 4 ∧
          (t.ste j).runTimeout = s.stePeek j 0x58 4 ∧ (t.ste j).out = [] ∧ (t.ste j).runSlot =
            (if s.stePeek j 8 8 < a / 1024 ∨ s.stePeek j 8 8 = 0 then a / 1024 + 1 else s.stePeek j 8 8) ∧
          ∀ k, (∀ o, 0x60 ≤ o → o < 0x6C → k ≠ steAddr j o) → Sparse.get 0 t.mem k = Sparse.get 0 s.mem k) ∧
        (∀ code pc x, w.steChecks j (u.steLoad j) = some (code, pc, x) → exec (.steStart j) s = .next (w.steFault j code pc x).landHeld)) ∧
      (cmd % 256 ≠ 2 → (cmd % 256 = 1 → v = 1 ∨ v = 2) → ∃ t, exec (.steStart j) s = .next t ∧ Counted (Obj.ste_CMD_REFUSED j) s t ∧
        t.stePeek j 0x60 4 = cmd / 256 ∧ t.stePeek j 0x78 4 = min (2 ^ 32 - 1) (s.stePeek j 0x78 4 + 1) ∧
        OnlyObjs [Obj.ste_CMD_REFUSED j] s { t with ft := s.ft, mem := s.mem }) ∧
      (cmd % 256 = 2 → (v = 1 ∨ v = 2) → ∃ t, exec (.steStop j) s = .next t ∧ t.now = a ∧ t.obj (Obj.ste_STE_STATE j) = 3 ∧
        t.stePeek j 0x64 1 = 3 ∧ t.stePeek j 0x60 4 = cmd / 256 ∧ t.ste j = { Ste.reset with nextTag := (s.ste j).nextTag } ∧
        OnlyObjs [Obj.ste_STE_STATE j, Obj.ste_BUSY j] s { t with ft := s.ft, mem := s.mem, stes := s.stes }) ∧
      (cmd % 256 = 2 → v ≠ 1 → v ≠ 2 → exec (.steStop j) s = .next u)) ∧
    (∀ due, due = (s.ste j).runSlot * 1024 → due < 2 ^ 64 → s.parState n = 3 → v = 1 → ∃ t, exec (.steRunBegin j) s = .next t ∧
      t.now = max s.now due ∧ t.obj (Obj.ste_STE_STATE j) = 2 ∧ t.stePeek j 0x64 1 = 2 ∧
      OnlyObjs [Obj.ste_STE_STATE j] s { t with ft := s.ft, mem := s.mem, stes := s.stes } ∧ (t.ste j).at_ = .stage ∧ (t.ste j).stage = 0 ∧
      (t.ste j).runSlot = t.now / 1024 ∧ (t.ste j).params = (List.range 8).map (fun i => s.stePeek j (0x10 + 8 * i) 8) ∧
      (t.ste j).prog = (s.ste j).prog ∧ (t.ste j).run = (s.ste j).run) ∧
    (∀ (e : Ste) (i fin : StIns), e = s.ste j → v = 2 → e.at_ = .stage → e.stage = 0 → e.code = [i, fin] → i.opc = 0x10 → i.d = 0x10 →
      i.a = 0 → fin.opc = 2 → (e.inb 0).kind = 1 → (e.outb 0).kind = 1 → (e.outb 0).nrec = (e.inb 0).nrec →
      (e.outb 0).lay = (e.inb 0).lay → (e.inb 0).base + (e.inb 0).nrec * (e.inb 0).lay.rs ≤ 2 ^ 20 →
      (e.outb 0).base + (e.inb 0).nrec * (e.inb 0).lay.rs ≤ 2 ^ 20 → e.out = [] → e.flagDevs = [] → e.outCount.length = 4 → s.bad = [] → s.steImage j e = e.image →
      ∃ t, exec (.steStageEnd j) s = .next t ∧ (t.ste j).at_ = .flags ∧ (t.ste j).outCount.getD 0 0 = (e.inb 0).nrec ∧
        (∀ b, b < (e.inb 0).nrec * (e.inb 0).lay.rs →
          t.readByte (steAddr j ((e.outb 0).base + b)) = s.readByte (steAddr j ((e.inb 0).base + b))) ∧
        (∀ k, (∀ b, b < (e.inb 0).nrec * (e.inb 0).lay.rs → k ≠ steAddr j ((e.outb 0).base + b)) →
          Sparse.get 0 t.mem k = Sparse.get 0 s.mem k) ∧
        OnlyObjs [Obj.ste_RECORDS_IN j, Obj.ste_RECORDS_OUT j] s { t with mem := s.mem, stes := s.stes }) ∧
    (v = 2 → (s.ste j).at_ = .sent → (s.ste j).out = [] →
      (s.ste j).stage < ((s.ste j).code.filter (fun i => decide (i.opc = 1))).length → ∃ t, exec (.steStageEnd j) s = .next t ∧
        { t with stes := s.stes } = s ∧ t.ste j = { s.ste j with stage := (s.ste j).stage + 1, at_ := .stage, image := (t.ste j).image } ∧
        (t.ste j).image = t.steImage j (t.ste j)) ∧
    (∀ (e : Ste) (done : Nat), e = s.ste j → v = 2 → e.at_ = .flags → e.out = [] → done = (s.stePeek j 0x68 4 + 1) % 2 ^ 32 →
      ∃ t, exec (.steRunEnd j) s = .next t ∧ t.stePeek j 0x68 4 = done ∧ t.stePeek j 0x70 8 = s.now ∧
        t.stePeek j 0x65 1 = e.status % 256 ∧ Counted (Obj.ste_RUNS_TOTAL j) s t ∧ Counted Obj.stetot_STE_RUNS_TOTAL s t ∧
        (∀ q, q < 4 → t.stePeek j (0xC0 + 4 * q) 4 = e.outCount.getD q 0 % 2 ^ 32) ∧
        (e.notify % 2 = 1 → (t.ste j).at_ = .notify ∧ (t.ste j).out.length = 1 ∧ t.obj (Obj.ste_STE_STATE j) = 2) ∧
        (e.notify % 2 = 0 → e.runs ≠ 0 → e.runs ≤ done → t.obj (Obj.ste_STE_STATE j) = 3 ∧
          t.ste j = { Ste.reset with nextTag := e.nextTag }) ∧
        (e.notify % 2 = 0 → (e.runs = 0 ∨ done < e.runs) → t.obj (Obj.ste_STE_STATE j) = 2 ∧ (t.ste j).at_ = .between ∧
          (t.ste j).run = e.run + 1 ∧ (t.ste j).runSlot = s.slot + 1)) ∧
    (∀ due, due = ((s.ste j).runSlot + (s.ste j).runTimeout) * 1024 → due < 2 ^ 64 → v = 2 → (s.ste j).at_ ≠ .between →
      (s.ste j).at_ ≠ .notify → ∃ w : State, exec (.steExpired j) s = .next (w.raiseParcel n (0x0200 + steExpired) j 0 0) ∧
        faulted w steExpired due) ∧
    (∀ t0 due, oldest (s.ste j).out = some t0 → due = t0 + s.obj (Obj.partmo_REMOTE_TIMEOUT n) * 1024 → due < 2 ^ 64 →
      ∃ w : State, exec (.steRemote j) s = .next (w.raiseParcel n (0x0200 + steRemote) j 0 0) ∧ faulted w steRemote due) ∧
    (∀ (e : Ste) (q : Fin 8) (due par : Nat), e = s.ste j → v = 2 → e.at_ ≠ .between → (e.inb q).kind = 2 → (e.inb q).deadline ≠ 0 →
      due = (e.runSlot + (e.inb q).deadline) * 1024 → due < 2 ^ 64 → par = e.run % 2 → ∃ t, exec (.steRecvDeadline j q) s = .next t ∧
        t.now = max s.now due ∧ { t with ft := s.ft, stes := s.stes } = s ∧
        ∀ sl, ((t.ste j).lost q par).testBit sl = ((e.lost q par).testBit sl ||
          (decide (sl < (e.inb q).nslot) && (e.inb q).slots.testBit sl && !e.slotDone q par sl)))

/-- MEM_REFRESH and BULK_RETUNE, the function not OFF and some request delayed: the count of the controller grows by the requests
delayed, each parcel's delay by the delays of its requests, saturating, and nothing else differs. SCRUB_PASS with no unit in
error: without an error met only its own count grows; a corrected error is counted at the controller and in the total; an
uncorrectable one of no parcel's address stays in its unit, is counted at both and noted as the first. Outside reset
MODULE_TEMP_READ keeps sixteen readings; OPTICS_CYCLE keeps what each present port of its bus answered and nothing of the
others. RAMP_COOLING brings Fabric Time to the start of the first slot from the present on whose place in the SPREAD is the
core's phase; each engine of the core with no started operation is cold from then on, each with one keeps its warmth. -/
def Obligations.MemoryUpkeepAndCoolingAreCounted : Prop :=
  ∀ s : State,
    (∀ (x : Instr) (u : Nat) (delays : List (Option ParcelId × Nat)),
      ((∃ m, x = .memRefresh m delays ∧ u = ctlNum m) ∨ (∃ m, x = .bulkRetune m delays ∧ u = 12 + m.val)) →
      s.fnState (if u < 12 then 6 else 5) ≠ 0 → delays ≠ [] →
      let k := objKey (ctlIndex u) 0x05
      let o := fun n : ParcelId => if u < 12 then Obj.parmem_NEAR_REFRESH n else Obj.parmem_BULK_REFRESH n
      let d := fun n : ParcelId => sumN ((delays.filter (fun e => decide (e.1 = some n))).map Prod.snd)
      ∃ t, exec x s = .next t ∧ OnlyObjs (k :: (List.finRange 4).map o) s t ∧
        t.obj k = min (2 ^ objBits k - 1) (s.obj k + delays.length) ∧
        ∀ n : ParcelId, t.obj (o n) = if d n = 0 then s.obj (o n) else min (2 ^ objBits (o n) - 1) (s.obj (o n) + d n)) ∧
    (∀ (m : Controller) (u : Nat), u = ctlNum m → s.fnState (ctlFn u) ≠ 0 → s.bad = [] →
      (∃ t, exec (.scrubPass m []) s = .next t ∧ OnlyObjs [objKey (ctlIndex u) 0x04] s t ∧ Counted (objKey (ctlIndex u) 0x04) s t) ∧
      (∀ (e : MemErr) (k : Nat), k = e.addr.toNat → isWindow k = false → inTier k = true → ctlOf k = u →
        ∃ t, exec (.scrubPass m [e]) s = .next t ∧ Counted (objKey (ctlIndex u) 0x04) s t ∧ t.mem = s.mem ∧ t.cores = s.cores ∧
          (e.corrected = true → t.bad = [] ∧ Counted (objKey (ctlIndex u) 0x01) s t ∧ Counted Obj.mem_CORR_TOTAL s t ∧
            Sparse.get 0 t.env.corr u = Sparse.get 0 s.env.corr u + 1) ∧
          (e.corrected = false → s.ownerOf (unitOf k) = none → t.bad = [(unitOf k, true)] ∧ Counted (objKey (ctlIndex u) 0x02) s t ∧
            Counted Obj.mem_UNCORR_TOTAL s t ∧ t.obj (objKey (ctlIndex u) 0x03) =
              if s.obj (objKey (ctlIndex u) 0x03) = 2 ^ 64 - 1 then addrOff (unitOf k) else s.obj (objKey (ctlIndex u) 0x03)))) ∧
    (s.poweredUp = true → ∀ temps : Vector Int 16, ∃ t, exec (.moduleTempRead temps) s = .next t ∧ { t with env := s.env } = s ∧
      { t.env with modTemp := s.env.modTemp } = s.env ∧ ∀ m : Fin 16, Sparse.get 0 t.env.modTemp m = temps.get m) ∧
    (s.poweredUp = true → ∀ (b : Fin 8) (rs : List OpticReading), ∃ t, exec (.opticsCycle b rs) s = .next t ∧ { t with env := s.env } = s ∧
      { t.env with optics := s.env.optics } = s.env ∧ ∀ p, Sparse.get none t.env.optics p =
        if 18 * b.val ≤ p ∧ p < 18 * b.val + 18 then rs.find? (fun r => decide (r.port.val = p) && r.present) else Sparse.get none s.env.optics p) ∧
    (∀ (c : CoreId) (d : Nat), d = s.phaseSlot c ((s.now + 1023) / 1024) → d * 1024 < 2 ^ 64 →
      ∃ t, exec (.rampCooling c) s = .next t ∧ OnlyCore c [] s { t with ft := s.ft } ∧ t.now = max s.now (d * 1024) ∧
        d % s.spread = c.val % s.spread ∧ (s.now + 1023) / 1024 ≤ d ∧ d < (s.now + 1023) / 1024 + s.spread ∧
        { t.core c with warm := (s.core c).warm } = s.core c ∧
        ∀ q, (t.core c).isWarm q = ((s.core c).isWarm q && (s.core c).running q))

/-- LEVEL_RUN_START brings Fabric Time to the next due slot and a run is on, as LEVEL_NOW starts one at once. Its end, in seven
categories: droop, timing and temperature as measured, the ECC rate of the worst controller within one of its exact value, each
in MARGIN with its class of R374, its trend against nine runs, and the advice of R375; the run is counted. (A smallest value
over no lane and the rate's rounding are free values, log 34.) THERM_DECISION at its point raises the level by 1 up to 5 when
hot, lowers it by 1 down to 0 when cool and else keeps it, a change counted. THERM_CRIT at a limit moves the die to level 5,
counted and entered once until readings are below; at 1,150, or 100 ms later at level 5, the device faults and its regulators
are off, as it faults when VIN12 leaves its range with POWER RUNNING. A current beyond 400 A halves the clocks once, counted,
until they are restored. A device held in reset sees none of these. -/
def Obligations.LevelRunsAndLimitsAct : Prop :=
  ∀ s : State,
    (∀ step base due, step = s.obj Obj.level_LEVEL_INTERVAL * 15625000 * 1024 → 0 < step → base = ceilDiv s.now step * step →
      due = (if s.env.levelSched = some base then base + step else base) → due < 2 ^ 64 → s.poweredUp = true → ∃ t, exec .levelRunStart s = .next t ∧ t.now = due ∧
        { t with ft := s.ft, env := s.env } = s ∧ t.env = { s.env with levelOn := true, levelSched := some due }) ∧
    (∀ role, s.mgmtUp = true → role ≠ .read → exec (.levelNow role) s = .next { s with env := { s.env with levelOn := true } }) ∧
    (∀ m : LevelMeasure, s.env.levelOn = true → ∃ (t : State) (v : List Int), exec (.levelRunEnd m) s = .next t ∧ v.length = 7 ∧
      v.getD 0 0 = m.droop ∧ v.getD 1 0 = m.timing ∧ v.getD 6 0 = m.temperature ∧
      (∀ w units, w = maxN (s.env.corr.map Prod.snd) → units = s.now - s.env.levelEnd → 0 < units →
        ((w * 57600000000000 / units : Nat) : Int) ≤ v.getD 5 0 ∧ v.getD 5 0 ≤ ((w * 57600000000000 / units + 1 : Nat) : Int) ∧
        (w * 57600000000000 % units = 0 → v.getD 5 0 = ((w * 57600000000000 / units : Nat) : Int))) ∧
      t.env = { s.env with levelOn := false, levelEnd := s.now, corr := [],
                           hist := ((v, (List.range 7).map (fun i => levelClass i (v.getD i 0))) :: s.env.hist).take 9 } ∧
      (∀ i, i < 7 → t.obj (Obj.level_MARGIN i) = wrap 32 (v.getD i 0) ∧ t.obj (Obj.level_TREND i) = wrap 32 ((trendsOf t.env.hist).getD i 0) ∧
        t.obj Obj.level_MARGIN_CLASS / 4 ^ i % 4 = levelClass i (v.getD i 0)) ∧
      Counted Obj.level_LEVEL_RUNS s t ∧ t.obj Obj.level_LEVEL_LAST = s.now ∧ t.obj Obj.level_RETIRE_ADVICE = (retireAdvice t.env.hist).1 ∧
      t.obj Obj.level_RETIRE_CAUSE = (retireAdvice t.env.hist).2 ∧ t.mem = s.mem ∧ t.cores = s.cores ∧ t.ft = s.ft ∧ t.corrSeen = []) ∧
    (∀ (k : Fin 6) (j lo hi hot stack : Int) (hyst v new due : Nat), hot = s.objI16 Obj.pow_THERM_HOT → stack = s.objI16 Obj.pow_STACK_HOT →
      hyst = s.obj Obj.pow_THERM_HYST → v = s.obj (Obj.pow_CLOCK_LEVEL k) →
      new = (if hot ≤ j ∨ stack ≤ lo ∨ stack ≤ hi then min 5 (v + 1)
        else if j + hyst ≤ hot ∧ lo + hyst ≤ stack ∧ hi + hyst ≤ stack then v - 1 else v) →
      due = (if s.thermTrains k then s.now else ceilDiv s.now (s.obj Obj.pow_THERM_EPOCH * 1024) * (s.obj Obj.pow_THERM_EPOCH * 1024)) →
      due < 2 ^ 64 → s.poweredUp = true → (s.thermTrains k = true → s.env.due.testBit k = true) →
      ∃ t, exec (.thermDecision k j lo hi) s = .next t ∧ t.now = max s.now due ∧ t.obj (Obj.pow_CLOCK_LEVEL k) = new ∧
        OnlyObjs [Obj.pow_CLOCK_LEVEL k, Obj.pow_LEVEL_CHANGES k] s { t with ft := s.ft, env := s.env } ∧
        t.obj (Obj.pow_LEVEL_CHANGES k) = (if new = v then s.obj (Obj.pow_LEVEL_CHANGES k)
          else min (2 ^ objBits (Obj.pow_LEVEL_CHANGES k) - 1) (s.obj (Obj.pow_LEVEL_CHANGES k) + 1)) ∧
        (s.thermTrains k = true → t.env.due.testBit k = false)) ∧
    (s.poweredUp = true → ∀ (k : Fin 6) (j lo hi : Int),
      (1050 ≤ j ∨ 950 ≤ lo ∨ 950 ≤ hi → ∃ t, exec (.thermCrit k j lo hi) s = .next t ∧ t.obj (Obj.pow_CLOCK_LEVEL k) = 5 ∧
        t.mem = s.mem ∧ t.cores = s.cores ∧
        (Sparse.get none s.env.crit k = none → Sparse.get none t.env.crit k = some s.now ∧ Counted Obj.pow_CRIT_EVENTS s t ∧
          t.obj Obj.ring_WRITE_SEQ = (s.obj Obj.ring_WRITE_SEQ + 1) % 2 ^ 32) ∧
        (Sparse.get none s.env.crit k ≠ none → OnlyObjs [Obj.pow_CLOCK_LEVEL k, Obj.pow_LEVEL_CHANGES k] s t)) ∧
      (j < 1050 → lo < 950 → hi < 950 → ∃ t, exec (.thermCrit k j lo hi) s = .next t ∧ { t with env := s.env } = s ∧
        Sparse.get none t.env.crit k = none)) ∧
    (s.poweredUp = true → ∀ (x : Instr), (∃ k j, x = .thermShutdown k j ∧ (1150 ≤ j ∨ ∃ t0, Sparse.get none s.env.crit k.val = some t0 ∧
        s.obj (Obj.pow_CLOCK_LEVEL k) = 5)) ∨ (x = .supplyOut ∧ s.fnState 2 = 3) →
      ∃ t, exec x s = .next t ∧ t.fatal = true ∧ t.obj Obj.dev_DEVICE_STATE = 2 ∧ (x ≠ .supplyOut → t.power.regOn = false)) ∧
    (∀ a, 400000 < a → s.env.slow = false → s.poweredUp = true → ∃ t, exec (.overcurrent a) s = .next t ∧ t.env = { s.env with slow := true } ∧
      Counted Obj.pow_OVERCURRENT_EVENTS s t ∧ t.obj Obj.ring_WRITE_SEQ = (s.obj Obj.ring_WRITE_SEQ + 1) % 2 ^ 32 ∧
      t.mem = s.mem ∧ t.cores = s.cores) ∧
    (s.poweredUp = false → ∀ (x : Instr), (x = .levelRunStart ∨ (∃ k j lo hi, x = .thermDecision k j lo hi ∨ x = .thermCrit k j lo hi) ∨
      (∃ k j, x = .thermShutdown k j) ∨ (∃ a, x = .overcurrent a) ∨ (∃ temps, x = .moduleTempRead temps)) → exec x s = .next s) ∧
    exec .overcurrentRestore s = .next { s with env := { s.env with slow := false } }

/-- Loss of a valid supply, RESET_N low for 1 us with both supplies valid, and a watchdog of running firmware reset the device with
their RESET_CAUSE, and the first two hold it in reset; a shorter pulse and the loss of a supply already lost change nothing. A
supply that becomes valid, and RESET_N that rises, set the time of stage 1 one millisecond on. Each stage that may begin sets
BOOT_STAGE: stage 1, at its time and with an undamaged store, counts the boot and extends M0, and is done with the version and
M1 of the image of BOOT_SLOT when that verifies; stage 2 moves MGMT and SECURITY from OFF to INIT and, without a configuration
in the directory, reads CONFIG_DIGEST 0 and extends M2 by zeros; stage 3 moves POWER; stage 4, with POWER RUNNING, TIME, FABRIC,
BULK and NEAR; stage 5 notes the Xaisk version, 0 when no image verifies; stage 6 moves the four parcels. -/
def Obligations.ResetsAndBootStagesFollowTheirOrder : Prop :=
  ∀ s : State,
    (∀ r, s.railValid r = true → ∃ t, exec (.supplyLoss r) s = .next t ∧ Restarted 0 s t ∧ t.railValid r = false) ∧
    (∀ r, s.railValid r = false → exec (.supplyLoss r) s = .next s ∧ ∃ t, exec (.supplyValid r) s = .next t ∧
      { t with power := s.power } = s ∧ t.railValid r = true ∧ t.power.bootAt = s.now + 16000000 ∧ t.power.resetN = s.power.resetN) ∧
    (∀ n, n < 1000 → exec (.resetNLow n) s = .next s) ∧
    (∀ n, 1000 ≤ n → s.power.resetN = true → s.power.vaux33 = true → s.power.vio18 = true →
      ∃ t, exec (.resetNLow n) s = .next t ∧ Restarted 1 s t ∧ t.power.resetN = false) ∧
    (s.power.resetN = false → ∃ t, exec .resetNRise s = .next t ∧ { t with power := s.power } = s ∧
      t.power = { s.power with resetN := true, bootAt := s.now + 16000000 }) ∧
    (s.poweredUp = true → 1 ≤ s.sec.stageDone → ∃ t, exec .watchdog s = .next t ∧ Restarted 3 s t) ∧
    (s.mayEnter 1 = true → s.sealed.damaged = 0 → s.power.bootAt < 2 ^ 64 → ∃ t, exec .bootStage1 s = .next t ∧
      t.obj Obj.dev_BOOT_STAGE = 1 ∧ t.now = max s.now s.power.bootAt ∧
      t.sealed = { s.sealed with bootCount := (s.sealed.bootCount + 1) % 2 ^ 32 } ∧
      t.measure 0 = sm3 (s.measure 0 ++ sm3 s.sealedPublic) ∧ t.mem = s.mem ∧ t.cores = s.cores ∧
      (∀ i, s.imageCheck 1 (s.bootSlot 1) = 0 → s.imageOf 1 (s.bootSlot 1) = some i → t.sec.stageDone = 1 ∧
        t.obj Obj.id_FIRMWARE_VERSION = i.version ∧ t.measure 1 = sm3 (s.measure 1 ++ sm3 i.msg) ∧
        Sparse.get none t.sec.running 1 = some (s.bootSlot 1, i.svn)) ∧
      (s.imageCheck 1 (s.bootSlot 1) ≠ 0 → s.imageCheck 1 (1 - s.bootSlot 1) ≠ 0 → t.sec.stageDone = 0)) ∧
    (s.mayEnter 2 = true → s.dirEntry 3 0 = none → s.dirEntry 3 1 = none → ∃ t, exec .bootStage2 s = .next t ∧
      t.obj Obj.dev_BOOT_STAGE = 2 ∧ t.sec.stageDone = 2 ∧ t.obj Obj.id_CONFIG_DIGEST = 0 ∧
      t.measure 2 = sm3 (s.measure 2 ++ List.replicate 32 0) ∧ t.obj Obj.mgmt_MGMT_MAC = leNat s.sealed.mac ∧
      (∀ f, f < 2 → s.fnState f = 0 → t.fnState f = 1) ∧ t.mem = s.mem ∧ t.cores = s.cores) ∧
    (s.mayEnter 3 = true → ∃ t, exec .bootStage3 s = .next t ∧ t.obj Obj.dev_BOOT_STAGE = 3 ∧ t.sec.stageDone = 3 ∧
      (s.fnState 2 = 0 → t.fnState 2 = 1) ∧ t.mem = s.mem ∧ t.cores = s.cores) ∧
    (s.mayEnter 4 = true → s.fnState 2 = 3 → ∃ t, exec .bootStage4 s = .next t ∧ t.obj Obj.dev_BOOT_STAGE = 4 ∧ t.sec.stageDone = 4 ∧
      (∀ f, 3 ≤ f → f ≤ 6 → s.fnState f = 0 → t.fnState f = 1) ∧ t.mem = s.mem ∧ t.cores = s.cores) ∧
    (s.mayEnter 5 = true → ∃ t, exec .bootStage5 s = .next t ∧ t.obj Obj.dev_BOOT_STAGE = 5 ∧ t.sec.stageDone = 5 ∧
      (∀ i, s.imageCheck 2 (s.bootSlot 2) = 0 → s.imageOf 2 (s.bootSlot 2) = some i → t.obj Obj.prog_XAISK_VERSION = i.version ∧
        t.measure 3 = sm3 (s.measure 3 ++ sm3 i.bytes)) ∧
      (s.imageCheck 2 (s.bootSlot 2) ≠ 0 → s.imageCheck 2 (1 - s.bootSlot 2) ≠ 0 → t.obj Obj.prog_XAISK_VERSION = 0) ∧
      t.mem = s.mem ∧ t.cores = s.cores) ∧
    (s.mayEnter 6 = true → ∃ t, exec .bootStage6 s = .next t ∧ t.obj Obj.dev_BOOT_STAGE = 6 ∧ t.sec.stageDone = 6 ∧
      (∀ n, n < 4 → s.parState n = 0 → t.parState n = 1) ∧ t.mem = s.mem ∧ t.cores = s.cores)

/-- With MGMT up and a role that may operate: an accepted START moves the function to INIT, marked as begun by START, a parcel's
held while a clear is in progress; STOP moves a RUNNING function to STOPPING and marks an INIT to end; REINIT moves it to INIT;
each that its check refuses changes nothing. AUTO_START of a READY function whose START would be accepted does the same as
START. The end of INIT work: READY, or FAULT when it fails; after a START, RUNNING with START_RESULT 0, or STOPPED when it fails
(its result is a free value, log 35); STOPPED with START_RESULT 0 when STOP ended it; a held START does not end. For FABRIC
success needs a verified PHY image. A parcel whose container fails a check is STOPPED with the code in START_RESULT, and one
that passes is RUNNING with the container's digest. The end of a stop leaves STOPPED. -/
def Obligations.FunctionsMoveThroughTheirStates : Prop :=
  ∀ (s : State) (f : Function) (n : Nat), n = fnNum f →
    (∀ role, s.mgmtUp = true → role ≠ .read →
      (s.startCheck n = 0 → ∃ t, exec (.functionStart role f) s = .next t ∧ t.fnState n = 1 ∧ t.obj (Obj.fn_LAST_CHANGE n) = s.now ∧
        t.sec.starting.testBit n = true ∧ t.sec.stopping.testBit n = false ∧ t.mem = s.mem ∧ t.cores = s.cores ∧
        (∀ m, n = 8 + m → (t.parcel m).heldStart = s.clearing m)) ∧
      (s.startCheck n ≠ 0 → exec (.functionStart role f) s = .next s) ∧
      (s.stopCheck n = 0 → s.fnState n = 3 → ∃ t, exec (.functionStop role f) s = .next t ∧ t.fnState n = 4 ∧
        t.obj (Obj.fn_LAST_CHANGE n) = s.now ∧ (n < 8 → t.mem = s.mem ∧ t.cores = s.cores)) ∧
      (s.stopCheck n = 0 → s.fnState n = 1 → ∃ t, exec (.functionStop role f) s = .next t ∧ { t with sec := s.sec } = s ∧
        t.sec.stopping.testBit n = true) ∧
      (s.stopCheck n ≠ 0 → exec (.functionStop role f) s = .next s) ∧
      (s.reinitCheck n = 0 → ∃ t, exec (.functionReinit role f) s = .next t ∧ t.fnState n = 1 ∧ t.sec.starting.testBit n = false ∧
        t.mem = s.mem ∧ t.cores = s.cores) ∧
      (s.reinitCheck n ≠ 0 → exec (.functionReinit role f) s = .next s)) ∧
    (s.obj (Obj.fn_AUTO_START n) = 1 → s.fnState n = 2 → s.startCheck n = 0 → ∃ t, exec (.autoStart f) s = .next t ∧ t.fnState n = 1 ∧
      t.sec.starting.testBit n = true ∧ t.mem = s.mem) ∧
    (∀ ok, s.fnState n = 1 → (∀ m, n = 8 + m → (s.parcel m).heldStart = false) →
      (s.sec.stopping.testBit n = true → ∃ t, exec (.functionInitDone f ok) s = .next t ∧ t.fnState n = 5 ∧
        t.obj (Obj.fn_START_RESULT n) = 0 ∧ t.mem = s.mem ∧ t.cores = s.cores) ∧
      (s.sec.stopping.testBit n = false → s.sec.starting.testBit n = false → n ≠ 2 → n ≠ 4 → n ≠ 5 →
        ∃ t, exec (.functionInitDone f ok) s = .next t ∧ t.fnState n = (if ok then 2 else 6) ∧ t.mem = s.mem ∧ t.cores = s.cores) ∧
      (s.sec.stopping.testBit n = false → s.sec.starting.testBit n = true → n = 0 ∨ n = 1 ∨ n = 3 ∨ n = 6 →
        ∃ t, exec (.functionInitDone f ok) s = .next t ∧ t.fnState n = (if ok then 3 else 5) ∧ t.mem = s.mem ∧
          (ok = true → t.obj (Obj.fn_START_RESULT n) = 0) ∧ (ok = false → t.freshCtr = s.freshCtr + 1)) ∧
      (s.sec.stopping.testBit n = false → s.sec.starting.testBit n = true → n = 4 →
        ∃ t, exec (.functionInitDone f ok) s = .next t ∧ t.fnState n = (if ok && s.phyOk then 3 else 5) ∧ t.mem = s.mem ∧ t.cores = s.cores) ∧
      (∀ m, n = 8 + m → s.sec.stopping.testBit n = false → s.sec.starting.testBit n = true → s.contBad m = none →
        ∃ t, exec (.functionInitDone f ok) s = .next t ∧
          if s.contCheck m = 0 then
            t.parState m = 3 ∧ t.obj (Obj.fn_START_RESULT n) = 0 ∧
              t.obj (Obj.pardig_PROGRAM_DIGEST m) = leNat (s.contDigest m) ∧ (t.parcel m).contLen = s.contTotal m
          else
            t.parState m = 5 ∧ t.obj (Obj.fn_START_RESULT n) = 0x0800 + s.contCheck m ∧ t.mem = s.mem ∧ t.cores = s.cores)) ∧
    ((∀ m, n = 8 + m → (s.parcel m).heldStart = true) → 8 ≤ n → ∀ ok, exec (.functionInitDone f ok) s = .next s) ∧
    (s.fnState n = 4 → ∃ t, exec (.functionStopDone f) s = .next t ∧ t.fnState n = 5 ∧ (n < 8 → t.mem = s.mem))

/-- With MGMT up. A write of a writable object with its type's length, not run-locked, in range and permitted to the role sets its
value, and below index 0x1300 nothing else; one of an object that does not exist or is read-only, of another length, run-locked,
out of range or not permitted changes nothing, and without MGMT none does. From a role that may operate: ROLLBACK of a RUNNING
training parcel whose job is READY, IN_STEP or PARKED halts its cores, releases its contexts and makes JOB_STATE 3; RECLAIM
notes its slot, the next for 0; JOB_RESET of a STOPPED parcel clears the digests, PARK_STATE and JOB_STATE, and the 4,096 bytes
of the record of a training parcel with a bulk region; WATCH_CLEAR restores the five first-over objects. DEVICE_RESET, from
SECURITY with no parcel active and no erase, resets the device with cause 2; else it is refused. -/
def Obligations.JobAndObjectCommandsActOrAreRefused : Prop :=
  ∀ s : State,
    (∀ (role : Role) (idx : BitVec 16) (sub : BitVec 8) (bs : Bytes) (r : ObjRow) (k v : Nat), s.mgmtUp = true →
      objRow idx.toNat sub.toNat = some r → k = objKey idx.toNat sub.toNat → v = wireNat r.ty bs → mayWrite role idx.toNat = true →
      (r.acc = .rw ∨ r.acc = .rl) →
      bs.length = r.ty.size → s.runLocked idx.toNat sub.toNat v r.acc = false → (r.ty = .bool → v ≤ 1) →
      (s.setObj k v).rangeOk idx.toNat sub.toNat v = true →
      exec (.objectWrite role idx sub bs) s = .next ((s.setObj k v).afterWrite s idx.toNat sub.toNat v) ∧
      (idx.toNat < 0x1300 → ∃ t, exec (.objectWrite role idx sub bs) s = .next t ∧ OnlyObjs [k] s t ∧ t.obj k = v)) ∧
    (∀ (role : Role) (idx : BitVec 16) (sub : BitVec 8) (bs : Bytes),
      (s.mgmtUp = false ∨ objRow idx.toNat sub.toNat = none ∨ mayWrite role idx.toNat = false ∨
        ∃ r, objRow idx.toNat sub.toNat = some r ∧ (r.acc = .ro ∨ r.acc = .rc ∨ bs.length ≠ r.ty.size ∨
          s.runLocked idx.toNat sub.toNat (wireNat r.ty bs) r.acc = true ∨
          ((r.acc = .rw ∨ r.acc = .rl) ∧ ((r.ty = .bool ∧ 1 < wireNat r.ty bs) ∨
            (s.setObj (objKey idx.toNat sub.toNat) (wireNat r.ty bs)).rangeOk idx.toNat sub.toNat (wireNat r.ty bs) = false)))) →
      exec (.objectWrite role idx sub bs) s = .next s) ∧
    (s.mgmtUp = true → ∀ role, role ≠ .read →
      (∀ n : ParcelId, s.parMode n = 2 → s.parState n = 3 → (s.jobState n = 1 ∨ s.jobState n = 2 ∨ s.jobState n = 5) →
        (s.parcel n).reclaim < 2 → ∃ t, exec (.rollback role n) s = .next t ∧ t.jobState n = 3 ∧ (t.parcel n).commit = none ∧
          (t.parcel n).decided = none ∧ (∀ x ∈ t.colls, x.parcel ≠ n.val) ∧
          (∀ c : CoreId, s.coreParcel c = some n.val → s.core c ≠ Core.reset → t.core c = (s.core c).halt) ∧
          ∀ c : CoreId, s.coreParcel c ≠ some n.val → t.core c = s.core c) ∧
      (∀ n : ParcelId, (s.parMode n ≠ 2 ∨ s.parState n ≠ 3 ∨ (s.jobState n ≠ 1 ∧ s.jobState n ≠ 2 ∧ s.jobState n ≠ 5)) →
        exec (.rollback role n) s = .next s) ∧
      (∀ (n : ParcelId) (tr : BitVec 64), s.parMode n = 2 → s.parState n = 3 → (s.parcel n).reclaim = 0 →
        ∃ t, exec (.reclaim role n tr) s = .next t ∧ { t with parcels := s.parcels } = s ∧
          t.parcel n = { s.parcel n with reclaim := 1, reclaimSlot := if tr = 0 then s.slot + 1 else tr.toNat }) ∧
      (∀ (n : ParcelId) (tr : BitVec 64), (s.parMode n ≠ 2 ∨ s.parState n ≠ 3 ∨ (s.parcel n).reclaim ≠ 0) →
        exec (.reclaim role n tr) s = .next s) ∧
      (∀ n : ParcelId, s.parState n = 5 → s.bad = [] → ∃ t : State, exec (.jobReset role n) s = .next t ∧
        OnlyObjs [Obj.pardig_JOB_DIGEST n, Obj.pardig_RESULT_DIGEST n, Obj.pardig_RESULT_STEP n, Obj.parmem_PARK_STATE n,
          Obj.res_JOB_STATE n] s { t with mem := s.mem } ∧
        t.obj (Obj.pardig_JOB_DIGEST n) = 0 ∧ t.obj (Obj.pardig_RESULT_DIGEST n) = 0 ∧ t.obj (Obj.pardig_RESULT_STEP n) = 0 ∧
        t.obj (Obj.parmem_PARK_STATE n) = 0 ∧ t.jobState n = 0 ∧
        (if s.parMode n = 2 ∧ s.obj (Obj.par_BULK_SIZE n) ≠ 0 then Wrote (s.recordAddr n) (List.replicate 4096 0) s t else t.mem = s.mem)) ∧
      (∀ n : ParcelId, s.parState n ≠ 5 → exec (.jobReset role n) s = .next s) ∧
      (∃ t, exec (.watchClear role) s = .next t ∧
        let l := [Obj.watch_FIRST_OVER_CORE, Obj.watch_FIRST_OVER_TENSOR, Obj.watch_FIRST_OVER_INDEX, Obj.watch_FIRST_OVER_R,
          Obj.watch_FIRST_OVER_TIME]
        OnlyObjs l s t ∧ ∀ k ∈ l, t.obj k = objDefault k)) ∧
    (s.mgmtUp = true →
      (s.anyActive false = false → s.obj Obj.upd_UPD_STATE ≠ 1 → ∃ t, exec (.deviceReset .security) s = .next t ∧ Restarted 2 s t) ∧
      ((s.anyActive false = true ∨ s.obj Obj.upd_UPD_STATE = 1) → exec (.deviceReset .security) s = .next s) ∧
      exec (.deviceReset .operate) s = .next s)

/-- With MGMT up, from SECURITY. MEASURE_EXTEND extends M7. KEY_COMMIT writes its slot, closes that slot's sessions if it changed
and is entered, and changes nothing when no SECURITY key would remain. QUOTE fills its first 128 bytes with the body of R428 and
is counted. SVN_COMMIT raises the counter to the running SVN, refused for a fallback image; COUNTER_INC adds 1, refused at the
limit. A debug token that verifies opens debug and extends M5, one that fails only draws a new challenge, each entered. UPD_TYPE
selects and makes UPD_STATE 0; UPD_ERASE makes it 1 with the inactive slot; its end makes it 2 with the slot's bytes 0xFF;
UPD_DATA programs 64 erased bytes at UPD_OFFSET and advances it; UPD_VERIFY makes it 3; its end 4, or 5 with the code in
UPD_RESULT; UPD_ACTIVATE makes it 6 and the slot the one that boots. Flash with an open range (R450) is left out of the two
clauses on bytes. -/
def Obligations.SecurityAndUpdateCommandsAct : Prop :=
  ∀ s : State, s.mgmtUp = true →
    let ring := (s.obj Obj.ring_WRITE_SEQ + 1) % 2 ^ 32
    (∀ d : Bytes, d.length = 32 → ∃ t, exec (.measureExtend .security d) s = .next t ∧
      OnlyObjs [Obj.sec_MEASURE 7, Obj.sec_EXTENDS 7] s t ∧ t.measure 7 = sm3 (s.measure 7 ++ d) ∧ Counted (Obj.sec_EXTENDS 7) s t) ∧
    (∀ (slot role signs : BitVec 8) (key : Bytes) (ops : List OpKey), slot.toNat < 16 → role.toNat ≤ 3 → signs.toNat < 4 → key.length = 64 →
      s.sealed.ops.length = 16 → ops = s.sealed.ops.set slot.toNat ⟨key, role.toNat, signs.toNat⟩ →
      ((ops.any (fun o => decide (o.role = 3))) = true → ∃ t, exec (.keyCommit .security slot key role signs) s = .next t ∧
        t.sealed = { s.sealed with ops := ops } ∧ t.obj Obj.ring_WRITE_SEQ = ring ∧ t.mem = s.mem ∧ t.cores = s.cores ∧
        t.mgmt.sessions = if ops = s.sealed.ops then s.mgmt.sessions else s.mgmt.sessions.filter (fun x => decide (x.slot ≠ slot.toNat))) ∧
      ((ops.any (fun o => decide (o.role = 3))) = false → exec (.keyCommit .security slot key role signs) s = .next s)) ∧
    (∀ nonce : Bytes, nonce.length = 32 → ∃ t, exec (.quote .security nonce) s = .next t ∧ Counted Obj.sec_QUOTES s t ∧
      leBytes 64 (t.obj (Obj.sec_QUOTE_PART 0)) ++ leBytes 64 (t.obj (Obj.sec_QUOTE_PART 1)) = s.quoteBody nonce ∧
      OnlyObjs [Obj.sec_QUOTE_PART 0, Obj.sec_QUOTE_PART 1, Obj.sec_QUOTE_PART 2, Obj.sec_QUOTES] s { t with freshCtr := s.freshCtr }) ∧
    (∀ (t : BitVec 8) (i slot svn : Nat), s.sealed.counters.length = 8 → t.toNat = i + 1 → i < 4 →
      Sparse.get none s.sec.running t.toNat = some (slot, svn) →
      ((s.obj Obj.sec_FALLBACK).testBit i = false → ∃ u, exec (.svnCommit .security t) s = .next u ∧ u.obj Obj.ring_WRITE_SEQ = ring ∧
        { u.sealed with counters := s.sealed.counters } = s.sealed ∧
        ∀ j, u.sealed.counters.getD j 0 = if j = i then max (s.sealed.counters.getD i 0) svn else s.sealed.counters.getD j 0) ∧
      ((s.obj Obj.sec_FALLBACK).testBit i = true → exec (.svnCommit .security t) s = .next s)) ∧
    (∀ (k : BitVec 8) (v : Nat), s.sealed.counters.length = 8 → k.toNat ≤ 3 → v = s.sealed.counters.getD (4 + k.toNat) 0 →
      (v ≠ 0xFFFFFFFF → ∃ u, exec (.counterInc .security k) s = .next u ∧ { u with sealed := s.sealed } = s ∧
        { u.sealed with counters := s.sealed.counters } = s.sealed ∧
        ∀ j, u.sealed.counters.getD j 0 = if j = 4 + k.toNat then v + 1 else s.sealed.counters.getD j 0) ∧
      (v = 0xFFFFFFFF → exec (.counterInc .security k) s = .next s)) ∧
    (∀ token : Bytes, token.length = 64 → ∃ t, exec (.debugUnlock .security token) s = .next t ∧ t.sec.challenge = s.freshCtr ∧
      t.freshCtr = s.freshCtr + 1 ∧ t.obj Obj.ring_WRITE_SEQ = ring ∧ t.mem = s.mem ∧ t.cores = s.cores ∧ t.sealed = s.sealed ∧
      (s.unlockOk token = true → t.obj Obj.sec_DEBUG_STATE = 1 ∧ t.measure 5 = sm3 (s.measure 5 ++ sm3 token)) ∧
      (s.unlockOk token = false → t.obj Obj.sec_DEBUG_STATE = s.obj Obj.sec_DEBUG_STATE ∧ t.measure 5 = s.measure 5)) ∧
    (∀ v : BitVec 8, (1 ≤ v.toNat ∧ v.toNat ≤ 4 → ∃ t, exec (.updType .security v) s = .next t ∧ t.obj Obj.upd_UPD_TYPE = v.toNat ∧
        t.obj Obj.upd_UPD_STATE = 0 ∧ (s.obj Obj.upd_UPD_STATE ≠ 1 → OnlyObjs [Obj.upd_UPD_TYPE, Obj.upd_UPD_STATE] s t)) ∧
      (v.toNat = 0 ∨ 4 < v.toNat → exec (.updType .security v) s = .next s)) ∧
    (∀ (ty : Nat) (e : DirEntry), ty = s.obj Obj.upd_UPD_TYPE → ty ≠ 0 → s.dirEntry ty (s.inactiveSlot ty) = some e →
      (s.obj Obj.upd_UPD_STATE = 1 ∨ s.obj Obj.upd_UPD_STATE = 3 → exec (.updErase .security) s = .next s) ∧
      (s.obj Obj.upd_UPD_STATE ≠ 1 → s.obj Obj.upd_UPD_STATE ≠ 3 → ∃ t, exec (.updErase .security) s = .next t ∧
        t.obj Obj.upd_UPD_STATE = 1 ∧ t.obj Obj.upd_UPD_OFFSET = 0 ∧ t.sec = { s.sec with updSlot := s.inactiveSlot ty } ∧
        OnlyObjs [Obj.upd_UPD_STATE, Obj.upd_UPD_OFFSET] s { t with sec := s.sec })) ∧
    (∀ o n, s.updRange = some (o, n) → s.flashLost = [] →
      (s.obj Obj.upd_UPD_STATE = 1 → ∃ t, exec .updEraseDone s = .next t ∧ t.obj Obj.upd_UPD_STATE = 2 ∧
        OnlyObjs [Obj.upd_UPD_STATE] s { t with flash := s.flash } ∧
        ∀ a, t.flashByte a = if o ≤ a ∧ a < o + n then 0xFF else s.flashByte a) ∧
      (∀ (d : Bytes) (off : Nat), d.length = 64 → off = s.obj Obj.upd_UPD_OFFSET → off % 64 = 0 → off < n → n ≤ 2 ^ 22 →
        s.obj Obj.upd_UPD_STATE = 2 → (∀ i, i < 64 → s.flashByte (o + off + i) = 0xFF) →
        ∃ t, exec (.updData .security d) s = .next t ∧ t.obj Obj.upd_UPD_OFFSET = off + 64 ∧
          OnlyObjs [Obj.upd_UPD_OFFSET] s { t with flash := s.flash } ∧
          ∀ a, t.flashByte a = if o + off ≤ a ∧ a < o + off + 64 then d.getD (a - (o + off)) 0 else s.flashByte a)) ∧
    (s.obj Obj.upd_UPD_STATE = 2 → ∃ t, exec (.updVerify .security) s = .next t ∧ OnlyObjs [Obj.upd_UPD_STATE] s t ∧
      t.obj Obj.upd_UPD_STATE = 3) ∧
    (s.obj Obj.upd_UPD_STATE ≠ 2 → exec (.updVerify .security) s = .next s) ∧
    (∀ code, code = s.imageCheck (s.obj Obj.upd_UPD_TYPE) s.sec.updSlot → s.obj Obj.upd_UPD_STATE = 3 →
      ∃ t, exec .updVerifyDone s = .next t ∧ t.obj Obj.upd_UPD_STATE = (if code = 0 then 4 else 5) ∧ t.mem = s.mem ∧ t.sealed = s.sealed ∧
        (code ≠ 0 → t.obj Obj.upd_UPD_RESULT = 0x0B00 + code ∧ t.obj Obj.ring_WRITE_SEQ = ring)) ∧
    (s.obj Obj.upd_UPD_STATE = 4 → ∃ t, exec (.updActivate .security) s = .next t ∧ t.obj Obj.upd_UPD_STATE = 6 ∧
      t.sealed = { s.sealed with bootSlot := s.sealed.bootSlot.set (s.obj Obj.upd_UPD_TYPE - 1) s.sec.updSlot } ∧
      t.obj Obj.ring_WRITE_SEQ = ring ∧ t.mem = s.mem) ∧
    (s.obj Obj.upd_UPD_STATE ≠ 4 → exec (.updActivate .security) s = .next s)

/-- With MGMT up. A datagram that is no request is only counted. OPEN_A of an empty slot or with a key that is none is refused AUTH,
one that the exchange accepts with eight sessions is refused BUSY, and else it opens a half-open session and is answered with
OPEN_B; OPEN_C with the right S_A, MAC and SEQ 0 confirms it, a wrong S_A discards it without an answer. A request of a
confirmed session (READ, WRITE, CLOSE) with a wrong MAC is counted in DAP_MAC_FAIL only; one of the last SEQ gets the stored
response again; one of any other SEQ than the next is counted in DAP_SEQ_DISCARD; the next one is carried out: READ and WRITE
are answered with what the dictionary gives, under the role of the slot, and CLOSE ends the session after its answer. A WRITE
that fails changes nothing (a refused debug token has its own rule). A half-open session and an idle one end at their instants. -/
def Obligations.DapSessionsAnswerInSequence : Prop :=
  ∀ (s : State) (cl : DapClient) (msg : Bytes), s.mgmtUp = true →
    (dapParse msg = none → ∀ x ∈ [Instr.dapOpenA cl msg, .dapOpenC cl msg, .dapRead cl msg, .dapWrite cl msg, .dapClose cl msg],
      ∃ t, exec x s = .next t ∧ OnlyObjs [Obj.mgc_DAP_DISCARD] s t ∧ Counted Obj.mgc_DAP_DISCARD s t) ∧
    (∀ (m : DapMsg) (slot : Nat), dapParse msg = some m → m.type = 0x02 → slot = byteAt m.body 0 →
      (slotRole (s.opSlot slot) = none → ∃ t, exec (.dapOpenA cl msg) s = .next t ∧ Counted Obj.mgc_DAP_OPEN_FAIL s t ∧
        t.sent = s.sent ++ [.dap cl (dapHead 0x03 0 m.seq 8 [])] ∧ OnlyObjs [Obj.mgc_DAP_OPEN_FAIL] s { t with sent := s.sent }) ∧
      (∀ r, slotRole (s.opSlot slot) ≠ none → r = Config.freeNat s.freshCtr % (sm2N - 1) + 1 →
        ∃ t : State, exec (.dapOpenA cl msg) s = .next t ∧
          match sm2ExchangeB (dapClientId slot) dapDeviceId (s.opSlot slot).key (slice m.body 4 64) s.sealed.mgmtPriv r with
          | none => Counted Obj.mgc_DAP_OPEN_FAIL s t ∧ t.sent = s.sent ++ [.dap cl (dapHead 0x03 0 m.seq 8 [])] ∧
              OnlyObjs [Obj.mgc_DAP_OPEN_FAIL] s { t with sent := s.sent }
          | some e =>
            if 8 ≤ s.mgmt.sessions.length then
              Counted Obj.mgc_DAP_BUSY s t ∧ t.sent = s.sent ++ [.dap cl (dapHead 0x03 0 m.seq 11 [])] ∧ t.mgmt = s.mgmt
            else ∃ id : Nat,
              t.mgmt.sessions = s.mgmt.sessions ++ [⟨id, slot, false, e.key.take 32, e.key.drop 32, e.sA, 0, [], s.now + 16000000000⟩] ∧
              t.sent = s.sent ++ [.dap cl (dapHead 0x03 id m.seq 0 (ecBytes (ecMul r ecG) ++ e.sB))] ∧ Counted Obj.mgc_DAP_RX s t)) ∧
    (∀ (m : DapMsg) (x : Session), dapParse msg = some m → m.type = 0x04 → s.session m.session = some x → x.confirmed = false →
      (m.body ≠ x.sA → ∃ t, exec (.dapOpenC cl msg) s = .next t ∧ t.session x.id = none ∧ Counted Obj.mgc_DAP_OPEN_FAIL s t ∧
        OnlyObjs [Obj.mgc_DAP_OPEN_FAIL] s { t with mgmt := s.mgmt }) ∧
      (m.body = x.sA → hmacSm3 x.keyIn m.head = m.mac → m.seq = 0 → ∃ (t : State) (bs : Bytes), exec (.dapOpenC cl msg) s = .next t ∧
        bs = dapSealed x.keyOut 0x05 x.id 0 0 [] ∧ t.sent = s.sent ++ [.dap cl bs] ∧ Counted Obj.mgc_DAP_RX s t ∧
        t.session x.id = some { x with confirmed := true, last := 0, resp := bs, expires := s.idleAt })) ∧
    (∀ (m : DapMsg) (x : Session) (c : Instr), dapParse msg = some m → s.session m.session = some x → x.confirmed = true →
      ((m.type = 0x10 ∧ c = .dapRead cl msg) ∨ (m.type = 0x12 ∧ c = .dapWrite cl msg) ∨ (m.type = 0x1E ∧ c = .dapClose cl msg)) →
      (hmacSm3 x.keyIn m.head ≠ m.mac → ∃ t, exec c s = .next t ∧ OnlyObjs [Obj.mgc_DAP_MAC_FAIL] s t ∧ Counted Obj.mgc_DAP_MAC_FAIL s t) ∧
      (hmacSm3 x.keyIn m.head = m.mac →
        (m.seq = x.last → ∃ t, exec c s = .next t ∧ t.sent = s.sent ++ [.dap cl x.resp] ∧ Counted Obj.mgc_DAP_RESENT s t ∧
          t.session x.id = some { x with expires := s.idleAt } ∧ OnlyObjs [Obj.mgc_DAP_RESENT] s { t with mgmt := s.mgmt, sent := s.sent }) ∧
        (m.seq ≠ x.last → m.seq ≠ x.last + 1 → ∃ t, exec c s = .next t ∧ OnlyObjs [Obj.mgc_DAP_SEQ_DISCARD] s t ∧
          Counted Obj.mgc_DAP_SEQ_DISCARD s t) ∧
        (m.seq = x.last + 1 →
          (∀ u st body, m.type = 0x10 → s.dapReadBody m.body = (u, st, body) → ∃ (t : State) (bs : Bytes), exec c s = .next t ∧
            bs = dapSealed x.keyOut 0x11 x.id m.seq st body ∧ t.sent = u.sent ++ [.dap cl bs] ∧
            (u.mgmtUp = true → u.session x.id = some x →
              t.session x.id = some { x with last := m.seq, resp := bs, expires := u.idleAt } ∧ Counted Obj.mgc_DAP_RX u t)) ∧
          (∀ u st i, m.type = 0x12 → s.dapWriteBody ((slotRole (s.opSlot x.slot)).getD .read) m.body = (u, st, i) →
            ∃ (t : State) (bs : Bytes), exec c s = .next t ∧ bs = dapSealed x.keyOut 0x13 x.id m.seq st [BitVec.ofNat 8 i, 0, 0, 0] ∧
              t.sent = u.sent ++ [.dap cl bs] ∧ (u.mgmtUp = true → u.session x.id = some x →
                t.session x.id = some { x with last := m.seq, resp := bs, expires := u.idleAt } ∧ Counted Obj.mgc_DAP_RX u t)) ∧
          (m.type = 0x1E → ∃ t, exec c s = .next t ∧ t.session x.id = none ∧ Counted Obj.mgc_DAP_RX s t ∧
            t.sent = s.sent ++ [.dap cl (dapSealed x.keyOut 0x1F x.id m.seq 0 [])])))) ∧
    (∀ role es u i c, s.dictWrite (some role) es = (u, some (i, c)) → (∀ e ∈ es, e.idx ≠ 0x1300 ∨ e.sub ≠ 4) → u = s) ∧
    (∀ (id : BitVec 32) (x : Session), s.session id.toNat = some x → x.expires < 2 ^ 64 →
      (x.confirmed = false → ∃ t, exec (.dapHalfOpenExpiry id) s = .next t ∧ t.now = max s.now x.expires ∧ t.session x.id = none ∧
        Counted Obj.mgc_DAP_OPEN_FAIL s t ∧ OnlyObjs [Obj.mgc_DAP_OPEN_FAIL] s { t with ft := s.ft, mgmt := s.mgmt }) ∧
      (x.confirmed = true → ∃ t, exec (.sessionIdle id) s = .next t ∧ t.now = max s.now x.expires ∧ t.session x.id = none ∧
        { t with ft := s.ft, mgmt := s.mgmt } = s))

/-- With both supplies valid and RESET_N high. SETDASA of the static address 0x3A, and ENTDAA of a target without an address, assign
the dynamic address and clear the selector; RSTDAA gives both up; other addresses change nothing. With an address: GETPID
answers six bytes with PHYS_ID in [20:0] and zeros in [32:21], GETBCR and GETDCR one byte 0, GETSTATUS two bytes that are free
(log 36). A selector of three bytes is kept, a write of another length ignored. A private read is counted and answered: an
object of the view with status OK, its type, length and value, and the CRC over selector and answer; without a selector
NO_OBJECT. Nothing but the bus's own state, its counts and the free values differs. The management port: with MGMT not OFF it
locks in the mode it tries, a loss returns it to 10GBASE-R, and without lock it falls back to 1000BASE-X. -/
def Obligations.BoardBusesAnswerWithoutWriting : Prop :=
  ∀ s : State,
    (s.poweredUp = true →
      (∀ static_ dyn : BitVec 7, (static_ = 0x3A → exec (.setdasa static_ dyn) s =
          .next { s with mgmt := { s.mgmt with i3cAddr := some dyn.toNat, i3cSel := none } }) ∧
        (static_ ≠ 0x3A → exec (.setdasa static_ dyn) s = .next s)) ∧
      (∀ dyn : BitVec 7, (s.mgmt.i3cAddr = none → exec (.entdaa dyn) s =
          .next { s with mgmt := { s.mgmt with i3cAddr := some dyn.toNat, i3cSel := none } }) ∧
        (s.mgmt.i3cAddr ≠ none → exec (.entdaa dyn) s = .next s)) ∧
      exec .rstdaa s = .next { s with mgmt := { s.mgmt with i3cAddr := none, i3cSel := none } } ∧
      (∀ a, s.mgmt.i3cAddr = some a →
        (∃ bs, exec .getpid s = .next { s with sent := s.sent ++ [.i3c bs] } ∧ bs.length = 6 ∧
          beAt bs 0 6 % 2 ^ 33 = s.sealed.physId % 2 ^ 21 ∧ beAt bs 0 6 / 2 ^ 33 = Config.mipiCode % 2 ^ 15) ∧
        exec .getbcr s = .next { s with sent := s.sent ++ [.i3c [0]] } ∧ exec .getdcr s = .next { s with sent := s.sent ++ [.i3c [0]] } ∧
        (∃ bs, exec .getstatus s = .next { s with sent := s.sent ++ [.i3c bs], freshCtr := s.freshCtr + 1 } ∧ bs.length = 2) ∧
        (∀ data : Bytes, (data.length = 3 → exec (.i3cSelectorWrite data) s =
            .next { s with mgmt := { s.mgmt with i3cSel := some (beAt data 0 2, byteAt data 2) } }) ∧
          (data.length ≠ 3 → exec (.i3cSelectorWrite data) s = .next s)) ∧
        (s.mgmt.i3cSel = none → ∃ (t : State) (bs : Bytes), exec .i3cPrivateRead s = .next t ∧ t.sent = s.sent ++ [.i3c bs] ∧
          byteAt bs 0 = 1 ∧ byteAt bs 2 = 0 ∧ bs.length = 4 ∧ Counted Obj.mgc_I3C_READS s t ∧ Counted Obj.mgc_I3C_NOT_IN_VIEW s t ∧
          OnlyObjs [Obj.mgc_I3C_READS, Obj.mgc_I3C_NOT_IN_VIEW] s { t with sent := s.sent, freshCtr := s.freshCtr }) ∧
        (∀ idx sub c r u v, s.mgmt.i3cSel = some (idx, sub) → viewFrom idx sub = some c → objRow idx sub = some r → s.viewReady c = true →
          (idx ≠ 0x2000 ∨ sub ≠ 5) → s.readValue idx sub r = (u, v) → ∃ (t : State) (bs ans : Bytes), exec .i3cPrivateRead s = .next t ∧
            ans = [(0 : Byte), BitVec.ofNat 8 r.ty.code, BitVec.ofNat 8 (wireOf r.ty v).length] ++ wireOf r.ty v ∧
            bs = ans ++ [BitVec.ofNat 8 (crc8 (beBytes 2 idx ++ beBytes 1 sub ++ ans))] ∧ t.sent = u.sent ++ [.i3c bs] ∧
            Counted Obj.mgc_I3C_READS u t ∧ OnlyObjs [Obj.mgc_I3C_READS] u { t with sent := u.sent }))) ∧
    (s.fnState 0 ≠ 0 →
      (∀ gigabit, s.obj Obj.mgmt_MGMT_LINK = 0 → s.mgmt.slowLink = gigabit → ∃ t, exec (.mgmtLinkUp gigabit) s = .next t ∧
        t.obj Obj.mgmt_MGMT_LINK = (if gigabit then 2 else 1) ∧ OnlyObjs [Obj.mgmt_MGMT_LINK] s t) ∧
      (s.obj Obj.mgmt_MGMT_LINK ≠ 0 → ∃ t, exec .mgmtLinkDown s = .next t ∧ t.obj Obj.mgmt_MGMT_LINK = 0 ∧ t.mgmt = { s.mgmt with slowLink := false } ∧
        OnlyObjs [Obj.mgmt_MGMT_LINK] s { t with mgmt := s.mgmt }) ∧
      (s.obj Obj.mgmt_MGMT_LINK = 0 → s.mgmt.slowLink = false → ∃ t, exec .mgmtLinkFallback s = .next t ∧
        t.mgmt = { s.mgmt with slowLink := true } ∧ OnlyObjs [] s { t with mgmt := s.mgmt }))

/-- For every state, reached or not, in which the memory, the flash and the dictionary are in canonical form (addresses and keys
rising, and no entry equal to what an unlisted one reads as; of a dictionary object that is the Default of R389), every step
that answers a next state answers one in which all three are: equal contents stay equal data, whatever the command or the tick
did. -/
def Obligations.EveryStepKeepsTheCanonicalForms : Prop :=
  ∀ s t : State, s.memWf = true → s.dictWf = true → Sparse.wf 0xFF s.flash = true → step s = .next t →
    t.memWf = true ∧ t.dictWf = true ∧ Sparse.wf 0xFF t.flash = true

/-- For every state, reached or not, and every step that answers a next state: no monotonic counter of the sealed store is lower
(R431) and none appears or goes; the keys, certificates, PHYS_ID, SERIAL and MAC address written in manufacture are the same
(R423, R424); a key table of 16 slots with a slot of role SECURITY stays one (R426). Resets are steps among them. Besides, of
the model's own: the queue loses its front command and nothing else, what the device has sent stays sent, the modules fitted
stay, and no free value is drawn twice. -/
def Obligations.NoStepUndoesTheSealedStore : Prop :=
  ∀ s t : State, step s = .next t →
    s.sealed.countersRise t.sealed ∧ t.sealed.identity = s.sealed.identity ∧ (s.sealed.keysOk = true → t.sealed.keysOk = true) ∧
      t.pending = s.pending.tail ∧ s.sent <+: t.sent ∧ t.modules = s.modules ∧ s.freshCtr ≤ t.freshCtr

/-- Right after reset: memory, flash and dictionary are in canonical form and the key table has its SECURITY key, so that the
invariants hold there; every dictionary object that a write or an event sets has its Default (R389); every function is OFF;
Fabric Time counts from 0 with the nominal increment of 1,024 / 100 units; the device is BOOTING, holds no job, context, packet
or command, and has sent nothing. What the sealed store and the registers without a stated reset value hold is the model's
choice (logs 1, 2 and 13), and nothing is stated of it but the forms. -/
def Obligations.ResetStateHoldsItsForms : Prop :=
  State.reset.memWf = true ∧ State.reset.dictWf = true ∧ Sparse.wf 0xFF State.reset.flash = true ∧ State.reset.sealed.keysOk = true ∧
    (∀ k, State.reset.obj k = objDefault k) ∧ (∀ f ∈ allFunctions, State.reset.fnState f = 0) ∧ State.reset.now = 0 ∧
    State.reset.ftInc.toNat = 1024 * 2 ^ 40 / 100 ∧ State.reset.obj Obj.dev_DEVICE_STATE = 0 ∧ State.reset.obj Obj.time_TIME_STATE = 0 ∧
    State.reset.colls = [] ∧ State.reset.inbox = [] ∧ State.reset.pending = [] ∧ State.reset.sent = []
end

