-- ==== Sys2Proof/Laws/Sparse.lean ====
section
/-! SUPPORT. Sparse maps: what reads after what writes, that every operation keeps the canonical form, and that canonical maps which
read alike are equal. -/

namespace Sys2Proof.Machine

variable {α : Type} {d : α} {m : Sparse α} {k j : Nat} {v : α}

/-! ### Reads after writes -/

@[simp] theorem Sparse.get_nil (d : α) (k : Nat) : Sparse.get d ([] : Sparse α) k = d := rfl

theorem Sparse.get_cons (d : α) (j : Nat) (v : α) (m : Sparse α) (k : Nat) :
    Sparse.get d ((j, v) :: m) k = if j = k then v else Sparse.get d m k := rfl

theorem Sparse.get_filter_true (p : Nat × α → Bool) (hp : ∀ w, p (k, w) = true) :
    Sparse.get d (m.filter p) k = Sparse.get d m k := by
  induction m with
  | nil => rfl
  | cons e m ih =>
    obtain ⟨j, w⟩ := e
    by_cases h : p (j, w) = true
    · simp [List.filter_cons, h, Sparse.get_cons, ih]
    · have : j ≠ k := by rintro rfl; exact h (hp w)
      simp [List.filter_cons, h, Sparse.get_cons, ih, this]

theorem Sparse.get_filter_false (p : Nat × α → Bool) (hp : ∀ w, p (k, w) = false) : Sparse.get d (m.filter p) k = d := by
  induction m with
  | nil => rfl
  | cons e m ih =>
    obtain ⟨j, w⟩ := e
    by_cases h : p (j, w) = true
    · have : j ≠ k := by rintro rfl; simp [hp w] at h
      simp [List.filter_cons, h, Sparse.get_cons, ih, this]
    · simp [List.filter_cons, h, ih]

@[simp] theorem Sparse.get_drop_same : Sparse.get d (Sparse.drop m k) k = d :=
  Sparse.get_filter_false _ (by simp)

theorem Sparse.get_drop_other (h : j ≠ k) : Sparse.get d (Sparse.drop m k) j = Sparse.get d m j :=
  Sparse.get_filter_true _ (by simp [h])

@[simp] theorem Sparse.get_put_same : Sparse.get d (Sparse.put m k v) k = v := by
  induction m with
  | nil => simp [Sparse.put, Sparse.get_cons]
  | cons e m ih =>
    obtain ⟨j, w⟩ := e
    simp only [Sparse.put]
    split
    · simp [Sparse.get_cons]
    · split
      · simp [Sparse.get_cons]
      · simp [Sparse.get_cons, ih, *]

theorem Sparse.get_put_other (h : j ≠ k) : Sparse.get d (Sparse.put m k v) j = Sparse.get d m j := by
  induction m with
  | nil => simp [Sparse.put, Sparse.get_cons, Ne.symm h]
  | cons e m ih =>
    obtain ⟨i, w⟩ := e
    simp only [Sparse.put]
    split
    · simp [Sparse.get_cons, Ne.symm h]
    · split
      · rename_i h2; subst h2; simp [Sparse.get_cons, Ne.symm h]
      · simp [Sparse.get_cons, ih]

@[simp] theorem Sparse.get_set_same [DecidableEq α] : Sparse.get d (Sparse.set d m k v) k = v := by
  unfold Sparse.set; split <;> simp_all

theorem Sparse.get_set_other [DecidableEq α] (h : j ≠ k) : Sparse.get d (Sparse.set d m k v) j = Sparse.get d m j := by
  unfold Sparse.set; split
  · exact Sparse.get_drop_other h
  · exact Sparse.get_put_other h

theorem Sparse.get_set [DecidableEq α] : Sparse.get d (Sparse.set d m k v) j = if j = k then v else Sparse.get d m j := by
  split
  · subst_vars; simp
  · exact Sparse.get_set_other ‹_›

/-- The same read after a write under another default than the map is read with, at another key. -/
theorem Sparse.get_set_other' [DecidableEq α] {d' : α} (h : j ≠ k) : Sparse.get d' (Sparse.set d m k v) j = Sparse.get d' m j := by
  unfold Sparse.set; split
  · exact Sparse.get_drop_other h
  · exact Sparse.get_put_other h

@[simp] theorem Sparse.get_modify_same [DecidableEq α] (f : α → α) :
    Sparse.get d (Sparse.modify d m k f) k = f (Sparse.get d m k) := by simp [Sparse.modify]

theorem Sparse.get_modify_other [DecidableEq α] (f : α → α) (h : j ≠ k) :
    Sparse.get d (Sparse.modify d m k f) j = Sparse.get d m j := Sparse.get_set_other h

theorem Sparse.get_clearRange (lo hi : Nat) :
    Sparse.get d (Sparse.clearRange m lo hi) k = if lo ≤ k ∧ k < hi then d else Sparse.get d m k := by
  unfold Sparse.clearRange
  split
  · exact Sparse.get_filter_false _ (by intro w; simp; omega)
  · exact Sparse.get_filter_true _ (by intro w; simp; omega)

/-! ### The canonical form -/

theorem Sparse.wf_cons [DecidableEq α] {w : α} :
    Sparse.wf d ((k, w) :: m) = true ↔ (∀ e ∈ m, k < e.1) ∧ w ≠ d ∧ Sparse.wf d m = true := by
  simp [Sparse.wf, Sparse.above, and_assoc]

@[simp] theorem Sparse.wf_nil [DecidableEq α] : Sparse.wf d ([] : Sparse α) = true := rfl

theorem Sparse.wf_filter [DecidableEq α] (p : Nat × α → Bool) (h : Sparse.wf d m = true) : Sparse.wf d (m.filter p) = true := by
  induction m with
  | nil => rfl
  | cons e m ih =>
    obtain ⟨j, w⟩ := e
    obtain ⟨h1, h2, h3⟩ := Sparse.wf_cons.1 h
    by_cases hp : p (j, w) = true
    · rw [List.filter_cons_of_pos hp]
      exact Sparse.wf_cons.2 ⟨fun e he => h1 e (List.mem_filter.1 he).1, h2, ih h3⟩
    · rw [List.filter_cons_of_neg hp]; exact ih h3

theorem Sparse.mem_put {e : Nat × α} (h : e ∈ Sparse.put m k v) : e = (k, v) ∨ e ∈ m := by
  induction m with
  | nil => simpa [Sparse.put] using h
  | cons x m ih =>
    obtain ⟨j, w⟩ := x
    simp only [Sparse.put] at h
    split at h
    · simpa using h
    · split at h
      · rcases List.mem_cons.1 h with h | h
        · exact .inl h
        · exact .inr (List.mem_cons_of_mem _ h)
      · rcases List.mem_cons.1 h with h | h
        · exact .inr (by simp [h])
        · rcases ih h with h | h
          · exact .inl h
          · exact .inr (List.mem_cons_of_mem _ h)

theorem Sparse.wf_put [DecidableEq α] (hv : v ≠ d) (h : Sparse.wf d m = true) : Sparse.wf d (Sparse.put m k v) = true := by
  induction m with
  | nil => simp [Sparse.put, Sparse.wf_cons, hv]
  | cons x m ih =>
    obtain ⟨j, w⟩ := x
    obtain ⟨h1, h2, h3⟩ := Sparse.wf_cons.1 h
    simp only [Sparse.put]
    split
    · rename_i hk
      refine Sparse.wf_cons.2 ⟨?_, hv, h⟩
      intro e he
      rcases List.mem_cons.1 he with he | he
      · subst he; exact hk
      · exact lt_trans hk (h1 e he)
    · split
      · rename_i hj; subst hj
        exact Sparse.wf_cons.2 ⟨h1, hv, h3⟩
      · rename_i hk hj
        refine Sparse.wf_cons.2 ⟨?_, h2, ih h3⟩
        intro e he
        rcases Sparse.mem_put he with he | he
        · subst he; simp; omega
        · exact h1 e he

theorem Sparse.wf_set [DecidableEq α] (h : Sparse.wf d m = true) : Sparse.wf d (Sparse.set d m k v) = true := by
  unfold Sparse.set; split
  · exact Sparse.wf_filter _ h
  · exact Sparse.wf_put ‹_› h

theorem Sparse.wf_modify [DecidableEq α] (f : α → α) (h : Sparse.wf d m = true) : Sparse.wf d (Sparse.modify d m k f) = true :=
  Sparse.wf_set h

theorem Sparse.wf_clearRange [DecidableEq α] (lo hi : Nat) (h : Sparse.wf d m = true) : Sparse.wf d (Sparse.clearRange m lo hi) = true :=
  Sparse.wf_filter _ h

theorem Sparse.get_of_above [DecidableEq α] (h : ∀ e ∈ m, k < e.1) : Sparse.get d m k = d := by
  induction m with
  | nil => rfl
  | cons e m ih =>
    obtain ⟨j, w⟩ := e
    have : j ≠ k := by have := h (j, w) (by simp); simp at this; omega
    simp only [Sparse.get_cons, this, if_false]
    exact ih (fun e he => h e (List.mem_cons_of_mem _ he))

/-- Canonical maps that read alike are equal data. -/
theorem Sparse.ext [DecidableEq α] {m n : Sparse α} (hm : Sparse.wf d m = true) (hn : Sparse.wf d n = true)
    (h : ∀ k, Sparse.get d m k = Sparse.get d n k) : m = n := by
  induction m generalizing n with
  | nil =>
    cases n with
    | nil => rfl
    | cons e n =>
      obtain ⟨j, w⟩ := e
      have := h j
      simp [Sparse.get_cons] at this
      exact absurd this.symm (Sparse.wf_cons.1 hn).2.1
  | cons e m ih =>
    obtain ⟨j, w⟩ := e
    obtain ⟨a1, a2, a3⟩ := Sparse.wf_cons.1 hm
    cases n with
    | nil =>
      have := h j
      simp [Sparse.get_cons] at this
      exact absurd this a2
    | cons e' n =>
      obtain ⟨i, u⟩ := e'
      obtain ⟨b1, b2, b3⟩ := Sparse.wf_cons.1 hn
      have key : j = i := by
        rcases lt_trichotomy j i with hlt | heq | hgt
        · exfalso
          have hj := h j
          rw [Sparse.get_cons, Sparse.get_cons, if_pos rfl, if_neg (by omega),
            Sparse.get_of_above (fun e he => lt_trans hlt (b1 e he))] at hj
          exact a2 hj
        · exact heq
        · exfalso
          have hi := h i
          rw [Sparse.get_cons, Sparse.get_cons, if_pos rfl, if_neg (by omega),
            Sparse.get_of_above (fun e he => lt_trans hgt (a1 e he))] at hi
          exact b2 hi.symm
      subst key
      have hw : w = u := by have := h j; simpa [Sparse.get_cons] using this
      subst hw
      congr 1
      refine ih a3 b3 (fun k => ?_)
      by_cases hk : k = j
      · subst hk; rw [Sparse.get_of_above a1, Sparse.get_of_above b1]
      · have := h k; rwa [Sparse.get_cons, Sparse.get_cons, if_neg (Ne.symm hk), if_neg (Ne.symm hk)] at this

end Sys2Proof.Machine
end

