-- ==== Sys2Proof/Laws/State.lean ====
section
/-! SUPPORT. One lemma per field per update of the state; what values, cores and memory read as after each of them. -/

namespace Sys2Proof.Machine

variable (s : State)


/-! ### setObj -/

@[simp] theorem State.setObj_pending (k : Nat) (v : Nat) : (s.setObj k v).pending = s.pending := rfl
@[simp] theorem State.setObj_freshCtr (k : Nat) (v : Nat) : (s.setObj k v).freshCtr = s.freshCtr := rfl
@[simp] theorem State.setObj_ft (k : Nat) (v : Nat) : (s.setObj k v).ft = s.ft := rfl
@[simp] theorem State.setObj_ftFrac (k : Nat) (v : Nat) : (s.setObj k v).ftFrac = s.ftFrac := rfl
@[simp] theorem State.setObj_ftInc (k : Nat) (v : Nat) : (s.setObj k v).ftInc = s.ftInc := rfl
@[simp] theorem State.setObj_cores (k : Nat) (v : Nat) : (s.setObj k v).cores = s.cores := rfl
@[simp] theorem State.setObj_mem (k : Nat) (v : Nat) : (s.setObj k v).mem = s.mem := rfl
@[simp] theorem State.setObj_bad (k : Nat) (v : Nat) : (s.setObj k v).bad = s.bad := rfl
@[simp] theorem State.setObj_accBuf (k : Nat) (v : Nat) : (s.setObj k v).accBuf = s.accBuf := rfl
@[simp] theorem State.setObj_parcels (k : Nat) (v : Nat) : (s.setObj k v).parcels = s.parcels := rfl
@[simp] theorem State.setObj_firstInit (k : Nat) (v : Nat) : (s.setObj k v).firstInit = s.firstInit := rfl
@[simp] theorem State.setObj_txq (k : Nat) (v : Nat) : (s.setObj k v).txq = s.txq := rfl
@[simp] theorem State.setObj_standin (k : Nat) (v : Nat) : (s.setObj k v).standin = s.standin := rfl
@[simp] theorem State.setObj_sw (k : Nat) (v : Nat) : (s.setObj k v).sw = s.sw := rfl
@[simp] theorem State.setObj_inbox (k : Nat) (v : Nat) : (s.setObj k v).inbox = s.inbox := rfl
@[simp] theorem State.setObj_links (k : Nat) (v : Nat) : (s.setObj k v).links = s.links := rfl
@[simp] theorem State.setObj_stes (k : Nat) (v : Nat) : (s.setObj k v).stes = s.stes := rfl
@[simp] theorem State.setObj_colls (k : Nat) (v : Nat) : (s.setObj k v).colls = s.colls := rfl
@[simp] theorem State.setObj_groups (k : Nat) (v : Nat) : (s.setObj k v).groups = s.groups := rfl
@[simp] theorem State.setObj_early (k : Nat) (v : Nat) : (s.setObj k v).early = s.early := rfl
@[simp] theorem State.setObj_time (k : Nat) (v : Nat) : (s.setObj k v).time = s.time := rfl
@[simp] theorem State.setObj_sealed (k : Nat) (v : Nat) : (s.setObj k v).sealed = s.sealed := rfl
@[simp] theorem State.setObj_flash (k : Nat) (v : Nat) : (s.setObj k v).flash = s.flash := rfl
@[simp] theorem State.setObj_flashLost (k : Nat) (v : Nat) : (s.setObj k v).flashLost = s.flashLost := rfl
@[simp] theorem State.setObj_modules (k : Nat) (v : Nat) : (s.setObj k v).modules = s.modules := rfl
@[simp] theorem State.setObj_env (k : Nat) (v : Nat) : (s.setObj k v).env = s.env := rfl
@[simp] theorem State.setObj_power (k : Nat) (v : Nat) : (s.setObj k v).power = s.power := rfl
@[simp] theorem State.setObj_sec (k : Nat) (v : Nat) : (s.setObj k v).sec = s.sec := rfl
@[simp] theorem State.setObj_mgmt (k : Nat) (v : Nat) : (s.setObj k v).mgmt = s.mgmt := rfl
@[simp] theorem State.setObj_dieClears (k : Nat) (v : Nat) : (s.setObj k v).dieClears = s.dieClears := rfl
@[simp] theorem State.setObj_steClears (k : Nat) (v : Nat) : (s.setObj k v).steClears = s.steClears := rfl
@[simp] theorem State.setObj_fatal (k : Nat) (v : Nat) : (s.setObj k v).fatal = s.fatal := rfl
@[simp] theorem State.setObj_corrSeen (k : Nat) (v : Nat) : (s.setObj k v).corrSeen = s.corrSeen := rfl
@[simp] theorem State.setObj_sent (k : Nat) (v : Nat) : (s.setObj k v).sent = s.sent := rfl

/-! ### setCore -/

@[simp] theorem State.setCore_pending (c : Nat) (k : Core) : (s.setCore c k).pending = s.pending := rfl
@[simp] theorem State.setCore_freshCtr (c : Nat) (k : Core) : (s.setCore c k).freshCtr = s.freshCtr := rfl
@[simp] theorem State.setCore_ft (c : Nat) (k : Core) : (s.setCore c k).ft = s.ft := rfl
@[simp] theorem State.setCore_ftFrac (c : Nat) (k : Core) : (s.setCore c k).ftFrac = s.ftFrac := rfl
@[simp] theorem State.setCore_ftInc (c : Nat) (k : Core) : (s.setCore c k).ftInc = s.ftInc := rfl
@[simp] theorem State.setCore_objs (c : Nat) (k : Core) : (s.setCore c k).objs = s.objs := rfl
@[simp] theorem State.setCore_mem (c : Nat) (k : Core) : (s.setCore c k).mem = s.mem := rfl
@[simp] theorem State.setCore_bad (c : Nat) (k : Core) : (s.setCore c k).bad = s.bad := rfl
@[simp] theorem State.setCore_accBuf (c : Nat) (k : Core) : (s.setCore c k).accBuf = s.accBuf := rfl
@[simp] theorem State.setCore_parcels (c : Nat) (k : Core) : (s.setCore c k).parcels = s.parcels := rfl
@[simp] theorem State.setCore_firstInit (c : Nat) (k : Core) : (s.setCore c k).firstInit = s.firstInit := rfl
@[simp] theorem State.setCore_txq (c : Nat) (k : Core) : (s.setCore c k).txq = s.txq := rfl
@[simp] theorem State.setCore_standin (c : Nat) (k : Core) : (s.setCore c k).standin = s.standin := rfl
@[simp] theorem State.setCore_sw (c : Nat) (k : Core) : (s.setCore c k).sw = s.sw := rfl
@[simp] theorem State.setCore_inbox (c : Nat) (k : Core) : (s.setCore c k).inbox = s.inbox := rfl
@[simp] theorem State.setCore_links (c : Nat) (k : Core) : (s.setCore c k).links = s.links := rfl
@[simp] theorem State.setCore_stes (c : Nat) (k : Core) : (s.setCore c k).stes = s.stes := rfl
@[simp] theorem State.setCore_colls (c : Nat) (k : Core) : (s.setCore c k).colls = s.colls := rfl
@[simp] theorem State.setCore_groups (c : Nat) (k : Core) : (s.setCore c k).groups = s.groups := rfl
@[simp] theorem State.setCore_early (c : Nat) (k : Core) : (s.setCore c k).early = s.early := rfl
@[simp] theorem State.setCore_time (c : Nat) (k : Core) : (s.setCore c k).time = s.time := rfl
@[simp] theorem State.setCore_sealed (c : Nat) (k : Core) : (s.setCore c k).sealed = s.sealed := rfl
@[simp] theorem State.setCore_flash (c : Nat) (k : Core) : (s.setCore c k).flash = s.flash := rfl
@[simp] theorem State.setCore_flashLost (c : Nat) (k : Core) : (s.setCore c k).flashLost = s.flashLost := rfl
@[simp] theorem State.setCore_modules (c : Nat) (k : Core) : (s.setCore c k).modules = s.modules := rfl
@[simp] theorem State.setCore_env (c : Nat) (k : Core) : (s.setCore c k).env = s.env := rfl
@[simp] theorem State.setCore_power (c : Nat) (k : Core) : (s.setCore c k).power = s.power := rfl
@[simp] theorem State.setCore_sec (c : Nat) (k : Core) : (s.setCore c k).sec = s.sec := rfl
@[simp] theorem State.setCore_mgmt (c : Nat) (k : Core) : (s.setCore c k).mgmt = s.mgmt := rfl
@[simp] theorem State.setCore_dieClears (c : Nat) (k : Core) : (s.setCore c k).dieClears = s.dieClears := rfl
@[simp] theorem State.setCore_steClears (c : Nat) (k : Core) : (s.setCore c k).steClears = s.steClears := rfl
@[simp] theorem State.setCore_fatal (c : Nat) (k : Core) : (s.setCore c k).fatal = s.fatal := rfl
@[simp] theorem State.setCore_corrSeen (c : Nat) (k : Core) : (s.setCore c k).corrSeen = s.corrSeen := rfl
@[simp] theorem State.setCore_sent (c : Nat) (k : Core) : (s.setCore c k).sent = s.sent := rfl

/-! ### modCore -/

@[simp] theorem State.modCore_pending (c : Nat) (f : Core → Core) : (s.modCore c f).pending = s.pending := rfl
@[simp] theorem State.modCore_freshCtr (c : Nat) (f : Core → Core) : (s.modCore c f).freshCtr = s.freshCtr := rfl
@[simp] theorem State.modCore_ft (c : Nat) (f : Core → Core) : (s.modCore c f).ft = s.ft := rfl
@[simp] theorem State.modCore_ftFrac (c : Nat) (f : Core → Core) : (s.modCore c f).ftFrac = s.ftFrac := rfl
@[simp] theorem State.modCore_ftInc (c : Nat) (f : Core → Core) : (s.modCore c f).ftInc = s.ftInc := rfl
@[simp] theorem State.modCore_objs (c : Nat) (f : Core → Core) : (s.modCore c f).objs = s.objs := rfl
@[simp] theorem State.modCore_mem (c : Nat) (f : Core → Core) : (s.modCore c f).mem = s.mem := rfl
@[simp] theorem State.modCore_bad (c : Nat) (f : Core → Core) : (s.modCore c f).bad = s.bad := rfl
@[simp] theorem State.modCore_accBuf (c : Nat) (f : Core → Core) : (s.modCore c f).accBuf = s.accBuf := rfl
@[simp] theorem State.modCore_parcels (c : Nat) (f : Core → Core) : (s.modCore c f).parcels = s.parcels := rfl
@[simp] theorem State.modCore_firstInit (c : Nat) (f : Core → Core) : (s.modCore c f).firstInit = s.firstInit := rfl
@[simp] theorem State.modCore_txq (c : Nat) (f : Core → Core) : (s.modCore c f).txq = s.txq := rfl
@[simp] theorem State.modCore_standin (c : Nat) (f : Core → Core) : (s.modCore c f).standin = s.standin := rfl
@[simp] theorem State.modCore_sw (c : Nat) (f : Core → Core) : (s.modCore c f).sw = s.sw := rfl
@[simp] theorem State.modCore_inbox (c : Nat) (f : Core → Core) : (s.modCore c f).inbox = s.inbox := rfl
@[simp] theorem State.modCore_links (c : Nat) (f : Core → Core) : (s.modCore c f).links = s.links := rfl
@[simp] theorem State.modCore_stes (c : Nat) (f : Core → Core) : (s.modCore c f).stes = s.stes := rfl
@[simp] theorem State.modCore_colls (c : Nat) (f : Core → Core) : (s.modCore c f).colls = s.colls := rfl
@[simp] theorem State.modCore_groups (c : Nat) (f : Core → Core) : (s.modCore c f).groups = s.groups := rfl
@[simp] theorem State.modCore_early (c : Nat) (f : Core → Core) : (s.modCore c f).early = s.early := rfl
@[simp] theorem State.modCore_time (c : Nat) (f : Core → Core) : (s.modCore c f).time = s.time := rfl
@[simp] theorem State.modCore_sealed (c : Nat) (f : Core → Core) : (s.modCore c f).sealed = s.sealed := rfl
@[simp] theorem State.modCore_flash (c : Nat) (f : Core → Core) : (s.modCore c f).flash = s.flash := rfl
@[simp] theorem State.modCore_flashLost (c : Nat) (f : Core → Core) : (s.modCore c f).flashLost = s.flashLost := rfl
@[simp] theorem State.modCore_modules (c : Nat) (f : Core → Core) : (s.modCore c f).modules = s.modules := rfl
@[simp] theorem State.modCore_env (c : Nat) (f : Core → Core) : (s.modCore c f).env = s.env := rfl
@[simp] theorem State.modCore_power (c : Nat) (f : Core → Core) : (s.modCore c f).power = s.power := rfl
@[simp] theorem State.modCore_sec (c : Nat) (f : Core → Core) : (s.modCore c f).sec = s.sec := rfl
@[simp] theorem State.modCore_mgmt (c : Nat) (f : Core → Core) : (s.modCore c f).mgmt = s.mgmt := rfl
@[simp] theorem State.modCore_dieClears (c : Nat) (f : Core → Core) : (s.modCore c f).dieClears = s.dieClears := rfl
@[simp] theorem State.modCore_steClears (c : Nat) (f : Core → Core) : (s.modCore c f).steClears = s.steClears := rfl
@[simp] theorem State.modCore_fatal (c : Nat) (f : Core → Core) : (s.modCore c f).fatal = s.fatal := rfl
@[simp] theorem State.modCore_corrSeen (c : Nat) (f : Core → Core) : (s.modCore c f).corrSeen = s.corrSeen := rfl
@[simp] theorem State.modCore_sent (c : Nat) (f : Core → Core) : (s.modCore c f).sent = s.sent := rfl

/-! ### setReg -/

@[simp] theorem State.setReg_pending (c : Nat) (d : Reg) (v : BitVec 64) : (s.setReg c d v).pending = s.pending := rfl
@[simp] theorem State.setReg_freshCtr (c : Nat) (d : Reg) (v : BitVec 64) : (s.setReg c d v).freshCtr = s.freshCtr := rfl
@[simp] theorem State.setReg_ft (c : Nat) (d : Reg) (v : BitVec 64) : (s.setReg c d v).ft = s.ft := rfl
@[simp] theorem State.setReg_ftFrac (c : Nat) (d : Reg) (v : BitVec 64) : (s.setReg c d v).ftFrac = s.ftFrac := rfl
@[simp] theorem State.setReg_ftInc (c : Nat) (d : Reg) (v : BitVec 64) : (s.setReg c d v).ftInc = s.ftInc := rfl
@[simp] theorem State.setReg_objs (c : Nat) (d : Reg) (v : BitVec 64) : (s.setReg c d v).objs = s.objs := rfl
@[simp] theorem State.setReg_mem (c : Nat) (d : Reg) (v : BitVec 64) : (s.setReg c d v).mem = s.mem := rfl
@[simp] theorem State.setReg_bad (c : Nat) (d : Reg) (v : BitVec 64) : (s.setReg c d v).bad = s.bad := rfl
@[simp] theorem State.setReg_accBuf (c : Nat) (d : Reg) (v : BitVec 64) : (s.setReg c d v).accBuf = s.accBuf := rfl
@[simp] theorem State.setReg_parcels (c : Nat) (d : Reg) (v : BitVec 64) : (s.setReg c d v).parcels = s.parcels := rfl
@[simp] theorem State.setReg_firstInit (c : Nat) (d : Reg) (v : BitVec 64) : (s.setReg c d v).firstInit = s.firstInit := rfl
@[simp] theorem State.setReg_txq (c : Nat) (d : Reg) (v : BitVec 64) : (s.setReg c d v).txq = s.txq := rfl
@[simp] theorem State.setReg_standin (c : Nat) (d : Reg) (v : BitVec 64) : (s.setReg c d v).standin = s.standin := rfl
@[simp] theorem State.setReg_sw (c : Nat) (d : Reg) (v : BitVec 64) : (s.setReg c d v).sw = s.sw := rfl
@[simp] theorem State.setReg_inbox (c : Nat) (d : Reg) (v : BitVec 64) : (s.setReg c d v).inbox = s.inbox := rfl
@[simp] theorem State.setReg_links (c : Nat) (d : Reg) (v : BitVec 64) : (s.setReg c d v).links = s.links := rfl
@[simp] theorem State.setReg_stes (c : Nat) (d : Reg) (v : BitVec 64) : (s.setReg c d v).stes = s.stes := rfl
@[simp] theorem State.setReg_colls (c : Nat) (d : Reg) (v : BitVec 64) : (s.setReg c d v).colls = s.colls := rfl
@[simp] theorem State.setReg_groups (c : Nat) (d : Reg) (v : BitVec 64) : (s.setReg c d v).groups = s.groups := rfl
@[simp] theorem State.setReg_early (c : Nat) (d : Reg) (v : BitVec 64) : (s.setReg c d v).early = s.early := rfl
@[simp] theorem State.setReg_time (c : Nat) (d : Reg) (v : BitVec 64) : (s.setReg c d v).time = s.time := rfl
@[simp] theorem State.setReg_sealed (c : Nat) (d : Reg) (v : BitVec 64) : (s.setReg c d v).sealed = s.sealed := rfl
@[simp] theorem State.setReg_flash (c : Nat) (d : Reg) (v : BitVec 64) : (s.setReg c d v).flash = s.flash := rfl
@[simp] theorem State.setReg_flashLost (c : Nat) (d : Reg) (v : BitVec 64) : (s.setReg c d v).flashLost = s.flashLost := rfl
@[simp] theorem State.setReg_modules (c : Nat) (d : Reg) (v : BitVec 64) : (s.setReg c d v).modules = s.modules := rfl
@[simp] theorem State.setReg_env (c : Nat) (d : Reg) (v : BitVec 64) : (s.setReg c d v).env = s.env := rfl
@[simp] theorem State.setReg_power (c : Nat) (d : Reg) (v : BitVec 64) : (s.setReg c d v).power = s.power := rfl
@[simp] theorem State.setReg_sec (c : Nat) (d : Reg) (v : BitVec 64) : (s.setReg c d v).sec = s.sec := rfl
@[simp] theorem State.setReg_mgmt (c : Nat) (d : Reg) (v : BitVec 64) : (s.setReg c d v).mgmt = s.mgmt := rfl
@[simp] theorem State.setReg_dieClears (c : Nat) (d : Reg) (v : BitVec 64) : (s.setReg c d v).dieClears = s.dieClears := rfl
@[simp] theorem State.setReg_steClears (c : Nat) (d : Reg) (v : BitVec 64) : (s.setReg c d v).steClears = s.steClears := rfl
@[simp] theorem State.setReg_fatal (c : Nat) (d : Reg) (v : BitVec 64) : (s.setReg c d v).fatal = s.fatal := rfl
@[simp] theorem State.setReg_corrSeen (c : Nat) (d : Reg) (v : BitVec 64) : (s.setReg c d v).corrSeen = s.corrSeen := rfl
@[simp] theorem State.setReg_sent (c : Nat) (d : Reg) (v : BitVec 64) : (s.setReg c d v).sent = s.sent := rfl

/-! ### pokeByte -/

@[simp] theorem State.pokeByte_pending (k : Nat) (b : Byte) : (s.pokeByte k b).pending = s.pending := rfl
@[simp] theorem State.pokeByte_freshCtr (k : Nat) (b : Byte) : (s.pokeByte k b).freshCtr = s.freshCtr := rfl
@[simp] theorem State.pokeByte_ft (k : Nat) (b : Byte) : (s.pokeByte k b).ft = s.ft := rfl
@[simp] theorem State.pokeByte_ftFrac (k : Nat) (b : Byte) : (s.pokeByte k b).ftFrac = s.ftFrac := rfl
@[simp] theorem State.pokeByte_ftInc (k : Nat) (b : Byte) : (s.pokeByte k b).ftInc = s.ftInc := rfl
@[simp] theorem State.pokeByte_objs (k : Nat) (b : Byte) : (s.pokeByte k b).objs = s.objs := rfl
@[simp] theorem State.pokeByte_cores (k : Nat) (b : Byte) : (s.pokeByte k b).cores = s.cores := rfl
@[simp] theorem State.pokeByte_bad (k : Nat) (b : Byte) : (s.pokeByte k b).bad = s.bad := rfl
@[simp] theorem State.pokeByte_accBuf (k : Nat) (b : Byte) : (s.pokeByte k b).accBuf = s.accBuf := rfl
@[simp] theorem State.pokeByte_parcels (k : Nat) (b : Byte) : (s.pokeByte k b).parcels = s.parcels := rfl
@[simp] theorem State.pokeByte_firstInit (k : Nat) (b : Byte) : (s.pokeByte k b).firstInit = s.firstInit := rfl
@[simp] theorem State.pokeByte_txq (k : Nat) (b : Byte) : (s.pokeByte k b).txq = s.txq := rfl
@[simp] theorem State.pokeByte_standin (k : Nat) (b : Byte) : (s.pokeByte k b).standin = s.standin := rfl
@[simp] theorem State.pokeByte_sw (k : Nat) (b : Byte) : (s.pokeByte k b).sw = s.sw := rfl
@[simp] theorem State.pokeByte_inbox (k : Nat) (b : Byte) : (s.pokeByte k b).inbox = s.inbox := rfl
@[simp] theorem State.pokeByte_links (k : Nat) (b : Byte) : (s.pokeByte k b).links = s.links := rfl
@[simp] theorem State.pokeByte_stes (k : Nat) (b : Byte) : (s.pokeByte k b).stes = s.stes := rfl
@[simp] theorem State.pokeByte_colls (k : Nat) (b : Byte) : (s.pokeByte k b).colls = s.colls := rfl
@[simp] theorem State.pokeByte_groups (k : Nat) (b : Byte) : (s.pokeByte k b).groups = s.groups := rfl
@[simp] theorem State.pokeByte_early (k : Nat) (b : Byte) : (s.pokeByte k b).early = s.early := rfl
@[simp] theorem State.pokeByte_time (k : Nat) (b : Byte) : (s.pokeByte k b).time = s.time := rfl
@[simp] theorem State.pokeByte_sealed (k : Nat) (b : Byte) : (s.pokeByte k b).sealed = s.sealed := rfl
@[simp] theorem State.pokeByte_flash (k : Nat) (b : Byte) : (s.pokeByte k b).flash = s.flash := rfl
@[simp] theorem State.pokeByte_flashLost (k : Nat) (b : Byte) : (s.pokeByte k b).flashLost = s.flashLost := rfl
@[simp] theorem State.pokeByte_modules (k : Nat) (b : Byte) : (s.pokeByte k b).modules = s.modules := rfl
@[simp] theorem State.pokeByte_env (k : Nat) (b : Byte) : (s.pokeByte k b).env = s.env := rfl
@[simp] theorem State.pokeByte_power (k : Nat) (b : Byte) : (s.pokeByte k b).power = s.power := rfl
@[simp] theorem State.pokeByte_sec (k : Nat) (b : Byte) : (s.pokeByte k b).sec = s.sec := rfl
@[simp] theorem State.pokeByte_mgmt (k : Nat) (b : Byte) : (s.pokeByte k b).mgmt = s.mgmt := rfl
@[simp] theorem State.pokeByte_dieClears (k : Nat) (b : Byte) : (s.pokeByte k b).dieClears = s.dieClears := rfl
@[simp] theorem State.pokeByte_steClears (k : Nat) (b : Byte) : (s.pokeByte k b).steClears = s.steClears := rfl
@[simp] theorem State.pokeByte_fatal (k : Nat) (b : Byte) : (s.pokeByte k b).fatal = s.fatal := rfl
@[simp] theorem State.pokeByte_corrSeen (k : Nat) (b : Byte) : (s.pokeByte k b).corrSeen = s.corrSeen := rfl
@[simp] theorem State.pokeByte_sent (k : Nat) (b : Byte) : (s.pokeByte k b).sent = s.sent := rfl

/-! ### emit -/

@[simp] theorem State.emit_pending (x : Output) : (s.emit x).pending = s.pending := rfl
@[simp] theorem State.emit_freshCtr (x : Output) : (s.emit x).freshCtr = s.freshCtr := rfl
@[simp] theorem State.emit_ft (x : Output) : (s.emit x).ft = s.ft := rfl
@[simp] theorem State.emit_ftFrac (x : Output) : (s.emit x).ftFrac = s.ftFrac := rfl
@[simp] theorem State.emit_ftInc (x : Output) : (s.emit x).ftInc = s.ftInc := rfl
@[simp] theorem State.emit_objs (x : Output) : (s.emit x).objs = s.objs := rfl
@[simp] theorem State.emit_cores (x : Output) : (s.emit x).cores = s.cores := rfl
@[simp] theorem State.emit_mem (x : Output) : (s.emit x).mem = s.mem := rfl
@[simp] theorem State.emit_bad (x : Output) : (s.emit x).bad = s.bad := rfl
@[simp] theorem State.emit_accBuf (x : Output) : (s.emit x).accBuf = s.accBuf := rfl
@[simp] theorem State.emit_parcels (x : Output) : (s.emit x).parcels = s.parcels := rfl
@[simp] theorem State.emit_firstInit (x : Output) : (s.emit x).firstInit = s.firstInit := rfl
@[simp] theorem State.emit_txq (x : Output) : (s.emit x).txq = s.txq := rfl
@[simp] theorem State.emit_standin (x : Output) : (s.emit x).standin = s.standin := rfl
@[simp] theorem State.emit_sw (x : Output) : (s.emit x).sw = s.sw := rfl
@[simp] theorem State.emit_inbox (x : Output) : (s.emit x).inbox = s.inbox := rfl
@[simp] theorem State.emit_links (x : Output) : (s.emit x).links = s.links := rfl
@[simp] theorem State.emit_stes (x : Output) : (s.emit x).stes = s.stes := rfl
@[simp] theorem State.emit_colls (x : Output) : (s.emit x).colls = s.colls := rfl
@[simp] theorem State.emit_groups (x : Output) : (s.emit x).groups = s.groups := rfl
@[simp] theorem State.emit_early (x : Output) : (s.emit x).early = s.early := rfl
@[simp] theorem State.emit_time (x : Output) : (s.emit x).time = s.time := rfl
@[simp] theorem State.emit_sealed (x : Output) : (s.emit x).sealed = s.sealed := rfl
@[simp] theorem State.emit_flash (x : Output) : (s.emit x).flash = s.flash := rfl
@[simp] theorem State.emit_flashLost (x : Output) : (s.emit x).flashLost = s.flashLost := rfl
@[simp] theorem State.emit_modules (x : Output) : (s.emit x).modules = s.modules := rfl
@[simp] theorem State.emit_env (x : Output) : (s.emit x).env = s.env := rfl
@[simp] theorem State.emit_power (x : Output) : (s.emit x).power = s.power := rfl
@[simp] theorem State.emit_sec (x : Output) : (s.emit x).sec = s.sec := rfl
@[simp] theorem State.emit_mgmt (x : Output) : (s.emit x).mgmt = s.mgmt := rfl
@[simp] theorem State.emit_dieClears (x : Output) : (s.emit x).dieClears = s.dieClears := rfl
@[simp] theorem State.emit_steClears (x : Output) : (s.emit x).steClears = s.steClears := rfl
@[simp] theorem State.emit_fatal (x : Output) : (s.emit x).fatal = s.fatal := rfl
@[simp] theorem State.emit_corrSeen (x : Output) : (s.emit x).corrSeen = s.corrSeen := rfl

/-! ### addObj -/

@[simp] theorem State.addObj_pending (k : Nat) (n : Nat) : (s.addObj k n).pending = s.pending := by unfold State.addObj; split <;> rfl
@[simp] theorem State.addObj_freshCtr (k : Nat) (n : Nat) : (s.addObj k n).freshCtr = s.freshCtr := by unfold State.addObj; split <;> rfl
@[simp] theorem State.addObj_ft (k : Nat) (n : Nat) : (s.addObj k n).ft = s.ft := by unfold State.addObj; split <;> rfl
@[simp] theorem State.addObj_ftFrac (k : Nat) (n : Nat) : (s.addObj k n).ftFrac = s.ftFrac := by unfold State.addObj; split <;> rfl
@[simp] theorem State.addObj_ftInc (k : Nat) (n : Nat) : (s.addObj k n).ftInc = s.ftInc := by unfold State.addObj; split <;> rfl
@[simp] theorem State.addObj_cores (k : Nat) (n : Nat) : (s.addObj k n).cores = s.cores := by unfold State.addObj; split <;> rfl
@[simp] theorem State.addObj_mem (k : Nat) (n : Nat) : (s.addObj k n).mem = s.mem := by unfold State.addObj; split <;> rfl
@[simp] theorem State.addObj_bad (k : Nat) (n : Nat) : (s.addObj k n).bad = s.bad := by unfold State.addObj; split <;> rfl
@[simp] theorem State.addObj_accBuf (k : Nat) (n : Nat) : (s.addObj k n).accBuf = s.accBuf := by unfold State.addObj; split <;> rfl
@[simp] theorem State.addObj_parcels (k : Nat) (n : Nat) : (s.addObj k n).parcels = s.parcels := by unfold State.addObj; split <;> rfl
@[simp] theorem State.addObj_firstInit (k : Nat) (n : Nat) : (s.addObj k n).firstInit = s.firstInit := by unfold State.addObj; split <;> rfl
@[simp] theorem State.addObj_txq (k : Nat) (n : Nat) : (s.addObj k n).txq = s.txq := by unfold State.addObj; split <;> rfl
@[simp] theorem State.addObj_standin (k : Nat) (n : Nat) : (s.addObj k n).standin = s.standin := by unfold State.addObj; split <;> rfl
@[simp] theorem State.addObj_sw (k : Nat) (n : Nat) : (s.addObj k n).sw = s.sw := by unfold State.addObj; split <;> rfl
@[simp] theorem State.addObj_inbox (k : Nat) (n : Nat) : (s.addObj k n).inbox = s.inbox := by unfold State.addObj; split <;> rfl
@[simp] theorem State.addObj_links (k : Nat) (n : Nat) : (s.addObj k n).links = s.links := by unfold State.addObj; split <;> rfl
@[simp] theorem State.addObj_stes (k : Nat) (n : Nat) : (s.addObj k n).stes = s.stes := by unfold State.addObj; split <;> rfl
@[simp] theorem State.addObj_colls (k : Nat) (n : Nat) : (s.addObj k n).colls = s.colls := by unfold State.addObj; split <;> rfl
@[simp] theorem State.addObj_groups (k : Nat) (n : Nat) : (s.addObj k n).groups = s.groups := by unfold State.addObj; split <;> rfl
@[simp] theorem State.addObj_early (k : Nat) (n : Nat) : (s.addObj k n).early = s.early := by unfold State.addObj; split <;> rfl
@[simp] theorem State.addObj_time (k : Nat) (n : Nat) : (s.addObj k n).time = s.time := by unfold State.addObj; split <;> rfl
@[simp] theorem State.addObj_sealed (k : Nat) (n : Nat) : (s.addObj k n).sealed = s.sealed := by unfold State.addObj; split <;> rfl
@[simp] theorem State.addObj_flash (k : Nat) (n : Nat) : (s.addObj k n).flash = s.flash := by unfold State.addObj; split <;> rfl
@[simp] theorem State.addObj_flashLost (k : Nat) (n : Nat) : (s.addObj k n).flashLost = s.flashLost := by unfold State.addObj; split <;> rfl
@[simp] theorem State.addObj_modules (k : Nat) (n : Nat) : (s.addObj k n).modules = s.modules := by unfold State.addObj; split <;> rfl
@[simp] theorem State.addObj_env (k : Nat) (n : Nat) : (s.addObj k n).env = s.env := by unfold State.addObj; split <;> rfl
@[simp] theorem State.addObj_power (k : Nat) (n : Nat) : (s.addObj k n).power = s.power := by unfold State.addObj; split <;> rfl
@[simp] theorem State.addObj_sec (k : Nat) (n : Nat) : (s.addObj k n).sec = s.sec := by unfold State.addObj; split <;> rfl
@[simp] theorem State.addObj_mgmt (k : Nat) (n : Nat) : (s.addObj k n).mgmt = s.mgmt := by unfold State.addObj; split <;> rfl
@[simp] theorem State.addObj_dieClears (k : Nat) (n : Nat) : (s.addObj k n).dieClears = s.dieClears := by unfold State.addObj; split <;> rfl
@[simp] theorem State.addObj_steClears (k : Nat) (n : Nat) : (s.addObj k n).steClears = s.steClears := by unfold State.addObj; split <;> rfl
@[simp] theorem State.addObj_fatal (k : Nat) (n : Nat) : (s.addObj k n).fatal = s.fatal := by unfold State.addObj; split <;> rfl
@[simp] theorem State.addObj_corrSeen (k : Nat) (n : Nat) : (s.addObj k n).corrSeen = s.corrSeen := by unfold State.addObj; split <;> rfl
@[simp] theorem State.addObj_sent (k : Nat) (n : Nat) : (s.addObj k n).sent = s.sent := by unfold State.addObj; split <;> rfl

/-! ### bump -/

@[simp] theorem State.bump_pending (k : Nat) : (s.bump k).pending = s.pending := State.addObj_pending s k 1
@[simp] theorem State.bump_freshCtr (k : Nat) : (s.bump k).freshCtr = s.freshCtr := State.addObj_freshCtr s k 1
@[simp] theorem State.bump_ft (k : Nat) : (s.bump k).ft = s.ft := State.addObj_ft s k 1
@[simp] theorem State.bump_ftFrac (k : Nat) : (s.bump k).ftFrac = s.ftFrac := State.addObj_ftFrac s k 1
@[simp] theorem State.bump_ftInc (k : Nat) : (s.bump k).ftInc = s.ftInc := State.addObj_ftInc s k 1
@[simp] theorem State.bump_cores (k : Nat) : (s.bump k).cores = s.cores := State.addObj_cores s k 1
@[simp] theorem State.bump_mem (k : Nat) : (s.bump k).mem = s.mem := State.addObj_mem s k 1
@[simp] theorem State.bump_bad (k : Nat) : (s.bump k).bad = s.bad := State.addObj_bad s k 1
@[simp] theorem State.bump_accBuf (k : Nat) : (s.bump k).accBuf = s.accBuf := State.addObj_accBuf s k 1
@[simp] theorem State.bump_parcels (k : Nat) : (s.bump k).parcels = s.parcels := State.addObj_parcels s k 1
@[simp] theorem State.bump_firstInit (k : Nat) : (s.bump k).firstInit = s.firstInit := State.addObj_firstInit s k 1
@[simp] theorem State.bump_txq (k : Nat) : (s.bump k).txq = s.txq := State.addObj_txq s k 1
@[simp] theorem State.bump_standin (k : Nat) : (s.bump k).standin = s.standin := State.addObj_standin s k 1
@[simp] theorem State.bump_sw (k : Nat) : (s.bump k).sw = s.sw := State.addObj_sw s k 1
@[simp] theorem State.bump_inbox (k : Nat) : (s.bump k).inbox = s.inbox := State.addObj_inbox s k 1
@[simp] theorem State.bump_links (k : Nat) : (s.bump k).links = s.links := State.addObj_links s k 1
@[simp] theorem State.bump_stes (k : Nat) : (s.bump k).stes = s.stes := State.addObj_stes s k 1
@[simp] theorem State.bump_colls (k : Nat) : (s.bump k).colls = s.colls := State.addObj_colls s k 1
@[simp] theorem State.bump_groups (k : Nat) : (s.bump k).groups = s.groups := State.addObj_groups s k 1
@[simp] theorem State.bump_early (k : Nat) : (s.bump k).early = s.early := State.addObj_early s k 1
@[simp] theorem State.bump_time (k : Nat) : (s.bump k).time = s.time := State.addObj_time s k 1
@[simp] theorem State.bump_sealed (k : Nat) : (s.bump k).sealed = s.sealed := State.addObj_sealed s k 1
@[simp] theorem State.bump_flash (k : Nat) : (s.bump k).flash = s.flash := State.addObj_flash s k 1
@[simp] theorem State.bump_flashLost (k : Nat) : (s.bump k).flashLost = s.flashLost := State.addObj_flashLost s k 1
@[simp] theorem State.bump_modules (k : Nat) : (s.bump k).modules = s.modules := State.addObj_modules s k 1
@[simp] theorem State.bump_env (k : Nat) : (s.bump k).env = s.env := State.addObj_env s k 1
@[simp] theorem State.bump_power (k : Nat) : (s.bump k).power = s.power := State.addObj_power s k 1
@[simp] theorem State.bump_sec (k : Nat) : (s.bump k).sec = s.sec := State.addObj_sec s k 1
@[simp] theorem State.bump_mgmt (k : Nat) : (s.bump k).mgmt = s.mgmt := State.addObj_mgmt s k 1
@[simp] theorem State.bump_dieClears (k : Nat) : (s.bump k).dieClears = s.dieClears := State.addObj_dieClears s k 1
@[simp] theorem State.bump_steClears (k : Nat) : (s.bump k).steClears = s.steClears := State.addObj_steClears s k 1
@[simp] theorem State.bump_fatal (k : Nat) : (s.bump k).fatal = s.fatal := State.addObj_fatal s k 1
@[simp] theorem State.bump_corrSeen (k : Nat) : (s.bump k).corrSeen = s.corrSeen := State.addObj_corrSeen s k 1
@[simp] theorem State.bump_sent (k : Nat) : (s.bump k).sent = s.sent := State.addObj_sent s k 1

/-! ### advanceTo -/

@[simp] theorem State.advanceTo_pending (t : Nat) : (s.advanceTo t).pending = s.pending := by unfold State.advanceTo; split <;> rfl
@[simp] theorem State.advanceTo_freshCtr (t : Nat) : (s.advanceTo t).freshCtr = s.freshCtr := by unfold State.advanceTo; split <;> rfl
@[simp] theorem State.advanceTo_ftFrac (t : Nat) : (s.advanceTo t).ftFrac = s.ftFrac := by unfold State.advanceTo; split <;> rfl
@[simp] theorem State.advanceTo_ftInc (t : Nat) : (s.advanceTo t).ftInc = s.ftInc := by unfold State.advanceTo; split <;> rfl
@[simp] theorem State.advanceTo_objs (t : Nat) : (s.advanceTo t).objs = s.objs := by unfold State.advanceTo; split <;> rfl
@[simp] theorem State.advanceTo_cores (t : Nat) : (s.advanceTo t).cores = s.cores := by unfold State.advanceTo; split <;> rfl
@[simp] theorem State.advanceTo_mem (t : Nat) : (s.advanceTo t).mem = s.mem := by unfold State.advanceTo; split <;> rfl
@[simp] theorem State.advanceTo_bad (t : Nat) : (s.advanceTo t).bad = s.bad := by unfold State.advanceTo; split <;> rfl
@[simp] theorem State.advanceTo_accBuf (t : Nat) : (s.advanceTo t).accBuf = s.accBuf := by unfold State.advanceTo; split <;> rfl
@[simp] theorem State.advanceTo_parcels (t : Nat) : (s.advanceTo t).parcels = s.parcels := by unfold State.advanceTo; split <;> rfl
@[simp] theorem State.advanceTo_firstInit (t : Nat) : (s.advanceTo t).firstInit = s.firstInit := by unfold State.advanceTo; split <;> rfl
@[simp] theorem State.advanceTo_txq (t : Nat) : (s.advanceTo t).txq = s.txq := by unfold State.advanceTo; split <;> rfl
@[simp] theorem State.advanceTo_standin (t : Nat) : (s.advanceTo t).standin = s.standin := by unfold State.advanceTo; split <;> rfl
@[simp] theorem State.advanceTo_sw (t : Nat) : (s.advanceTo t).sw = s.sw := by unfold State.advanceTo; split <;> rfl
@[simp] theorem State.advanceTo_inbox (t : Nat) : (s.advanceTo t).inbox = s.inbox := by unfold State.advanceTo; split <;> rfl
@[simp] theorem State.advanceTo_links (t : Nat) : (s.advanceTo t).links = s.links := by unfold State.advanceTo; split <;> rfl
@[simp] theorem State.advanceTo_stes (t : Nat) : (s.advanceTo t).stes = s.stes := by unfold State.advanceTo; split <;> rfl
@[simp] theorem State.advanceTo_colls (t : Nat) : (s.advanceTo t).colls = s.colls := by unfold State.advanceTo; split <;> rfl
@[simp] theorem State.advanceTo_groups (t : Nat) : (s.advanceTo t).groups = s.groups := by unfold State.advanceTo; split <;> rfl
@[simp] theorem State.advanceTo_early (t : Nat) : (s.advanceTo t).early = s.early := by unfold State.advanceTo; split <;> rfl
@[simp] theorem State.advanceTo_time (t : Nat) : (s.advanceTo t).time = s.time := by unfold State.advanceTo; split <;> rfl
@[simp] theorem State.advanceTo_sealed (t : Nat) : (s.advanceTo t).sealed = s.sealed := by unfold State.advanceTo; split <;> rfl
@[simp] theorem State.advanceTo_flash (t : Nat) : (s.advanceTo t).flash = s.flash := by unfold State.advanceTo; split <;> rfl
@[simp] theorem State.advanceTo_flashLost (t : Nat) : (s.advanceTo t).flashLost = s.flashLost := by unfold State.advanceTo; split <;> rfl
@[simp] theorem State.advanceTo_modules (t : Nat) : (s.advanceTo t).modules = s.modules := by unfold State.advanceTo; split <;> rfl
@[simp] theorem State.advanceTo_env (t : Nat) : (s.advanceTo t).env = s.env := by unfold State.advanceTo; split <;> rfl
@[simp] theorem State.advanceTo_power (t : Nat) : (s.advanceTo t).power = s.power := by unfold State.advanceTo; split <;> rfl
@[simp] theorem State.advanceTo_sec (t : Nat) : (s.advanceTo t).sec = s.sec := by unfold State.advanceTo; split <;> rfl
@[simp] theorem State.advanceTo_mgmt (t : Nat) : (s.advanceTo t).mgmt = s.mgmt := by unfold State.advanceTo; split <;> rfl
@[simp] theorem State.advanceTo_dieClears (t : Nat) : (s.advanceTo t).dieClears = s.dieClears := by unfold State.advanceTo; split <;> rfl
@[simp] theorem State.advanceTo_steClears (t : Nat) : (s.advanceTo t).steClears = s.steClears := by unfold State.advanceTo; split <;> rfl
@[simp] theorem State.advanceTo_fatal (t : Nat) : (s.advanceTo t).fatal = s.fatal := by unfold State.advanceTo; split <;> rfl
@[simp] theorem State.advanceTo_corrSeen (t : Nat) : (s.advanceTo t).corrSeen = s.corrSeen := by unfold State.advanceTo; split <;> rfl
@[simp] theorem State.advanceTo_sent (t : Nat) : (s.advanceTo t).sent = s.sent := by unfold State.advanceTo; split <;> rfl

/-! ### Fields after the bytes of a store -/

@[simp] theorem State.writeBytes_pending (a : Nat) (bs : Bytes) : (s.writeBytes a bs).pending = s.pending := by
  induction bs generalizing s a with
  | nil => rfl
  | cons b bs ih => exact ih _ _
@[simp] theorem State.writeBytes_freshCtr (a : Nat) (bs : Bytes) : (s.writeBytes a bs).freshCtr = s.freshCtr := by
  induction bs generalizing s a with
  | nil => rfl
  | cons b bs ih => exact ih _ _
@[simp] theorem State.writeBytes_ft (a : Nat) (bs : Bytes) : (s.writeBytes a bs).ft = s.ft := by
  induction bs generalizing s a with
  | nil => rfl
  | cons b bs ih => exact ih _ _
@[simp] theorem State.writeBytes_ftFrac (a : Nat) (bs : Bytes) : (s.writeBytes a bs).ftFrac = s.ftFrac := by
  induction bs generalizing s a with
  | nil => rfl
  | cons b bs ih => exact ih _ _
@[simp] theorem State.writeBytes_ftInc (a : Nat) (bs : Bytes) : (s.writeBytes a bs).ftInc = s.ftInc := by
  induction bs generalizing s a with
  | nil => rfl
  | cons b bs ih => exact ih _ _
@[simp] theorem State.writeBytes_objs (a : Nat) (bs : Bytes) : (s.writeBytes a bs).objs = s.objs := by
  induction bs generalizing s a with
  | nil => rfl
  | cons b bs ih => exact ih _ _
@[simp] theorem State.writeBytes_cores (a : Nat) (bs : Bytes) : (s.writeBytes a bs).cores = s.cores := by
  induction bs generalizing s a with
  | nil => rfl
  | cons b bs ih => exact ih _ _
@[simp] theorem State.writeBytes_bad (a : Nat) (bs : Bytes) : (s.writeBytes a bs).bad = s.bad := by
  induction bs generalizing s a with
  | nil => rfl
  | cons b bs ih => exact ih _ _
@[simp] theorem State.writeBytes_accBuf (a : Nat) (bs : Bytes) : (s.writeBytes a bs).accBuf = s.accBuf := by
  induction bs generalizing s a with
  | nil => rfl
  | cons b bs ih => exact ih _ _
@[simp] theorem State.writeBytes_parcels (a : Nat) (bs : Bytes) : (s.writeBytes a bs).parcels = s.parcels := by
  induction bs generalizing s a with
  | nil => rfl
  | cons b bs ih => exact ih _ _
@[simp] theorem State.writeBytes_firstInit (a : Nat) (bs : Bytes) : (s.writeBytes a bs).firstInit = s.firstInit := by
  induction bs generalizing s a with
  | nil => rfl
  | cons b bs ih => exact ih _ _
@[simp] theorem State.writeBytes_txq (a : Nat) (bs : Bytes) : (s.writeBytes a bs).txq = s.txq := by
  induction bs generalizing s a with
  | nil => rfl
  | cons b bs ih => exact ih _ _
@[simp] theorem State.writeBytes_standin (a : Nat) (bs : Bytes) : (s.writeBytes a bs).standin = s.standin := by
  induction bs generalizing s a with
  | nil => rfl
  | cons b bs ih => exact ih _ _
@[simp] theorem State.writeBytes_sw (a : Nat) (bs : Bytes) : (s.writeBytes a bs).sw = s.sw := by
  induction bs generalizing s a with
  | nil => rfl
  | cons b bs ih => exact ih _ _
@[simp] theorem State.writeBytes_inbox (a : Nat) (bs : Bytes) : (s.writeBytes a bs).inbox = s.inbox := by
  induction bs generalizing s a with
  | nil => rfl
  | cons b bs ih => exact ih _ _
@[simp] theorem State.writeBytes_links (a : Nat) (bs : Bytes) : (s.writeBytes a bs).links = s.links := by
  induction bs generalizing s a with
  | nil => rfl
  | cons b bs ih => exact ih _ _
@[simp] theorem State.writeBytes_stes (a : Nat) (bs : Bytes) : (s.writeBytes a bs).stes = s.stes := by
  induction bs generalizing s a with
  | nil => rfl
  | cons b bs ih => exact ih _ _
@[simp] theorem State.writeBytes_colls (a : Nat) (bs : Bytes) : (s.writeBytes a bs).colls = s.colls := by
  induction bs generalizing s a with
  | nil => rfl
  | cons b bs ih => exact ih _ _
@[simp] theorem State.writeBytes_groups (a : Nat) (bs : Bytes) : (s.writeBytes a bs).groups = s.groups := by
  induction bs generalizing s a with
  | nil => rfl
  | cons b bs ih => exact ih _ _
@[simp] theorem State.writeBytes_early (a : Nat) (bs : Bytes) : (s.writeBytes a bs).early = s.early := by
  induction bs generalizing s a with
  | nil => rfl
  | cons b bs ih => exact ih _ _
@[simp] theorem State.writeBytes_time (a : Nat) (bs : Bytes) : (s.writeBytes a bs).time = s.time := by
  induction bs generalizing s a with
  | nil => rfl
  | cons b bs ih => exact ih _ _
@[simp] theorem State.writeBytes_sealed (a : Nat) (bs : Bytes) : (s.writeBytes a bs).sealed = s.sealed := by
  induction bs generalizing s a with
  | nil => rfl
  | cons b bs ih => exact ih _ _
@[simp] theorem State.writeBytes_flash (a : Nat) (bs : Bytes) : (s.writeBytes a bs).flash = s.flash := by
  induction bs generalizing s a with
  | nil => rfl
  | cons b bs ih => exact ih _ _
@[simp] theorem State.writeBytes_flashLost (a : Nat) (bs : Bytes) : (s.writeBytes a bs).flashLost = s.flashLost := by
  induction bs generalizing s a with
  | nil => rfl
  | cons b bs ih => exact ih _ _
@[simp] theorem State.writeBytes_modules (a : Nat) (bs : Bytes) : (s.writeBytes a bs).modules = s.modules := by
  induction bs generalizing s a with
  | nil => rfl
  | cons b bs ih => exact ih _ _
@[simp] theorem State.writeBytes_env (a : Nat) (bs : Bytes) : (s.writeBytes a bs).env = s.env := by
  induction bs generalizing s a with
  | nil => rfl
  | cons b bs ih => exact ih _ _
@[simp] theorem State.writeBytes_power (a : Nat) (bs : Bytes) : (s.writeBytes a bs).power = s.power := by
  induction bs generalizing s a with
  | nil => rfl
  | cons b bs ih => exact ih _ _
@[simp] theorem State.writeBytes_sec (a : Nat) (bs : Bytes) : (s.writeBytes a bs).sec = s.sec := by
  induction bs generalizing s a with
  | nil => rfl
  | cons b bs ih => exact ih _ _
@[simp] theorem State.writeBytes_mgmt (a : Nat) (bs : Bytes) : (s.writeBytes a bs).mgmt = s.mgmt := by
  induction bs generalizing s a with
  | nil => rfl
  | cons b bs ih => exact ih _ _
@[simp] theorem State.writeBytes_dieClears (a : Nat) (bs : Bytes) : (s.writeBytes a bs).dieClears = s.dieClears := by
  induction bs generalizing s a with
  | nil => rfl
  | cons b bs ih => exact ih _ _
@[simp] theorem State.writeBytes_steClears (a : Nat) (bs : Bytes) : (s.writeBytes a bs).steClears = s.steClears := by
  induction bs generalizing s a with
  | nil => rfl
  | cons b bs ih => exact ih _ _
@[simp] theorem State.writeBytes_fatal (a : Nat) (bs : Bytes) : (s.writeBytes a bs).fatal = s.fatal := by
  induction bs generalizing s a with
  | nil => rfl
  | cons b bs ih => exact ih _ _
@[simp] theorem State.writeBytes_corrSeen (a : Nat) (bs : Bytes) : (s.writeBytes a bs).corrSeen = s.corrSeen := by
  induction bs generalizing s a with
  | nil => rfl
  | cons b bs ih => exact ih _ _
@[simp] theorem State.writeBytes_sent (a : Nat) (bs : Bytes) : (s.writeBytes a bs).sent = s.sent := by
  induction bs generalizing s a with
  | nil => rfl
  | cons b bs ih => exact ih _ _

/-! ### Values -/

@[simp] theorem State.obj_setObj_same (k v : Nat) : (s.setObj k v).obj k = v := Sparse.get_set_same

theorem State.obj_setObj_other {k j : Nat} (v : Nat) (h : j ≠ k) : (s.setObj k v).obj j = s.obj j := Sparse.get_set_other' h

theorem State.obj_setObj (k j v : Nat) : (s.setObj k v).obj j = if j = k then v else s.obj j := by
  split
  · subst_vars; simp
  · exact State.obj_setObj_other s v ‹_›

@[simp] theorem State.obj_setCore (c : Nat) (k : Core) (j : Nat) : (s.setCore c k).obj j = s.obj j := rfl
@[simp] theorem State.obj_modCore (c : Nat) (f : Core → Core) (j : Nat) : (s.modCore c f).obj j = s.obj j := rfl
@[simp] theorem State.obj_setReg (c : Nat) (d : Reg) (v : BitVec 64) (j : Nat) : (s.setReg c d v).obj j = s.obj j := rfl
@[simp] theorem State.obj_pokeByte (k : Nat) (b : Byte) (j : Nat) : (s.pokeByte k b).obj j = s.obj j := rfl
@[simp] theorem State.obj_emit (x : Output) (j : Nat) : (s.emit x).obj j = s.obj j := rfl
@[simp] theorem State.obj_advanceTo (t j : Nat) : (s.advanceTo t).obj j = s.obj j := by unfold State.advanceTo; split <;> rfl
@[simp] theorem State.obj_writeBytes (a : Nat) (bs : Bytes) (j : Nat) : (s.writeBytes a bs).obj j = s.obj j := by simp [State.obj]

theorem State.obj_addObj_same {k n : Nat} (h : n ≠ 0) : (s.addObj k n).obj k = satN (objBits k) (s.obj k + n) := by
  simp [State.addObj, h]

theorem State.obj_addObj_other {k j : Nat} (n : Nat) (h : j ≠ k) : (s.addObj k n).obj j = s.obj j := by
  unfold State.addObj; split
  · rfl
  · exact State.obj_setObj_other s _ h

@[simp] theorem State.obj_bump_same (k : Nat) : (s.bump k).obj k = satN (objBits k) (s.obj k + 1) := State.obj_addObj_same s (by decide)

theorem State.obj_bump_other {k j : Nat} (h : j ≠ k) : (s.bump k).obj j = s.obj j := State.obj_addObj_other s 1 h

/-! ### Cores -/

@[simp] theorem State.core_setCore_same (c : Nat) (k : Core) : (s.setCore c k).core c = k := Sparse.get_set_same

theorem State.core_setCore_other {c x : Nat} (k : Core) (h : x ≠ c) : (s.setCore c k).core x = s.core x := Sparse.get_set_other h

@[simp] theorem State.core_modCore_same (c : Nat) (f : Core → Core) : (s.modCore c f).core c = f (s.core c) := Sparse.get_set_same

theorem State.core_modCore_other {c x : Nat} (f : Core → Core) (h : x ≠ c) : (s.modCore c f).core x = s.core x := Sparse.get_set_other h

@[simp] theorem State.core_setObj (k v c : Nat) : (s.setObj k v).core c = s.core c := rfl
@[simp] theorem State.core_addObj (k n c : Nat) : (s.addObj k n).core c = s.core c := by simp [State.core]
@[simp] theorem State.core_bump (k c : Nat) : (s.bump k).core c = s.core c := by simp [State.core]
@[simp] theorem State.core_pokeByte (k : Nat) (b : Byte) (c : Nat) : (s.pokeByte k b).core c = s.core c := rfl
@[simp] theorem State.core_emit (x : Output) (c : Nat) : (s.emit x).core c = s.core c := rfl
@[simp] theorem State.core_advanceTo (t c : Nat) : (s.advanceTo t).core c = s.core c := by simp [State.core]
@[simp] theorem State.core_writeBytes (a : Nat) (bs : Bytes) (c : Nat) : (s.writeBytes a bs).core c = s.core c := by simp [State.core]

@[simp] theorem State.core_setReg_same (c : Nat) (d : Reg) (v : BitVec 64) : (s.setReg c d v).core c = (s.core c).setReg d v :=
  State.core_modCore_same s c _

theorem State.core_setReg_other {c x : Nat} (d : Reg) (v : BitVec 64) (h : x ≠ c) : (s.setReg c d v).core x = s.core x :=
  State.core_modCore_other s _ h

/-! ### Registers and flags (R72, R83) -/

theorem Core.reg_setReg_same (k : Core) (d : Reg) (v : BitVec 64) : (k.setReg d v).reg d = if d = 0 then 0 else v := by
  unfold Core.setReg Core.reg; split <;> simp_all

theorem Core.reg_setReg_other (k : Core) {d r : Reg} (v : BitVec 64) (h : r ≠ d) : (k.setReg d v).reg r = k.reg r := by
  unfold Core.setReg Core.reg
  split
  · rfl
  · split
    · rfl
    · exact Sparse.get_set_other (fun e => h (Fin.ext e))

@[simp] theorem Core.reg_zero (k : Core) : k.reg 0 = 0 := rfl

@[simp] theorem Core.flag_setFlag_same (k : Core) (f : Flag) (v : BitVec 32) : (k.setFlag f v).flag f = v := Sparse.get_set_same

theorem Core.flag_setFlag_other (k : Core) {f g : Flag} (v : BitVec 32) (h : g ≠ f) : (k.setFlag f v).flag g = k.flag g :=
  Sparse.get_set_other (fun e => h (Fin.ext e))

@[simp] theorem Core.flag_setReg (k : Core) (d : Reg) (v : BitVec 64) (f : Flag) : (k.setReg d v).flag f = k.flag f := by
  unfold Core.setReg; split <;> rfl

/-! ### Free values and time -/

@[simp] theorem State.fresh_fst : s.fresh.1 = Config.freeNat s.freshCtr := rfl
@[simp] theorem State.fresh_snd_freshCtr : s.fresh.2.freshCtr = s.freshCtr + 1 := rfl
@[simp] theorem State.obj_fresh (k : Nat) : s.fresh.2.obj k = s.obj k := rfl
@[simp] theorem State.core_fresh (c : Nat) : s.fresh.2.core c = s.core c := rfl

theorem State.now_advanceTo {t : Nat} (h : t < 2 ^ 64) : (s.advanceTo t).now = max s.now t := by
  unfold State.advanceTo State.now
  split
  · rename_i g
    rw [BitVec.toNat_ofNat, Nat.mod_eq_of_lt h, max_eq_right (le_of_lt g.1)]
  · rename_i g
    have : t ≤ s.ft.toNat := by
      by_contra c
      exact g ⟨by omega, h⟩
    rw [max_eq_left this]

theorem State.now_le_advanceTo (t : Nat) : s.now ≤ (s.advanceTo t).now := by
  by_cases h : t < 2 ^ 64
  · rw [State.now_advanceTo s h]; exact le_max_left _ _
  · unfold State.advanceTo; rw [if_neg (by omega)]

/-! ### Memory (R157) -/

/-- An address that is its own direct location: within the 44 bits and in no shard window. -/
theorem State.resolve_direct (w : Bool) {a : Nat} (h : isWindow a = false) : s.resolve w a = a % 2 ^ 44 := by
  simp [State.resolve, h]

theorem isWindow_sram {a : Nat} (h : a < 2 ^ 41) : isWindow a = false := by
  have : addrSpace a = 0 := by
    simp only [addrSpace, field, Nat.shiftRight_eq_div_pow, Nat.div_eq_of_lt h, Nat.zero_mod]
  simp [isWindow, this]

theorem State.resolve_sram (w : Bool) {a : Nat} (h : a < 2 ^ 41) : s.resolve w a = a := by
  rw [State.resolve_direct s w (isWindow_sram h), Nat.mod_eq_of_lt (lt_of_lt_of_le h (by norm_num))]

theorem State.mem_pokeByte (k : Nat) (b : Byte) (x : Nat) : Sparse.get 0 (s.pokeByte k b).mem x = if x = k then b else Sparse.get 0 s.mem x :=
  Sparse.get_set

/-- A location after the bytes of a store in SRAM. -/
theorem State.mem_writeBytes_sram (a : Nat) (bs : Bytes) (h : a + bs.length ≤ 2 ^ 41) (x : Nat) :
    Sparse.get 0 (s.writeBytes a bs).mem x = if a ≤ x ∧ x < a + bs.length then bs.getD (x - a) 0 else Sparse.get 0 s.mem x := by
  induction bs generalizing s a with
  | nil => simp [State.writeBytes]
  | cons b bs ih =>
    simp only [List.length_cons] at h
    rw [State.writeBytes, ih _ _ (by omega), State.resolve_sram s true (by omega), State.mem_pokeByte]
    simp only [List.length_cons]
    by_cases e : x = a
    · subst e; simp
    · rw [if_neg e]
      by_cases g : a + 1 ≤ x ∧ x < a + 1 + bs.length
      · rw [if_pos g, if_pos (by omega), show x - a = (x - (a + 1)) + 1 by omega, List.getD_cons_succ]
      · rw [if_neg g, if_neg (by omega)]

end Sys2Proof.Machine
end

