-- ==== Sys2Proof/Laws/Core.lean ====
section
/-! SUPPORT. What the shared operations of a core do, each said once: the issue of a control operation, its count, the checks of
operands, and what holds a core. -/

namespace Sys2Proof.Machine

/-! ### Checks -/

@[simp] theorem need_true (n : Nat) : need true n = [] := rfl
@[simp] theorem need_false (n : Nat) : need false n = [n] := rfl

theorem flagCheck_ok {routine : Bool} {f : Flag} (h : routine = true ∨ f.val < 240) : flagCheck routine f = [] := by
  unfold flagCheck; rcases h with h | h <;> simp [h]

theorem flagCheck_reserved {f : Flag} (h : 240 ≤ f.val) : flagCheck false f = [fFlagReserved] := by
  unfold flagCheck; simp [Nat.not_lt.mpr h]

theorem sramCheck_ok {a n al : Nat} (h : a + n ≤ 2 ^ 21) (g : a % al = 0) : sramCheck a n al = [] := by
  unfold sramCheck; rw [decide_eq_true h, decide_eq_true g]; rfl

/-! ### The core objects -/

theorem indexRows_core {i : Nat} (h : 0x6800 ≤ i) (g : i < 0x6800 + 1152) : indexRows i = some rows_core := by
  unfold indexRows
  rw [if_neg (by omega), if_neg (by omega), if_pos (by omega), if_neg (by omega), if_neg (by omega), if_neg (by omega),
    if_neg (by omega), if_neg (by omega), if_neg (by omega), if_neg (by omega), if_neg (by omega), if_neg (by omega),
    if_neg (by omega), if_pos (by omega)]

theorem objKey_idx {i j : Nat} (h : j < 256) : objKey i j / 256 = i := by unfold objKey; omega
theorem objKey_sub {i j : Nat} (h : j < 256) : objKey i j % 256 = j := by unfold objKey; omega

theorem objRow_core (c : CoreId) {j : Nat} (h : j ≠ 0) :
    objRow (0x6800 + c.val) j = rows_core.find? (fun r => decide (r.lo ≤ j ∧ j < r.lo + r.n)) := by
  have := c.isLt
  unfold objRow
  rw [if_neg (by omega), if_neg (by omega), if_neg (by omega), if_neg (by omega), indexRows_core (by omega) (by omega)]
  simp [h]

theorem objBits_OPS_ISSUED (c : CoreId) : objBits (Obj.core_OPS_ISSUED c.val) = 64 := by
  unfold objBits Obj.core_OPS_ISSUED
  rw [objKey_idx (by decide), objKey_sub (by decide), objRow_core c (by decide)]
  rfl

theorem objBits_LATE_SLOT (c : CoreId) : objBits (Obj.core_LATE_SLOT c.val) = 32 := by
  unfold objBits Obj.core_LATE_SLOT
  rw [objKey_idx (by decide), objKey_sub (by decide), objRow_core c (by decide)]
  rfl

theorem objBits_NESTED_FAULTS (c : CoreId) : objBits (Obj.core_NESTED_FAULTS c.val) = 32 := by
  unfold objBits Obj.core_NESTED_FAULTS
  rw [objKey_idx (by decide), objKey_sub (by decide), objRow_core c (by decide)]
  rfl

theorem satN_eq_min (w n : Nat) : satN w n = min (2 ^ w - 1) n := by
  rw [Nat.min_comm]; exact rfl

/-! ### A core that issues -/

section
variable {s : State} {c : Nat} {routine : Bool}

theorem State.issues_hold (h : s.issues c routine = true) : (s.core c).hold = .none := by
  unfold State.issues at h; simp at h; exact h.1.1

theorem State.issues_stopped (h : s.issues c routine = true) : (s.core c).stopped = false := by
  unfold State.issues at h; simp at h; exact h.1.2

theorem State.issues_state (h : s.issues c routine = true) : s.coreState c = if routine then 4 else 1 := by
  unfold State.issues at h; simpa using And.right (by simpa using h)

/-- A control operation that is fetched and passes its checks has its effect on the state in which it was counted. -/
theorem State.control_next {t : State} {faults : List Nat} {eff : State → State} (h : s.issues c routine = true)
    (hf : s.fetch c routine = (t, none)) (g : faults = []) : s.control c routine faults eff = eff (t.issued c routine) := by
  subst g; simp [State.control, h, hf, lowest]

/-- A control operation that is fetched and fails a check faults with the lowest code. -/
theorem State.control_fault {t : State} {faults : List Nat} {eff : State → State} {code : Nat} (h : s.issues c routine = true)
    (hf : s.fetch c routine = (t, none)) (g : lowest faults = some code) :
    s.control c routine faults eff = t.coreFaultWith c 0 code (t.obj (Obj.core_OPS_ISSUED c)) none 0 := by
  simp only [State.control, h, hf, if_true, g]; rfl

/-- A control operation whose fetch meets an uncorrectable error faults with ICACHE_FAULT. -/
theorem State.control_fetch_fault {t : State} {k : Nat} {faults : List Nat} {eff : State → State} (h : s.issues c routine = true)
    (hf : s.fetch c routine = (t, some k)) :
    s.control c routine faults eff = (t.memUncorrected k).coreFault c 0 fIcacheFault (t.opsIssued c) := by
  simp only [State.control, h, hf, if_true]

end

section
variable (s : State) (c : Nat) (routine : Bool)

@[simp] theorem State.core_issued : (s.issued c routine).core c = (s.core c).moved routine := by
  unfold State.issued Core.moved Core.nextPos
  rw [State.core_modCore_same, State.core_bump]
  cases routine <;> rfl

theorem State.core_issued_other {b : Nat} (h : b ≠ c) : (s.issued c routine).core b = s.core b := by
  unfold State.issued; rw [State.core_modCore_other _ _ h, State.core_bump]

theorem State.obj_issued (k : Nat) : (s.issued c routine).obj k = (s.bump (Obj.core_OPS_ISSUED c)).obj k := rfl

theorem State.obj_issued_other {k : Nat} (h : k ≠ Obj.core_OPS_ISSUED c) : (s.issued c routine).obj k = s.obj k := by
  rw [State.obj_issued, State.obj_bump_other _ h]

theorem State.obj_issued_same (c : CoreId) :
    (s.issued c routine).obj (Obj.core_OPS_ISSUED c) = min (2 ^ 64 - 1) (s.obj (Obj.core_OPS_ISSUED c) + 1) := by
  rw [State.obj_issued, State.obj_bump_same, objBits_OPS_ISSUED, satN_eq_min]

@[simp] theorem State.mem_issued : (s.issued c routine).mem = s.mem := by simp [State.issued]
@[simp] theorem State.freshCtr_issued : (s.issued c routine).freshCtr = s.freshCtr := by simp [State.issued]
@[simp] theorem State.now_issued : (s.issued c routine).now = s.now := by simp [State.issued, State.now]

/-- Issue changes the dictionary and the cores only. -/
theorem State.issued_only : { s.issued c routine with objs := s.objs, cores := s.cores } = s := by
  cases s; simp [State.issued, State.bump, State.addObj, State.setObj, State.modCore, State.setCore]

theorem OnlyCore.issued : OnlyCore c [Obj.core_OPS_ISSUED c] s (s.issued c routine) :=
  ⟨s.issued_only c routine, fun k h => s.obj_issued_other c routine (by simpa using h), fun b h => s.core_issued_other c routine h⟩

theorem Issued.issued (c : CoreId) : Issued c [] s (s.issued c routine) :=
  ⟨OnlyCore.issued s c routine, s.obj_issued_same routine c⟩

end

/-! ### Further changes of the same core -/

theorem OnlyCore.modCore {c : Nat} {ks : List Nat} {s t : State} (h : OnlyCore c ks s t) (f : Core → Core) :
    OnlyCore c ks s (t.modCore c f) :=
  ⟨h.1, h.2.1, fun b e => by rw [State.core_modCore_other _ _ e, h.2.2 b e]⟩

theorem OnlyCore.setCore {c : Nat} {ks : List Nat} {s t : State} (h : OnlyCore c ks s t) (k : Core) : OnlyCore c ks s (t.setCore c k) :=
  h.modCore (fun _ => k)

theorem OnlyCore.setObj {c : Nat} {ks : List Nat} {s t : State} (h : OnlyCore c ks s t) {k : Nat} (v : Nat) (g : k ∈ ks) :
    OnlyCore c ks s (t.setObj k v) :=
  ⟨h.1, fun j e => by rw [State.obj_setObj_other _ v (fun x => e (by rw [x]; exact g)), h.2.1 j e], h.2.2⟩

theorem OnlyCore.addObj {c : Nat} {ks : List Nat} {s t : State} (h : OnlyCore c ks s t) {k : Nat} (n : Nat) (g : k ∈ ks) :
    OnlyCore c ks s (t.addObj k n) := by
  unfold State.addObj; split
  · exact h
  · exact h.setObj _ g

theorem OnlyCore.mono {c : Nat} {ks ls : List Nat} {s t : State} (h : OnlyCore c ks s t) (g : ∀ k, k ∈ ks → k ∈ ls) : OnlyCore c ls s t :=
  ⟨h.1, fun k e => h.2.1 k (fun x => e (g k x)), h.2.2⟩

theorem Issued.modCore {c : Nat} {ks : List Nat} {s t : State} (h : Issued c ks s t) (f : Core → Core) : Issued c ks s (t.modCore c f) :=
  ⟨h.1.modCore f, h.2⟩

theorem Issued.setCore {c : Nat} {ks : List Nat} {s t : State} (h : Issued c ks s t) (k : Core) : Issued c ks s (t.setCore c k) :=
  ⟨h.1.setCore k, h.2⟩

theorem Issued.setReg {c : Nat} {ks : List Nat} {s t : State} (h : Issued c ks s t) (d : Reg) (v : BitVec 64) :
    Issued c ks s (t.setReg c d v) := h.modCore _

theorem Issued.mono {c : Nat} {ks ls : List Nat} {s t : State} (h : Issued c ks s t) (g : ∀ k, k ∈ ks → k ∈ ls) : Issued c ls s t :=
  ⟨h.1.mono (by intro k e; simp only [List.mem_cons] at *; exact e.imp id (g k)), h.2⟩

theorem Issued.setObj {c : Nat} {ks : List Nat} {s t : State} (h : Issued c ks s t) {k : Nat} (v : Nat) (g : k ∈ ks)
    (e : k ≠ Obj.core_OPS_ISSUED c) : Issued c ks s (t.setObj k v) :=
  ⟨h.1.setObj v (List.mem_cons_of_mem _ g), by rw [State.obj_setObj_other _ v (Ne.symm e), h.2]⟩

/-- A register written: every other part of the core stays. -/
theorem RegWritten.setReg (k : Core) (routine : Bool) (d : Reg) (v : BitVec 64) : RegWritten k ((k.moved routine).setReg d v) routine d v := by
  constructor
  · unfold Core.setReg; split <;> rfl
  · intro r
    by_cases h : r = 0
    · subst h; simp
    · by_cases g : r = d
      · subst g; rw [Core.reg_setReg_same]; simp [h]
      · rw [Core.reg_setReg_other _ _ g]; simp [h, g]; rfl

@[simp] theorem Core.val_moved (k : Core) (routine : Bool) (x : Src) : (k.moved routine).val x = k.val x := by cases x <;> rfl
@[simp] theorem Core.val32_moved (k : Core) (routine : Bool) (x : Src) : (k.moved routine).val32 x = k.val32 x := by simp [Core.val32]
@[simp] theorem Core.flag_moved (k : Core) (routine : Bool) (f : Flag) : (k.moved routine).flag f = k.flag f := rfl
@[simp] theorem Core.hold_moved (k : Core) (routine : Bool) : (k.moved routine).hold = k.hold := rfl
@[simp] theorem Core.lib_moved (k : Core) (routine : Bool) : (k.moved routine).lib = k.lib := rfl
@[simp] theorem Core.ended_moved (k : Core) (routine : Bool) : (k.moved routine).ended = k.ended := rfl
@[simp] theorem Core.loopStack_moved (k : Core) (r routine : Bool) : (k.moved routine).loopStack r = k.loopStack r := by
  cases r <;> rfl

/-! ### Waits -/

/-- A core that is held by no `flag.wait` is not retested. -/
theorem State.retest_free (s : State) {c : Nat} (h : (s.core c).hold = .none) : s.retest c = s := by
  simp [State.retest, h]

/-- CORE_STATE of a core that issues and has not ended follows what holds it. -/
theorem State.settle_open {s : State} {c : Nat} (h : s.coreState c ≠ 0 ∧ s.coreState c ≠ 5 ∧ s.coreState c ≠ 6)
    (g : (s.core c).ended = false) : s.settle c = s.setCoreState c (s.core c).holdState := by
  simp [State.settle, h, g]

/-! ### Bytes -/

theorem leBytes_length (n v : Nat) : (leBytes n v).length = n := by
  induction n generalizing v with
  | zero => rfl
  | succ n ih => simp [leBytes, ih]

theorem leBytes_get (n v j : Nat) (h : j < n) : (leBytes n v)[j]? = some (BitVec.ofNat 8 (v / 256 ^ j)) := by
  induction n generalizing v j with
  | zero => omega
  | succ n ih =>
    cases j with
    | zero => simp [leBytes]
    | succ j =>
      rw [leBytes, List.getElem?_cons_succ, ih _ _ (by omega), Nat.div_div_eq_div_mul, Nat.pow_succ, Nat.mul_comm]

theorem leNat_byte (bs : Bytes) (j : Nat) : leNat bs / 256 ^ j % 256 = (bs.getD j 0).toNat := by
  induction bs generalizing j with
  | nil => simp [leNat]
  | cons b bs ih =>
    cases j with
    | zero => simp [leNat]; omega
    | succ j =>
      rw [leNat, Nat.pow_succ, Nat.mul_comm (256 ^ j), ← Nat.div_div_eq_div_mul, List.getD_cons_succ, ← ih]
      have := b.isLt
      congr 2; omega

theorem leNat_lt (bs : Bytes) : leNat bs < 256 ^ bs.length := by
  induction bs with
  | nil => simp [leNat]
  | cons b bs ih =>
    have := b.isLt
    simp only [leNat, List.length_cons, Nat.pow_succ]; omega

/-- A byte of a run read in ascending order. -/
theorem State.readNat_byte (s : State) (a n j : Nat) (h : j < n) : s.readNat a n / 256 ^ j % 256 = (s.readByte (a + j)).toNat := by
  unfold State.readNat State.readBytes
  rw [leNat_byte, List.getD_eq_getElem?_getD, List.getElem?_map, List.getElem?_range h]; rfl

theorem State.readNat_lt (s : State) (a n : Nat) : s.readNat a n < 256 ^ n := by
  have := leNat_lt (s.readBytes a n)
  simpa [State.readNat, State.readBytes] using this

end Sys2Proof.Machine
end

