-- ==== Sys2Proof/Laws/Fetch.lean ====
section
/-! SUPPORT. What the fetch of an operation can do, said once (R103). -/

namespace Sys2Proof.Machine

variable {s : State} {c : Nat}

/-- A core that differs from another in its instruction cache alone. -/
def Core.sameButCache (k k' : Core) : Prop := { k' with icache := k.icache } = k

theorem Core.sameButCache.refl (k : Core) : k.sameButCache k := rfl

theorem Core.sameButCache.trans {k l m : Core} (h : k.sameButCache l) (g : l.sameButCache m) : k.sameButCache m := by
  have e : { m with icache := k.icache } = { l with icache := k.icache } := by rw [← g]
  exact e.trans h

/-- What a fetch leaves: the core but for its cache, and every object but ICACHE_MISS. -/
def FetchFrame (c : Nat) (s t : State) : Prop := OnlyCore c [Obj.core_ICACHE_MISS c] s t ∧ (s.core c).sameButCache (t.core c)

theorem FetchFrame.refl (s : State) : FetchFrame c s s := ⟨⟨rfl, fun _ _ => rfl, fun _ _ => rfl⟩, rfl⟩

theorem FetchFrame.trans {t u : State} (h : FetchFrame c s t) (g : FetchFrame c t u) : FetchFrame c s u := by
  obtain ⟨⟨h1, h2, h3⟩, h4⟩ := h
  obtain ⟨⟨g1, g2, g3⟩, g4⟩ := g
  refine ⟨⟨?_, fun k hk => (g2 k hk).trans (h2 k hk), fun b hb => (g3 b hb).trans (h3 b hb)⟩, h4.trans g4⟩
  have e : { u with objs := s.objs, cores := s.cores } = { t with objs := s.objs, cores := s.cores } := by rw [← g1]
  exact e.trans h1

theorem FetchFrame.use (l : List Nat) : FetchFrame c s (s.modCore c (fun k => { k with icache := l })) := by
  refine ⟨⟨rfl, fun _ _ => rfl, fun b hb => ?_⟩, ?_⟩
  · rw [State.core_modCore_other _ _ hb]
  · rw [State.core_modCore_same]; rfl

theorem State.fetchLine_frame (l : Nat) : FetchFrame c s (s.fetchLine c l).1 := by
  unfold State.fetchLine
  split
  · exact FetchFrame.use _
  · split
    · exact FetchFrame.refl s
    · refine (FetchFrame.use (useLine (s.core c).icache l)).trans ?_
      exact ⟨⟨rfl, fun k hk => State.obj_bump_other (s.modCore c (fun k => { k with icache := useLine k.icache l })) (by simpa using hk), fun _ _ => rfl⟩, rfl⟩

/-- The fetch of an operation changes the core's cache and its ICACHE_MISS alone. -/
theorem State.fetch_frame (routine : Bool) : FetchFrame c s (s.fetch c routine).1 := by
  unfold State.fetch
  split
  · exact FetchFrame.refl s
  · suffices h : ∀ (l : List Nat) (x : State × Option Nat), FetchFrame c s x.1 →
        FetchFrame c s (l.foldl (fun (x : State × Option Nat) l => match x.2 with | some _ => x | none => x.1.fetchLine c l) x).1 from
      h _ _ (FetchFrame.refl s)
    intro l
    induction l with
    | nil => exact fun _ h => h
    | cons a l ih =>
      intro x h
      refine ih _ ?_
      show FetchFrame c s (match x.2 with | some _ => x | none => x.1.fetchLine c a).1
      split
      · exact h
      · exact h.trans (State.fetchLine_frame a)

/-- What a fetched operation finds: the state of its issue but for the cache and ICACHE_MISS. -/
theorem Fetched.frame {s₀ : State} {routine : Bool} (h : Fetched s₀ c routine s) : FetchFrame c s₀ s := by
  have := State.fetch_frame (s := s₀) (c := c) routine
  rw [h.2] at this; exact this

end Sys2Proof.Machine
end

