-- ==== Sys2Proof/Laws/Kept.lean ====
section
/-! SUPPORT. What no command undoes, as one relation between the state `a` a command begins in and a state `s` it reaches on its way:
the queue, the canonical forms of memory, flash and dictionary, the free values drawn, what was sent, and the sealed store. Every
operation of the machine keeps it; the files Laws/Kept….lean say so, one lemma per operation. -/

namespace Sys2Proof.Machine

/-- The fields that `Kept` speaks of. -/
structure KeptCore (a : State) (pending : List Instr) (freshCtr : Nat) (objs : Sparse Nat) (mem : Sparse Byte) (sealed : Sealed)
    (flash : Sparse Byte) (modules : List (Option Module)) (sent : List Output) : Prop where
  queue : pending = a.pending
  fresh : a.freshCtr ≤ freshCtr
  dict : a.dictWf = true → dictForm objs = true
  memory : a.memWf = true → Sparse.wf 0 mem = true
  identity : sealed.identity = a.sealed.identity
  keys : a.sealed.keysOk = true → sealed.keysOk = true
  counters : a.sealed.countersRise sealed
  flashForm : Sparse.wf 0xFF a.flash = true → Sparse.wf 0xFF flash = true
  fitted : modules = a.modules
  said : a.sent <+: sent

/-- `s` keeps of `a` what no command undoes. -/
def Kept (a s : State) : Prop := KeptCore a s.pending s.freshCtr s.objs s.mem s.sealed s.flash s.modules s.sent

/-- The same of an outcome. -/
def KeptOut (a : State) (o : Out) : Prop := ∀ t, o = .next t → Kept a t

/-- The same of an optional state. -/
def KeptOpt (a : State) (o : Option State) : Prop := ∀ t, o = some t → Kept a t

theorem Kept.refl (a : State) : Kept a a :=
  ⟨rfl, le_refl _, id, id, rfl, id, ⟨rfl, fun _ => le_refl _⟩, id, rfl, List.prefix_rfl⟩

theorem Kept.trans {a b c : State} (h : Kept a b) (g : Kept b c) : Kept a c :=
  ⟨g.queue.trans h.queue, h.fresh.trans g.fresh, fun x => g.dict (h.dict x), fun x => g.memory (h.memory x),
    g.identity.trans h.identity, fun x => g.keys (h.keys x),
    ⟨g.counters.1.trans h.counters.1, fun i => (h.counters.2 i).trans (g.counters.2 i)⟩, fun x => g.flashForm (h.flashForm x),
    g.fitted.trans h.fitted, h.said.trans g.said⟩

section
variable {a s t : State}

theorem KeptOut.next (h : Kept a s) : KeptOut a (.next s) := by
  intro t e; cases e; exact h

theorem KeptOut.fault (f : Fault) : KeptOut a (.fault f) := by
  intro t e; cases e

theorem KeptOut.refused (f : Refusal) : KeptOut a (.refused f) := by
  intro t e; cases e

theorem KeptOut.ite {c : Prop} [Decidable c] {x y : Out} (h : KeptOut a x) (g : KeptOut a y) : KeptOut a (if c then x else y) := by
  split <;> assumption

theorem Kept.ite {c : Prop} [Decidable c] {x y : State} (h : Kept a x) (g : Kept a y) : Kept a (if c then x else y) := by
  split <;> assumption

theorem KeptOpt.some (h : Kept a s) : KeptOpt a (some s) := by
  intro t e; cases e; exact h

theorem KeptOpt.none : KeptOpt a none := by
  intro t e; cases e

theorem KeptOpt.ite {c : Prop} [Decidable c] {x y : Option State} (h : KeptOpt a x) (g : KeptOpt a y) :
    KeptOpt a (if c then x else y) := by
  split <;> assumption

theorem Kept.of_some {o : Option State} (h : KeptOpt a o) (e : o = Option.some t) : Kept a t := h t e

theorem Kept.of_keptSome (h : KeptOpt a (Option.some t)) : Kept a t := h t rfl

theorem Kept.of_fst {β : Type} {p : State × β} {x : β} (h : Kept a p.1) (e : p = (t, x)) : Kept a t := by subst e; exact h

theorem Kept.of_snd {β : Type} {p : β × State} {x : β} (h : Kept a p.2) (e : p = (x, t)) : Kept a t := by subst e; exact h

theorem Kept.cut (x : State) {G : Prop} (h : Kept a x) (g : Kept a x → G) : G := g h

theorem Kept.foldl {β : Type} {f : State → β → State} {l : List β} (h : Kept a s) (g : ∀ t x, Kept a t → Kept a (f t x)) :
    Kept a (l.foldl f s) := by
  induction l generalizing s with
  | nil => exact h
  | cons x l ih => exact ih (g s x h)

theorem Kept.foldl_fst {β γ : Type} {f : State × γ → β → State × γ} {l : List β} {p : State × γ} (h : Kept a p.1)
    (g : ∀ q x, Kept a q.1 → Kept a (f q x).1) : Kept a (l.foldl f p).1 := by
  induction l generalizing p with
  | nil => exact h
  | cons x l ih => exact ih (g p x h)

theorem Kept.foldl_snd {β γ : Type} {f : γ × State → β → γ × State} {l : List β} {p : γ × State} (h : Kept a p.2)
    (g : ∀ q x, Kept a q.2 → Kept a (f q x).2) : Kept a (l.foldl f p).2 := by
  induction l generalizing p with
  | nil => exact h
  | cons x l ih => exact ih (g p x h)

/-- A state whose other fields changed. -/
theorem Kept.upd (h : Kept a s) (e1 : t.pending = s.pending) (e2 : t.freshCtr = s.freshCtr) (e3 : t.objs = s.objs)
    (e4 : t.mem = s.mem) (e5 : t.sealed = s.sealed) (e6 : t.flash = s.flash) (e7 : t.modules = s.modules) (e8 : t.sent = s.sent) :
    Kept a t := by
  unfold Kept at *; rw [e1, e2, e3, e4, e5, e6, e7, e8]; exact h

/-! ### The operations on the fields themselves -/

theorem Kept.memory_set (h : Kept a s) {m : Sparse Byte} (e : Sparse.wf 0 s.mem = true → Sparse.wf 0 m = true) :
    Kept a { s with mem := m } :=
  ⟨h.queue, h.fresh, h.dict, fun x => e (h.memory x), h.identity, h.keys, h.counters, h.flashForm, h.fitted, h.said⟩

theorem dictForm_filter (p : Nat × Nat → Bool) {m : Sparse Nat} (h : dictForm m = true) : dictForm (m.filter p) = true := by
  induction m with
  | nil => rfl
  | cons e m ih =>
    obtain ⟨j, w⟩ := e
    simp only [dictForm, Bool.and_eq_true] at h
    by_cases hp : p (j, w) = true
    · rw [List.filter_cons_of_pos hp]
      simp only [dictForm, Bool.and_eq_true]
      refine ⟨⟨?_, h.1.2⟩, ih h.2⟩
      simp only [Sparse.above, List.all_eq_true] at *
      exact fun e he => h.1.1 e (List.mem_filter.1 he).1
    · rw [List.filter_cons_of_neg hp]; exact ih h.2

theorem dictForm_put {m : Sparse Nat} {k v : Nat} (hv : v ≠ objDefault k) (h : dictForm m = true) : dictForm (Sparse.put m k v) = true := by
  induction m with
  | nil => simp [Sparse.put, dictForm, Sparse.above, hv]
  | cons x m ih =>
    obtain ⟨j, w⟩ := x
    have h' := h
    simp only [dictForm, Bool.and_eq_true, Sparse.above, List.all_eq_true, decide_eq_true_eq] at h
    simp only [Sparse.put]
    split
    · rename_i hk
      rw [dictForm]
      simp only [Bool.and_eq_true, Sparse.above, List.all_eq_true, decide_eq_true_eq]
      refine ⟨⟨?_, hv⟩, h'⟩
      intro e he
      rcases List.mem_cons.1 he with he | he
      · subst he; exact hk
      · exact lt_trans hk (h.1.1 e he)
    · split
      · rename_i hj; subst hj
        simp only [dictForm, Bool.and_eq_true, Sparse.above, List.all_eq_true, decide_eq_true_eq]
        exact ⟨⟨h.1.1, hv⟩, h.2⟩
      · rename_i hk hj
        simp only [dictForm, Bool.and_eq_true, Sparse.above, List.all_eq_true, decide_eq_true_eq]
        refine ⟨⟨?_, h.1.2⟩, ih h.2⟩
        intro e he
        rcases Sparse.mem_put he with he | he
        · subst he; simp; omega
        · exact h.1.1 e he

theorem dictForm_set {m : Sparse Nat} {k v : Nat} (h : dictForm m = true) : dictForm (Sparse.set (objDefault k) m k v) = true := by
  unfold Sparse.set; split
  · exact dictForm_filter _ h
  · exact dictForm_put ‹_› h

theorem State.setObj_kept (h : Kept a s) (k v : Nat) : Kept a (s.setObj k v) :=
  ⟨h.queue, h.fresh, fun x => dictForm_set (h.dict x), h.memory, h.identity, h.keys, h.counters, h.flashForm, h.fitted, h.said⟩

theorem State.fresh_kept (h : Kept a s) : Kept a s.fresh.2 :=
  ⟨h.queue, le_trans h.fresh (Nat.le_succ _), h.dict, h.memory, h.identity, h.keys, h.counters, h.flashForm, h.fitted, h.said⟩

theorem State.emit_kept (h : Kept a s) (o : Output) : Kept a (s.emit o) :=
  ⟨h.queue, h.fresh, h.dict, h.memory, h.identity, h.keys, h.counters, h.flashForm, h.fitted, h.said.trans (List.prefix_append _ _)⟩

theorem State.pokeByte_kept (h : Kept a s) (k : Nat) (b : Byte) : Kept a (s.pokeByte k b) := h.memory_set (fun x => Sparse.wf_set x)

end

end Sys2Proof.Machine
end

