-- ==== Sys2Proof/Laws/KeptBase.lean ====
section
/-! SUPPORT. A state whose other fields changed keeps what no command undoes. -/

namespace Sys2Proof.Machine

theorem Kept.mk' {a s : State} {pending' freshCtr' ft' ftFrac' ftInc' objs' cores' mem' bad' accBuf' parcels' firstInit' txq' standin' sw' inbox' links' stes' colls' groups' early' time' sealed' flash' flashLost' modules' env' power' sec' mgmt' dieClears' steClears' fatal' corrSeen' sent'}
    (h : Kept a s) (e_pending : pending' = s.pending) (e_freshCtr : freshCtr' = s.freshCtr) (e_objs : objs' = s.objs) (e_mem : mem' = s.mem) (e_sealed : sealed' = s.sealed) (e_flash : flash' = s.flash) (e_modules : modules' = s.modules) (e_sent : sent' = s.sent) :
    Kept a (State.mk pending' freshCtr' ft' ftFrac' ftInc' objs' cores' mem' bad' accBuf' parcels' firstInit' txq' standin' sw' inbox' links' stes' colls' groups' early' time' sealed' flash' flashLost' modules' env' power' sec' mgmt' dieClears' steClears' fatal' corrSeen' sent') := by
  subst_vars; exact h

end Sys2Proof.Machine
end

