-- ==== Sys2Proof/Laws/KeptOps.lean ====
section
/-! SUPPORT. What the operations of Ops keep (Laws/Kept.lean). -/

namespace Sys2Proof.Machine

theorem State.advanceTo_kept {a : State} : ∀ x0 x1, Kept a x0 → Kept a (State.advanceTo x0 x1) := by
  intro x0 x1 h0
  unfold State.advanceTo
  repeat' first
    | with_reducible assumption
    | with_reducible apply Kept.ite
    | lift_lets -underBinder
    | (with_reducible refine Kept.mk' ?_ rfl rfl rfl rfl rfl rfl rfl rfl)

theorem State.tick_kept {a : State} : ∀ x0, Kept a x0 → Kept a (State.tick x0) := by
  intro x0 h0
  unfold State.tick
  repeat' first
    | with_reducible assumption
    | with_reducible apply Kept.ite
    | lift_lets -underBinder
    | (with_reducible refine Kept.mk' ?_ rfl rfl rfl rfl rfl rfl rfl rfl)

theorem State.addObj_kept {a : State} : ∀ x0 x1 x2, Kept a x0 → Kept a (State.addObj x0 x1 x2) := by
  intro x0 x1 x2 h0
  unfold State.addObj
  repeat' first
    | with_reducible assumption
    | with_reducible apply State.setObj_kept
    | with_reducible apply Kept.ite

theorem State.bump_kept {a : State} : ∀ x0 x1, Kept a x0 → Kept a (State.bump x0 x1) := by
  intro x0 x1 h0
  unfold State.bump
  repeat' first | with_reducible assumption | with_reducible apply State.addObj_kept

theorem State.raiseObj_kept {a : State} : ∀ x0 x1 x2, Kept a x0 → Kept a (State.raiseObj x0 x1 x2) := by
  intro x0 x1 x2 h0
  unfold State.raiseObj
  repeat' first
    | with_reducible assumption
    | with_reducible apply State.setObj_kept
    | with_reducible apply Kept.ite

theorem State.countCore_kept {a : State} : ∀ x0 x1 x2 x3, Kept a x0 → Kept a (State.countCore x0 x1 x2 x3) := by
  intro x0 x1 x2 x3 h0
  unfold State.countCore
  repeat' first | with_reducible assumption | with_reducible apply State.addObj_kept | split

theorem State.countCores_kept {a : State} : ∀ x0 x1 x2, Kept a x0 → Kept a (State.countCores x0 x1 x2) := by
  intro s c l h
  exact Kept.foldl h (fun t e g => State.countCore_kept _ _ _ _ g)

theorem State.writeBytes_kept {a : State} : ∀ x0 x1 x2, Kept a x0 → Kept a (State.writeBytes x0 x1 x2) := by
  intro s k bs h
  induction bs generalizing s k with
  | nil => exact h
  | cons b bs ih => exact ih _ _ (State.pokeByte_kept h _ _)

theorem State.storeBytes_kept {a : State} : ∀ x0 x1 x2, Kept a x0 → Kept a (State.storeBytes x0 x1 x2).1 := by
  intro x0 x1 x2 h0
  unfold State.storeBytes
  repeat' first
    | with_reducible assumption
    | (intro y; refine Kept.cut (a := a) y ?_ ?_; unfold y)
    | with_reducible intro _
    | with_reducible apply State.writeBytes_kept
    | with_reducible apply State.pokeByte_kept
    | with_reducible apply Kept.foldl_fst
    | split
    | lift_lets -underBinder
    | dsimp -zeta only
    | (with_reducible refine Kept.mk' ?_ rfl rfl rfl rfl rfl rfl rfl rfl)

theorem State.setCore_kept {a : State} : ∀ x0 x1 x2, Kept a x0 → Kept a (State.setCore x0 x1 x2) := by
  intro x0 x1 x2 h0
  unfold State.setCore
  repeat' first
    | with_reducible assumption
    | (with_reducible refine Kept.mk' ?_ rfl rfl rfl rfl rfl rfl rfl rfl)

theorem State.modCore_kept {a : State} : ∀ x0 x1 x2, Kept a x0 → Kept a (State.modCore x0 x1 x2) := by
  intro x0 x1 x2 h0
  unfold State.modCore
  repeat' first | with_reducible assumption | with_reducible apply State.setCore_kept

theorem State.setCoreState_kept {a : State} : ∀ x0 x1 x2, Kept a x0 → Kept a (State.setCoreState x0 x1 x2) := by
  intro x0 x1 x2 h0
  unfold State.setCoreState
  repeat' first | with_reducible assumption | with_reducible apply State.setObj_kept

theorem State.bumpChange_kept {a : State} : ∀ x0, Kept a x0 → Kept a (State.bumpChange x0) := by
  intro x0 h0
  unfold State.bumpChange
  repeat' first | with_reducible assumption | with_reducible apply State.setObj_kept

theorem State.setDeviceState_kept {a : State} : ∀ x0 x1, Kept a x0 → Kept a (State.setDeviceState x0 x1) := by
  intro x0 x1 h0
  unfold State.setDeviceState
  repeat' first
    | with_reducible assumption
    | with_reducible apply State.bumpChange_kept
    | with_reducible apply State.setObj_kept
    | with_reducible apply Kept.ite

theorem State.updDeviceState_kept {a : State} : ∀ x0, Kept a x0 → Kept a (State.updDeviceState x0) := by
  intro x0 h0
  unfold State.updDeviceState
  repeat' first
    | with_reducible assumption
    | with_reducible apply State.setDeviceState_kept
    | with_reducible apply Kept.ite

theorem State.setFreq_kept {a : State} : ∀ x0 x1, Kept a x0 → Kept a (State.setFreq x0 x1) := by
  intro x0 x1 h0
  unfold State.setFreq
  repeat' first
    | with_reducible assumption
    | with_reducible apply State.setObj_kept
    | lift_lets -underBinder
    | (with_reducible refine Kept.mk' ?_ rfl rfl rfl rfl rfl rfl rfl rfl)

theorem State.setTimeState_kept {a : State} : ∀ x0 x1, Kept a x0 → Kept a (State.setTimeState x0 x1) := by
  intro x0 x1 h0
  unfold State.setTimeState
  repeat' first
    | with_reducible assumption
    | with_reducible intro _
    | with_reducible apply State.bumpChange_kept
    | with_reducible apply State.setObj_kept
    | with_reducible apply Kept.ite
    | lift_lets -underBinder
    | (with_reducible refine Kept.mk' ?_ rfl rfl rfl rfl rfl rfl rfl rfl)

theorem State.setDatum_kept {a : State} : ∀ x0 x1 x2 x3 x4, Kept a x0 → Kept a (State.setDatum x0 x1 x2 x3 x4) := by
  intro x0 x1 x2 x3 x4 h0
  unfold State.setDatum
  repeat' first | with_reducible assumption | with_reducible apply State.setObj_kept

theorem State.timeStop_kept {a : State} : ∀ x0, Kept a x0 → Kept a (State.timeStop x0) := by
  intro x0 h0
  unfold State.timeStop
  repeat' first
    | with_reducible assumption
    | with_reducible intro _
    | with_reducible apply State.setFreq_kept
    | with_reducible apply State.setTimeState_kept
    | with_reducible apply State.setObj_kept
    | with_reducible apply State.setDatum_kept
    | lift_lets -underBinder
    | (with_reducible refine Kept.mk' ?_ rfl rfl rfl rfl rfl rfl rfl rfl)

theorem State.setFnState_kept {a : State} : ∀ x0 x1 x2, Kept a x0 → Kept a (State.setFnState x0 x1 x2) := by
  intro x0 x1 x2 h0
  unfold State.setFnState
  repeat' first
    | with_reducible assumption
    | with_reducible apply State.setObj_kept
    | with_reducible apply State.timeStop_kept
    | with_reducible apply State.updDeviceState_kept
    | with_reducible apply State.bumpChange_kept
    | with_reducible apply Kept.ite
    | split
    | (with_reducible refine Kept.mk' ?_ rfl rfl rfl rfl rfl rfl rfl rfl)

theorem State.setSteState_kept {a : State} : ∀ x0 x1 x2, Kept a x0 → Kept a (State.setSteState x0 x1 x2) := by
  intro x0 x1 x2 h0
  unfold State.setSteState
  repeat' first
    | with_reducible assumption
    | with_reducible apply State.pokeByte_kept
    | with_reducible apply State.setObj_kept

theorem State.steBusy_kept {a : State} : ∀ x0 x1, Kept a x0 → Kept a (State.steBusy x0 x1) := by
  intro x0 x1 h0
  unfold State.steBusy
  repeat' first
    | with_reducible assumption
    | with_reducible apply State.addObj_kept
    | with_reducible apply Kept.ite
    | lift_lets -underBinder
    | (with_reducible refine Kept.mk' ?_ rfl rfl rfl rfl rfl rfl rfl rfl)

theorem State.clearSte_kept {a : State} : ∀ x0 x1, Kept a x0 → Kept a (State.clearSte x0 x1) := by
  intro x0 x1 h0
  unfold State.clearSte
  repeat' first
    | with_reducible assumption
    | (with_reducible refine Kept.mk' ?_ rfl rfl rfl rfl rfl rfl rfl rfl)

theorem State.stopSte_kept {a : State} : ∀ x0 x1, Kept a x0 → Kept a (State.stopSte x0 x1) := by
  intro x0 x1 h0
  unfold State.stopSte
  repeat' first
    | with_reducible assumption
    | with_reducible apply State.setSteState_kept
    | with_reducible apply State.clearSte_kept
    | with_reducible apply State.steBusy_kept
    | with_reducible apply Kept.ite

theorem State.stopEngines_kept {a : State} : ∀ x0 x1, Kept a x0 → Kept a (State.stopEngines x0 x1) := by
  intro x0 x1 h0
  unfold State.stopEngines
  repeat' first
    | with_reducible assumption
    | with_reducible intro _
    | with_reducible apply State.stopSte_kept
    | with_reducible apply Kept.foldl

theorem State.releaseContexts_kept {a : State} : ∀ x0 x1, Kept a x0 → Kept a (State.releaseContexts x0 x1) := by
  intro x0 x1 h0
  unfold State.releaseContexts
  repeat' first
    | with_reducible assumption
    | (with_reducible refine Kept.mk' ?_ rfl rfl rfl rfl rfl rfl rfl rfl)

theorem State.disablePort_kept {a : State} : ∀ x0 x1, Kept a x0 → Kept a (State.disablePort x0 x1) := by
  intro x0 x1 h0
  unfold State.disablePort
  repeat' first
    | with_reducible assumption
    | with_reducible apply State.setObj_kept
    | lift_lets -underBinder
    | (with_reducible refine Kept.mk' ?_ rfl rfl rfl rfl rfl rfl rfl rfl)

end Sys2Proof.Machine
end

