-- ==== Sys2Proof/Laws/KeptErrors.lean ====
section
/-! SUPPORT. What the operations of Errors keep (Laws/Kept.lean). -/

namespace Sys2Proof.Machine

theorem State.enter_kept {a : State} : ∀ x0 x1, Kept a x0 → Kept a (State.enter x0 x1).1 := by
  intro x0 x1 h0
  unfold State.enter
  repeat' first
    | with_reducible assumption
    | with_reducible apply State.bump_kept
    | with_reducible apply State.setObj_kept
    | with_reducible apply Kept.ite

theorem State.updFill_kept {a : State} : ∀ x0 x1, Kept a x0 → Kept a (State.updFill x0 x1) := by
  intro x0 x1 h0
  unfold State.updFill
  repeat' first | with_reducible assumption | with_reducible apply State.setObj_kept

theorem State.haltCore_kept {a : State} : ∀ x0 x1, Kept a x0 → Kept a (State.haltCore x0 x1) := by
  intro x0 x1 h0
  unfold State.haltCore
  repeat' first
    | with_reducible assumption
    | with_reducible apply State.updFill_kept
    | with_reducible apply State.modCore_kept
    | with_reducible apply State.setCoreState_kept
    | with_reducible apply Kept.ite

theorem State.haltParcel_kept {a : State} : ∀ x0 x1, Kept a x0 → Kept a (State.haltParcel x0 x1) := by
  intro x0 x1 h0
  unfold State.haltParcel
  repeat' first
    | with_reducible assumption
    | with_reducible intro _
    | with_reducible apply State.haltCore_kept
    | with_reducible apply State.releaseContexts_kept
    | with_reducible apply State.stopEngines_kept
    | with_reducible apply Kept.foldl

theorem State.modParcel_kept {a : State} : ∀ x0 x1 x2, Kept a x0 → Kept a (State.modParcel x0 x1 x2) := by
  intro x0 x1 x2 h0
  unfold State.modParcel
  repeat' first
    | with_reducible assumption
    | (with_reducible refine Kept.mk' ?_ rfl rfl rfl rfl rfl rfl rfl rfl)

theorem State.setJobState_kept {a : State} : ∀ x0 x1 x2, Kept a x0 → Kept a (State.setJobState x0 x1 x2) := by
  intro x0 x1 x2 h0
  unfold State.setJobState
  repeat' first | with_reducible assumption | with_reducible apply State.setObj_kept

theorem State.restartNeeded_kept {a : State} : ∀ x0 x1, Kept a x0 → Kept a (State.restartNeeded x0 x1) := by
  intro x0 x1 h0
  unfold State.restartNeeded
  repeat' first
    | with_reducible assumption
    | with_reducible apply State.bump_kept
    | with_reducible apply State.setJobState_kept
    | with_reducible apply Kept.ite

theorem State.shadowInterrupted_kept {a : State} : ∀ x0 x1, Kept a x0 → Kept a (State.shadowInterrupted x0 x1) := by
  intro x0 x1 h0
  unfold State.shadowInterrupted
  repeat' first
    | with_reducible assumption
    | with_reducible apply State.setObj_kept
    | with_reducible apply State.setFnState_kept
    | with_reducible apply State.haltParcel_kept

theorem State.stepFatal_kept {a : State} : ∀ x0 x1, Kept a x0 → Kept a (State.stepFatal x0 x1) := by
  intro x0 x1 h0
  unfold State.stepFatal
  repeat' first
    | with_reducible assumption
    | with_reducible apply State.modParcel_kept
    | with_reducible apply State.shadowInterrupted_kept
    | with_reducible apply State.setObj_kept
    | with_reducible apply State.restartNeeded_kept
    | with_reducible apply State.haltParcel_kept
    | with_reducible apply State.setJobState_kept
    | with_reducible apply Kept.ite

theorem State.lossEntry_kept {a : State} : ∀ x0 x1, Kept a x0 → Kept a (State.lossEntry x0 x1) := by
  intro x0 x1 h0
  unfold State.lossEntry
  repeat' first
    | with_reducible assumption
    | with_reducible apply State.fresh_kept
    | with_reducible apply State.enter_kept

theorem State.parcelFault_kept {a : State} : ∀ x0 x1, Kept a x0 → Kept a (State.parcelFault x0 x1) := by
  intro x0 x1 h0
  unfold State.parcelFault
  repeat' first
    | with_reducible assumption
    | with_reducible apply State.setObj_kept
    | with_reducible apply State.restartNeeded_kept
    | with_reducible apply State.setFnState_kept
    | with_reducible apply State.haltParcel_kept
    | with_reducible apply Kept.ite

theorem State.functionFault_kept {a : State} : ∀ x0 x1, Kept a x0 → Kept a (State.functionFault x0 x1) := by
  intro x0 x1 h0
  unfold State.functionFault
  repeat' first
    | with_reducible assumption
    | with_reducible intro _
    | with_reducible apply State.parcelFault_kept
    | with_reducible apply State.setFnState_kept
    | with_reducible apply State.lossEntry_kept
    | with_reducible apply Kept.ite
    | with_reducible apply Kept.foldl

theorem State.deviceFatal_kept {a : State} : ∀ x0, Kept a x0 → Kept a (State.deviceFatal x0) := by
  intro x0 h0
  unfold State.deviceFatal
  repeat' first
    | with_reducible assumption
    | with_reducible intro _
    | with_reducible apply State.haltParcel_kept
    | with_reducible apply State.setFnState_kept
    | with_reducible apply State.disablePort_kept
    | with_reducible apply State.setDeviceState_kept
    | with_reducible apply Kept.foldl
    | lift_lets -underBinder
    | (with_reducible refine Kept.mk' ?_ rfl rfl rfl rfl rfl rfl rfl rfl)

theorem State.concernAll_kept {a : State} : ∀ x0, Kept a x0 → Kept a (State.concernAll x0) := by
  intro x0 h0
  unfold State.concernAll
  repeat' first
    | with_reducible assumption
    | with_reducible intro _
    | with_reducible apply State.parcelFault_kept
    | with_reducible apply State.restartNeeded_kept
    | with_reducible apply State.bump_kept
    | with_reducible apply State.stepFatal_kept
    | with_reducible apply State.setObj_kept
    | with_reducible apply Kept.ite
    | with_reducible apply Kept.foldl

theorem State.raise_kept {a : State} : ∀ x0 x1, Kept a x0 → Kept a (State.raise x0 x1) := by
  intro x0 x1 h0
  unfold State.raise
  repeat' first
    | with_reducible assumption
    | with_reducible apply State.enter_kept
    | with_reducible apply State.stepFatal_kept
    | with_reducible apply State.concernAll_kept
    | with_reducible apply State.restartNeeded_kept
    | with_reducible apply State.functionFault_kept
    | with_reducible apply State.deviceFatal_kept
    | with_reducible apply Kept.ite

theorem State.raiseParcel_kept {a : State} : ∀ x0 x1 x2 x3 x4 x5, Kept a x0 → Kept a (State.raiseParcel x0 x1 x2 x3 x4 x5) := by
  intro x0 x1 x2 x3 x4 x5 h0
  unfold State.raiseParcel
  repeat' first | with_reducible assumption | with_reducible apply State.raise_kept

theorem State.advise_kept {a : State} : ∀ x0 x1 x2 x3 x4 x5, Kept a x0 → Kept a (State.advise x0 x1 x2 x3 x4 x5) := by
  intro x0 x1 x2 x3 x4 x5 h0
  unfold State.advise
  repeat' first | with_reducible assumption | with_reducible apply State.raise_kept

theorem State.corrected_kept {a : State} : ∀ x0 x1 x2 x3 x4 x5, Kept a x0 → Kept a (State.corrected x0 x1 x2 x3 x4 x5) := by
  intro x0 x1 x2 x3 x4 x5 h0
  unfold State.corrected
  repeat' first
    | with_reducible assumption
    | with_reducible apply State.raise_kept
    | with_reducible apply Kept.ite
    | lift_lets -underBinder
    | (with_reducible refine Kept.mk' ?_ rfl rfl rfl rfl rfl rfl rfl rfl)

theorem State.memCorrected_kept {a : State} : ∀ x0 x1, Kept a x0 → Kept a (State.memCorrected x0 x1) := by
  intro x0 x1 h0
  unfold State.memCorrected
  repeat' first
    | with_reducible assumption
    | with_reducible intro _
    | with_reducible apply State.bump_kept
    | with_reducible apply State.corrected_kept
    | with_reducible apply Kept.ite
    | lift_lets -underBinder
    | (with_reducible refine Kept.mk' ?_ rfl rfl rfl rfl rfl rfl rfl rfl)

theorem State.memUncorrected_kept {a : State} : ∀ x0 x1, Kept a x0 → Kept a (State.memUncorrected x0 x1) := by
  intro x0 x1 h0
  unfold State.memUncorrected
  repeat' first
    | with_reducible assumption
    | (intro y; refine Kept.cut (a := a) y ?_ ?_; unfold y)
    | with_reducible intro _
    | with_reducible apply State.bump_kept
    | with_reducible apply State.setObj_kept
    | with_reducible apply State.raiseParcel_kept
    | with_reducible apply State.advise_kept
    | with_reducible apply Kept.ite
    | split
    | lift_lets -underBinder

theorem State.plant_kept {a : State} : ∀ x0 x1, Kept a x0 → Kept a (State.plant x0 x1) := by
  intro x0 x1 h0
  unfold State.plant
  repeat' first
    | with_reducible assumption
    | with_reducible intro _
    | with_reducible apply State.memCorrected_kept
    | with_reducible apply Kept.ite
    | with_reducible apply Kept.foldl
    | lift_lets -underBinder
    | (with_reducible refine Kept.mk' ?_ rfl rfl rfl rfl rfl rfl rfl rfl)

theorem State.coreFaultWith_kept {a : State} : ∀ x0 x1 x2 x3 x4 x5 x6, Kept a x0 → Kept a (State.coreFaultWith x0 x1 x2 x3 x4 x5 x6) := by
  intro x0 x1 x2 x3 x4 x5 x6 h0
  unfold State.coreFaultWith
  repeat' first
    | with_reducible assumption
    | (intro y; refine Kept.cut (a := a) y ?_ ?_; unfold y)
    | with_reducible intro _
    | with_reducible apply State.setObj_kept
    | with_reducible apply State.bump_kept
    | with_reducible apply State.setCoreState_kept
    | with_reducible apply State.updFill_kept
    | with_reducible apply State.modCore_kept
    | with_reducible apply State.raiseParcel_kept
    | split
    | lift_lets -underBinder

theorem State.coreFault_kept {a : State} : ∀ x0 x1 x2 x3 x4, Kept a x0 → Kept a (State.coreFault x0 x1 x2 x3 x4) := by
  intro x0 x1 x2 x3 x4 h0
  unfold State.coreFault
  repeat' first | with_reducible assumption | with_reducible apply State.coreFaultWith_kept

end Sys2Proof.Machine
end

