-- ==== Sys2Proof/Laws/KeptAccUnit.lean ====
section
/-! SUPPORT. What the operations of AccUnit keep (Laws/Kept.lean). -/

namespace Sys2Proof.Machine

theorem State.touchLine_kept {a : State} : ∀ x0 x1 x2, Kept a x0 → Kept a (State.touchLine x0 x1 x2) := by
  intro x0 x1 x2 h0
  unfold State.touchLine
  repeat' first
    | with_reducible assumption
    | with_reducible apply State.bump_kept
    | with_reducible apply Kept.ite
    | lift_lets -underBinder
    | (with_reducible refine Kept.mk' ?_ rfl rfl rfl rfl rfl rfl rfl rfl)

theorem State.flushUnits_kept {a : State} : ∀ x0 x1, Kept a x0 → Kept a (State.flushUnits x0 x1) := by
  intro x0 x1 h0
  unfold State.flushUnits
  repeat' first
    | with_reducible assumption
    | with_reducible intro _
    | with_reducible apply State.addObj_kept
    | with_reducible apply Kept.foldl
    | lift_lets -underBinder
    | (with_reducible refine Kept.mk' ?_ rfl rfl rfl rfl rfl rfl rfl rfl)

theorem State.unitResidueFail_kept {a : State} : ∀ x0 x1 x2, Kept a x0 → Kept a (State.unitResidueFail x0 x1 x2) := by
  intro x0 x1 x2 h0
  unfold State.unitResidueFail
  repeat' first
    | with_reducible assumption
    | (intro y; refine Kept.cut (a := a) y ?_ ?_; unfold y)
    | with_reducible intro _
    | with_reducible apply State.bump_kept
    | with_reducible apply State.raiseParcel_kept
    | split
    | lift_lets -underBinder

theorem State.unitResidueFails_kept {a : State} : ∀ x0 x1 x2 x3, Kept a x0 → Kept a (State.unitResidueFails x0 x1 x2 x3) := by
  intro s u k n h
  induction n generalizing s with
  | zero => exact h
  | succ n ih => exact ih _ (State.unitResidueFail_kept _ _ _ h)

theorem State.poisonUnit_kept {a : State} : ∀ x0 x1 x2, Kept a x0 → Kept a (State.poisonUnit x0 x1 x2) := by
  intro x0 x1 x2 h0
  unfold State.poisonUnit
  repeat' first
    | with_reducible assumption
    | with_reducible apply State.storeBytes_kept
    | with_reducible apply State.memUncorrected_kept
    | with_reducible apply State.addObj_kept

theorem State.accElem_kept {a : State} : ∀ x0 x1 x2 x3 x4, Kept a x0 → Kept a (State.accElem x0 x1 x2 x3 x4).1 := by
  intro x0 x1 x2 x3 x4 h0
  unfold State.accElem
  repeat' first
    | with_reducible assumption
    | with_reducible apply State.poisonUnit_kept
    | with_reducible apply State.addObj_kept
    | with_reducible apply State.unitResidueFails_kept
    | with_reducible apply State.writeBytes_kept
    | with_reducible apply State.touchLine_kept
    | with_reducible apply State.bump_kept
    | split

theorem State.serveAcc_kept {a : State} : ∀ x0 x1, Kept a x0 → Kept a (State.serveAcc x0 x1).1 := by
  intro x0 x1 h0
  unfold State.serveAcc
  repeat' first
    | with_reducible assumption
    | with_reducible intro _
    | with_reducible apply State.bump_kept
    | with_reducible apply State.accElem_kept
    | with_reducible apply Kept.ite
    | with_reducible apply Kept.foldl_fst
    | split
    | lift_lets -underBinder

theorem State.serveConvert_kept {a : State} : ∀ x0 x1, Kept a x0 → Kept a (State.serveConvert x0 x1).1 := by
  intro x0 x1 h0
  unfold State.serveConvert
  repeat' first
    | with_reducible assumption
    | with_reducible intro _
    | with_reducible apply State.memUncorrected_kept
    | with_reducible apply State.unitResidueFails_kept
    | with_reducible apply State.addObj_kept
    | with_reducible apply Kept.foldl
    | split
    | lift_lets -underBinder

end Sys2Proof.Machine
end

