-- ==== Sys2Proof/Laws/KeptAccess.lean ====
section
/-! SUPPORT. What the operations of Access keep (Laws/Kept.lean). -/

namespace Sys2Proof.Machine

theorem State.countRefused_kept {a : State} : ∀ x0 x1, Kept a x0 → Kept a (State.countRefused x0 x1) := by
  intro x0 x1 h0
  unfold State.countRefused
  repeat' first | with_reducible assumption | with_reducible apply State.bump_kept | split

end Sys2Proof.Machine
end

