-- ==== Sys2Proof/Laws/KeptFetch.lean ====
section
/-! SUPPORT. What the operations of Fetch keep (Laws/Kept.lean). -/

namespace Sys2Proof.Machine

theorem State.fetchLine_kept {a : State} : ∀ x0 x1 x2, Kept a x0 → Kept a (State.fetchLine x0 x1 x2).1 := by
  intro x0 x1 x2 h0
  unfold State.fetchLine
  repeat' first
    | with_reducible assumption
    | with_reducible apply State.modCore_kept
    | with_reducible apply State.addObj_kept
    | split

theorem State.fetch_kept {a : State} : ∀ x0 x1 x2, Kept a x0 → Kept a (State.fetch x0 x1 x2).1 := by
  intro x0 x1 x2 h0
  unfold State.fetch
  repeat' first
    | with_reducible assumption
    | with_reducible intro _
    | with_reducible apply State.fetchLine_kept
    | with_reducible apply Kept.foldl_fst
    | split

end Sys2Proof.Machine
end

