-- ==== Sys2Proof/Laws/KeptFlags.lean ====
section
/-! SUPPORT. What the operations of Flags keep (Laws/Kept.lean). -/

namespace Sys2Proof.Machine

theorem State.settle_kept {a : State} : ∀ x0 x1, Kept a x0 → Kept a (State.settle x0 x1) := by
  intro x0 x1 h0
  unfold State.settle
  repeat' first
    | with_reducible assumption
    | with_reducible apply State.setCoreState_kept
    | with_reducible apply Kept.ite

theorem State.retest_kept {a : State} : ∀ x0 x1, Kept a x0 → Kept a (State.retest x0 x1) := by
  intro x0 x1 h0
  unfold State.retest
  repeat' first
    | with_reducible assumption
    | with_reducible intro _
    | with_reducible apply State.settle_kept
    | with_reducible apply State.setCore_kept
    | with_reducible apply Kept.ite
    | split
    | lift_lets -underBinder

theorem State.addFlag_kept {a : State} : ∀ x0 x1 x2 x3 x4, Kept a x0 → Kept a (State.addFlag x0 x1 x2 x3 x4) := by
  intro x0 x1 x2 x3 x4 h0
  unfold State.addFlag
  repeat' first
    | with_reducible assumption
    | with_reducible apply State.retest_kept
    | with_reducible apply State.modCore_kept

theorem State.writeFlag_kept {a : State} : ∀ x0 x1 x2 x3, Kept a x0 → Kept a (State.writeFlag x0 x1 x2 x3) := by
  intro x0 x1 x2 x3 h0
  unfold State.writeFlag
  repeat' first
    | with_reducible assumption
    | with_reducible apply State.retest_kept
    | with_reducible apply State.modCore_kept

theorem State.place_kept {a : State} : ∀ x0 x1, Kept a x0 → Kept a (State.place x0 x1) := by
  intro x0 x1 h0
  unfold State.place
  repeat' first
    | with_reducible assumption
    | with_reducible intro _
    | with_reducible apply State.addObj_kept
    | with_reducible apply State.setCore_kept
    | with_reducible apply Kept.ite
    | split
    | lift_lets -underBinder

theorem State.modQueue_kept {a : State} : ∀ x0 x1 x2 x3, Kept a x0 → Kept a (State.modQueue x0 x1 x2 x3) := by
  intro x0 x1 x2 x3 h0
  unfold State.modQueue
  repeat' first
    | with_reducible assumption
    | with_reducible apply State.modCore_kept
    | with_reducible apply State.settle_kept
    | with_reducible apply State.updFill_kept
    | with_reducible apply State.place_kept

theorem State.dropEntry_kept {a : State} : ∀ x0 x1 x2 x3, Kept a x0 → Kept a (State.dropEntry x0 x1 x2 x3) := by
  intro x0 x1 x2 x3 h0
  unfold State.dropEntry
  repeat' first | with_reducible assumption | with_reducible apply State.modQueue_kept

theorem State.setEntry_kept {a : State} : ∀ x0 x1 x2 x3 x4, Kept a x0 → Kept a (State.setEntry x0 x1 x2 x3 x4) := by
  intro x0 x1 x2 x3 x4 h0
  unfold State.setEntry
  repeat' first | with_reducible assumption | with_reducible apply State.modQueue_kept

theorem State.completeFlag_kept {a : State} : ∀ x0 x1 x2 x3 x4 x5, Kept a x0 → Kept a (State.completeFlag x0 x1 x2 x3 x4 x5) := by
  intro x0 x1 x2 x3 x4 x5 h0
  unfold State.completeFlag
  repeat' first
    | with_reducible assumption
    | with_reducible apply State.addFlag_kept
    | with_reducible apply State.modCore_kept
    | split

end Sys2Proof.Machine
end

