-- ==== Sys2Proof/Laws/KeptOperands.lean ====
section
/-! SUPPORT. What the operations of Operands keep (Laws/Kept.lean). -/

namespace Sys2Proof.Machine

theorem State.whenUp_kept {a : State} : ∀ x0 x1, Kept a x0 → KeptOut a x1 → KeptOut a (State.whenUp x0 x1) := by
  intro x0 x1 h0 h1
  unfold State.whenUp
  repeat' first
    | with_reducible assumption
    | with_reducible apply KeptOut.next
    | with_reducible apply KeptOut.ite

theorem State.issued_kept {a : State} : ∀ x0 x1 x2, Kept a x0 → Kept a (State.issued x0 x1 x2) := by
  intro x0 x1 x2 h0
  unfold State.issued
  repeat' first
    | with_reducible assumption
    | with_reducible apply State.modCore_kept
    | with_reducible apply State.bump_kept

theorem State.control_kept {a : State} : ∀ x0 x1 x2 x3 x4, Kept a x0 → (∀ y0, Kept a y0 → Kept a (x4 y0)) → Kept a (State.control x0 x1 x2 x3 x4) := by
  intro x0 x1 x2 x3 x4 h0 h1
  unfold State.control
  repeat' first
    | with_reducible assumption
    | with_reducible apply h1
    | with_reducible apply State.fetch_kept
    | with_reducible apply State.coreFault_kept
    | with_reducible apply State.memUncorrected_kept
    | with_reducible apply State.issued_kept
    | with_reducible apply Kept.ite
    | with_reducible refine Kept.of_fst ?_ (by assumption)
    | split

theorem State.setReg_kept {a : State} : ∀ x0 x1 x2 x3, Kept a x0 → Kept a (State.setReg x0 x1 x2 x3) := by
  intro x0 x1 x2 x3 h0
  unfold State.setReg
  repeat' first | with_reducible assumption | with_reducible apply State.modCore_kept

theorem State.enqueue_kept {a : State} : ∀ x0 x1 x2 x3 x4, Kept a x0 → Kept a (State.enqueue x0 x1 x2 x3 x4) := by
  intro x0 x1 x2 x3 x4 h0
  unfold State.enqueue
  repeat' first
    | with_reducible assumption
    | with_reducible intro _
    | with_reducible apply State.control_kept
    | with_reducible apply State.modQueue_kept
    | with_reducible apply State.settle_kept
    | with_reducible apply State.setCore_kept
    | with_reducible apply Kept.ite

end Sys2Proof.Machine
end

