-- ==== Sys2Proof/Laws/KeptEnviron.lean ====
section
/-! SUPPORT. What the operations of Environ keep (Laws/Kept.lean). -/

namespace Sys2Proof.Machine

theorem State.delayed_kept {a : State} : ∀ x0 x1 x2, Kept a x0 → Kept a (State.delayed x0 x1 x2) := by
  intro x0 x1 x2 h0
  unfold State.delayed
  repeat' first
    | with_reducible assumption
    | with_reducible intro _
    | with_reducible apply State.addObj_kept
    | with_reducible apply Kept.foldl
    | split

theorem execMemRefresh_kept {a : State} : ∀ x0 x1 x2, Kept a x2 → KeptOut a (execMemRefresh x0 x1 x2) := by
  intro x0 x1 x2 h0
  unfold execMemRefresh
  repeat' first
    | with_reducible assumption
    | with_reducible apply State.delayed_kept
    | with_reducible apply KeptOut.next
    | with_reducible apply Kept.ite

theorem execBulkRetune_kept {a : State} : ∀ x0 x1 x2, Kept a x2 → KeptOut a (execBulkRetune x0 x1 x2) := by
  intro x0 x1 x2 h0
  unfold execBulkRetune
  repeat' first
    | with_reducible assumption
    | with_reducible apply State.delayed_kept
    | with_reducible apply KeptOut.next
    | with_reducible apply Kept.ite

theorem execScrubPass_kept {a : State} : ∀ x0 x1 x2, Kept a x2 → KeptOut a (execScrubPass x0 x1 x2) := by
  intro x0 x1 x2 h0
  unfold execScrubPass
  repeat' first
    | with_reducible assumption
    | with_reducible intro _
    | with_reducible apply State.plant_kept
    | with_reducible apply State.bump_kept
    | with_reducible apply State.memUncorrected_kept
    | with_reducible apply KeptOut.next
    | with_reducible apply KeptOut.ite
    | with_reducible apply Kept.foldl

theorem execModuleTempRead_kept {a : State} : ∀ x0 x1, Kept a x1 → KeptOut a (execModuleTempRead x0 x1) := by
  intro x0 x1 h0
  unfold execModuleTempRead
  repeat' first
    | with_reducible assumption
    | with_reducible intro _
    | with_reducible apply State.whenUp_kept
    | with_reducible apply KeptOut.next
    | lift_lets -underBinder
    | (with_reducible refine Kept.mk' ?_ rfl rfl rfl rfl rfl rfl rfl rfl)

theorem execOpticsCycle_kept {a : State} : ∀ x0 x1 x2, Kept a x2 → KeptOut a (execOpticsCycle x0 x1 x2) := by
  intro x0 x1 x2 h0
  unfold execOpticsCycle
  repeat' first
    | with_reducible assumption
    | with_reducible intro _
    | with_reducible apply State.whenUp_kept
    | with_reducible apply KeptOut.next
    | lift_lets -underBinder
    | (with_reducible refine Kept.mk' ?_ rfl rfl rfl rfl rfl rfl rfl rfl)

theorem State.levelValues_kept {a : State} : ∀ x0 x1, Kept a x0 → Kept a (State.levelValues x0 x1).1 := by
  intro x0 x1 h0
  unfold State.levelValues
  repeat' first | with_reducible assumption | with_reducible apply State.fresh_kept

theorem State.laneObjects_kept {a : State} : ∀ x0 x1, Kept a x0 → Kept a (State.laneObjects x0 x1) := by
  intro x0 x1 h0
  unfold State.laneObjects
  repeat' first
    | with_reducible assumption
    | with_reducible intro _
    | with_reducible apply State.setObj_kept
    | with_reducible apply Kept.foldl

theorem execLevelRunStart_kept {a : State} : ∀ x0, Kept a x0 → KeptOut a (execLevelRunStart x0) := by
  intro x0 h0
  unfold execLevelRunStart
  repeat' first
    | with_reducible assumption
    | with_reducible intro _
    | with_reducible apply State.whenUp_kept
    | with_reducible apply State.advanceTo_kept
    | with_reducible apply KeptOut.next
    | split
    | lift_lets -underBinder
    | (with_reducible refine Kept.mk' ?_ rfl rfl rfl rfl rfl rfl rfl rfl)

theorem State.levelNow_kept {a : State} : ∀ x0, Kept a x0 → Kept a (State.levelNow x0) := by
  intro x0 h0
  unfold State.levelNow
  repeat' first
    | with_reducible assumption
    | with_reducible intro _
    | lift_lets -underBinder
    | (with_reducible refine Kept.mk' ?_ rfl rfl rfl rfl rfl rfl rfl rfl)

theorem execLevelRunEnd_kept {a : State} : ∀ x0 x1, Kept a x1 → KeptOut a (execLevelRunEnd x0 x1) := by
  intro x0 x1 h0
  unfold execLevelRunEnd
  repeat' first
    | with_reducible assumption
    | with_reducible intro _
    | with_reducible apply State.levelValues_kept
    | with_reducible apply State.laneObjects_kept
    | with_reducible apply State.setObj_kept
    | with_reducible apply State.bump_kept
    | with_reducible apply State.bumpChange_kept
    | with_reducible apply KeptOut.next
    | with_reducible apply KeptOut.ite
    | with_reducible apply Kept.ite
    | with_reducible apply Kept.foldl
    | lift_lets -underBinder
    | (with_reducible refine Kept.mk' ?_ rfl rfl rfl rfl rfl rfl rfl rfl)

theorem State.setLevel_kept {a : State} : ∀ x0 x1 x2, Kept a x0 → Kept a (State.setLevel x0 x1 x2) := by
  intro x0 x1 x2 h0
  unfold State.setLevel
  repeat' first
    | with_reducible assumption
    | with_reducible apply State.bump_kept
    | with_reducible apply State.setObj_kept
    | with_reducible apply Kept.ite

theorem execThermDecision_kept {a : State} : ∀ x0 x1 x2 x3 x4, Kept a x4 → KeptOut a (execThermDecision x0 x1 x2 x3 x4) := by
  intro x0 x1 x2 x3 x4 h0
  unfold execThermDecision
  repeat' first
    | with_reducible assumption
    | with_reducible intro _
    | with_reducible apply State.whenUp_kept
    | with_reducible apply State.setLevel_kept
    | with_reducible apply State.advanceTo_kept
    | with_reducible apply KeptOut.next
    | with_reducible apply KeptOut.ite
    | lift_lets -underBinder
    | (with_reducible refine Kept.mk' ?_ rfl rfl rfl rfl rfl rfl rfl rfl)

theorem execThermCrit_kept {a : State} : ∀ x0 x1 x2 x3 x4, Kept a x4 → KeptOut a (execThermCrit x0 x1 x2 x3 x4) := by
  intro x0 x1 x2 x3 x4 h0
  unfold execThermCrit
  repeat' first
    | with_reducible assumption
    | with_reducible intro _
    | with_reducible apply State.whenUp_kept
    | with_reducible apply State.setLevel_kept
    | with_reducible apply State.advise_kept
    | with_reducible apply State.bump_kept
    | with_reducible apply KeptOut.next
    | with_reducible apply KeptOut.ite
    | lift_lets -underBinder
    | dsimp -zeta only
    | (with_reducible refine Kept.mk' ?_ rfl rfl rfl rfl rfl rfl rfl rfl)

theorem execThermShutdown_kept {a : State} : ∀ x0 x1 x2, Kept a x2 → KeptOut a (execThermShutdown x0 x1 x2) := by
  intro x0 x1 x2 h0
  unfold execThermShutdown
  repeat' first
    | with_reducible assumption
    | with_reducible intro _
    | with_reducible apply State.whenUp_kept
    | with_reducible apply State.raise_kept
    | with_reducible apply State.advanceTo_kept
    | with_reducible apply KeptOut.next
    | with_reducible apply KeptOut.ite
    | split
    | lift_lets -underBinder
    | dsimp -zeta only
    | (with_reducible refine Kept.mk' ?_ rfl rfl rfl rfl rfl rfl rfl rfl)

theorem execOvercurrent_kept {a : State} : ∀ x0 x1, Kept a x1 → KeptOut a (execOvercurrent x0 x1) := by
  intro x0 x1 h0
  unfold execOvercurrent
  repeat' first
    | with_reducible assumption
    | with_reducible intro _
    | with_reducible apply State.whenUp_kept
    | with_reducible apply State.fresh_kept
    | with_reducible apply State.advise_kept
    | with_reducible apply State.bump_kept
    | with_reducible apply KeptOut.next
    | with_reducible apply KeptOut.ite
    | lift_lets -underBinder
    | (with_reducible refine Kept.mk' ?_ rfl rfl rfl rfl rfl rfl rfl rfl)

theorem execOvercurrentRestore_kept {a : State} : ∀ x0, Kept a x0 → KeptOut a (execOvercurrentRestore x0) := by
  intro x0 h0
  unfold execOvercurrentRestore
  repeat' first
    | with_reducible assumption
    | with_reducible intro _
    | with_reducible apply KeptOut.next
    | lift_lets -underBinder
    | (with_reducible refine Kept.mk' ?_ rfl rfl rfl rfl rfl rfl rfl rfl)

theorem execSupplyOut_kept {a : State} : ∀ x0, Kept a x0 → KeptOut a (execSupplyOut x0) := by
  intro x0 h0
  unfold execSupplyOut
  repeat' first
    | with_reducible assumption
    | with_reducible apply State.fresh_kept
    | with_reducible apply State.raise_kept
    | with_reducible apply KeptOut.next
    | with_reducible apply KeptOut.ite

end Sys2Proof.Machine
end

