-- ==== Sys2Proof/Laws/KeptCollPlan.lean ====
section
/-! SUPPORT. What the operations of CollPlan keep (Laws/Kept.lean). -/

namespace Sys2Proof.Machine

theorem State.modGroup_kept {a : State} : ∀ x0 x1 x2, Kept a x0 → Kept a (State.modGroup x0 x1 x2) := by
  intro x0 x1 x2 h0
  unfold State.modGroup
  repeat' first
    | with_reducible assumption
    | (with_reducible refine Kept.mk' ?_ rfl rfl rfl rfl rfl rfl rfl rfl)

theorem State.setCseqs_kept {a : State} : ∀ x0 x1 x2, Kept a x0 → Kept a (State.setCseqs x0 x1 x2) := by
  intro x0 x1 x2 h0
  unfold State.setCseqs
  repeat' first
    | with_reducible assumption
    | with_reducible intro _
    | with_reducible apply State.modGroup_kept
    | with_reducible apply Kept.foldl

end Sys2Proof.Machine
end

