-- ==== Sys2Proof/Laws/KeptTensor.lean ====
section
/-! SUPPORT. What the operations of Tensor keep (Laws/Kept.lean). -/

namespace Sys2Proof.Machine

theorem State.storeRow_kept {a : State} : ∀ x0 x1 x2 x3, Kept a x0 → Kept a (State.storeRow x0 x1 x2 x3) := by
  intro x0 x1 x2 x3 h0
  unfold State.storeRow
  repeat' first | with_reducible assumption | with_reducible apply State.writeBytes_kept

theorem State.storeValues_kept {a : State} : ∀ x0 x1 x2 x3, Kept a x0 → Kept a (State.storeValues x0 x1 x2 x3).1 := by
  intro x0 x1 x2 x3 h0
  unfold State.storeValues
  repeat' first
    | with_reducible assumption
    | with_reducible intro _
    | with_reducible apply State.storeRow_kept
    | with_reducible apply Kept.foldl_fst

theorem State.storeCodes_kept {a : State} : ∀ x0 x1 x2, Kept a x0 → Kept a (State.storeCodes x0 x1 x2) := by
  intro x0 x1 x2 h0
  unfold State.storeCodes
  repeat' first
    | with_reducible assumption
    | with_reducible intro _
    | with_reducible apply State.writeBytes_kept
    | with_reducible apply Kept.foldl

theorem State.storeWords_kept {a : State} : ∀ x0 x1 x2, Kept a x0 → Kept a (State.storeWords x0 x1 x2) := by
  intro x0 x1 x2 h0
  unfold State.storeWords
  repeat' first | with_reducible assumption | with_reducible apply State.storeCodes_kept

theorem State.freeBytes_kept {a : State} : ∀ x0 x1, Kept a x0 → Kept a (State.freeBytes x0 x1).2 := by
  intro s n h
  induction n generalizing s with
  | zero => exact h
  | succ n ih => exact ih _ (State.fresh_kept h)

theorem State.freeRegions_kept {a : State} : ∀ x0 x1, Kept a x0 → Kept a (State.freeRegions x0 x1) := by
  intro x0 x1 h0
  unfold State.freeRegions
  repeat' first
    | with_reducible assumption
    | with_reducible intro _
    | with_reducible apply State.freeBytes_kept
    | with_reducible apply State.writeBytes_kept
    | with_reducible apply Kept.foldl

theorem State.residueFails_kept {a : State} : ∀ x0 x1 x2, Kept a x0 → Kept a (State.residueFails x0 x1 x2) := by
  intro s c n h
  induction n generalizing s with
  | zero => simp only [State.residueFails]; exact h
  | succ n ih =>
    unfold State.residueFails
    repeat' first
      | with_reducible assumption
      | with_reducible apply State.countCore_kept
      | with_reducible apply State.raiseParcel_kept
      | with_reducible apply ih
      | split

theorem State.sumsOpened_kept {a : State} : ∀ x0 x1, Kept a x0 → Kept a (State.sumsOpened x0 x1) := by
  intro x0 x1 h0
  unfold State.sumsOpened
  repeat' first
    | with_reducible assumption
    | with_reducible apply State.fresh_kept
    | with_reducible apply Kept.ite

theorem State.countSum_kept {a : State} : ∀ x0 x1 x2 x3, Kept a x0 → Kept a (State.countSum x0 x1 x2 x3) := by
  intro x0 x1 x2 x3 h0
  unfold State.countSum
  repeat' first
    | with_reducible assumption
    | with_reducible apply State.sumsOpened_kept
    | with_reducible apply State.residueFails_kept
    | with_reducible apply State.countCores_kept

theorem State.countConv_kept {a : State} : ∀ x0 x1 x2 x3 x4 x5, Kept a x0 → Kept a (State.countConv x0 x1 x2 x3 x4 x5) := by
  intro x0 x1 x2 x3 x4 x5 h0
  unfold State.countConv
  repeat' first | with_reducible assumption | with_reducible apply State.countCores_kept

end Sys2Proof.Machine
end

