-- ==== Sys2Proof/Laws/KeptCollVal.lean ====
section
/-! SUPPORT. What the operations of CollVal keep (Laws/Kept.lean). -/

namespace Sys2Proof.Machine

theorem State.countColl_kept {a : State} : ∀ x0 x1 x2, Kept a x0 → Kept a (State.countColl x0 x1 x2) := by
  intro x0 x1 x2 h0
  unfold State.countColl
  repeat' first
    | with_reducible assumption
    | with_reducible intro _
    | with_reducible apply State.sumsOpened_kept
    | with_reducible apply State.raiseParcel_kept
    | with_reducible apply State.addObj_kept
    | with_reducible apply Kept.foldl
    | split
    | dsimp -zeta only

theorem State.storeElems_kept {a : State} : ∀ x0 x1 x2 x3 x4, Kept a x0 → Kept a (State.storeElems x0 x1 x2 x3 x4) := by
  intro x0 x1 x2 x3 x4 h0
  unfold State.storeElems
  repeat' first
    | with_reducible assumption
    | with_reducible intro _
    | with_reducible apply State.writeBytes_kept
    | with_reducible apply Kept.ite
    | with_reducible apply Kept.foldl

end Sys2Proof.Machine
end

