-- ==== Sys2Proof/Laws/KeptSteEval.lean ====
section
/-! SUPPORT. What the operations of SteEval keep (Laws/Kept.lean). -/

namespace Sys2Proof.Machine

theorem State.setSte_kept {a : State} : ∀ x0 x1 x2, Kept a x0 → Kept a (State.setSte x0 x1 x2) := by
  intro x0 x1 x2 h0
  unfold State.setSte
  repeat' first
    | with_reducible assumption
    | (with_reducible refine Kept.mk' ?_ rfl rfl rfl rfl rfl rfl rfl rfl)

theorem State.stePoke_kept {a : State} : ∀ x0 x1 x2 x3 x4, Kept a x0 → Kept a (State.stePoke x0 x1 x2 x3 x4) := by
  intro x0 x1 x2 x3 x4 h0
  unfold State.stePoke
  repeat' first | with_reducible assumption | with_reducible apply State.writeBytes_kept

end Sys2Proof.Machine
end

