-- ==== Sys2Proof/Laws/KeptServe.lean ====
section
/-! SUPPORT. What the operations of Serve keep (Laws/Kept.lean). -/

namespace Sys2Proof.Machine

theorem State.servePut_kept {a : State} : ∀ x0 x1, Kept a x0 → Kept a (State.servePut x0 x1).1 := by
  intro x0 x1 h0
  unfold State.servePut
  repeat' first
    | with_reducible assumption
    | with_reducible apply State.storeBytes_kept
    | with_reducible apply State.memUncorrected_kept
    | with_reducible refine Kept.of_fst ?_ (by assumption)
    | split

theorem State.serveGet_kept {a : State} : ∀ x0 x1, Kept a x0 → Kept a (State.serveGet x0 x1).1 := by
  intro x0 x1 h0
  unfold State.serveGet
  repeat' first
    | with_reducible assumption
    | with_reducible intro _
    | with_reducible apply State.memUncorrected_kept
    | split
    | lift_lets -underBinder

theorem State.serveFlag_kept {a : State} : ∀ x0 x1, Kept a x0 → Kept a (State.serveFlag x0 x1).1 := by
  intro x0 x1 h0
  unfold State.serveFlag
  repeat' first | with_reducible assumption | with_reducible apply State.addFlag_kept

theorem State.serveMsg_kept {a : State} : ∀ x0 x1 x2 x3, Kept a x0 → Kept a (State.serveMsg x0 x1 x2 x3).1 := by
  intro x0 x1 x2 x3 h0
  unfold State.serveMsg
  repeat' first
    | with_reducible assumption
    | with_reducible intro _
    | with_reducible apply State.storeBytes_kept
    | with_reducible apply State.memUncorrected_kept
    | with_reducible apply State.addFlag_kept
    | split
    | lift_lets -underBinder

theorem State.serve_kept {a : State} : ∀ x0 x1 x2 x3, Kept a x0 → Kept a (State.serve x0 x1 x2 x3).1 := by
  intro x0 x1 x2 x3 h0
  unfold State.serve
  repeat' first
    | with_reducible assumption
    | with_reducible apply State.serveFlag_kept
    | with_reducible apply State.servePut_kept
    | with_reducible apply State.serveConvert_kept
    | with_reducible apply State.serveGet_kept
    | with_reducible apply State.serveAcc_kept
    | with_reducible apply State.serveMsg_kept
    | split

end Sys2Proof.Machine
end

