-- ==== Sys2Proof/Laws/KeptTxe.lean ====
section
/-! SUPPORT. What the operations of Txe keep (Laws/Kept.lean). -/

namespace Sys2Proof.Machine

theorem State.countMoved_kept {a : State} : ∀ x0 x1 x2 x3, Kept a x0 → Kept a (State.countMoved x0 x1 x2 x3) := by
  intro x0 x1 x2 x3 h0
  unfold State.countMoved
  repeat' first
    | with_reducible assumption
    | with_reducible apply State.countConv_kept
    | with_reducible apply State.residueFails_kept
    | with_reducible apply State.countCores_kept

theorem State.inject_kept {a : State} : ∀ x0 x1 x2, Kept a x0 → Kept a (State.inject x0 x1 x2) := by
  intro x0 x1 x2 h0
  unfold State.inject
  repeat' first
    | with_reducible assumption
    | (with_reducible refine Kept.mk' ?_ rfl rfl rfl rfl rfl rfl rfl rfl)

theorem State.sendOne_kept {a : State} : ∀ x0 x1 x2 x3, Kept a x0 → Kept a (State.sendOne x0 x1 x2 x3) := by
  intro x0 x1 x2 x3 h0
  unfold State.sendOne
  repeat' first
    | with_reducible assumption
    | with_reducible apply State.setCore_kept
    | with_reducible apply State.inject_kept

theorem State.sendEntry_kept {a : State} : ∀ x0 x1 x2 x3, Kept a x0 → Kept a (State.sendEntry x0 x1 x2 x3) := by
  intro s c i n h
  induction n generalizing s with
  | zero => simp only [State.sendEntry]; exact h
  | succ n ih =>
    unfold State.sendEntry
    repeat' first
      | with_reducible assumption
      | with_reducible intro _
      | with_reducible apply State.sendOne_kept
      | with_reducible apply ih
      | with_reducible apply Kept.ite
      | split
      | lift_lets -underBinder

theorem State.sendAll_kept {a : State} : ∀ x0 x1, Kept a x0 → Kept a (State.sendAll x0 x1) := by
  intro x0 x1 h0
  unfold State.sendAll
  repeat' first
    | with_reducible assumption
    | with_reducible intro _
    | with_reducible apply State.sendEntry_kept
    | with_reducible apply Kept.foldl

theorem State.endRefused_kept {a : State} : ∀ x0 x1 x2 x3, Kept a x0 → Kept a (State.endRefused x0 x1 x2 x3) := by
  intro x0 x1 x2 x3 h0
  unfold State.endRefused
  repeat' first
    | with_reducible assumption
    | with_reducible apply State.coreFault_kept
    | with_reducible apply State.dropEntry_kept
    | split

theorem State.answered_kept {a : State} : ∀ x0 x1 x2 x3 x4 x5, Kept a x0 → Kept a (State.answered x0 x1 x2 x3 x4 x5) := by
  intro x0 x1 x2 x3 x4 x5 h0
  unfold State.answered
  repeat' first
    | with_reducible assumption
    | with_reducible apply State.setEntry_kept
    | with_reducible apply State.endRefused_kept
    | with_reducible apply State.dropEntry_kept
    | with_reducible apply Kept.ite
    | split

theorem State.serveDirect_kept {a : State} : ∀ x0 x1 x2 x3, Kept a x0 → Kept a (State.serveDirect x0 x1 x2 x3).1 := by
  intro x0 x1 x2 x3 h0
  unfold State.serveDirect
  repeat' first
    | with_reducible assumption
    | with_reducible apply State.serve_kept
    | with_reducible apply State.setCore_kept
    | with_reducible refine Kept.of_fst ?_ (by assumption)
    | split

theorem State.txeBuild_kept {a : State} : ∀ x0 x1 x2 x3, Kept a x0 → Kept a (State.txeBuild x0 x1 x2 x3).1 := by
  intro x0 x1 x2 x3 h0
  unfold State.txeBuild
  repeat' first | with_reducible assumption | with_reducible apply State.countMoved_kept | split

theorem State.startTxe_kept {a : State} : ∀ x0 x1 x2 x3 x4, Kept a x0 → Kept a (State.startTxe x0 x1 x2 x3 x4) := by
  intro x0 x1 x2 x3 x4 h0
  unfold State.startTxe
  repeat' first
    | with_reducible assumption
    | (intro y; refine Kept.cut (a := a) y ?_ ?_; unfold y)
    | with_reducible intro _
    | with_reducible apply State.countRefused_kept
    | with_reducible apply State.coreFault_kept
    | with_reducible apply State.memUncorrected_kept
    | with_reducible apply State.txeBuild_kept
    | with_reducible apply State.setEntry_kept
    | with_reducible apply State.serveDirect_kept
    | with_reducible apply State.endRefused_kept
    | with_reducible apply State.sendAll_kept
    | with_reducible apply Kept.ite
    | with_reducible apply Kept.foldl_fst
    | with_reducible refine Kept.of_fst ?_ (by assumption)
    | split
    | lift_lets -underBinder

theorem State.writeRuns_kept {a : State} : ∀ x0 x1, Kept a x0 → Kept a (State.writeRuns x0 x1) := by
  intro x0 x1 h0
  unfold State.writeRuns
  repeat' first
    | with_reducible assumption
    | with_reducible intro _
    | with_reducible apply State.writeBytes_kept
    | with_reducible apply Kept.foldl

theorem State.finishGet_kept {a : State} : ∀ x0 x1 x2 x3 x4, Kept a x0 → Kept a (State.finishGet x0 x1 x2 x3 x4).1 := by
  intro x0 x1 x2 x3 x4 h0
  unfold State.finishGet
  repeat' first
    | with_reducible assumption
    | with_reducible apply State.writeRuns_kept
    | with_reducible apply State.countMoved_kept

theorem State.txeFinish_kept {a : State} : ∀ x0 x1 x2, Kept a x0 → Kept a (State.txeFinish x0 x1 x2).1 := by
  intro x0 x1 x2 h0
  unfold State.txeFinish
  repeat' first
    | with_reducible assumption
    | with_reducible apply State.finishGet_kept
    | with_reducible apply State.modCore_kept
    | with_reducible apply State.writeBytes_kept
    | split

theorem State.completeTxe_kept {a : State} : ∀ x0 x1 x2 x3 x4, Kept a x0 → Kept a (State.completeTxe x0 x1 x2 x3 x4) := by
  intro x0 x1 x2 x3 x4 h0
  unfold State.completeTxe
  repeat' first
    | with_reducible assumption
    | with_reducible apply State.txeFinish_kept
    | with_reducible apply State.countCore_kept
    | with_reducible apply State.completeFlag_kept
    | with_reducible apply State.dropEntry_kept
    | with_reducible apply State.addFlag_kept
    | with_reducible apply State.serveFlag_kept
    | with_reducible apply State.sendAll_kept
    | with_reducible apply State.setEntry_kept
    | with_reducible apply Kept.ite
    | with_reducible refine Kept.of_fst ?_ (by assumption)
    | split

end Sys2Proof.Machine
end

