-- ==== Sys2Proof/Laws/KeptCollRun.lean ====
section
/-! SUPPORT. What the operations of CollRun keep (Laws/Kept.lean). -/

namespace Sys2Proof.Machine

theorem State.setColl_kept {a : State} : ∀ x0 x1, Kept a x0 → Kept a (State.setColl x0 x1) := by
  intro x0 x1 h0
  unfold State.setColl
  repeat' first
    | with_reducible assumption
    | (with_reducible refine Kept.mk' ?_ rfl rfl rfl rfl rfl rfl rfl rfl)

theorem State.dropColl_kept {a : State} : ∀ x0 x1 x2, Kept a x0 → Kept a (State.dropColl x0 x1 x2) := by
  intro x0 x1 x2 h0
  unfold State.dropColl
  repeat' first
    | with_reducible assumption
    | (with_reducible refine Kept.mk' ?_ rfl rfl rfl rfl rfl rfl rfl rfl)

theorem State.resTake_kept {a : State} : ∀ x0 x1 x2 x3, Kept a x0 → Kept a (State.resTake x0 x1 x2 x3) := by
  intro x0 x1 x2 x3 h0
  unfold State.resTake
  repeat' first | with_reducible assumption | with_reducible apply State.modCore_kept

theorem State.collSend_kept {a : State} : ∀ x0 x1 x2 x3 x4 x5 x6 x7, Kept a x0 → Kept a (State.collSend x0 x1 x2 x3 x4 x5 x6 x7).1 := by
  intro x0 x1 x2 x3 x4 x5 x6 x7 h0
  unfold State.collSend
  repeat' first
    | with_reducible assumption
    | with_reducible apply State.setSte_kept
    | with_reducible apply State.inject_kept

theorem State.coreSend_kept {a : State} : ∀ x0 x1 x2, Kept a x0 → Kept a (State.coreSend x0 x1 x2).1 := by
  intro x0 x1 x2 h0
  unfold State.coreSend
  repeat' first
    | with_reducible assumption
    | with_reducible apply State.setCore_kept
    | with_reducible apply State.inject_kept

theorem State.sendRange_kept {a : State} : ∀ x0 x1 x2 x3 x4 x5 x6 x7 x8, Kept a x0 → Kept a (State.sendRange x0 x1 x2 x3 x4 x5 x6 x7 x8).1 := by
  intro x0 x1 x2 x3 x4 x5 x6 x7 x8 h0
  unfold State.sendRange
  repeat' first
    | with_reducible assumption
    | with_reducible intro _
    | with_reducible apply State.collSend_kept
    | with_reducible apply Kept.foldl_fst

theorem State.coreSends_kept {a : State} : ∀ x0 x1 x2 x3, Kept a x0 → Kept a (State.coreSends x0 x1 x2 x3).1 := by
  intro x0 x1 x2 x3 h0
  unfold State.coreSends
  repeat' first
    | with_reducible assumption
    | with_reducible intro _
    | with_reducible apply State.coreSend_kept
    | with_reducible apply Kept.foldl_fst

theorem State.roundSend_kept {a : State} : ∀ x0 x1 x2, Kept a x0 → Kept a (State.roundSend x0 x1 x2).1 := by
  intro x0 x1 x2 h0
  unfold State.roundSend
  repeat' first
    | with_reducible assumption
    | with_reducible intro _
    | with_reducible apply State.collSend_kept
    | with_reducible apply State.sendRange_kept
    | with_reducible apply State.countColl_kept
    | with_reducible apply State.writeBytes_kept
    | with_reducible apply State.coreSends_kept
    | with_reducible apply Kept.foldl_fst
    | split

theorem State.piece_kept {a : State} : ∀ x0 x1 x2 x3, Kept a x0 → Kept a (State.piece x0 x1 x2 x3) := by
  intro x0 x1 x2 x3 h0
  unfold State.piece
  repeat' first
    | with_reducible assumption
    | with_reducible apply State.addFlag_kept
    | with_reducible apply Kept.ite

theorem State.takeResult_kept {a : State} : ∀ x0 x1 x2 x3 x4 x5, Kept a x0 → Kept a (State.takeResult x0 x1 x2 x3 x4 x5).1 := by
  intro x0 x1 x2 x3 x4 x5 h0
  unfold State.takeResult
  repeat' first
    | with_reducible assumption
    | (intro y; refine Kept.cut (a := a) y ?_ ?_; unfold y)
    | with_reducible intro _
    | with_reducible apply State.storeElems_kept
    | with_reducible apply State.piece_kept
    | with_reducible apply Kept.foldl
    | split
    | lift_lets -underBinder

theorem State.takeLanded_kept {a : State} : ∀ x0 x1 x2 x3 x4, Kept a x0 → Kept a (State.takeLanded x0 x1 x2 x3 x4).1 := by
  intro x0 x1 x2 x3 x4 h0
  unfold State.takeLanded
  repeat' first | with_reducible assumption | with_reducible apply State.takeResult_kept

theorem State.convertOwn_kept {a : State} : ∀ x0 x1 x2, Kept a x0 → Kept a (State.convertOwn x0 x1 x2).1 := by
  intro x0 x1 x2 h0
  unfold State.convertOwn
  repeat' first
    | with_reducible assumption
    | with_reducible apply State.addObj_kept
    | with_reducible apply State.takeResult_kept

theorem State.othersStatus_kept {a : State} : ∀ x0 x1, Kept a x0 → Kept a (State.othersStatus x0 x1).1 := by
  intro x0 x1 h0
  unfold State.othersStatus
  repeat' first | with_reducible assumption | with_reducible apply State.fresh_kept | split

theorem State.collError_kept {a : State} : ∀ x0 x1 x2, Kept a x0 → Kept a (State.collError x0 x1 x2) := by
  intro x0 x1 x2 h0
  unfold State.collError
  repeat' first | with_reducible assumption | with_reducible apply State.raiseParcel_kept

theorem State.collFault_kept {a : State} : ∀ x0 x1 x2, Kept a x0 → Kept a (State.collFault x0 x1 x2).1 := by
  intro x0 x1 x2 h0
  unfold State.collFault
  repeat' first
    | with_reducible assumption
    | with_reducible apply State.raiseParcel_kept
    | with_reducible apply State.bump_kept

theorem State.anchorCheck_kept {a : State} : ∀ x0 x1, Kept a x0 → Kept a (State.anchorCheck x0 x1).1 := by
  intro x0 x1 h0
  unfold State.anchorCheck
  repeat' first | with_reducible assumption | with_reducible apply State.collFault_kept | split

theorem State.roundTake_kept {a : State} : ∀ x0 x1 x2 x3, Kept a x0 → Kept a (State.roundTake x0 x1 x2 x3).1 := by
  intro x0 x1 x2 x3 h0
  unfold State.roundTake
  repeat' first
    | with_reducible assumption
    | (intro y; refine Kept.cut (a := a) y ?_ ?_; unfold y)
    | with_reducible intro _
    | with_reducible apply State.anchorCheck_kept
    | with_reducible apply State.collError_kept
    | with_reducible apply State.bump_kept
    | with_reducible apply State.countColl_kept
    | with_reducible apply State.takeResult_kept
    | with_reducible apply State.convertOwn_kept
    | with_reducible apply State.othersStatus_kept
    | with_reducible apply State.takeLanded_kept
    | with_reducible apply State.sendRange_kept
    | with_reducible apply State.resTake_kept
    | with_reducible apply State.addFlag_kept
    | with_reducible apply State.coreSends_kept
    | with_reducible apply Kept.ite
    | with_reducible apply Kept.foldl_fst
    | with_reducible refine Kept.of_fst ?_ (by assumption)
    | split
    | lift_lets -underBinder

theorem State.sendOwed_kept {a : State} : ∀ x0 x1, Kept a x0 → Kept a (State.sendOwed x0 x1).1 := by
  intro x0 x1 h0
  unfold State.sendOwed
  repeat' first
    | with_reducible assumption
    | with_reducible intro _
    | with_reducible apply State.coreSend_kept
    | with_reducible apply Kept.foldl_fst
    | split

theorem State.collGo_kept {a : State} : ∀ x0 x1 x2 x3, Kept a x2 → Kept a (State.collGo x0 x1 x2 x3) := by
  intro f n s c h
  induction n generalizing s c with
  | zero => exact State.setColl_kept _ _ h
  | succ n ih =>
    unfold State.collGo
    repeat' first
      | with_reducible assumption
      | with_reducible apply State.setColl_kept
      | with_reducible apply State.sendOwed_kept
      | with_reducible apply State.roundSend_kept
      | with_reducible apply State.roundTake_kept
      | with_reducible apply ih
      | with_reducible apply Kept.ite
      | with_reducible refine Kept.of_fst ?_ (by assumption)
      | split

end Sys2Proof.Machine
end

