-- ==== Sys2Proof/Laws/KeptPool.lean ====
section
/-! SUPPORT. What the operations of Pool keep (Laws/Kept.lean). -/

namespace Sys2Proof.Machine

theorem State.setPool_kept {a : State} : ∀ x0 x1 x2, Kept a x0 → Kept a (State.setPool x0 x1 x2) := by
  intro x0 x1 x2 h0
  unfold State.setPool
  repeat' first
    | with_reducible assumption
    | with_reducible intro _
    | with_reducible apply Kept.ite
    | lift_lets -underBinder
    | (with_reducible refine Kept.mk' ?_ rfl rfl rfl rfl rfl rfl rfl rfl)

theorem State.putPool_kept {a : State} : ∀ x0 x1 x2, Kept a x0 → Kept a (State.putPool x0 x1 x2) := by
  intro x0 x1 x2 h0
  unfold State.putPool
  repeat' first
    | with_reducible assumption
    | with_reducible apply State.raiseObj_kept
    | with_reducible apply State.setPool_kept

theorem State.listCorrupt_kept {a : State} : ∀ x0 x1 x2, Kept a x0 → Kept a (State.listCorrupt x0 x1 x2) := by
  intro x0 x1 x2 h0
  unfold State.listCorrupt
  repeat' first
    | with_reducible assumption
    | with_reducible apply State.setPool_kept
    | with_reducible apply State.raise_kept
    | with_reducible apply State.bump_kept

theorem State.alloc_kept {a : State} : ∀ x0 x1, Kept a x0 → Kept a (State.alloc x0 x1).1 := by
  intro x0 x1 h0
  unfold State.alloc
  repeat' first
    | with_reducible assumption
    | with_reducible intro _
    | with_reducible apply State.listCorrupt_kept
    | with_reducible apply State.putPool_kept
    | split
    | lift_lets -underBinder

theorem State.refuseBuf_kept {a : State} : ∀ x0 x1 x2 x3, Kept a x0 → Kept a (State.refuseBuf x0 x1 x2 x3) := by
  intro x0 x1 x2 x3 h0
  unfold State.refuseBuf
  repeat' first
    | with_reducible assumption
    | with_reducible apply State.bump_kept
    | with_reducible apply State.setObj_kept
    | with_reducible apply State.raise_kept
    | with_reducible apply Kept.ite

theorem State.release_kept {a : State} : ∀ x0 x1 x2, Kept a x0 → Kept a (State.release x0 x1 x2).1 := by
  intro x0 x1 x2 h0
  unfold State.release
  repeat' first
    | with_reducible assumption
    | with_reducible intro _
    | with_reducible apply State.refuseBuf_kept
    | with_reducible apply State.setPool_kept
    | split
    | lift_lets -underBinder

theorem State.share_kept {a : State} : ∀ x0 x1 x2 x3, Kept a x0 → Kept a (State.share x0 x1 x2 x3) := by
  intro x0 x1 x2 x3 h0
  unfold State.share
  repeat' first
    | with_reducible assumption
    | with_reducible apply State.refuseBuf_kept
    | with_reducible apply State.setPool_kept
    | with_reducible apply Kept.ite

theorem State.describe_kept {a : State} : ∀ x0 x1 x2 x3 x4 x5 x6, Kept a x0 → Kept a (State.describe x0 x1 x2 x3 x4 x5 x6) := by
  intro x0 x1 x2 x3 x4 x5 x6 h0
  unfold State.describe
  repeat' first | with_reducible assumption | with_reducible apply State.setPool_kept

theorem State.linkBuf_kept {a : State} : ∀ x0 x1 x2 x3, Kept a x0 → Kept a (State.linkBuf x0 x1 x2 x3) := by
  intro x0 x1 x2 x3 h0
  unfold State.linkBuf
  repeat' first | with_reducible assumption | with_reducible apply State.setPool_kept

theorem State.setInfo_kept {a : State} : ∀ x0 x1 x2, Kept a x0 → Kept a (State.setInfo x0 x1 x2) := by
  intro x0 x1 x2 h0
  unfold State.setInfo
  repeat' first
    | with_reducible assumption
    | with_reducible intro _
    | lift_lets -underBinder
    | (with_reducible refine Kept.mk' ?_ rfl rfl rfl rfl rfl rfl rfl rfl)

theorem State.grant_kept {a : State} : ∀ x0 x1, Kept a x0 → Kept a (State.grant x0 x1) := by
  intro x0 x1 h0
  unfold State.grant
  repeat' first
    | with_reducible assumption
    | with_reducible intro _
    | with_reducible apply Kept.ite
    | lift_lets -underBinder
    | (with_reducible refine Kept.mk' ?_ rfl rfl rfl rfl rfl rfl rfl rfl)

theorem State.giveBack_kept {a : State} : ∀ x0 x1, Kept a x0 → Kept a (State.giveBack x0 x1) := by
  intro x0 x1 h0
  unfold State.giveBack
  repeat' first
    | with_reducible assumption
    | with_reducible intro _
    | with_reducible apply State.grant_kept
    | with_reducible apply Kept.ite
    | lift_lets -underBinder
    | (with_reducible refine Kept.mk' ?_ rfl rfl rfl rfl rfl rfl rfl rfl)

theorem State.releaseCell_kept {a : State} : ∀ x0 x1, Kept a x0 → Kept a (State.releaseCell x0 x1) := by
  intro x0 x1 h0
  unfold State.releaseCell
  repeat' first
    | with_reducible assumption
    | (intro y; refine Kept.cut (a := a) y ?_ ?_; unfold y)
    | with_reducible intro _
    | with_reducible apply State.release_kept
    | with_reducible apply State.setInfo_kept
    | with_reducible apply State.giveBack_kept
    | with_reducible refine Kept.of_fst ?_ (by assumption)
    | split
    | lift_lets -underBinder
    | (with_reducible refine Kept.mk' ?_ rfl rfl rfl rfl rfl rfl rfl rfl)

theorem State.setOutQ_kept {a : State} : ∀ x0 x1 x2, Kept a x0 → Kept a (State.setOutQ x0 x1 x2) := by
  intro x0 x1 x2 h0
  unfold State.setOutQ
  repeat' first
    | with_reducible assumption
    | with_reducible intro _
    | lift_lets -underBinder
    | (with_reducible refine Kept.mk' ?_ rfl rfl rfl rfl rfl rfl rfl rfl)

theorem State.emptyDrop_kept {a : State} : ∀ x0 x1, Kept a x0 → Kept a (State.emptyDrop x0 x1) := by
  intro x0 x1 h0
  unfold State.emptyDrop
  repeat' first
    | with_reducible assumption
    | with_reducible apply State.bump_kept
    | with_reducible apply State.advise_kept
    | with_reducible apply Kept.ite

end Sys2Proof.Machine
end

