-- ==== Sys2Proof/Laws/KeptSwitch.lean ====
section
/-! SUPPORT. What the operations of Switch keep (Laws/Kept.lean). -/

namespace Sys2Proof.Machine

theorem State.setStage_kept {a : State} : ∀ x0 x1 x2, Kept a x0 → Kept a (State.setStage x0 x1 x2) := by
  intro x0 x1 x2 h0
  unfold State.setStage
  repeat' first
    | with_reducible assumption
    | with_reducible intro _
    | lift_lets -underBinder
    | (with_reducible refine Kept.mk' ?_ rfl rfl rfl rfl rfl rfl rfl rfl)

theorem State.discardCredit_kept {a : State} : ∀ x0 x1 x2 x3, Kept a x0 → Kept a (State.discardCredit x0 x1 x2 x3) := by
  intro x0 x1 x2 x3 h0
  unfold State.discardCredit
  repeat' first
    | with_reducible assumption
    | with_reducible apply State.giveBack_kept
    | with_reducible apply Kept.ite
    | split

theorem State.examine_kept {a : State} : ∀ x0 x1 x2 x3 x4, Kept a x0 → Kept a (State.examine x0 x1 x2 x3 x4).1 := by
  intro x0 x1 x2 x3 x4 h0
  unfold State.examine
  repeat' first
    | with_reducible assumption
    | with_reducible intro _
    | with_reducible apply State.bump_kept
    | with_reducible apply Kept.ite
    | split
    | lift_lets -underBinder

theorem State.arrive_kept {a : State} : ∀ x0 x1 x2 x3 x4, Kept a x0 → Kept a (State.arrive x0 x1 x2 x3 x4) := by
  intro x0 x1 x2 x3 x4 h0
  unfold State.arrive
  repeat' first
    | with_reducible assumption
    | with_reducible apply State.discardCredit_kept
    | with_reducible apply State.setStage_kept
    | with_reducible apply Kept.ite

theorem State.joinTail_kept {a : State} : ∀ x0 x1, Kept a x0 → Kept a (State.joinTail x0 x1) := by
  intro x0 x1 h0
  unfold State.joinTail
  repeat' first
    | with_reducible assumption
    | with_reducible apply State.setOutQ_kept
    | with_reducible apply Kept.ite

theorem State.enqueuePkt_kept {a : State} : ∀ x0 x1 x2 x3 x4, Kept a x0 → Kept a (State.enqueuePkt x0 x1 x2 x3 x4) := by
  intro x0 x1 x2 x3 x4 h0
  unfold State.enqueuePkt
  repeat' first
    | with_reducible assumption
    | with_reducible intro _
    | with_reducible apply State.releaseCell_kept
    | with_reducible apply State.emptyDrop_kept
    | with_reducible apply State.setOutQ_kept
    | with_reducible apply State.bump_kept
    | with_reducible apply State.raiseObj_kept
    | with_reducible apply Kept.ite
    | with_reducible apply Kept.foldl

theorem State.setPart_kept {a : State} : ∀ x0 x1 x2 x3, Kept a x0 → Kept a (State.setPart x0 x1 x2 x3) := by
  intro x0 x1 x2 x3 h0
  unfold State.setPart
  repeat' first
    | with_reducible assumption
    | with_reducible intro _
    | lift_lets -underBinder
    | (with_reducible refine Kept.mk' ?_ rfl rfl rfl rfl rfl rfl rfl rfl)

theorem State.unbind_kept {a : State} : ∀ x0 x1 x2 x3, Kept a x0 → Kept a (State.unbind x0 x1 x2 x3) := by
  intro x0 x1 x2 x3 h0
  unfold State.unbind
  repeat' first
    | with_reducible assumption
    | with_reducible intro _
    | with_reducible apply State.setPart_kept
    | with_reducible apply State.releaseCell_kept
    | with_reducible apply State.discardCredit_kept
    | with_reducible apply State.setStage_kept
    | with_reducible apply Kept.ite
    | with_reducible apply Kept.foldl
    | split

theorem State.dropAt_kept {a : State} : ∀ x0 x1 x2 x3 x4 x5, Kept a x0 → Kept a (State.dropAt x0 x1 x2 x3 x4 x5) := by
  intro x0 x1 x2 x3 x4 x5 h0
  unfold State.dropAt
  repeat' first
    | with_reducible assumption
    | with_reducible apply State.bump_kept
    | with_reducible apply State.addObj_kept
    | with_reducible apply State.unbind_kept
    | with_reducible apply Kept.ite

theorem State.giveCell_kept {a : State} : ∀ x0 x1 x2 x3 x4 x5, Kept a x0 → Kept a (State.giveCell x0 x1 x2 x3 x4 x5) := by
  intro x0 x1 x2 x3 x4 x5 h0
  unfold State.giveCell
  repeat' first
    | with_reducible assumption
    | with_reducible intro _
    | with_reducible apply State.linkBuf_kept
    | with_reducible apply State.setPart_kept
    | with_reducible apply State.enqueuePkt_kept
    | with_reducible apply State.setStage_kept
    | with_reducible apply Kept.ite
    | with_reducible apply Kept.foldl
    | split

theorem State.account_kept {a : State} : ∀ x0 x1 x2 x3, Kept a x0 → Kept a (State.account x0 x1 x2 x3) := by
  intro x0 x1 x2 x3 h0
  unfold State.account
  repeat' first
    | with_reducible assumption
    | (intro y; refine Kept.cut (a := a) y ?_ ?_; unfold y)
    | with_reducible intro _
    | with_reducible apply State.setInfo_kept
    | split
    | (clear_value *; split)
    | lift_lets -underBinder
    | (with_reducible refine Kept.mk' ?_ rfl rfl rfl rfl rfl rfl rfl rfl)

theorem State.transfer_kept {a : State} : ∀ x0 x1 x2 x3, Kept a x0 → Kept a (State.transfer x0 x1 x2 x3) := by
  intro x0 x1 x2 x3 h0
  unfold State.transfer
  repeat' first
    | with_reducible assumption
    | with_reducible intro _
    | with_reducible apply State.bump_kept
    | with_reducible apply State.dropAt_kept
    | with_reducible apply State.giveCell_kept
    | with_reducible apply State.discardCredit_kept
    | with_reducible apply State.share_kept
    | with_reducible apply State.alloc_kept
    | with_reducible apply State.unbind_kept
    | with_reducible apply State.emptyDrop_kept
    | with_reducible apply State.describe_kept
    | with_reducible apply State.account_kept
    | with_reducible apply Kept.ite
    | with_reducible apply Kept.foldl
    | with_reducible refine Kept.of_fst ?_ (by assumption)
    | split
    | lift_lets -underBinder
    | (with_reducible refine Kept.mk' ?_ rfl rfl rfl rfl rfl rfl rfl rfl)

theorem State.movePointers_kept {a : State} : ∀ x0 x1, Kept a x0 → Kept a (State.movePointers x0 x1) := by
  intro x0 x1 h0
  unfold State.movePointers
  repeat' first
    | with_reducible assumption
    | with_reducible intro _
    | lift_lets -underBinder
    | (with_reducible refine Kept.mk' ?_ rfl rfl rfl rfl rfl rfl rfl rfl)

theorem State.slotMatch_kept {a : State} : ∀ x0, Kept a x0 → Kept a (State.slotMatch x0) := by
  intro x0 h0
  unfold State.slotMatch
  repeat' first
    | with_reducible assumption
    | with_reducible intro _
    | with_reducible apply State.movePointers_kept
    | with_reducible apply State.transfer_kept
    | with_reducible apply Kept.foldl

theorem State.countHeld_kept {a : State} : ∀ x0, Kept a x0 → Kept a (State.countHeld x0) := by
  intro x0 h0
  unfold State.countHeld
  repeat' first
    | with_reducible assumption
    | with_reducible intro _
    | with_reducible apply State.bump_kept
    | with_reducible apply Kept.ite
    | with_reducible apply Kept.foldl
    | split

theorem State.setTxq_kept {a : State} : ∀ x0 x1 x2, Kept a x0 → Kept a (State.setTxq x0 x1 x2) := by
  intro x0 x1 x2 h0
  unfold State.setTxq
  repeat' first
    | with_reducible assumption
    | (with_reducible refine Kept.mk' ?_ rfl rfl rfl rfl rfl rfl rfl rfl)

theorem State.beginItem_kept {a : State} : ∀ x0 x1 x2, Kept a x0 → Kept a (State.beginItem x0 x1 x2) := by
  intro x0 x1 x2 h0
  unfold State.beginItem
  repeat' first
    | with_reducible assumption
    | with_reducible intro _
    | with_reducible apply State.examine_kept
    | with_reducible apply State.arrive_kept
    | with_reducible apply Kept.ite
    | lift_lets -underBinder
    | (with_reducible refine Kept.mk' ?_ rfl rfl rfl rfl rfl rfl rfl rfl)

theorem State.offer_kept {a : State} : ∀ x0 x1 x2, Kept a x0 → Kept a (State.offer x0 x1 x2) := by
  intro x0 x1 x2 h0
  unfold State.offer
  repeat' first
    | with_reducible assumption
    | with_reducible apply State.arrive_kept
    | with_reducible apply State.setTxq_kept
    | with_reducible apply State.beginItem_kept
    | with_reducible apply Kept.ite
    | split

theorem State.offerAll_kept {a : State} : ∀ x0, Kept a x0 → Kept a (State.offerAll x0) := by
  intro x0 h0
  unfold State.offerAll
  repeat' first
    | with_reducible assumption
    | with_reducible intro _
    | with_reducible apply State.offer_kept
    | with_reducible apply Kept.foldl

end Sys2Proof.Machine
end

