-- ==== Sys2Proof/Laws/KeptReceive.lean ====
section
/-! SUPPORT. What the operations of Receive keep (Laws/Kept.lean). -/

namespace Sys2Proof.Machine

theorem State.taken_kept {a : State} : ∀ x0 x1 x2, Kept a x0 → Kept a (State.taken x0 x1 x2) := by
  intro x0 x1 x2 h0
  unfold State.taken
  repeat' first
    | with_reducible assumption
    | (with_reducible refine Kept.mk' ?_ rfl rfl rfl rfl rfl rfl rfl rfl)

theorem State.discardRx_kept {a : State} : ∀ x0 x1, Kept a x0 → Kept a (State.discardRx x0 x1) := by
  intro x0 x1 h0
  unfold State.discardRx
  repeat' first | with_reducible assumption | with_reducible apply State.bump_kept | split

theorem State.refuseRx_kept {a : State} : ∀ x0 x1, Kept a x0 → Kept a (State.refuseRx x0 x1) := by
  intro x0 x1 h0
  unfold State.refuseRx
  repeat' first | with_reducible assumption | with_reducible apply State.bump_kept | split

theorem State.onward_kept {a : State} : ∀ x0 x1 x2, Kept a x0 → Kept a (State.onward x0 x1 x2) := by
  intro x0 x1 x2 h0
  unfold State.onward
  repeat' first
    | with_reducible assumption
    | with_reducible apply State.bump_kept
    | with_reducible apply State.setTxq_kept
    | with_reducible apply Kept.ite
    | split

theorem State.reply_kept {a : State} : ∀ x0 x1 x2 x3, Kept a x0 → Kept a (State.reply x0 x1 x2 x3) := by
  intro x0 x1 x2 x3 h0
  unfold State.reply
  repeat' first
    | with_reducible assumption
    | with_reducible apply State.setTxq_kept
    | with_reducible apply State.inject_kept
    | with_reducible apply Kept.ite

theorem State.respond_kept {a : State} : ∀ x0 x1 x2 x3 x4, Kept a x0 → Kept a (State.respond x0 x1 x2 x3 x4) := by
  intro x0 x1 x2 x3 x4 h0
  unfold State.respond
  repeat' first | with_reducible assumption | with_reducible apply State.reply_kept

theorem State.checkRequest_kept {a : State} : ∀ x0 x1 x2, Kept a x0 → Kept a (State.checkRequest x0 x1 x2).s := by
  intro x0 x1 x2 h0
  unfold State.checkRequest
  repeat' first
    | with_reducible assumption
    | with_reducible apply State.discardRx_kept
    | with_reducible apply State.bump_kept
    | with_reducible apply State.onward_kept
    | split

theorem State.notePeer_kept {a : State} : ∀ x0 x1, Kept a x0 → Kept a (State.notePeer x0 x1) := by
  intro x0 x1 h0
  unfold State.notePeer
  repeat' first | with_reducible assumption | with_reducible apply State.bump_kept | split

theorem State.settleRequest_kept {a : State} : ∀ x0 x1 x2 x3 x4, Kept a x0 → Kept a (State.settleRequest x0 x1 x2 x3 x4) := by
  intro x0 x1 x2 x3 x4 h0
  unfold State.settleRequest
  repeat' first
    | with_reducible assumption
    | with_reducible apply State.serve_kept
    | with_reducible apply State.notePeer_kept
    | with_reducible apply State.refuseRx_kept
    | with_reducible apply State.respond_kept
    | with_reducible apply State.countRefused_kept
    | with_reducible apply Kept.ite
    | split

theorem State.takeRequest_kept {a : State} : ∀ x0 x1 x2, Kept a x0 → Kept a (State.takeRequest x0 x1 x2) := by
  intro x0 x1 x2 h0
  unfold State.takeRequest
  repeat' first
    | with_reducible assumption
    | with_reducible intro _
    | with_reducible apply State.checkRequest_kept
    | with_reducible apply State.taken_kept
    | with_reducible apply State.settleRequest_kept
    | split
    | lift_lets -underBinder

theorem State.rxRequest_kept {a : State} : ∀ x0 x1 x2 x3 x4, Kept a x0 → Kept a (State.rxRequest x0 x1 x2 x3 x4) := by
  intro x0 x1 x2 x3 x4 h0
  unfold State.rxRequest
  repeat' first
    | with_reducible assumption
    | with_reducible apply State.takeRequest_kept
    | with_reducible apply State.plant_kept
    | with_reducible apply Kept.ite

theorem execRxPut_kept {a : State} : ∀ x0 x1 x2 x3, Kept a x3 → KeptOut a (execRxPut x0 x1 x2 x3) := by
  intro x0 x1 x2 x3 h0
  unfold execRxPut
  repeat' first
    | with_reducible assumption
    | with_reducible apply State.rxRequest_kept
    | with_reducible apply KeptOut.next

theorem execRxFlagPacket_kept {a : State} : ∀ x0 x1 x2, Kept a x2 → KeptOut a (execRxFlagPacket x0 x1 x2) := by
  intro x0 x1 x2 h0
  unfold execRxFlagPacket
  repeat' first
    | with_reducible assumption
    | with_reducible apply State.rxRequest_kept
    | with_reducible apply KeptOut.next

theorem execRxGet_kept {a : State} : ∀ x0 x1 x2 x3, Kept a x3 → KeptOut a (execRxGet x0 x1 x2 x3) := by
  intro x0 x1 x2 x3 h0
  unfold execRxGet
  repeat' first
    | with_reducible assumption
    | with_reducible apply State.rxRequest_kept
    | with_reducible apply KeptOut.next

theorem execRxAcc_kept {a : State} : ∀ x0 x1 x2 x3, Kept a x3 → KeptOut a (execRxAcc x0 x1 x2 x3) := by
  intro x0 x1 x2 x3 h0
  unfold execRxAcc
  repeat' first
    | with_reducible assumption
    | with_reducible apply State.rxRequest_kept
    | with_reducible apply KeptOut.next

theorem execRxMsg_kept {a : State} : ∀ x0 x1 x2, Kept a x2 → KeptOut a (execRxMsg x0 x1 x2) := by
  intro x0 x1 x2 h0
  unfold execRxMsg
  repeat' first
    | with_reducible assumption
    | with_reducible apply State.rxRequest_kept
    | with_reducible apply KeptOut.next

theorem State.coreAnswer_kept {a : State} : ∀ x0 x1 x2 x3 x4, Kept a x0 → Kept a (State.coreAnswer x0 x1 x2 x3 x4) := by
  intro x0 x1 x2 x3 x4 h0
  unfold State.coreAnswer
  repeat' first
    | with_reducible assumption
    | with_reducible apply State.modCore_kept
    | with_reducible apply State.sendAll_kept
    | with_reducible apply State.answered_kept

theorem State.coreResponse_kept {a : State} : ∀ x0 x1 x2 x3, Kept a x0 → Kept a (State.coreResponse x0 x1 x2 x3) := by
  intro x0 x1 x2 x3 h0
  unfold State.coreResponse
  repeat' first
    | with_reducible assumption
    | with_reducible apply State.coreAnswer_kept
    | with_reducible apply State.discardRx_kept
    | with_reducible apply Kept.ite
    | split

end Sys2Proof.Machine
end

