-- ==== Sys2Proof/Laws/KeptCollCmd.lean ====
section
/-! SUPPORT. What the operations of CollCmd keep (Laws/Kept.lean). -/

namespace Sys2Proof.Machine

theorem State.collRun_kept {a : State} : ∀ x0 x1, Kept a x0 → Kept a (State.collRun x0 x1) := by
  intro x0 x1 h0
  unfold State.collRun
  repeat' first | with_reducible assumption | with_reducible apply State.collGo_kept

theorem State.recvRefuse_kept {a : State} : ∀ x0 x1 x2, Kept a x0 → Kept a (State.recvRefuse x0 x1 x2).1 := by
  intro x0 x1 x2 h0
  unfold State.recvRefuse
  repeat' first | with_reducible assumption | with_reducible apply State.bump_kept

theorem State.mismatch_kept {a : State} : ∀ x0 x1 x2 x3, Kept a x0 → Kept a (State.mismatch x0 x1 x2 x3) := by
  intro x0 x1 x2 x3 h0
  unfold State.mismatch
  repeat' first
    | with_reducible assumption
    | with_reducible apply State.raiseParcel_kept
    | with_reducible apply State.bump_kept

theorem State.landRecord_kept {a : State} : ∀ x0 x1 x2 x3 x4 x5 x6 x7, Kept a x0 → Kept a (State.landRecord x0 x1 x2 x3 x4 x5 x6 x7) := by
  intro x0 x1 x2 x3 x4 x5 x6 x7 h0
  unfold State.landRecord
  repeat' first
    | with_reducible assumption
    | with_reducible apply State.bump_kept
    | with_reducible apply State.mismatch_kept
    | with_reducible apply State.setSte_kept
    | with_reducible apply State.writeBytes_kept
    | with_reducible apply Kept.ite

theorem State.landRecv_kept {a : State} : ∀ x0 x1 x2 x3 x4 x5, Kept a x0 → Kept a (State.landRecv x0 x1 x2 x3 x4 x5).1 := by
  intro x0 x1 x2 x3 x4 x5 h0
  unfold State.landRecv
  repeat' first
    | with_reducible assumption
    | with_reducible intro _
    | with_reducible apply State.recvRefuse_kept
    | with_reducible apply State.bump_kept
    | with_reducible apply State.landRecord_kept
    | with_reducible apply Kept.foldl
    | split
    | lift_lets -underBinder

theorem State.landColl_kept {a : State} : ∀ x0 x1 x2 x3, Kept a x0 → Kept a (State.landColl x0 x1 x2 x3).1 := by
  intro x0 x1 x2 x3 h0
  unfold State.landColl
  repeat' first
    | with_reducible assumption
    | with_reducible intro _
    | with_reducible apply State.recvRefuse_kept
    | with_reducible apply State.bump_kept
    | with_reducible apply State.mismatch_kept
    | with_reducible apply State.setColl_kept
    | with_reducible apply State.collRun_kept
    | split
    | lift_lets -underBinder

theorem State.staleRx_kept {a : State} : ∀ x0 x1, Kept a x0 → Kept a (State.staleRx x0 x1) := by
  intro x0 x1 h0
  unfold State.staleRx
  repeat' first
    | with_reducible assumption
    | with_reducible apply State.modGroup_kept
    | with_reducible apply State.bump_kept

theorem State.takeColl_kept {a : State} : ∀ x0 x1 x2, Kept a x0 → Kept a (State.takeColl x0 x1 x2) := by
  intro x0 x1 x2 h0
  unfold State.takeColl
  repeat' first
    | with_reducible assumption
    | with_reducible intro _
    | with_reducible apply State.landRecv_kept
    | with_reducible apply State.respond_kept
    | with_reducible apply State.landColl_kept
    | with_reducible apply State.bump_kept
    | with_reducible apply State.modGroup_kept
    | with_reducible apply State.staleRx_kept
    | with_reducible apply Kept.ite
    | split
    | lift_lets -underBinder
    | (with_reducible refine Kept.mk' ?_ rfl rfl rfl rfl rfl rfl rfl rfl)

theorem State.landHeld_kept {a : State} : ∀ x0, Kept a x0 → Kept a (State.landHeld x0) := by
  intro x0 h0
  unfold State.landHeld
  repeat' first
    | with_reducible assumption
    | with_reducible intro _
    | with_reducible apply State.takeColl_kept
    | with_reducible apply Kept.foldl
    | split
    | lift_lets -underBinder
    | (with_reducible refine Kept.mk' ?_ rfl rfl rfl rfl rfl rfl rfl rfl)

theorem execRxColl_kept {a : State} : ∀ x0 x1 x2, Kept a x2 → KeptOut a (execRxColl x0 x1 x2) := by
  intro x0 x1 x2 h0
  unfold execRxColl
  repeat' first
    | with_reducible assumption
    | with_reducible intro _
    | with_reducible apply State.checkRequest_kept
    | with_reducible apply State.taken_kept
    | with_reducible apply State.discardRx_kept
    | with_reducible apply State.refuseRx_kept
    | with_reducible apply State.countRefused_kept
    | with_reducible apply State.landHeld_kept
    | with_reducible apply State.takeColl_kept
    | with_reducible apply KeptOut.next
    | with_reducible apply KeptOut.ite
    | with_reducible apply Kept.ite
    | split
    | lift_lets -underBinder

theorem State.collBegin_kept {a : State} : ∀ x0 x1, Kept a x0 → Kept a (State.collBegin x0 x1) := by
  intro x0 x1 h0
  unfold State.collBegin
  repeat' first
    | with_reducible assumption
    | with_reducible apply State.landHeld_kept
    | with_reducible apply State.collRun_kept

theorem State.collOpen_kept {a : State} : ∀ x0 x1, Kept a x0 → Kept a (State.collOpen x0 x1) := by
  intro x0 x1 h0
  unfold State.collOpen
  repeat' first
    | with_reducible assumption
    | with_reducible apply State.modGroup_kept
    | with_reducible apply State.bump_kept
    | with_reducible apply State.collBegin_kept
    | with_reducible apply State.landHeld_kept
    | with_reducible apply Kept.ite
    | lift_lets -underBinder
    | (with_reducible refine Kept.mk' ?_ rfl rfl rfl rfl rfl rfl rfl rfl)

theorem State.collStart_kept {a : State} : ∀ x0 x1 x2 x3 x4, Kept a x0 → Kept a (State.collStart x0 x1 x2 x3 x4).1 := by
  intro x0 x1 x2 x3 x4 h0
  unfold State.collStart
  repeat' first
    | with_reducible assumption
    | with_reducible intro _
    | with_reducible apply State.collOpen_kept
    | with_reducible apply State.writeBytes_kept
    | split
    | lift_lets -underBinder

theorem State.setResults_kept {a : State} : ∀ x0 x1 x2, Kept a x0 → Kept a (State.setResults x0 x1 x2) := by
  intro x0 x1 x2 h0
  unfold State.setResults
  repeat' first | with_reducible assumption | with_reducible apply State.modCore_kept

theorem State.libReturn_kept {a : State} : ∀ x0 x1 x2, Kept a x0 → Kept a (State.libReturn x0 x1 x2) := by
  intro x0 x1 x2 h0
  unfold State.libReturn
  repeat' first
    | with_reducible assumption
    | with_reducible apply State.settle_kept
    | with_reducible apply State.setResults_kept
    | with_reducible apply State.modCore_kept

theorem State.libWait_kept {a : State} : ∀ x0 x1 x2, Kept a x0 → Kept a (State.libWait x0 x1 x2) := by
  intro x0 x1 x2 h0
  unfold State.libWait
  repeat' first
    | with_reducible assumption
    | with_reducible apply State.settle_kept
    | with_reducible apply State.modCore_kept

theorem execCollStart_kept {a : State} : ∀ x0 x1, Kept a x1 → KeptOut a (execCollStart x0 x1) := by
  intro x0 x1 h0
  unfold execCollStart
  repeat' first
    | with_reducible assumption
    | with_reducible intro _
    | with_reducible apply State.control_kept
    | with_reducible apply State.collStart_kept
    | with_reducible apply State.setResults_kept
    | with_reducible apply KeptOut.next
    | with_reducible apply Kept.ite
    | split

theorem State.wakeWaits_kept {a : State} : ∀ x0, Kept a x0 → Kept a (State.wakeWaits x0) := by
  intro x0 h0
  unfold State.wakeWaits
  repeat' first
    | with_reducible assumption
    | with_reducible intro _
    | with_reducible apply State.libReturn_kept
    | with_reducible apply State.dropColl_kept
    | with_reducible apply Kept.foldl
    | split

theorem execCollWait_kept {a : State} : ∀ x0 x1, Kept a x1 → KeptOut a (execCollWait x0 x1) := by
  intro x0 x1 h0
  unfold execCollWait
  repeat' first
    | with_reducible assumption
    | with_reducible intro _
    | with_reducible apply State.control_kept
    | with_reducible apply State.setResults_kept
    | with_reducible apply State.landHeld_kept
    | with_reducible apply State.dropColl_kept
    | with_reducible apply State.libWait_kept
    | with_reducible apply KeptOut.next
    | with_reducible apply Kept.ite
    | split
    | lift_lets -underBinder

theorem State.retryStart_kept {a : State} : ∀ x0 x1 x2 x3 x4 x5, Kept a x0 → Kept a (State.retryStart x0 x1 x2 x3 x4 x5) := by
  intro x0 x1 x2 x3 x4 x5 h0
  unfold State.retryStart
  repeat' first
    | with_reducible assumption
    | with_reducible apply State.modCore_kept
    | with_reducible apply State.collStart_kept
    | with_reducible apply State.libReturn_kept
    | with_reducible apply State.libWait_kept
    | with_reducible apply Kept.ite

theorem execAnchorRetry_kept {a : State} : ∀ x0 x1, Kept a x1 → KeptOut a (execAnchorRetry x0 x1) := by
  intro x0 x1 h0
  unfold execAnchorRetry
  repeat' first
    | with_reducible assumption
    | with_reducible intro _
    | with_reducible apply State.control_kept
    | with_reducible apply State.writeBytes_kept
    | with_reducible apply State.retryStart_kept
    | with_reducible apply KeptOut.next
    | with_reducible apply Kept.ite
    | with_reducible apply Kept.foldl
    | split

theorem State.retryNext_kept {a : State} : ∀ x0 x1, Kept a x0 → Kept a (State.retryNext x0 x1) := by
  intro x0 x1 h0
  unfold State.retryNext
  repeat' first
    | with_reducible assumption
    | with_reducible intro _
    | with_reducible apply State.libReturn_kept
    | with_reducible apply State.dropColl_kept
    | with_reducible apply State.writeBytes_kept
    | with_reducible apply State.retryStart_kept
    | with_reducible apply Kept.ite
    | with_reducible apply Kept.foldl
    | split

theorem State.logColl_kept {a : State} : ∀ x0 x1, Kept a x0 → Kept a (State.logColl x0 x1) := by
  intro x0 x1 h0
  unfold State.logColl
  repeat' first
    | with_reducible assumption
    | with_reducible apply State.modParcel_kept
    | with_reducible apply Kept.ite

theorem State.readyEnd_kept {a : State} : ∀ x0 x1 x2 x3, Kept a x0 → Kept a (State.readyEnd x0 x1 x2 x3) := by
  intro x0 x1 x2 x3 h0
  unfold State.readyEnd
  repeat' first
    | with_reducible assumption
    | with_reducible intro _
    | with_reducible apply State.modParcel_kept
    | with_reducible apply State.libReturn_kept
    | with_reducible apply State.advise_kept
    | with_reducible apply State.restartNeeded_kept
    | with_reducible apply Kept.ite
    | with_reducible apply Kept.foldl

theorem State.finishColl_kept {a : State} : ∀ x0 x1, Kept a x0 → Kept a (State.finishColl x0 x1) := by
  intro x0 x1 h0
  unfold State.finishColl
  repeat' first
    | with_reducible assumption
    | with_reducible intro _
    | with_reducible apply State.setColl_kept
    | with_reducible apply State.bump_kept
    | with_reducible apply State.logColl_kept
    | with_reducible apply State.readyEnd_kept
    | with_reducible apply State.dropColl_kept
    | with_reducible apply State.writeBytes_kept
    | with_reducible apply State.addFlag_kept
    | with_reducible apply State.landHeld_kept
    | with_reducible apply State.wakeWaits_kept
    | with_reducible apply State.retryNext_kept
    | with_reducible apply Kept.ite
    | with_reducible apply Kept.foldl

theorem execCollComplete_kept {a : State} : ∀ x0 x1 x2, Kept a x2 → KeptOut a (execCollComplete x0 x1 x2) := by
  intro x0 x1 x2 h0
  unfold execCollComplete
  repeat' first
    | with_reducible assumption
    | with_reducible apply State.finishColl_kept
    | with_reducible apply KeptOut.next
    | with_reducible apply Kept.ite
    | split

theorem State.collFailed_kept {a : State} : ∀ x0 x1, Kept a x0 → Kept a (State.collFailed x0 x1) := by
  intro x0 x1 h0
  unfold State.collFailed
  repeat' first
    | with_reducible assumption
    | with_reducible intro _
    | with_reducible apply State.setColl_kept
    | with_reducible apply State.wakeWaits_kept
    | with_reducible apply State.retryNext_kept
    | with_reducible apply Kept.foldl

theorem State.collDeadline_kept {a : State} : ∀ x0 x1 x2, Kept a x0 → Kept a (State.collDeadline x0 x1 x2) := by
  intro x0 x1 x2 h0
  unfold State.collDeadline
  repeat' first | with_reducible assumption | with_reducible apply State.collRun_kept

end Sys2Proof.Machine
end

