-- ==== Sys2Proof/Laws/KeptContainer.lean ====
section
/-! SUPPORT. What the operations of Container keep (Laws/Kept.lean). -/

namespace Sys2Proof.Machine

theorem State.installDescs_kept {a : State} : ∀ x0 x1, Kept a x0 → Kept a (State.installDescs x0 x1) := by
  intro x0 x1 h0
  unfold State.installDescs
  repeat' first
    | with_reducible assumption
    | with_reducible intro _
    | with_reducible apply State.modCore_kept
    | with_reducible apply Kept.ite
    | with_reducible apply Kept.foldl

theorem State.installData_kept {a : State} : ∀ x0 x1, Kept a x0 → Kept a (State.installData x0 x1) := by
  intro x0 x1 h0
  unfold State.installData
  repeat' first
    | with_reducible assumption
    | with_reducible intro _
    | with_reducible apply State.storeBytes_kept
    | with_reducible apply Kept.ite
    | with_reducible apply Kept.foldl

theorem State.installCode_kept {a : State} : ∀ x0 x1, Kept a x0 → Kept a (State.installCode x0 x1) := by
  intro x0 x1 h0
  unfold State.installCode
  repeat' first
    | with_reducible assumption
    | with_reducible intro _
    | with_reducible apply State.storeBytes_kept
    | with_reducible apply Kept.foldl
    | split

theorem State.clearCoreFaults_kept {a : State} : ∀ x0 x1, Kept a x0 → Kept a (State.clearCoreFaults x0 x1) := by
  intro x0 x1 h0
  unfold State.clearCoreFaults
  repeat' first
    | with_reducible assumption
    | with_reducible intro _
    | with_reducible apply State.setObj_kept
    | with_reducible apply Kept.foldl

theorem State.startCores_kept {a : State} : ∀ x0 x1, Kept a x0 → Kept a (State.startCores x0 x1) := by
  intro x0 x1 h0
  unfold State.startCores
  repeat' first
    | with_reducible assumption
    | with_reducible intro _
    | with_reducible apply State.setCoreState_kept
    | with_reducible apply State.clearCoreFaults_kept
    | with_reducible apply State.modCore_kept
    | with_reducible apply Kept.foldl

theorem State.restartCores_kept {a : State} : ∀ x0 x1, Kept a x0 → Kept a (State.restartCores x0 x1) := by
  intro x0 x1 h0
  unfold State.restartCores
  repeat' first
    | with_reducible assumption
    | with_reducible intro _
    | with_reducible apply State.setCoreState_kept
    | with_reducible apply State.updFill_kept
    | with_reducible apply State.setCore_kept
    | with_reducible apply State.installDescs_kept
    | with_reducible apply Kept.foldl

end Sys2Proof.Machine
end

