-- ==== Sys2Proof/Laws/KeptJob.lean ====
section
/-! SUPPORT. What the operations of Job keep (Laws/Kept.lean). -/

namespace Sys2Proof.Machine

theorem State.setOct_kept {a : State} : ∀ x0 x1 x2, Kept a x0 → Kept a (State.setOct x0 x1 x2) := by
  intro x0 x1 x2 h0
  unfold State.setOct
  repeat' first | with_reducible assumption | with_reducible apply State.setObj_kept

theorem State.writeRecord_kept {a : State} : ∀ x0 x1, Kept a x0 → Kept a (State.writeRecord x0 x1) := by
  intro x0 x1 h0
  unfold State.writeRecord
  repeat' first | with_reducible assumption | with_reducible apply State.storeBytes_kept

theorem State.mirrorRecord_kept {a : State} : ∀ x0 x1 x2, Kept a x0 → Kept a (State.mirrorRecord x0 x1 x2) := by
  intro x0 x1 x2 h0
  unfold State.mirrorRecord
  repeat' first
    | with_reducible assumption
    | with_reducible apply State.setObj_kept
    | with_reducible apply State.setOct_kept
    | with_reducible apply State.modParcel_kept

theorem State.boundary_kept {a : State} : ∀ x0 x1, Kept a x0 → Kept a (State.boundary x0 x1) := by
  intro x0 x1 h0
  unfold State.boundary
  repeat' first
    | with_reducible assumption
    | with_reducible intro _
    | with_reducible apply State.setObj_kept
    | with_reducible apply Kept.foldl
    | lift_lets -underBinder
    | (with_reducible refine Kept.mk' ?_ rfl rfl rfl rfl rfl rfl rfl rfl)

theorem State.jobReplay_kept {a : State} : ∀ x0 x1 x2 x3, Kept a x0 → Kept a (State.jobReplay x0 x1 x2 x3).1 := by
  intro x0 x1 x2 x3 h0
  unfold State.jobReplay
  repeat' first
    | with_reducible assumption
    | with_reducible apply State.setObj_kept
    | with_reducible apply State.mirrorRecord_kept
    | with_reducible apply State.modParcel_kept
    | with_reducible apply State.setCseqs_kept

theorem State.jobFresh_kept {a : State} : ∀ x0 x1 x2 x3 x4, Kept a x0 → Kept a (State.jobFresh x0 x1 x2 x3 x4).1 := by
  intro x0 x1 x2 x3 x4 h0
  unfold State.jobFresh
  repeat' first
    | with_reducible assumption
    | with_reducible apply State.setOct_kept
    | with_reducible apply State.setObj_kept
    | with_reducible apply State.modParcel_kept
    | with_reducible apply State.setCseqs_kept
    | with_reducible apply State.writeRecord_kept

theorem State.recordDamaged_kept {a : State} : ∀ x0 x1, Kept a x0 → Kept a (State.recordDamaged x0 x1) := by
  intro x0 x1 h0
  unfold State.recordDamaged
  repeat' first
    | with_reducible assumption
    | with_reducible apply State.advise_kept
    | with_reducible apply State.restartNeeded_kept

theorem State.jobDecide_kept {a : State} : ∀ x0 x1 x2 x3 x4, Kept a x0 → Kept a (State.jobDecide x0 x1 x2 x3 x4).1 := by
  intro x0 x1 x2 x3 x4 h0
  unfold State.jobDecide
  repeat' first
    | with_reducible assumption
    | (intro y; refine Kept.cut (a := a) y ?_ ?_; unfold y)
    | with_reducible intro _
    | with_reducible apply State.recordDamaged_kept
    | with_reducible apply State.memUncorrected_kept
    | with_reducible apply State.mirrorRecord_kept
    | with_reducible apply State.modParcel_kept
    | with_reducible apply State.setObj_kept
    | with_reducible apply State.setCseqs_kept
    | with_reducible apply State.jobReplay_kept
    | with_reducible apply State.jobFresh_kept
    | with_reducible apply Kept.ite
    | split
    | lift_lets -underBinder

theorem execJobStart_kept {a : State} : ∀ x0 x1, Kept a x1 → KeptOut a (execJobStart x0 x1) := by
  intro x0 x1 h0
  unfold execJobStart
  repeat' first
    | with_reducible assumption
    | with_reducible intro _
    | with_reducible apply State.control_kept
    | with_reducible apply State.modParcel_kept
    | with_reducible apply State.setResults_kept
    | with_reducible apply State.setOct_kept
    | with_reducible apply State.libWait_kept
    | with_reducible apply State.jobDecide_kept
    | with_reducible apply KeptOut.next
    | with_reducible apply Kept.ite
    | split

theorem State.returnAll_kept {a : State} : ∀ x0 x1 x2, Kept a x0 → Kept a (State.returnAll x0 x1 x2) := by
  intro x0 x1 x2 h0
  unfold State.returnAll
  repeat' first
    | with_reducible assumption
    | with_reducible intro _
    | with_reducible apply State.libReturn_kept
    | with_reducible apply Kept.foldl

theorem State.clearMem_kept {a : State} : ∀ x0 x1 x2, Kept a x0 → Kept a (State.clearMem x0 x1 x2) := by
  intro s b n h
  exact ⟨h.queue, h.fresh, h.dict, fun x => Sparse.wf_clearRange _ _ (h.memory x), h.identity, h.keys, h.counters, h.flashForm, h.fitted,
    h.said⟩

theorem State.adoptShards_kept {a : State} : ∀ x0 x1 x2, Kept a x0 → Kept a (State.adoptShards x0 x1 x2) := by
  intro x0 x1 x2 h0
  unfold State.adoptShards
  repeat' first
    | with_reducible assumption
    | with_reducible intro _
    | with_reducible apply State.clearMem_kept
    | with_reducible apply State.storeBytes_kept
    | with_reducible apply Kept.ite
    | with_reducible apply Kept.foldl

theorem execAdoptComplete_kept {a : State} : ∀ x0 x1 x2 x3 x4, Kept a x4 → KeptOut a (execAdoptComplete x0 x1 x2 x3 x4) := by
  intro x0 x1 x2 x3 x4 h0
  unfold execAdoptComplete
  repeat' first
    | with_reducible assumption
    | with_reducible apply State.modParcel_kept
    | with_reducible apply State.setObj_kept
    | with_reducible apply State.adoptShards_kept
    | with_reducible apply State.storeBytes_kept
    | with_reducible apply State.jobReplay_kept
    | with_reducible apply State.advise_kept
    | with_reducible apply State.returnAll_kept
    | with_reducible apply KeptOut.next
    | split

theorem State.beginStep_kept {a : State} : ∀ x0 x1 x2 x3, Kept a x0 → Kept a (State.beginStep x0 x1 x2 x3) := by
  intro x0 x1 x2 x3 h0
  unfold State.beginStep
  repeat' first
    | with_reducible assumption
    | with_reducible apply State.setCseqs_kept
    | with_reducible apply State.modParcel_kept
    | with_reducible apply State.setJobState_kept
    | with_reducible apply State.setObj_kept

theorem State.holdTo_kept {a : State} : ∀ x0 x1 x2, Kept a x0 → Kept a (State.holdTo x0 x1 x2) := by
  intro x0 x1 x2 h0
  unfold State.holdTo
  repeat' first
    | with_reducible assumption
    | with_reducible apply State.settle_kept
    | with_reducible apply State.modCore_kept
    | with_reducible apply State.countCore_kept
    | with_reducible apply Kept.ite

theorem execStepBegin_kept {a : State} : ∀ x0 x1, Kept a x1 → KeptOut a (execStepBegin x0 x1) := by
  intro x0 x1 h0
  unfold execStepBegin
  repeat' first
    | with_reducible assumption
    | with_reducible intro _
    | with_reducible apply State.control_kept
    | with_reducible apply State.fresh_kept
    | with_reducible apply State.setResults_kept
    | with_reducible apply State.holdTo_kept
    | with_reducible apply State.beginStep_kept
    | with_reducible apply KeptOut.next
    | with_reducible apply Kept.ite
    | split

end Sys2Proof.Machine
end

