-- ==== Sys2Proof/Laws/KeptCommit.lean ====
section
/-! SUPPORT. What the operations of Commit keep (Laws/Kept.lean). -/

namespace Sys2Proof.Machine

theorem State.joinCommit_kept {a : State} : ∀ x0 x1 x2 x3 x4 x5 x6, Kept a x0 → Kept a (State.joinCommit x0 x1 x2 x3 x4 x5 x6) := by
  intro x0 x1 x2 x3 x4 x5 x6 h0
  unfold State.joinCommit
  repeat' first | with_reducible assumption | with_reducible apply State.modParcel_kept

theorem execStepCommit_kept {a : State} : ∀ x0 x1, Kept a x1 → KeptOut a (execStepCommit x0 x1) := by
  intro x0 x1 h0
  unfold execStepCommit
  repeat' first
    | with_reducible assumption
    | with_reducible intro _
    | with_reducible apply State.control_kept
    | with_reducible apply State.fresh_kept
    | with_reducible apply State.setResults_kept
    | with_reducible apply State.libWait_kept
    | with_reducible apply State.joinCommit_kept
    | with_reducible apply KeptOut.next
    | with_reducible apply Kept.ite
    | split

theorem State.beginCommit_kept {a : State} : ∀ x0 x1 x2, Kept a x0 → Kept a (State.beginCommit x0 x1 x2) := by
  intro x0 x1 x2 h0
  unfold State.beginCommit
  repeat' first
    | with_reducible assumption
    | with_reducible apply State.flushUnits_kept
    | with_reducible apply State.setJobState_kept
    | with_reducible apply State.setOct_kept
    | with_reducible apply State.setObj_kept
    | with_reducible apply State.modParcel_kept
    | with_reducible apply State.collOpen_kept
    | with_reducible apply Kept.ite

theorem execCommitBegin_kept {a : State} : ∀ x0 x1, Kept a x1 → KeptOut a (execCommitBegin x0 x1) := by
  intro x0 x1 h0
  unfold execCommitBegin
  repeat' first
    | with_reducible assumption
    | with_reducible apply State.beginCommit_kept
    | with_reducible apply KeptOut.next
    | with_reducible apply Kept.ite
    | split

theorem State.decideCommit_kept {a : State} : ∀ x0 x1, Kept a x0 → Kept a (State.decideCommit x0 x1) := by
  intro x0 x1 h0
  unfold State.decideCommit
  repeat' first | with_reducible assumption | with_reducible apply State.modParcel_kept

theorem State.commitFails_kept {a : State} : ∀ x0 x1 x2 x3, Kept a x0 → Kept a (State.commitFails x0 x1 x2 x3) := by
  intro x0 x1 x2 x3 h0
  unfold State.commitFails
  repeat' first
    | with_reducible assumption
    | with_reducible apply State.raise_kept
    | with_reducible apply State.modParcel_kept

theorem State.shadowMismatch_kept {a : State} : ∀ x0 x1 x2, Kept a x0 → Kept a (State.shadowMismatch x0 x1 x2) := by
  intro x0 x1 x2 h0
  unfold State.shadowMismatch
  repeat' first
    | with_reducible assumption
    | with_reducible apply State.setObj_kept
    | with_reducible apply State.setFnState_kept
    | with_reducible apply State.haltParcel_kept
    | with_reducible apply State.advise_kept

theorem execCommitDecide_kept {a : State} : ∀ x0 x1 x2, Kept a x2 → KeptOut a (execCommitDecide x0 x1 x2) := by
  intro x0 x1 x2 h0
  unfold execCommitDecide
  repeat' first
    | with_reducible assumption
    | (intro y; refine Kept.cut (a := a) y ?_ ?_; unfold y)
    | with_reducible intro _
    | with_reducible apply State.shadowMismatch_kept
    | with_reducible apply State.decideCommit_kept
    | with_reducible apply State.finishColl_kept
    | with_reducible apply State.commitFails_kept
    | with_reducible apply State.dropColl_kept
    | with_reducible apply KeptOut.next
    | with_reducible apply KeptOut.ite
    | with_reducible apply Kept.ite
    | split
    | lift_lets -underBinder

theorem execCommitTimeout_kept {a : State} : ∀ x0 x1, Kept a x1 → KeptOut a (execCommitTimeout x0 x1) := by
  intro x0 x1 h0
  unfold execCommitTimeout
  repeat' first
    | with_reducible assumption
    | with_reducible apply State.advanceTo_kept
    | with_reducible apply State.shadowInterrupted_kept
    | with_reducible apply State.dropColl_kept
    | with_reducible apply State.commitFails_kept
    | with_reducible apply KeptOut.next
    | with_reducible apply KeptOut.ite
    | with_reducible apply Kept.ite
    | split

theorem State.shadowMatch_kept {a : State} : ∀ x0 x1, Kept a x0 → Kept a (State.shadowMatch x0 x1) := by
  intro x0 x1 h0
  unfold State.shadowMatch
  repeat' first
    | with_reducible assumption
    | with_reducible apply State.setObj_kept
    | with_reducible apply Kept.ite

theorem State.commitStep_kept {a : State} : ∀ x0 x1 x2 x3 x4, Kept a x0 → Kept a (State.commitStep x0 x1 x2 x3 x4) := by
  intro x0 x1 x2 x3 x4 h0
  unfold State.commitStep
  repeat' first
    | with_reducible assumption
    | with_reducible apply State.bump_kept
    | with_reducible apply State.setObj_kept
    | with_reducible apply State.setOct_kept
    | with_reducible apply State.writeRecord_kept
    | with_reducible apply State.setCseqs_kept
    | with_reducible apply State.boundary_kept
    | with_reducible apply State.modParcel_kept
    | with_reducible apply State.returnAll_kept
    | with_reducible apply State.setJobState_kept
    | with_reducible apply State.stepFatal_kept
    | with_reducible apply Kept.ite

theorem execCommitFlip_kept {a : State} : ∀ x0 x1, Kept a x1 → KeptOut a (execCommitFlip x0 x1) := by
  intro x0 x1 h0
  unfold execCommitFlip
  repeat' first
    | with_reducible assumption
    | with_reducible apply State.advanceTo_kept
    | with_reducible apply State.fresh_kept
    | with_reducible apply State.shadowMatch_kept
    | with_reducible apply State.commitStep_kept
    | with_reducible apply State.dropColl_kept
    | with_reducible apply KeptOut.next
    | with_reducible apply KeptOut.ite
    | split

theorem State.readyStart_kept {a : State} : ∀ x0 x1, Kept a x0 → Kept a (State.readyStart x0 x1) := by
  intro x0 x1 h0
  unfold State.readyStart
  repeat' first
    | with_reducible assumption
    | with_reducible apply State.collOpen_kept
    | with_reducible apply State.modParcel_kept

theorem State.joinCall_kept {a : State} : ∀ x0 x1 x2, Kept a x0 → Kept a (State.joinCall x0 x1 x2) := by
  intro x0 x1 x2 h0
  unfold State.joinCall
  repeat' first | with_reducible assumption | with_reducible apply State.modParcel_kept

theorem execStepReplay_kept {a : State} : ∀ x0 x1, Kept a x1 → KeptOut a (execStepReplay x0 x1) := by
  intro x0 x1 h0
  unfold execStepReplay
  repeat' first
    | with_reducible assumption
    | with_reducible intro _
    | with_reducible apply State.control_kept
    | with_reducible apply State.fresh_kept
    | with_reducible apply State.setResults_kept
    | with_reducible apply State.boundary_kept
    | with_reducible apply State.libWait_kept
    | with_reducible apply State.joinCall_kept
    | with_reducible apply State.readyStart_kept
    | with_reducible apply KeptOut.next
    | with_reducible apply Kept.ite
    | split

theorem execResumeTimeout_kept {a : State} : ∀ x0 x1, Kept a x1 → KeptOut a (execResumeTimeout x0 x1) := by
  intro x0 x1 h0
  unfold execResumeTimeout
  repeat' first
    | with_reducible assumption
    | with_reducible apply State.advanceTo_kept
    | with_reducible apply State.readyEnd_kept
    | with_reducible apply State.dropColl_kept
    | with_reducible apply KeptOut.next
    | with_reducible apply Kept.ite
    | split

theorem State.expireRequests_kept {a : State} : ∀ x0 x1, Kept a x0 → Kept a (State.expireRequests x0 x1) := by
  intro x0 x1 h0
  unfold State.expireRequests
  repeat' first
    | with_reducible assumption
    | with_reducible intro _
    | with_reducible apply State.modQueue_kept
    | with_reducible apply State.advanceTo_kept
    | with_reducible apply Kept.foldl

theorem State.rollbackTail_kept {a : State} : ∀ x0 x1, Kept a x0 → Kept a (State.rollbackTail x0 x1) := by
  intro x0 x1 h0
  unfold State.rollbackTail
  repeat' first
    | with_reducible assumption
    | with_reducible apply State.flushUnits_kept
    | with_reducible apply State.expireRequests_kept
    | with_reducible apply State.setCseqs_kept
    | with_reducible apply State.bump_kept
    | with_reducible apply State.setJobState_kept
    | with_reducible apply State.modParcel_kept

theorem State.parkPhase_kept {a : State} : ∀ x0 x1, Kept a x0 → Kept a (State.parkPhase x0 x1) := by
  intro x0 x1 h0
  unfold State.parkPhase
  repeat' first
    | with_reducible assumption
    | with_reducible apply State.setObj_kept
    | with_reducible apply State.setJobState_kept
    | with_reducible apply State.modParcel_kept
    | with_reducible apply Kept.ite

theorem execRollbackComplete_kept {a : State} : ∀ x0 x1, Kept a x1 → KeptOut a (execRollbackComplete x0 x1) := by
  intro x0 x1 h0
  unfold execRollbackComplete
  repeat' first
    | with_reducible assumption
    | with_reducible apply State.rollbackTail_kept
    | with_reducible apply State.parkPhase_kept
    | with_reducible apply State.restartCores_kept
    | with_reducible apply KeptOut.next
    | with_reducible apply KeptOut.ite
    | with_reducible apply Kept.ite

end Sys2Proof.Machine
end

