-- ==== Sys2Proof/Laws/KeptImages.lean ====
section
/-! SUPPORT. What the operations of Images keep (Laws/Kept.lean). -/

namespace Sys2Proof.Machine

theorem State.extend_kept {a : State} : ∀ x0 x1 x2, Kept a x0 → Kept a (State.extend x0 x1 x2) := by
  intro x0 x1 x2 h0
  unfold State.extend
  repeat' first
    | with_reducible assumption
    | with_reducible apply State.bump_kept
    | with_reducible apply State.setObj_kept

theorem State.imageFailed_kept {a : State} : ∀ x0 x1 x2 x3, Kept a x0 → Kept a (State.imageFailed x0 x1 x2 x3) := by
  intro x0 x1 x2 x3 h0
  unfold State.imageFailed
  repeat' first | with_reducible assumption | with_reducible apply State.advise_kept

theorem State.selectImage_kept {a : State} : ∀ x0 x1, Kept a x0 → Kept a (State.selectImage x0 x1).1 := by
  intro x0 x1 h0
  unfold State.selectImage
  repeat' first
    | with_reducible assumption
    | (intro y; refine Kept.cut (a := a) y ?_ ?_; unfold y)
    | with_reducible intro _
    | with_reducible apply State.imageFailed_kept
    | with_reducible apply State.setObj_kept
    | split
    | lift_lets -underBinder

theorem State.noteImage_kept {a : State} : ∀ x0 x1 x2 x3, Kept a x0 → Kept a (State.noteImage x0 x1 x2 x3) := by
  intro x0 x1 x2 x3 h0
  unfold State.noteImage
  repeat' first
    | with_reducible assumption
    | with_reducible intro _
    | lift_lets -underBinder
    | (with_reducible refine Kept.mk' ?_ rfl rfl rfl rfl rfl rfl rfl rfl)

end Sys2Proof.Machine
end

