-- ==== Sys2Proof/Laws/KeptTimeBase.lean ====
section
/-! SUPPORT. What the operations of TimeBase keep (Laws/Kept.lean). -/

namespace Sys2Proof.Machine

theorem State.setTimePort_kept {a : State} : ∀ x0 x1 x2, Kept a x0 → Kept a (State.setTimePort x0 x1 x2) := by
  intro x0 x1 x2 h0
  unfold State.setTimePort
  repeat' first
    | with_reducible assumption
    | with_reducible intro _
    | lift_lets -underBinder
    | (with_reducible refine Kept.mk' ?_ rfl rfl rfl rfl rfl rfl rfl rfl)

theorem State.modTime_kept {a : State} : ∀ x0 x1, Kept a x0 → Kept a (State.modTime x0 x1) := by
  intro x0 x1 h0
  unfold State.modTime
  repeat' first
    | with_reducible assumption
    | (with_reducible refine Kept.mk' ?_ rfl rfl rfl rfl rfl rfl rfl rfl)

theorem State.modSrc_kept {a : State} : ∀ x0 x1, Kept a x0 → Kept a (State.modSrc x0 x1) := by
  intro x0 x1 h0
  unfold State.modSrc
  repeat' first | with_reducible assumption | with_reducible apply State.modTime_kept

theorem State.acquire_kept {a : State} : ∀ x0, Kept a x0 → Kept a (State.acquire x0) := by
  intro x0 h0
  unfold State.acquire
  repeat' first
    | with_reducible assumption
    | with_reducible apply State.setTimeState_kept
    | with_reducible apply State.modTime_kept

theorem State.leaveSource_kept {a : State} : ∀ x0, Kept a x0 → Kept a (State.leaveSource x0) := by
  intro x0 h0
  unfold State.leaveSource
  repeat' first
    | with_reducible assumption
    | with_reducible apply State.setObj_kept
    | with_reducible apply State.modSrc_kept
    | with_reducible apply Kept.ite

theorem State.elect_kept {a : State} : ∀ x0, Kept a x0 → Kept a (State.elect x0) := by
  intro x0 h0
  unfold State.elect
  repeat' first
    | with_reducible assumption
    | (intro y; refine Kept.cut (a := a) y ?_ ?_; unfold y)
    | with_reducible intro _
    | with_reducible apply State.bump_kept
    | with_reducible apply State.setTimeState_kept
    | with_reducible apply State.setDatum_kept
    | with_reducible apply State.leaveSource_kept
    | with_reducible apply State.setObj_kept
    | with_reducible apply State.modTime_kept
    | with_reducible apply State.setFreq_kept
    | with_reducible apply State.acquire_kept
    | with_reducible apply Kept.ite
    | split
    | (clear_value *; split)
    | lift_lets -underBinder

theorem State.timeLink_kept {a : State} : ∀ x0 x1, Kept a x0 → Kept a (State.timeLink x0 x1) := by
  intro x0 x1 h0
  unfold State.timeLink
  repeat' first
    | with_reducible assumption
    | with_reducible apply State.elect_kept
    | with_reducible apply State.setTimePort_kept

theorem State.steer_kept {a : State} : ∀ x0 x1, Kept a x0 → Kept a (State.steer x0 x1) := by
  intro x0 x1 h0
  unfold State.steer
  repeat' first
    | with_reducible assumption
    | with_reducible apply State.setObj_kept
    | with_reducible apply State.setFreq_kept
    | with_reducible apply State.modTime_kept
    | with_reducible apply State.setTimeState_kept
    | with_reducible apply Kept.ite

theorem State.setFt_kept {a : State} : ∀ x0 x1, Kept a x0 → Kept a (State.setFt x0 x1) := by
  intro x0 x1 h0
  unfold State.setFt
  repeat' first
    | with_reducible assumption
    | with_reducible apply State.fresh_kept
    | with_reducible apply Kept.ite
    | with_reducible refine Kept.of_snd ?_ (by assumption)
    | split
    | lift_lets -underBinder
    | (with_reducible refine Kept.mk' ?_ rfl rfl rfl rfl rfl rfl rfl rfl)

end Sys2Proof.Machine
end

