-- ==== Sys2Proof/Laws/KeptLink.lean ====
section
/-! SUPPORT. What the operations of Link keep (Laws/Kept.lean). -/

namespace Sys2Proof.Machine

theorem State.setLink_kept {a : State} : ∀ x0 x1 x2, Kept a x0 → Kept a (State.setLink x0 x1 x2) := by
  intro x0 x1 x2 h0
  unfold State.setLink
  repeat' first
    | with_reducible assumption
    | (with_reducible refine Kept.mk' ?_ rfl rfl rfl rfl rfl rfl rfl rfl)

theorem State.sendUnit_kept {a : State} : ∀ x0 x1 x2 x3 x4, Kept a x0 → Kept a (State.sendUnit x0 x1 x2 x3 x4) := by
  intro x0 x1 x2 x3 x4 h0
  unfold State.sendUnit
  repeat' first
    | with_reducible assumption
    | with_reducible apply State.emit_kept
    | with_reducible apply State.bump_kept
    | with_reducible apply Kept.ite

theorem State.rerouteOne_kept {a : State} : ∀ x0 x1 x2 x3, Kept a x0 → Kept a (State.rerouteOne x0 x1 x2 x3) := by
  intro x0 x1 x2 x3 h0
  unfold State.rerouteOne
  repeat' first
    | with_reducible assumption
    | with_reducible intro _
    | with_reducible apply State.bump_kept
    | with_reducible apply State.setOutQ_kept
    | with_reducible apply State.raiseObj_kept
    | with_reducible apply State.releaseCell_kept
    | with_reducible apply Kept.ite
    | with_reducible apply Kept.foldl
    | split

theorem State.freePages_kept {a : State} : ∀ x0 x1, Kept a x0 → Kept a (State.freePages x0 x1) := by
  intro x0 x1 h0
  unfold State.freePages
  repeat' first
    | with_reducible assumption
    | with_reducible intro _
    | with_reducible apply State.release_kept
    | with_reducible apply Kept.ite
    | with_reducible apply Kept.foldl

theorem State.reroute_kept {a : State} : ∀ x0 x1, Kept a x0 → Kept a (State.reroute x0 x1) := by
  intro x0 x1 h0
  unfold State.reroute
  repeat' first
    | with_reducible assumption
    | with_reducible intro _
    | with_reducible apply State.setOutQ_kept
    | with_reducible apply State.rerouteOne_kept
    | with_reducible apply State.freePages_kept
    | with_reducible apply Kept.ite
    | with_reducible apply Kept.foldl

theorem State.setOut_kept {a : State} : ∀ x0 x1 x2, Kept a x0 → Kept a (State.setOut x0 x1 x2) := by
  intro x0 x1 x2 h0
  unfold State.setOut
  repeat' first
    | with_reducible assumption
    | with_reducible intro _
    | lift_lets -underBinder
    | (with_reducible refine Kept.mk' ?_ rfl rfl rfl rfl rfl rfl rfl rfl)

theorem State.dropSending_kept {a : State} : ∀ x0 x1, Kept a x0 → Kept a (State.dropSending x0 x1) := by
  intro x0 x1 h0
  unfold State.dropSending
  repeat' first
    | with_reducible assumption
    | with_reducible intro _
    | with_reducible apply State.setOut_kept
    | with_reducible apply State.releaseCell_kept
    | with_reducible apply Kept.foldl
    | split
    | lift_lets -underBinder

theorem State.stopLink_kept {a : State} : ∀ x0 x1, Kept a x0 → Kept a (State.stopLink x0 x1) := by
  intro x0 x1 h0
  unfold State.stopLink
  repeat' first
    | with_reducible assumption
    | with_reducible intro _
    | with_reducible apply State.setLink_kept
    | with_reducible apply State.dropSending_kept
    | with_reducible apply State.unbind_kept
    | with_reducible apply State.setStage_kept
    | with_reducible apply State.reroute_kept
    | with_reducible apply State.timeLink_kept
    | with_reducible apply Kept.foldl
    | split

theorem State.linkDown_kept {a : State} : ∀ x0 x1 x2, Kept a x0 → Kept a (State.linkDown x0 x1 x2) := by
  intro x0 x1 x2 h0
  unfold State.linkDown
  repeat' first
    | with_reducible assumption
    | with_reducible apply State.advise_kept
    | with_reducible apply State.bump_kept
    | with_reducible apply State.setObj_kept
    | with_reducible apply State.stopLink_kept
    | with_reducible apply Kept.ite

theorem State.bringUp_kept {a : State} : ∀ x0 x1, Kept a x0 → Kept a (State.bringUp x0 x1) := by
  intro x0 x1 h0
  unfold State.bringUp
  repeat' first
    | with_reducible assumption
    | with_reducible apply State.setLink_kept
    | with_reducible apply State.timeLink_kept
    | with_reducible apply State.setObj_kept

theorem State.replay_kept {a : State} : ∀ x0 x1, Kept a x0 → Kept a (State.replay x0 x1) := by
  intro x0 x1 h0
  unfold State.replay
  repeat' first
    | with_reducible assumption
    | with_reducible intro _
    | with_reducible apply State.linkDown_kept
    | with_reducible apply State.setLink_kept
    | with_reducible apply State.addObj_kept
    | with_reducible apply State.bump_kept
    | with_reducible apply State.sendUnit_kept
    | with_reducible apply Kept.ite
    | with_reducible apply Kept.foldl

theorem State.takeAck_kept {a : State} : ∀ x0 x1 x2, Kept a x0 → Kept a (State.takeAck x0 x1 x2) := by
  intro x0 x1 x2 h0
  unfold State.takeAck
  repeat' first
    | with_reducible assumption
    | with_reducible apply State.setLink_kept
    | with_reducible apply State.replay_kept
    | with_reducible apply Kept.ite

theorem State.takeUnit_kept {a : State} : ∀ x0 x1 x2 x3, Kept a x0 → Kept a (State.takeUnit x0 x1 x2 x3) := by
  intro x0 x1 x2 x3 h0
  unfold State.takeUnit
  repeat' first
    | with_reducible assumption
    | with_reducible apply State.bump_kept
    | with_reducible apply State.grant_kept
    | with_reducible apply State.arrive_kept
    | with_reducible apply State.examine_kept
    | with_reducible apply Kept.ite
    | split
    | lift_lets -underBinder
    | (with_reducible refine Kept.mk' ?_ rfl rfl rfl rfl rfl rfl rfl rfl)

theorem State.unitRx_kept {a : State} : ∀ x0 x1 x2, Kept a x0 → Kept a (State.unitRx x0 x1 x2) := by
  intro x0 x1 x2 h0
  unfold State.unitRx
  repeat' first
    | with_reducible assumption
    | with_reducible apply State.setLink_kept
    | with_reducible apply State.bump_kept
    | with_reducible apply State.takeAck_kept
    | with_reducible apply State.takeUnit_kept
    | with_reducible apply Kept.ite

theorem execLinkUnitRx_kept {a : State} : ∀ x0 x1 x2, Kept a x2 → KeptOut a (execLinkUnitRx x0 x1 x2) := by
  intro x0 x1 x2 h0
  unfold execLinkUnitRx
  repeat' first
    | with_reducible assumption
    | with_reducible apply State.unitRx_kept
    | with_reducible apply KeptOut.next

theorem execReplayTimeout_kept {a : State} : ∀ x0 x1, Kept a x1 → KeptOut a (execReplayTimeout x0 x1) := by
  intro x0 x1 h0
  unfold execReplayTimeout
  repeat' first
    | with_reducible assumption
    | with_reducible apply State.replay_kept
    | with_reducible apply State.advanceTo_kept
    | with_reducible apply KeptOut.next
    | with_reducible apply KeptOut.ite

theorem State.controlRx_kept {a : State} : ∀ x0 x1 x2, Kept a x0 → Kept a (State.controlRx x0 x1 x2) := by
  intro x0 x1 x2 h0
  unfold State.controlRx
  repeat' first
    | with_reducible assumption
    | with_reducible apply State.setLink_kept
    | with_reducible apply State.setObj_kept
    | with_reducible apply State.linkDown_kept
    | with_reducible apply State.takeAck_kept
    | with_reducible apply State.bringUp_kept
    | with_reducible apply State.advise_kept
    | with_reducible apply Kept.ite

theorem execControlUnitRx_kept {a : State} : ∀ x0 x1 x2, Kept a x2 → KeptOut a (execControlUnitRx x0 x1 x2) := by
  intro x0 x1 x2 h0
  unfold execControlUnitRx
  repeat' first
    | with_reducible assumption
    | with_reducible apply State.controlRx_kept
    | with_reducible apply KeptOut.next
    | with_reducible apply KeptOut.ite

theorem execControlUnitTx_kept {a : State} : ∀ x0 x1, Kept a x1 → KeptOut a (execControlUnitTx x0 x1) := by
  intro x0 x1 h0
  unfold execControlUnitTx
  repeat' first
    | with_reducible assumption
    | with_reducible apply State.sendUnit_kept
    | with_reducible apply State.setLink_kept
    | with_reducible apply KeptOut.next
    | with_reducible apply KeptOut.ite

theorem execPcsLockLoss_kept {a : State} : ∀ x0 x1, Kept a x1 → KeptOut a (execPcsLockLoss x0 x1) := by
  intro x0 x1 h0
  unfold execPcsLockLoss
  repeat' first
    | with_reducible assumption
    | with_reducible apply State.linkDown_kept
    | with_reducible apply State.setLink_kept
    | with_reducible apply KeptOut.next
    | with_reducible apply KeptOut.ite
    | with_reducible apply Kept.ite

theorem execLinkTrainDone_kept {a : State} : ∀ x0 x1 x2, Kept a x2 → KeptOut a (execLinkTrainDone x0 x1 x2) := by
  intro x0 x1 x2 h0
  unfold execLinkTrainDone
  repeat' first
    | with_reducible assumption
    | with_reducible apply State.linkDown_kept
    | with_reducible apply State.setLink_kept
    | with_reducible apply State.setObj_kept
    | with_reducible apply KeptOut.next
    | with_reducible apply KeptOut.ite
    | with_reducible apply Kept.ite

theorem State.applyDisabled_kept {a : State} : ∀ x0, Kept a x0 → Kept a (State.applyDisabled x0) := by
  intro x0 h0
  unfold State.applyDisabled
  repeat' first
    | with_reducible assumption
    | with_reducible intro _
    | with_reducible apply State.stopLink_kept
    | with_reducible apply State.setObj_kept
    | with_reducible apply Kept.ite
    | with_reducible apply Kept.foldl

theorem execStandinApply_kept {a : State} : ∀ x0, Kept a x0 → KeptOut a (execStandinApply x0) := by
  intro x0 h0
  unfold execStandinApply
  repeat' first
    | with_reducible assumption
    | with_reducible apply State.advanceTo_kept
    | with_reducible apply State.applyDisabled_kept
    | with_reducible apply KeptOut.next
    | with_reducible apply KeptOut.ite
    | lift_lets -underBinder
    | (with_reducible refine Kept.mk' ?_ rfl rfl rfl rfl rfl rfl rfl rfl)

end Sys2Proof.Machine
end

