-- ==== Sys2Proof/Laws/KeptOutput.lean ====
section
/-! SUPPORT. What the operations of Output keep (Laws/Kept.lean). -/

namespace Sys2Proof.Machine

theorem State.setSvc_kept {a : State} : ∀ x0 x1 x2, Kept a x0 → Kept a (State.setSvc x0 x1 x2) := by
  intro x0 x1 x2 h0
  unfold State.setSvc
  repeat' first
    | with_reducible assumption
    | with_reducible intro _
    | lift_lets -underBinder
    | (with_reducible refine Kept.mk' ?_ rfl rfl rfl rfl rfl rfl rfl rfl)

theorem State.countXoff_kept {a : State} : ∀ x0 x1 x2, Kept a x0 → Kept a (State.countXoff x0 x1 x2) := by
  intro x0 x1 x2 h0
  unfold State.countXoff
  repeat' first
    | with_reducible assumption
    | with_reducible intro _
    | with_reducible apply State.bump_kept
    | with_reducible apply Kept.foldl

theorem State.pfcPort_kept {a : State} : ∀ x0 x1, Kept a x0 → Kept a (State.pfcPort x0 x1) := by
  intro x0 x1 h0
  unfold State.pfcPort
  repeat' first
    | with_reducible assumption
    | with_reducible apply State.emit_kept
    | with_reducible apply State.countXoff_kept
    | with_reducible apply State.setSvc_kept
    | with_reducible apply Kept.ite

theorem State.pfcAll_kept {a : State} : ∀ x0, Kept a x0 → Kept a (State.pfcAll x0) := by
  intro x0 h0
  unfold State.pfcAll
  repeat' first
    | with_reducible assumption
    | with_reducible intro _
    | with_reducible apply State.pfcPort_kept
    | with_reducible apply Kept.ite
    | with_reducible apply Kept.foldl

theorem execPfcRefresh_kept {a : State} : ∀ x0 x1, Kept a x1 → KeptOut a (execPfcRefresh x0 x1) := by
  intro x0 x1 h0
  unfold execPfcRefresh
  repeat' first
    | with_reducible assumption
    | with_reducible apply State.advanceTo_kept
    | with_reducible apply State.emit_kept
    | with_reducible apply State.countXoff_kept
    | with_reducible apply State.setSvc_kept
    | with_reducible apply KeptOut.next
    | with_reducible apply KeptOut.ite

theorem execPfcFrameRx_kept {a : State} : ∀ x0 x1 x2 x3, Kept a x3 → KeptOut a (execPfcFrameRx x0 x1 x2 x3) := by
  intro x0 x1 x2 x3 h0
  unfold execPfcFrameRx
  repeat' first
    | with_reducible assumption
    | with_reducible intro _
    | with_reducible apply State.bump_kept
    | with_reducible apply State.setSvc_kept
    | with_reducible apply KeptOut.next
    | with_reducible apply KeptOut.ite
    | with_reducible apply Kept.ite
    | with_reducible apply Kept.foldl

theorem execPfcPauseExpiry_kept {a : State} : ∀ x0 x1 x2, Kept a x2 → KeptOut a (execPfcPauseExpiry x0 x1 x2) := by
  intro x0 x1 x2 h0
  unfold execPfcPauseExpiry
  repeat' first
    | with_reducible assumption
    | with_reducible intro _
    | with_reducible apply State.advanceTo_kept
    | with_reducible apply State.setSvc_kept
    | with_reducible apply KeptOut.next
    | split
    | lift_lets -underBinder

theorem State.beginPacket_kept {a : State} : ∀ x0 x1, Kept a x0 → Kept a (State.beginPacket x0 x1) := by
  intro x0 x1 h0
  unfold State.beginPacket
  repeat' first
    | with_reducible assumption
    | with_reducible intro _
    | with_reducible apply State.setOut_kept
    | with_reducible apply State.setOutQ_kept
    | with_reducible apply State.joinTail_kept
    | split
    | lift_lets -underBinder

theorem State.endPacket_kept {a : State} : ∀ x0 x1 x2, Kept a x0 → Kept a (State.endPacket x0 x1 x2) := by
  intro x0 x1 x2 h0
  unfold State.endPacket
  repeat' first
    | with_reducible assumption
    | with_reducible intro _
    | with_reducible apply State.emit_kept
    | with_reducible apply State.releaseCell_kept
    | with_reducible apply Kept.ite
    | with_reducible apply Kept.foldl
    | split
    | (with_reducible refine Kept.mk' ?_ rfl rfl rfl rfl rfl rfl rfl rfl)

theorem State.sendCell_kept {a : State} : ∀ x0 x1 x2, Kept a x0 → Kept a (State.sendCell x0 x1 x2) := by
  intro x0 x1 x2 h0
  unfold State.sendCell
  repeat' first
    | with_reducible assumption
    | with_reducible apply State.bump_kept
    | with_reducible apply State.sendUnit_kept
    | with_reducible apply State.setLink_kept
    | with_reducible apply State.endPacket_kept
    | with_reducible apply State.setOut_kept
    | with_reducible apply Kept.ite
    | split

theorem State.shape_kept {a : State} : ∀ x0 x1 x2, Kept a x0 → Kept a (State.shape x0 x1 x2) := by
  intro x0 x1 x2 h0
  unfold State.shape
  repeat' first | with_reducible assumption | with_reducible apply State.setOut_kept

theorem State.takeSettings_kept {a : State} : ∀ x0 x1, Kept a x0 → Kept a (State.takeSettings x0 x1) := by
  intro x0 x1 h0
  unfold State.takeSettings
  repeat' first | with_reducible assumption | with_reducible apply State.setOut_kept

theorem execOutputCellTime_kept {a : State} : ∀ x0 x1, Kept a x1 → KeptOut a (execOutputCellTime x0 x1) := by
  intro x0 x1 h0
  unfold execOutputCellTime
  repeat' first
    | with_reducible assumption
    | with_reducible apply State.beginPacket_kept
    | with_reducible apply State.takeSettings_kept
    | with_reducible apply State.sendCell_kept
    | with_reducible apply State.sendUnit_kept
    | with_reducible apply State.pfcAll_kept
    | with_reducible apply State.shape_kept
    | with_reducible apply KeptOut.next
    | with_reducible apply KeptOut.ite
    | with_reducible apply Kept.ite
    | split

theorem execXbarMatch_kept {a : State} : ∀ x0, Kept a x0 → KeptOut a (execXbarMatch x0) := by
  intro x0 h0
  unfold execXbarMatch
  repeat' first
    | with_reducible assumption
    | with_reducible intro _
    | with_reducible apply State.countHeld_kept
    | with_reducible apply State.slotMatch_kept
    | with_reducible apply State.offerAll_kept
    | with_reducible apply State.pfcAll_kept
    | with_reducible apply State.reroute_kept
    | with_reducible apply KeptOut.next
    | with_reducible apply KeptOut.ite
    | with_reducible apply Kept.foldl
    | split
    | lift_lets -underBinder
    | (with_reducible refine Kept.mk' ?_ rfl rfl rfl rfl rfl rfl rfl rfl)

theorem State.grantN_kept {a : State} : ∀ x0 x1 x2, Kept a x0 → Kept a (State.grantN x0 x1 x2) := by
  intro s k n h
  induction n generalizing s with
  | zero => exact h
  | succ n ih => exact ih _ (State.grant_kept _ _ h)

theorem State.payOwed_kept {a : State} : ∀ x0, Kept a x0 → Kept a (State.payOwed x0) := by
  intro x0 h0
  unfold State.payOwed
  repeat' first
    | with_reducible assumption
    | with_reducible intro _
    | with_reducible apply State.grantN_kept
    | with_reducible apply Kept.ite
    | with_reducible apply Kept.foldl
    | lift_lets -underBinder
    | (with_reducible refine Kept.mk' ?_ rfl rfl rfl rfl rfl rfl rfl rfl)

theorem execPoolLevelTest_kept {a : State} : ∀ x0, Kept a x0 → KeptOut a (execPoolLevelTest x0) := by
  intro x0 h0
  unfold execPoolLevelTest
  repeat' first
    | with_reducible assumption
    | with_reducible intro _
    | with_reducible apply State.bump_kept
    | with_reducible apply State.pfcAll_kept
    | with_reducible apply State.payOwed_kept
    | with_reducible apply KeptOut.next
    | with_reducible apply KeptOut.ite
    | with_reducible apply Kept.ite
    | with_reducible apply Kept.foldl
    | lift_lets -underBinder
    | (with_reducible refine Kept.mk' ?_ rfl rfl rfl rfl rfl rfl rfl rfl)

theorem execPacingWindow_kept {a : State} : ∀ x0, Kept a x0 → KeptOut a (execPacingWindow x0) := by
  intro x0 h0
  unfold execPacingWindow
  repeat' first
    | with_reducible assumption
    | with_reducible intro _
    | with_reducible apply State.advanceTo_kept
    | with_reducible apply KeptOut.next
    | lift_lets -underBinder
    | (with_reducible refine Kept.mk' ?_ rfl rfl rfl rfl rfl rfl rfl rfl)

theorem State.pokePage_kept {a : State} : ∀ x0 x1 x2 x3, Kept a x0 → Kept a (State.pokePage x0 x1 x2 x3) := by
  intro x0 x1 x2 x3 h0
  unfold State.pokePage
  repeat' first
    | with_reducible assumption
    | with_reducible intro _
    | with_reducible apply State.pokeByte_kept
    | with_reducible apply Kept.foldl

theorem State.syncPage_kept {a : State} : ∀ x0 x1, Kept a x0 → Kept a (State.syncPage x0 x1) := by
  intro x0 x1 h0
  unfold State.syncPage
  repeat' first | with_reducible assumption | with_reducible apply State.pokePage_kept

theorem State.spillCell_kept {a : State} : ∀ x0 x1 x2 x3 x4, Kept a x0 → Kept a (State.spillCell x0 x1 x2 x3 x4) := by
  intro x0 x1 x2 x3 x4 h0
  unfold State.spillCell
  repeat' first
    | with_reducible assumption
    | with_reducible apply State.pokePage_kept
    | with_reducible apply State.setInfo_kept
    | with_reducible apply State.releaseCell_kept
    | with_reducible apply Kept.ite

theorem execSpillPage_kept {a : State} : ∀ x0 x1 x2, Kept a x2 → KeptOut a (execSpillPage x0 x1 x2) := by
  intro x0 x1 x2 h0
  unfold execSpillPage
  repeat' first
    | with_reducible assumption
    | with_reducible intro _
    | with_reducible apply State.alloc_kept
    | with_reducible apply State.describe_kept
    | with_reducible apply State.syncPage_kept
    | with_reducible apply State.linkBuf_kept
    | with_reducible apply State.setOutQ_kept
    | with_reducible apply State.spillCell_kept
    | with_reducible apply State.pfcAll_kept
    | with_reducible apply KeptOut.next
    | with_reducible apply KeptOut.ite
    | with_reducible apply Kept.foldl
    | with_reducible refine Kept.of_fst ?_ (by assumption)
    | split

theorem State.loseQueued_kept {a : State} : ∀ x0 x1, Kept a x0 → Kept a (State.loseQueued x0 x1) := by
  intro x0 x1 h0
  unfold State.loseQueued
  repeat' first
    | with_reducible assumption
    | (intro y; refine Kept.cut (a := a) y ?_ ?_; unfold y)
    | with_reducible intro _
    | with_reducible apply State.releaseCell_kept
    | with_reducible apply State.setInfo_kept
    | with_reducible apply State.giveBack_kept
    | with_reducible apply Kept.foldl
    | split
    | lift_lets -underBinder

theorem State.loseSpilled_kept {a : State} : ∀ x0 x1, Kept a x0 → Kept a (State.loseSpilled x0 x1) := by
  intro x0 x1 h0
  unfold State.loseSpilled
  repeat' first
    | with_reducible assumption
    | with_reducible apply State.loseQueued_kept
    | with_reducible apply State.emptyDrop_kept

theorem State.returnCell_kept {a : State} : ∀ x0 x1 x2 x3 x4 x5 x6, Kept a x0 → Kept a (State.returnCell x0 x1 x2 x3 x4 x5 x6) := by
  intro x0 x1 x2 x3 x4 x5 x6 h0
  unfold State.returnCell
  repeat' first
    | with_reducible assumption
    | with_reducible apply State.alloc_kept
    | with_reducible apply State.describe_kept
    | with_reducible apply State.setInfo_kept
    | with_reducible apply State.setOutQ_kept
    | with_reducible apply Kept.ite
    | with_reducible refine Kept.of_fst ?_ (by assumption)
    | split

theorem State.returnQueue_kept {a : State} : ∀ x0 x1 x2, Kept a x0 → Kept a (State.returnQueue x0 x1 x2) := by
  intro x0 x1 x2 h0
  unfold State.returnQueue
  repeat' first
    | with_reducible assumption
    | with_reducible intro _
    | with_reducible apply State.returnCell_kept
    | with_reducible apply State.joinTail_kept
    | with_reducible apply State.setOutQ_kept
    | with_reducible apply Kept.foldl

theorem execSpillReturn_kept {a : State} : ∀ x0 x1 x2 x3, Kept a x3 → KeptOut a (execSpillReturn x0 x1 x2 x3) := by
  intro x0 x1 x2 x3 h0
  unfold execSpillReturn
  repeat' first
    | with_reducible assumption
    | with_reducible intro _
    | with_reducible apply State.listCorrupt_kept
    | with_reducible apply State.memUncorrected_kept
    | with_reducible apply State.loseSpilled_kept
    | with_reducible apply State.setOutQ_kept
    | with_reducible apply State.returnQueue_kept
    | with_reducible apply State.syncPage_kept
    | with_reducible apply State.freePages_kept
    | with_reducible apply State.pfcAll_kept
    | with_reducible apply KeptOut.next
    | with_reducible apply KeptOut.ite
    | with_reducible apply Kept.ite
    | with_reducible apply Kept.foldl
    | split
    | lift_lets -underBinder

end Sys2Proof.Machine
end

