-- ==== Sys2Proof/Laws/KeptService.lean ====
section
/-! SUPPORT. What the operations of Service keep (Laws/Kept.lean). -/

namespace Sys2Proof.Machine

theorem State.refillPort_kept {a : State} : ∀ x0 x1, Kept a x0 → Kept a (State.refillPort x0 x1) := by
  intro x0 x1 h0
  unfold State.refillPort
  repeat' first | with_reducible assumption | with_reducible apply State.setSvc_kept

theorem execPolicerRefill_kept {a : State} : ∀ x0, Kept a x0 → KeptOut a (execPolicerRefill x0) := by
  intro x0 h0
  unfold execPolicerRefill
  repeat' first
    | with_reducible assumption
    | with_reducible intro _
    | with_reducible apply State.advanceTo_kept
    | with_reducible apply State.refillPort_kept
    | with_reducible apply KeptOut.next
    | with_reducible apply Kept.foldl

theorem State.fillBuckets_kept {a : State} : ∀ x0 x1 x2, Kept a x0 → Kept a (State.fillBuckets x0 x1 x2) := by
  intro x0 x1 x2 h0
  unfold State.fillBuckets
  repeat' first | with_reducible assumption | with_reducible apply State.setSvc_kept

theorem State.takeModes_kept {a : State} : ∀ x0 x1, Kept a x0 → Kept a (State.takeModes x0 x1) := by
  intro x0 x1 h0
  unfold State.takeModes
  repeat' first | with_reducible assumption | with_reducible apply State.setSvc_kept

theorem State.police_kept {a : State} : ∀ x0 x1 x2 x3 x4, Kept a x0 → Kept a (State.police x0 x1 x2 x3 x4).1 := by
  intro x0 x1 x2 x3 x4 h0
  unfold State.police
  repeat' first
    | with_reducible assumption
    | with_reducible intro _
    | with_reducible apply State.bump_kept
    | with_reducible apply State.setSvc_kept
    | split
    | lift_lets -underBinder

theorem State.svcAdmit_kept {a : State} : ∀ x0 x1 x2 x3, Kept a x0 → Kept a (State.svcAdmit x0 x1 x2 x3).1 := by
  intro x0 x1 x2 x3 h0
  unfold State.svcAdmit
  repeat' first | with_reducible assumption | with_reducible apply State.bump_kept | split

theorem State.datagramRx_kept {a : State} : ∀ x0 x1 x2, Kept a x0 → Kept a (State.datagramRx x0 x1 x2) := by
  intro x0 x1 x2 h0
  unfold State.datagramRx
  repeat' first
    | with_reducible assumption
    | with_reducible intro _
    | with_reducible apply State.bump_kept
    | with_reducible apply State.police_kept
    | with_reducible apply State.svcAdmit_kept
    | with_reducible apply State.setTxq_kept
    | with_reducible apply Kept.ite
    | with_reducible refine Kept.of_fst ?_ (by assumption)
    | split
    | lift_lets -underBinder

theorem execSvcFrameRx_kept {a : State} : ∀ x0 x1 x2, Kept a x2 → KeptOut a (execSvcFrameRx x0 x1 x2) := by
  intro x0 x1 x2 h0
  unfold execSvcFrameRx
  repeat' first
    | with_reducible assumption
    | with_reducible apply State.bump_kept
    | with_reducible apply State.datagramRx_kept
    | with_reducible apply KeptOut.next
    | with_reducible apply Kept.ite

theorem execNeighborSolicitationRx_kept {a : State} : ∀ x0 x1 x2 x3, Kept a x3 → KeptOut a (execNeighborSolicitationRx x0 x1 x2 x3) := by
  intro x0 x1 x2 x3 h0
  unfold execNeighborSolicitationRx
  repeat' first
    | with_reducible assumption
    | with_reducible apply State.bump_kept
    | with_reducible apply State.emit_kept
    | with_reducible apply KeptOut.next
    | with_reducible apply Kept.ite

end Sys2Proof.Machine
end

