-- ==== Sys2Proof/Laws/KeptFunctions.lean ====
section
/-! SUPPORT. What the operations of Functions keep (Laws/Kept.lean). -/

namespace Sys2Proof.Machine

theorem State.markInit_kept {a : State} : ∀ x0 x1 x2 x3, Kept a x0 → Kept a (State.markInit x0 x1 x2 x3) := by
  intro x0 x1 x2 x3 h0
  unfold State.markInit
  repeat' first
    | with_reducible assumption
    | with_reducible intro _
    | lift_lets -underBinder
    | (with_reducible refine Kept.mk' ?_ rfl rfl rfl rfl rfl rfl rfl rfl)

theorem State.clearCapture_kept {a : State} : ∀ x0 x1, Kept a x0 → Kept a (State.clearCapture x0 x1) := by
  intro x0 x1 h0
  unfold State.clearCapture
  repeat' first
    | with_reducible assumption
    | with_reducible intro _
    | with_reducible apply State.setObj_kept
    | with_reducible apply Kept.foldl

theorem State.startFn_kept {a : State} : ∀ x0 x1, Kept a x0 → Kept a (State.startFn x0 x1) := by
  intro x0 x1 h0
  unfold State.startFn
  repeat' first
    | with_reducible assumption
    | with_reducible apply State.setFnState_kept
    | with_reducible apply State.markInit_kept
    | with_reducible apply State.clearCapture_kept
    | with_reducible apply State.modParcel_kept
    | with_reducible apply Kept.ite

theorem State.stopFn_kept {a : State} : ∀ x0 x1, Kept a x0 → Kept a (State.stopFn x0 x1) := by
  intro x0 x1 h0
  unfold State.stopFn
  repeat' first
    | with_reducible assumption
    | with_reducible apply State.setFnState_kept
    | with_reducible apply State.haltParcel_kept
    | with_reducible apply State.markInit_kept
    | with_reducible apply Kept.ite

theorem State.reinitFn_kept {a : State} : ∀ x0 x1, Kept a x0 → Kept a (State.reinitFn x0 x1) := by
  intro x0 x1 h0
  unfold State.reinitFn
  repeat' first
    | with_reducible assumption
    | with_reducible apply State.setFnState_kept
    | with_reducible apply State.markInit_kept

theorem State.train_kept {a : State} : ∀ x0 x1, Kept a x0 → Kept a (State.train x0 x1).1 := by
  intro x0 x1 h0
  unfold State.train
  repeat' first
    | with_reducible assumption
    | with_reducible apply State.fresh_kept
    | with_reducible apply State.setObj_kept
    | with_reducible refine Kept.of_snd ?_ (by assumption)
    | split

theorem State.fabricStart_kept {a : State} : ∀ x0, Kept a x0 → Kept a (State.fabricStart x0) := by
  intro x0 h0
  unfold State.fabricStart
  repeat' first
    | with_reducible assumption
    | with_reducible intro _
    | with_reducible apply State.setObj_kept
    | with_reducible apply State.fillBuckets_kept
    | with_reducible apply State.takeModes_kept
    | with_reducible apply State.setLink_kept
    | with_reducible apply State.timeLink_kept
    | with_reducible apply State.applyDisabled_kept
    | with_reducible apply Kept.ite
    | with_reducible apply Kept.foldl
    | lift_lets -underBinder
    | (with_reducible refine Kept.mk' ?_ rfl rfl rfl rfl rfl rfl rfl rfl)

theorem State.runParcel_kept {a : State} : ∀ x0 x1, Kept a x0 → Kept a (State.runParcel x0 x1) := by
  intro x0 x1 h0
  unfold State.runParcel
  repeat' first
    | with_reducible assumption
    | with_reducible intro _
    | with_reducible apply State.modParcel_kept
    | with_reducible apply State.setObj_kept
    | with_reducible apply State.extend_kept
    | with_reducible apply State.installCode_kept
    | with_reducible apply State.installData_kept
    | with_reducible apply State.installDescs_kept
    | with_reducible apply State.setCseqs_kept
    | with_reducible apply State.modGroup_kept
    | with_reducible apply State.setJobState_kept
    | with_reducible apply State.startCores_kept
    | with_reducible apply State.setFnState_kept
    | with_reducible apply Kept.ite
    | with_reducible apply Kept.foldl

theorem State.parcelInit_kept {a : State} : ∀ x0 x1, Kept a x0 → Kept a (State.parcelInit x0 x1) := by
  intro x0 x1 h0
  unfold State.parcelInit
  repeat' first
    | with_reducible assumption
    | with_reducible apply State.setObj_kept
    | with_reducible apply State.advise_kept
    | with_reducible apply State.setFnState_kept
    | with_reducible apply State.memUncorrected_kept
    | with_reducible apply State.runParcel_kept
    | with_reducible apply Kept.ite
    | split

theorem State.startFails_kept {a : State} : ∀ x0 x1, Kept a x0 → Kept a (State.startFails x0 x1) := by
  intro x0 x1 h0
  unfold State.startFails
  repeat' first
    | with_reducible assumption
    | with_reducible apply State.fresh_kept
    | with_reducible apply State.setFnState_kept
    | with_reducible apply State.setObj_kept

theorem State.initWork_kept {a : State} : ∀ x0 x1 x2, Kept a x0 → Kept a (State.initWork x0 x1 x2).1 := by
  intro x0 x1 x2 h0
  unfold State.initWork
  repeat' first | with_reducible assumption | with_reducible apply State.train_kept | split

theorem State.regulatorFault_kept {a : State} : ∀ x0, Kept a x0 → Kept a (State.regulatorFault x0) := by
  intro x0 h0
  unfold State.regulatorFault
  repeat' first
    | with_reducible assumption
    | with_reducible apply State.fresh_kept
    | with_reducible apply State.raise_kept

theorem State.initDone_kept {a : State} : ∀ x0 x1 x2, Kept a x0 → Kept a (State.initDone x0 x1 x2) := by
  intro x0 x1 x2 h0
  unfold State.initDone
  repeat' first
    | with_reducible assumption
    | with_reducible apply State.setFnState_kept
    | with_reducible apply State.setObj_kept
    | with_reducible apply State.markInit_kept
    | with_reducible apply State.parcelInit_kept
    | with_reducible apply State.initWork_kept
    | with_reducible apply State.regulatorFault_kept
    | with_reducible apply State.fabricStart_kept
    | with_reducible apply State.elect_kept
    | with_reducible apply State.startFails_kept
    | with_reducible apply Kept.ite

theorem State.stopDone_kept {a : State} : ∀ x0 x1, Kept a x0 → Kept a (State.stopDone x0 x1) := by
  intro x0 x1 h0
  unfold State.stopDone
  repeat' first
    | with_reducible assumption
    | with_reducible apply State.setFnState_kept
    | with_reducible apply State.flushUnits_kept
    | with_reducible apply State.expireRequests_kept
    | with_reducible apply State.setObj_kept
    | with_reducible apply State.markInit_kept
    | with_reducible apply Kept.ite

theorem State.autoStart_kept {a : State} : ∀ x0 x1, Kept a x0 → Kept a (State.autoStart x0 x1) := by
  intro x0 x1 h0
  unfold State.autoStart
  repeat' first
    | with_reducible assumption
    | with_reducible apply State.startFn_kept
    | with_reducible apply Kept.ite

theorem State.releaseHeld_kept {a : State} : ∀ x0, Kept a x0 → Kept a (State.releaseHeld x0) := by
  intro x0 h0
  unfold State.releaseHeld
  repeat' first
    | with_reducible assumption
    | with_reducible intro _
    | with_reducible apply State.modParcel_kept
    | with_reducible apply Kept.ite
    | with_reducible apply Kept.foldl

theorem State.wipeDie_kept {a : State} : ∀ x0 x1, Kept a x0 → Kept a (State.wipeDie x0 x1) := by
  intro x0 x1 h0
  unfold State.wipeDie
  repeat' first
    | with_reducible assumption
    | with_reducible intro _
    | with_reducible apply State.modCore_kept
    | with_reducible apply Kept.foldl

theorem State.dieCleared_kept {a : State} : ∀ x0 x1, Kept a x0 → Kept a (State.dieCleared x0 x1) := by
  intro s k h
  unfold State.dieCleared
  have g := State.wipeDie_kept s k h
  generalize s.wipeDie k = t at g
  dsimp only
  exact State.releaseHeld_kept _ ⟨g.queue, g.fresh, g.dict, fun x => Sparse.wf_clearRange _ _ (g.memory x), g.identity, g.keys, g.counters,
    g.flashForm, g.fitted, g.said⟩

theorem State.steCleared_kept {a : State} : ∀ x0 x1, Kept a x0 → Kept a (State.steCleared x0 x1) := by
  intro s j h
  unfold State.steCleared
  lift_lets -underBinder
  intro t u
  have g : Kept a t := State.clearSte_kept _ _ (State.steBusy_kept _ _ h)
  have e : Kept a u := ⟨g.queue, g.fresh, g.dict, fun x => Sparse.wf_clearRange _ _ (g.memory x), g.identity, g.keys, g.counters,
    g.flashForm, g.fitted, g.said⟩
  exact State.releaseHeld_kept _ (State.setSteState_kept _ _ _ e)

theorem execDieClearDone_kept {a : State} : ∀ x0 x1, Kept a x1 → KeptOut a (execDieClearDone x0 x1) := by
  intro x0 x1 h0
  unfold execDieClearDone
  repeat' first
    | with_reducible assumption
    | with_reducible apply State.dieCleared_kept
    | with_reducible apply KeptOut.next
    | with_reducible apply Kept.ite

theorem execSteClearDone_kept {a : State} : ∀ x0 x1, Kept a x1 → KeptOut a (execSteClearDone x0 x1) := by
  intro x0 x1 h0
  unfold execSteClearDone
  repeat' first
    | with_reducible assumption
    | with_reducible apply State.steCleared_kept
    | with_reducible apply KeptOut.next
    | with_reducible apply Kept.ite

theorem execFunctionInitDone_kept {a : State} : ∀ x0 x1 x2, Kept a x2 → KeptOut a (execFunctionInitDone x0 x1 x2) := by
  intro x0 x1 x2 h0
  unfold execFunctionInitDone
  repeat' first
    | with_reducible assumption
    | with_reducible apply State.initDone_kept
    | with_reducible apply KeptOut.next

theorem execFunctionStopDone_kept {a : State} : ∀ x0 x1, Kept a x1 → KeptOut a (execFunctionStopDone x0 x1) := by
  intro x0 x1 h0
  unfold execFunctionStopDone
  repeat' first
    | with_reducible assumption
    | with_reducible apply State.stopDone_kept
    | with_reducible apply KeptOut.next

theorem execAutoStart_kept {a : State} : ∀ x0 x1, Kept a x1 → KeptOut a (execAutoStart x0 x1) := by
  intro x0 x1 h0
  unfold execAutoStart
  repeat' first
    | with_reducible assumption
    | with_reducible apply State.autoStart_kept
    | with_reducible apply KeptOut.next

end Sys2Proof.Machine
end

