-- ==== Sys2Proof/Laws/KeptReclaim.lean ====
section
/-! SUPPORT. What the operations of Reclaim keep (Laws/Kept.lean). -/

namespace Sys2Proof.Machine

theorem State.copyRegion_kept {a : State} : ∀ x0 x1 x2, Kept a x0 → Kept a (State.copyRegion x0 x1 x2) := by
  intro s d f h
  refine ⟨h.queue, h.fresh, h.dict, fun x => ?_, h.identity, h.keys, h.counters, h.flashForm, h.fitted, h.said⟩
  have := Sparse.wf_filter (fun e => !d e.1) (h.memory x)
  simp only [State.copyRegion]
  generalize s.mem.filter (fun e => !d e.1) = m at this
  generalize s.mem.filterMap _ = l
  induction l generalizing m with
  | nil => exact this
  | cons e l ih => exact ih _ (Sparse.wf_set this)

theorem State.parkCopy_kept {a : State} : ∀ x0 x1, Kept a x0 → Kept a (State.parkCopy x0 x1) := by
  intro x0 x1 h0
  unfold State.parkCopy
  repeat' first | with_reducible assumption | with_reducible apply State.copyRegion_kept

theorem State.parkHeader_kept {a : State} : ∀ x0 x1, Kept a x0 → Kept a (State.parkHeader x0 x1) := by
  intro x0 x1 h0
  unfold State.parkHeader
  repeat' first
    | with_reducible assumption
    | with_reducible apply State.setObj_kept
    | with_reducible apply State.writeBytes_kept

theorem State.park_kept {a : State} : ∀ x0 x1, Kept a x0 → Kept a (State.park x0 x1).1 := by
  intro x0 x1 h0
  unfold State.park
  repeat' first
    | with_reducible assumption
    | with_reducible apply State.memUncorrected_kept
    | with_reducible apply State.parkHeader_kept
    | with_reducible apply State.parkCopy_kept
    | split

theorem execPark_kept {a : State} : ∀ x0 x1, Kept a x1 → KeptOut a (execPark x0 x1) := by
  intro x0 x1 h0
  unfold execPark
  repeat' first
    | with_reducible assumption
    | with_reducible intro _
    | with_reducible apply State.control_kept
    | with_reducible apply State.fresh_kept
    | with_reducible apply State.setResults_kept
    | with_reducible apply State.libWait_kept
    | with_reducible apply State.joinCall_kept
    | with_reducible apply State.flushUnits_kept
    | with_reducible apply State.modParcel_kept
    | with_reducible apply State.park_kept
    | with_reducible apply State.setObj_kept
    | with_reducible apply State.returnAll_kept
    | with_reducible apply KeptOut.next
    | with_reducible apply Kept.ite
    | split

theorem State.restore_kept {a : State} : ∀ x0 x1, Kept a x0 → Kept a (State.restore x0 x1).1 := by
  intro x0 x1 h0
  unfold State.restore
  repeat' first
    | with_reducible assumption
    | with_reducible intro _
    | with_reducible apply State.restartNeeded_kept
    | with_reducible apply State.memUncorrected_kept
    | with_reducible apply State.copyRegion_kept
    | with_reducible apply State.setObj_kept
    | with_reducible apply State.mirrorRecord_kept
    | with_reducible apply State.setJobState_kept
    | with_reducible apply State.setCseqs_kept
    | with_reducible apply State.modParcel_kept
    | with_reducible apply State.fresh_kept
    | split
    | lift_lets -underBinder

theorem execRestore_kept {a : State} : ∀ x0 x1, Kept a x1 → KeptOut a (execRestore x0 x1) := by
  intro x0 x1 h0
  unfold execRestore
  repeat' first
    | with_reducible assumption
    | with_reducible intro _
    | with_reducible apply State.control_kept
    | with_reducible apply State.fresh_kept
    | with_reducible apply State.setResults_kept
    | with_reducible apply State.libWait_kept
    | with_reducible apply State.joinCall_kept
    | with_reducible apply State.restore_kept
    | with_reducible apply State.modParcel_kept
    | with_reducible apply State.returnAll_kept
    | with_reducible apply KeptOut.next
    | with_reducible apply Kept.ite
    | split

theorem State.scramble_kept {a : State} : ∀ x0 x1, Kept a x0 → Kept a (State.scramble x0 x1) := by
  intro x0 x1 h0
  unfold State.scramble
  repeat' first
    | with_reducible assumption
    | with_reducible intro _
    | with_reducible apply State.fresh_kept
    | with_reducible apply State.pokeByte_kept
    | with_reducible apply Kept.foldl

theorem State.endWaiting_kept {a : State} : ∀ x0 x1, Kept a x0 → Kept a (State.endWaiting x0 x1) := by
  intro x0 x1 h0
  unfold State.endWaiting
  repeat' first
    | with_reducible assumption
    | with_reducible intro _
    | with_reducible apply State.dropEntry_kept
    | with_reducible apply State.scramble_kept
    | with_reducible apply Kept.ite
    | split
    | lift_lets -underBinder

theorem State.abandon_kept {a : State} : ∀ x0 x1, Kept a x0 → Kept a (State.abandon x0 x1) := by
  intro x0 x1 h0
  unfold State.abandon
  repeat' first
    | with_reducible assumption
    | with_reducible intro _
    | with_reducible apply State.setJobState_kept
    | with_reducible apply State.endWaiting_kept
    | with_reducible apply State.haltParcel_kept
    | with_reducible apply State.modParcel_kept
    | with_reducible apply Kept.ite
    | with_reducible apply Kept.foldl

theorem execReclaimAtTr_kept {a : State} : ∀ x0 x1, Kept a x1 → KeptOut a (execReclaimAtTr x0 x1) := by
  intro x0 x1 h0
  unfold execReclaimAtTr
  repeat' first
    | with_reducible assumption
    | with_reducible apply State.advanceTo_kept
    | with_reducible apply State.modParcel_kept
    | with_reducible apply State.abandon_kept
    | with_reducible apply KeptOut.next
    | with_reducible apply KeptOut.ite
    | with_reducible apply Kept.ite

theorem State.discardJob_kept {a : State} : ∀ x0 x1, Kept a x0 → Kept a (State.discardJob x0 x1) := by
  intro x0 x1 h0
  unfold State.discardJob
  repeat' first
    | with_reducible assumption
    | with_reducible intro _
    | with_reducible apply State.loseQueued_kept
    | with_reducible apply State.setOutQ_kept
    | with_reducible apply Kept.foldl
    | lift_lets -underBinder
    | dsimp -zeta only
    | (with_reducible refine Kept.mk' ?_ rfl rfl rfl rfl rfl rfl rfl rfl)

theorem execReclaimDrainDone_kept {a : State} : ∀ x0 x1, Kept a x1 → KeptOut a (execReclaimDrainDone x0 x1) := by
  intro x0 x1 h0
  unfold execReclaimDrainDone
  repeat' first
    | with_reducible assumption
    | with_reducible apply State.parkPhase_kept
    | with_reducible apply State.flushUnits_kept
    | with_reducible apply State.discardJob_kept
    | with_reducible apply State.expireRequests_kept
    | with_reducible apply KeptOut.next
    | with_reducible apply Kept.ite

theorem execReclaimParkDone_kept {a : State} : ∀ x0 x1, Kept a x1 → KeptOut a (execReclaimParkDone x0 x1) := by
  intro x0 x1 h0
  unfold execReclaimParkDone
  repeat' first
    | with_reducible assumption
    | with_reducible apply State.park_kept
    | with_reducible apply State.setJobState_kept
    | with_reducible apply State.setObj_kept
    | with_reducible apply State.modParcel_kept
    | with_reducible apply State.setFnState_kept
    | with_reducible apply KeptOut.next
    | with_reducible apply KeptOut.ite
    | with_reducible apply Kept.ite

theorem State.rollbackCmd_kept {a : State} : ∀ x0 x1, Kept a x0 → KeptOpt a (State.rollbackCmd x0 x1) := by
  intro x0 x1 h0
  unfold State.rollbackCmd
  repeat' first
    | with_reducible assumption
    | with_reducible apply State.dropColl_kept
    | with_reducible apply State.setJobState_kept
    | with_reducible apply State.haltParcel_kept
    | with_reducible apply State.modParcel_kept
    | with_reducible apply KeptOpt.ite
    | with_reducible apply KeptOpt.some
    | with_reducible exact KeptOpt.none
    | split

theorem State.reclaimCmd_kept {a : State} : ∀ x0 x1 x2, Kept a x0 → KeptOpt a (State.reclaimCmd x0 x1 x2) := by
  intro x0 x1 x2 h0
  unfold State.reclaimCmd
  repeat' first
    | with_reducible assumption
    | with_reducible apply State.modParcel_kept
    | with_reducible apply KeptOpt.ite
    | with_reducible apply KeptOpt.some
    | with_reducible exact KeptOpt.none

theorem State.jobResetCmd_kept {a : State} : ∀ x0 x1, Kept a x0 → KeptOpt a (State.jobResetCmd x0 x1) := by
  intro x0 x1 h0
  unfold State.jobResetCmd
  repeat' first
    | with_reducible assumption
    | with_reducible intro _
    | with_reducible apply State.storeBytes_kept
    | with_reducible apply State.setObj_kept
    | with_reducible apply State.setJobState_kept
    | with_reducible apply KeptOpt.ite
    | with_reducible apply KeptOpt.some
    | with_reducible exact KeptOpt.none
    | with_reducible apply Kept.ite
    | with_reducible apply Kept.foldl

end Sys2Proof.Machine
end

