-- ==== Sys2Proof/Laws/KeptSecurity.lean ====
section
/-! SUPPORT. What the operations of Security keep (Laws/Kept.lean). -/

namespace Sys2Proof.Machine

theorem State.loseUpdate_kept {a : State} : ∀ x0, Kept a x0 → Kept a (State.loseUpdate x0) := by
  intro s h
  have k (l : List (Nat × Nat × Nat)) : Kept a { s with flashLost := l, freshCtr := s.freshCtr + 1 } :=
    ⟨h.queue, le_trans h.fresh (Nat.le_succ _), h.dict, h.memory, h.identity, h.keys, h.counters, h.flashForm, h.fitted, h.said⟩
  unfold State.loseUpdate
  dsimp only
  split
  · split
    · exact k _
    · exact h
  · exact h

theorem State.restart_kept {a : State} : ∀ x0 x1, Kept a x0 → Kept a (State.restart x0 x1) := by
  intro s c h
  unfold State.restart
  apply State.setObj_kept
  have g : Kept a (if c = 2 then s else s.loseUpdate) := Kept.ite h (State.loseUpdate_kept _ h)
  generalize (if c = 2 then s else s.loseUpdate) = s' at g
  exact ⟨g.queue, le_trans g.fresh (Nat.le_succ _), fun _ => rfl, fun _ => rfl, g.identity, g.keys, g.counters, g.flashForm, g.fitted, g.said⟩

theorem State.deviceReset_kept {a : State} : ∀ x0, Kept a x0 → KeptOpt a (State.deviceReset x0) := by
  intro x0 h0
  unfold State.deviceReset
  repeat' first
    | with_reducible assumption
    | with_reducible apply State.restart_kept
    | with_reducible apply KeptOpt.ite
    | with_reducible apply KeptOpt.some
    | with_reducible exact KeptOpt.none

theorem State.makeQuote_kept {a : State} : ∀ x0 x1, Kept a x0 → Kept a (State.makeQuote x0 x1) := by
  intro x0 x1 h0
  unfold State.makeQuote
  repeat' first
    | with_reducible assumption
    | with_reducible intro _
    | with_reducible apply State.fresh_kept
    | with_reducible apply State.setObj_kept
    | with_reducible apply State.bump_kept
    | with_reducible apply Kept.foldl

theorem State.commitKey_kept {a : State} : ∀ x0, Kept a x0 → KeptOpt a (State.commitKey x0) := by
  intro s h
  unfold State.commitKey
  dsimp only
  split
  · exact KeptOpt.none
  · rename_i hk
    refine KeptOpt.some (State.advise_kept _ _ _ _ _ _ ?_)
    refine ⟨h.queue, h.fresh, h.dict, h.memory, h.identity, fun x => ?_, h.counters, h.flashForm, h.fitted, h.said⟩
    have := h.keys x
    simp only [Sealed.keysOk, Bool.and_eq_true, decide_eq_true_eq] at this ⊢
    refine ⟨by simpa using this.1, ?_⟩
    simpa using hk

theorem State.setUpd_kept {a : State} : ∀ x0 x1, Kept a x0 → Kept a (State.setUpd x0 x1) := by
  intro x0 x1 h0
  unfold State.setUpd
  repeat' first | with_reducible assumption | with_reducible apply State.setObj_kept

theorem State.updErase_kept {a : State} : ∀ x0, Kept a x0 → KeptOpt a (State.updErase x0) := by
  intro x0 h0
  unfold State.updErase
  repeat' first
    | with_reducible assumption
    | with_reducible intro _
    | with_reducible apply State.setUpd_kept
    | with_reducible apply State.setObj_kept
    | with_reducible apply KeptOpt.ite
    | with_reducible apply KeptOpt.some
    | with_reducible exact KeptOpt.none
    | lift_lets -underBinder
    | (with_reducible refine Kept.mk' ?_ rfl rfl rfl rfl rfl rfl rfl rfl)

theorem State.eraseFlash_kept {a : State} : ∀ x0 x1 x2, Kept a x0 → Kept a (State.eraseFlash x0 x1 x2) := by
  intro s o n h
  exact ⟨h.queue, h.fresh, h.dict, h.memory, h.identity, h.keys, h.counters, fun x => Sparse.wf_clearRange _ _ (h.flashForm x), h.fitted,
    h.said⟩

theorem State.updErased_kept {a : State} : ∀ x0, Kept a x0 → Kept a (State.updErased x0) := by
  intro x0 h0
  unfold State.updErased
  repeat' first
    | with_reducible assumption
    | with_reducible apply State.setUpd_kept
    | with_reducible apply State.eraseFlash_kept
    | with_reducible apply Kept.ite
    | split

theorem State.updProgram_kept {a : State} : ∀ x0 x1, Kept a x0 → Kept a (State.updProgram x0 x1) := by
  intro s bs h
  unfold State.updProgram
  apply State.setObj_kept
  split
  · split
    · refine ⟨h.queue, h.fresh, h.dict, h.memory, h.identity, h.keys, h.counters, fun x => ?_, h.fitted, h.said⟩
      generalize bs.zipIdx = l
      have := h.flashForm x
      generalize s.flash = m at this
      induction l generalizing m with
      | nil => exact this
      | cons e l ih => exact ih _ (Sparse.wf_set this)
    · exact ⟨h.queue, le_trans h.fresh (Nat.le_succ _), h.dict, h.memory, h.identity, h.keys, h.counters, h.flashForm, h.fitted, h.said⟩
  · exact h

theorem State.updVerify_kept {a : State} : ∀ x0, Kept a x0 → KeptOpt a (State.updVerify x0) := by
  intro x0 h0
  unfold State.updVerify
  repeat' first
    | with_reducible assumption
    | with_reducible apply State.setUpd_kept
    | with_reducible apply KeptOpt.ite
    | with_reducible apply KeptOpt.some
    | with_reducible exact KeptOpt.none

theorem State.updVerified_kept {a : State} : ∀ x0, Kept a x0 → Kept a (State.updVerified x0) := by
  intro x0 h0
  unfold State.updVerified
  repeat' first
    | with_reducible assumption
    | with_reducible apply State.setUpd_kept
    | with_reducible apply State.advise_kept
    | with_reducible apply State.setObj_kept
    | with_reducible apply Kept.ite

theorem State.updActivate_kept {a : State} : ∀ x0, Kept a x0 → KeptOpt a (State.updActivate x0) := by
  intro s h
  have k (b : List Nat) : Kept a { s with sealed := { s.sealed with bootSlot := b } } :=
    ⟨h.queue, h.fresh, h.dict, h.memory, h.identity, h.keys, h.counters, h.flashForm, h.fitted, h.said⟩
  unfold State.updActivate
  split
  · exact KeptOpt.some (State.advise_kept _ _ _ _ _ _ (State.setUpd_kept _ _ (k _)))
  · exact KeptOpt.none

theorem State.updAbort_kept {a : State} : ∀ x0 x1, Kept a x0 → Kept a x1 → Kept a (State.updAbort x0 x1) := by
  intro s old h g
  unfold State.updAbort
  apply State.setUpd_kept
  split
  · have k := State.loseUpdate_kept _ g
    exact ⟨h.queue, k.fresh, h.dict, h.memory, h.identity, h.keys, h.counters, h.flashForm, h.fitted, h.said⟩
  · exact h

theorem State.setCounter_kept {a s : State} {i v : Nat} (hv : s.sealed.counters.getD i 0 ≤ v) (h : Kept a s) :
    Kept a (s.setCounter i v) := by
  refine ⟨h.queue, h.fresh, h.dict, h.memory, h.identity, h.keys, ⟨?_, fun j => le_trans (h.counters.2 j) ?_⟩, h.flashForm, h.fitted, h.said⟩
  · simpa [State.setCounter] using h.counters.1
  · simp only [State.setCounter]
    by_cases e : j = i
    · subst e
      by_cases l : j < s.sealed.counters.length
      · simpa [List.getD_eq_getElem?_getD, List.getElem?_set, l] using hv
      · simp [List.getD_eq_getElem?_getD, l]
    · simp [List.getD_eq_getElem?_getD, List.getElem?_set, Ne.symm e]

theorem State.svnCommit_kept {a : State} : ∀ x0 x1, Kept a x0 → Kept a (State.svnCommit x0 x1).2 := by
  intro s t h
  unfold State.svnCommit
  split
  · exact h
  · split
    · exact h
    · split
      · exact h
      · exact State.advise_kept _ _ _ _ _ _ (State.setCounter_kept (le_max_left _ _) h)

theorem State.counterInc_kept {a : State} : ∀ x0 x1, Kept a x0 → Kept a (State.counterInc x0 x1).2 := by
  intro s k h
  unfold State.counterInc
  dsimp only
  split
  · exact h
  · exact State.setCounter_kept (Nat.le_succ _) h

theorem State.newChallenge_kept {a : State} : ∀ x0, Kept a x0 → Kept a (State.newChallenge x0) := by
  intro s h
  exact ⟨h.queue, le_trans h.fresh (Nat.le_succ _), h.dict, h.memory, h.identity, h.keys, h.counters, h.flashForm, h.fitted, h.said⟩

theorem State.unlocked_kept {a : State} : ∀ x0 x1, Kept a x0 → Kept a (State.unlocked x0 x1) := by
  intro x0 x1 h0
  unfold State.unlocked
  repeat' first
    | with_reducible assumption
    | with_reducible apply State.newChallenge_kept
    | with_reducible apply State.advise_kept
    | with_reducible apply State.extend_kept
    | with_reducible apply State.setObj_kept

theorem State.unlockRefused_kept {a : State} : ∀ x0, Kept a x0 → Kept a (State.unlockRefused x0) := by
  intro x0 h0
  unfold State.unlockRefused
  repeat' first
    | with_reducible assumption
    | with_reducible apply State.newChallenge_kept
    | with_reducible apply State.advise_kept

theorem execUpdEraseDone_kept {a : State} : ∀ x0, Kept a x0 → KeptOut a (execUpdEraseDone x0) := by
  intro x0 h0
  unfold execUpdEraseDone
  repeat' first
    | with_reducible assumption
    | with_reducible apply State.updErased_kept
    | with_reducible apply KeptOut.next

theorem execUpdVerifyDone_kept {a : State} : ∀ x0, Kept a x0 → KeptOut a (execUpdVerifyDone x0) := by
  intro x0 h0
  unfold execUpdVerifyDone
  repeat' first
    | with_reducible assumption
    | with_reducible apply State.updVerified_kept
    | with_reducible apply KeptOut.next

end Sys2Proof.Machine
end

