-- ==== Sys2Proof/Laws/KeptDictWrite.lean ====
section
/-! SUPPORT. What the operations of DictWrite keep (Laws/Kept.lean). -/

namespace Sys2Proof.Machine

theorem State.afterWrite_kept {a : State} : ∀ x0 x1 x2 x3 x4, Kept a x0 → Kept a x1 → Kept a (State.afterWrite x0 x1 x2 x3 x4) := by
  intro x0 x1 x2 x3 x4 h0 h1
  unfold State.afterWrite
  repeat' first
    | with_reducible assumption
    | with_reducible intro _
    | with_reducible apply State.setObj_kept
    | with_reducible apply State.linkDown_kept
    | with_reducible apply State.setOut_kept
    | with_reducible apply State.fillBuckets_kept
    | with_reducible apply State.updAbort_kept
    | with_reducible apply Kept.ite
    | with_reducible apply Kept.foldl
    | lift_lets -underBinder
    | (with_reducible refine Kept.mk' ?_ rfl rfl rfl rfl rfl rfl rfl rfl)

theorem accepted_kept {a : State} : ∀ x0 x1, Kept a x0 → KeptOpt a x1 → Kept a (accepted x0 x1).2 := by
  intro x0 x1 h0 h1
  unfold accepted
  repeat' first | with_reducible assumption | with_reducible exact Kept.of_keptSome (by assumption) | split

theorem State.watchClear_kept {a : State} : ∀ x0, Kept a x0 → Kept a (State.watchClear x0) := by
  intro x0 h0
  unfold State.watchClear
  repeat' first
    | with_reducible assumption
    | with_reducible intro _
    | with_reducible apply State.setObj_kept
    | with_reducible apply Kept.foldl

theorem State.fnCommand_kept {a : State} : ∀ x0 x1 x2, Kept a x0 → Kept a (State.fnCommand x0 x1 x2).2 := by
  intro x0 x1 x2 h0
  unfold State.fnCommand
  repeat' first
    | with_reducible assumption
    | with_reducible apply State.startFn_kept
    | with_reducible apply State.stopFn_kept
    | with_reducible apply State.reinitFn_kept
    | with_reducible apply Kept.ite
    | split

theorem State.keyCommit_kept {a : State} : ∀ x0 x1, Kept a x0 → Kept a (State.keyCommit x0 x1).2 := by
  intro x0 x1 h0
  unfold State.keyCommit
  repeat' first
    | with_reducible assumption
    | with_reducible apply State.commitKey_kept
    | with_reducible refine Kept.of_some ?_ (by assumption)
    | split

theorem State.command_kept {a : State} : ∀ x0 x1 x2 x3 x4, Kept a x0 → Kept a (State.command x0 x1 x2 x3 x4).2 := by
  intro x0 x1 x2 x3 x4 h0
  unfold State.command
  repeat' first
    | with_reducible assumption
    | with_reducible apply State.fnCommand_kept
    | with_reducible apply accepted_kept
    | with_reducible apply State.rollbackCmd_kept
    | with_reducible apply State.reclaimCmd_kept
    | with_reducible apply State.jobResetCmd_kept
    | with_reducible apply State.levelNow_kept
    | with_reducible apply State.watchClear_kept
    | with_reducible apply State.unlocked_kept
    | with_reducible apply State.deviceReset_kept
    | with_reducible apply State.extend_kept
    | with_reducible apply State.keyCommit_kept
    | with_reducible apply State.makeQuote_kept
    | with_reducible apply State.updErase_kept
    | with_reducible apply State.updVerify_kept
    | with_reducible apply State.updActivate_kept
    | with_reducible apply State.svnCommit_kept
    | with_reducible apply State.counterInc_kept
    | with_reducible apply KeptOpt.ite
    | split

theorem State.refusedCommand_kept {a : State} : ∀ x0 x1 x2, Kept a x0 → Kept a (State.refusedCommand x0 x1 x2) := by
  intro x0 x1 x2 h0
  unfold State.refusedCommand
  repeat' first
    | with_reducible assumption
    | with_reducible apply State.unlockRefused_kept
    | with_reducible apply Kept.ite

theorem State.writeOne_kept {a : State} : ∀ x0 x1 x2 x3 x4, Kept a x0 → Kept a (State.writeOne x0 x1 x2 x3 x4).2 := by
  intro x0 x1 x2 x3 x4 h0
  unfold State.writeOne
  repeat' first
    | with_reducible assumption
    | (intro y; refine Kept.cut (a := a) y ?_ ?_; unfold y)
    | with_reducible intro _
    | with_reducible apply State.command_kept
    | with_reducible apply State.updProgram_kept
    | with_reducible apply State.setObj_kept
    | with_reducible apply State.afterWrite_kept
    | with_reducible apply Kept.ite
    | split
    | lift_lets -underBinder

theorem State.writeAll_kept {a : State} : ∀ x0 x1 x2 x3 x4, Kept a x4 → Kept a (State.writeAll x0 x1 x2 x3 x4).1 := by
  intro r es i w s h
  induction es generalizing i w s with
  | nil => exact h
  | cons e es ih =>
    unfold State.writeAll
    repeat' first
      | with_reducible assumption
      | with_reducible apply State.writeOne_kept
      | with_reducible apply ih
      | with_reducible refine Kept.of_snd ?_ (by assumption)
      | split

theorem State.dictWrite_kept {a : State} : ∀ x0 x1 x2, Kept a x0 → Kept a (State.dictWrite x0 x1 x2).1 := by
  intro x0 x1 x2 h0
  unfold State.dictWrite
  repeat' first
    | with_reducible assumption
    | with_reducible apply State.writeAll_kept
    | with_reducible apply State.refusedCommand_kept
    | with_reducible apply Kept.ite
    | with_reducible refine Kept.of_fst ?_ (by assumption)
    | split

theorem State.access_kept {a : State} : ∀ x0 x1 x2, Kept a x0 → Kept a (State.access x0 x1 x2) := by
  intro x0 x1 x2 h0
  unfold State.access
  repeat' first
    | with_reducible assumption
    | with_reducible apply State.dictWrite_kept
    | with_reducible apply Kept.ite

theorem State.write1_kept {a : State} : ∀ x0 x1 x2 x3 x4, Kept a x0 → Kept a (State.write1 x0 x1 x2 x3 x4) := by
  intro x0 x1 x2 x3 x4 h0
  unfold State.write1
  repeat' first | with_reducible assumption | with_reducible apply State.access_kept

theorem execFunctionStart_kept {a : State} : ∀ x0 x1 x2, Kept a x2 → KeptOut a (execFunctionStart x0 x1 x2) := by
  intro x0 x1 x2 h0
  unfold execFunctionStart
  repeat' first
    | with_reducible assumption
    | with_reducible apply State.write1_kept
    | with_reducible apply KeptOut.next

theorem execFunctionStop_kept {a : State} : ∀ x0 x1 x2, Kept a x2 → KeptOut a (execFunctionStop x0 x1 x2) := by
  intro x0 x1 x2 h0
  unfold execFunctionStop
  repeat' first
    | with_reducible assumption
    | with_reducible apply State.write1_kept
    | with_reducible apply KeptOut.next

theorem execFunctionReinit_kept {a : State} : ∀ x0 x1 x2, Kept a x2 → KeptOut a (execFunctionReinit x0 x1 x2) := by
  intro x0 x1 x2 h0
  unfold execFunctionReinit
  repeat' first
    | with_reducible assumption
    | with_reducible apply State.write1_kept
    | with_reducible apply KeptOut.next

theorem execRollback_kept {a : State} : ∀ x0 x1 x2, Kept a x2 → KeptOut a (execRollback x0 x1 x2) := by
  intro x0 x1 x2 h0
  unfold execRollback
  repeat' first
    | with_reducible assumption
    | with_reducible apply State.write1_kept
    | with_reducible apply KeptOut.next

theorem execReclaim_kept {a : State} : ∀ x0 x1 x2 x3, Kept a x3 → KeptOut a (execReclaim x0 x1 x2 x3) := by
  intro x0 x1 x2 x3 h0
  unfold execReclaim
  repeat' first
    | with_reducible assumption
    | with_reducible apply State.write1_kept
    | with_reducible apply KeptOut.next

theorem execJobReset_kept {a : State} : ∀ x0 x1 x2, Kept a x2 → KeptOut a (execJobReset x0 x1 x2) := by
  intro x0 x1 x2 h0
  unfold execJobReset
  repeat' first
    | with_reducible assumption
    | with_reducible apply State.write1_kept
    | with_reducible apply KeptOut.next

theorem execWatchClear_kept {a : State} : ∀ x0 x1, Kept a x1 → KeptOut a (execWatchClear x0 x1) := by
  intro x0 x1 h0
  unfold execWatchClear
  repeat' first
    | with_reducible assumption
    | with_reducible apply State.write1_kept
    | with_reducible apply KeptOut.next

theorem execLevelNow_kept {a : State} : ∀ x0 x1, Kept a x1 → KeptOut a (execLevelNow x0 x1) := by
  intro x0 x1 h0
  unfold execLevelNow
  repeat' first
    | with_reducible assumption
    | with_reducible apply State.write1_kept
    | with_reducible apply KeptOut.next

theorem execDebugUnlock_kept {a : State} : ∀ x0 x1 x2, Kept a x2 → KeptOut a (execDebugUnlock x0 x1 x2) := by
  intro x0 x1 x2 h0
  unfold execDebugUnlock
  repeat' first
    | with_reducible assumption
    | with_reducible apply State.write1_kept
    | with_reducible apply KeptOut.next

theorem execDeviceReset_kept {a : State} : ∀ x0 x1, Kept a x1 → KeptOut a (execDeviceReset x0 x1) := by
  intro x0 x1 h0
  unfold execDeviceReset
  repeat' first
    | with_reducible assumption
    | with_reducible apply State.write1_kept
    | with_reducible apply KeptOut.next

theorem execMeasureExtend_kept {a : State} : ∀ x0 x1 x2, Kept a x2 → KeptOut a (execMeasureExtend x0 x1 x2) := by
  intro x0 x1 x2 h0
  unfold execMeasureExtend
  repeat' first
    | with_reducible assumption
    | with_reducible apply State.write1_kept
    | with_reducible apply KeptOut.next

theorem execKeyCommit_kept {a : State} : ∀ x0 x1 x2 x3 x4 x5, Kept a x5 → KeptOut a (execKeyCommit x0 x1 x2 x3 x4 x5) := by
  intro x0 x1 x2 x3 x4 x5 h0
  unfold execKeyCommit
  repeat' first
    | with_reducible assumption
    | with_reducible apply State.access_kept
    | with_reducible apply KeptOut.next

theorem execQuote_kept {a : State} : ∀ x0 x1 x2, Kept a x2 → KeptOut a (execQuote x0 x1 x2) := by
  intro x0 x1 x2 h0
  unfold execQuote
  repeat' first
    | with_reducible assumption
    | with_reducible apply State.write1_kept
    | with_reducible apply KeptOut.next

theorem execUpdType_kept {a : State} : ∀ x0 x1 x2, Kept a x2 → KeptOut a (execUpdType x0 x1 x2) := by
  intro x0 x1 x2 h0
  unfold execUpdType
  repeat' first
    | with_reducible assumption
    | with_reducible apply State.write1_kept
    | with_reducible apply KeptOut.next

theorem execUpdErase_kept {a : State} : ∀ x0 x1, Kept a x1 → KeptOut a (execUpdErase x0 x1) := by
  intro x0 x1 h0
  unfold execUpdErase
  repeat' first
    | with_reducible assumption
    | with_reducible apply State.write1_kept
    | with_reducible apply KeptOut.next

theorem execUpdData_kept {a : State} : ∀ x0 x1 x2, Kept a x2 → KeptOut a (execUpdData x0 x1 x2) := by
  intro x0 x1 x2 h0
  unfold execUpdData
  repeat' first
    | with_reducible assumption
    | with_reducible apply State.write1_kept
    | with_reducible apply KeptOut.next

theorem execUpdVerify_kept {a : State} : ∀ x0 x1, Kept a x1 → KeptOut a (execUpdVerify x0 x1) := by
  intro x0 x1 h0
  unfold execUpdVerify
  repeat' first
    | with_reducible assumption
    | with_reducible apply State.write1_kept
    | with_reducible apply KeptOut.next

theorem execUpdActivate_kept {a : State} : ∀ x0 x1, Kept a x1 → KeptOut a (execUpdActivate x0 x1) := by
  intro x0 x1 h0
  unfold execUpdActivate
  repeat' first
    | with_reducible assumption
    | with_reducible apply State.write1_kept
    | with_reducible apply KeptOut.next

theorem execSvnCommit_kept {a : State} : ∀ x0 x1 x2, Kept a x2 → KeptOut a (execSvnCommit x0 x1 x2) := by
  intro x0 x1 x2 h0
  unfold execSvnCommit
  repeat' first
    | with_reducible assumption
    | with_reducible apply State.write1_kept
    | with_reducible apply KeptOut.next

theorem execCounterInc_kept {a : State} : ∀ x0 x1 x2, Kept a x2 → KeptOut a (execCounterInc x0 x1 x2) := by
  intro x0 x1 x2 h0
  unfold execCounterInc
  repeat' first
    | with_reducible assumption
    | with_reducible apply State.write1_kept
    | with_reducible apply KeptOut.next

theorem execObjectWrite_kept {a : State} : ∀ x0 x1 x2 x3 x4, Kept a x4 → KeptOut a (execObjectWrite x0 x1 x2 x3 x4) := by
  intro x0 x1 x2 x3 x4 h0
  unfold execObjectWrite
  repeat' first
    | with_reducible assumption
    | with_reducible apply State.write1_kept
    | with_reducible apply KeptOut.next

end Sys2Proof.Machine
end

