-- ==== Sys2Proof/Laws/KeptBoot.lean ====
section
/-! SUPPORT. What the operations of Boot keep (Laws/Kept.lean). -/

namespace Sys2Proof.Machine

theorem State.setRail_kept {a : State} : ∀ x0 x1 x2, Kept a x0 → Kept a (State.setRail x0 x1 x2) := by
  intro x0 x1 x2 h0
  unfold State.setRail
  repeat' first
    | with_reducible assumption
    | with_reducible intro _
    | split
    | lift_lets -underBinder
    | (with_reducible refine Kept.mk' ?_ rfl rfl rfl rfl rfl rfl rfl rfl)

theorem State.armBoot_kept {a : State} : ∀ x0, Kept a x0 → Kept a (State.armBoot x0) := by
  intro x0 h0
  unfold State.armBoot
  repeat' first
    | with_reducible assumption
    | with_reducible intro _
    | lift_lets -underBinder
    | (with_reducible refine Kept.mk' ?_ rfl rfl rfl rfl rfl rfl rfl rfl)

theorem execSupplyLoss_kept {a : State} : ∀ x0 x1, Kept a x1 → KeptOut a (execSupplyLoss x0 x1) := by
  intro x0 x1 h0
  unfold execSupplyLoss
  repeat' first
    | with_reducible assumption
    | with_reducible apply State.setRail_kept
    | with_reducible apply State.restart_kept
    | with_reducible apply KeptOut.next
    | with_reducible apply Kept.ite

theorem execSupplyValid_kept {a : State} : ∀ x0 x1, Kept a x1 → KeptOut a (execSupplyValid x0 x1) := by
  intro x0 x1 h0
  unfold execSupplyValid
  repeat' first
    | with_reducible assumption
    | with_reducible apply State.armBoot_kept
    | with_reducible apply State.setRail_kept
    | with_reducible apply KeptOut.next
    | with_reducible apply Kept.ite

theorem execResetNLow_kept {a : State} : ∀ x0 x1, Kept a x1 → KeptOut a (execResetNLow x0 x1) := by
  intro x0 x1 h0
  unfold execResetNLow
  repeat' first
    | with_reducible assumption
    | with_reducible intro _
    | with_reducible apply State.restart_kept
    | with_reducible apply KeptOut.next
    | with_reducible apply KeptOut.ite
    | split
    | lift_lets -underBinder
    | (with_reducible refine Kept.mk' ?_ rfl rfl rfl rfl rfl rfl rfl rfl)

theorem execResetNRise_kept {a : State} : ∀ x0, Kept a x0 → KeptOut a (execResetNRise x0) := by
  intro x0 h0
  unfold execResetNRise
  repeat' first
    | with_reducible assumption
    | with_reducible intro _
    | with_reducible apply State.armBoot_kept
    | with_reducible apply KeptOut.next
    | with_reducible apply Kept.ite
    | lift_lets -underBinder
    | (with_reducible refine Kept.mk' ?_ rfl rfl rfl rfl rfl rfl rfl rfl)

theorem execWatchdog_kept {a : State} : ∀ x0, Kept a x0 → KeptOut a (execWatchdog x0) := by
  intro x0 h0
  unfold execWatchdog
  repeat' first
    | with_reducible assumption
    | with_reducible apply State.restart_kept
    | with_reducible apply KeptOut.next
    | with_reducible apply Kept.ite

theorem State.enterStage_kept {a : State} : ∀ x0 x1, Kept a x0 → Kept a (State.enterStage x0 x1) := by
  intro x0 x1 h0
  unfold State.enterStage
  repeat' first | with_reducible assumption | with_reducible apply State.setObj_kept

theorem State.finishStage_kept {a : State} : ∀ x0 x1, Kept a x0 → Kept a (State.finishStage x0 x1) := by
  intro x0 x1 h0
  unfold State.finishStage
  repeat' first
    | with_reducible assumption
    | with_reducible intro _
    | lift_lets -underBinder
    | (with_reducible refine Kept.mk' ?_ rfl rfl rfl rfl rfl rfl rfl rfl)

theorem State.toInit_kept {a : State} : ∀ x0 x1, Kept a x0 → Kept a (State.toInit x0 x1) := by
  intro x0 x1 h0
  unfold State.toInit
  repeat' first
    | with_reducible assumption
    | with_reducible apply State.setFnState_kept
    | with_reducible apply Kept.ite

theorem State.repairStore_kept {a : State} : ∀ x0, Kept a x0 → Kept a (State.repairStore x0) := by
  intro s h
  exact ⟨h.queue, h.fresh, h.dict, h.memory, h.identity, h.keys, h.counters, h.flashForm, h.fitted, h.said⟩

theorem State.countBoot_kept {a : State} : ∀ x0, Kept a x0 → Kept a (State.countBoot x0) := by
  intro s h
  exact ⟨h.queue, h.fresh, h.dict, h.memory, h.identity, h.keys, h.counters, h.flashForm, h.fitted, h.said⟩

theorem State.checkStore_kept {a : State} : ∀ x0, Kept a x0 → Kept a (State.checkStore x0) := by
  intro x0 h0
  unfold State.checkStore
  repeat' first
    | with_reducible assumption
    | with_reducible apply State.advise_kept
    | with_reducible apply State.repairStore_kept
    | with_reducible apply State.raise_kept
    | with_reducible apply Kept.ite

theorem execBootStage1_kept {a : State} : ∀ x0, Kept a x0 → KeptOut a (execBootStage1 x0) := by
  intro x0 h0
  unfold execBootStage1
  repeat' first
    | with_reducible assumption
    | (intro y; refine Kept.cut (a := a) y ?_ ?_; unfold y)
    | with_reducible intro _
    | with_reducible apply State.checkStore_kept
    | with_reducible apply State.enterStage_kept
    | with_reducible apply State.advanceTo_kept
    | with_reducible apply State.countBoot_kept
    | with_reducible apply State.extend_kept
    | with_reducible apply State.selectImage_kept
    | with_reducible apply State.finishStage_kept
    | with_reducible apply State.setObj_kept
    | with_reducible apply State.noteImage_kept
    | with_reducible apply KeptOut.next
    | with_reducible apply KeptOut.ite
    | with_reducible refine Kept.of_fst ?_ (by assumption)
    | split
    | lift_lets -underBinder

theorem State.factoryNet_kept {a : State} : ∀ x0, Kept a x0 → Kept a (State.factoryNet x0) := by
  intro x0 h0
  unfold State.factoryNet
  repeat' first | with_reducible assumption | with_reducible apply State.setObj_kept

theorem State.applyConfig_kept {a : State} : ∀ x0, Kept a x0 → Kept a (State.applyConfig x0).1 := by
  intro x0 h0
  unfold State.applyConfig
  repeat' first
    | with_reducible assumption
    | with_reducible apply State.selectImage_kept
    | with_reducible apply State.imageFailed_kept
    | with_reducible apply State.dictWrite_kept
    | with_reducible refine Kept.of_fst ?_ (by assumption)
    | split

theorem State.drawAttKey_kept {a : State} : ∀ x0, Kept a x0 → Kept a (State.drawAttKey x0) := by
  intro s h
  exact ⟨h.queue, le_trans h.fresh (Nat.le_succ _), h.dict, h.memory, h.identity, h.keys, h.counters, h.flashForm, h.fitted, h.said⟩

theorem State.certify_kept {a : State} : ∀ x0, Kept a x0 → Kept a (State.certify x0) := by
  intro x0 h0
  unfold State.certify
  repeat' first
    | with_reducible assumption
    | (intro y; refine Kept.cut (a := a) y ?_ ?_; unfold y)
    | with_reducible intro _
    | with_reducible apply State.drawAttKey_kept
    | with_reducible apply State.fresh_kept
    | with_reducible refine Kept.of_snd ?_ (by assumption)
    | split
    | lift_lets -underBinder
    | (with_reducible refine Kept.mk' ?_ rfl rfl rfl rfl rfl rfl rfl rfl)

theorem execBootStage2_kept {a : State} : ∀ x0, Kept a x0 → KeptOut a (execBootStage2 x0) := by
  intro x0 h0
  unfold execBootStage2
  repeat' first
    | with_reducible assumption
    | with_reducible apply State.toInit_kept
    | with_reducible apply State.enterStage_kept
    | with_reducible apply State.applyConfig_kept
    | with_reducible apply State.factoryNet_kept
    | with_reducible apply State.extend_kept
    | with_reducible apply State.setObj_kept
    | with_reducible apply State.noteImage_kept
    | with_reducible apply State.finishStage_kept
    | with_reducible apply State.certify_kept
    | with_reducible apply KeptOut.next
    | with_reducible apply KeptOut.ite
    | with_reducible refine Kept.of_fst ?_ (by assumption)
    | split

theorem State.loadImage_kept {a : State} : ∀ x0 x1 x2, Kept a x0 → Kept a (State.loadImage x0 x1 x2).1 := by
  intro x0 x1 x2 h0
  unfold State.loadImage
  repeat' first
    | with_reducible assumption
    | with_reducible apply State.selectImage_kept
    | with_reducible apply State.extend_kept
    | with_reducible apply State.noteImage_kept
    | with_reducible refine Kept.of_fst ?_ (by assumption)
    | split

theorem execBootStage3_kept {a : State} : ∀ x0, Kept a x0 → KeptOut a (execBootStage3 x0) := by
  intro x0 h0
  unfold execBootStage3
  repeat' first
    | with_reducible assumption
    | with_reducible apply State.finishStage_kept
    | with_reducible apply State.loadImage_kept
    | with_reducible apply State.toInit_kept
    | with_reducible apply State.enterStage_kept
    | with_reducible apply KeptOut.next
    | with_reducible apply KeptOut.ite

theorem execBootStage4_kept {a : State} : ∀ x0, Kept a x0 → KeptOut a (execBootStage4 x0) := by
  intro x0 h0
  unfold execBootStage4
  repeat' first
    | with_reducible assumption
    | with_reducible intro _
    | with_reducible apply State.finishStage_kept
    | with_reducible apply State.toInit_kept
    | with_reducible apply State.enterStage_kept
    | with_reducible apply KeptOut.next
    | with_reducible apply KeptOut.ite
    | with_reducible apply Kept.foldl

theorem execBootStage5_kept {a : State} : ∀ x0, Kept a x0 → KeptOut a (execBootStage5 x0) := by
  intro x0 h0
  unfold execBootStage5
  repeat' first
    | with_reducible assumption
    | with_reducible apply State.loadImage_kept
    | with_reducible apply State.enterStage_kept
    | with_reducible apply State.finishStage_kept
    | with_reducible apply State.setObj_kept
    | with_reducible apply KeptOut.next
    | with_reducible apply KeptOut.ite
    | with_reducible refine Kept.of_fst ?_ (by assumption)
    | split

theorem execBootStage6_kept {a : State} : ∀ x0, Kept a x0 → KeptOut a (execBootStage6 x0) := by
  intro x0 h0
  unfold execBootStage6
  repeat' first
    | with_reducible assumption
    | with_reducible intro _
    | with_reducible apply State.finishStage_kept
    | with_reducible apply State.toInit_kept
    | with_reducible apply State.enterStage_kept
    | with_reducible apply KeptOut.next
    | with_reducible apply KeptOut.ite
    | with_reducible apply Kept.foldl

end Sys2Proof.Machine
end

