-- ==== Sys2Proof/Laws/KeptDictRead.lean ====
section
/-! SUPPORT. What the operations of DictRead keep (Laws/Kept.lean). -/

namespace Sys2Proof.Machine

theorem State.readValue_kept {a : State} : ∀ x0 x1 x2 x3, Kept a x0 → Kept a (State.readValue x0 x1 x2 x3).1 := by
  intro x0 x1 x2 x3 h0
  unfold State.readValue
  repeat' first
    | with_reducible assumption
    | (intro y; refine Kept.cut (a := a) y ?_ ?_; unfold y)
    | with_reducible intro _
    | with_reducible apply State.fresh_kept
    | with_reducible apply State.steBusy_kept
    | split
    | lift_lets -underBinder

theorem State.dictRead_kept {a : State} : ∀ x0 x1 x2 x3, Kept a x0 → Kept a (State.dictRead x0 x1 x2 x3).1 := by
  intro x0 x1 x2 x3 h0
  unfold State.dictRead
  repeat' first
    | with_reducible assumption
    | with_reducible apply State.fresh_kept
    | with_reducible apply State.readValue_kept
    | with_reducible apply State.setObj_kept
    | with_reducible apply Kept.ite
    | split

end Sys2Proof.Machine
end

