-- ==== Sys2Proof/Laws/KeptDap.lean ====
section
/-! SUPPORT. What the operations of Dap keep (Laws/Kept.lean). -/

namespace Sys2Proof.Machine

theorem State.dropSession_kept {a : State} : ∀ x0 x1, Kept a x0 → Kept a (State.dropSession x0 x1) := by
  intro x0 x1 h0
  unfold State.dropSession
  repeat' first
    | with_reducible assumption
    | with_reducible intro _
    | lift_lets -underBinder
    | (with_reducible refine Kept.mk' ?_ rfl rfl rfl rfl rfl rfl rfl rfl)

theorem State.setSession_kept {a : State} : ∀ x0 x1, Kept a x0 → Kept a (State.setSession x0 x1) := by
  intro x0 x1 h0
  unfold State.setSession
  repeat' first
    | with_reducible assumption
    | with_reducible intro _
    | lift_lets -underBinder
    | (with_reducible refine Kept.mk' ?_ rfl rfl rfl rfl rfl rfl rfl rfl)

theorem State.refuseOpen_kept {a : State} : ∀ x0 x1 x2 x3 x4, Kept a x0 → Kept a (State.refuseOpen x0 x1 x2 x3 x4) := by
  intro x0 x1 x2 x3 x4 h0
  unfold State.refuseOpen
  repeat' first
    | with_reducible assumption
    | with_reducible apply State.emit_kept
    | with_reducible apply State.bump_kept

theorem State.dapOpen_kept {a : State} : ∀ x0 x1 x2, Kept a x0 → Kept a (State.dapOpen x0 x1 x2) := by
  intro x0 x1 x2 h0
  unfold State.dapOpen
  repeat' first
    | with_reducible assumption
    | with_reducible intro _
    | with_reducible apply State.fresh_kept
    | with_reducible apply State.refuseOpen_kept
    | with_reducible apply State.emit_kept
    | with_reducible apply State.bump_kept
    | with_reducible apply Kept.ite
    | split
    | lift_lets -underBinder
    | (with_reducible refine Kept.mk' ?_ rfl rfl rfl rfl rfl rfl rfl rfl)

theorem State.dapAnswer_kept {a : State} : ∀ x0 x1 x2 x3 x4 x5 x6, Kept a x0 → Kept a (State.dapAnswer x0 x1 x2 x3 x4 x5 x6) := by
  intro x0 x1 x2 x3 x4 x5 x6 h0
  unfold State.dapAnswer
  repeat' first
    | with_reducible assumption
    | with_reducible apply State.bump_kept
    | with_reducible apply State.setSession_kept
    | with_reducible apply State.emit_kept
    | with_reducible apply Kept.ite

theorem State.dapRequest_kept {a : State} : ∀ x0 x1 x2 x3, Kept a x0 → (∀ y0 y1, Kept a y0 → Kept a (x3 y0 y1)) → Kept a (State.dapRequest x0 x1 x2 x3) := by
  intro x0 x1 x2 x3 h0 h1
  unfold State.dapRequest
  repeat' first
    | with_reducible assumption
    | with_reducible apply h1
    | with_reducible apply State.bump_kept
    | with_reducible apply State.emit_kept
    | with_reducible apply State.setSession_kept
    | with_reducible apply Kept.ite
    | split

theorem State.dapConfirm_kept {a : State} : ∀ x0 x1 x2, Kept a x0 → Kept a (State.dapConfirm x0 x1 x2) := by
  intro x0 x1 x2 h0
  unfold State.dapConfirm
  repeat' first
    | with_reducible assumption
    | with_reducible intro _
    | with_reducible apply State.bump_kept
    | with_reducible apply State.dapRequest_kept
    | with_reducible apply State.dropSession_kept
    | with_reducible apply State.dapAnswer_kept
    | with_reducible apply Kept.ite
    | split

theorem State.readEntries_kept {a : State} : ∀ x0 x1 x2 x3 x4, Kept a x4 → Kept a (State.readEntries x0 x1 x2 x3 x4).1 := by
  intro k es u f s h
  induction es generalizing u f s with
  | nil => exact h
  | cons e es ih =>
    unfold State.readEntries
    repeat' first
      | with_reducible assumption
      | with_reducible apply State.fresh_kept
      | with_reducible apply State.dictRead_kept
      | with_reducible apply ih
      | split

theorem State.dapReadBody_kept {a : State} : ∀ x0 x1, Kept a x0 → Kept a (State.dapReadBody x0 x1).1 := by
  intro x0 x1 h0
  unfold State.dapReadBody
  repeat' first
    | with_reducible assumption
    | with_reducible intro _
    | with_reducible apply State.readEntries_kept
    | split
    | lift_lets -underBinder

theorem State.dapWriteBody_kept {a : State} : ∀ x0 x1 x2, Kept a x0 → Kept a (State.dapWriteBody x0 x1 x2).1 := by
  intro x0 x1 x2 h0
  unfold State.dapWriteBody
  repeat' first
    | with_reducible assumption
    | with_reducible intro _
    | with_reducible apply State.fresh_kept
    | with_reducible apply State.dictWrite_kept
    | with_reducible refine Kept.of_fst ?_ (by assumption)
    | with_reducible refine Kept.of_snd ?_ (by assumption)
    | split
    | lift_lets -underBinder

theorem State.dap_kept {a : State} : ∀ x0 x1 x2 x3, Kept a x0 → (∀ y0 y1, Kept a y0 → Kept a (x3 y0 y1)) → Kept a (State.dap x0 x1 x2 x3) := by
  intro x0 x1 x2 x3 h0 h1
  unfold State.dap
  repeat' first
    | with_reducible assumption
    | with_reducible apply h1
    | with_reducible apply State.bump_kept
    | with_reducible apply Kept.ite
    | split

theorem execDapOpenA_kept {a : State} : ∀ x0 x1 x2, Kept a x2 → KeptOut a (execDapOpenA x0 x1 x2) := by
  intro x0 x1 x2 h0
  unfold execDapOpenA
  repeat' first
    | with_reducible assumption
    | with_reducible intro _
    | with_reducible apply State.dap_kept
    | with_reducible apply State.dapOpen_kept
    | with_reducible apply KeptOut.next

theorem execDapOpenC_kept {a : State} : ∀ x0 x1 x2, Kept a x2 → KeptOut a (execDapOpenC x0 x1 x2) := by
  intro x0 x1 x2 h0
  unfold execDapOpenC
  repeat' first
    | with_reducible assumption
    | with_reducible intro _
    | with_reducible apply State.dap_kept
    | with_reducible apply State.dapConfirm_kept
    | with_reducible apply KeptOut.next

theorem execDapRead_kept {a : State} : ∀ x0 x1 x2, Kept a x2 → KeptOut a (execDapRead x0 x1 x2) := by
  intro x0 x1 x2 h0
  unfold execDapRead
  repeat' first
    | with_reducible assumption
    | with_reducible intro _
    | with_reducible apply State.dap_kept
    | with_reducible apply State.dapRequest_kept
    | with_reducible apply State.dapReadBody_kept
    | with_reducible apply State.dapAnswer_kept
    | with_reducible apply KeptOut.next

theorem execDapWrite_kept {a : State} : ∀ x0 x1 x2, Kept a x2 → KeptOut a (execDapWrite x0 x1 x2) := by
  intro x0 x1 x2 h0
  unfold execDapWrite
  repeat' first
    | with_reducible assumption
    | with_reducible intro _
    | with_reducible apply State.dap_kept
    | with_reducible apply State.dapRequest_kept
    | with_reducible apply State.dapWriteBody_kept
    | with_reducible apply State.dapAnswer_kept
    | with_reducible apply KeptOut.next

theorem execDapClose_kept {a : State} : ∀ x0 x1 x2, Kept a x2 → KeptOut a (execDapClose x0 x1 x2) := by
  intro x0 x1 x2 h0
  unfold execDapClose
  repeat' first
    | with_reducible assumption
    | with_reducible intro _
    | with_reducible apply State.dap_kept
    | with_reducible apply State.dapRequest_kept
    | with_reducible apply State.dropSession_kept
    | with_reducible apply State.dapAnswer_kept
    | with_reducible apply KeptOut.next

theorem execDapHalfOpenExpiry_kept {a : State} : ∀ x0 x1, Kept a x1 → KeptOut a (execDapHalfOpenExpiry x0 x1) := by
  intro x0 x1 h0
  unfold execDapHalfOpenExpiry
  repeat' first
    | with_reducible assumption
    | with_reducible apply State.bump_kept
    | with_reducible apply State.dropSession_kept
    | with_reducible apply State.advanceTo_kept
    | with_reducible apply KeptOut.next
    | with_reducible apply Kept.ite
    | split

theorem execSessionIdle_kept {a : State} : ∀ x0 x1, Kept a x1 → KeptOut a (execSessionIdle x0 x1) := by
  intro x0 x1 h0
  unfold execSessionIdle
  repeat' first
    | with_reducible assumption
    | with_reducible apply State.dropSession_kept
    | with_reducible apply State.advanceTo_kept
    | with_reducible apply KeptOut.next
    | with_reducible apply Kept.ite
    | split

end Sys2Proof.Machine
end

