-- ==== Sys2Proof/Laws/KeptMxe.lean ====
section
/-! SUPPORT. What the operations of Mxe keep (Laws/Kept.lean). -/

namespace Sys2Proof.Machine

theorem State.storeProduct_kept {a : State} : ∀ x0 x1 x2 x3 x4 x5 x6 x7, Kept a x0 → Kept a (State.storeProduct x0 x1 x2 x3 x4 x5 x6 x7) := by
  intro x0 x1 x2 x3 x4 x5 x6 x7 h0
  unfold State.storeProduct
  repeat' first
    | with_reducible assumption
    | with_reducible apply State.storeWords_kept
    | with_reducible apply State.storeValues_kept
    | with_reducible apply State.countConv_kept
    | with_reducible apply State.countCore_kept
    | with_reducible apply Kept.ite

theorem State.overlapped_kept {a : State} : ∀ x0 x1 x2 x3, Kept a x0 → Kept a (State.overlapped x0 x1 x2 x3).1 := by
  intro x0 x1 x2 x3 h0
  unfold State.overlapped
  repeat' first
    | with_reducible assumption
    | with_reducible apply State.fresh_kept
    | with_reducible apply State.freeRegions_kept
    | split

theorem State.watchElem_kept {a : State} : ∀ x0 x1 x2 x3 x4 x5 x6, Kept a x0 → Kept a (State.watchElem x0 x1 x2 x3 x4 x5 x6) := by
  intro x0 x1 x2 x3 x4 x5 x6 h0
  unfold State.watchElem
  repeat' first
    | with_reducible assumption
    | with_reducible apply State.countCore_kept
    | with_reducible apply State.setObj_kept
    | with_reducible apply Kept.ite

theorem State.watchOp_kept {a : State} : ∀ x0 x1 x2 x3 x4 x5 x6 x7 x8 x9 x10, Kept a x0 → Kept a (State.watchOp x0 x1 x2 x3 x4 x5 x6 x7 x8 x9 x10) := by
  intro x0 x1 x2 x3 x4 x5 x6 x7 x8 x9 x10 h0
  unfold State.watchOp
  repeat' first
    | with_reducible assumption
    | with_reducible intro _
    | with_reducible apply State.countCore_kept
    | with_reducible apply State.watchElem_kept
    | with_reducible apply Kept.ite
    | with_reducible apply Kept.foldl
    | split

theorem State.runProduct_kept {a : State} : ∀ x0 x1 x2 x3 x4 x5 x6 x7 x8 x9 x10, Kept a x0 → Kept a (State.runProduct x0 x1 x2 x3 x4 x5 x6 x7 x8 x9 x10).1 := by
  intro x0 x1 x2 x3 x4 x5 x6 x7 x8 x9 x10 h0
  unfold State.runProduct
  repeat' first
    | with_reducible assumption
    | with_reducible apply State.countSum_kept
    | with_reducible apply State.residueFails_kept
    | with_reducible apply State.storeProduct_kept
    | with_reducible apply State.overlapped_kept
    | with_reducible apply State.watchOp_kept
    | split

theorem State.runMm_kept {a : State} : ∀ x0 x1 x2 x3 x4 x5 x6 x7 x8, Kept a x0 → Kept a (State.runMm x0 x1 x2 x3 x4 x5 x6 x7 x8).1 := by
  intro x0 x1 x2 x3 x4 x5 x6 x7 x8 h0
  unfold State.runMm
  repeat' first | with_reducible assumption | with_reducible apply State.runProduct_kept

theorem State.runMmg_kept {a : State} : ∀ x0 x1 x2 x3 x4 x5 x6 x7 x8 x9 x10, Kept a x0 → Kept a (State.runMmg x0 x1 x2 x3 x4 x5 x6 x7 x8 x9 x10).1 := by
  intro x0 x1 x2 x3 x4 x5 x6 x7 x8 x9 x10 h0
  unfold State.runMmg
  repeat' first
    | with_reducible assumption
    | with_reducible apply State.runProduct_kept
    | with_reducible apply State.countCore_kept

theorem State.convertExact_kept {a : State} : ∀ x0 x1 x2 x3 x4 x5 x6, Kept a x0 → Kept a (State.convertExact x0 x1 x2 x3 x4 x5 x6).1 := by
  intro x0 x1 x2 x3 x4 x5 x6 h0
  unfold State.convertExact
  repeat' first
    | with_reducible assumption
    | with_reducible apply State.countCore_kept
    | with_reducible apply State.storeWords_kept
    | with_reducible apply State.storeValues_kept
    | with_reducible apply State.countConv_kept
    | with_reducible apply Kept.ite
    | split

theorem State.runDrain_kept {a : State} : ∀ x0 x1 x2 x3 x4, Kept a x0 → Kept a (State.runDrain x0 x1 x2 x3 x4).1 := by
  intro x0 x1 x2 x3 x4 h0
  unfold State.runDrain
  repeat' first
    | with_reducible assumption
    | with_reducible apply State.convertExact_kept
    | with_reducible apply State.residueFails_kept
    | with_reducible apply State.overlapped_kept
    | split

end Sys2Proof.Machine
end

