-- ==== Sys2Proof/Laws/KeptSpe.lean ====
section
/-! SUPPORT. What the operations of Spe keep (Laws/Kept.lean). -/

namespace Sys2Proof.Machine

theorem State.recordMeta_kept {a : State} : ∀ x0 x1 x2, Kept a x0 → Kept a (State.recordMeta x0 x1 x2) := by
  intro x0 x1 x2 h0
  unfold State.recordMeta
  repeat' first
    | with_reducible assumption
    | with_reducible apply State.bump_kept
    | with_reducible apply State.setObj_kept
    | with_reducible apply Kept.ite

theorem State.countTiles_kept {a : State} : ∀ x0 x1 x2 x3 x4 x5 x6 x7, Kept a x0 → Kept a (State.countTiles x0 x1 x2 x3 x4 x5 x6 x7) := by
  intro x0 x1 x2 x3 x4 x5 x6 x7 h0
  unfold State.countTiles
  repeat' first | with_reducible assumption | with_reducible apply State.countCores_kept

theorem State.runSpeMm_kept {a : State} : ∀ x0 x1 x2 x3 x4 x5 x6 x7 x8 x9, Kept a x0 → Kept a (State.runSpeMm x0 x1 x2 x3 x4 x5 x6 x7 x8 x9).1 := by
  intro x0 x1 x2 x3 x4 x5 x6 x7 x8 x9 h0
  unfold State.runSpeMm
  repeat' first
    | with_reducible assumption
    | with_reducible apply State.countTiles_kept
    | with_reducible apply State.countSum_kept
    | with_reducible apply State.residueFails_kept
    | with_reducible apply State.overlapped_kept
    | with_reducible apply State.storeProduct_kept
    | split

theorem State.runPack_kept {a : State} : ∀ x0 x1 x2 x3 x4, Kept a x0 → Kept a (State.runPack x0 x1 x2 x3 x4).1 := by
  intro x0 x1 x2 x3 x4 h0
  unfold State.runPack
  repeat' first
    | with_reducible assumption
    | with_reducible intro _
    | with_reducible apply State.writeBytes_kept
    | with_reducible apply State.storeValues_kept
    | with_reducible apply State.countCores_kept
    | with_reducible apply State.countConv_kept
    | with_reducible apply State.overlapped_kept
    | with_reducible apply Kept.foldl
    | split

end Sys2Proof.Machine
end

