-- ==== Sys2Proof/Laws/KeptVxe.lean ====
section
/-! SUPPORT. What the operations of Vxe keep (Laws/Kept.lean). -/

namespace Sys2Proof.Machine

theorem State.vxeStore_kept {a : State} : ∀ x0 x1 x2 x3, Kept a x0 → Kept a (State.vxeStore x0 x1 x2 x3) := by
  intro x0 x1 x2 x3 h0
  unfold State.vxeStore
  repeat' first
    | with_reducible assumption
    | with_reducible apply State.storeValues_kept
    | with_reducible apply State.countConv_kept

theorem State.elementwiseOverlap_kept {a : State} : ∀ x0 x1 x2 x3, Kept a x0 → Kept a (State.elementwiseOverlap x0 x1 x2 x3).1 := by
  intro x0 x1 x2 x3 h0
  unfold State.elementwiseOverlap
  repeat' first | with_reducible assumption | with_reducible apply State.overlapped_kept

theorem State.elementwise_kept {a : State} : ∀ x0 x1 x2 x3 x4, Kept a x0 → Kept a (State.elementwise x0 x1 x2 x3 x4).1 := by
  intro x0 x1 x2 x3 x4 h0
  unfold State.elementwise
  repeat' first
    | with_reducible assumption
    | with_reducible apply State.countCore_kept
    | with_reducible apply State.elementwiseOverlap_kept
    | with_reducible apply State.vxeStore_kept
    | split

theorem State.rawCopy_kept {a : State} : ∀ x0 x1 x2, Kept a x0 → Kept a (State.rawCopy x0 x1 x2).1 := by
  intro x0 x1 x2 h0
  unfold State.rawCopy
  repeat' first
    | with_reducible assumption
    | with_reducible apply State.elementwiseOverlap_kept
    | with_reducible apply State.storeCodes_kept

theorem State.runMap_kept {a : State} : ∀ x0 x1 x2 x3 x4, Kept a x0 → Kept a (State.runMap x0 x1 x2 x3 x4).1 := by
  intro x0 x1 x2 x3 x4 h0
  unfold State.runMap
  repeat' first
    | with_reducible assumption
    | with_reducible apply State.rawCopy_kept
    | with_reducible apply State.elementwise_kept
    | split

theorem State.runExactAdd_kept {a : State} : ∀ x0 x1 x2 x3 x4, Kept a x0 → Kept a (State.runExactAdd x0 x1 x2 x3 x4).1 := by
  intro x0 x1 x2 x3 x4 h0
  unfold State.runExactAdd
  repeat' first
    | with_reducible assumption
    | with_reducible apply State.residueFails_kept
    | with_reducible apply State.countSum_kept
    | with_reducible apply State.elementwiseOverlap_kept
    | with_reducible apply State.countCore_kept
    | with_reducible apply State.storeWords_kept
    | split

theorem State.runZip_kept {a : State} : ∀ x0 x1 x2 x3 x4 x5, Kept a x0 → Kept a (State.runZip x0 x1 x2 x3 x4 x5).1 := by
  intro x0 x1 x2 x3 x4 x5 h0
  unfold State.runZip
  repeat' first
    | with_reducible assumption
    | with_reducible apply State.runExactAdd_kept
    | with_reducible apply State.elementwise_kept
    | split

theorem State.runFma_kept {a : State} : ∀ x0 x1 x2 x3 x4 x5, Kept a x0 → Kept a (State.runFma x0 x1 x2 x3 x4 x5).1 := by
  intro x0 x1 x2 x3 x4 x5 h0
  unfold State.runFma
  repeat' first | with_reducible assumption | with_reducible apply State.elementwise_kept

theorem State.runConv_kept {a : State} : ∀ x0 x1 x2 x3 x4, Kept a x0 → Kept a (State.runConv x0 x1 x2 x3 x4).1 := by
  intro x0 x1 x2 x3 x4 h0
  unfold State.runConv
  repeat' first
    | with_reducible assumption
    | with_reducible apply State.convertExact_kept
    | with_reducible apply State.residueFails_kept
    | with_reducible apply State.elementwiseOverlap_kept
    | with_reducible apply State.rawCopy_kept
    | with_reducible apply State.elementwise_kept
    | split

theorem State.runRed_kept {a : State} : ∀ x0 x1 x2 x3 x4 x5 x6 x7, Kept a x0 → Kept a (State.runRed x0 x1 x2 x3 x4 x5 x6 x7).1 := by
  intro x0 x1 x2 x3 x4 x5 x6 x7 h0
  unfold State.runRed
  repeat' first
    | with_reducible assumption
    | with_reducible apply State.countCore_kept
    | with_reducible apply State.countSum_kept
    | with_reducible apply State.residueFails_kept
    | with_reducible apply State.storeWords_kept
    | with_reducible apply State.storeValues_kept
    | with_reducible apply State.countConv_kept
    | with_reducible apply State.overlapped_kept
    | with_reducible apply State.vxeStore_kept
    | with_reducible apply Kept.ite
    | split

theorem State.runRand_kept {a : State} : ∀ x0 x1 x2 x3 x4, Kept a x0 → Kept a (State.runRand x0 x1 x2 x3 x4).1 := by
  intro x0 x1 x2 x3 x4 h0
  unfold State.runRand
  repeat' first | with_reducible assumption | with_reducible apply State.storeCodes_kept | split

end Sys2Proof.Machine
end

