-- ==== Sys2Proof/Laws/KeptEngines.lean ====
section
/-! SUPPORT. What the operations of Engines keep (Laws/Kept.lean). -/

namespace Sys2Proof.Machine

theorem State.warmUp_kept {a : State} : ∀ x0 x1 x2, Kept a x0 → Kept a (State.warmUp x0 x1 x2) := by
  intro x0 x1 x2 h0
  unfold State.warmUp
  repeat' first | with_reducible assumption | with_reducible apply State.modCore_kept

theorem State.ramp_kept {a : State} : ∀ x0 x1 x2, Kept a x0 → Kept a (State.ramp x0 x1 x2) := by
  intro x0 x1 x2 h0
  unfold State.ramp
  repeat' first
    | with_reducible assumption
    | with_reducible apply State.bump_kept
    | with_reducible apply State.advanceTo_kept
    | with_reducible apply Kept.ite

theorem execRampCooling_kept {a : State} : ∀ x0 x1, Kept a x1 → KeptOut a (execRampCooling x0 x1) := by
  intro x0 x1 h0
  unfold execRampCooling
  repeat' first
    | with_reducible assumption
    | with_reducible apply State.advanceTo_kept
    | with_reducible apply State.modCore_kept
    | with_reducible apply KeptOut.next

theorem State.spePass_kept {a : State} : ∀ x0 x1 x2, Kept a x0 → Kept a (State.spePass x0 x1 x2).1 := by
  intro x0 x1 x2 h0
  unfold State.spePass
  repeat' first
    | with_reducible assumption
    | with_reducible apply State.recordMeta_kept
    | with_reducible apply State.bump_kept
    | split

theorem State.startEngine_kept {a : State} : ∀ x0 x1 x2 x3 x4, Kept a x0 → Kept a (State.startEngine x0 x1 x2 x3 x4) := by
  intro x0 x1 x2 x3 x4 h0
  unfold State.startEngine
  repeat' first
    | with_reducible assumption
    | with_reducible apply State.coreFault_kept
    | with_reducible apply State.spePass_kept
    | with_reducible apply State.setEntry_kept
    | with_reducible refine Kept.of_fst ?_ (by assumption)
    | split

theorem execEngineOpStart_kept {a : State} : ∀ x0 x1 x2 x3, Kept a x3 → KeptOut a (execEngineOpStart x0 x1 x2 x3) := by
  intro x0 x1 x2 x3 h0
  unfold execEngineOpStart
  repeat' first
    | with_reducible assumption
    | with_reducible intro _
    | with_reducible apply State.warmUp_kept
    | with_reducible apply State.plant_kept
    | with_reducible apply State.ramp_kept
    | with_reducible apply State.startTxe_kept
    | with_reducible apply State.startEngine_kept
    | with_reducible apply KeptOut.next
    | with_reducible apply KeptOut.ite
    | split
    | lift_lets -underBinder

theorem State.runBody_kept {a : State} : ∀ x0 x1 x2 x3, Kept a x0 → Kept a (State.runBody x0 x1 x2 x3).1 := by
  intro x0 x1 x2 x3 h0
  unfold State.runBody
  repeat' first
    | with_reducible assumption
    | with_reducible apply State.runMm_kept
    | with_reducible apply State.runMmg_kept
    | with_reducible apply State.runDrain_kept
    | with_reducible apply State.runMap_kept
    | with_reducible apply State.runZip_kept
    | with_reducible apply State.runFma_kept
    | with_reducible apply State.runRed_kept
    | with_reducible apply State.runConv_kept
    | with_reducible apply State.runRand_kept
    | with_reducible apply State.runSpeMm_kept
    | with_reducible apply State.runPack_kept
    | split

theorem State.runOp_kept {a : State} : ∀ x0 x1 x2 x3, Kept a x0 → Kept a (State.runOp x0 x1 x2 x3).1 := by
  intro x0 x1 x2 x3 h0
  unfold State.runOp
  repeat' first
    | with_reducible assumption
    | with_reducible apply State.runBody_kept
    | with_reducible apply State.fresh_kept
    | with_reducible apply State.freeRegions_kept
    | split

theorem State.countTiming_kept {a : State} : ∀ x0 x1 x2 x3, Kept a x0 → Kept a (State.countTiming x0 x1 x2 x3) := by
  intro x0 x1 x2 x3 h0
  unfold State.countTiming
  repeat' first | with_reducible assumption | with_reducible apply State.countCores_kept | split

theorem State.completeEngine_kept {a : State} : ∀ x0 x1 x2 x3 x4 x5, Kept a x0 → Kept a (State.completeEngine x0 x1 x2 x3 x4 x5) := by
  intro x0 x1 x2 x3 x4 x5 h0
  unfold State.completeEngine
  repeat' first
    | with_reducible assumption
    | with_reducible apply State.runOp_kept
    | with_reducible apply State.countTiming_kept
    | with_reducible apply State.countCore_kept
    | with_reducible apply State.dropEntry_kept
    | with_reducible apply State.completeFlag_kept
    | with_reducible apply Kept.ite

theorem execEngineOpComplete_kept {a : State} : ∀ x0 x1 x2 x3 x4, Kept a x4 → KeptOut a (execEngineOpComplete x0 x1 x2 x3 x4) := by
  intro x0 x1 x2 x3 x4 h0
  unfold execEngineOpComplete
  repeat' first
    | with_reducible assumption
    | with_reducible apply State.completeTxe_kept
    | with_reducible apply State.completeEngine_kept
    | with_reducible apply KeptOut.next
    | with_reducible apply KeptOut.ite
    | with_reducible apply Kept.ite
    | split

theorem execGateTimeout_kept {a : State} : ∀ x0 x1 x2, Kept a x2 → KeptOut a (execGateTimeout x0 x1 x2) := by
  intro x0 x1 x2 h0
  unfold execGateTimeout
  repeat' first
    | with_reducible assumption
    | with_reducible intro _
    | with_reducible apply State.advanceTo_kept
    | with_reducible apply State.coreFaultWith_kept
    | with_reducible apply KeptOut.next
    | with_reducible apply Kept.ite
    | split
    | lift_lets -underBinder

theorem execMmgWaitExpired_kept {a : State} : ∀ x0 x1, Kept a x1 → KeptOut a (execMmgWaitExpired x0 x1) := by
  intro x0 x1 h0
  unfold execMmgWaitExpired
  repeat' first
    | with_reducible assumption
    | with_reducible intro _
    | with_reducible apply State.advanceTo_kept
    | with_reducible apply State.coreFaultWith_kept
    | with_reducible apply State.dropEntry_kept
    | with_reducible apply KeptOut.next
    | with_reducible apply Kept.ite
    | split
    | lift_lets -underBinder

theorem execRemoteTimeout_kept {a : State} : ∀ x0 x1 x2, Kept a x2 → KeptOut a (execRemoteTimeout x0 x1 x2) := by
  intro x0 x1 x2 h0
  unfold execRemoteTimeout
  repeat' first
    | with_reducible assumption
    | with_reducible apply State.advanceTo_kept
    | with_reducible apply State.dropEntry_kept
    | with_reducible apply State.coreFault_kept
    | with_reducible apply KeptOut.next
    | with_reducible apply Kept.ite
    | split

theorem State.resendCore_kept {a : State} : ∀ x0 x1 x2, Kept a x0 → Kept a (State.resendCore x0 x1 x2) := by
  intro x0 x1 x2 h0
  unfold State.resendCore
  repeat' first
    | with_reducible assumption
    | with_reducible apply State.advanceTo_kept
    | with_reducible apply State.setEntry_kept
    | with_reducible apply State.serve_kept
    | with_reducible apply State.answered_kept
    | with_reducible apply State.inject_kept
    | with_reducible apply Kept.ite
    | split

end Sys2Proof.Machine
end

