-- ==== Sys2Proof/Laws/KeptI3c.lean ====
section
/-! SUPPORT. What the operations of I3c keep (Laws/Kept.lean). -/

namespace Sys2Proof.Machine

theorem State.setI3c_kept {a : State} : ∀ x0 x1 x2, Kept a x0 → Kept a (State.setI3c x0 x1 x2) := by
  intro x0 x1 x2 h0
  unfold State.setI3c
  repeat' first
    | with_reducible assumption
    | with_reducible intro _
    | lift_lets -underBinder
    | (with_reducible refine Kept.mk' ?_ rfl rfl rfl rfl rfl rfl rfl rfl)

theorem State.onI3c_kept {a : State} : ∀ x0 x1, Kept a x0 → (∀ y0, Kept a y0 → Kept a (x1 y0)) → Kept a (State.onI3c x0 x1) := by
  intro x0 x1 h0 h1
  unfold State.onI3c
  repeat' first | with_reducible assumption | with_reducible apply h1 | with_reducible apply Kept.ite

theorem execSetdasa_kept {a : State} : ∀ x0 x1 x2, Kept a x2 → KeptOut a (execSetdasa x0 x1 x2) := by
  intro x0 x1 x2 h0
  unfold execSetdasa
  repeat' first
    | with_reducible assumption
    | with_reducible intro _
    | with_reducible apply State.onI3c_kept
    | with_reducible apply State.setI3c_kept
    | with_reducible apply KeptOut.next
    | with_reducible apply Kept.ite

theorem execEntdaa_kept {a : State} : ∀ x0 x1, Kept a x1 → KeptOut a (execEntdaa x0 x1) := by
  intro x0 x1 h0
  unfold execEntdaa
  repeat' first
    | with_reducible assumption
    | with_reducible intro _
    | with_reducible apply State.onI3c_kept
    | with_reducible apply State.setI3c_kept
    | with_reducible apply KeptOut.next
    | with_reducible apply Kept.ite

theorem execRstdaa_kept {a : State} : ∀ x0, Kept a x0 → KeptOut a (execRstdaa x0) := by
  intro x0 h0
  unfold execRstdaa
  repeat' first
    | with_reducible assumption
    | with_reducible intro _
    | with_reducible apply State.onI3c_kept
    | with_reducible apply State.setI3c_kept
    | with_reducible apply KeptOut.next

theorem State.direct_kept {a : State} : ∀ x0 x1, Kept a x0 → Kept a (State.direct x0 x1) := by
  intro x0 x1 h0
  unfold State.direct
  repeat' first
    | with_reducible assumption
    | with_reducible intro _
    | with_reducible apply State.onI3c_kept
    | with_reducible apply State.emit_kept
    | with_reducible apply Kept.ite

theorem execGetpid_kept {a : State} : ∀ x0, Kept a x0 → KeptOut a (execGetpid x0) := by
  intro x0 h0
  unfold execGetpid
  repeat' first
    | with_reducible assumption
    | with_reducible apply State.direct_kept
    | with_reducible apply KeptOut.next

theorem execGetbcr_kept {a : State} : ∀ x0, Kept a x0 → KeptOut a (execGetbcr x0) := by
  intro x0 h0
  unfold execGetbcr
  repeat' first
    | with_reducible assumption
    | with_reducible apply State.direct_kept
    | with_reducible apply KeptOut.next

theorem execGetdcr_kept {a : State} : ∀ x0, Kept a x0 → KeptOut a (execGetdcr x0) := by
  intro x0 h0
  unfold execGetdcr
  repeat' first
    | with_reducible assumption
    | with_reducible apply State.direct_kept
    | with_reducible apply KeptOut.next

theorem execGetstatus_kept {a : State} : ∀ x0, Kept a x0 → KeptOut a (execGetstatus x0) := by
  intro x0 h0
  unfold execGetstatus
  repeat' first
    | with_reducible assumption
    | with_reducible apply State.fresh_kept
    | with_reducible apply State.direct_kept
    | with_reducible apply KeptOut.next

theorem State.viewRead_kept {a : State} : ∀ x0 x1, Kept a x0 → Kept a (State.viewRead x0 x1).1 := by
  intro x0 x1 h0
  unfold State.viewRead
  repeat' first
    | with_reducible assumption
    | with_reducible apply State.fresh_kept
    | with_reducible apply State.readValue_kept
    | split

theorem execI3cSelectorWrite_kept {a : State} : ∀ x0 x1, Kept a x1 → KeptOut a (execI3cSelectorWrite x0 x1) := by
  intro x0 x1 h0
  unfold execI3cSelectorWrite
  repeat' first
    | with_reducible assumption
    | with_reducible intro _
    | with_reducible apply State.onI3c_kept
    | with_reducible apply State.setI3c_kept
    | with_reducible apply KeptOut.next
    | with_reducible apply Kept.ite

theorem execI3cPrivateRead_kept {a : State} : ∀ x0, Kept a x0 → KeptOut a (execI3cPrivateRead x0) := by
  intro x0 h0
  unfold execI3cPrivateRead
  repeat' first
    | with_reducible assumption
    | with_reducible intro _
    | with_reducible apply State.onI3c_kept
    | with_reducible apply State.viewRead_kept
    | with_reducible apply State.bump_kept
    | with_reducible apply State.emit_kept
    | with_reducible apply KeptOut.next
    | with_reducible apply Kept.ite

theorem State.setMgmtLink_kept {a : State} : ∀ x0 x1 x2, Kept a x0 → Kept a (State.setMgmtLink x0 x1 x2) := by
  intro x0 x1 x2 h0
  unfold State.setMgmtLink
  repeat' first
    | with_reducible assumption
    | with_reducible intro _
    | with_reducible apply State.setObj_kept
    | lift_lets -underBinder
    | (with_reducible refine Kept.mk' ?_ rfl rfl rfl rfl rfl rfl rfl rfl)

theorem execMgmtLinkUp_kept {a : State} : ∀ x0 x1, Kept a x1 → KeptOut a (execMgmtLinkUp x0 x1) := by
  intro x0 x1 h0
  unfold execMgmtLinkUp
  repeat' first
    | with_reducible assumption
    | with_reducible apply State.setMgmtLink_kept
    | with_reducible apply KeptOut.next
    | with_reducible apply Kept.ite

theorem execMgmtLinkDown_kept {a : State} : ∀ x0, Kept a x0 → KeptOut a (execMgmtLinkDown x0) := by
  intro x0 h0
  unfold execMgmtLinkDown
  repeat' first
    | with_reducible assumption
    | with_reducible apply State.setMgmtLink_kept
    | with_reducible apply KeptOut.next
    | with_reducible apply Kept.ite

theorem execMgmtLinkFallback_kept {a : State} : ∀ x0, Kept a x0 → KeptOut a (execMgmtLinkFallback x0) := by
  intro x0 h0
  unfold execMgmtLinkFallback
  repeat' first
    | with_reducible assumption
    | with_reducible apply State.setMgmtLink_kept
    | with_reducible apply KeptOut.next
    | with_reducible apply Kept.ite

end Sys2Proof.Machine
end

