-- ==== Sys2Proof/Laws/KeptIssue.lean ====
section
/-! SUPPORT. What the operations of Issue keep (Laws/Kept.lean). -/

namespace Sys2Proof.Machine

theorem execMxeMm_kept {a : State} : ∀ x0 x1 x2 x3 x4 x5 x6, Kept a x6 → KeptOut a (execMxeMm x0 x1 x2 x3 x4 x5 x6) := by
  intro x0 x1 x2 x3 x4 x5 x6 h0
  unfold execMxeMm
  repeat' first
    | with_reducible assumption
    | with_reducible apply State.enqueue_kept
    | with_reducible apply KeptOut.next

theorem execMxeMmg_kept {a : State} : ∀ x0 x1 x2 x3 x4 x5 x6 x7 x8 x9, Kept a x9 → KeptOut a (execMxeMmg x0 x1 x2 x3 x4 x5 x6 x7 x8 x9) := by
  intro x0 x1 x2 x3 x4 x5 x6 x7 x8 x9 h0
  unfold execMxeMmg
  repeat' first
    | with_reducible assumption
    | with_reducible apply State.enqueue_kept
    | with_reducible apply KeptOut.next

theorem execMxeDrain_kept {a : State} : ∀ x0 x1 x2 x3 x4, Kept a x4 → KeptOut a (execMxeDrain x0 x1 x2 x3 x4) := by
  intro x0 x1 x2 x3 x4 h0
  unfold execMxeDrain
  repeat' first
    | with_reducible assumption
    | with_reducible apply State.enqueue_kept
    | with_reducible apply KeptOut.next

theorem execVxeMap_kept {a : State} : ∀ x0 x1 x2 x3 x4, Kept a x4 → KeptOut a (execVxeMap x0 x1 x2 x3 x4) := by
  intro x0 x1 x2 x3 x4 h0
  unfold execVxeMap
  repeat' first
    | with_reducible assumption
    | with_reducible apply State.enqueue_kept
    | with_reducible apply KeptOut.next

theorem execVxeZip_kept {a : State} : ∀ x0 x1 x2 x3 x4 x5, Kept a x5 → KeptOut a (execVxeZip x0 x1 x2 x3 x4 x5) := by
  intro x0 x1 x2 x3 x4 x5 h0
  unfold execVxeZip
  repeat' first
    | with_reducible assumption
    | with_reducible apply State.enqueue_kept
    | with_reducible apply KeptOut.next

theorem execVxeFma_kept {a : State} : ∀ x0 x1 x2 x3 x4 x5, Kept a x5 → KeptOut a (execVxeFma x0 x1 x2 x3 x4 x5) := by
  intro x0 x1 x2 x3 x4 x5 h0
  unfold execVxeFma
  repeat' first
    | with_reducible assumption
    | with_reducible apply State.enqueue_kept
    | with_reducible apply KeptOut.next

theorem execVxeRed_kept {a : State} : ∀ x0 x1 x2 x3 x4 x5 x6 x7, Kept a x7 → KeptOut a (execVxeRed x0 x1 x2 x3 x4 x5 x6 x7) := by
  intro x0 x1 x2 x3 x4 x5 x6 x7 h0
  unfold execVxeRed
  repeat' first
    | with_reducible assumption
    | with_reducible apply State.enqueue_kept
    | with_reducible apply KeptOut.next

theorem execVxeConv_kept {a : State} : ∀ x0 x1 x2 x3 x4, Kept a x4 → KeptOut a (execVxeConv x0 x1 x2 x3 x4) := by
  intro x0 x1 x2 x3 x4 h0
  unfold execVxeConv
  repeat' first
    | with_reducible assumption
    | with_reducible apply State.enqueue_kept
    | with_reducible apply KeptOut.next

theorem execVxeRand_kept {a : State} : ∀ x0 x1 x2 x3 x4, Kept a x4 → KeptOut a (execVxeRand x0 x1 x2 x3 x4) := by
  intro x0 x1 x2 x3 x4 h0
  unfold execVxeRand
  repeat' first
    | with_reducible assumption
    | with_reducible apply State.enqueue_kept
    | with_reducible apply KeptOut.next

theorem execSpeMm_kept {a : State} : ∀ x0 x1 x2 x3 x4 x5 x6 x7, Kept a x7 → KeptOut a (execSpeMm x0 x1 x2 x3 x4 x5 x6 x7) := by
  intro x0 x1 x2 x3 x4 x5 x6 x7 h0
  unfold execSpeMm
  repeat' first
    | with_reducible assumption
    | with_reducible apply State.enqueue_kept
    | with_reducible apply KeptOut.next

theorem execSpePack_kept {a : State} : ∀ x0 x1 x2 x3 x4, Kept a x4 → KeptOut a (execSpePack x0 x1 x2 x3 x4) := by
  intro x0 x1 x2 x3 x4 h0
  unfold execSpePack
  repeat' first
    | with_reducible assumption
    | with_reducible apply State.enqueue_kept
    | with_reducible apply KeptOut.next

theorem execTxePut_kept {a : State} : ∀ x0 x1 x2 x3 x4 x5 x6, Kept a x6 → KeptOut a (execTxePut x0 x1 x2 x3 x4 x5 x6) := by
  intro x0 x1 x2 x3 x4 x5 x6 h0
  unfold execTxePut
  repeat' first
    | with_reducible assumption
    | with_reducible apply State.enqueue_kept
    | with_reducible apply KeptOut.next

theorem execTxeGet_kept {a : State} : ∀ x0 x1 x2 x3 x4 x5, Kept a x5 → KeptOut a (execTxeGet x0 x1 x2 x3 x4 x5) := by
  intro x0 x1 x2 x3 x4 x5 h0
  unfold execTxeGet
  repeat' first
    | with_reducible assumption
    | with_reducible apply State.enqueue_kept
    | with_reducible apply KeptOut.next

theorem execTxeAcc_kept {a : State} : ∀ x0 x1 x2 x3 x4 x5, Kept a x5 → KeptOut a (execTxeAcc x0 x1 x2 x3 x4 x5) := by
  intro x0 x1 x2 x3 x4 x5 h0
  unfold execTxeAcc
  repeat' first
    | with_reducible assumption
    | with_reducible apply State.enqueue_kept
    | with_reducible apply KeptOut.next

theorem execTxeRing_kept {a : State} : ∀ x0 x1 x2 x3 x4 x5, Kept a x5 → KeptOut a (execTxeRing x0 x1 x2 x3 x4 x5) := by
  intro x0 x1 x2 x3 x4 x5 h0
  unfold execTxeRing
  repeat' first
    | with_reducible assumption
    | with_reducible apply State.enqueue_kept
    | with_reducible apply KeptOut.next

theorem execTxeMsg_kept {a : State} : ∀ x0 x1 x2 x3 x4 x5 x6, Kept a x6 → KeptOut a (execTxeMsg x0 x1 x2 x3 x4 x5 x6) := by
  intro x0 x1 x2 x3 x4 x5 x6 h0
  unfold execTxeMsg
  repeat' first
    | with_reducible assumption
    | with_reducible apply State.enqueue_kept
    | with_reducible apply KeptOut.next

theorem execTxeDigest_kept {a : State} : ∀ x0 x1 x2 x3, Kept a x3 → KeptOut a (execTxeDigest x0 x1 x2 x3) := by
  intro x0 x1 x2 x3 h0
  unfold execTxeDigest
  repeat' first
    | with_reducible assumption
    | with_reducible apply State.enqueue_kept
    | with_reducible apply KeptOut.next

theorem execTxeFill_kept {a : State} : ∀ x0 x1 x2 x3 x4, Kept a x4 → KeptOut a (execTxeFill x0 x1 x2 x3 x4) := by
  intro x0 x1 x2 x3 x4 h0
  unfold execTxeFill
  repeat' first
    | with_reducible assumption
    | with_reducible apply State.enqueue_kept
    | with_reducible apply KeptOut.next

end Sys2Proof.Machine
end

