-- ==== Sys2Proof/Laws/KeptMgmtPkt.lean ====
section
/-! SUPPORT. What the operations of MgmtPkt keep (Laws/Kept.lean). -/

namespace Sys2Proof.Machine

theorem State.mgmtAccess_kept {a : State} : ∀ x0 x1, Kept a x0 → Kept a (State.mgmtAccess x0 x1).1 := by
  intro x0 x1 h0
  unfold State.mgmtAccess
  repeat' first
    | with_reducible assumption
    | with_reducible intro _
    | with_reducible apply State.dictRead_kept
    | with_reducible apply State.dictWrite_kept
    | with_reducible refine Kept.of_fst ?_ (by assumption)
    | split
    | lift_lets -underBinder

theorem State.mgmtAnswer_kept {a : State} : ∀ x0 x1 x2 x3 x4, Kept a x0 → Kept a (State.mgmtAnswer x0 x1 x2 x3 x4) := by
  intro x0 x1 x2 x3 x4 h0
  unfold State.mgmtAnswer
  repeat' first
    | with_reducible assumption
    | with_reducible apply State.bump_kept
    | with_reducible apply State.reply_kept
    | with_reducible apply Kept.ite

theorem State.takeMgmt_kept {a : State} : ∀ x0 x1 x2, Kept a x0 → Kept a (State.takeMgmt x0 x1 x2) := by
  intro x0 x1 x2 h0
  unfold State.takeMgmt
  repeat' first
    | with_reducible assumption
    | with_reducible intro _
    | with_reducible apply State.checkRequest_kept
    | with_reducible apply State.taken_kept
    | with_reducible apply State.refuseRx_kept
    | with_reducible apply State.notePeer_kept
    | with_reducible apply State.mgmtAccess_kept
    | with_reducible apply State.bump_kept
    | with_reducible apply State.mgmtAnswer_kept
    | with_reducible apply Kept.ite
    | split
    | lift_lets -underBinder

theorem State.rxMgmt_kept {a : State} : ∀ x0 x1 x2 x3, Kept a x0 → Kept a (State.rxMgmt x0 x1 x2 x3) := by
  intro x0 x1 x2 x3 h0
  unfold State.rxMgmt
  repeat' first
    | with_reducible assumption
    | with_reducible apply State.takeMgmt_kept
    | with_reducible apply Kept.ite

theorem execMgmtRead_kept {a : State} : ∀ x0 x1 x2, Kept a x2 → KeptOut a (execMgmtRead x0 x1 x2) := by
  intro x0 x1 x2 h0
  unfold execMgmtRead
  repeat' first
    | with_reducible assumption
    | with_reducible apply State.rxMgmt_kept
    | with_reducible apply KeptOut.next

theorem execMgmtWrite_kept {a : State} : ∀ x0 x1 x2, Kept a x2 → KeptOut a (execMgmtWrite x0 x1 x2) := by
  intro x0 x1 x2 h0
  unfold execMgmtWrite
  repeat' first
    | with_reducible assumption
    | with_reducible apply State.rxMgmt_kept
    | with_reducible apply KeptOut.next

theorem execMgmtCommand_kept {a : State} : ∀ x0 x1 x2, Kept a x2 → KeptOut a (execMgmtCommand x0 x1 x2) := by
  intro x0 x1 x2 h0
  unfold execMgmtCommand
  repeat' first
    | with_reducible assumption
    | with_reducible apply State.rxMgmt_kept
    | with_reducible apply KeptOut.next

end Sys2Proof.Machine
end

