-- ==== Sys2Proof/Laws/KeptOptStep.lean ====
section
/-! SUPPORT. What the operations of OptStep keep (Laws/Kept.lean). -/

namespace Sys2Proof.Machine

theorem State.optStore_kept {a : State} : ∀ x0 x1 x2 x3 x4, Kept a x0 → Kept a (State.optStore x0 x1 x2 x3 x4) := by
  intro x0 x1 x2 x3 x4 h0
  unfold State.optStore
  repeat' first
    | with_reducible assumption
    | with_reducible apply State.storeValues_kept
    | with_reducible apply State.countConv_kept

theorem State.optRun_kept {a : State} : ∀ x0 x1 x2 x3, Kept a x0 → Kept a (State.optRun x0 x1 x2 x3).1 := by
  intro x0 x1 x2 x3 h0
  unfold State.optRun
  repeat' first
    | with_reducible assumption
    | with_reducible intro _
    | with_reducible apply State.residueFails_kept
    | with_reducible apply State.countCore_kept
    | with_reducible apply State.optStore_kept
    | with_reducible apply State.overlapped_kept
    | split
    | lift_lets -underBinder

theorem State.optRecords_kept {a : State} : ∀ x0 x1 x2 x3 x4 x5 x6 x7 x8, Kept a x0 → Kept a (State.optRecords x0 x1 x2 x3 x4 x5 x6 x7 x8) := by
  intro s c n base step left i st ex h
  induction left generalizing s i st ex with
  | zero => exact State.modCore_kept _ _ _ h
  | succ n ih =>
    unfold State.optRecords
    repeat' first
      | with_reducible assumption
      | with_reducible intro _
      | with_reducible apply State.coreFault_kept
      | with_reducible apply State.memUncorrected_kept
      | with_reducible apply State.optRun_kept
      | with_reducible apply ih
      | with_reducible refine Kept.of_fst ?_ (by assumption)
      | split
      | lift_lets -underBinder

theorem execOptStep_kept {a : State} : ∀ x0 x1, Kept a x1 → KeptOut a (execOptStep x0 x1) := by
  intro x0 x1 h0
  unfold execOptStep
  repeat' first
    | with_reducible assumption
    | with_reducible intro _
    | with_reducible apply State.control_kept
    | with_reducible apply State.optRecords_kept
    | with_reducible apply KeptOut.next

end Sys2Proof.Machine
end

