-- ==== Sys2Proof/Laws/KeptTime.lean ====
section
/-! SUPPORT. What the operations of Time keep (Laws/Kept.lean). -/

namespace Sys2Proof.Machine

theorem State.sendTimeUnit_kept {a : State} : ∀ x0 x1 x2, Kept a x0 → Kept a (State.sendTimeUnit x0 x1 x2) := by
  intro x0 x1 x2 h0
  unfold State.sendTimeUnit
  repeat' first
    | with_reducible assumption
    | with_reducible apply State.sendUnit_kept
    | with_reducible apply State.setLink_kept

theorem State.countInterval_kept {a : State} : ∀ x0, Kept a x0 → Kept a (State.countInterval x0) := by
  intro x0 h0
  unfold State.countInterval
  repeat' first
    | with_reducible assumption
    | with_reducible apply State.modTime_kept
    | with_reducible apply Kept.ite

theorem execTimePacketTx_kept {a : State} : ∀ x0 x1, Kept a x1 → KeptOut a (execTimePacketTx x0 x1) := by
  intro x0 x1 h0
  unfold execTimePacketTx
  repeat' first
    | with_reducible assumption
    | with_reducible apply State.advanceTo_kept
    | with_reducible apply State.countInterval_kept
    | with_reducible apply State.elect_kept
    | with_reducible apply State.modTime_kept
    | with_reducible apply State.sendTimeUnit_kept
    | with_reducible apply State.setTimePort_kept
    | with_reducible apply KeptOut.next
    | with_reducible apply KeptOut.ite
    | with_reducible apply Kept.ite
    | split

theorem State.accept_kept {a : State} : ∀ x0 x1 x2 x3, Kept a x0 → Kept a (State.accept x0 x1 x2 x3) := by
  intro x0 x1 x2 x3 h0
  unfold State.accept
  repeat' first
    | with_reducible assumption
    | with_reducible apply State.bump_kept
    | with_reducible apply State.setTimePort_kept
    | with_reducible apply State.setObj_kept
    | with_reducible apply State.steer_kept
    | with_reducible apply Kept.ite

theorem execTimePacketRx_kept {a : State} : ∀ x0 x1 x2 x3, Kept a x3 → KeptOut a (execTimePacketRx x0 x1 x2 x3) := by
  intro x0 x1 x2 x3 h0
  unfold execTimePacketRx
  repeat' first
    | with_reducible assumption
    | with_reducible intro _
    | with_reducible apply State.advanceTo_kept
    | with_reducible apply State.bump_kept
    | with_reducible apply State.elect_kept
    | with_reducible apply State.setTimePort_kept
    | with_reducible apply State.accept_kept
    | with_reducible apply KeptOut.next
    | with_reducible apply KeptOut.ite
    | split
    | (clear_value *; split)
    | lift_lets -underBinder
    | (with_reducible refine Kept.mk' ?_ rfl rfl rfl rfl rfl rfl rfl rfl)

theorem execDatumTimeout_kept {a : State} : ∀ x0 x1, Kept a x1 → KeptOut a (execDatumTimeout x0 x1) := by
  intro x0 x1 h0
  unfold execDatumTimeout
  repeat' first
    | with_reducible assumption
    | with_reducible intro _
    | with_reducible apply State.advanceTo_kept
    | with_reducible apply State.elect_kept
    | with_reducible apply State.setTimePort_kept
    | with_reducible apply KeptOut.next
    | split
    | lift_lets -underBinder

theorem State.releaseSkipped_kept {a : State} : ∀ x0 x1, Kept a x0 → Kept a (State.releaseSkipped x0 x1) := by
  intro x0 x1 h0
  unfold State.releaseSkipped
  repeat' first
    | with_reducible assumption
    | with_reducible intro _
    | with_reducible apply State.settle_kept
    | with_reducible apply State.countCore_kept
    | with_reducible apply State.modCore_kept
    | with_reducible apply Kept.ite
    | with_reducible apply Kept.foldl
    | split

theorem State.shiftOffsets_kept {a : State} : ∀ x0 x1, Kept a x0 → Kept a (State.shiftOffsets x0 x1) := by
  intro x0 x1 h0
  unfold State.shiftOffsets
  repeat' first | with_reducible assumption | with_reducible apply State.modTime_kept

theorem execTimeStep_kept {a : State} : ∀ x0, Kept a x0 → KeptOut a (execTimeStep x0) := by
  intro x0 h0
  unfold execTimeStep
  repeat' first
    | with_reducible assumption
    | with_reducible apply State.advanceTo_kept
    | with_reducible apply State.setObj_kept
    | with_reducible apply State.bump_kept
    | with_reducible apply State.setFt_kept
    | with_reducible apply State.releaseSkipped_kept
    | with_reducible apply State.shiftOffsets_kept
    | with_reducible apply State.raise_kept
    | with_reducible apply KeptOut.next
    | with_reducible apply KeptOut.ite
    | with_reducible apply Kept.ite

theorem State.sourceSample_kept {a : State} : ∀ x0 x1, Kept a x0 → Kept a (State.sourceSample x0 x1) := by
  intro x0 x1 h0
  unfold State.sourceSample
  repeat' first
    | with_reducible assumption
    | with_reducible apply State.setObj_kept
    | with_reducible apply State.steer_kept
    | with_reducible apply State.modSrc_kept
    | with_reducible apply State.modTime_kept
    | with_reducible apply Kept.ite

theorem execPpsInEdge_kept {a : State} : ∀ x0 x1, Kept a x1 → KeptOut a (execPpsInEdge x0 x1) := by
  intro x0 x1 h0
  unfold execPpsInEdge
  repeat' first
    | with_reducible assumption
    | with_reducible apply State.setObj_kept
    | with_reducible apply State.bump_kept
    | with_reducible apply State.sourceSample_kept
    | with_reducible apply State.modSrc_kept
    | with_reducible apply KeptOut.next
    | with_reducible apply KeptOut.ite
    | with_reducible apply Kept.ite

theorem execPpsInLoss_kept {a : State} : ∀ x0, Kept a x0 → KeptOut a (execPpsInLoss x0) := by
  intro x0 h0
  unfold execPpsInLoss
  repeat' first
    | with_reducible assumption
    | with_reducible apply State.setObj_kept
    | with_reducible apply State.advanceTo_kept
    | with_reducible apply KeptOut.next
    | with_reducible apply KeptOut.ite

end Sys2Proof.Machine
end

