-- ==== Sys2Proof/Laws/KeptPtp.lean ====
section
/-! SUPPORT. What the operations of Ptp keep (Laws/Kept.lean). -/

namespace Sys2Proof.Machine

theorem State.setPtpRec_kept {a : State} : ∀ x0 x1 x2, Kept a x0 → Kept a (State.setPtpRec x0 x1 x2) := by
  intro x0 x1 x2 h0
  unfold State.setPtpRec
  repeat' first | with_reducible assumption | with_reducible apply State.modTime_kept

theorem State.ptpSend_kept {a : State} : ∀ x0 x1 x2 x3, Kept a x0 → Kept a (State.ptpSend x0 x1 x2 x3) := by
  intro x0 x1 x2 x3 h0
  unfold State.ptpSend
  repeat' first | with_reducible assumption | with_reducible apply State.emit_kept

theorem execPtpSyncTx_kept {a : State} : ∀ x0 x1, Kept a x1 → KeptOut a (execPtpSyncTx x0 x1) := by
  intro x0 x1 h0
  unfold execPtpSyncTx
  repeat' first
    | with_reducible assumption
    | with_reducible apply State.advanceTo_kept
    | with_reducible apply State.ptpSend_kept
    | with_reducible apply State.setPtpRec_kept
    | with_reducible apply KeptOut.next
    | with_reducible apply KeptOut.ite
    | split

theorem State.announceBody_kept {a : State} : ∀ x0, Kept a x0 → Kept a (State.announceBody x0).2 := by
  intro x0 h0
  unfold State.announceBody
  repeat' first | with_reducible assumption | with_reducible apply State.fresh_kept

theorem execPtpAnnounceTx_kept {a : State} : ∀ x0 x1, Kept a x1 → KeptOut a (execPtpAnnounceTx x0 x1) := by
  intro x0 x1 h0
  unfold execPtpAnnounceTx
  repeat' first
    | with_reducible assumption
    | with_reducible apply State.advanceTo_kept
    | with_reducible apply State.announceBody_kept
    | with_reducible apply State.ptpSend_kept
    | with_reducible apply State.setPtpRec_kept
    | with_reducible apply KeptOut.next
    | with_reducible apply KeptOut.ite
    | split

theorem execPtpDelayReqRx_kept {a : State} : ∀ x0 x1 x2 x3 x4, Kept a x4 → KeptOut a (execPtpDelayReqRx x0 x1 x2 x3 x4) := by
  intro x0 x1 x2 x3 x4 h0
  unfold execPtpDelayReqRx
  repeat' first
    | with_reducible assumption
    | with_reducible apply State.bump_kept
    | with_reducible apply State.ptpSend_kept
    | with_reducible apply KeptOut.next
    | with_reducible apply KeptOut.ite

theorem execPtpAnnounceRx_kept {a : State} : ∀ x0 x1 x2, Kept a x2 → KeptOut a (execPtpAnnounceRx x0 x1 x2) := by
  intro x0 x1 x2 h0
  unfold execPtpAnnounceRx
  repeat' first
    | with_reducible assumption
    | with_reducible apply State.modSrc_kept
    | with_reducible apply KeptOut.next
    | with_reducible apply KeptOut.ite
    | split

theorem execPtpSyncRx_kept {a : State} : ∀ x0 x1 x2 x3 x4, Kept a x4 → KeptOut a (execPtpSyncRx x0 x1 x2 x3 x4) := by
  intro x0 x1 x2 x3 x4 h0
  unfold execPtpSyncRx
  repeat' first
    | with_reducible assumption
    | with_reducible apply State.modSrc_kept
    | with_reducible apply KeptOut.next
    | with_reducible apply KeptOut.ite

theorem execPtpFollowUpRx_kept {a : State} : ∀ x0 x1 x2 x3 x4 x5, Kept a x5 → KeptOut a (execPtpFollowUpRx x0 x1 x2 x3 x4 x5) := by
  intro x0 x1 x2 x3 x4 x5 h0
  unfold execPtpFollowUpRx
  repeat' first
    | with_reducible assumption
    | (intro y; refine Kept.cut (a := a) y ?_ ?_; unfold y)
    | with_reducible intro _
    | with_reducible apply State.setObj_kept
    | with_reducible apply State.modTime_kept
    | with_reducible apply State.modSrc_kept
    | with_reducible apply State.sourceSample_kept
    | with_reducible apply KeptOut.next
    | with_reducible apply KeptOut.ite
    | split
    | lift_lets -underBinder

theorem execPtpDelayReqTx_kept {a : State} : ∀ x0 x1, Kept a x1 → KeptOut a (execPtpDelayReqTx x0 x1) := by
  intro x0 x1 h0
  unfold execPtpDelayReqTx
  repeat' first
    | with_reducible assumption
    | with_reducible apply State.modSrc_kept
    | with_reducible apply State.ptpSend_kept
    | with_reducible apply KeptOut.next
    | with_reducible apply KeptOut.ite

theorem execPtpDelayRespRx_kept {a : State} : ∀ x0 x1 x2 x3 x4 x5, Kept a x5 → KeptOut a (execPtpDelayRespRx x0 x1 x2 x3 x4 x5) := by
  intro x0 x1 x2 x3 x4 x5 h0
  unfold execPtpDelayRespRx
  repeat' first
    | with_reducible assumption
    | with_reducible apply State.modSrc_kept
    | with_reducible apply KeptOut.next
    | with_reducible apply KeptOut.ite
    | split

theorem execAnnounceReceiptTimeout_kept {a : State} : ∀ x0, Kept a x0 → KeptOut a (execAnnounceReceiptTimeout x0) := by
  intro x0 h0
  unfold execAnnounceReceiptTimeout
  repeat' first
    | with_reducible assumption
    | with_reducible apply State.setObj_kept
    | with_reducible apply State.modSrc_kept
    | with_reducible apply KeptOut.next
    | with_reducible apply KeptOut.ite

end Sys2Proof.Machine
end

