-- ==== Sys2Proof/Laws/KeptScalar.lean ====
section
/-! SUPPORT. What the operations of Scalar keep (Laws/Kept.lean). -/

namespace Sys2Proof.Machine

theorem State.scalar_kept {a : State} : ∀ x0 x1 x2 x3 x4 x5, Kept a x0 → Kept a (State.scalar x0 x1 x2 x3 x4 x5) := by
  intro x0 x1 x2 x3 x4 x5 h0
  unfold State.scalar
  repeat' first
    | with_reducible assumption
    | with_reducible intro _
    | with_reducible apply State.control_kept
    | with_reducible apply State.setReg_kept

theorem execScLi_kept {a : State} : ∀ x0 x1 x2 x3, Kept a x3 → KeptOut a (execScLi x0 x1 x2 x3) := by
  intro x0 x1 x2 x3 h0
  unfold execScLi
  repeat' first
    | with_reducible assumption
    | with_reducible intro _
    | with_reducible apply State.control_kept
    | with_reducible apply State.setReg_kept
    | with_reducible apply KeptOut.next

theorem execScAdd_kept {a : State} : ∀ x0 x1 x2 x3 x4, Kept a x4 → KeptOut a (execScAdd x0 x1 x2 x3 x4) := by
  intro x0 x1 x2 x3 x4 h0
  unfold execScAdd
  repeat' first
    | with_reducible assumption
    | with_reducible apply State.scalar_kept
    | with_reducible apply KeptOut.next

theorem execScSub_kept {a : State} : ∀ x0 x1 x2 x3 x4, Kept a x4 → KeptOut a (execScSub x0 x1 x2 x3 x4) := by
  intro x0 x1 x2 x3 x4 h0
  unfold execScSub
  repeat' first
    | with_reducible assumption
    | with_reducible apply State.scalar_kept
    | with_reducible apply KeptOut.next

theorem execScMul_kept {a : State} : ∀ x0 x1 x2 x3 x4, Kept a x4 → KeptOut a (execScMul x0 x1 x2 x3 x4) := by
  intro x0 x1 x2 x3 x4 h0
  unfold execScMul
  repeat' first
    | with_reducible assumption
    | with_reducible apply State.scalar_kept
    | with_reducible apply KeptOut.next

theorem execScAnd_kept {a : State} : ∀ x0 x1 x2 x3 x4, Kept a x4 → KeptOut a (execScAnd x0 x1 x2 x3 x4) := by
  intro x0 x1 x2 x3 x4 h0
  unfold execScAnd
  repeat' first
    | with_reducible assumption
    | with_reducible apply State.scalar_kept
    | with_reducible apply KeptOut.next

theorem execScOr_kept {a : State} : ∀ x0 x1 x2 x3 x4, Kept a x4 → KeptOut a (execScOr x0 x1 x2 x3 x4) := by
  intro x0 x1 x2 x3 x4 h0
  unfold execScOr
  repeat' first
    | with_reducible assumption
    | with_reducible apply State.scalar_kept
    | with_reducible apply KeptOut.next

theorem execScXor_kept {a : State} : ∀ x0 x1 x2 x3 x4, Kept a x4 → KeptOut a (execScXor x0 x1 x2 x3 x4) := by
  intro x0 x1 x2 x3 x4 h0
  unfold execScXor
  repeat' first
    | with_reducible assumption
    | with_reducible apply State.scalar_kept
    | with_reducible apply KeptOut.next

theorem execScShl_kept {a : State} : ∀ x0 x1 x2 x3 x4, Kept a x4 → KeptOut a (execScShl x0 x1 x2 x3 x4) := by
  intro x0 x1 x2 x3 x4 h0
  unfold execScShl
  repeat' first
    | with_reducible assumption
    | with_reducible apply State.scalar_kept
    | with_reducible apply KeptOut.next

theorem execScShr_kept {a : State} : ∀ x0 x1 x2 x3 x4, Kept a x4 → KeptOut a (execScShr x0 x1 x2 x3 x4) := by
  intro x0 x1 x2 x3 x4 h0
  unfold execScShr
  repeat' first
    | with_reducible assumption
    | with_reducible apply State.scalar_kept
    | with_reducible apply KeptOut.next

theorem execScCmp_kept {a : State} : ∀ x0 x1 x2 x3 x4, Kept a x4 → KeptOut a (execScCmp x0 x1 x2 x3 x4) := by
  intro x0 x1 x2 x3 x4 h0
  unfold execScCmp
  repeat' first
    | with_reducible assumption
    | with_reducible apply State.scalar_kept
    | with_reducible apply KeptOut.next

theorem execScLd_kept {a : State} : ∀ x0 x1 x2 x3, Kept a x3 → KeptOut a (execScLd x0 x1 x2 x3) := by
  intro x0 x1 x2 x3 h0
  unfold execScLd
  repeat' first
    | with_reducible assumption
    | with_reducible intro _
    | with_reducible apply State.control_kept
    | with_reducible apply State.setReg_kept
    | with_reducible apply KeptOut.next

theorem execScSt_kept {a : State} : ∀ x0 x1 x2 x3, Kept a x3 → KeptOut a (execScSt x0 x1 x2 x3) := by
  intro x0 x1 x2 x3 h0
  unfold execScSt
  repeat' first
    | with_reducible assumption
    | with_reducible intro _
    | with_reducible apply State.control_kept
    | with_reducible apply State.writeBytes_kept
    | with_reducible apply KeptOut.next

theorem execDescSet_kept {a : State} : ∀ x0 x1 x2 x3 x4 x5, Kept a x5 → KeptOut a (execDescSet x0 x1 x2 x3 x4 x5) := by
  intro x0 x1 x2 x3 x4 x5 h0
  unfold execDescSet
  repeat' first
    | with_reducible assumption
    | with_reducible intro _
    | with_reducible apply State.control_kept
    | with_reducible apply State.modCore_kept
    | with_reducible apply KeptOut.next

theorem execDescGet_kept {a : State} : ∀ x0 x1 x2 x3 x4, Kept a x4 → KeptOut a (execDescGet x0 x1 x2 x3 x4) := by
  intro x0 x1 x2 x3 x4 h0
  unfold execDescGet
  repeat' first
    | with_reducible assumption
    | with_reducible intro _
    | with_reducible apply State.control_kept
    | with_reducible apply State.writeBytes_kept
    | with_reducible apply KeptOut.next

theorem execFlagSet_kept {a : State} : ∀ x0 x1 x2 x3 x4, Kept a x4 → KeptOut a (execFlagSet x0 x1 x2 x3 x4) := by
  intro x0 x1 x2 x3 x4 h0
  unfold execFlagSet
  repeat' first
    | with_reducible assumption
    | with_reducible intro _
    | with_reducible apply State.control_kept
    | with_reducible apply State.writeFlag_kept
    | with_reducible apply KeptOut.next

theorem execFlagAdd_kept {a : State} : ∀ x0 x1 x2 x3 x4, Kept a x4 → KeptOut a (execFlagAdd x0 x1 x2 x3 x4) := by
  intro x0 x1 x2 x3 x4 h0
  unfold execFlagAdd
  repeat' first
    | with_reducible assumption
    | with_reducible intro _
    | with_reducible apply State.control_kept
    | with_reducible apply State.addFlag_kept
    | with_reducible apply KeptOut.next

theorem State.waitFault_kept {a : State} : ∀ x0 x1 x2 x3 x4, Kept a x0 → Kept a (State.waitFault x0 x1 x2 x3 x4) := by
  intro x0 x1 x2 x3 x4 h0
  unfold State.waitFault
  repeat' first | with_reducible assumption | with_reducible apply State.coreFaultWith_kept

theorem execFlagWait_kept {a : State} : ∀ x0 x1 x2 x3 x4 x5 x6, Kept a x6 → KeptOut a (execFlagWait x0 x1 x2 x3 x4 x5 x6) := by
  intro x0 x1 x2 x3 x4 x5 x6 h0
  unfold execFlagWait
  repeat' first
    | with_reducible assumption
    | with_reducible intro _
    | with_reducible apply State.control_kept
    | with_reducible apply State.waitFault_kept
    | with_reducible apply State.settle_kept
    | with_reducible apply State.setCore_kept
    | with_reducible apply KeptOut.next
    | with_reducible apply Kept.ite

theorem execWaitExpired_kept {a : State} : ∀ x0 x1, Kept a x1 → KeptOut a (execWaitExpired x0 x1) := by
  intro x0 x1 h0
  unfold execWaitExpired
  repeat' first
    | with_reducible assumption
    | with_reducible apply State.advanceTo_kept
    | with_reducible apply State.waitFault_kept
    | with_reducible apply KeptOut.next
    | with_reducible apply KeptOut.ite
    | with_reducible apply Kept.ite
    | split
    | lift_lets -underBinder
    | (with_reducible refine Kept.mk' ?_ rfl rfl rfl rfl rfl rfl rfl rfl)

theorem execFlagStatus_kept {a : State} : ∀ x0 x1 x2 x3 x4, Kept a x4 → KeptOut a (execFlagStatus x0 x1 x2 x3 x4) := by
  intro x0 x1 x2 x3 x4 h0
  unfold execFlagStatus
  repeat' first
    | with_reducible assumption
    | with_reducible intro _
    | with_reducible apply State.control_kept
    | with_reducible apply State.setReg_kept
    | with_reducible apply KeptOut.next

theorem execSkipIf_kept {a : State} : ∀ x0 x1 x2 x3 x4 x5 x6 x7 x8, Kept a x8 → KeptOut a (execSkipIf x0 x1 x2 x3 x4 x5 x6 x7 x8) := by
  intro x0 x1 x2 x3 x4 x5 x6 x7 x8 h0
  unfold execSkipIf
  repeat' first
    | with_reducible assumption
    | with_reducible intro _
    | with_reducible apply State.control_kept
    | with_reducible apply State.setCore_kept
    | with_reducible apply KeptOut.next
    | with_reducible apply Kept.ite

theorem execLoopBegin_kept {a : State} : ∀ x0 x1 x2 x3 x4, Kept a x4 → KeptOut a (execLoopBegin x0 x1 x2 x3 x4) := by
  intro x0 x1 x2 x3 x4 h0
  unfold execLoopBegin
  repeat' first
    | with_reducible assumption
    | with_reducible intro _
    | with_reducible apply State.control_kept
    | with_reducible apply State.setCore_kept
    | with_reducible apply KeptOut.next
    | with_reducible apply Kept.ite

theorem execLoopEnd_kept {a : State} : ∀ x0 x1 x2, Kept a x2 → KeptOut a (execLoopEnd x0 x1 x2) := by
  intro x0 x1 x2 h0
  unfold execLoopEnd
  repeat' first
    | with_reducible assumption
    | with_reducible intro _
    | with_reducible apply State.control_kept
    | with_reducible apply State.setCore_kept
    | with_reducible apply KeptOut.next
    | with_reducible apply Kept.ite
    | split
    | lift_lets -underBinder

theorem execLoopIdx_kept {a : State} : ∀ x0 x1 x2 x3 x4, Kept a x4 → KeptOut a (execLoopIdx x0 x1 x2 x3 x4) := by
  intro x0 x1 x2 x3 x4 h0
  unfold execLoopIdx
  repeat' first
    | with_reducible assumption
    | with_reducible intro _
    | with_reducible apply State.control_kept
    | with_reducible apply State.setReg_kept
    | with_reducible apply State.fresh_kept
    | with_reducible apply KeptOut.next
    | split

theorem execTimeWait_kept {a : State} : ∀ x0 x1 x2, Kept a x2 → KeptOut a (execTimeWait x0 x1 x2) := by
  intro x0 x1 x2 h0
  unfold execTimeWait
  repeat' first
    | with_reducible assumption
    | with_reducible intro _
    | with_reducible apply State.control_kept
    | with_reducible apply State.settle_kept
    | with_reducible apply State.setCore_kept
    | with_reducible apply State.countCore_kept
    | with_reducible apply KeptOut.next
    | with_reducible apply Kept.ite

theorem execTimeWaitRelease_kept {a : State} : ∀ x0 x1, Kept a x1 → KeptOut a (execTimeWaitRelease x0 x1) := by
  intro x0 x1 h0
  unfold execTimeWaitRelease
  repeat' first
    | with_reducible assumption
    | with_reducible apply State.advanceTo_kept
    | with_reducible apply State.settle_kept
    | with_reducible apply State.modCore_kept
    | with_reducible apply KeptOut.next
    | with_reducible apply Kept.ite
    | split

theorem execCoreIdOp_kept {a : State} : ∀ x0 x1 x2, Kept a x2 → KeptOut a (execCoreIdOp x0 x1 x2) := by
  intro x0 x1 x2 h0
  unfold execCoreIdOp
  repeat' first
    | with_reducible assumption
    | with_reducible intro _
    | with_reducible apply State.control_kept
    | with_reducible apply State.setReg_kept
    | with_reducible apply KeptOut.next

theorem execCoreTime_kept {a : State} : ∀ x0 x1 x2, Kept a x2 → KeptOut a (execCoreTime x0 x1 x2) := by
  intro x0 x1 x2 h0
  unfold execCoreTime
  repeat' first
    | with_reducible assumption
    | with_reducible intro _
    | with_reducible apply State.control_kept
    | with_reducible apply State.setReg_kept
    | with_reducible apply KeptOut.next

theorem execCoreEnd_kept {a : State} : ∀ x0 x1, Kept a x1 → KeptOut a (execCoreEnd x0 x1) := by
  intro x0 x1 h0
  unfold execCoreEnd
  repeat' first
    | with_reducible assumption
    | with_reducible intro _
    | with_reducible apply State.control_kept
    | with_reducible apply State.settle_kept
    | with_reducible apply State.modCore_kept
    | with_reducible apply KeptOut.next

theorem execIllegalOp_kept {a : State} : ∀ x0 x1, Kept a x1 → KeptOut a (execIllegalOp x0 x1) := by
  intro x0 x1 h0
  unfold execIllegalOp
  repeat' first
    | with_reducible assumption
    | with_reducible intro _
    | with_reducible apply State.control_kept
    | with_reducible apply KeptOut.next

theorem execLibUnknown_kept {a : State} : ∀ x0 x1 x2, Kept a x2 → KeptOut a (execLibUnknown x0 x1 x2) := by
  intro x0 x1 x2 h0
  unfold execLibUnknown
  repeat' first
    | with_reducible assumption
    | with_reducible intro _
    | with_reducible apply State.control_kept
    | with_reducible apply KeptOut.next
    | with_reducible apply Kept.ite

end Sys2Proof.Machine
end

