-- ==== Sys2Proof/Laws/KeptSteRun.lean ====
section
/-! SUPPORT. What the operations of SteRun keep (Laws/Kept.lean). -/

namespace Sys2Proof.Machine

theorem State.steFault_kept {a : State} : ∀ x0 x1 x2 x3 x4, Kept a x0 → Kept a (State.steFault x0 x1 x2 x3 x4) := by
  intro x0 x1 x2 x3 x4 h0
  unfold State.steFault
  repeat' first
    | with_reducible assumption
    | (intro y; refine Kept.cut (a := a) y ?_ ?_; unfold y)
    | with_reducible intro _
    | with_reducible apply State.clearSte_kept
    | with_reducible apply State.steBusy_kept
    | with_reducible apply State.stePoke_kept
    | with_reducible apply State.setSteState_kept
    | with_reducible apply State.setObj_kept
    | with_reducible apply State.bump_kept
    | with_reducible apply State.raiseParcel_kept
    | with_reducible apply Kept.ite
    | split
    | lift_lets -underBinder

theorem State.slotStart_kept {a : State} : ∀ x0, Kept a x0 → Kept a (State.slotStart x0) := by
  intro x0 h0
  unfold State.slotStart
  repeat' first | with_reducible assumption | with_reducible apply State.advanceTo_kept

theorem State.steRefuse_kept {a : State} : ∀ x0 x1, Kept a x0 → Kept a (State.steRefuse x0 x1) := by
  intro x0 x1 h0
  unfold State.steRefuse
  repeat' first
    | with_reducible assumption
    | with_reducible apply State.bump_kept
    | with_reducible apply State.stePoke_kept

theorem State.steTake_kept {a : State} : ∀ x0 x1, Kept a x0 → Kept a (State.steTake x0 x1) := by
  intro x0 x1 h0
  unfold State.steTake
  repeat' first
    | with_reducible assumption
    | with_reducible apply State.stePoke_kept
    | with_reducible apply State.steRefuse_kept
    | with_reducible apply State.setSte_kept
    | with_reducible apply State.steFault_kept
    | with_reducible apply State.setSteState_kept
    | with_reducible apply State.stopSte_kept
    | with_reducible apply Kept.ite
    | split

theorem State.modSte_kept {a : State} : ∀ x0 x1 x2, Kept a x0 → Kept a (State.modSte x0 x1 x2) := by
  intro x0 x1 x2 h0
  unfold State.modSte
  repeat' first | with_reducible assumption | with_reducible apply State.setSte_kept

theorem State.steWatch_kept {a : State} : ∀ x0 x1, Kept a x0 → Kept a (State.steWatch x0 x1) := by
  intro x0 x1 h0
  unfold State.steWatch
  repeat' first | with_reducible assumption | with_reducible apply State.modSte_kept

theorem State.steBegin_kept {a : State} : ∀ x0 x1, Kept a x0 → Kept a (State.steBegin x0 x1) := by
  intro x0 x1 h0
  unfold State.steBegin
  repeat' first
    | with_reducible assumption
    | with_reducible apply State.modSte_kept
    | with_reducible apply State.setSteState_kept
    | with_reducible apply State.steWatch_kept

theorem State.steNext_kept {a : State} : ∀ x0 x1, Kept a x0 → Kept a (State.steNext x0 x1) := by
  intro x0 x1 h0
  unfold State.steNext
  repeat' first
    | with_reducible assumption
    | with_reducible apply State.setSteState_kept
    | with_reducible apply State.clearSte_kept
    | with_reducible apply State.steBusy_kept
    | with_reducible apply State.setSte_kept
    | with_reducible apply Kept.ite

theorem State.steSend_kept {a : State} : ∀ x0 x1 x2 x3 x4, Kept a x0 → Kept a (State.steSend x0 x1 x2 x3 x4) := by
  intro x0 x1 x2 x3 x4 h0
  unfold State.steSend
  repeat' first
    | with_reducible assumption
    | with_reducible apply State.setSte_kept
    | with_reducible apply State.setTxq_kept

theorem State.steCopies_kept {a : State} : ∀ x0 x1 x2, Kept a x0 → Kept a (State.steCopies x0 x1 x2) := by
  intro x0 x1 x2 h0
  unfold State.steCopies
  repeat' first
    | with_reducible assumption
    | with_reducible intro _
    | with_reducible apply State.steSend_kept
    | with_reducible apply Kept.foldl

theorem State.stePump_kept {a : State} : ∀ x0 x1, Kept a x0 → Kept a (State.stePump x0 x1) := by
  intro x0 x1 h0
  unfold State.stePump
  repeat' first
    | with_reducible assumption
    | with_reducible intro _
    | with_reducible apply State.bump_kept
    | with_reducible apply State.steSend_kept
    | with_reducible apply State.setSte_kept
    | with_reducible apply Kept.foldl

theorem State.steFetch_kept {a : State} : ∀ x0 x1 x2 x3, Kept a x0 → Kept a (State.steFetch x0 x1 x2 x3) := by
  intro x0 x1 x2 x3 h0
  unfold State.steFetch
  repeat' first
    | with_reducible assumption
    | with_reducible apply State.stePump_kept
    | with_reducible apply State.setSte_kept

theorem State.steCount_kept {a : State} : ∀ x0 x1 x2 x3, Kept a x0 → Kept a (State.steCount x0 x1 x2 x3) := by
  intro x0 x1 x2 x3 h0
  unfold State.steCount
  repeat' first
    | with_reducible assumption
    | (intro y; refine Kept.cut (a := a) y ?_ ?_; unfold y)
    | with_reducible intro _
    | with_reducible apply State.addObj_kept
    | with_reducible apply State.sumsOpened_kept
    | with_reducible apply State.raiseParcel_kept
    | with_reducible apply Kept.foldl
    | split
    | lift_lets -underBinder

theorem State.steStore_kept {a : State} : ∀ x0 x1 x2 x3 x4 x5, Kept a x0 → Kept a (State.steStore x0 x1 x2 x3 x4 x5) := by
  intro x0 x1 x2 x3 x4 x5 h0
  unfold State.steStore
  repeat' first
    | with_reducible assumption
    | with_reducible intro _
    | with_reducible apply State.writeBytes_kept
    | with_reducible apply Kept.ite
    | with_reducible apply Kept.foldl

theorem State.steEmit_kept {a : State} : ∀ x0 x1 x2 x3 x4, Kept a x0 → Kept a (State.steEmit x0 x1 x2 x3 x4) := by
  intro x0 x1 x2 x3 x4 h0
  unfold State.steEmit
  repeat' first
    | with_reducible assumption
    | with_reducible intro _
    | with_reducible apply State.steStore_kept
    | with_reducible apply State.setSte_kept
    | with_reducible apply State.steCopies_kept
    | with_reducible apply State.modSte_kept
    | with_reducible apply Kept.ite
    | with_reducible apply Kept.foldl
    | split
    | lift_lets -underBinder

theorem State.steCommit_kept {a : State} : ∀ x0 x1 x2 x3, Kept a x0 → Kept a (State.steCommit x0 x1 x2 x3) := by
  intro x0 x1 x2 x3 h0
  unfold State.steCommit
  repeat' first
    | with_reducible assumption
    | with_reducible intro _
    | with_reducible apply State.setSte_kept
    | with_reducible apply State.steCount_kept
    | with_reducible apply State.steEmit_kept
    | with_reducible apply State.steCopies_kept
    | with_reducible apply Kept.ite
    | with_reducible apply Kept.foldl

theorem State.freeStage_kept {a : State} : ∀ x0 x1, Kept a x0 → Kept a (State.freeStage x0 x1).1 := by
  intro x0 x1 h0
  unfold State.freeStage
  repeat' first
    | with_reducible assumption
    | with_reducible intro _
    | with_reducible apply State.freeBytes_kept
    | with_reducible apply State.fresh_kept
    | with_reducible apply Kept.foldl_fst

theorem State.steStage_kept {a : State} : ∀ x0 x1 x2, Kept a x0 → Kept a (State.steStage x0 x1 x2) := by
  intro x0 x1 x2 h0
  unfold State.steStage
  repeat' first
    | with_reducible assumption
    | with_reducible apply State.steFault_kept
    | with_reducible apply State.steFetch_kept
    | with_reducible apply State.freeStage_kept
    | with_reducible apply State.steCommit_kept
    | with_reducible apply Kept.ite
    | split

theorem State.stageEnd_kept {a : State} : ∀ x0 x1 x2, Kept a x0 → Kept a (State.stageEnd x0 x1 x2) := by
  intro x0 x1 x2 h0
  unfold State.stageEnd
  repeat' first
    | with_reducible assumption
    | with_reducible intro _
    | with_reducible apply State.steWatch_kept
    | with_reducible apply State.setSte_kept
    | with_reducible apply State.steSend_kept
    | with_reducible apply Kept.ite
    | with_reducible apply Kept.foldl

theorem State.steRecord_kept {a : State} : ∀ x0 x1 x2, Kept a x0 → Kept a (State.steRecord x0 x1 x2) := by
  intro x0 x1 x2 h0
  unfold State.steRecord
  repeat' first
    | with_reducible assumption
    | with_reducible intro _
    | with_reducible apply State.stePoke_kept
    | with_reducible apply State.bump_kept
    | with_reducible apply State.steSend_kept
    | with_reducible apply State.setSte_kept
    | with_reducible apply State.steNext_kept
    | with_reducible apply Kept.ite
    | with_reducible apply Kept.foldl

theorem State.steAnswer_kept {a : State} : ∀ x0 x1 x2 x3 x4, Kept a x0 → Kept a (State.steAnswer x0 x1 x2 x3 x4) := by
  intro x0 x1 x2 x3 x4 h0
  unfold State.steAnswer
  repeat' first
    | with_reducible assumption
    | with_reducible intro _
    | with_reducible apply State.setSte_kept
    | with_reducible apply State.steFault_kept
    | with_reducible apply State.stePump_kept
    | with_reducible apply State.steNext_kept
    | with_reducible apply Kept.ite
    | split
    | lift_lets -underBinder

theorem State.resendSte_kept {a : State} : ∀ x0 x1 x2, Kept a x0 → Kept a (State.resendSte x0 x1 x2) := by
  intro x0 x1 x2 h0
  unfold State.resendSte
  repeat' first
    | with_reducible assumption
    | with_reducible intro _
    | with_reducible apply State.advanceTo_kept
    | with_reducible apply State.inject_kept
    | with_reducible apply State.setSte_kept
    | with_reducible apply Kept.ite
    | split
    | lift_lets -underBinder

end Sys2Proof.Machine
end

