-- ==== Sys2Proof/Laws/KeptSteCmd.lean ====
section
/-! SUPPORT. What the operations of SteCmd keep (Laws/Kept.lean). -/

namespace Sys2Proof.Machine

theorem execSteStart_kept {a : State} : ∀ x0 x1, Kept a x1 → KeptOut a (execSteStart x0 x1) := by
  intro x0 x1 h0
  unfold execSteStart
  repeat' first
    | with_reducible assumption
    | with_reducible apply State.slotStart_kept
    | with_reducible apply State.landHeld_kept
    | with_reducible apply State.steTake_kept
    | with_reducible apply KeptOut.next
    | with_reducible apply Kept.ite

theorem execSteStop_kept {a : State} : ∀ x0 x1, Kept a x1 → KeptOut a (execSteStop x0 x1) := by
  intro x0 x1 h0
  unfold execSteStop
  repeat' first
    | with_reducible assumption
    | with_reducible apply State.slotStart_kept
    | with_reducible apply State.steTake_kept
    | with_reducible apply KeptOut.next
    | with_reducible apply Kept.ite

theorem execSteRunBegin_kept {a : State} : ∀ x0 x1, Kept a x1 → KeptOut a (execSteRunBegin x0 x1) := by
  intro x0 x1 h0
  unfold execSteRunBegin
  repeat' first
    | with_reducible assumption
    | with_reducible apply State.advanceTo_kept
    | with_reducible apply State.steBegin_kept
    | with_reducible apply State.collBegin_kept
    | with_reducible apply KeptOut.next
    | with_reducible apply KeptOut.ite
    | with_reducible apply Kept.ite
    | split

theorem execSteStageEnd_kept {a : State} : ∀ x0 x1, Kept a x1 → KeptOut a (execSteStageEnd x0 x1) := by
  intro x0 x1 h0
  unfold execSteStageEnd
  repeat' first
    | with_reducible assumption
    | with_reducible apply State.steStage_kept
    | with_reducible apply State.stageEnd_kept
    | with_reducible apply KeptOut.next
    | with_reducible apply KeptOut.ite
    | with_reducible apply Kept.ite
    | split

theorem execSteRunEnd_kept {a : State} : ∀ x0 x1, Kept a x1 → KeptOut a (execSteRunEnd x0 x1) := by
  intro x0 x1 h0
  unfold execSteRunEnd
  repeat' first
    | with_reducible assumption
    | with_reducible apply State.landHeld_kept
    | with_reducible apply State.steRecord_kept
    | with_reducible apply KeptOut.next
    | with_reducible apply Kept.ite
    | split

theorem execSteExpired_kept {a : State} : ∀ x0 x1, Kept a x1 → KeptOut a (execSteExpired x0 x1) := by
  intro x0 x1 h0
  unfold execSteExpired
  repeat' first
    | with_reducible assumption
    | with_reducible apply State.advanceTo_kept
    | with_reducible apply State.steFault_kept
    | with_reducible apply KeptOut.next
    | with_reducible apply KeptOut.ite
    | with_reducible apply Kept.ite

theorem execSteRemote_kept {a : State} : ∀ x0 x1, Kept a x1 → KeptOut a (execSteRemote x0 x1) := by
  intro x0 x1 h0
  unfold execSteRemote
  repeat' first
    | with_reducible assumption
    | with_reducible apply State.advanceTo_kept
    | with_reducible apply State.steFault_kept
    | with_reducible apply State.collFault_kept
    | with_reducible apply State.collFailed_kept
    | with_reducible apply KeptOut.next
    | with_reducible apply KeptOut.ite
    | with_reducible apply Kept.ite
    | split

theorem State.recvDeadline_kept {a : State} : ∀ x0 x1 x2, Kept a x0 → Kept a (State.recvDeadline x0 x1 x2) := by
  intro x0 x1 x2 h0
  unfold State.recvDeadline
  repeat' first | with_reducible assumption | with_reducible apply State.setSte_kept

theorem execSteRecvDeadline_kept {a : State} : ∀ x0 x1 x2, Kept a x2 → KeptOut a (execSteRecvDeadline x0 x1 x2) := by
  intro x0 x1 x2 h0
  unfold execSteRecvDeadline
  repeat' first
    | with_reducible assumption
    | with_reducible intro _
    | with_reducible apply State.advanceTo_kept
    | with_reducible apply State.recvDeadline_kept
    | with_reducible apply State.collDeadline_kept
    | with_reducible apply KeptOut.next
    | with_reducible apply KeptOut.ite
    | with_reducible apply Kept.ite
    | split
    | lift_lets -underBinder

theorem State.collAnswer_kept {a : State} : ∀ x0 x1 x2 x3, Kept a x0 → Kept a (State.collAnswer x0 x1 x2 x3) := by
  intro x0 x1 x2 x3 h0
  unfold State.collAnswer
  repeat' first
    | with_reducible assumption
    | with_reducible apply State.setColl_kept
    | with_reducible apply State.collFault_kept
    | with_reducible apply State.collFailed_kept
    | with_reducible apply State.collRun_kept
    | with_reducible apply Kept.ite
    | split

theorem State.collResponse_kept {a : State} : ∀ x0 x1 x2 x3, Kept a x0 → Kept a (State.collResponse x0 x1 x2 x3) := by
  intro x0 x1 x2 x3 h0
  unfold State.collResponse
  repeat' first
    | with_reducible assumption
    | with_reducible apply State.collAnswer_kept
    | with_reducible apply State.discardRx_kept
    | with_reducible apply Kept.ite
    | split

theorem State.steResponse_kept {a : State} : ∀ x0 x1 x2 x3, Kept a x0 → Kept a (State.steResponse x0 x1 x2 x3) := by
  intro x0 x1 x2 x3 h0
  unfold State.steResponse
  repeat' first
    | with_reducible assumption
    | with_reducible apply State.steAnswer_kept
    | with_reducible apply State.discardRx_kept
    | with_reducible apply State.collResponse_kept
    | with_reducible apply Kept.ite
    | split

theorem execRxResponse_kept {a : State} : ∀ x0 x1 x2, Kept a x2 → KeptOut a (execRxResponse x0 x1 x2) := by
  intro x0 x1 x2 h0
  unfold execRxResponse
  repeat' first
    | with_reducible assumption
    | with_reducible apply State.taken_kept
    | with_reducible apply State.discardRx_kept
    | with_reducible apply State.onward_kept
    | with_reducible apply State.coreResponse_kept
    | with_reducible apply State.collResponse_kept
    | with_reducible apply State.steResponse_kept
    | with_reducible apply KeptOut.next
    | with_reducible apply KeptOut.ite
    | split

theorem State.resendColl_kept {a : State} : ∀ x0 x1 x2 x3, Kept a x0 → Kept a (State.resendColl x0 x1 x2 x3) := by
  intro x0 x1 x2 x3 h0
  unfold State.resendColl
  repeat' first
    | with_reducible assumption
    | with_reducible apply State.advanceTo_kept
    | with_reducible apply State.inject_kept
    | with_reducible apply State.setColl_kept
    | with_reducible apply Kept.ite
    | split

theorem execTxeResend_kept {a : State} : ∀ x0 x1, Kept a x1 → KeptOut a (execTxeResend x0 x1) := by
  intro x0 x1 h0
  unfold execTxeResend
  repeat' first
    | with_reducible assumption
    | with_reducible apply State.resendCore_kept
    | with_reducible apply State.resendColl_kept
    | with_reducible apply State.resendSte_kept
    | with_reducible apply KeptOut.next
    | split

end Sys2Proof.Machine
end

