-- ==== Sys2Proof/WellFormed.lean ====
section
/-! DEFINITION. Which operand values a command can carry: the sizes that R187, R191, R423, R433 and R440 give byte strings and
that the Lean types do not. -/

namespace Sys2Proof

/-- Payload sizes of a packet (R191): at most 4,096 bytes. -/
def Packet.ok (p : Packet) : Bool := decide (p.payload.length ≤ 4096)

/-- A link unit is 256 bytes (R187). -/
def unitOk (lu : Bytes) : Bool := decide (lu.length = 256)

/-- Well-formed commands: every byte-string operand has the size its rule gives it. -/
def Instr.wellFormed : Instr → Bool
  | .linkUnitRx _ lu | .controlUnitRx _ lu => unitOk lu
  | .rxPut _ p _ | .rxGet _ p _ | .rxAcc _ p _ => p.ok
  | .rxFlagPacket _ p | .rxMsg _ p | .rxColl _ p | .mgmtRead _ p | .mgmtWrite _ p | .mgmtCommand _ p
  | .rxResponse _ p => p.ok
  | .timePacketRx _ p _ => p.ok
  | .debugUnlock _ t => decide (t.length = 64)
  | .measureExtend _ d => decide (d.length = 32)
  | .keyCommit _ _ k _ _ => decide (k.length = 64)
  | .quote _ n => decide (n.length = 32)
  | .updData _ d => decide (d.length = 64)
  | _ => true

end Sys2Proof
end

