-- ==== Sys2Proof/Tests/Slice0.lean ====
section
/-! SUPPORT. Small states, the worked examples of the spec as single steps, the well-formedness checks, and for every obligation with
hypotheses states and operands that meet them. -/

set_option Elab.async false

namespace Sys2Proof.Tests

open Sys2Proof Sys2Proof.Machine

/-! ### Small states -/

/-- Parcel 0 trains on die 0: its function is RUNNING, and core 0 is mapped and issues. -/
def wRun : State :=
  let s := (((State.reset.setObj (Obj.fn_STATE 8) 3).setObj (Obj.par_MODE 0) 2).setObj (Obj.par_DIE_MASK 0) 1).setObj (Obj.core_CORE_STATE 0) 1
  { s with cores := [(0, { Core.reset with mapped := true, regs := [(1, 5), (2, 0x1FFFF8), (3, 0x1FFFFC), (4, 0xFFFFFFFFFFFFFFFF)], flags := [(3, 7)], warm := 15 })], ft := 5000 }
/-- The same inside a Xaisk routine. -/
def wLib : State := wRun.setObj (Obj.core_CORE_STATE 0) 4
/-- The state with core 0 changed. -/
def wCore (f : Core → Core) (s : State) : State := s.modCore 0 f
/-- An operation issued with no gate. -/
def wIss : Issue := ⟨0, false, none, some 3⟩
/-- A queue entry that waits. -/
def wEnt (op : QOp) : QEntry := Core.reset.entry wIss 0 op
/-- A queue entry that has started at 5,000. -/
def wStart (op : QOp) : QEntry := { wEnt op with phase := .started, startAt := 5000 }
/-- The descriptor of zeros: one dimension with no element. -/
def wD0 : Desc := Desc.parse 0

/-- A descriptor of 64 elements of E4M3 from SRAM offset 0x3000. -/
def wDA : Desc := { wD0 with format := 3, ext := (64, 1, 1, 1), lext := (64, 1, 1, 1), base := 0x3000, terms := 1 }
/-- The same packed as a bitmask, with room for one element. -/
def wDS : Desc := { wDA with sparseForm := 1, base := 0x1000, metaBase := 0x2000, packedLen := 1, stride := (64, 0, 0) }
/-- Core 0 with its VXE queue. -/
def wVxe (l : List QEntry) : State := wCore (fun k => { k with vxe := l }) wRun
/-- Core 0 with its TXE queue. -/
def wTxe (l : List QEntry) : State := wCore (fun k => { k with txe := l }) wRun
/-- A report of an engine operation. -/
def wRep : EngineReport := ⟨9, 0, 0, [], 0, 0, 0, 0, 0⟩
/-- A sparse pack that does not fit. -/
def wPack : State := { wCore (fun k => { k with spe := [wEnt (.pack wDS wDA false)] }) wRun with mem := [(0x3000, 0x38), (0x3001, 0x38)] }
/-- A packet of zeros. -/
def wPkt : Packet := ⟨1, 0, false, 4, 0, 0, false, false, false, false, 0, 0, 5, 0, 0, 0, 7, 9, 0, 0, 0, 0, []⟩
/-- A gated entry at its head since 5,000. -/
def wGated : QEntry := { wEnt (.map wD0 wD0 1) with gate := some (3, 8), headAt := some 5000 }
/-- An `mxe.mmg` that waits for two pieces. -/
def wMmg : QEntry := wStart (.mmg wD0 { wD0 with rankM1 := 2, ext := (1, 1, 2, 1) } wD0 3 7 .k false none)
/-- A put with one request outstanding, answered RING_FULL. -/
def wPut : QEntry := { wStart (.put wD0 wD0 4 none none) with out := [⟨wPkt, 0, some 5000⟩] }
/-- A box group of two devices for parcel 0. -/
def wGroup : Nat := 1 + 2 ^ 64 + 2 ^ 136
/-- Core 0 with an all-reduce record at 0x100 for group 0, from slot 100. -/
def wColl (mode : Nat) : State :=
  let d := 64 * 2 ^ 384 + 64 * 2 ^ 704 + 2 ^ 224
  let s := wCore (fun k => { k with regs := [(1, 0x100), (3, 9)], desc := [(1, d + 0x1000), (2, d + 0x2000)] })
    ((wRun.setObj (Obj.grp_ENTRY 0) wGroup).setObj (Obj.par_MODE 0) mode)
  { s with mem := [(0x100, 1), (0x10C, 1), (0x10E, 2), (0x120, 100)] }
/-- A context of that group. -/
def wCtx (s : State) : Coll := s.collBuild 0 0 0x100 (s.collRecord 0 0x100)
/-- Core 0 about to wait for instance 0 of group 0. -/
def wWait (l : List Coll) : State := { wCore (fun k => { k with regs := [(3, 9)] }) wRun with colls := l }
/-- Core 0 with an optimizer record at 0x100 and its count of records. -/
def wOpt (n : Nat) : State := wCore (fun k => { k with regs := [(1, 0x100), (2, 1), (3, BitVec.ofNat 64 n)] }) wRun
/-- Core 0 with a record of one element of SGD with momentum. -/
def wOptGood : State :=
  let d := 2 ^ 384 + 2 ^ 704 + 2 ^ 224
  let s := wCore (fun k => { k with regs := [(1, 0x100), (2, 1), (3, 1)], desc := [(1, d + 0x1000), (2, d + 0x2000 + 10 * 2 ^ 160)] }) wRun
  { s with mem := [(0x100, 1), (0x104, 1), (0x106, 1), (0x108, 2), (0x10A, 1)] }
/-- Parcel 0 in a mode about to start a job on group 0. -/
def wJob (mode : Nat) : State :=
  wCore (fun k => { k with regs := [(1, 77), (2, 5), (3, 0)] }) (((wRun.setObj (Obj.grp_ENTRY 0) wGroup).setObj (Obj.par_MODE 0) mode).setObj (Obj.par_BULK_SIZE 0) 1)
/-- Core 0 about to begin step 1 in slot 100. -/
def wStep : State := wCore (fun k => { k with regs := [(1, 1), (2, 100)] }) wRun
/-- Two mapped cores of parcel 0. -/
def wTwo : State := { wRun with cores := wRun.cores ++ [(1, { Core.reset with mapped := true })] }

/-- An instance whose result stands. -/
def wDone : Coll := { wCtx (wColl 1) with begun := true }
/-- Parcel 0 with its record changed. -/
def wPar (f : Parcel → Parcel) (s : State) : State := s.modParcel 0 f
/-- Parcel 0 training with a bulk region and group 0 as its job group, in a JOB_STATE. -/
def wTrain (j : Nat) : State :=
  (((wRun.setObj (Obj.grp_ENTRY 0) wGroup).setObj (Obj.par_BULK_SIZE 0) 1).setObj (Obj.res_JOB_GROUP 0) 0).setObj (Obj.res_JOB_STATE 0) j
/-- A commit of step 1 in slot 200 that every core has called. -/
def wRec : CommitRec := ⟨1, 200, 0, [], [0], none, 5000, true⟩
/-- The same with its instance. -/
def wRecQ : CommitRec := { wRec with cseq := some 0 }
/-- A commit under way, with the context of its instance. -/
def wCommit (d : Option Nat) (x : Coll) : State :=
  { wPar (fun p => { p with commit := some wRecQ, decided := d }) (wTrain 2) with colls := [x] }
/-- A vote of no member: every sum is 0. -/
def wVote : Coll := { wDone with by_ := .commit, members := [], written := true, dst := lineDesc .da128 16 1 33 }
/-- Core 0 waits in a routine. -/
def wIn (w : LibWait) (s : State) : State := (wCore (fun k => { k with lib := some w }) s).setObj (Obj.core_CORE_STATE 0) 4

/-- FABRIC is RUNNING, and the link of fabric port 0 is up and idle. -/
def wLink : State :=
  let s := (wRun.setObj (Obj.fn_STATE 4) 3).setObj (Obj.port_LINK_STATE 0) 2
  s.setLink 0 { Link.reset with locked := true }
/-- Bytes of zeros. -/
def wZ (n : Nat) : Bytes := List.replicate n 0
/-- A data unit with SEQ `seq`, ACK 4095 and a good CRC: a flag packet whose header is its only cell. -/
def wUnit (seq : Nat) : Bytes := linkUnit 1 seq 4095 false (Packet.bytes { Packet.zero with arg := 0x103, dstCore := 0 })
/-- A unit sent and not acknowledged. -/
def wUnack (stuck : Nat) : State := wLink.setLink 0 { Link.reset with locked := true, replay := [(0, 1, [7])], stuck := stuck, progressAt := 5000 }
/-- A control unit of the peer that fabric port 0 expects: group 0, position 1, its port 0. -/
def wPeer (pos : Byte) : Bytes := linkUnit 3 0 4095 false (wZ 80 ++ [0, 0, 9, 0, 0, pos, 0, 0])
/-- Fabric port 0 trained and down. -/
def wTrained : State := (wRun.setObj (Obj.fn_STATE 4) 3).setLink 0 { Link.reset with locked := true }
/-- Where the packets of fabric port 0 come from. -/
def wAt : RxAt := ⟨some 0, 0, 0, 0⟩
/-- A request of job 7 from device 1 for core 0 of this device, which is device 0. -/
def wReq : Packet := { Packet.zero with src := 1, srcCore := 3, dstCore := 0, job := 7, tag := 9 }
/-- A put of two bytes to offset 0x1000 of core 0. -/
def wPutP : Packet := { wReq with len := 2, payload := [1, 2], addr := 0x1000 }
/-- A flag packet for flag 3. -/
def wFlagP : Packet := { wReq with arg := 0x103 }
/-- A get of 4,096 bytes. -/
def wGetP : Packet := { wReq with op := opGet, arg := 4096, addr := 0x1000 }
/-- A message of one byte for ring 2. -/
def wMsgP : Packet := { wReq with op := opMsg, arg := 2, len := 1, payload := [5] }
/-- An accumulate of one word onto the near tier. -/
def wAccP : Packet := { wReq with op := opAcc, arg := 1, len := 4, payload := wZ 4, addr := 2 ^ 41, ext := true }
/-- Packets received by fabric port 0, with parcel 0 running job 7. -/
def wGot (k : Packet) : State :=
  { wCore (fun c => { c with rings := [(2, some ⟨0x4000, 256, 4, 3, 5⟩)], flags := [(3, 3)] }) (wLink.setObj (Obj.parfab_JOB_ID 0) 7) with inbox := [(wAt, k)] }
/-- A response to tag 9 of core 0. -/
def wResp (op : BitVec 3) (st : BitVec 8) : Packet := { wReq with op := op, resp := true, status := st }
/-- Its put with one packet sent. -/
def wOutE (op : BitVec 3) (ph : Phase) : QEntry := { wStart (.put wDA wDA 4 none none) with phase := ph, out := [⟨{ wReq with op := op }, 0, none⟩] }
/-- Core 0 with one put outstanding under tag 9. -/
def wOuts (ph : Phase) (k : Packet) : State := wCore (fun c => { c with txe := [wOutE k.op ph] }) (wGot k)

/-- A coll packet of group 0 with a CSEQ, in phase 1 from slot 1. -/
def wCollP (cseq : Nat) : Packet := { wReq with op := opColl, ext := true, extn := BitVec.ofNat 256 (cseq * 2 ^ 208 + 2 ^ 192 + 2 ^ 186) }
/-- It received, where the group takes 16 cells early and its next instance is `next`. -/
def wCollGot (cseq next : Nat) (cs : List Coll) : State :=
  { ((wGot (wCollP cseq)).setObj (Obj.grp_ENTRY 0) (wGroup + 16 * 2 ^ 16)).modGroup 0 (fun t => { t with next := next }) with colls := cs }
/-- A management packet: operation 0, 1 or 2 on DEVICE_NAME's index. -/
def wMgmtP (op : BitVec 48) : Packet := { wReq with op := opMgmt, arg := op, addr := 5 * 2 ^ 41 + 0x100001 }
/-- It received with the dictionary open to fabric packets, or closed. -/
def wMgmt (open_ : Nat) (op : BitVec 48) : State := ((wGot (wMgmtP op)).setObj Obj.topo_FABRIC_MGMT open_).setObj (Obj.fn_STATE 0) 3

/-- One staged cell of input 5, a whole packet of class 4 for output 144. -/
def wStCell : StCell := ⟨Packet.bytes wPutP, true, true, 34, [144], 1, 4, none, false, wAt, none, none, none⟩
/-- It staged alone. -/
def wXb : State := { wLink with sw := { wLink.sw with stages := [(5, ⟨[wStCell], none⟩)] } }
/-- One packet of class 7 queued at output `x` in die cell 0. -/
def wQd (x : Nat) : State :=
  let s := (wLink.setObj Obj.cls_SHAPE_ENABLE 0).setLink 0 { wLink.link 0 with creditInit := List.replicate 40 9 }
  { s with sw := { s.sw with cells := ⟨nil, 1, 1, [(0, 2 ^ 63 + 2 ^ 55)], false⟩, queues := [(40 * x + 35, ⟨[⟨wPutP, wAt, none, [.die 0]⟩], 1⟩)] } }
/-- The bulk tier with spill space, and class 7 set to spill. -/
def wBulk : State :=
  ((((wLink.setObj Obj.mem_BULK_MODULE_GIB 64).setObj Obj.mem_SPILL_GIB 1).setObj Obj.lim_SPILL_CLASSES 128).setObj Obj.lim_SPILL_RETURN 16).setObj (Obj.pool_CRITICAL 1) 200
/-- Fifteen tail cells of class 7 queued at endpoint 144. -/
def wTails : State :=
  { wBulk with sw := { wBulk.sw with cells := ⟨nil, 15, 15, (List.range 15).map (fun b => (b, 2 ^ 63 + 2 ^ 55)), false⟩, queues := [(5795, ⟨[⟨{ wPutP with len := 3600 }, wAt, none, (List.range 15).map .die⟩], 0⟩)] } }
/-- The same cells in page 0. -/
def wPaged : State :=
  let s := wBulk.setObj (Obj.pool_BACKPRESSURE 0) 200
  { s with sw := { s.sw with pages := ⟨nil, 1, 1, [(0, 2 ^ 63 + 2 ^ 55)], false⟩, queues := [(5795, ⟨[⟨{ wPutP with len := 3600 }, wAt, none, (List.range 15).map (fun i => .page 0 (i + 1))⟩], 0⟩)] } }
/-- Service port 125 up, with its policer of class `c` in mode `m`. -/
def wSvc (m c : Nat) : State :=
  ((((wLink.setObj (Obj.port_ROLE 125) 2).setObj (Obj.port_LINK_STATE 125) 2).setObj (Obj.peer_PEER_ADDR 0) (octNat 16 5)).setObj (Obj.pol_MODE (polIdx 125 c)) m).setObj (Obj.port_SVC_ADDR 125) (octNat 16 9)
/-- The same with buckets of 200 kB for that class and a 1,000 byte committed one. -/
def wSvcB (m : Nat) (tc : Int) : State :=
  (wSvc m 0).setSvc 125 { Svc.reset with mode := List.replicate 8 m, tp := List.replicate 8 200000, tc := List.replicate 8 tc, paused := [none, some 6000, none, none, none, none, none, none], xoff := [false, true, false, false, false, false, false, false] }
/-- A frame of 120 bytes from peer 0 with a flag packet of class 0. -/
def wFrame : EthFrame := ⟨true, 120, none, false, true, false, true, 7, 5, 9, 48211, 48211, true, 0, 0, Packet.bytes wFlagP⟩
/-- Its tail cells are die cells in use. -/
theorem witnessTails : ∀ e ∈ (wTails.outQ 5795).cells, ∃ b, e = .die b ∧ b < (wTails.pool 0).fresh ∧ ((wTails.pool 0).rd b).testBit 63 = true := by
  have h : ((wTails.outQ 5795).cells.all (fun e => match e with
    | .die b => decide (b < (wTails.pool 0).fresh) && ((wTails.pool 0).rd b).testBit 63
    | .page _ _ => false)) = true := by decide +kernel
  intro e he
  have := List.all_eq_true.mp h e he
  cases e with
  | die b => simp at this; exact ⟨b, rfl, this.1, this.2⟩
  | page _ _ => simp at this
/-- No other queue holds cells. -/
theorem witnessOthers : ∀ k, k ≠ 5795 → ((wPaged.outQ k).cells.any (fun c => c.inPage 0)) = false := by
  intro k h
  have : wPaged.outQ k = OutQ.reset := by
    show Sparse.get OutQ.reset [(5795, _)] k = _
    unfold Sparse.get
    simp [h.symm]
    try rfl
  rw [this]; rfl
/-- Its cells are all in the page. -/
theorem witnessNoDie : ∀ b, CellAt.die b ∈ (wPaged.outQ 5795).cells → b < (wPaged.pool 0).fresh := by
  have h : ((wPaged.outQ 5795).cells.all (fun e => match e with
    | .die _ => false
    | .page _ _ => true)) = true := by decide +kernel
  intro b hb
  have := List.all_eq_true.mp h _ hb
  simp at this

/-- TIME and FABRIC are RUNNING, the link of fabric port 0 is up, and TIME_STATE is `st`. -/
def wTime (st : Nat) : State := ((wLink.setObj (Obj.fn_STATE 3) 3).setObj Obj.time_TIME_STATE st).setObj Obj.time_DATUM_TIMEOUT 10
/-- A time packet that answers the one sent at `orig`, after a turnaround of 100 units. -/
def wTimeP (orig : Nat) : Packet :=
  { Packet.zero with op := opTime, tc := 7, route := 2, len := 64, arg := 1, src := 1, dstCore := 0, srcCore := 0, payload := beBytes 8 4300 ++ beBytes 8 orig ++ beBytes 8 4200 ++ wZ 40 }
/-- Fabric port 0 sent a time packet at 4,100 and took `n` samples before. -/
def wSync (n : Nat) : State := (wTime 1).setTimePort 0 { TimePort.reset with sent := [4100], accepted := n, delays := List.replicate n 90, thetas := List.replicate n 5, fresh := some 4000 }
/-- Core 0 waits for slot 6 while the counter is to step by `n` units. -/
def wDue (n : Int) : State :=
  (wTime 1).modTime (fun t => { t with est := some (2 * n), aligned := true }) |> wCore (fun k => { k with hold := .timeWait 6 }) |>.setObj (Obj.par_MODE 0) 1
/-- The datum's clock source is `src`. -/
def wDatum (src : Nat) : State := (wTime 4).setObj Obj.time_TIME_SOURCE src
/-- Service port 125 sends PTP messages as a master. -/
def wMaster : State :=
  ((((((wSvc 0 0).setObj (Obj.fn_STATE 3) 3).setObj Obj.time_TIME_STATE 4).setObj (Obj.port_PTP_ENABLE 125) 1)).setPtpRec 125 ⟨some 9, some 9, 65535, 8⟩)
/-- The grandmaster it hears. -/
def wGm : PtpAnnounce := ⟨0, 77, 78, 6, 1, 37, 0, 5⟩
/-- Service port 125 follows a grandmaster, with a Sync of 2 and a Delay_Req of 3 outstanding. -/
def wSlave : State :=
  ((wMaster.setObj Obj.time_TIME_SOURCE 2).setObj Obj.time_SOURCE_PORT 125).modSrc (fun r => { r with gm := some wGm, sync := some (2, 4000), req := some (3, 4100), reqSeq := 65535, up := some 50 })

/-- Stream engine 0 of parcel 0 in STE_STATE `v`, its command word `cmd`, its program STE_END alone. -/
def wSte (v cmd : Nat) : State :=
  (((((wRun.setObj (Obj.par_STE_MASK 0) 1).setObj (Obj.ste_STE_STATE 0) v).stePoke 0 0 4 cmd).stePoke 0 0x58 4 9).stePoke 0 0x1000 4 2).setSte 0
    { Ste.reset with runSlot := 6, runTimeout := 3, nextTag := 4 }
/-- What START loads of it. -/
def wLoaded : Ste := { Ste.reset with prog := [2], ins := List.replicate 8 0, outs := List.replicate 4 0, temps := List.replicate 16 0, runTimeout := 9, runSlot := 6, nextTag := 4 }
/-- It does. -/
theorem witnessLoad : (((wSte 0 257).advanceTo 5120).stePoke ((0 : EngineId) : Nat) 0x60 4 (257 / 256)).steLoad ((0 : EngineId) : Nat) = wLoaded := by decide +kernel
/-- The same with RUN_TIMEOUT 0. -/
def wNoTimeout : State := (wSte 0 257).stePoke 0 0x58 4 0
/-- What START loads of it. -/
theorem witnessLoad0 : ((wNoTimeout.advanceTo 5120).stePoke ((0 : EngineId) : Nat) 0x60 4 (257 / 256)).steLoad ((0 : EngineId) : Nat) = { wLoaded with runTimeout := 0 } := by decide +kernel
/-- The engine's run changed. -/
def wSteRun (f : Ste → Ste) : State := let s := wSte 2 0; s.setSte 0 (f (s.ste 0))
/-- A copy of two records of 8 bytes from offset 0x4000 to 0x5000. -/
def wCopy : Ste :=
  { Ste.reset with prog := [0xFF00001010, 2], at_ := .stage, outCount := [0, 0, 0, 0], ins := [1 + 2 ^ 16 + 8 * 2 ^ 48 + 2 * 2 ^ 96 + 0x4000 * 2 ^ 128], outs := [1 + 2 ^ 16 + 8 * 2 ^ 48 + 2 * 2 ^ 64 + 0x5000 * 2 ^ 96] }
/-- It before its stage, its input filled. -/
def wCopying : State := ((wSte 2 0).setSte 0 wCopy).stePoke 0 0x4000 16 0x0102030405060708090A0B0C0D0E0F10
/-- A RECV input with a deadline of 5 slots and 3 slots. -/
def wRecv : State := wSteRun (fun e => { e with at_ := .stage, ins := [2 + 2 ^ 96 + 3 * 2 ^ 216 + 5 * 2 ^ 256] })
/-- An unanswered packet of the engine. -/
def wOldest : State := wSteRun (fun e => { e with at_ := .sent, out := [{ pkt := wReq, at_ := 4000, full := none, fetch := none }] })
/-- MEM_NEAR and MEM_BULK are RUNNING. -/
def wMem : State := (wRun.setObj (Obj.fn_STATE 5) 3).setObj (Obj.fn_STATE 6) 3
/-- The controller of near address 64. -/
def wCtl : Controller := .stack 0
/-- The management function runs; die 1 does not train. -/
def wHour : State := (wRun.setObj (Obj.fn_STATE 0) 3).setObj (Obj.par_DIE_MASK 0) 2
/-- A measurement. -/
def wMeas : LevelMeasure := ⟨-5, 2, [], 3⟩

/-- Boot stage n is begun and done, with supplies and RESET_N up. -/
def wBoot (n : Nat) : State := (State.reset.setObj Obj.dev_BOOT_STAGE n) |> (fun s => { s with sec := { s.sec with stageDone := n } })
/-- The MGMT function runs. -/
def wMgm : State := wRun.setObj (Obj.fn_STATE 0) 3
/-- Function n in state v, with MGMT running. -/
def wFn (n v : Nat) : State := wMgm.setObj (Obj.fn_STATE n) v
/-- It in INIT, begun by START or not, to be ended by STOP or not. -/
def wInit (n : Nat) (start stop : Bool) : State := (wFn n 1).markInit n start stop

/-- Parcel 0 trains and runs, in JOB_STATE `v`. -/
def wJobSt (v : Nat) : State := wMgm.setObj (Obj.res_JOB_STATE 0) v
/-- Bytes of the flash from address `a`. -/
def wFlashAt (a : Nat) (bs : Bytes) : Sparse Byte := bs.zipIdx.foldl (fun m e => Sparse.set 0xFF m (a + e.2) e.1) []
/-- A directory with slots 0 and 1 of type 1: 8,192 bytes at 0x4000 and at 0x8000 (R421). -/
def wDirBytes : Bytes :=
  leBytes 4 0x5244564F ++ leBytes 2 1 ++ leBytes 2 2 ++ leBytes 8 1 ++ leBytes 4 1 ++ leBytes 4 0x4000 ++ leBytes 8 8192 ++ leBytes 4 0x101 ++ leBytes 4 0x8000 ++ leBytes 8 8192
/-- It in the flash, with an update of type 1 in UPD_STATE `v` at offset `off` of slot 1. -/
def wUpd (v off : Nat) : State :=
  let s := ((wMgm.setObj Obj.upd_UPD_TYPE 1).setObj Obj.upd_UPD_STATE v).setObj Obj.upd_UPD_OFFSET off
  { s with flash := wFlashAt 0 (wDirBytes ++ sm3 wDirBytes), sec := { s.sec with updSlot := 1 } }
/-- A sealed store with bytes of one counter set, the first type running from slot 1 with SVN 9. -/
def wSec (v fb : Nat) : State :=
  { wMgm.setObj Obj.sec_FALLBACK fb with sealed := { wMgm.sealed with counters := [5, 0, 0, 0, 0, 0, 0, v] }, sec := { wMgm.sec with running := [(1, some (1, 9))] } }

/-- A client. -/
def wCl : DapClient := ⟨5, 1000⟩
/-- A session of slot 0, confirmed or not, whose last request carried SEQ 7. -/
def wSess (b : Bool) : Session := ⟨3, 0, b, [1], [2], List.replicate 32 9, 7, [4, 4], 9000⟩
/-- The device with that session. -/
def wDap (b : Bool) : State := { wMgm with mgmt := { wMgm.mgmt with sessions := [wSess b], nextId := 4 } }
/-- A request of the session (R401), its MAC right or not. -/
def wMsg (type seq : Nat) (body : Bytes) (good : Bool) : Bytes :=
  let h := beBytes 2 0x4450 ++ [1, BitVec.ofNat 8 type] ++ beBytes 4 3 ++ beBytes 8 seq ++ beBytes 2 body.length ++ [0, 0] ++ body
  h ++ (if good then hmacSm3 [1] h else List.replicate 32 0)
/-- It as the device reads it. -/
def wReqD (type seq : Nat) (body : Bytes) (good : Bool) : DapMsg := (dapParse (wMsg type seq body good)).getD ⟨0, 0, 0, [], [], []⟩
/-- OPEN_A of a slot. -/
def wOpen (slot : Byte) : Bytes := beBytes 2 0x4450 ++ [1, 2] ++ beBytes 4 0 ++ beBytes 8 0 ++ beBytes 2 68 ++ [0, 0] ++ ([slot, 0, 0, 0] ++ List.replicate 64 0)
/-- The device addressed on the I3C bus, with a selector. -/
def wBus (sel : Option (Nat × Nat)) : State := { wMgm with mgmt := { wMgm.mgmt with i3cAddr := some 8, i3cSel := sel } }
/-- RSTDAA waits, and what follows it. -/
def wQueued : State := { wBus none with pending := [.rstdaa, .getpid] }
/-- The state after it. -/
def wStepped : State := { wMgm with pending := [.getpid] }

/-! ### The worked examples of the spec and the well-formedness checks -/

/-- Packets with a payload beyond 4,096 bytes, units of other sizes than 256 bytes and byte strings of other sizes than their rules give
are refused (R187, R191, R423, R433, R440). -/
theorem test_wellFormed_payload : Instr.wellFormed (.rxPut ⟨some 0, 0, 0, 0⟩ { Packet.zero with payload := List.replicate 4097 0 } []) = false := by decide +kernel
theorem test_wellFormed_time_payload : Instr.wellFormed (.timePacketRx 0 { Packet.zero with payload := List.replicate 4097 0 } 0) = false := by decide +kernel
theorem test_wellFormed_payload_max : Instr.wellFormed (.rxPut ⟨some 0, 0, 0, 0⟩ { Packet.zero with payload := List.replicate 4096 0 } []) = true := by decide +kernel
theorem test_wellFormed_unit : Instr.wellFormed (.linkUnitRx 0 (List.replicate 255 0)) = false := by decide +kernel
theorem test_wellFormed_token : Instr.wellFormed (.debugUnlock .security (List.replicate 63 0)) = false := by decide
theorem test_wellFormed_digest : Instr.wellFormed (.measureExtend .security (List.replicate 33 0)) = false := by decide
theorem test_wellFormed_key : Instr.wellFormed (.keyCommit .security 0 [] 0 0) = false := by decide
theorem test_wellFormed_nonce : Instr.wellFormed (.quote .read []) = false := by decide
theorem test_wellFormed_update : Instr.wellFormed (.updData .security (List.replicate 65 0)) = false := by decide
/-- The rows of the table give no bits. -/
theorem test_no_word_spells_a_command : decodeTableWord 32 0 = none := by decide

/-- FP6 codes 0x21, 0x0F, 0x3A and 0x05 packed (the example of R28). -/
theorem test_fp6_packing : packCodes 6 3 [0x21, 0x0F, 0x3A, 0x05] = [0xE1, 0xA3, 0x17] := by decide +kernel
/-- The block of the example after R36: 7.0, −1.3, 0.2 and 2.5 in E2M1. -/
theorem test_e2m1_block :
    writeBlock .e2m1 false ([(false, 70), (true, 13), (false, 2), (false, 25)].map (fun v => .fin v.1 (Q.of v.2 10))) [] = ⟨0x80, [6, 9, 0, 2], 0, 0⟩ := by decide +kernel
/-- The scale choices of the table after R36. -/
theorem test_scale_choice :
    [blockScale .e2m1 false [.fin false (Q.of 55 10)], blockScale .e2m1 true [.fin false (Q.of 55 10)], blockScale .e2m1 false [.fin false (Q.of 69 10)],
     blockScale .e2m1 true [.fin false (Q.of 69 10)], blockScale .e2m1 false [.fin false (Q.int 7)], blockScale .e2m1 false [.fin false (Q.of 3 10)],
     blockScale .e4m3 false [.fin false (Q.int 470)]] = [0x7F, 0x7F, 0x7F, 0x80, 0x80, 0x7B, 0x80] := by decide +kernel
/-- The dither of the example of R42, and the weight that it rounds down. -/
theorem test_dither_key : ditherKey 0x2180 7 1 = 0x0B978931 := by decide +kernel
theorem test_dither : dither 0x0B978931 0x42 1000 = 0x8BD245 := by decide +kernel
theorem test_dithered_weight : (encodeElem .bf16 false (some 0x8BD245) (decodeElem .fp32 false 0x3F808800)).code = 0x3F80 := by decide +kernel
/-- The four terms of the example of R60 sum to one word in both orders. -/
theorem test_exact_sum_order_free :
    ([[0x4B800000, 0x3F800000, 0xCB800000, 0x20400000], [0x20400000, 0xCB800000, 0x3F800000, 0x4B800000]].map (fun l =>
      (Acc.empty.addTerms .da128 24 (l.map (decodeElem .fp32 false))).word.pack)) = [0x80000000000000028200, 0x80000000000000028200] := by decide +kernel
/-- Order B's second partial sum of the same example. -/
theorem test_exact_partial_sum :
    (Acc.empty.addTerms .da128 24 ([0x20400000, 0xCB800000].map (decodeElem .fp32 false))).word.pack = 0xFFFFFF80000000000000000000028100 := by decide +kernel
/-- 40.0 at anchor 4 saturates with excess 1, at anchor 5 it fits (the example of R67). -/
theorem test_excess : ((Acc.empty.addTerm .da128 4 (.fin false (Q.int 40))).word.excess, (Acc.empty.addTerm .da128 5 (.fin false (Q.int 40))).word.excess) = (1, 0) := by decide +kernel
/-- SM3 of "abc" (the standard's first example). -/
theorem test_sm3 : beNat (sm3 (strBytes 3 "abc")) = 0x66C7F0F462EEEDD9D1F2D46BDC10E4E24167C4875CF2F7A2297DA02B8F4BA8E0 := by decide +kernel

/-- Scalar results (R105): a count of 65 shifts by 1, −1 is less than 0, sums keep 64 bits. -/
theorem test_shl : (match exec (.scShl 0 5 (.reg 1) (.imm 65)) wRun with | .next t => (t.core 0).reg 5 | _ => 0) = 10 := by decide +kernel
theorem test_cmp : (match exec (.scCmp 0 5 (.reg 4) (.imm 0)) wRun with | .next t => (t.core 0).reg 5 | _ => 0) = 0xFFFFFFFFFFFFFFFF := by decide +kernel
theorem test_add_wraps : (match exec (.scAdd 0 5 (.reg 4) (.imm 2)) wRun with | .next t => (t.core 0).reg 5 | _ => 0) = 1 := by decide +kernel
/-- A deadline passes as in the example of R107: FAULT_CODE 0x20, FAULT_FLAG, FAULT_WANT and FAULT_SEEN. -/
theorem test_wait_expired :
    (match exec (.waitExpired 0) (wCore (fun k => { k with hold := .flagWait 12 .ge 5 6000 0, flags := [(12, 4)] }) wRun) with
     | .next t => [t.obj (Obj.core_FAULT_CODE 0), t.obj (Obj.core_FAULT_FLAG 0), t.obj (Obj.core_FAULT_WANT 0), t.obj (Obj.core_FAULT_SEEN 0), t.obj (Obj.core_FAULT_TIME 0)]
     | _ => []) = [0x20, 12, 5, 4, 6000] := by decide +kernel

/-- The bulk byte of the example of R160: channel M5, its fabric address' space and offset. -/
theorem test_bulk_address : (bulkChan (515 * 2 ^ 30 + 0x12345678), bulkAddr (515 * 2 ^ 30 + 0x12345678)) = (5, 2 * 2 ^ 41 + 0x40691A5678) := by decide
/-- The shard window of the example of R176: reads reach the active half, writes the other. -/
theorem test_shard_window :
    (let s := ((((State.reset.setObj (Obj.par_DIE_MASK 0) 3).setObj (Obj.par_DIE_MASK 1) 12).setObj (Obj.parmem_SHARD_OFFSET 1) 40).setObj (Obj.parmem_SHARD_GIB 1) 24).setObj (Obj.parmem_ACTIVE_HALF 1) 1
     let a := 2 ^ 41 + 0x18000000000 + 5 * 2 ^ 35 + 0x100
     (s.resolve false a, s.resolve true a)) = (2 ^ 41 + 0xB000000100, 2 ^ 41 + 0xAA00000100) := by decide +kernel
/-- Ports of the example of R200: device 10 reaches device 4, device 20 and the spare. -/
theorem test_trunks :
    (let s := (((State.reset.setObj (Obj.topo_SIZE 0) 32).setObj Obj.topo_SPARES 1).setObj (Obj.topo_TRUNK 0) 3).setObj Obj.topo_POSITION 10
     [s.toward 0 4, s.toward 0 20, s.toward 0 32]) = [[12, 13, 14], [57, 58, 59], [93, 94, 95]] := by decide +kernel
/-- Cells allocated, shared and released as in the example of R231. -/
theorem test_cell_pool :
    (let s := (((State.reset.alloc 0).1.alloc 0).1.alloc 0).1
     let t := s.share 0 1 2
     let u := (t.release 0 0).1
     let w := (((u.release 0 1).1.release 0 1).1.release 0 1).1
     [(s.pool 0).rd 1, (t.pool 0).rd 1, (u.pool 0).rd 0, (u.pool 0).head, (w.pool 0).rd 1, (w.pool 0).head, ((w.release 0 1).1).obj (Obj.pool_DOUBLE_FREE 0),
      ((w.release 0 1).1).obj (Obj.pool_FIRST_REFUSED_BUF 0)])
      = [0x80FFFFFFC0000000, 0x81FFFFFFC0000000, 0x007FFFFFC0000000, 0, 0, 1, 1, 1] := by decide +kernel
/-- A staged packet of one cell for output o. -/
def wCellTo (o cls : Nat) : StCell := { wStCell with outs := [o], cls := cls }
/-- The contention of the example of R224: P3, P40 and C7 (151) want P5, P40 also P9. -/
def wContend : State :=
  { wLink with sw := { wLink.sw with gp := [(5, 41)], stages := [(3, ⟨[wCellTo 5 2], none⟩), (40, ⟨[wCellTo 5 2, wCellTo 9 2], none⟩), (151, ⟨[wCellTo 5 7], none⟩)] } }
/-- Its slot 0: C7 gets P5 and P40 gets P9. -/
theorem test_xbar_slot0 : (match exec .xbarMatch wContend with | .next t => [t.gpOf 5, t.gpOf 9, (t.stageOf 40).cells.length, (t.stageOf 3).cells.length, (t.stageOf 151).cells.length] | _ => [])
    = [152, 41, 1, 1, 0] := by decide +kernel
/-- Its slot 1: P5 searches from 152 and finds P3. -/
theorem test_xbar_slot1 :
    (match exec .xbarMatch { wContend with sw := { wContend.sw with phase := 1, gp := [(5, 152), (9, 41)], stages := [(3, ⟨[wCellTo 5 2], none⟩), (40, ⟨[wCellTo 5 2], none⟩)] } } with
     | .next t => [t.gpOf 5, (t.stageOf 3).cells.length, (t.stageOf 40).cells.length] | _ => []) = [4, 0, 1] := by decide +kernel
/-- The base of step 4,000,001 (the example of R365). -/
theorem test_step_base : stepBase 4000001 0 = 0x12020000 := by decide
/-- Powers of 0.8 mW and 0.4 mW in 0.01 dBm (the example of R454). -/
theorem test_dbm : (dbm 8000, dbm 4000) = (-97, -398) := by decide +kernel
/-- The board controller reads DEVICE_STATE while it is UP (the example of R411). -/
theorem test_i3c_read : (match exec .i3cPrivateRead ((wBus (some (0x2000, 1))).setObj Obj.dev_DEVICE_STATE 1) with | .next t => t.sent | _ => []) = [.i3c [0x00, 0x0C, 0x01, 0x01, 0x2B]] := by decide +kernel

/-! ### What meets the hypotheses of the obligations -/

/-- States and operands that meet the hypotheses of `Obligations.ScalarOperationWritesItsRegister`. -/
theorem witness_ScalarOperationWritesItsRegister :
    (∃ (s₀ : State) (s : State) (i : Instr) (c : CoreId) (d : Reg) (v : BitVec 64), scalarResult s i = some (c, d, v) ∧ Fetched s₀ c
    false s) ∧
    (∃ (s₀ : State) (s : State) (i : Instr) (c : CoreId) (d : Reg) (v : BitVec 64), scalarResult s i = some (c, d, v) ∧ Fetched s₀ c
    false s) ∧
    (∃ (s₀ : State) (s : State) (i : Instr) (c : CoreId) (d : Reg) (v : BitVec 64), scalarResult s i = some (c, d, v) ∧ Fetched s₀ c
    false s) ∧
    (∃ (s₀ : State) (s : State) (i : Instr) (c : CoreId) (d : Reg) (v : BitVec 64), scalarResult s i = some (c, d, v) ∧ Fetched s₀ c
    false s) ∧
    (∃ (s₀ : State) (s : State) (i : Instr) (c : CoreId) (d : Reg) (v : BitVec 64), scalarResult s i = some (c, d, v) ∧ Fetched s₀ c
    false s) ∧
    (∃ (s₀ : State) (s : State) (i : Instr) (c : CoreId) (d : Reg) (v : BitVec 64), scalarResult s i = some (c, d, v) ∧ Fetched s₀ c
    false s) :=
  ⟨⟨wRun, wRun, .scAdd 0 5 (.reg 4) (.imm 1), 0, 5, 0, by decide +kernel, ⟨by decide +kernel, by decide +kernel⟩⟩,
   ⟨wRun, wRun, .scLi 0 0 9, 0, 0, 9, by decide +kernel, ⟨by decide +kernel, by decide +kernel⟩⟩,
   ⟨wRun, wRun, .scCmp 0 7 (.reg 4) (.imm 0), 0, 7, -1, by decide +kernel, ⟨by decide +kernel, by decide +kernel⟩⟩,
   ⟨wRun, wRun, .scMul 0 5 (.reg 1) (.reg 1), 0, 5, 25, by decide +kernel, ⟨by decide +kernel, by decide +kernel⟩⟩,
   ⟨wRun, wRun, .scShl 0 5 (.reg 1) (.imm 65), 0, 5, 10, by decide +kernel, ⟨by decide +kernel, by decide +kernel⟩⟩,
   ⟨wRun, wRun, .coreTime 0 31, 0, 31, 5000, by decide +kernel, ⟨by decide +kernel, by decide +kernel⟩⟩⟩

/-- States and operands that meet the hypotheses of `Obligations.LoadsOfACoreWriteTheirRegister`. -/
theorem witness_LoadsOfACoreWriteTheirRegister :
    (∃ (s₀ : State) (s : State) (c : CoreId) (a : Src) (o : _), o = ((s.core c).val a).toNat ∧ Fetched s₀ c false s ∧ o % 8 = 0 ∧ o + 8 ≤
    2 ^ 21) ∧
    (∃ (s₀ : State) (s : State) (c : CoreId) (routine : Bool) (f : Flag), Fetched s₀ c routine s ∧ ((routine = true ∨ f.val < 240))) ∧
    (∃ (s₀ : State) (s : State) (c : CoreId) (routine : Bool) (f : Flag), Fetched s₀ c routine s ∧ ((routine = true ∨ f.val < 240))) ∧
    (∃ (s₀ : State) (s : State) (c : CoreId) (routine : Bool), Fetched s₀ c routine s) ∧
    (∃ (s₀ : State) (s : State) (c : CoreId) (routine : Bool), Fetched s₀ c routine s) :=
  ⟨⟨wRun, wRun, 0, .reg 2, 0x1FFFF8, by decide +kernel, ⟨by decide +kernel, by decide +kernel⟩, by decide +kernel, by decide +kernel⟩,
   ⟨wRun, wRun, 0, false, 239, ⟨by decide +kernel, by decide +kernel⟩, by decide +kernel⟩,
   ⟨wLib, wLib, 0, true, 255, ⟨by decide +kernel, by decide +kernel⟩, by decide +kernel⟩,
   ⟨wRun, wRun, 0, false, ⟨by decide +kernel, by decide +kernel⟩⟩,
   ⟨wCore (fun k => { k with loops := [⟨1, 2, 1⟩] }) wRun, wCore (fun k => { k with loops := [⟨1, 2, 1⟩] }) wRun, 0, false,
    ⟨by decide +kernel, by decide +kernel⟩⟩⟩

/-- States and operands that meet the hypotheses of `Obligations.StoresOfACoreWriteOnlyTheirBytes`. -/
theorem witness_StoresOfACoreWriteOnlyTheirBytes :
    (∃ (s₀ : State) (s : State) (c : CoreId) (a : Src) (o : Nat), o = ((s.core c).val a).toNat ∧ Fetched s₀ c false s ∧ o % 8 = 0 ∧ o + 8
    ≤ 2 ^ 21) ∧
    (∃ (s₀ : State) (s : State) (c : CoreId) (a : Src) (o : Nat) (routine : Bool) (h : Src) (n : _), o = ((s.core c).val a).toNat ∧
    Fetched s₀ c routine s ∧ n = ((s.core c).val h).toNat % 2 ^ 16 ∧ (Sparse.get 0 (s.core c).gens (n % 4096)).toNat = n / 4096 ∧
    ((routine = true ∨ n % 4096 < 3840)) ∧ o + 128 ≤ 2 ^ 21) :=
  ⟨⟨wRun, wRun, 0, .reg 2, 0x1FFFF8, by decide +kernel, ⟨by decide +kernel, by decide +kernel⟩, by decide +kernel, by decide +kernel⟩,
   ⟨wRun, wRun, 0, .imm 0, 0, false, .imm 3839, 3839, by decide +kernel, ⟨by decide +kernel, by decide +kernel⟩, by decide +kernel,
    by decide +kernel, by decide +kernel, by decide +kernel⟩⟩

/-- States and operands that meet the hypotheses of `Obligations.DescSetInstallsTheEntry`. -/
theorem witness_DescSetInstallsTheEntry :
    ∃ (s₀ : State) (s : State) (c : CoreId) (routine : Bool) (i : Src) (a : Src) (n : Nat) (o : Nat), Fetched s₀ c routine s ∧ n =
    ((s.core c).val i).toNat ∧ o = ((s.core c).val a).toNat ∧ n < (if routine then 4096 else 3840) ∧ o + 128 ≤ 2 ^ 21 :=
  ⟨wRun, wRun, 0, false, .imm 3839, .imm 0x1FFF80, 3839, 0x1FFF80, ⟨by decide +kernel, by decide +kernel⟩, by decide +kernel,
   by decide +kernel, by decide +kernel, by decide +kernel⟩

/-- States and operands that meet the hypotheses of `Obligations.FlagWritesChangeOneFlag`. -/
theorem witness_FlagWritesChangeOneFlag :
    ∃ (s₀ : State) (s : State) (c : CoreId) (routine : Bool) (f : Flag), Fetched s₀ c routine s ∧ ((routine = true ∨ f.val < 240)) :=
  ⟨wLib, wLib, 0, true, 3, ⟨by decide +kernel, by decide +kernel⟩, by decide +kernel⟩

/-- States and operands that meet the hypotheses of `Obligations.FlagComparisonIsModular`. -/
theorem witness_FlagComparisonIsModular :
    ∃ (e : QEntry) (g : Flag) (n : Nat), e.gate = some (g, n) ∧ n < 2 ^ 32 :=
  ⟨{ wEnt (.ring 0 wD0 0 0) with gate := some (0, 1) }, 0, 1, by decide +kernel, by decide +kernel⟩

/-- States and operands that meet the hypotheses of `Obligations.FlagWaitHoldsUntilItsDeadline`. -/
theorem witness_FlagWaitHoldsUntilItsDeadline :
    (∃ (s₀ : State) (s : State) (c : CoreId) (routine : Bool) (f : Flag) (cond : WaitCond) (v : Src), Fetched s₀ c routine s ∧ (s.core
    c).ended = false ∧ ((routine = true ∨ f.val < 240)) ∧ waitHolds cond ((s.core c).flag f) (((s.core c).val v).setWidth 32) = true) ∧
    (∃ (s₀ : State) (s : State) (c : CoreId) (routine : Bool) (f : Flag) (cond : WaitCond) (v : Src) (timeout : Src), Fetched s₀ c
    routine s ∧ (s.core c).ended = false ∧ ((routine = true ∨ f.val < 240)) ∧ waitHolds cond ((s.core c).flag f) (((s.core c).val
    v).setWidth 32) = false ∧ (s.core c).val32 timeout = 0) ∧
    (∃ (s₀ : State) (s : State) (c : CoreId) (routine : Bool) (f : Flag) (cond : WaitCond) (v : Src) (timeout : Src), Fetched s₀ c
    routine s ∧ (s.core c).ended = false ∧ ((routine = true ∨ f.val < 240)) ∧ waitHolds cond ((s.core c).flag f) (((s.core c).val
    v).setWidth 32) = false ∧ (s.core c).val32 timeout ≠ 0) ∧
    (∃ (s : State) (c : CoreId) (f : Flag) (cond : WaitCond) (v : Nat) (deadline : _) (seq : _), (s.core c).hold = .flagWait f cond v
    deadline seq ∧ deadline < 2 ^ 64) :=
  ⟨⟨wRun, wRun, 0, false, 3, .eq, .imm 7, ⟨by decide +kernel, by decide +kernel⟩, by decide +kernel, by decide +kernel, by decide +kernel⟩,
   ⟨wRun, wRun, 0, false, 3, .ge, .imm 8, .imm 0, ⟨by decide +kernel, by decide +kernel⟩, by decide +kernel, by decide +kernel,
    by decide +kernel, by decide +kernel⟩,
   ⟨wRun, wRun, 0, false, 3, .ge, .imm 8, .imm 1, ⟨by decide +kernel, by decide +kernel⟩, by decide +kernel, by decide +kernel,
    by decide +kernel, by decide +kernel⟩,
   ⟨wCore (fun k => { k with hold := .flagWait 3 .ge 8 6000 0 }) wRun, 0, 3, .ge, 8, 6000, 0, by decide +kernel, by decide +kernel⟩⟩

/-- States and operands that meet the hypotheses of `Obligations.TimeWaitHoldsUntilItsSlot`. -/
theorem witness_TimeWaitHoldsUntilItsSlot :
    (∃ (s₀ : State) (s : State) (c : CoreId) (x : Src) (T : Nat), T = ((s.core c).val x).toNat ∧ Fetched s₀ c false s ∧ (s.core c).ended
    = false ∧ s.now < T * 1024) ∧
    (∃ (s₀ : State) (s : State) (c : CoreId) (x : Src) (T : Nat), T = ((s.core c).val x).toNat ∧ Fetched s₀ c false s ∧ (s.core c).ended
    = false ∧ T * 1024 < s.now) ∧
    (∃ (s₀ : State) (s : State) (c : CoreId) (x : Src) (T : Nat), T = ((s.core c).val x).toNat ∧ Fetched s₀ c false s ∧ (s.core c).ended
    = false ∧ T * 1024 = s.now) ∧
    (∃ (s : State) (c : CoreId) (T : Nat), (s.core c).hold = .timeWait T ∧ T * 1024 < 2 ^ 64 ∧ s.obj (Obj.core_CORE_STATE c) = 2 ∧
    (s.core c).lib = none ∧ (s.core c).ended = false) :=
  ⟨⟨wRun, wRun, 0, .reg 1, 5, by decide +kernel, ⟨by decide +kernel, by decide +kernel⟩, by decide +kernel, by decide +kernel⟩,
   ⟨wRun, wRun, 0, .imm 4, 4, by decide +kernel, ⟨by decide +kernel, by decide +kernel⟩, by decide +kernel, by decide +kernel⟩,
   ⟨{ wRun with ft := 5120 }, { wRun with ft := 5120 }, 0, .reg 1, 5, by decide +kernel, ⟨by decide +kernel, by decide +kernel⟩,
    by decide +kernel, by decide +kernel⟩,
   ⟨(wCore (fun k => { k with hold := .timeWait 5 }) wRun).setObj (Obj.core_CORE_STATE 0) 2, 0, 5, by decide +kernel, by decide +kernel,
    by decide +kernel, by decide +kernel, by decide +kernel⟩⟩

/-- States and operands that meet the hypotheses of `Obligations.ControlFlowMovesThePosition`. -/
theorem witness_ControlFlowMovesThePosition :
    (∃ (s₀ : State) (s : State) (c : CoreId) (routine : Bool) (f : Flag) (n : Fin 256) (room : Nat), Fetched s₀ c routine s ∧ ((routine =
    true ∨ f.val < 240)) ∧ n.val ≤ room) ∧
    (∃ (s₀ : State) (s : State) (c : CoreId) (routine : Bool) (f : Flag) (n : Fin 256) (room : Nat), Fetched s₀ c routine s ∧ ((routine =
    true ∨ f.val < 240)) ∧ n.val ≤ room) ∧
    (∃ (s₀ : State) (s : State) (c : CoreId) (routine : Bool), Fetched s₀ c routine s ∧ ((s.core c).loopStack routine).length < 4) ∧
    (∃ (s₀ : State) (s : State) (c : CoreId) (routine : Bool) (fr : LoopFrame) (rest : List LoopFrame), Fetched s₀ c routine s ∧ (s.core
    c).loopStack routine = fr :: rest) ∧
    (∃ (s₀ : State) (s : State) (c : CoreId) (routine : Bool) (fr : LoopFrame) (rest : List LoopFrame), Fetched s₀ c routine s ∧ (s.core
    c).loopStack routine = fr :: rest) ∧
    (∃ (s₀ : State) (s : State) (c : CoreId) (routine : Bool), Fetched s₀ c routine s ∧ routine = false) :=
  ⟨⟨wRun, wRun, 0, false, 3, 1, 1, ⟨by decide +kernel, by decide +kernel⟩, by decide +kernel, by decide +kernel⟩,
   ⟨wLib, wLib, 0, true, 250, 1, 1, ⟨by decide +kernel, by decide +kernel⟩, by decide +kernel, by decide +kernel⟩,
   ⟨wRun, wRun, 0, false, ⟨by decide +kernel, by decide +kernel⟩, by decide +kernel⟩,
   ⟨wCore (fun k => { k with loops := [⟨1, 2, 0⟩] }) wRun, wCore (fun k => { k with loops := [⟨1, 2, 0⟩] }) wRun, 0, false, ⟨1, 2, 0⟩,
    [], ⟨by decide +kernel, by decide +kernel⟩, by decide +kernel⟩,
   ⟨wCore (fun k => { k with loops := [⟨1, 2, 1⟩] }) wRun, wCore (fun k => { k with loops := [⟨1, 2, 1⟩] }) wRun, 0, false, ⟨1, 2, 1⟩,
    [], ⟨by decide +kernel, by decide +kernel⟩, by decide +kernel⟩,
   ⟨wRun, wRun, 0, false, ⟨by decide +kernel, by decide +kernel⟩, by decide +kernel⟩⟩

/-- States and operands that meet the hypotheses of `Obligations.OperationIsFetchedThroughTheCacheOrFaults`. -/
theorem witness_OperationIsFetchedThroughTheCacheOrFaults :
    (∃ (s₀ : State) (c : CoreId) (l : _), l ∈ (s₀.core c).icache) ∧
    (∃ (s₀ : State) (c : CoreId) (l : _) (set : List Nat), l ∉ (s₀.core c).icache ∧ (set = (s₀.core c).icache.filter (fun x => x % 64 = l
    % 64)) ∧ s₀.firstBad false (l * 256) 256 = none) ∧
    (∃ (s₀ : State) (c : CoreId) (l : _) (set : List Nat), l ∉ (s₀.core c).icache ∧ (set = (s₀.core c).icache.filter (fun x => x % 64 = l
    % 64)) ∧ s₀.firstBad false (l * 256) 256 = none) ∧
    (∃ (s₀ : State) (c : CoreId) (l : _) (k : Nat), l ∉ (s₀.core c).icache ∧ s₀.firstBad false (l * 256) 256 = some k) ∧
    (∃ (s₀ : State) (c : CoreId) (x : _) (d : _) (v : _) (y : _), s₀.issues c false = true ∧ x ∈ [Instr.scLi c d v, .scAdd c d y y,
    .coreEnd c, .illegalOp c, .jobStart c]) ∧
    (∃ (s₀ : State) (c : CoreId) (s : _), Fetched s₀ c false s) ∧
    (∃ (s₀ : State) (c : CoreId) (s : _) (id : BitVec 16), Fetched s₀ c false s ∧ id.toNat ∉ [0x01, 0x02, 0x03, 0x10, 0x20, 0x21, 0x22,
    0x23, 0x30, 0x31]) ∧
    (∃ (s₀ : State) (c : CoreId) (s : _) (a : Src) (o : _), Fetched s₀ c false s ∧ o = ((s.core c).val a).toNat ∧ o + 8 ≤ 2 ^ 21 ∧ o % 8
    ≠ 0) ∧
    (∃ (s₀ : State) (c : CoreId) (s : _) (a : Src), Fetched s₀ c false s ∧ 2 ^ 21 < ((s.core c).val a).toNat + 8) ∧
    (∃ (s₀ : State) (c : CoreId) (s : _) (f : Flag), Fetched s₀ c false s ∧ 240 ≤ f.val) ∧
    (∃ (s₀ : State) (c : CoreId) (s : _) (i : Src) (a : Src), Fetched s₀ c false s ∧ 3840 ≤ ((s.core c).val i).toNat ∧ ((s.core c).val
    a).toNat + 128 ≤ 2 ^ 21) ∧
    (∃ (s₀ : State) (c : CoreId) (s : _) (h : Src) (a : Src) (n : _), Fetched s₀ c false s ∧ n = ((s.core c).val h).toNat % 2 ^ 16 ∧
    (Sparse.get 0 (s.core c).gens (n % 4096)).toNat ≠ n / 4096 ∧ ((s.core c).val a).toNat + 128 ≤ 2 ^ 21) ∧
    (∃ (s₀ : State) (c : CoreId) (s : _), Fetched s₀ c false s ∧ 4 ≤ (s.core c).loops.length) ∧
    (∃ (s₀ : State) (c : CoreId) (s : _) (f : Flag) (n : Fin 256) (room : Nat), Fetched s₀ c false s ∧ f.val < 240 ∧ room < n.val) :=
  ⟨⟨wCore (fun k => { k with icache := [1, 65, 2] }) wRun, 0, 2, by decide +kernel⟩,
   ⟨wCore (fun k => { k with icache := [1, 65, 2] }) wRun, 0, 129, [1, 65], by decide +kernel, by decide +kernel, by decide +kernel⟩,
   ⟨wCore (fun k => { k with icache := [1, 65, 2, 129, 193] }) wRun, 0, 257, [1, 65, 129, 193], by decide +kernel, by decide +kernel,
    by decide +kernel⟩,
   ⟨{ wRun with bad := [(0x100, true)] }, 0, 1, 0x100, by decide +kernel, by decide +kernel⟩,
   ⟨wRun, 0, .illegalOp 0, 5, 7, .reg 1, by decide +kernel, by decide +kernel⟩,
   ⟨wRun, 0, wRun, ⟨by decide +kernel, by decide +kernel⟩⟩,
   ⟨wRun, 0, wRun, 0x24, ⟨by decide +kernel, by decide +kernel⟩, by decide +kernel⟩,
   ⟨wRun, 0, wRun, .imm 4, 4, ⟨by decide +kernel, by decide +kernel⟩, by decide +kernel, by decide +kernel, by decide +kernel⟩,
   ⟨wRun, 0, wRun, .imm 0x1FFFF9, ⟨by decide +kernel, by decide +kernel⟩, by decide +kernel⟩,
   ⟨wRun, 0, wRun, 240, ⟨by decide +kernel, by decide +kernel⟩, by decide +kernel⟩,
   ⟨wRun, 0, wRun, .imm 3840, .imm 0, ⟨by decide +kernel, by decide +kernel⟩, by decide +kernel, by decide +kernel⟩,
   ⟨wRun, 0, wRun, .imm 0x1000, .imm 0, 0x1000, ⟨by decide +kernel, by decide +kernel⟩, by decide +kernel, by decide +kernel,
    by decide +kernel⟩,
   ⟨wCore (fun k => { k with loops := List.replicate 4 ⟨0, 1, 0⟩ }) wRun, 0,
    wCore (fun k => { k with loops := List.replicate 4 ⟨0, 1, 0⟩ }) wRun, ⟨by decide +kernel, by decide +kernel⟩, by decide +kernel⟩,
   ⟨wRun, 0, wRun, 0, 2, 1, ⟨by decide +kernel, by decide +kernel⟩, by decide +kernel, by decide +kernel⟩⟩

/-- States and operands that meet the hypotheses of `Obligations.QueuedOperationEntersItsQueue`. -/
theorem witness_QueuedOperationEntersItsQueue :
    ∃ (s₀ : State) (s : State) (x : Instr) (i : Issue) (q : Queue) (hs : List HRef) (fs : List Flag) (ds : List Flag) (op : QOp),
    queuedOp s x = some (i, q, hs, fs, ds, op) ∧ Fetched s₀ i.core i.routine s ∧ (s.core i.core).ended = false ∧ ((∀ h ∈ hs, (s.core
    i.core).valid h ∧ (i.routine = true ∨ (s.core i.core).handle h % 4096 < 3840))) ∧ ((∀ f ∈ issueFlags i ++ fs, i.routine = true ∨
    f.val < 240)) ∧ ((∀ f ∈ ds, f.val < 240)) :=
  ⟨wRun, wRun, .txeRing wIss 2 ⟨.imm 0, none⟩ 4 5, wIss, .txe, [⟨.imm 0, none⟩], [4, 5], [], .ring 2 wD0 4 5, rfl,
   ⟨by decide +kernel, by decide +kernel⟩, by decide +kernel, by simp only [Core.valid]; decide +kernel, by decide +kernel,
   by decide +kernel⟩

/-- States and operands that meet the hypotheses of `Obligations.QueuedOperationFaultsAtIssue`. -/
theorem witness_QueuedOperationFaultsAtIssue :
    (∃ (s₀ : State) (s : State) (x : Instr) (i : Issue) (q : Queue) (hs : List HRef) (fs : List Flag) (ds : List Flag) (op : QOp),
    queuedOp s x = some (i, q, hs, fs, ds, op) ∧ Fetched s₀ i.core i.routine s ∧ ((∃ h ∈ hs, ¬ (s.core i.core).valid h))) ∧
    (∃ (s₀ : State) (s : State) (x : Instr) (i : Issue) (q : Queue) (hs : List HRef) (fs : List Flag) (ds : List Flag) (op : QOp),
    queuedOp s x = some (i, q, hs, fs, ds, op) ∧ Fetched s₀ i.core i.routine s ∧ ((∀ h ∈ hs, (s.core i.core).valid h)) ∧ i.routine =
    false ∧ ((∃ h ∈ hs, 3840 ≤ (s.core i.core).handle h % 4096))) ∧
    (∃ (s₀ : State) (s : State) (x : Instr) (i : Issue) (q : Queue) (hs : List HRef) (fs : List Flag) (ds : List Flag) (op : QOp),
    queuedOp s x = some (i, q, hs, fs, ds, op) ∧ Fetched s₀ i.core i.routine s ∧ ((∀ h ∈ hs, (s.core i.core).valid h ∧ (i.routine = true
    ∨ (s.core i.core).handle h % 4096 < 3840))) ∧ (((i.routine = false ∧ ∃ f ∈ issueFlags i ++ fs, 240 ≤ f.val) ∨ ∃ f ∈ ds, 240 ≤
    f.val))) :=
  ⟨⟨wRun, wRun, .txeRing wIss 2 ⟨.imm 0x1000, none⟩ 4 5, wIss, .txe, [⟨.imm 0x1000, none⟩], [4, 5], [], .ring 2 wD0 4 5, rfl,
    ⟨by decide +kernel, by decide +kernel⟩, by simp only [Core.valid]; decide +kernel⟩,
   ⟨wRun, wRun, .txeRing wIss 2 ⟨.imm 3840, none⟩ 4 5, wIss, .txe, [⟨.imm 3840, none⟩], [4, 5], [], .ring 2 wD0 4 5, rfl,
    ⟨by decide +kernel, by decide +kernel⟩, by simp only [Core.valid]; decide +kernel, by decide +kernel, by decide +kernel⟩,
   ⟨wRun, wRun, .txeRing wIss 2 ⟨.imm 0, none⟩ 240 5, wIss, .txe, [⟨.imm 0, none⟩], [240, 5], [], .ring 2 wD0 240 5, rfl,
    ⟨by decide +kernel, by decide +kernel⟩, by simp only [Core.valid]; decide +kernel, by decide +kernel⟩⟩

/-- States and operands that meet the hypotheses of `Obligations.EngineOperationStartsAtItsHead`. -/
theorem witness_EngineOperationStartsAtItsHead :
    (∃ (s : State) (c : CoreId) (q : Queue) (e : QEntry) (rest : List QEntry) (u : _) (code : Nat), q ≠ .txe ∧ (s.core c).queue q = e ::
    rest ∧ e.phase = .waiting ∧ (s.core c).gateOpen e = true ∧ (s.core c).isWarm q = true ∧ u = s.warmUp c q ∧ lowest (u.engineFaults c
    e.routine e.op) = some code) ∧
    (∃ (s : State) (c : CoreId) (q : Queue) (e : QEntry) (rest : List QEntry) (u : _) (v : State) (code : Nat), q ≠ .txe ∧ (s.core
    c).queue q = e :: rest ∧ e.phase = .waiting ∧ (s.core c).gateOpen e = true ∧ (s.core c).isWarm q = true ∧ u = s.warmUp c q ∧
    u.engineFaults c e.routine e.op = [] ∧ u.spePass c e.op = (v, some code)) ∧
    (∃ (s : State) (c : CoreId) (q : Queue) (e : QEntry) (rest : List QEntry) (u : _), q ≠ .txe ∧ (s.core c).queue q = e :: rest ∧
    e.phase = .waiting ∧ (s.core c).gateOpen e = true ∧ (s.core c).isWarm q = true ∧ u = s.warmUp c q ∧ u.engineFaults c e.routine e.op =
    [] ∧ u.spePass c e.op = (u, none)) :=
  ⟨⟨wVxe [wEnt (.map wD0 wD0 99)], 0, .vxe, wEnt (.map wD0 wD0 99), [], _, 0x16, by decide +kernel, by decide +kernel, by decide +kernel,
    by decide +kernel, by decide +kernel, rfl, by decide +kernel⟩,
   ⟨wPack, 0, .spe, wEnt (.pack wDS wDA false), [], _, (wPack.spePass 0 (.pack wDS wDA false)).1, 9, by decide +kernel,
    by decide +kernel, by decide +kernel, by decide +kernel, by decide +kernel, rfl, by decide +kernel, by decide +kernel⟩,
   ⟨wVxe [wEnt (.map wD0 wD0 1)], 0, .vxe, wEnt (.map wD0 wD0 1), [], _, by decide +kernel, by decide +kernel, by decide +kernel,
    by decide +kernel, by decide +kernel, rfl, by decide +kernel, by decide +kernel⟩⟩

/-- States and operands that meet the hypotheses of `Obligations.EngineOperationCompletes`. -/
theorem witness_EngineOperationCompletes :
    (∃ (s : State) (c : CoreId) (q : Queue) (i : Nat) (e : QEntry), q ≠ .txe ∧ ((s.core c).queue q)[i]? = some e ∧ e.phase = .started ∧
    (s.core c).canComplete e = true) ∧
    (∃ (s : State) (c : CoreId) (q : Queue) (i : Nat) (e : QEntry), q ≠ .txe ∧ ((s.core c).queue q)[i]? = some e ∧ e.phase = .started ∧
    (s.core c).canComplete e = true) :=
  ⟨⟨wVxe [wStart (.map wD0 wD0 1)], 0, .vxe, 0, wStart (.map wD0 wD0 1), by decide +kernel, by decide +kernel, by decide +kernel,
    by decide +kernel⟩,
   ⟨wCore (fun k => { k with mxe := [wStart (.mm wD0 wD0 wD0 true none)] }) wRun, 0, .mxe, 0, wStart (.mm wD0 wD0 wD0 true none),
    by decide +kernel, by decide +kernel, by decide +kernel, by decide +kernel⟩⟩

/-- States and operands that meet the hypotheses of `Obligations.TransferEngineOperationCompletes`. -/
theorem witness_TransferEngineOperationCompletes :
    (∃ (s : State) (c : CoreId) (i : Nat) (e : QEntry), (s.core c).txe[i]? = some e ∧ e.phase = .started ∧ e.todo = [] ∧ e.out = [] ∧
    (((∃ k h fp fc, e.op = .ring k h fp fc) ∨ (∃ a h, e.op = .digest a h ∧ a + 32 ≤ 2 ^ 21) ∨ (∃ d a tc step, e.op = .put d a tc step
    none) ∨ (∃ d a tc, e.op = .acc d a tc none) ∨ ∃ d pat tc, e.op = .fill d pat tc))) ∧
    (∃ (s : State) (c : CoreId) (i : Nat) (e : QEntry), (s.core c).txe[i]? = some e ∧ e.phase = .started ∧ e.todo = [] ∧ e.out = [] ∧
    (((∃ k h fp fc, e.op = .ring k h fp fc) ∨ (∃ a h, e.op = .digest a h ∧ a + 32 ≤ 2 ^ 21) ∨ (∃ d a tc step, e.op = .put d a tc step
    none) ∨ (∃ d a tc, e.op = .acc d a tc none) ∨ ∃ d pat tc, e.op = .fill d pat tc))) ∧
    (∃ (s : State) (c : CoreId) (i : Nat) (e : QEntry), (s.core c).txe[i]? = some e ∧ e.phase = .started ∧ e.todo = [] ∧ e.out = [] ∧
    (((∃ k h fp fc, e.op = .ring k h fp fc) ∨ (∃ a h, e.op = .digest a h ∧ a + 32 ≤ 2 ^ 21) ∨ (∃ d a tc step, e.op = .put d a tc step
    none) ∨ (∃ d a tc, e.op = .acc d a tc none) ∨ ∃ d pat tc, e.op = .fill d pat tc))) ∧
    (∃ (s : State) (c : CoreId) (i : Nat) (e : QEntry), (s.core c).txe[i]? = some e ∧ e.phase = .started ∧ e.todo = [] ∧ e.out = [] ∧
    (((∃ k h fp fc, e.op = .ring k h fp fc) ∨ (∃ a h, e.op = .digest a h ∧ a + 32 ≤ 2 ^ 21) ∨ (∃ d a tc step, e.op = .put d a tc step
    none) ∨ (∃ d a tc, e.op = .acc d a tc none) ∨ ∃ d pat tc, e.op = .fill d pat tc))) ∧
    (∃ (s : State) (c : CoreId) (i : Nat) (e : QEntry), (s.core c).txe[i]? = some e ∧ e.phase = .started ∧ e.todo = [] ∧ e.out = [] ∧
    (((∃ k h fp fc, e.op = .ring k h fp fc) ∨ (∃ a h, e.op = .digest a h ∧ a + 32 ≤ 2 ^ 21) ∨ (∃ d a tc step, e.op = .put d a tc step
    none) ∨ (∃ d a tc, e.op = .acc d a tc none) ∨ ∃ d pat tc, e.op = .fill d pat tc))) :=
  ⟨⟨wTxe [wStart (.ring 2 wD0 4 5)], 0, 0, wStart (.ring 2 wD0 4 5), by decide +kernel, by decide +kernel, by decide +kernel,
    by decide +kernel, .inl ⟨2, wD0, 4, 5, rfl⟩⟩,
   ⟨wTxe [wStart (.digest 0x1FFFE0 wD0)], 0, 0, wStart (.digest 0x1FFFE0 wD0), by decide +kernel, by decide +kernel, by decide +kernel,
    by decide +kernel, .inr (.inl ⟨0x1FFFE0, wD0, rfl, by decide⟩)⟩,
   ⟨wTxe [wStart (.put wD0 wD0 4 none none)], 0, 0, wStart (.put wD0 wD0 4 none none), by decide +kernel, by decide +kernel,
    by decide +kernel, by decide +kernel, .inr (.inr (.inl ⟨wD0, wD0, 4, none, rfl⟩))⟩,
   ⟨wTxe [wStart (.acc wD0 wD0 4 none)], 0, 0, wStart (.acc wD0 wD0 4 none), by decide +kernel, by decide +kernel, by decide +kernel,
    by decide +kernel, .inr (.inr (.inr (.inl ⟨wD0, wD0, 4, rfl⟩)))⟩,
   ⟨wTxe [wStart (.fill wD0 1 4)], 0, 0, wStart (.fill wD0 1 4), by decide +kernel, by decide +kernel, by decide +kernel,
    by decide +kernel, .inr (.inr (.inr (.inr ⟨wD0, 1, 4, rfl⟩)))⟩⟩

/-- States and operands that meet the hypotheses of `Obligations.WaitingOperationTimesOut`. -/
theorem witness_WaitingOperationTimesOut :
    (∃ (s : State) (c : CoreId) (q : Queue) (e : QEntry) (f : Flag) (v : Nat) (since : Nat) (d : Nat), (((s.core c).headIdx q).bind (fun
    i => ((s.core c).queue q)[i]?) = some e) ∧ e.gate = some (f, v) ∧ e.headAt = some since ∧ (s.core c).gateOpen e = false ∧ d = since +
    s.gateTime c ∧ d < 2 ^ 64) ∧
    (∃ (s : State) (c : CoreId) (e : QEntry) (rest : List QEntry) (dC : Desc) (a : Desc) (b : Desc) (f : Flag) (base : Nat) (axis :
    GatherAxis) (clr : Bool) (step : Option Nat) (d : Nat), (s.core c).mxe = e :: rest ∧ e.op = .mmg dC a b f base axis clr step ∧
    e.phase = .started ∧ flagGe ((s.core c).flag f) (BitVec.ofNat 32 ((base + a.e2) % 2 ^ 32)) = false ∧ d = e.startAt + s.gateTime c ∧ d
    < 2 ^ 64) ∧
    (∃ (s : State) (c : CoreId) (i : Nat) (e : QEntry) (d : Nat), (s.core c).txe[i]? = some e ∧ e.phase ≠ .waiting ∧ e.out ++ e.todo ≠ []
    ∧ d = e.startAt + s.remoteTime c ∧ d < 2 ^ 64) ∧
    (∃ (s : State) (c : CoreId) (i : Nat) (e : QEntry) (d : Nat), (s.core c).txe[i]? = some e ∧ e.phase ≠ .waiting ∧ e.out ++ e.todo ≠ []
    ∧ d = e.startAt + s.remoteTime c ∧ d < 2 ^ 64) ∧
    (∃ (s : State) (c : CoreId) (tag : BitVec 16) (i : Nat) (j : _) (e : QEntry) (o : OutPkt) (since : Nat) (u : _), (s.core c).findOut
    tag.toNat = some (i, j) ∧ (s.core c).txe[i]? = some e ∧ e.out[j]? = some o ∧ o.full = some since ∧ since + 1024 < 2 ^ 64 ∧ max s.now
    (since + 1024) < e.startAt + s.remoteTime c ∧ u = (s.advanceTo (since + 1024)).setEntry c .txe i { e with out := e.out.set j { o with
    full := none } } ∧ u.onDie c o.pkt = false) :=
  ⟨⟨wVxe [wGated], 0, .vxe, wGated, 3, 8, 5000, 5000 + wRun.gateTime 0, by decide +kernel, by decide +kernel, by decide +kernel,
    by decide +kernel, by decide +kernel, by decide +kernel⟩,
   ⟨wCore (fun k => { k with mxe := [wMmg] }) wRun, 0, wMmg, [], wD0, { wD0 with rankM1 := 2, ext := (1, 1, 2, 1) }, wD0, 3, 7, .k,
    false, none, 5000 + wRun.gateTime 0, by decide +kernel, by decide +kernel, by decide +kernel, by decide +kernel, by decide +kernel,
    by decide +kernel⟩,
   ⟨wTxe [wPut], 0, 0, wPut, 5000 + wRun.remoteTime 0, by decide +kernel, by decide +kernel, by decide +kernel, by decide +kernel,
    by decide +kernel⟩,
   ⟨(wTxe [wPut]).setObj (Obj.fn_STATE 8) 4, 0, 0, wPut, 5000 + wRun.remoteTime 0, by decide +kernel, by decide +kernel,
    by decide +kernel, by decide +kernel, by decide +kernel⟩,
   ⟨wTxe [wPut], 0, 9, 0, 0, wPut, ⟨wPkt, 0, some 5000⟩, 5000, _, by decide +kernel, by decide +kernel, by decide +kernel,
    by decide +kernel, by decide +kernel, by decide +kernel, rfl, by decide +kernel⟩⟩

/-- States and operands that meet the hypotheses of `Obligations.CollectiveStartsOrIsRefused`. -/
theorem witness_CollectiveStartsOrIsRefused :
    (∃ (s₀ : State) (s : State) (c : CoreId) (n : Nat) (u : _) (off : _) (x : _) (code : _), Fetched s₀ c false s ∧ s.coreParcel c = some
    n ∧ s.early = [] ∧ u = s.issued c false ∧ off = u.argReg c 1 ∧ x = u.collBuild n c off (u.collRecord c off) ∧ code = u.collRefusal n
    c off x (u.collRecord c off) ∧ code ≠ 0) ∧
    (∃ (s₀ : State) (s : State) (c : CoreId) (n : Nat) (u : _) (off : _) (x : _) (code : _), Fetched s₀ c false s ∧ s.coreParcel c = some
    n ∧ s.early = [] ∧ u = s.issued c false ∧ off = u.argReg c 1 ∧ x = u.collBuild n c off (u.collRecord c off) ∧ code = u.collRefusal n
    c off x (u.collRecord c off) ∧ code = 0 ∧ u.slot < x.startSlot) :=
  ⟨⟨wRun, wRun, 0, 0, _, _, _, _, ⟨by decide +kernel, by decide +kernel⟩, by decide +kernel, by decide +kernel, rfl, rfl, rfl, rfl,
    by decide +kernel⟩,
   ⟨wColl 1, wColl 1, 0, 0, _, _, _, _, ⟨by decide +kernel, by decide +kernel⟩, by decide +kernel, by decide +kernel, rfl, rfl, rfl, rfl,
    by decide +kernel, by decide +kernel⟩⟩

/-- States and operands that meet the hypotheses of `Obligations.CollectiveWaitReturnsItsInstance`. -/
theorem witness_CollectiveWaitReturnsItsInstance :
    (∃ (s₀ : State) (s : State) (c : CoreId) (g : _) (q : _), Fetched s₀ c false s ∧ (s.core c).ended = false ∧ s.early = [] ∧ g =
    s.argReg c 1 ∧ q = s.argReg c 2 % 2 ^ 32 ∧ ((∀ x, s.collOf g q = some x → s.coreParcel c ≠ some x.parcel))) ∧
    (∃ (s₀ : State) (s : State) (c : CoreId) (g : _) (q : _) (x : Coll), Fetched s₀ c false s ∧ (s.core c).ended = false ∧ s.early = [] ∧
    g = s.argReg c 1 ∧ q = s.argReg c 2 % 2 ^ 32 ∧ s.collOf g q = some x ∧ s.coreParcel c = some x.parcel ∧ (x.failed = true ∨ x.written
    = true)) ∧
    (∃ (s₀ : State) (s : State) (c : CoreId) (g : _) (q : _) (x : Coll), Fetched s₀ c false s ∧ (s.core c).ended = false ∧ s.early = [] ∧
    g = s.argReg c 1 ∧ q = s.argReg c 2 % 2 ^ 32 ∧ s.collOf g q = some x ∧ s.coreParcel c = some x.parcel ∧ (x.failed = true ∨ x.written
    = true)) ∧
    (∃ (s₀ : State) (s : State) (c : CoreId) (g : _) (q : _) (x : Coll), Fetched s₀ c false s ∧ (s.core c).ended = false ∧ s.early = [] ∧
    g = s.argReg c 1 ∧ q = s.argReg c 2 % 2 ^ 32 ∧ s.collOf g q = some x ∧ s.coreParcel c = some x.parcel ∧ x.failed = false ∧ x.written
    = false) :=
  ⟨⟨wWait [], wWait [], 0, _, _, ⟨by decide +kernel, by decide +kernel⟩, by decide +kernel, by decide +kernel, rfl, rfl,
    fun x h => nomatch (show (none : Option Coll) = some x from h)⟩,
   ⟨wWait [{ wCtx (wColl 1) with failed := true }], wWait [{ wCtx (wColl 1) with failed := true }], 0, _, _,
    { wCtx (wColl 1) with failed := true }, ⟨by decide +kernel, by decide +kernel⟩, by decide +kernel, by decide +kernel, rfl, rfl,
    by decide +kernel, by decide +kernel, by decide +kernel⟩,
   ⟨wWait [{ wCtx (wColl 1) with written := true, excess := 20 }], wWait [{ wCtx (wColl 1) with written := true, excess := 20 }], 0, _,
    _, { wCtx (wColl 1) with written := true, excess := 20 }, ⟨by decide +kernel, by decide +kernel⟩, by decide +kernel,
    by decide +kernel, rfl, rfl, by decide +kernel, by decide +kernel, by decide +kernel⟩,
   ⟨wWait [wCtx (wColl 1)], wWait [wCtx (wColl 1)], 0, _, _, wCtx (wColl 1), ⟨by decide +kernel, by decide +kernel⟩, by decide +kernel,
    by decide +kernel, rfl, rfl, by decide +kernel, by decide +kernel, by decide +kernel, by decide +kernel⟩⟩

/-- States and operands that meet the hypotheses of `Obligations.AnchorRetryClearsAndStartsItsAttempt`. -/
theorem witness_AnchorRetryClearsAndStartsItsAttempt :
    ∃ (s₀ : State) (s : State) (c : CoreId) (n : Nat), Fetched s₀ c false s ∧ s.coreParcel c = some n ∧ s.argReg c 1 % 8 = 0 ∧ s.argReg c
    1 + 128 ≤ 2 ^ 21 :=
  ⟨{ wColl 1 with mem := (wColl 1).mem ++ [(0x2000, 7)] }, { wColl 1 with mem := (wColl 1).mem ++ [(0x2000, 7)] }, 0, 0,
   ⟨by decide +kernel, by decide +kernel⟩, by decide +kernel, by decide +kernel, by decide +kernel⟩

/-- States and operands that meet the hypotheses of `Obligations.OptimizerStepRunsItsRecord`. -/
theorem witness_OptimizerStepRunsItsRecord :
    (∃ (s₀ : State) (s : State) (c : CoreId) (n : Nat) (u : _) (r : _) (code : Nat), Fetched s₀ c false s ∧ s.coreParcel c = some n ∧
    ((s.core c).reg 3).toNat = 1 ∧ ((s.core c).reg 1).toNat % 8 = 0 ∧ ((s.core c).reg 1).toNat + 64 ≤ 2 ^ 21 ∧ u = s.issued c false ∧ r =
    u.optRec (c.val * 2 ^ 21 + ((s.core c).reg 1).toNat) ∧ lowest (u.optFaults c n r) = some code) ∧
    (∃ (s₀ : State) (s : State) (c : CoreId) (n : Nat) (u : _) (r : _), Fetched s₀ c false s ∧ s.coreParcel c = some n ∧ ((s.core c).reg
    3).toNat = 1 ∧ ((s.core c).reg 1).toNat % 8 = 0 ∧ ((s.core c).reg 1).toNat + 64 ≤ 2 ^ 21 ∧ u = s.issued c false ∧ r = u.optRec (c.val
    * 2 ^ 21 + ((s.core c).reg 1).toNat) ∧ u.optFaults c n r = [] ∧ u.bad = []) ∧
    (∃ (s₀ : State) (s : State) (c : CoreId) (n : Nat), Fetched s₀ c false s ∧ s.coreParcel c = some n ∧ (((s.core c).reg 3).toNat = 0 ∨
    256 < ((s.core c).reg 3).toNat)) ∧
    (∃ (s₀ : State) (s : State) (c : CoreId) (n : Nat), Fetched s₀ c false s ∧ s.coreParcel c = some n ∧ (((s.core c).reg 3).toNat = 0 ∨
    256 < ((s.core c).reg 3).toNat)) ∧
    (∃ (s₀ : State) (s : State) (c : CoreId) (n : Nat), Fetched s₀ c false s ∧ s.coreParcel c = some n) :=
  ⟨⟨wOpt 1, wOpt 1, 0, 0, _, _, 2, ⟨by decide +kernel, by decide +kernel⟩, by decide +kernel, by decide +kernel, by decide +kernel,
    by decide +kernel, rfl, rfl, by decide +kernel⟩,
   ⟨wOptGood, wOptGood, 0, 0, _, _, ⟨by decide +kernel, by decide +kernel⟩, by decide +kernel, by decide +kernel, by decide +kernel,
    by decide +kernel, rfl, rfl, by decide +kernel, by decide +kernel⟩,
   ⟨wOpt 0, wOpt 0, 0, 0, ⟨by decide +kernel, by decide +kernel⟩, by decide +kernel, by decide +kernel⟩,
   ⟨wOpt 257, wOpt 257, 0, 0, ⟨by decide +kernel, by decide +kernel⟩, by decide +kernel, by decide +kernel⟩,
   ⟨wOpt 1, wOpt 1, 0, 0, ⟨by decide +kernel, by decide +kernel⟩, by decide +kernel⟩⟩

/-- States and operands that meet the hypotheses of `Obligations.JobStartInstallsTheJob`. -/
theorem witness_JobStartInstallsTheJob :
    (∃ (s₀ : State) (s : State) (c : CoreId) (n : Nat), Fetched s₀ c false s ∧ s.coreParcel c = some n ∧ s.parMode n ≠ 2) ∧
    (∃ (s₀ : State) (s : State) (c : CoreId) (n : Nat) (g : _), Fetched s₀ c false s ∧ s.coreParcel c = some n ∧ g = s.argReg c 3 % 2 ^
    16 ∧ s.parMode n = 2 ∧ (s.parcel n).adopting = none ∧ (s.parcel n).job = none ∧ s.mustAdopt n g = false ∧ s.bad = [] ∧ s.jobGroupOk n
    g = false) ∧
    (∃ (s₀ : State) (s : State) (c : CoreId) (n : Nat) (g : _), Fetched s₀ c false s ∧ s.coreParcel c = some n ∧ g = s.argReg c 3 % 2 ^
    16 ∧ s.parMode n = 2 ∧ (s.parcel n).adopting = none ∧ (s.parcel n).job = none ∧ s.mustAdopt n g = false ∧ s.bad = [] ∧ s.jobGroupOk n
    g = true ∧ s.jobState n = 7) ∧
    (∃ (s₀ : State) (s : State) (c : CoreId) (n : Nat) (g : _), Fetched s₀ c false s ∧ s.coreParcel c = some n ∧ g = s.argReg c 3 % 2 ^
    16 ∧ s.parMode n = 2 ∧ (s.parcel n).adopting = none ∧ (s.parcel n).job = none ∧ s.mustAdopt n g = false ∧ s.bad = [] ∧ s.jobGroupOk n
    g = true ∧ s.jobState n ≠ 7 ∧ recPresent (s.recordBytes n) = false ∧ s.obj (Obj.parmem_PARK_STATE n) ≠ 2) ∧
    (∃ (s₀ : State) (s : State) (c : CoreId) (n : Nat) (l : List Nat) (cs : List Nat), Fetched s₀ c false s ∧ s.coreParcel c = some n ∧
    s.parMode n = 2 ∧ (s.parcel n).adopting = none ∧ (s.parcel n).job = some (l, cs) ∧ c.val ∉ cs ∧ l.length ≤ 2) :=
  ⟨⟨wJob 1, wJob 1, 0, 0, ⟨by decide +kernel, by decide +kernel⟩, by decide +kernel, by decide +kernel⟩,
   ⟨(wJob 2).setObj (Obj.grp_ENTRY 0) 0, (wJob 2).setObj (Obj.grp_ENTRY 0) 0, 0, 0, _, ⟨by decide +kernel, by decide +kernel⟩,
    by decide +kernel, rfl, by decide +kernel, by decide +kernel, by decide +kernel, by decide +kernel, by decide +kernel,
    by decide +kernel⟩,
   ⟨(wJob 2).setObj (Obj.res_JOB_STATE 0) 7, (wJob 2).setObj (Obj.res_JOB_STATE 0) 7, 0, 0, _, ⟨by decide +kernel, by decide +kernel⟩,
    by decide +kernel, rfl, by decide +kernel, by decide +kernel, by decide +kernel, by decide +kernel, by decide +kernel,
    by decide +kernel, by decide +kernel⟩,
   ⟨wJob 2, wJob 2, 0, 0, _, ⟨by decide +kernel, by decide +kernel⟩, by decide +kernel, rfl, by decide +kernel, by decide +kernel,
    by decide +kernel, by decide +kernel, by decide +kernel, by decide +kernel, by decide +kernel, by decide +kernel, by decide +kernel⟩,
   ⟨(wJob 2).modParcel 0 (fun p => { p with job := some ([0, 5], [1]) }),
    (wJob 2).modParcel 0 (fun p => { p with job := some ([0, 5], [1]) }), 0, 0, [0, 5], [1], ⟨by decide +kernel, by decide +kernel⟩,
    by decide +kernel, by decide +kernel, by decide +kernel, by decide +kernel, by decide +kernel, by decide +kernel⟩⟩

/-- States and operands that meet the hypotheses of `Obligations.StepBeginStartsTheNextStep`. -/
theorem witness_StepBeginStartsTheNextStep :
    (∃ (s₀ : State) (s : State) (c : CoreId) (n : Nat) (step : _), Fetched s₀ c false s ∧ (s.core c).ended = false ∧ s.coreParcel c =
    some n ∧ s.parMode n = 2 ∧ step = s.argReg c 1 % 2 ^ 32 ∧ step ≠ (s.obj (Obj.pardig_RESULT_STEP n) + 1) % 2 ^ 32) ∧
    (∃ (s₀ : State) (s : State) (c : CoreId) (n : Nat) (step : _) (slot : _), Fetched s₀ c false s ∧ (s.core c).ended = false ∧
    s.coreParcel c = some n ∧ s.parMode n = 2 ∧ step = s.argReg c 1 % 2 ^ 32 ∧ slot = s.argReg c 2 ∧ step = (s.obj
    (Obj.pardig_RESULT_STEP n) + 1) % 2 ^ 32 ∧ (s.parcel n).begun = none ∧ s.now < slot * 1024) ∧
    (∃ (s₀ : State) (s : State) (c : CoreId) (n : Nat) (step : _) (slot : _) (m : Nat) (y : Nat), Fetched s₀ c false s ∧ (s.core c).ended
    = false ∧ s.coreParcel c = some n ∧ s.parMode n = 2 ∧ step = s.argReg c 1 % 2 ^ 32 ∧ slot = s.argReg c 2 ∧ step = (s.obj
    (Obj.pardig_RESULT_STEP n) + 1) % 2 ^ 32 ∧ (s.parcel n).begun = some (m, y) ∧ ¬ (m = step ∧ y = slot)) ∧
    (∃ (s₀ : State) (s : State) (c : CoreId) (n : Nat) (step : _) (slot : _) (m : Nat) (y : Nat), Fetched s₀ c false s ∧ (s.core c).ended
    = false ∧ s.coreParcel c = some n ∧ s.parMode n = 2 ∧ step = s.argReg c 1 % 2 ^ 32 ∧ slot = s.argReg c 2 ∧ step = (s.obj
    (Obj.pardig_RESULT_STEP n) + 1) % 2 ^ 32 ∧ (s.parcel n).begun = some (m, y) ∧ m = step ∧ y = slot ∧ s.now < slot * 1024) :=
  ⟨⟨wRun, wRun, 0, 0, _, ⟨by decide +kernel, by decide +kernel⟩, by decide +kernel, by decide +kernel, by decide +kernel, rfl,
    by decide +kernel⟩,
   ⟨wStep, wStep, 0, 0, _, _, ⟨by decide +kernel, by decide +kernel⟩, by decide +kernel, by decide +kernel, by decide +kernel, rfl, rfl,
    by decide +kernel, by decide +kernel, by decide +kernel⟩,
   ⟨wStep.modParcel 0 (fun p => { p with begun := some (1, 99) }), wStep.modParcel 0 (fun p => { p with begun := some (1, 99) }), 0, 0,
    _, _, 1, 99, ⟨by decide +kernel, by decide +kernel⟩, by decide +kernel, by decide +kernel, by decide +kernel, rfl, rfl,
    by decide +kernel, by decide +kernel, by decide +kernel⟩,
   ⟨wStep.modParcel 0 (fun p => { p with begun := some (1, 100) }), wStep.modParcel 0 (fun p => { p with begun := some (1, 100) }), 0, 0,
    _, _, 1, 100, ⟨by decide +kernel, by decide +kernel⟩, by decide +kernel, by decide +kernel, by decide +kernel, rfl, rfl,
    by decide +kernel, by decide +kernel, by decide +kernel, by decide +kernel, by decide +kernel⟩⟩

/-- States and operands that meet the hypotheses of `Obligations.StepRoutinesGatherTheirCalls`. -/
theorem witness_StepRoutinesGatherTheirCalls :
    (∃ (s₀ : State) (s : State) (c : CoreId) (n : Nat), Fetched s₀ c false s ∧ (s.core c).ended = false ∧ s.coreParcel c = some n ∧
    s.parMode n = 2 ∧ s.argReg c 4 ≤ 64 ∧ s.argReg c 3 ≤ 1 ∧ s.argReg c 5 + 32 * s.argReg c 4 ≤ 2 ^ 21) ∧
    (∃ (s₀ : State) (s : State) (c : CoreId) (n : Nat), Fetched s₀ c false s ∧ (s.core c).ended = false ∧ s.coreParcel c = some n ∧
    s.parMode n = 2 ∧ s.allIn n (c.val :: (s.parcel n).calls) = false) :=
  ⟨⟨wCore (fun k => { k with regs := [(1, 1), (2, 200), (3, 1), (4, 64), (5, 0x1FF800)] }) wRun,
    wCore (fun k => { k with regs := [(1, 1), (2, 200), (3, 1), (4, 64), (5, 0x1FF800)] }) wRun, 0, 0,
    ⟨by decide +kernel, by decide +kernel⟩, by decide +kernel, by decide +kernel, by decide +kernel, by decide +kernel,
    by decide +kernel, by decide +kernel⟩,
   ⟨wTwo, wTwo, 0, 0, ⟨by decide +kernel, by decide +kernel⟩, by decide +kernel, by decide +kernel, by decide +kernel, by decide +kernel⟩⟩

/-- States and operands that meet the hypotheses of `Obligations.CompletedCollectiveWritesItsRecord`. -/
theorem witness_CompletedCollectiveWritesItsRecord :
    ∃ (s : State) (group : BitVec 16) (cseq : BitVec 32) (x : Coll), s.collOf group.toNat cseq.toNat = some x ∧ x.complete = true ∧
    x.written = false ∧ x.by_ = .program ∧ x.core < 1152 ∧ x.record + 128 ≤ 2 ^ 21 ∧ x.digest.length = 32 ∧ x.flag < 256 ∧ s.early = [] ∧
    ((∀ b ro a k g q, (s.core b).lib ≠ some (.retry ro a k g q))) :=
  ⟨{ wColl 1 with colls := [wDone], cores := [] }, 0, 0, wDone, by decide +kernel, by decide +kernel, by decide +kernel,
   by decide +kernel, by decide +kernel, by decide +kernel, by decide +kernel, by decide +kernel, by decide +kernel,
   fun _ ro a k g q h => nomatch (show (none : Option LibWait) = some (.retry ro a k g q) from h)⟩

/-- States and operands that meet the hypotheses of `Obligations.AdoptionEndsJobStart`. -/
theorem witness_AdoptionEndsJobStart :
    ∃ (s : State) (n : ParcelId) (seed : Nat) (first : Nat) (g : Nat), s.parState n = 3 ∧ s.jobState n ≠ 3 ∧ (s.parcel n).adopting = some
    [seed, first, g] :=
  ⟨wIn .adopt (wPar (fun p => { p with adopting := some [77, 5, 0] }) (wTrain 0)), 0, 77, 5, 0, by decide +kernel, by decide +kernel,
   by decide +kernel⟩

/-- States and operands that meet the hypotheses of `Obligations.CommitBeginsIsDecidedOrTimesOut`. -/
theorem witness_CommitBeginsIsDecidedOrTimesOut :
    (∃ (s : State) (n : ParcelId) (r : CommitRec), (s.parcel n).commit = some r ∧ (s.jobState n = 1 ∨ s.jobState n = 5) ∧ s.allIn n
    r.cores = true ∧ s.allIdle n = true ∧ s.stepInstancesDone n = true) ∧
    (∃ (s : State) (n : ParcelId) (r : CommitRec) (x : Coll), (s.parcel n).commit = some r ∧ s.jobState n = 2 ∧ (s.parcel n).decided =
    none ∧ s.isShadow n = false ∧ s.commitColl n r = some x ∧ x.complete = true ∧ x.written = true ∧ s.now ≤ s.commitDue n r ∧ x.status =
    0 ∧ x.sums.getD 32 0 = (x.n : Int)) ∧
    (∃ (s : State) (n : ParcelId) (r : CommitRec) (x : Coll), (s.parcel n).commit = some r ∧ s.jobState n = 2 ∧ (s.parcel n).decided =
    none ∧ s.isShadow n = false ∧ s.commitColl n r = some x ∧ x.complete = true ∧ x.written = true ∧ s.now ≤ s.commitDue n r ∧ ¬
    (x.status = 0 ∧ x.sums.getD 32 0 = (x.n : Int))) ∧
    (∃ (s : State) (n : ParcelId) (r : CommitRec) (due : Nat) (q : Nat), (s.parcel n).commit = some r ∧ s.jobState n = 2 ∧ (s.parcel
    n).decided = none ∧ s.isShadow n = false ∧ r.cseq = some q ∧ s.commitInTime n r = false ∧ due = r.startAt + s.obj
    (Obj.res_COMMIT_TIMEOUT n) * 1024 ∧ due < 2 ^ 64) :=
  ⟨⟨wPar (fun p => { p with commit := some wRec }) (wTrain 1), 0, wRec, by decide +kernel, by decide +kernel, by decide +kernel,
    by decide +kernel, by decide +kernel⟩,
   ⟨wCommit none wVote, 0, wRecQ, wVote, by decide +kernel, by decide +kernel, by decide +kernel, by decide +kernel, by decide +kernel,
    by decide +kernel, by decide +kernel, by decide +kernel, by decide +kernel, by decide +kernel⟩,
   ⟨wCommit none { wVote with status := 1 }, 0, wRecQ, { wVote with status := 1 }, by decide +kernel, by decide +kernel,
    by decide +kernel, by decide +kernel, by decide +kernel, by decide +kernel, by decide +kernel, by decide +kernel, by decide +kernel⟩,
   ⟨{ wCommit none wVote with ft := -1 }, 0, wRecQ, 5000 + (wCommit none wVote).obj (Obj.res_COMMIT_TIMEOUT 0) * 1024, 0,
    by decide +kernel, by decide +kernel, by decide +kernel, by decide +kernel, by decide +kernel, by decide +kernel, by decide +kernel,
    by decide +kernel⟩⟩

/-- States and operands that meet the hypotheses of `Obligations.CommittedStepTakesEffect`. -/
theorem witness_CommittedStepTakesEffect :
    (∃ (s : State) (n : ParcelId) (r : CommitRec) (d : Nat) (at_ : Nat) (x : Coll), (s.parcel n).commit = some r ∧ (s.parcel n).decided =
    some d ∧ (s.parcel n).late = false ∧ s.jobState n = 2 ∧ s.isShadow n = false ∧ s.commitColl n r = some x ∧ at_ = (if d < r.tc then
    r.tc else d + 1) ∧ at_ * 1024 < 2 ^ 64) ∧
    (∃ (s : State) (n : ParcelId) (r : CommitRec) (d : Nat) (at_ : Nat) (x : Coll), (s.parcel n).commit = some r ∧ (s.parcel n).decided =
    some d ∧ (s.parcel n).late = false ∧ s.jobState n = 2 ∧ s.isShadow n = false ∧ s.commitColl n r = some x ∧ at_ = (if d < r.tc then
    r.tc else d + 1) ∧ at_ * 1024 < 2 ^ 64) :=
  ⟨⟨wIn .commit (wCommit (some 100) wVote), 0, wRecQ, 100, 200, wVote, by decide +kernel, by decide +kernel, by decide +kernel,
    by decide +kernel, by decide +kernel, by decide +kernel, by decide +kernel, by decide +kernel⟩,
   ⟨wIn .commit (wCommit (some 200) wVote), 0, wRecQ, 200, 201, wVote, by decide +kernel, by decide +kernel, by decide +kernel,
    by decide +kernel, by decide +kernel, by decide +kernel, by decide +kernel, by decide +kernel⟩⟩

/-- States and operands that meet the hypotheses of `Obligations.RollbackAndReadyAgreementEnd`. -/
theorem witness_RollbackAndReadyAgreementEnd :
    (∃ (s : State) (n : ParcelId), s.jobState n = 3 ∧ s.parActive n = true ∧ s.enginesDone n = true ∧ (s.parcel n).reclaim ≠ 2) ∧
    (∃ (s : State) (n : ParcelId) (q : Nat) (x : Coll) (due : Nat), (s.parcel n).ready = some q ∧ s.collOf (s.obj (Obj.res_JOB_GROUP n))
    q = some x ∧ x.parcel = n.val ∧ ((x.complete = false ∨ due < s.now)) ∧ due = x.startAt + s.obj (Obj.res_RESUME_TIMEOUT n) * 1024 ∧
    due < 2 ^ 64) :=
  ⟨⟨wTrain 3, 0, by decide +kernel, by decide +kernel, by decide +kernel, by decide +kernel⟩,
   ⟨{ wIn .ready (wPar (fun p => { p with ready := some 0 }) (wTrain 4)) with colls := [wDone], ft := -1 }, 0, 0, wDone,
    5000 + (wTrain 4).obj (Obj.res_RESUME_TIMEOUT 0) * 1024, by decide +kernel, by decide +kernel, by decide +kernel, by decide +kernel,
    by decide +kernel, by decide +kernel⟩⟩

/-- States and operands that meet the hypotheses of `Obligations.ReclaimRunsThroughItsPhases`. -/
theorem witness_ReclaimRunsThroughItsPhases :
    (∃ (s : State) (n : ParcelId) (due : Nat), (s.parcel n).reclaim = 1 ∧ due = (s.parcel n).reclaimSlot * 1024 ∧ due < 2 ^ 64 ∧
    s.jobState n = 2) ∧
    (∃ (s : State) (n : ParcelId) (due : Nat), (s.parcel n).reclaim = 1 ∧ due = (s.parcel n).reclaimSlot * 1024 ∧ due < 2 ^ 64 ∧
    s.jobState n = 3) ∧
    (∃ (s : State) (n : ParcelId) (due : Nat), (s.parcel n).reclaim = 1 ∧ due = (s.parcel n).reclaimSlot * 1024 ∧ due < 2 ^ 64 ∧
    s.jobState n ≠ 2 ∧ s.jobState n ≠ 3) ∧
    (∃ (s : State) (n : ParcelId) (due : Nat), (s.parcel n).reclaim = 1 ∧ due = (s.parcel n).reclaimSlot * 1024 ∧ due < 2 ^ 64 ∧
    s.jobState n ≠ 2 ∧ s.jobState n ≠ 3) ∧
    (∃ (s : State) (n : ParcelId), (s.parcel n).reclaim = 2 ∧ s.jobState n ≠ 3 ∧ s.enginesDone n = true) ∧
    (∃ (s : State) (n : ParcelId), (s.parcel n).reclaim = 2 ∧ s.jobState n ≠ 3 ∧ s.enginesDone n = true) ∧
    (∃ (s : State) (n : ParcelId), (s.parcel n).reclaim = 3 ∧ s.jobState n = 6 ∧ s.bad = []) :=
  ⟨⟨wPar (fun p => { p with reclaim := 1, reclaimSlot := 100 }) (wTrain 2), 0, 102400, by decide +kernel, by decide +kernel,
    by decide +kernel, by decide +kernel⟩,
   ⟨wPar (fun p => { p with reclaim := 1, reclaimSlot := 100 }) (wTrain 3), 0, 102400, by decide +kernel, by decide +kernel,
    by decide +kernel, by decide +kernel⟩,
   ⟨wPar (fun p => { p with reclaim := 1, reclaimSlot := 100 }) (wTrain 1), 0, 102400, by decide +kernel, by decide +kernel,
    by decide +kernel, by decide +kernel, by decide +kernel⟩,
   ⟨wPar (fun p => { p with reclaim := 1, reclaimSlot := 100 }) (wTrain 7), 0, 102400, by decide +kernel, by decide +kernel,
    by decide +kernel, by decide +kernel, by decide +kernel⟩,
   ⟨wPar (fun p => { p with reclaim := 2, reclaimSlot := 100 }) (wTrain 6), 0, by decide +kernel, by decide +kernel, by decide +kernel⟩,
   ⟨wPar (fun p => { p with reclaim := 2, reclaimSlot := 100 }) (wTrain 7), 0, by decide +kernel, by decide +kernel, by decide +kernel⟩,
   ⟨wPar (fun p => { p with reclaim := 3, reclaimSlot := 100 }) (wTrain 6), 0, by decide +kernel, by decide +kernel, by decide +kernel⟩⟩

/-- States and operands that meet the hypotheses of `Obligations.ClearsLeaveZeroes`. -/
theorem witness_ClearsLeaveZeroes :
    (∃ (s : State) (k : Fin 6), k.val ∈ s.dieClears) ∧
    (∃ (s : State) (j : EngineId), j.val ∈ s.steClears) :=
  ⟨⟨{ wColl 1 with dieClears := [0] }, 0, by decide +kernel⟩,
   ⟨{ wColl 1 with steClears := [47], mem := [(9895604649984 - 1048576 * 1048576, 1), (4 * 2 ^ 41 + 47 * 2 ^ 20, 5)] }, 47,
    by decide +kernel⟩⟩

/-- States and operands that meet the hypotheses of `Obligations.LinkUnitsAreAcceptedInOrder`. -/
theorem witness_LinkUnitsAreAcceptedInOrder :
    (∃ (s : State) (p : PortId) (lu : Bytes), s.linkOpen p = true ∧ (unitKind lu = 1 ∨ unitKind lu = 2) ∧ unitGood lu = false) ∧
    (∃ (s : State) (p : PortId) (lu : Bytes) (l : _), s.linkOpen p = true ∧ (unitKind lu = 1 ∨ unitKind lu = 2) ∧ l = (s.link p).acked
    (unitAck lu) s.now ∧ unitGood lu = true ∧ unitNak lu = false ∧ unitSeq lu ≠ (l.accepted + 1) % 4096) ∧
    (∃ (s : State) (p : PortId) (lu : Bytes) (l : _), s.linkOpen p = true ∧ (unitKind lu = 1 ∨ unitKind lu = 2) ∧ l = (s.link p).acked
    (unitAck lu) s.now ∧ unitGood lu = true ∧ unitNak lu = false ∧ unitSeq lu = (l.accepted + 1) % 4096 ∧ 4 ≤ (s.stageOf p).cells.length) ∧
    (∃ (s : State) (p : PortId) (lu : Bytes) (l : _), s.linkOpen p = true ∧ (unitKind lu = 1 ∨ unitKind lu = 2) ∧ l = (s.link p).acked
    (unitAck lu) s.now ∧ unitGood lu = true ∧ unitNak lu = false ∧ unitSeq lu = (l.accepted + 1) % 4096 ∧ (s.stageOf p).cells.length < 4) :=
  ⟨⟨wLink, 0, (wUnit 0).set 3 9, by decide +kernel, by decide +kernel, by decide +kernel⟩,
   ⟨wLink, 0, wUnit 1, _, by decide +kernel, by decide +kernel, rfl, by decide +kernel, by decide +kernel, by decide +kernel⟩,
   ⟨wLink.setStage 0 { Stage.reset with cells := List.replicate 4 ⟨[], true, true, 0, [], 0, 0, none, false, wAt, none, none, none⟩ }, 0,
    wUnit 0, _, by decide +kernel, by decide +kernel, rfl, by decide +kernel, by decide +kernel, by decide +kernel, by decide +kernel⟩,
   ⟨wLink, 0, wUnit 0, _, by decide +kernel, by decide +kernel, rfl, by decide +kernel, by decide +kernel, by decide +kernel,
    by decide +kernel⟩⟩

/-- States and operands that meet the hypotheses of `Obligations.ReplayResendsEveryUnacknowledgedUnit`. -/
theorem witness_ReplayResendsEveryUnacknowledgedUnit :
    (∃ (s : State) (p : PortId) (due : Nat), s.linkOpen p = true ∧ (s.link p).replay ≠ [] ∧ due = (s.link p).progressAt + s.obj
    Obj.topo_REPLAY_TIMEOUT * 1024 ∧ due < 2 ^ 64 ∧ (s.link p).stuck < 8) ∧
    (∃ (s : State) (p : PortId) (due : Nat), s.linkOpen p = true ∧ (s.link p).replay ≠ [] ∧ due = (s.link p).progressAt + s.obj
    Obj.topo_REPLAY_TIMEOUT * 1024 ∧ due < 2 ^ 64 ∧ 8 ≤ (s.link p).stuck) :=
  ⟨⟨wUnack 7, 0, 5000 + wLink.obj Obj.topo_REPLAY_TIMEOUT * 1024, by decide +kernel, by decide +kernel, by decide +kernel,
    by decide +kernel, by decide +kernel⟩,
   ⟨wUnack 8, 0, 5000 + wLink.obj Obj.topo_REPLAY_TIMEOUT * 1024, by decide +kernel, by decide +kernel, by decide +kernel,
    by decide +kernel, by decide +kernel⟩⟩

/-- States and operands that meet the hypotheses of `Obligations.ControlUnitsBringLinksUp`. -/
theorem witness_ControlUnitsBringLinksUp :
    (∃ (s : State) (p : PortId) (lu : Bytes), p.val < 125 ∧ s.obj (Obj.port_ROLE p) = 1 ∧ (s.link p).locked = true ∧ unitGood lu = true ∧
    unitKind lu = 3 ∧ s.portsDisabled = false ∧ s.linkUp p = false ∧ (peerOf lu).disabled = false ∧ s.expected p = some ((peerOf
    lu).group, (peerOf lu).position, (peerOf lu).port) ∧ s.fabricOn = true) ∧
    (∃ (s : State) (p : PortId) (lu : Bytes), p.val < 125 ∧ s.obj (Obj.port_ROLE p) = 1 ∧ (s.link p).locked = true ∧ unitGood lu = true ∧
    unitKind lu = 3 ∧ s.portsDisabled = false ∧ s.linkUp p = false ∧ (peerOf lu).disabled = false ∧ s.expected p ≠ some ((peerOf
    lu).group, (peerOf lu).position, (peerOf lu).port)) ∧
    (∃ (s : State) (p : PortId), p.val < 125 ∧ s.obj (Obj.port_ROLE p) = 1 ∧ (s.link p).locked = true) :=
  ⟨⟨wTrained, 0, wPeer 1, by decide +kernel, by decide +kernel, by decide +kernel, by decide +kernel, by decide +kernel,
    by decide +kernel, by decide +kernel, by decide +kernel, by decide +kernel, by decide +kernel⟩,
   ⟨wTrained, 0, wPeer 2, by decide +kernel, by decide +kernel, by decide +kernel, by decide +kernel, by decide +kernel,
    by decide +kernel, by decide +kernel, by decide +kernel, by decide +kernel⟩,
   ⟨wTrained, 0, by decide +kernel, by decide +kernel, by decide +kernel⟩⟩

/-- States and operands that meet the hypotheses of `Obligations.TrainingStartsTheLinkLayerAnew`. -/
theorem witness_TrainingStartsTheLinkLayerAnew :
    (∃ (s : State) (p : PortId) (res : TrainResult), s.fnState 4 ≠ 0 ∧ s.obj (Obj.port_ROLE p) ≠ 0 ∧ ((res = .full ∨ s.obj (Obj.port_MODE
    p) = 1))) ∧
    (∃ (s : State) (p : PortId) (res : TrainResult), s.fnState 4 ≠ 0 ∧ s.obj (Obj.port_ROLE p) ≠ 0 ∧ ((res = .full ∨ s.obj (Obj.port_MODE
    p) = 1))) ∧
    (∃ (s : State) (p : PortId), (s.link p).locked = true) :=
  ⟨⟨wRun.setObj (Obj.fn_STATE 4) 3, 0, .full, by decide +kernel, by decide +kernel, by decide +kernel⟩,
   ⟨(wRun.setObj (Obj.fn_STATE 4) 3).setObj (Obj.port_MODE 0) 1, 0, .lowPair, by decide +kernel, by decide +kernel, by decide +kernel⟩,
   ⟨wTrained, 0, by decide +kernel⟩⟩

/-- States and operands that meet the hypotheses of `Obligations.AdmittedRequestIsCarriedOutAndAnswered`. -/
theorem witness_AdmittedRequestIsCarriedOutAndAnswered :
    (∃ (s : State) (at_ : RxAt) (k : Packet) (n : Nat), Arrived s at_ k ∧ (s.taken at_ k).admission at_.port.isNone k = .ok n ∧ s.bad =
    [] ∧ k.op = opPut ∧ k.isFlag = false ∧ s.ranged k.addrN k.payload.length = true ∧ s.steGuarded k.addrN k.payload.length = false) ∧
    (∃ (s : State) (at_ : RxAt) (k : Packet) (n : Nat), Arrived s at_ k ∧ (s.taken at_ k).admission at_.port.isNone k = .ok n ∧ s.bad =
    [] ∧ k.op = opPut ∧ k.isFlag = true) ∧
    (∃ (s : State) (at_ : RxAt) (k : Packet) (n : Nat), Arrived s at_ k ∧ (s.taken at_ k).admission at_.port.isNone k = .ok n ∧ s.bad =
    [] ∧ k.op = opGet ∧ k.argN.testBit 16 = false ∧ s.ranged k.addrN (k.argN % 2 ^ 13) = true) ∧
    (∃ (s : State) (at_ : RxAt) (k : Packet) (n : Nat) (r : RingDecl), Arrived s at_ k ∧ (s.taken at_ k).admission at_.port.isNone k =
    .ok n ∧ s.bad = [] ∧ k.op = opMsg ∧ 1 ≤ k.payload.length ∧ k.payload.length ≤ 224 ∧ Sparse.get none (s.core k.dstCore.toNat).rings
    (k.argN % 16) = some r ∧ ((s.core k.dstCore.toNat).flag r.fp - (s.core k.dstCore.toNat).flag r.fc).toNat < r.slots) ∧
    (∃ (s : State) (at_ : RxAt) (k : Packet) (n : Nat) (w : State), Arrived s at_ k ∧ (s.taken at_ k).admission at_.port.isNone k = .ok n
    ∧ s.bad = [] ∧ k.op = opAcc ∧ (s.taken at_ k).serveAcc k = (w, 0)) :=
  ⟨⟨wGot wPutP, wAt, wPutP, 0, by unfold Arrived; decide +kernel, by decide +kernel, by decide +kernel, by decide +kernel,
    by decide +kernel, by decide +kernel, by decide +kernel⟩,
   ⟨wGot wFlagP, wAt, wFlagP, 0, by unfold Arrived; decide +kernel, by decide +kernel, by decide +kernel, by decide +kernel,
    by decide +kernel⟩,
   ⟨wGot wGetP, wAt, wGetP, 0, by unfold Arrived; decide +kernel, by decide +kernel, by decide +kernel, by decide +kernel,
    by decide +kernel, by decide +kernel⟩,
   ⟨wGot wMsgP, wAt, wMsgP, 0, ⟨0x4000, 256, 4, 3, 5⟩, by unfold Arrived; decide +kernel, by decide +kernel, by decide +kernel,
    by decide +kernel, by decide +kernel, by decide +kernel, by decide +kernel, by decide +kernel⟩,
   ⟨wGot wAccP, wAt, wAccP, 0, (((wGot wAccP).taken wAt wAccP).serveAcc wAccP).1, by unfold Arrived; decide +kernel, by decide +kernel,
    by decide +kernel, by decide +kernel, by decide +kernel⟩⟩

/-- States and operands that meet the hypotheses of `Obligations.UnadmittedRequestHasNoEffect`. -/
theorem witness_UnadmittedRequestHasNoEffect :
    (∃ (s : State) (at_ : RxAt) (p : PortId) (k : Packet) (x : Instr), rxCommand at_ k = some x ∧ k.resp = false ∧ at_.port = some p ∧
    p.val < 125 ∧ s.received at_ k = true ∧ k.requestOk 4096 = false) ∧
    (∃ (s : State) (at_ : RxAt) (p : PortId) (k : Packet) (x : Instr) (target : Option Nat), rxCommand at_ k = some x ∧ k.resp = false ∧
    at_.port = some p ∧ p.val < 125 ∧ s.received at_ k = true ∧ k.requestOk 4096 = true ∧ k.dst.toNat = s.logicalId ∧ (s.taken at_
    k).admission false k = .no target) ∧
    (∃ (s : State) (at_ : RxAt) (p : PortId) (k : Packet) (x : Instr) (target : Option Nat), rxCommand at_ k = some x ∧ k.resp = false ∧
    at_.port = some p ∧ p.val < 125 ∧ s.received at_ k = true ∧ k.requestOk 4096 = true ∧ k.dst.toNat = s.logicalId ∧ (s.taken at_
    k).admission false k = .no target) :=
  ⟨⟨wGot { wPutP with rsvd := 1 }, wAt, 0, { wPutP with rsvd := 1 }, .rxPut wAt { wPutP with rsvd := 1 } [], by decide +kernel,
    by decide +kernel, by decide +kernel, by decide +kernel, by decide +kernel, by decide +kernel⟩,
   ⟨wGot { wPutP with job := 8 }, wAt, 0, { wPutP with job := 8 }, .rxPut wAt { wPutP with job := 8 } [], some 0, by decide +kernel,
    by decide +kernel, by decide +kernel, by decide +kernel, by decide +kernel, by decide +kernel, by decide +kernel, by decide +kernel⟩,
   ⟨wGot { wFlagP with dstCore := 1200 }, wAt, 0, { wFlagP with dstCore := 1200 }, .rxFlagPacket wAt { wFlagP with dstCore := 1200 },
    none, by decide +kernel, by decide +kernel, by decide +kernel, by decide +kernel, by decide +kernel, by decide +kernel,
    by decide +kernel, by decide +kernel⟩⟩

/-- States and operands that meet the hypotheses of `Obligations.ResponsesAnswerTheirRequests`. -/
theorem witness_ResponsesAnswerTheirRequests :
    (∃ (s : State) (at_ : RxAt) (k : Packet) (i : Nat) (j : Nat) (e : QEntry) (o : OutPkt), k.resp = true ∧ s.received at_ k = true ∧
    k.responseOk (s.lenLimit at_) = true ∧ k.dst.toNat = s.logicalId ∧ k.dstCore.toNat < 1152 ∧ (s.core k.dstCore.toNat).findOut
    k.tag.toNat = some (i, j) ∧ (s.core k.dstCore.toNat).txe[i]? = some e ∧ e.out[j]? = some o ∧ k.op = o.pkt.op ∧ o.full = none ∧ ((∀ e'
    ∈ (s.core k.dstCore.toNat).txe, e'.todo = [])) ∧ k.status = 0 ∧ e.phase ≠ .flagSent) ∧
    (∃ (s : State) (at_ : RxAt) (k : Packet) (i : Nat) (j : Nat) (e : QEntry) (o : OutPkt), k.resp = true ∧ s.received at_ k = true ∧
    k.responseOk (s.lenLimit at_) = true ∧ k.dst.toNat = s.logicalId ∧ k.dstCore.toNat < 1152 ∧ (s.core k.dstCore.toNat).findOut
    k.tag.toNat = some (i, j) ∧ (s.core k.dstCore.toNat).txe[i]? = some e ∧ e.out[j]? = some o ∧ k.op = o.pkt.op ∧ o.full = none ∧ ((∀ e'
    ∈ (s.core k.dstCore.toNat).txe, e'.todo = [])) ∧ k.status = 0 ∧ e.phase = .flagSent ∧ e.out = [o]) ∧
    (∃ (s : State) (at_ : RxAt) (k : Packet) (i : Nat) (j : Nat) (e : QEntry) (o : OutPkt), k.resp = true ∧ s.received at_ k = true ∧
    k.responseOk (s.lenLimit at_) = true ∧ k.dst.toNat = s.logicalId ∧ k.dstCore.toNat < 1152 ∧ (s.core k.dstCore.toNat).findOut
    k.tag.toNat = some (i, j) ∧ (s.core k.dstCore.toNat).txe[i]? = some e ∧ e.out[j]? = some o ∧ k.op = o.pkt.op ∧ o.full = none ∧ ((∀ e'
    ∈ (s.core k.dstCore.toNat).txe, e'.todo = [])) ∧ k.status = 5) ∧
    (∃ (s : State) (at_ : RxAt) (k : Packet) (p : PortId), k.resp = true ∧ s.received at_ k = true ∧ k.responseOk (s.lenLimit at_) = true
    ∧ k.dst.toNat = s.logicalId ∧ k.dstCore.toNat < 1152 ∧ (s.core k.dstCore.toNat).findOut k.tag.toNat = none ∧ s.findCollOut
    k.dstCore.toNat k.tag.toNat = none ∧ at_.port = some p) :=
  ⟨⟨wOuts .started (wResp opPut 0), wAt, wResp opPut 0, 0, 0, wOutE opPut .started, ⟨{ wReq with op := opPut }, 0, none⟩,
    by decide +kernel, by decide +kernel, by decide +kernel, by decide +kernel, by decide +kernel, by decide +kernel, by decide +kernel,
    by decide +kernel, by decide +kernel, by decide +kernel, by decide +kernel, by decide +kernel, by decide +kernel⟩,
   ⟨wOuts .flagSent (wResp opPut 0), wAt, wResp opPut 0, 0, 0, wOutE opPut .flagSent, ⟨{ wReq with op := opPut }, 0, none⟩,
    by decide +kernel, by decide +kernel, by decide +kernel, by decide +kernel, by decide +kernel, by decide +kernel, by decide +kernel,
    by decide +kernel, by decide +kernel, by decide +kernel, by decide +kernel, by decide +kernel, by decide +kernel, by decide +kernel⟩,
   ⟨wOuts .started (wResp opMsg 5), wAt, wResp opMsg 5, 0, 0, wOutE opMsg .started, ⟨{ wReq with op := opMsg }, 0, none⟩,
    by decide +kernel, by decide +kernel, by decide +kernel, by decide +kernel, by decide +kernel, by decide +kernel, by decide +kernel,
    by decide +kernel, by decide +kernel, by decide +kernel, by decide +kernel, by decide +kernel⟩,
   ⟨wGot (wResp opPut 0), wAt, wResp opPut 0, 0, by decide +kernel, by decide +kernel, by decide +kernel, by decide +kernel,
    by decide +kernel, by decide +kernel, by decide +kernel, by decide +kernel⟩⟩

/-- States and operands that meet the hypotheses of `Obligations.CollectivePacketsLandOrAreHeld`. -/
theorem witness_CollectivePacketsLandOrAreHeld :
    (∃ (s : State) (at_ : RxAt) (p : PortId) (k : Packet) (u : _), k.op = opColl ∧ Arrived s at_ k ∧ at_.port = some p ∧ s.early = [] ∧
    (collHdr k).group < 4096 ∧ (s.groupOf (collHdr k).group).valid ≠ 0 ∧ s.parActive (s.groupOf (collHdr k).group).parcel = true ∧
    (s.parcel (s.groupOf (collHdr k).group).parcel).reclaim < 2 ∧ k.job.toNat ≠ 0 ∧ s.jobId (s.groupOf (collHdr k).group).parcel =
    k.job.toNat ∧ u = s.taken at_ k ∧ u.classify (collHdr k) = .early ∧ k.cells ≤ (s.groupOf (collHdr k).group).early) ∧
    (∃ (s : State) (at_ : RxAt) (p : PortId) (k : Packet) (u : _), k.op = opColl ∧ Arrived s at_ k ∧ at_.port = some p ∧ s.early = [] ∧
    (collHdr k).group < 4096 ∧ (s.groupOf (collHdr k).group).valid ≠ 0 ∧ s.parActive (s.groupOf (collHdr k).group).parcel = true ∧
    (s.parcel (s.groupOf (collHdr k).group).parcel).reclaim < 2 ∧ k.job.toNat ≠ 0 ∧ s.jobId (s.groupOf (collHdr k).group).parcel =
    k.job.toNat ∧ u = s.taken at_ k ∧ u.classify (collHdr k) = .stale) ∧
    (∃ (s : State) (at_ : RxAt) (p : PortId) (k : Packet) (u : _) (x : Coll) (w : State) (st : Nat), k.op = opColl ∧ Arrived s at_ k ∧
    at_.port = some p ∧ s.early = [] ∧ (collHdr k).group < 4096 ∧ (s.groupOf (collHdr k).group).valid ≠ 0 ∧ s.parActive (s.groupOf
    (collHdr k).group).parcel = true ∧ (s.parcel (s.groupOf (collHdr k).group).parcel).reclaim < 2 ∧ k.job.toNat ≠ 0 ∧ s.jobId (s.groupOf
    (collHdr k).group).parcel = k.job.toNat ∧ u = s.taken at_ k ∧ u.classify (collHdr k) = .active x ∧ u.landColl x (collHdr k) k.payload
    = (w, st) ∧ w.early = []) :=
  ⟨⟨wCollGot 5 5 [], wAt, 0, wCollP 5, _, by decide +kernel, by unfold Arrived; decide +kernel, by decide +kernel, by decide +kernel,
    by decide +kernel, by decide +kernel, by decide +kernel, by decide +kernel, by decide +kernel, by decide +kernel, rfl,
    by decide +kernel, by decide +kernel⟩,
   ⟨wCollGot 4 5 [], wAt, 0, wCollP 4, _, by decide +kernel, by unfold Arrived; decide +kernel, by decide +kernel, by decide +kernel,
    by decide +kernel, by decide +kernel, by decide +kernel, by decide +kernel, by decide +kernel, by decide +kernel, rfl,
    by decide +kernel⟩,
   ⟨wCollGot 0 1 [wDone], wAt, 0, wCollP 0, _, wDone,
    (((wCollGot 0 1 [wDone]).taken wAt (wCollP 0)).landColl wDone (collHdr (wCollP 0)) (wCollP 0).payload).1,
    (((wCollGot 0 1 [wDone]).taken wAt (wCollP 0)).landColl wDone (collHdr (wCollP 0)) (wCollP 0).payload).2, by decide +kernel,
    by unfold Arrived; decide +kernel, by decide +kernel, by decide +kernel, by decide +kernel, by decide +kernel, by decide +kernel,
    by decide +kernel, by decide +kernel, by decide +kernel, rfl, by decide +kernel, (Prod.eta _).symm, by decide +kernel⟩⟩

/-- States and operands that meet the hypotheses of `Obligations.ManagementPacketsReachTheDictionary`. -/
theorem witness_ManagementPacketsReachTheDictionary :
    (∃ (s : State) (at_ : RxAt) (k : Packet), k.op = opMgmt ∧ Arrived s at_ k ∧ addrSpace k.addrN = 5 ∧ addrOff k.addrN < 2 ^ 24 ∧ s.obj
    Obj.topo_FABRIC_MGMT ≠ 0 ∧ s.mgmtUp = true) ∧
    (∃ (s : State) (at_ : RxAt) (k : Packet) (p : PortId) (x : Instr), k.op = opMgmt ∧ Arrived s at_ k ∧ addrSpace k.addrN = 5 ∧ addrOff
    k.addrN < 2 ^ 24 ∧ s.obj Obj.topo_FABRIC_MGMT = 0 ∧ at_.port = some p ∧ ((x = .mgmtRead at_ k ∧ k.argN % 4 = 0) ∨ (x = .mgmtWrite at_
    k ∧ k.argN % 4 = 1) ∨ (x = .mgmtCommand at_ k ∧ k.argN % 4 = 2))) :=
  ⟨⟨wMgmt 1 0, wAt, wMgmtP 0, by decide +kernel, by unfold Arrived; decide +kernel, by decide +kernel, by decide +kernel,
    by decide +kernel, by decide +kernel⟩,
   ⟨wMgmt 0 2, wAt, wMgmtP 2, 0, .mgmtCommand wAt (wMgmtP 2), by decide +kernel, by unfold Arrived; decide +kernel, by decide +kernel,
    by decide +kernel, by decide +kernel, by decide +kernel, by decide +kernel⟩⟩

/-- States and operands that meet the hypotheses of `Obligations.SwitchTransfersAndSendsCells`. -/
theorem witness_SwitchTransfersAndSendsCells :
    (∃ (s : State) (i : Nat) (o : Nat) (c : StCell) (h : Nat), s.fabricOn = true ∧ s.sw.stages = [(i, ⟨[c], none⟩)] ∧ i < 221 ∧ o < 221 ∧
    c.outs = [o] ∧ c.fan = 1 ∧ c.first = true ∧ c.last = true ∧ c.buf = none ∧ c.share = none ∧ c.cls < 8 ∧ h = hopSet o c.hop ∧ h < 5 ∧
    s.lossless c.cls = true ∧ s.paceHeld i c.cls = false ∧ s.partOf i o = none ∧ (s.pool 0).stopped = false ∧ (s.pool 0).head = nil ∧
    (s.pool 0).fresh < 786432 ∧ 0 < s.entriesFree ∧ s.txq = [] ∧ ((∀ x, x < 125 → (x = o ∨ ∃ e ∈ s.sw.queues, e.1 / 40 = x) → s.linkUp x
    = true))) ∧
    (∃ (s : State) (x : EndId) (h : Nat) (k : QPkt) (l : Link), s.outputOn x = true ∧ (s.outPort x).sending = none ∧ s.shaped 7 = false ∧
    s.classPaused x 7 = false ∧ l = s.link x ∧ ((x.val < 125 → l.replay.length < 2048)) ∧ s.choice x 7 ((s.outPort x).hp.getD 7 0) = some
    (h, k) ∧ h < 5 ∧ ((1 < k.cells.length ∨ ∃ b, k.cells = [.die b] ∧ b < (s.pool 0).fresh ∧ ((s.pool 0).rd b).testBit 63 = true))) ∧
    (∃ (s : State) (x : EndId) (h : Nat) (k : QPkt) (l : Link), s.outputOn x = true ∧ (s.outPort x).sending = none ∧ s.shaped 7 = false ∧
    s.classPaused x 7 = false ∧ l = s.link x ∧ ((x.val < 125 → l.replay.length < 2048)) ∧ s.choice x 7 ((s.outPort x).hp.getD 7 0) = some
    (h, k) ∧ h < 5 ∧ ((1 < k.cells.length ∨ ∃ b, k.cells = [.die b] ∧ b < (s.pool 0).fresh ∧ ((s.pool 0).rd b).testBit 63 = true))) ∧
    (∃ (s : State) (p : PortId) (x : EndId), x.val = p.val ∧ p.val < 125 ∧ s.outputOn p = true ∧ (s.outPort p).sending = none ∧ ((∀ c h,
    (s.outQ (queueKey p c h)).pkts = []))) :=
  ⟨⟨wXb, 5, 144, wStCell, 0, by decide +kernel, by decide +kernel, by decide +kernel, by decide +kernel, by decide +kernel,
    by decide +kernel, by decide +kernel, by decide +kernel, by decide +kernel, by decide +kernel, by decide +kernel, by decide +kernel,
    by decide +kernel, by decide +kernel, by decide +kernel, by decide +kernel, by decide +kernel, by decide +kernel, by decide +kernel,
    by decide +kernel, by decide +kernel, by decide +kernel⟩,
   ⟨wQd 144, 144, 0, ⟨wPutP, wAt, none, [.die 0]⟩, Link.reset, by decide +kernel, by decide +kernel, by decide +kernel,
    by decide +kernel, by decide +kernel, by decide +kernel, by decide +kernel, by decide +kernel,
    .inr ⟨0, by decide +kernel, by decide +kernel, by decide +kernel⟩⟩,
   ⟨wQd 0, 0, 0, ⟨wPutP, wAt, none, [.die 0]⟩, (wQd 0).link 0, by decide +kernel, by decide +kernel, by decide +kernel,
    by decide +kernel, by decide +kernel, by decide +kernel, by decide +kernel, by decide +kernel,
    .inr ⟨0, by decide +kernel, by decide +kernel, by decide +kernel⟩⟩,
   ⟨wLink, 0, 0, by decide +kernel, by decide +kernel, by decide +kernel, by decide +kernel, by intro c h; rfl⟩⟩

/-- States and operands that meet the hypotheses of `Obligations.PoolLevelsAndPacingFollowTheirClock`. -/
theorem witness_PoolLevelsAndPacingFollowTheirClock :
    (∃ (s : State), s.fabricOn = true ∧ s.sw.above.length = 8) ∧
    (∃ (s : State), (s.now / 16384 + 1) * 16384 < 2 ^ 64) ∧
    (∃ (s : State), (s.slot + 1) * 1024 < 2 ^ 64) :=
  ⟨⟨wLink, by decide +kernel, by decide +kernel⟩,
   ⟨wLink, by decide +kernel⟩,
   ⟨wSvcB 2 1000, by decide +kernel⟩⟩

/-- States and operands that meet the hypotheses of `Obligations.SpilledPagesKeepQueueOrder`. -/
theorem witness_SpilledPagesKeepQueueOrder :
    (∃ (s : State) (x : EndId) (q : Fin 40) (key : Nat) (p : Nat) (oq : OutQ), key = 40 * x.val + q.val ∧ s.fabricOn = true ∧ (s.outQ
    key).cells.Nodup ∧ p = (s.pool 1).fresh ∧ oq = s.outQ key ∧ s.spills (q.val / 5) = true ∧ s.modBytes ≠ 0 ∧ oq.head + 15 ≤
    oq.cells.length ∧ ((∀ e ∈ oq.cells, ∃ b, e = .die b ∧ b < (s.pool 0).fresh ∧ ((s.pool 0).rd b).testBit 63 = true)) ∧ (s.pool 1).used
    < s.critLevel 1 ∧ ((s.lossless (q.val / 5) = true → (s.pool 1).used < s.bpLevel 1)) ∧ (s.pool 1).stopped = false ∧ (s.pool 1).head =
    nil ∧ p < s.poolCap 1) ∧
    (∃ (s : State) (x : EndId) (q : Fin 40) (key : Nat) (p : Nat) (n : Nat) (oq : OutQ), key = 40 * x.val + q.val ∧ s.fabricOn = true ∧
    (s.outQ key).cells.Nodup ∧ oq = s.outQ key ∧ oq.cells.find? CellAt.spilled = some (.page p n) ∧ oq.firstSpilled < s.obj
    Obj.lim_SPILL_RETURN ∧ ((∀ k, k ≠ key → (s.outQ k).cells.any (fun c => c.inPage p) = false)) ∧ (s.pool 0).stopped = false ∧ (s.pool
    0).used < s.bpLevel 0 ∧ s.cellsOf .returned ≤ 4081 ∧ (s.pool 0).head = nil ∧ ((s.pool 0).fresh + (oq.cells.filter (fun c => c.inPage
    p)).length ≤ 786432) ∧ ((∀ b, CellAt.die b ∈ oq.cells → b < (s.pool 0).fresh)) ∧ p < (s.pool 1).fresh ∧ ((s.pool 1).rd p).testBit 63
    = true ∧ refOf ((s.pool 1).rd p) = 1) :=
  ⟨⟨wTails, 144, 35, 5795, 0, wTails.outQ 5795, by decide +kernel, by decide +kernel, by decide +kernel, by decide +kernel,
    by decide +kernel, by decide +kernel, by decide +kernel, by decide +kernel, witnessTails, by decide +kernel, by decide +kernel,
    by decide +kernel, by decide +kernel, by decide +kernel⟩,
   ⟨wPaged, 144, 35, 5795, 0, 1, wPaged.outQ 5795, by decide +kernel, by decide +kernel, by decide +kernel, by decide +kernel,
    by decide +kernel, by decide +kernel, witnessOthers, by decide +kernel, by decide +kernel, by decide +kernel, by decide +kernel,
    by decide +kernel, witnessNoDie, by decide +kernel, by decide +kernel, by decide +kernel⟩⟩

/-- States and operands that meet the hypotheses of `Obligations.ServicePortsTakeFramesAndPause`. -/
theorem witness_ServicePortsTakeFramesAndPause :
    (∃ (s : State) (p : PortId) (f : EthFrame), s.svcUp p = true ∧ f.fcsOk = false) ∧
    (∃ (s : State) (p : PortId) (f : EthFrame), s.svcUp p = true ∧ f.fcsOk = true ∧ ((s.frameRefused p f = true ∨ f.udp = false))) ∧
    (∃ (s : State) (p : PortId) (f : EthFrame), s.svcUp p = true ∧ f.fcsOk = true ∧ ((s.frameRefused p f = true ∨ f.udp = false))) ∧
    (∃ (s : State) (p : PortId) (f : EthFrame) (k : Packet) (i : Nat) (c : Nat) (pre : Nat) (mode : Nat) (b : Int) (tp : _) (tc : _),
    s.svcUp p = true ∧ f.fcsOk = true ∧ s.frameRefused p f = false ∧ f.udp = true ∧ octNat 16 f.dstAddr.toNat = s.obj (Obj.port_SVC_ADDR
    p) ∧ f.udpDst = 48211 ∧ f.csumOk = true ∧ f.payload.length ≤ s.obj (Obj.port_SVC_MTU p) - 48 ∧ 32 ≤ f.payload.length ∧ k = {
    Packet.parse f.payload with payload := f.payload.drop (if (Packet.parse f.payload).ext then 64 else 32) } ∧ k.op ≠ opTime ∧
    ((k.requestOk (s.svcLimit p) = true ∨ k.responseOk (s.svcLimit p) = true)) ∧ ((k.resp = true ∨ s.peerEntry f.srcAddr ≠ none)) ∧
    k.dst.toNat = s.logicalId ∧ c = k.tc.toNat ∧ i = polIdx p c ∧ mode = (s.svc p).mode.getD c 0 ∧ b = (f.bytes : Int) * 1000 ∧ (s.svc
    p).tp.length = 8 ∧ (s.svc p).tc.length = 8 ∧ pre = (if mode = 2 ∧ f.dscp.toNat / 2 % 4 = 2 then 1 else if mode = 2 ∧ f.dscp.toNat / 2
    % 4 = 3 then 2 else 0) ∧ tp = (s.svc p).tp.getD c 0 ∧ tc = (s.svc p).tc.getD c 0 ∧ mode = 0) ∧
    (∃ (s : State) (p : PortId) (f : EthFrame) (k : Packet) (i : Nat) (c : Nat) (pre : Nat) (mode : Nat) (b : Int) (tp : _) (tc : _),
    s.svcUp p = true ∧ f.fcsOk = true ∧ s.frameRefused p f = false ∧ f.udp = true ∧ octNat 16 f.dstAddr.toNat = s.obj (Obj.port_SVC_ADDR
    p) ∧ f.udpDst = 48211 ∧ f.csumOk = true ∧ f.payload.length ≤ s.obj (Obj.port_SVC_MTU p) - 48 ∧ 32 ≤ f.payload.length ∧ k = {
    Packet.parse f.payload with payload := f.payload.drop (if (Packet.parse f.payload).ext then 64 else 32) } ∧ k.op ≠ opTime ∧
    ((k.requestOk (s.svcLimit p) = true ∨ k.responseOk (s.svcLimit p) = true)) ∧ ((k.resp = true ∨ s.peerEntry f.srcAddr ≠ none)) ∧
    k.dst.toNat = s.logicalId ∧ c = k.tc.toNat ∧ i = polIdx p c ∧ mode = (s.svc p).mode.getD c 0 ∧ b = (f.bytes : Int) * 1000 ∧ (s.svc
    p).tp.length = 8 ∧ (s.svc p).tc.length = 8 ∧ pre = (if mode = 2 ∧ f.dscp.toNat / 2 % 4 = 2 then 1 else if mode = 2 ∧ f.dscp.toNat / 2
    % 4 = 3 then 2 else 0) ∧ tp = (s.svc p).tp.getD c 0 ∧ tc = (s.svc p).tc.getD c 0 ∧ mode ≠ 0 ∧ ((pre = 2 ∨ tp < b))) ∧
    (∃ (s : State) (p : PortId) (f : EthFrame) (k : Packet) (i : Nat) (c : Nat) (pre : Nat) (mode : Nat) (b : Int) (tp : _) (tc : _),
    s.svcUp p = true ∧ f.fcsOk = true ∧ s.frameRefused p f = false ∧ f.udp = true ∧ octNat 16 f.dstAddr.toNat = s.obj (Obj.port_SVC_ADDR
    p) ∧ f.udpDst = 48211 ∧ f.csumOk = true ∧ f.payload.length ≤ s.obj (Obj.port_SVC_MTU p) - 48 ∧ 32 ≤ f.payload.length ∧ k = {
    Packet.parse f.payload with payload := f.payload.drop (if (Packet.parse f.payload).ext then 64 else 32) } ∧ k.op ≠ opTime ∧
    ((k.requestOk (s.svcLimit p) = true ∨ k.responseOk (s.svcLimit p) = true)) ∧ ((k.resp = true ∨ s.peerEntry f.srcAddr ≠ none)) ∧
    k.dst.toNat = s.logicalId ∧ c = k.tc.toNat ∧ i = polIdx p c ∧ mode = (s.svc p).mode.getD c 0 ∧ b = (f.bytes : Int) * 1000 ∧ (s.svc
    p).tp.length = 8 ∧ (s.svc p).tc.length = 8 ∧ pre = (if mode = 2 ∧ f.dscp.toNat / 2 % 4 = 2 then 1 else if mode = 2 ∧ f.dscp.toNat / 2
    % 4 = 3 then 2 else 0) ∧ tp = (s.svc p).tp.getD c 0 ∧ tc = (s.svc p).tc.getD c 0 ∧ mode ≠ 0 ∧ ((pre = 2 ∨ tp < b))) ∧
    (∃ (s : State) (p : PortId) (f : EthFrame) (k : Packet) (i : Nat) (c : Nat) (pre : Nat) (mode : Nat) (b : Int) (tp : _) (tc : _),
    s.svcUp p = true ∧ f.fcsOk = true ∧ s.frameRefused p f = false ∧ f.udp = true ∧ octNat 16 f.dstAddr.toNat = s.obj (Obj.port_SVC_ADDR
    p) ∧ f.udpDst = 48211 ∧ f.csumOk = true ∧ f.payload.length ≤ s.obj (Obj.port_SVC_MTU p) - 48 ∧ 32 ≤ f.payload.length ∧ k = {
    Packet.parse f.payload with payload := f.payload.drop (if (Packet.parse f.payload).ext then 64 else 32) } ∧ k.op ≠ opTime ∧
    ((k.requestOk (s.svcLimit p) = true ∨ k.responseOk (s.svcLimit p) = true)) ∧ ((k.resp = true ∨ s.peerEntry f.srcAddr ≠ none)) ∧
    k.dst.toNat = s.logicalId ∧ c = k.tc.toNat ∧ i = polIdx p c ∧ mode = (s.svc p).mode.getD c 0 ∧ b = (f.bytes : Int) * 1000 ∧ (s.svc
    p).tp.length = 8 ∧ (s.svc p).tc.length = 8 ∧ pre = (if mode = 2 ∧ f.dscp.toNat / 2 % 4 = 2 then 1 else if mode = 2 ∧ f.dscp.toNat / 2
    % 4 = 3 then 2 else 0) ∧ tp = (s.svc p).tp.getD c 0 ∧ tc = (s.svc p).tc.getD c 0 ∧ mode ≠ 0 ∧ pre ≠ 2 ∧ b ≤ tp ∧ ((pre = 1 ∨ tc <
    b))) ∧
    (∃ (s : State) (p : PortId) (f : EthFrame) (k : Packet) (i : Nat) (c : Nat) (pre : Nat) (mode : Nat) (b : Int) (tp : _) (tc : _),
    s.svcUp p = true ∧ f.fcsOk = true ∧ s.frameRefused p f = false ∧ f.udp = true ∧ octNat 16 f.dstAddr.toNat = s.obj (Obj.port_SVC_ADDR
    p) ∧ f.udpDst = 48211 ∧ f.csumOk = true ∧ f.payload.length ≤ s.obj (Obj.port_SVC_MTU p) - 48 ∧ 32 ≤ f.payload.length ∧ k = {
    Packet.parse f.payload with payload := f.payload.drop (if (Packet.parse f.payload).ext then 64 else 32) } ∧ k.op ≠ opTime ∧
    ((k.requestOk (s.svcLimit p) = true ∨ k.responseOk (s.svcLimit p) = true)) ∧ ((k.resp = true ∨ s.peerEntry f.srcAddr ≠ none)) ∧
    k.dst.toNat = s.logicalId ∧ c = k.tc.toNat ∧ i = polIdx p c ∧ mode = (s.svc p).mode.getD c 0 ∧ b = (f.bytes : Int) * 1000 ∧ (s.svc
    p).tp.length = 8 ∧ (s.svc p).tc.length = 8 ∧ pre = (if mode = 2 ∧ f.dscp.toNat / 2 % 4 = 2 then 1 else if mode = 2 ∧ f.dscp.toNat / 2
    % 4 = 3 then 2 else 0) ∧ tp = (s.svc p).tp.getD c 0 ∧ tc = (s.svc p).tc.getD c 0 ∧ mode ≠ 0 ∧ pre ≠ 2 ∧ b ≤ tp ∧ ((pre = 1 ∨ tc <
    b))) ∧
    (∃ (s : State) (p : PortId) (f : EthFrame) (k : Packet) (i : Nat) (c : Nat) (pre : Nat) (mode : Nat) (b : Int) (tp : _) (tc : _),
    s.svcUp p = true ∧ f.fcsOk = true ∧ s.frameRefused p f = false ∧ f.udp = true ∧ octNat 16 f.dstAddr.toNat = s.obj (Obj.port_SVC_ADDR
    p) ∧ f.udpDst = 48211 ∧ f.csumOk = true ∧ f.payload.length ≤ s.obj (Obj.port_SVC_MTU p) - 48 ∧ 32 ≤ f.payload.length ∧ k = {
    Packet.parse f.payload with payload := f.payload.drop (if (Packet.parse f.payload).ext then 64 else 32) } ∧ k.op ≠ opTime ∧
    ((k.requestOk (s.svcLimit p) = true ∨ k.responseOk (s.svcLimit p) = true)) ∧ ((k.resp = true ∨ s.peerEntry f.srcAddr ≠ none)) ∧
    k.dst.toNat = s.logicalId ∧ c = k.tc.toNat ∧ i = polIdx p c ∧ mode = (s.svc p).mode.getD c 0 ∧ b = (f.bytes : Int) * 1000 ∧ (s.svc
    p).tp.length = 8 ∧ (s.svc p).tc.length = 8 ∧ pre = (if mode = 2 ∧ f.dscp.toNat / 2 % 4 = 2 then 1 else if mode = 2 ∧ f.dscp.toNat / 2
    % 4 = 3 then 2 else 0) ∧ tp = (s.svc p).tp.getD c 0 ∧ tc = (s.svc p).tc.getD c 0 ∧ mode ≠ 0 ∧ pre = 0 ∧ b ≤ tp ∧ b ≤ tc) ∧
    (∃ (s : State) (p : PortId) (f : EthFrame) (target : BitVec 128), s.svcUp p = true ∧ f.fcsOk = true ∧ s.frameRefused p f = false ∧
    target ≠ 0 ∧ octNat 16 target.toNat = s.obj (Obj.port_SVC_ADDR p)) ∧
    (∃ (s : State) (p : PortId), s.svcUp p = true ∧ (s.svc p).paused.length = 8) ∧
    (∃ (s : State) (p : PortId) (c : ClassId) (at_ : Nat), s.svcUp p = true ∧ (s.svc p).paused.length = 8 ∧ (s.svc p).paused.getD c.val
    none = some at_ ∧ at_ < 2 ^ 64) ∧
    (∃ (s : State) (p : PortId) (on : List Nat) (due : Nat), s.svcUp p = true ∧ (on = (List.range 8).filter (fun c => (s.svc p).xoff.getD
    c false)) ∧ on ≠ [] ∧ due = (s.svc p).xoffAt + s.obj Obj.cls_PFC_REFRESH * 1024 ∧ due < 2 ^ 64) ∧
    (∃ (s : State) (p : PortId) (c : Nat), s.svcUp p = true ∧ c < 8) ∧
    (∃ (s : State) (p : PortId) (u : State), s.svcUp p = true ∧ ((∀ q, u.svcUp q = false))) :=
  ⟨⟨wSvc 0 0, 125, { wFrame with fcsOk := false }, by decide +kernel, by decide +kernel⟩,
   ⟨wSvc 0 0, 125, { wFrame with udp := false }, by decide +kernel, by decide +kernel, by decide +kernel⟩,
   ⟨wSvc 0 0, 125, { wFrame with stacked := true }, by decide +kernel, by decide +kernel, by decide +kernel⟩,
   ⟨wSvc 0 0, 125, wFrame, wFlagP, polIdx 125 0, 0, 0, 0, 120000, _, _, by decide +kernel, by decide +kernel, by decide +kernel,
    by decide +kernel, by decide +kernel, by decide +kernel, by decide +kernel, by decide +kernel, by decide +kernel, by decide +kernel,
    by decide +kernel, by decide +kernel, by decide +kernel, by decide +kernel, by decide +kernel, by decide +kernel, by decide +kernel,
    by decide +kernel, by decide +kernel, by decide +kernel, by decide +kernel, rfl, rfl, by decide +kernel⟩,
   ⟨(wSvc 1 0).setSvc 125 { Svc.reset with mode := List.replicate 8 1 }, 125, wFrame, wFlagP, polIdx 125 0, 0, 0, 1, 120000, _, _,
    by decide +kernel, by decide +kernel, by decide +kernel, by decide +kernel, by decide +kernel, by decide +kernel, by decide +kernel,
    by decide +kernel, by decide +kernel, by decide +kernel, by decide +kernel, by decide +kernel, by decide +kernel, by decide +kernel,
    by decide +kernel, by decide +kernel, by decide +kernel, by decide +kernel, by decide +kernel, by decide +kernel, by decide +kernel,
    rfl, rfl, by decide +kernel, by decide +kernel⟩,
   ⟨wSvcB 2 0, 125, { wFrame with dscp := 6 }, wFlagP, polIdx 125 0, 0, 2, 2, 120000, _, _, by decide +kernel, by decide +kernel,
    by decide +kernel, by decide +kernel, by decide +kernel, by decide +kernel, by decide +kernel, by decide +kernel, by decide +kernel,
    by decide +kernel, by decide +kernel, by decide +kernel, by decide +kernel, by decide +kernel, by decide +kernel, by decide +kernel,
    by decide +kernel, by decide +kernel, by decide +kernel, by decide +kernel, by decide +kernel, rfl, rfl, by decide +kernel,
    by decide +kernel⟩,
   ⟨wSvcB 2 1000, 125, wFrame, wFlagP, polIdx 125 0, 0, 0, 2, 120000, _, _, by decide +kernel, by decide +kernel, by decide +kernel,
    by decide +kernel, by decide +kernel, by decide +kernel, by decide +kernel, by decide +kernel, by decide +kernel, by decide +kernel,
    by decide +kernel, by decide +kernel, by decide +kernel, by decide +kernel, by decide +kernel, by decide +kernel, by decide +kernel,
    by decide +kernel, by decide +kernel, by decide +kernel, by decide +kernel, rfl, rfl, by decide +kernel, by decide +kernel,
    by decide +kernel, by decide +kernel⟩,
   ⟨wSvcB 2 200000, 125, { wFrame with dscp := 4 }, wFlagP, polIdx 125 0, 0, 1, 2, 120000, _, _, by decide +kernel, by decide +kernel,
    by decide +kernel, by decide +kernel, by decide +kernel, by decide +kernel, by decide +kernel, by decide +kernel, by decide +kernel,
    by decide +kernel, by decide +kernel, by decide +kernel, by decide +kernel, by decide +kernel, by decide +kernel, by decide +kernel,
    by decide +kernel, by decide +kernel, by decide +kernel, by decide +kernel, by decide +kernel, rfl, rfl, by decide +kernel,
    by decide +kernel, by decide +kernel, by decide +kernel⟩,
   ⟨wSvcB 1 200000, 125, wFrame, wFlagP, polIdx 125 0, 0, 0, 1, 120000, _, _, by decide +kernel, by decide +kernel, by decide +kernel,
    by decide +kernel, by decide +kernel, by decide +kernel, by decide +kernel, by decide +kernel, by decide +kernel, by decide +kernel,
    by decide +kernel, by decide +kernel, by decide +kernel, by decide +kernel, by decide +kernel, by decide +kernel, by decide +kernel,
    by decide +kernel, by decide +kernel, by decide +kernel, by decide +kernel, rfl, rfl, by decide +kernel, by decide +kernel,
    by decide +kernel, by decide +kernel⟩,
   ⟨wSvc 0 0, 125, wFrame, 9, by decide +kernel, by decide +kernel, by decide +kernel, by decide +kernel, by decide +kernel⟩,
   ⟨wSvcB 2 0, 125, by decide +kernel, by decide +kernel⟩,
   ⟨wSvcB 2 0, 125, 1, 6000, by decide +kernel, by decide +kernel, by decide +kernel, by decide +kernel⟩,
   ⟨wSvcB 2 0, 125, [1], (wSvcB 2 0).obj Obj.cls_PFC_REFRESH * 1024, by decide +kernel, by decide +kernel, by decide +kernel,
    by decide +kernel, by decide +kernel⟩,
   ⟨wSvcB 2 0, 125, 1, by decide +kernel, by decide +kernel⟩,
   ⟨wSvcB 2 0, 125, wRun, by decide +kernel,
    by intro q; simp only [State.svcUp, show wRun.fabricOn = false by decide +kernel, Bool.and_false]⟩⟩

/-- States and operands that meet the hypotheses of `Obligations.IdleStepAdvancesFabricTime`. -/
theorem witness_IdleStepAdvancesFabricTime :
    (∃ (s : State), s.pending = [] ∧ s.poweredUp = false) ∧
    (∃ (s : State), s.pending = [] ∧ s.poweredUp = true ∧ s.ft.toNat * 2 ^ 40 + s.ftFrac.toNat + s.ftInc.toNat < 2 ^ 104) ∧
    (∃ (s : State), s.pending = [] ∧ s.poweredUp = true ∧ 2 ^ 104 ≤ s.ft.toNat * 2 ^ 40 + s.ftFrac.toNat + s.ftInc.toNat) :=
  ⟨⟨{ wRun with power := { wRun.power with resetN := false } }, by decide +kernel, by decide +kernel⟩,
   ⟨wRun, by decide +kernel, by decide +kernel, by decide +kernel⟩,
   ⟨{ wRun with ft := -1, ftFrac := -1 }, by decide +kernel, by decide +kernel, by decide +kernel⟩⟩

/-- States and operands that meet the hypotheses of `Obligations.TimePacketsMeasureElectAndStep`. -/
theorem witness_TimePacketsMeasureElectAndStep :
    (∃ (s : State) (p : PortId) (due : Nat), s.timeOn = true ∧ s.linkOpen p = true ∧ (s.link p).replay.length < 2048 ∧ due = (match
    (s.timePort p).sent with | t :: _ => t + s.obj Obj.time_SYNC_INTERVAL * 1024 | [] => 0) ∧ due < 2 ^ 64) ∧
    (∃ (s : State) (p : PortId) (k : Packet) (orig : BitVec 64) (recv : BitVec 64) (xmit : BitVec 64), s.timeOn = true ∧ s.linkOpen p =
    true ∧ timeHeaderOk k = true ∧ k.requestOk 4096 = true ∧ xmit = BitVec.ofNat 64 (beAt k.payload 0 8) ∧ orig = BitVec.ofNat 64 (beAt
    k.payload 8 8) ∧ recv = BitVec.ofNat 64 (beAt k.payload 16 8)) ∧
    (∃ (s : State) (p : PortId) (k : Packet) (orig : BitVec 64) (recv : BitVec 64) (xmit : BitVec 64), s.timeOn = true ∧ s.linkOpen p =
    true ∧ timeHeaderOk k = true ∧ k.requestOk 4096 = true ∧ xmit = BitVec.ofNat 64 (beAt k.payload 0 8) ∧ orig = BitVec.ofNat 64 (beAt
    k.payload 8 8) ∧ recv = BitVec.ofNat 64 (beAt k.payload 16 8)) ∧
    (∃ (s : State) (p : PortId) (k : Packet) (orig : BitVec 64) (recv : BitVec 64) (xmit : BitVec 64), s.timeOn = true ∧ s.linkOpen p =
    true ∧ timeHeaderOk k = true ∧ k.requestOk 4096 = true ∧ xmit = BitVec.ofNat 64 (beAt k.payload 0 8) ∧ orig = BitVec.ofNat 64 (beAt
    k.payload 8 8) ∧ recv = BitVec.ofNat 64 (beAt k.payload 16 8)) ∧
    (∃ (s : State) (p : PortId) (k : Packet) (orig : BitVec 64) (recv : BitVec 64) (xmit : BitVec 64), s.timeOn = true ∧ s.linkOpen p =
    true ∧ timeHeaderOk k = true ∧ k.requestOk 4096 = true ∧ xmit = BitVec.ofNat 64 (beAt k.payload 0 8) ∧ orig = BitVec.ofNat 64 (beAt
    k.payload 8 8) ∧ recv = BitVec.ofNat 64 (beAt k.payload 16 8)) ∧
    (∃ (s : State) (p : PortId) (k : Packet) (orig : BitVec 64) (recv : BitVec 64) (xmit : BitVec 64), s.timeOn = true ∧ s.linkOpen p =
    true ∧ timeHeaderOk k = true ∧ k.requestOk 4096 = true ∧ xmit = BitVec.ofNat 64 (beAt k.payload 0 8) ∧ orig = BitVec.ofNat 64 (beAt
    k.payload 8 8) ∧ recv = BitVec.ofNat 64 (beAt k.payload 16 8)) ∧
    (∃ (s : State) (p : PortId) (u : Nat), s.timeOn = true ∧ (s.timePort p).fresh = some u ∧ u + s.obj Obj.time_DATUM_TIMEOUT * 1024 < 2
    ^ 64 ∧ Sparse.wf TimePort.reset s.time.ports = true ∧ ((∀ e ∈ s.time.ports, e.1 = p.val ∨ e.2.fresh = none))) ∧
    (∃ (s : State) (p : PortId) (u : Nat), s.timeOn = true ∧ (s.timePort p).fresh = some u ∧ u + s.obj Obj.time_DATUM_TIMEOUT * 1024 < 2
    ^ 64 ∧ Sparse.wf TimePort.reset s.time.ports = true ∧ ((∀ e ∈ s.time.ports, e.1 = p.val ∨ e.2.fresh = none))) ∧
    (∃ (s : State) (n : Int), s.stepDue = true ∧ n = Int.tdiv (s.time.est.getD 0) 2 ∧ (s.slot + 1) * 1024 < 2 ^ 64 ∧ 0 ≤ ((s.slot + 1) *
    1024 : Nat) + n ∧ ((s.slot + 1) * 1024 : Nat) + n < 2 ^ 64 ∧ ((∀ m, m < 4 → s.parMode m ≠ 2))) ∧
    (∃ (s : State) (n : Int), s.stepDue = true ∧ n = Int.tdiv (s.time.est.getD 0) 2 ∧ (s.slot + 1) * 1024 < 2 ^ 64 ∧ 0 ≤ ((s.slot + 1) *
    1024 : Nat) + n ∧ ((s.slot + 1) * 1024 : Nat) + n < 2 ^ 64 ∧ ((∀ m, m < 4 → s.parMode m ≠ 2))) ∧
    (∃ (s : State) (width : Nat), (width < 100 ∨ s.poweredUp = false)) ∧
    (∃ (s : State) (width : Nat), 100 ≤ width ∧ s.poweredUp = true) ∧
    (∃ (s : State) (width : Nat), 100 ≤ width ∧ s.poweredUp = true) ∧
    (∃ (s : State) (due : Nat), due = s.time.src.edgeAt + 48000000000 ∧ due < 2 ^ 64 ∧ s.timeOn = true ∧ s.obj Obj.time_TIME_STATE = 4 ∧
    s.obj Obj.time_TIME_SOURCE = 1 ∧ s.obj Obj.time_SOURCE_STATE ≠ 2) ∧
    (∃ (s : State), s.standin ≠ s.obj Obj.topo_STANDIN ∧ (s.slot + 1) * 1024 < 2 ^ 64 ∧ s.fatal = false ∧ ((∀ p, p < 125 → s.linkUp p =
    false))) ∧
    (∃ (s : State), s.standin ≠ s.obj Obj.topo_STANDIN ∧ (s.slot + 1) * 1024 < 2 ^ 64 ∧ s.fatal = false ∧ ((∀ p, p < 125 → s.linkUp p =
    false))) :=
  ⟨⟨wTime 1, 0, 0, by decide +kernel, by decide +kernel, by decide +kernel, by decide +kernel, by decide +kernel⟩,
   ⟨wSync 3, 0, wTimeP 0, 0, 4200, 4300, by decide +kernel, by decide +kernel, by decide +kernel, by decide +kernel, by decide +kernel,
    by decide +kernel, by decide +kernel⟩,
   ⟨wSync 3, 0, wTimeP 4100, 4100, 4200, 4300, by decide +kernel, by decide +kernel, by decide +kernel, by decide +kernel,
    by decide +kernel, by decide +kernel, by decide +kernel⟩,
   ⟨wSync 40, 0, wTimeP 4100, 4100, 4200, 4300, by decide +kernel, by decide +kernel, by decide +kernel, by decide +kernel,
    by decide +kernel, by decide +kernel, by decide +kernel⟩,
   ⟨(wSync 40).setObj (Obj.port_LINK_DELAY 0) 80, 0, wTimeP 4100, 4100, 4200, 4300, by decide +kernel, by decide +kernel,
    by decide +kernel, by decide +kernel, by decide +kernel, by decide +kernel, by decide +kernel⟩,
   ⟨wSync 3, 0, wTimeP 4000, 4000, 4200, 4300, by decide +kernel, by decide +kernel, by decide +kernel, by decide +kernel,
    by decide +kernel, by decide +kernel, by decide +kernel⟩,
   ⟨(wSync 3).setObj Obj.time_TIME_PRIORITY 255, 0, 4000, by decide +kernel, by decide +kernel, by decide +kernel, by decide +kernel,
    by decide +kernel⟩,
   ⟨(wSync 3).setObj Obj.time_TIME_PRIORITY 9, 0, 4000, by decide +kernel, by decide +kernel, by decide +kernel, by decide +kernel,
    by decide +kernel⟩,
   ⟨wDue 2000, 2000, by decide +kernel, by decide +kernel, by decide +kernel, by decide +kernel, by decide +kernel,
    by intro m h; revert m; decide +kernel⟩,
   ⟨wDue (-2000), -2000, by decide +kernel, by decide +kernel, by decide +kernel, by decide +kernel, by decide +kernel,
    by intro m h; revert m; decide +kernel⟩,
   ⟨wTime 4, 99, by decide +kernel⟩,
   ⟨wDatum 1, 100, by decide +kernel, by decide +kernel⟩,
   ⟨wTime 1, 100, by decide +kernel, by decide +kernel⟩,
   ⟨wDatum 1, 48000000000, by decide +kernel, by decide +kernel, by decide +kernel, by decide +kernel, by decide +kernel,
    by decide +kernel⟩,
   ⟨((wTime 1).setObj (Obj.port_LINK_STATE 0) 0).setObj Obj.topo_STANDIN 3, by decide +kernel, by decide +kernel, by decide +kernel,
    by intro p h; revert p; decide +kernel⟩,
   ⟨((((wTime 1).setObj (Obj.port_LINK_STATE 0) 0).setObj (Obj.port_ROLE 1) 1).setObj Obj.topo_POSITION 3).setObj Obj.topo_STANDIN 3,
    by decide +kernel, by decide +kernel, by decide +kernel, by intro p h; revert p; decide +kernel⟩⟩

/-- States and operands that meet the hypotheses of `Obligations.ClockMessagesAreSentAndTaken`. -/
theorem witness_ClockMessagesAreSentAndTaken :
    (∃ (s : State) (p : PortId) (r : PtpPort) (due : Nat), s.ptpMaster p = true ∧ r = s.ptpRec p ∧ r.syncSeq < 2 ^ 16 ∧ r.annSeq < 2 ^ 16
    ∧ due = (match r.syncAt with | some t => t + ptpPeriod (s.obj (Obj.port_PTP_SYNC_LOG p)) | none => 0) ∧ due < 2 ^ 64) ∧
    (∃ (s : State) (p : PortId) (r : PtpPort) (due : Nat), s.ptpMaster p = true ∧ r = s.ptpRec p ∧ r.syncSeq < 2 ^ 16 ∧ r.annSeq < 2 ^ 16
    ∧ due = (match r.annAt with | some t => t + ptpPeriod (s.obj (Obj.port_PTP_ANNOUNCE_LOG p)) | none => 0) ∧ due < 2 ^ 64) ∧
    (∃ (s : State) (p : PortId) (r : PtpPort) (domain : BitVec 8), s.ptpMaster p = true ∧ r = s.ptpRec p ∧ r.syncSeq < 2 ^ 16 ∧ r.annSeq
    < 2 ^ 16 ∧ domain.toNat = s.obj (Obj.port_PTP_DOMAIN p)) ∧
    (∃ (s : State) (p : PortId) (domain : BitVec 8) (g : PtpAnnounce) (src : _), s.ptpHears p domain = true ∧ s.time.src.gm = some g ∧
    src = s.time.src) ∧
    (∃ (s : State) (p : PortId) (domain : BitVec 8) (seq : BitVec 16) (g : PtpAnnounce) (src : _) (at_ : Nat) (origin : Nat) (u : Int) (d
    : Int), s.ptpHears p domain = true ∧ s.time.src.gm = some g ∧ src = s.time.src ∧ src.sync = some (seq.toNat, at_) ∧ src.up = some u ∧
    d = (at_ : Int) - s.ptpUnits origin ∧ s.ptpInRange origin = true ∧ s.sourceBarred = false ∧ src.taken = false) ∧
    (∃ (s : State) (p : PortId) (domain : BitVec 8) (seq : BitVec 16) (g : PtpAnnounce) (src : _) (at_ : Nat) (origin : Nat) (u : Int) (d
    : Int), s.ptpHears p domain = true ∧ s.time.src.gm = some g ∧ src = s.time.src ∧ src.sync = some (seq.toNat, at_) ∧ src.up = some u ∧
    d = (at_ : Int) - s.ptpUnits origin ∧ (s.ptpInRange origin = false ∨ s.sourceBarred = true)) ∧
    (∃ (s : State) (p : PortId) (domain : BitVec 8) (seq : BitVec 16) (g : PtpAnnounce) (src : _) (at_ : Nat), s.ptpHears p domain = true
    ∧ s.time.src.gm = some g ∧ src = s.time.src ∧ src.req = some (seq.toNat, at_)) ∧
    (∃ (s : State) (p : PortId) (a : PtpAnnounce), s.ptpHears p a.domain = true ∧ ((s.time.src.gm = none ∨ ∃ g, s.time.src.gm = some g ∧
    g.sender ≠ a.sender ∧ Config.bmcaBetter g.dataset a.dataset = true))) ∧
    (∃ (s : State) (p : PortId) (a : PtpAnnounce) (g : PtpAnnounce), s.ptpHears p a.domain = true ∧ s.time.src.gm = some g ∧ g.sender =
    a.sender) ∧
    (∃ (s : State) (p : PortId), s.svcUp p = true ∧ s.ptpPortState p = 9 ∧ s.time.src.reqSeq < 2 ^ 16) ∧
    (∃ (s : State) (g : PtpAnnounce), s.ptpSlaveOnly (s.obj Obj.time_SOURCE_PORT) = true ∧ s.time.src.gm = some g) :=
  ⟨⟨wMaster, 125, wMaster.ptpRec 125, 9 + ptpPeriod (wMaster.obj (Obj.port_PTP_SYNC_LOG 125)), by decide +kernel, by decide +kernel,
    by decide +kernel, by decide +kernel, by decide +kernel, by decide +kernel⟩,
   ⟨wMaster, 125, wMaster.ptpRec 125, 9 + ptpPeriod (wMaster.obj (Obj.port_PTP_ANNOUNCE_LOG 125)), by decide +kernel, by decide +kernel,
    by decide +kernel, by decide +kernel, by decide +kernel, by decide +kernel⟩,
   ⟨wMaster, 125, wMaster.ptpRec 125, 0, by decide +kernel, by decide +kernel, by decide +kernel, by decide +kernel, by decide +kernel⟩,
   ⟨wSlave, 125, 0, wGm, _, by decide +kernel, by decide +kernel, rfl⟩,
   ⟨wSlave, 125, 0, 2, wGm, _, 4000, 300, 50, 4000 - wSlave.ptpUnits 300, by decide +kernel, by decide +kernel, rfl, by decide +kernel,
    by decide +kernel, by decide +kernel, by decide +kernel, by decide +kernel, by decide +kernel⟩,
   ⟨wSlave, 125, 0, 2, wGm, _, 4000, 2 ^ 70, 50, 4000 - wSlave.ptpUnits (2 ^ 70), by decide +kernel, by decide +kernel, rfl,
    by decide +kernel, by decide +kernel, by decide +kernel, by decide +kernel⟩,
   ⟨wSlave, 125, 0, 3, wGm, _, 4100, by decide +kernel, by decide +kernel, rfl, by decide +kernel⟩,
   ⟨wSlave.modSrc (fun r => { r with gm := none }), 125, wGm, by decide +kernel, .inl (by decide +kernel)⟩,
   ⟨wSlave, 125, { wGm with dataset := 9 }, wGm, by decide +kernel, by decide +kernel, by decide +kernel⟩,
   ⟨wSlave, 125, by decide +kernel, by decide +kernel, by decide +kernel⟩,
   ⟨wSlave, wGm, by decide +kernel, by decide +kernel⟩⟩

/-- States and operands that meet the hypotheses of `Obligations.StreamEnginesStartRunAndStop`. -/
theorem witness_StreamEnginesStartRunAndStop :
    (∃ (s : State) (j : EngineId) (n : Nat) (v : Nat) (a : Nat) (cmd : Nat) (u : _) (w : _), s.steParcel j = some n ∧ s.early = [] ∧ v =
    s.obj (Obj.ste_STE_STATE j) ∧ a = ceilDiv s.now 1024 * 1024 ∧ a < 2 ^ 64 ∧ cmd = s.stePeek j 0 4 ∧ s.parState n = 3 ∧ cmd / 256 ≠
    s.stePeek j 0x60 4 ∧ u = (s.advanceTo a).stePoke j 0x60 4 (cmd / 256) ∧ cmd % 256 = 1 ∧ v ≠ 1 ∧ v ≠ 2 ∧ w = ((u.setSte j (u.steLoad
    j)).stePoke j 0x67 1 0).stePoke j 0x68 4 0 ∧ w.steChecks j (u.steLoad j) = none) ∧
    (∃ (s : State) (j : EngineId) (n : Nat) (v : Nat) (a : Nat) (cmd : Nat) (u : _) (w : _) (code : _) (pc : _) (x : _), s.steParcel j =
    some n ∧ s.early = [] ∧ v = s.obj (Obj.ste_STE_STATE j) ∧ a = ceilDiv s.now 1024 * 1024 ∧ a < 2 ^ 64 ∧ cmd = s.stePeek j 0 4 ∧
    s.parState n = 3 ∧ cmd / 256 ≠ s.stePeek j 0x60 4 ∧ u = (s.advanceTo a).stePoke j 0x60 4 (cmd / 256) ∧ cmd % 256 = 1 ∧ v ≠ 1 ∧ v ≠ 2
    ∧ w = ((u.setSte j (u.steLoad j)).stePoke j 0x67 1 0).stePoke j 0x68 4 0 ∧ w.steChecks j (u.steLoad j) = some (code, pc, x)) ∧
    (∃ (s : State) (j : EngineId) (n : Nat) (v : Nat) (a : Nat) (cmd : Nat), s.steParcel j = some n ∧ s.early = [] ∧ v = s.obj
    (Obj.ste_STE_STATE j) ∧ a = ceilDiv s.now 1024 * 1024 ∧ a < 2 ^ 64 ∧ cmd = s.stePeek j 0 4 ∧ s.parState n = 3 ∧ cmd / 256 ≠ s.stePeek
    j 0x60 4 ∧ cmd % 256 ≠ 2 ∧ ((cmd % 256 = 1 → v = 1 ∨ v = 2))) ∧
    (∃ (s : State) (j : EngineId) (n : Nat) (v : Nat) (a : Nat) (cmd : Nat), s.steParcel j = some n ∧ s.early = [] ∧ v = s.obj
    (Obj.ste_STE_STATE j) ∧ a = ceilDiv s.now 1024 * 1024 ∧ a < 2 ^ 64 ∧ cmd = s.stePeek j 0 4 ∧ s.parState n = 3 ∧ cmd / 256 ≠ s.stePeek
    j 0x60 4 ∧ cmd % 256 ≠ 2 ∧ ((cmd % 256 = 1 → v = 1 ∨ v = 2))) ∧
    (∃ (s : State) (j : EngineId) (n : Nat) (v : Nat) (a : Nat) (cmd : Nat), s.steParcel j = some n ∧ s.early = [] ∧ v = s.obj
    (Obj.ste_STE_STATE j) ∧ a = ceilDiv s.now 1024 * 1024 ∧ a < 2 ^ 64 ∧ cmd = s.stePeek j 0 4 ∧ s.parState n = 3 ∧ cmd / 256 ≠ s.stePeek
    j 0x60 4 ∧ cmd % 256 = 2 ∧ ((v = 1 ∨ v = 2))) ∧
    (∃ (s : State) (j : EngineId) (n : Nat) (v : Nat) (a : Nat) (cmd : Nat), s.steParcel j = some n ∧ s.early = [] ∧ v = s.obj
    (Obj.ste_STE_STATE j) ∧ a = ceilDiv s.now 1024 * 1024 ∧ a < 2 ^ 64 ∧ cmd = s.stePeek j 0 4 ∧ s.parState n = 3 ∧ cmd / 256 ≠ s.stePeek
    j 0x60 4 ∧ cmd % 256 = 2 ∧ ((v = 1 ∨ v = 2))) ∧
    (∃ (s : State) (j : EngineId) (n : Nat) (v : Nat) (a : Nat) (cmd : Nat), s.steParcel j = some n ∧ s.early = [] ∧ v = s.obj
    (Obj.ste_STE_STATE j) ∧ a = ceilDiv s.now 1024 * 1024 ∧ a < 2 ^ 64 ∧ cmd = s.stePeek j 0 4 ∧ s.parState n = 3 ∧ cmd / 256 ≠ s.stePeek
    j 0x60 4 ∧ cmd % 256 = 2 ∧ v ≠ 1 ∧ v ≠ 2) ∧
    (∃ (s : State) (j : EngineId) (n : Nat) (v : Nat) (due : _), s.steParcel j = some n ∧ s.early = [] ∧ v = s.obj (Obj.ste_STE_STATE j)
    ∧ due = (s.ste j).runSlot * 1024 ∧ due < 2 ^ 64 ∧ s.parState n = 3 ∧ v = 1) ∧
    (∃ (s : State) (j : EngineId) (n : Nat) (v : Nat) (e : Ste) (i : StIns) (fin : StIns), s.steParcel j = some n ∧ s.early = [] ∧ v =
    s.obj (Obj.ste_STE_STATE j) ∧ e = s.ste j ∧ v = 2 ∧ e.at_ = .stage ∧ e.stage = 0 ∧ e.code = [i, fin] ∧ i.opc = 0x10 ∧ i.d = 0x10 ∧
    i.a = 0 ∧ fin.opc = 2 ∧ (e.inb 0).kind = 1 ∧ (e.outb 0).kind = 1 ∧ (e.outb 0).nrec = (e.inb 0).nrec ∧ (e.outb 0).lay = (e.inb 0).lay
    ∧ (e.inb 0).base + (e.inb 0).nrec * (e.inb 0).lay.rs ≤ 2 ^ 20 ∧ (e.outb 0).base + (e.inb 0).nrec * (e.inb 0).lay.rs ≤ 2 ^ 20 ∧ e.out
    = [] ∧ e.flagDevs = [] ∧ e.outCount.length = 4 ∧ s.bad = []) ∧
    (∃ (s : State) (j : EngineId) (n : Nat) (v : Nat), s.steParcel j = some n ∧ s.early = [] ∧ v = s.obj (Obj.ste_STE_STATE j) ∧ v = 2 ∧
    (s.ste j).at_ = .sent ∧ (s.ste j).out = [] ∧ ((s.ste j).stage < ((s.ste j).code.filter (fun i => decide (i.opc = 1))).length)) ∧
    (∃ (s : State) (j : EngineId) (n : Nat) (v : Nat) (e : Ste) (done : Nat), s.steParcel j = some n ∧ s.early = [] ∧ v = s.obj
    (Obj.ste_STE_STATE j) ∧ e = s.ste j ∧ v = 2 ∧ e.at_ = .flags ∧ e.out = [] ∧ done = (s.stePeek j 0x68 4 + 1) % 2 ^ 32) ∧
    (∃ (s : State) (j : EngineId) (n : Nat) (v : Nat) (e : Ste) (done : Nat), s.steParcel j = some n ∧ s.early = [] ∧ v = s.obj
    (Obj.ste_STE_STATE j) ∧ e = s.ste j ∧ v = 2 ∧ e.at_ = .flags ∧ e.out = [] ∧ done = (s.stePeek j 0x68 4 + 1) % 2 ^ 32) ∧
    (∃ (s : State) (j : EngineId) (n : Nat) (v : Nat) (e : Ste) (done : Nat), s.steParcel j = some n ∧ s.early = [] ∧ v = s.obj
    (Obj.ste_STE_STATE j) ∧ e = s.ste j ∧ v = 2 ∧ e.at_ = .flags ∧ e.out = [] ∧ done = (s.stePeek j 0x68 4 + 1) % 2 ^ 32) ∧
    (∃ (s : State) (j : EngineId) (n : Nat) (v : Nat) (due : _), s.steParcel j = some n ∧ s.early = [] ∧ v = s.obj (Obj.ste_STE_STATE j)
    ∧ due = ((s.ste j).runSlot + (s.ste j).runTimeout) * 1024 ∧ due < 2 ^ 64 ∧ v = 2 ∧ (s.ste j).at_ ≠ .between ∧ (s.ste j).at_ ≠
    .notify) ∧
    (∃ (s : State) (j : EngineId) (n : Nat) (t0 : _) (due : _), s.steParcel j = some n ∧ s.early = [] ∧ oldest (s.ste j).out = some t0 ∧
    due = t0 + s.obj (Obj.partmo_REMOTE_TIMEOUT n) * 1024 ∧ due < 2 ^ 64) ∧
    (∃ (s : State) (j : EngineId) (n : Nat) (v : Nat) (e : Ste) (q : Fin 8) (due : Nat) (par : Nat), s.steParcel j = some n ∧ s.early =
    [] ∧ v = s.obj (Obj.ste_STE_STATE j) ∧ e = s.ste j ∧ v = 2 ∧ e.at_ ≠ .between ∧ (e.inb q).kind = 2 ∧ (e.inb q).deadline ≠ 0 ∧ due =
    (e.runSlot + (e.inb q).deadline) * 1024 ∧ due < 2 ^ 64 ∧ par = e.run % 2) :=
  ⟨⟨wSte 0 257, 0, 0, _, 5120, 257, _, _, by decide +kernel, by decide +kernel, rfl, by decide +kernel, by decide +kernel,
    by decide +kernel, by decide +kernel, by decide +kernel, rfl, by decide +kernel, by decide +kernel, by decide +kernel, rfl,
    by rw [witnessLoad]; decide +kernel⟩,
   ⟨wNoTimeout, 0, 0, _, 5120, 257, _, _, 1, noPc, 0xFF, by decide +kernel, by decide +kernel, rfl, by decide +kernel, by decide +kernel,
    by decide +kernel, by decide +kernel, by decide +kernel, rfl, by decide +kernel, by decide +kernel, by decide +kernel, rfl,
    by rw [witnessLoad0]; decide +kernel⟩,
   ⟨wSte 1 257, 0, 0, _, 5120, 257, by decide +kernel, by decide +kernel, rfl, by decide +kernel, by decide +kernel, by decide +kernel,
    by decide +kernel, by decide +kernel, by decide +kernel, by decide +kernel⟩,
   ⟨wSte 0 0x105, 0, 0, _, 5120, 261, by decide +kernel, by decide +kernel, rfl, by decide +kernel, by decide +kernel, by decide +kernel,
    by decide +kernel, by decide +kernel, by decide +kernel, by decide +kernel⟩,
   ⟨wSte 1 258, 0, 0, _, 5120, 258, by decide +kernel, by decide +kernel, rfl, by decide +kernel, by decide +kernel, by decide +kernel,
    by decide +kernel, by decide +kernel, by decide +kernel, by decide +kernel⟩,
   ⟨wSte 2 258, 0, 0, _, 5120, 258, by decide +kernel, by decide +kernel, rfl, by decide +kernel, by decide +kernel, by decide +kernel,
    by decide +kernel, by decide +kernel, by decide +kernel, by decide +kernel⟩,
   ⟨wSte 0 258, 0, 0, _, 5120, 258, by decide +kernel, by decide +kernel, rfl, by decide +kernel, by decide +kernel, by decide +kernel,
    by decide +kernel, by decide +kernel, by decide +kernel, by decide +kernel, by decide +kernel⟩,
   ⟨wSte 1 0, 0, 0, _, 6144, by decide +kernel, by decide +kernel, rfl, by decide +kernel, by decide +kernel, by decide +kernel,
    by decide +kernel⟩,
   ⟨wCopying, 0, 0, _, wCopy, ⟨0, 0x10, 0x10, 0, 0, 0xFF, 0, 0, 0⟩, ⟨1, 2, 0, 0, 0, 0, 0, 0, 0⟩, by decide +kernel, by decide +kernel,
    rfl, by decide +kernel, by decide +kernel, by decide +kernel, by decide +kernel, by decide +kernel, by decide +kernel,
    by decide +kernel, by decide +kernel, by decide +kernel, by decide +kernel, by decide +kernel, by decide +kernel, by decide +kernel,
    by decide +kernel, by decide +kernel, by decide +kernel, by decide +kernel, by decide +kernel, by decide +kernel⟩,
   ⟨wSteRun (fun e => { e with at_ := .sent, prog := [1, 2] }), 0, 0, _, by decide +kernel, by decide +kernel, rfl, by decide +kernel,
    by decide +kernel, by decide +kernel, by decide +kernel⟩,
   ⟨(wSte 2 0).setSte 0 ({ wCopy with at_ := .flags, notify := 1, outCount := [7, 8, 9, 10], status := 2 }), 0, 0, _,
    { wCopy with at_ := .flags, notify := 1, outCount := [7, 8, 9, 10], status := 2 }, 1, by decide +kernel, by decide +kernel, rfl,
    by decide +kernel, by decide +kernel, by decide +kernel, by decide +kernel, by decide +kernel⟩,
   ⟨(wSte 2 0).setSte 0 ({ wCopy with at_ := .flags, runs := 1, nextTag := 77 }), 0, 0, _,
    { wCopy with at_ := .flags, runs := 1, nextTag := 77 }, 1, by decide +kernel, by decide +kernel, rfl, by decide +kernel,
    by decide +kernel, by decide +kernel, by decide +kernel, by decide +kernel⟩,
   ⟨(wSte 2 0).setSte 0 ({ wCopy with at_ := .flags, runs := 2, nextTag := 77 }), 0, 0, _,
    { wCopy with at_ := .flags, runs := 2, nextTag := 77 }, 1, by decide +kernel, by decide +kernel, rfl, by decide +kernel,
    by decide +kernel, by decide +kernel, by decide +kernel, by decide +kernel⟩,
   ⟨wSteRun (fun e => { e with at_ := .stage }), 0, 0, _, 9216, by decide +kernel, by decide +kernel, rfl, by decide +kernel,
    by decide +kernel, by decide +kernel, by decide +kernel, by decide +kernel⟩,
   ⟨wOldest, 0, 0, 4000, 4000 + wOldest.obj (Obj.partmo_REMOTE_TIMEOUT 0) * 1024, by decide +kernel, by decide +kernel,
    by decide +kernel, by decide +kernel, by decide +kernel⟩,
   ⟨wRecv, 0, 0, _, wRecv.ste 0, 0, 11264, 0, by decide +kernel, by decide +kernel, rfl, by decide +kernel, by decide +kernel,
    by decide +kernel, by decide +kernel, by decide +kernel, by decide +kernel, by decide +kernel, by decide +kernel⟩⟩

/-- States and operands that meet the hypotheses of `Obligations.MemoryUpkeepAndCoolingAreCounted`. -/
theorem witness_MemoryUpkeepAndCoolingAreCounted :
    (∃ (s : State) (x : Instr) (u : Nat) (delays : List (Option ParcelId × Nat)), (((∃ m, x = .memRefresh m delays ∧ u = ctlNum m) ∨ (∃
    m, x = .bulkRetune m delays ∧ u = 12 + m.val))) ∧ s.fnState (if u < 12 then 6 else 5) ≠ 0 ∧ delays ≠ []) ∧
    (∃ (s : State) (x : Instr) (u : Nat) (delays : List (Option ParcelId × Nat)), (((∃ m, x = .memRefresh m delays ∧ u = ctlNum m) ∨ (∃
    m, x = .bulkRetune m delays ∧ u = 12 + m.val))) ∧ s.fnState (if u < 12 then 6 else 5) ≠ 0 ∧ delays ≠ []) ∧
    (∃ (s : State) (m : Controller) (u : Nat), u = ctlNum m ∧ s.fnState (ctlFn u) ≠ 0 ∧ s.bad = []) ∧
    (∃ (s : State) (m : Controller) (u : Nat) (e : MemErr) (k : Nat), u = ctlNum m ∧ s.fnState (ctlFn u) ≠ 0 ∧ s.bad = [] ∧ k =
    e.addr.toNat ∧ isWindow k = false ∧ inTier k = true ∧ ctlOf k = u) ∧
    (∃ (s : State) (m : Controller) (u : Nat) (e : MemErr) (k : Nat), u = ctlNum m ∧ s.fnState (ctlFn u) ≠ 0 ∧ s.bad = [] ∧ k =
    e.addr.toNat ∧ isWindow k = false ∧ inTier k = true ∧ ctlOf k = u) ∧
    (∃ (s : State), s.poweredUp = true) ∧
    (∃ (s : State) (c : CoreId) (d : Nat), d = s.phaseSlot c ((s.now + 1023) / 1024) ∧ d * 1024 < 2 ^ 64) :=
  ⟨⟨wMem, .memRefresh wCtl [(some 0, 5), (none, 6), (some 0, 7)], ctlNum wCtl, [(some 0, 5), (none, 6), (some 0, 7)],
    .inl ⟨wCtl, rfl, rfl⟩, by decide +kernel, by decide +kernel⟩,
   ⟨wMem, .bulkRetune 15 [(some 3, 5)], 27, [(some 3, 5)], .inr ⟨15, rfl, rfl⟩, by decide +kernel, by decide +kernel⟩,
   ⟨wMem, wCtl, ctlNum wCtl, by decide +kernel, by decide +kernel, by decide +kernel⟩,
   ⟨wMem, wCtl, ctlNum wCtl, ⟨2 ^ 41 + 64, true⟩, 2 ^ 41 + 64, by decide +kernel, by decide +kernel, by decide +kernel,
    by decide +kernel, by decide +kernel, by decide +kernel, by decide +kernel⟩,
   ⟨wMem, .stack 2, 2, ⟨2 ^ 41 + 2 ^ 38, false⟩, 2 ^ 41 + 2 ^ 38, by decide +kernel, by decide +kernel, by decide +kernel,
    by decide +kernel, by decide +kernel, by decide +kernel, by decide +kernel⟩,
   ⟨wMem, by decide +kernel⟩,
   ⟨wRun, 0, wRun.phaseSlot 0 5, by decide +kernel, by decide +kernel⟩⟩

/-- States and operands that meet the hypotheses of `Obligations.LevelRunsAndLimitsAct`. -/
theorem witness_LevelRunsAndLimitsAct :
    (∃ (s : State) (step : _) (base : _) (due : _), step = s.obj Obj.level_LEVEL_INTERVAL * 15625000 * 1024 ∧ 0 < step ∧ base = ceilDiv
    s.now step * step ∧ due = (if s.env.levelSched = some base then base + step else base) ∧ due < 2 ^ 64 ∧ s.poweredUp = true) ∧
    (∃ (s : State) (role : Role), s.mgmtUp = true ∧ role ≠ .read) ∧
    (∃ (s : State), s.env.levelOn = true) ∧
    (∃ (s : State) (k : Fin 6) (j : Int) (lo : Int) (hi : Int) (hot : Int) (stack : Int) (hyst : Nat) (v : Nat) (new : Nat) (due : Nat),
    hot = s.objI16 Obj.pow_THERM_HOT ∧ stack = s.objI16 Obj.pow_STACK_HOT ∧ hyst = s.obj Obj.pow_THERM_HYST ∧ v = s.obj
    (Obj.pow_CLOCK_LEVEL k) ∧ (new = (if hot ≤ j ∨ stack ≤ lo ∨ stack ≤ hi then min 5 (v + 1) else if j + hyst ≤ hot ∧ lo + hyst ≤ stack
    ∧ hi + hyst ≤ stack then v - 1 else v)) ∧ due = (if s.thermTrains k then s.now else ceilDiv s.now (s.obj Obj.pow_THERM_EPOCH * 1024)
    * (s.obj Obj.pow_THERM_EPOCH * 1024)) ∧ due < 2 ^ 64 ∧ s.poweredUp = true ∧ ((s.thermTrains k = true → s.env.due.testBit k = true))) ∧
    (∃ (s : State) (j : Int) (lo : Int) (hi : Int), s.poweredUp = true ∧ (1050 ≤ j ∨ 950 ≤ lo ∨ 950 ≤ hi)) ∧
    (∃ (s : State) (j : Int) (lo : Int) (hi : Int), s.poweredUp = true ∧ j < 1050 ∧ lo < 950 ∧ hi < 950) ∧
    (∃ (s : State) (x : Instr), s.poweredUp = true ∧ ((∃ k j, x = .thermShutdown k j ∧ (1150 ≤ j ∨ ∃ t0, Sparse.get none s.env.crit k.val
    = some t0 ∧ s.obj (Obj.pow_CLOCK_LEVEL k) = 5)) ∨ (x = .supplyOut ∧ s.fnState 2 = 3))) ∧
    (∃ (s : State) (x : Instr), s.poweredUp = true ∧ ((∃ k j, x = .thermShutdown k j ∧ (1150 ≤ j ∨ ∃ t0, Sparse.get none s.env.crit k.val
    = some t0 ∧ s.obj (Obj.pow_CLOCK_LEVEL k) = 5)) ∨ (x = .supplyOut ∧ s.fnState 2 = 3))) ∧
    (∃ (s : State) (a : Nat), 400000 < a ∧ s.env.slow = false ∧ s.poweredUp = true) ∧
    (∃ (s : State) (x : Instr), s.poweredUp = false ∧ ((x = .levelRunStart ∨ (∃ k j lo hi, x = .thermDecision k j lo hi ∨ x = .thermCrit
    k j lo hi) ∨ (∃ k j, x = .thermShutdown k j) ∨ (∃ a, x = .overcurrent a) ∨ (∃ temps, x = .moduleTempRead temps)))) ∧
    (∃ (s : State) (x : Instr), s.poweredUp = false ∧ ((x = .levelRunStart ∨ (∃ k j lo hi, x = .thermDecision k j lo hi ∨ x = .thermCrit
    k j lo hi) ∨ (∃ k j, x = .thermShutdown k j) ∨ (∃ a, x = .overcurrent a) ∨ (∃ temps, x = .moduleTempRead temps)))) :=
  ⟨⟨wHour, wHour.obj Obj.level_LEVEL_INTERVAL * 15625000 * 1024, wHour.obj Obj.level_LEVEL_INTERVAL * 15625000 * 1024,
    wHour.obj Obj.level_LEVEL_INTERVAL * 15625000 * 1024, by decide +kernel, by decide +kernel, by decide +kernel, by decide +kernel,
    by decide +kernel, by decide +kernel⟩,
   ⟨wHour, .operate, by decide +kernel, by decide +kernel⟩,
   ⟨{ wHour with env := { wHour.env with levelOn := true } }, by decide +kernel⟩,
   ⟨wHour, 0, 1100, 0, 0, wHour.objI16 Obj.pow_THERM_HOT, wHour.objI16 Obj.pow_STACK_HOT, wHour.obj Obj.pow_THERM_HYST,
    wHour.obj (Obj.pow_CLOCK_LEVEL 0), wHour.obj (Obj.pow_CLOCK_LEVEL 0) + 1,
    ceilDiv 5000 (wHour.obj Obj.pow_THERM_EPOCH * 1024) * (wHour.obj Obj.pow_THERM_EPOCH * 1024), by decide +kernel, by decide +kernel,
    by decide +kernel, by decide +kernel, by decide +kernel, by decide +kernel, by decide +kernel, by decide +kernel, by decide +kernel⟩,
   ⟨wHour, 1050, 0, 0, by decide +kernel, .inl (by decide)⟩,
   ⟨wHour, 1049, 0, 0, by decide +kernel, by decide +kernel, by decide +kernel, by decide +kernel⟩,
   ⟨wHour, .thermShutdown 1 1150, by decide +kernel, .inl ⟨1, 1150, rfl, .inl (by decide)⟩⟩,
   ⟨wHour.setObj (Obj.fn_STATE 2) 3, .supplyOut, by decide +kernel, .inr ⟨rfl, by decide +kernel⟩⟩,
   ⟨wHour, 400001, by decide +kernel, by decide +kernel, by decide +kernel⟩,
   ⟨{ wHour with power := { wHour.power with resetN := false } }, .levelRunStart, by decide +kernel, .inl rfl⟩,
   ⟨{ wHour with power := { wHour.power with resetN := false } }, .overcurrent 400001, by decide +kernel,
    .inr (.inr (.inr (.inl ⟨400001, rfl⟩)))⟩⟩

/-- States and operands that meet the hypotheses of `Obligations.ResetsAndBootStagesFollowTheirOrder`. -/
theorem witness_ResetsAndBootStagesFollowTheirOrder :
    (∃ (s : State) (r : Rail), s.railValid r = true) ∧
    (∃ (s : State) (r : Rail), s.railValid r = false) ∧
    (∃ (s : State) (r : Rail), s.railValid r = false) ∧
    (∃ (n : Nat), n < 1000) ∧
    (∃ (s : State) (n : Nat), 1000 ≤ n ∧ s.power.resetN = true ∧ s.power.vaux33 = true ∧ s.power.vio18 = true) ∧
    (∃ (s : State), s.power.resetN = false) ∧
    (∃ (s : State), s.poweredUp = true ∧ 1 ≤ s.sec.stageDone) ∧
    (∃ (s : State), s.mayEnter 1 = true ∧ s.sealed.damaged = 0 ∧ s.power.bootAt < 2 ^ 64) ∧
    (∃ (s : State), s.mayEnter 2 = true ∧ s.dirEntry 3 0 = none ∧ s.dirEntry 3 1 = none) ∧
    (∃ (s : State), s.mayEnter 3 = true) ∧
    (∃ (s : State), s.mayEnter 4 = true ∧ s.fnState 2 = 3) ∧
    (∃ (s : State), s.mayEnter 5 = true) ∧
    (∃ (s : State), s.mayEnter 6 = true) :=
  ⟨⟨wRun, .vio18, by decide +kernel⟩,
   ⟨wRun.setRail .vio18 false, .vio18, by decide +kernel⟩,
   ⟨wRun.setRail .vaux33 false, .vaux33, by decide +kernel⟩,
   ⟨999, by decide +kernel⟩,
   ⟨wRun, 1000, by decide +kernel, by decide +kernel, by decide +kernel, by decide +kernel⟩,
   ⟨{ wRun with power := { wRun.power with resetN := false } }, by decide +kernel⟩,
   ⟨wBoot 1, by decide +kernel, by decide +kernel⟩,
   ⟨wBoot 0, by decide +kernel, by decide +kernel, by decide +kernel⟩,
   ⟨wBoot 1, by decide +kernel, by decide +kernel, by decide +kernel⟩,
   ⟨wBoot 2, by decide +kernel⟩,
   ⟨(wBoot 3).setObj (Obj.fn_STATE 2) 3, by decide +kernel, by decide +kernel⟩,
   ⟨wBoot 4, by decide +kernel⟩,
   ⟨wBoot 5, by decide +kernel⟩⟩

/-- States and operands that meet the hypotheses of `Obligations.FunctionsMoveThroughTheirStates`. -/
theorem witness_FunctionsMoveThroughTheirStates :
    (∃ (s : State) (f : Function) (n : Nat) (role : Role), n = fnNum f ∧ s.mgmtUp = true ∧ role ≠ .read ∧ s.startCheck n = 0) ∧
    (∃ (s : State) (f : Function) (n : Nat) (role : Role), n = fnNum f ∧ s.mgmtUp = true ∧ role ≠ .read ∧ s.startCheck n = 0) ∧
    (∃ (s : State) (f : Function) (n : Nat) (role : Role), n = fnNum f ∧ s.mgmtUp = true ∧ role ≠ .read ∧ s.startCheck n ≠ 0) ∧
    (∃ (s : State) (f : Function) (n : Nat) (role : Role), n = fnNum f ∧ s.mgmtUp = true ∧ role ≠ .read ∧ s.stopCheck n = 0 ∧ s.fnState n
    = 3) ∧
    (∃ (s : State) (f : Function) (n : Nat) (role : Role), n = fnNum f ∧ s.mgmtUp = true ∧ role ≠ .read ∧ s.stopCheck n = 0 ∧ s.fnState n
    = 1) ∧
    (∃ (s : State) (f : Function) (n : Nat) (role : Role), n = fnNum f ∧ s.mgmtUp = true ∧ role ≠ .read ∧ s.stopCheck n ≠ 0) ∧
    (∃ (s : State) (f : Function) (n : Nat) (role : Role), n = fnNum f ∧ s.mgmtUp = true ∧ role ≠ .read ∧ s.reinitCheck n = 0) ∧
    (∃ (s : State) (f : Function) (n : Nat) (role : Role), n = fnNum f ∧ s.mgmtUp = true ∧ role ≠ .read ∧ s.reinitCheck n = 0) ∧
    (∃ (s : State) (f : Function) (n : Nat) (role : Role), n = fnNum f ∧ s.mgmtUp = true ∧ role ≠ .read ∧ s.reinitCheck n ≠ 0) ∧
    (∃ (s : State) (f : Function) (n : Nat), n = fnNum f ∧ s.obj (Obj.fn_AUTO_START n) = 1 ∧ s.fnState n = 2 ∧ s.startCheck n = 0) ∧
    (∃ (s : State) (f : Function) (n : Nat), n = fnNum f ∧ s.fnState n = 1 ∧ ((∀ m, n = 8 + m → (s.parcel m).heldStart = false)) ∧
    s.sec.stopping.testBit n = true) ∧
    (∃ (s : State) (f : Function) (n : Nat), n = fnNum f ∧ s.fnState n = 1 ∧ ((∀ m, n = 8 + m → (s.parcel m).heldStart = false)) ∧
    s.sec.stopping.testBit n = false ∧ s.sec.starting.testBit n = false ∧ n ≠ 2 ∧ n ≠ 4 ∧ n ≠ 5) ∧
    (∃ (s : State) (f : Function) (n : Nat), n = fnNum f ∧ s.fnState n = 1 ∧ ((∀ m, n = 8 + m → (s.parcel m).heldStart = false)) ∧
    s.sec.stopping.testBit n = false ∧ s.sec.starting.testBit n = true ∧ (n = 0 ∨ n = 1 ∨ n = 3 ∨ n = 6)) ∧
    (∃ (s : State) (f : Function) (n : Nat), n = fnNum f ∧ s.fnState n = 1 ∧ ((∀ m, n = 8 + m → (s.parcel m).heldStart = false)) ∧
    s.sec.stopping.testBit n = false ∧ s.sec.starting.testBit n = true ∧ (n = 0 ∨ n = 1 ∨ n = 3 ∨ n = 6)) ∧
    (∃ (s : State) (f : Function) (n : Nat), n = fnNum f ∧ s.fnState n = 1 ∧ ((∀ m, n = 8 + m → (s.parcel m).heldStart = false)) ∧
    s.sec.stopping.testBit n = false ∧ s.sec.starting.testBit n = true ∧ n = 4) ∧
    (∃ (s : State) (f : Function) (n : Nat) (m : Nat), n = fnNum f ∧ s.fnState n = 1 ∧ ((∀ m, n = 8 + m → (s.parcel m).heldStart =
    false)) ∧ n = 8 + m ∧ s.sec.stopping.testBit n = false ∧ s.sec.starting.testBit n = true ∧ s.contBad m = none) ∧
    (∃ (s : State) (f : Function) (n : Nat), n = fnNum f ∧ ((∀ m, n = 8 + m → (s.parcel m).heldStart = true)) ∧ 8 ≤ n) ∧
    (∃ (s : State) (f : Function) (n : Nat), n = fnNum f ∧ s.fnState n = 4) ∧
    (∃ (s : State) (f : Function) (n : Nat), n = fnNum f ∧ s.fnState n = 4) :=
  ⟨⟨wFn 3 2, .time, 3, .operate, by decide +kernel, by decide +kernel, by decide +kernel, by decide +kernel⟩,
   ⟨(((((wFn 8 2).setObj (Obj.fn_STATE 4) 3).setObj (Obj.fn_STATE 6) 3).setObj (Obj.fn_STATE 2) 3).setObj Obj.time_TIME_STATE 2).setObj (Obj.par_MODE 0) 1,
    .parcel 0, 8, .security, by decide +kernel, by decide +kernel, by decide +kernel, by decide +kernel⟩,
   ⟨wFn 3 3, .time, 3, .operate, by decide +kernel, by decide +kernel, by decide +kernel, by decide +kernel⟩,
   ⟨wFn 8 3, .parcel 0, 8, .operate, by decide +kernel, by decide +kernel, by decide +kernel, by decide +kernel, by decide +kernel⟩,
   ⟨wFn 8 1, .parcel 0, 8, .operate, by decide +kernel, by decide +kernel, by decide +kernel, by decide +kernel, by decide +kernel⟩,
   ⟨wFn 2 3, .power, 2, .operate, by decide +kernel, by decide +kernel, by decide +kernel, by decide +kernel⟩,
   ⟨wFn 8 6, .parcel 0, 8, .operate, by decide +kernel, by decide +kernel, by decide +kernel, by decide +kernel⟩,
   ⟨wFn 3 5, .time, 3, .operate, by decide +kernel, by decide +kernel, by decide +kernel, by decide +kernel⟩,
   ⟨wFn 3 2, .time, 3, .operate, by decide +kernel, by decide +kernel, by decide +kernel, by decide +kernel⟩,
   ⟨(wFn 3 2).setObj (Obj.fn_AUTO_START 3) 1, .time, 3, by decide +kernel, by decide +kernel, by decide +kernel, by decide +kernel⟩,
   ⟨wInit 3 true true, .time, 3, by decide +kernel, by decide +kernel, by omega, by decide +kernel⟩,
   ⟨wInit 3 false false, .time, 3, by decide +kernel, by decide +kernel, by omega, by decide +kernel, by decide +kernel,
    by decide +kernel, by decide +kernel, by decide +kernel⟩,
   ⟨wInit 3 true false, .time, 3, by decide +kernel, by decide +kernel, by omega, by decide +kernel, by decide +kernel,
    .inr (.inr (.inl rfl))⟩,
   ⟨wInit 0 true false, .mgmt, 0, by decide +kernel, by decide +kernel, by omega, by decide +kernel, by decide +kernel, .inl rfl⟩,
   ⟨wInit 4 true false, .fabric, 4, by decide +kernel, by decide +kernel, by omega, by decide +kernel, by decide +kernel,
    by decide +kernel⟩,
   ⟨wInit 8 true false, .parcel 0, 8, 0, by decide +kernel, by decide +kernel, by intro m h; rw [show m = 0 by omega]; decide +kernel,
    by decide +kernel, by decide +kernel, by decide +kernel, by decide +kernel⟩,
   ⟨(wInit 8 true false).modParcel 0 (fun p => { p with heldStart := true }), .parcel 0, 8, by decide +kernel,
    by intro m h; rw [show m = 0 by omega]; decide +kernel, by decide +kernel⟩,
   ⟨wFn 8 4, .parcel 0, 8, by decide +kernel, by decide +kernel⟩,
   ⟨wFn 4 4, .fabric, 4, by decide +kernel, by decide +kernel⟩⟩

/-- States and operands that meet the hypotheses of `Obligations.JobAndObjectCommandsActOrAreRefused`. -/
theorem witness_JobAndObjectCommandsActOrAreRefused :
    (∃ (s : State) (role : Role) (idx : BitVec 16) (sub : BitVec 8) (bs : Bytes) (r : ObjRow) (k : Nat) (v : Nat), s.mgmtUp = true ∧
    objRow idx.toNat sub.toNat = some r ∧ k = objKey idx.toNat sub.toNat ∧ v = wireNat r.ty bs ∧ mayWrite role idx.toNat = true ∧ ((r.acc
    = .rw ∨ r.acc = .rl)) ∧ bs.length = r.ty.size ∧ s.runLocked idx.toNat sub.toNat v r.acc = false ∧ ((r.ty = .bool → v ≤ 1)) ∧
    (s.setObj k v).rangeOk idx.toNat sub.toNat v = true) ∧
    (∃ (s : State) (role : Role) (idx : BitVec 16) (sub : BitVec 8) (bs : Bytes) (r : ObjRow) (k : Nat) (v : Nat), s.mgmtUp = true ∧
    objRow idx.toNat sub.toNat = some r ∧ k = objKey idx.toNat sub.toNat ∧ v = wireNat r.ty bs ∧ mayWrite role idx.toNat = true ∧ ((r.acc
    = .rw ∨ r.acc = .rl)) ∧ bs.length = r.ty.size ∧ s.runLocked idx.toNat sub.toNat v r.acc = false ∧ ((r.ty = .bool → v ≤ 1)) ∧
    (s.setObj k v).rangeOk idx.toNat sub.toNat v = true) ∧
    (∃ (s : State) (role : Role) (idx : BitVec 16) (sub : BitVec 8) (bs : Bytes) (r : ObjRow) (k : Nat) (v : Nat), s.mgmtUp = true ∧
    objRow idx.toNat sub.toNat = some r ∧ k = objKey idx.toNat sub.toNat ∧ v = wireNat r.ty bs ∧ mayWrite role idx.toNat = true ∧ ((r.acc
    = .rw ∨ r.acc = .rl)) ∧ bs.length = r.ty.size ∧ s.runLocked idx.toNat sub.toNat v r.acc = false ∧ ((r.ty = .bool → v ≤ 1)) ∧
    (s.setObj k v).rangeOk idx.toNat sub.toNat v = true ∧ idx.toNat < 0x1300) ∧
    (∃ (s : State) (role : Role) (idx : BitVec 16) (sub : BitVec 8) (bs : Bytes), ((s.mgmtUp = false ∨ objRow idx.toNat sub.toNat = none
    ∨ mayWrite role idx.toNat = false ∨ ∃ r, objRow idx.toNat sub.toNat = some r ∧ (r.acc = .ro ∨ r.acc = .rc ∨ bs.length ≠ r.ty.size ∨
    s.runLocked idx.toNat sub.toNat (wireNat r.ty bs) r.acc = true ∨ ((r.acc = .rw ∨ r.acc = .rl) ∧ ((r.ty = .bool ∧ 1 < wireNat r.ty bs)
    ∨ (s.setObj (objKey idx.toNat sub.toNat) (wireNat r.ty bs)).rangeOk idx.toNat sub.toNat (wireNat r.ty bs) = false)))))) ∧
    (∃ (s : State) (role : Role) (idx : BitVec 16) (sub : BitVec 8) (bs : Bytes), ((s.mgmtUp = false ∨ objRow idx.toNat sub.toNat = none
    ∨ mayWrite role idx.toNat = false ∨ ∃ r, objRow idx.toNat sub.toNat = some r ∧ (r.acc = .ro ∨ r.acc = .rc ∨ bs.length ≠ r.ty.size ∨
    s.runLocked idx.toNat sub.toNat (wireNat r.ty bs) r.acc = true ∨ ((r.acc = .rw ∨ r.acc = .rl) ∧ ((r.ty = .bool ∧ 1 < wireNat r.ty bs)
    ∨ (s.setObj (objKey idx.toNat sub.toNat) (wireNat r.ty bs)).rangeOk idx.toNat sub.toNat (wireNat r.ty bs) = false)))))) ∧
    (∃ (s : State) (role : Role) (n : ParcelId), s.mgmtUp = true ∧ role ≠ .read ∧ s.parMode n = 2 ∧ s.parState n = 3 ∧ ((s.jobState n = 1
    ∨ s.jobState n = 2 ∨ s.jobState n = 5)) ∧ (s.parcel n).reclaim < 2) ∧
    (∃ (s : State) (role : Role) (n : ParcelId), s.mgmtUp = true ∧ role ≠ .read ∧ ((s.parMode n ≠ 2 ∨ s.parState n ≠ 3 ∨ (s.jobState n ≠
    1 ∧ s.jobState n ≠ 2 ∧ s.jobState n ≠ 5)))) ∧
    (∃ (s : State) (role : Role) (n : ParcelId), s.mgmtUp = true ∧ role ≠ .read ∧ s.parMode n = 2 ∧ s.parState n = 3 ∧ (s.parcel
    n).reclaim = 0) ∧
    (∃ (s : State) (role : Role) (n : ParcelId), s.mgmtUp = true ∧ role ≠ .read ∧ ((s.parMode n ≠ 2 ∨ s.parState n ≠ 3 ∨ (s.parcel
    n).reclaim ≠ 0))) ∧
    (∃ (s : State) (role : Role) (n : ParcelId), s.mgmtUp = true ∧ role ≠ .read ∧ s.parState n = 5 ∧ s.bad = []) ∧
    (∃ (s : State) (role : Role) (n : ParcelId), s.mgmtUp = true ∧ role ≠ .read ∧ s.parState n = 5 ∧ s.bad = []) ∧
    (∃ (s : State) (role : Role) (n : ParcelId), s.mgmtUp = true ∧ role ≠ .read ∧ s.parState n ≠ 5) ∧
    (∃ (s : State) (role : Role), s.mgmtUp = true ∧ role ≠ .read) ∧
    (∃ (s : State), s.mgmtUp = true ∧ s.anyActive false = false ∧ s.obj Obj.upd_UPD_STATE ≠ 1) ∧
    (∃ (s : State), s.mgmtUp = true ∧ ((s.anyActive false = true ∨ s.obj Obj.upd_UPD_STATE = 1))) ∧
    (∃ (s : State), s.mgmtUp = true) :=
  ⟨⟨wMgm, .operate, 0x1100, 1, [9], (objRow 0x1100 1).getD ⟨0, 0, .u8, .ro, 0⟩, objKey 0x1100 1, 9, by decide +kernel, by decide +kernel,
    by decide +kernel, by decide +kernel, by decide +kernel, .inl (by decide +kernel), by decide +kernel, by decide +kernel,
    by decide +kernel, by decide +kernel⟩,
   ⟨wMgm, .operate, 0x6101, 1, [1], (objRow 0x6101 1).getD ⟨0, 0, .u8, .ro, 0⟩, objKey 0x6101 1, 1, by decide +kernel, by decide +kernel,
    by decide +kernel, by decide +kernel, by decide +kernel, .inr (by decide +kernel), by decide +kernel, by decide +kernel,
    by decide +kernel, by decide +kernel⟩,
   ⟨wMgm, .operate, 0x1100, 1, [9], (objRow 0x1100 1).getD ⟨0, 0, .u8, .ro, 0⟩, objKey 0x1100 1, 9, by decide +kernel, by decide +kernel,
    by decide +kernel, by decide +kernel, by decide +kernel, .inl (by decide +kernel), by decide +kernel, by decide +kernel,
    by decide +kernel, by decide +kernel, by decide +kernel⟩,
   ⟨wMgm, .read, 0x1100, 1, [9], .inr (.inr (.inl rfl))⟩,
   ⟨wMgm, .operate, 0x1100, 1, [9, 9],
    .inr (.inr (.inr ⟨(objRow 0x1100 1).getD ⟨0, 0, .u8, .ro, 0⟩, by decide +kernel, .inr (.inr (.inl (by decide +kernel)))⟩))⟩,
   ⟨wJobSt 1, .operate, 0, by decide +kernel, by decide +kernel, by decide +kernel, by decide +kernel, .inl (by decide +kernel),
    by decide +kernel⟩,
   ⟨wJobSt 3, .operate, 0, by decide +kernel, by decide +kernel, .inr (.inr (by decide +kernel))⟩,
   ⟨wJobSt 1, .operate, 0, by decide +kernel, by decide +kernel, by decide +kernel, by decide +kernel, by decide +kernel⟩,
   ⟨wJobSt 1, .operate, 1, by decide +kernel, by decide +kernel, .inl (by decide +kernel)⟩,
   ⟨(wJobSt 3).setObj (Obj.fn_STATE 8) 5, .operate, 0, by decide +kernel, by decide +kernel, by decide +kernel, by decide +kernel⟩,
   ⟨((wJobSt 3).setObj (Obj.fn_STATE 8) 5).setObj (Obj.par_BULK_SIZE 0) 2, .operate, 0, by decide +kernel, by decide +kernel,
    by decide +kernel, by decide +kernel⟩,
   ⟨wJobSt 3, .operate, 0, by decide +kernel, by decide +kernel, by decide +kernel⟩,
   ⟨wMgm.setObj Obj.watch_FIRST_OVER_CORE 3, .operate, by decide +kernel, by decide +kernel⟩,
   ⟨(wMgm.setObj (Obj.fn_STATE 8) 5), by decide +kernel, by decide +kernel, by decide +kernel⟩,
   ⟨wMgm, by decide +kernel, .inl (by decide +kernel)⟩,
   ⟨wMgm, by decide +kernel⟩⟩

/-- States and operands that meet the hypotheses of `Obligations.SecurityAndUpdateCommandsAct`. -/
theorem witness_SecurityAndUpdateCommandsAct :
    (∃ (s : State) (d : Bytes), s.mgmtUp = true ∧ d.length = 32) ∧
    (∃ (s : State) (slot : BitVec 8) (role : BitVec 8) (signs : BitVec 8) (key : Bytes) (ops : List OpKey), s.mgmtUp = true ∧ slot.toNat
    < 16 ∧ role.toNat ≤ 3 ∧ signs.toNat < 4 ∧ key.length = 64 ∧ s.sealed.ops.length = 16 ∧ ops = s.sealed.ops.set slot.toNat ⟨key,
    role.toNat, signs.toNat⟩ ∧ ((ops.any (fun o => decide (o.role = 3))) = true)) ∧
    (∃ (s : State) (slot : BitVec 8) (role : BitVec 8) (signs : BitVec 8) (key : Bytes) (ops : List OpKey), s.mgmtUp = true ∧ slot.toNat
    < 16 ∧ role.toNat ≤ 3 ∧ signs.toNat < 4 ∧ key.length = 64 ∧ s.sealed.ops.length = 16 ∧ ops = s.sealed.ops.set slot.toNat ⟨key,
    role.toNat, signs.toNat⟩ ∧ ((ops.any (fun o => decide (o.role = 3))) = false)) ∧
    (∃ (s : State) (nonce : Bytes), s.mgmtUp = true ∧ nonce.length = 32) ∧
    (∃ (s : State) (t : BitVec 8) (i : Nat) (slot : Nat) (svn : Nat), s.mgmtUp = true ∧ s.sealed.counters.length = 8 ∧ t.toNat = i + 1 ∧
    i < 4 ∧ Sparse.get none s.sec.running t.toNat = some (slot, svn) ∧ (s.obj Obj.sec_FALLBACK).testBit i = false) ∧
    (∃ (s : State) (t : BitVec 8) (i : Nat) (slot : Nat) (svn : Nat), s.mgmtUp = true ∧ s.sealed.counters.length = 8 ∧ t.toNat = i + 1 ∧
    i < 4 ∧ Sparse.get none s.sec.running t.toNat = some (slot, svn) ∧ (s.obj Obj.sec_FALLBACK).testBit i = true) ∧
    (∃ (s : State) (k : BitVec 8) (v : Nat), s.mgmtUp = true ∧ s.sealed.counters.length = 8 ∧ k.toNat ≤ 3 ∧ v = s.sealed.counters.getD (4
    + k.toNat) 0 ∧ v ≠ 0xFFFFFFFF) ∧
    (∃ (s : State) (k : BitVec 8) (v : Nat), s.mgmtUp = true ∧ s.sealed.counters.length = 8 ∧ k.toNat ≤ 3 ∧ v = s.sealed.counters.getD (4
    + k.toNat) 0 ∧ v = 0xFFFFFFFF) ∧
    (∃ (s : State) (token : Bytes), s.mgmtUp = true ∧ token.length = 64) ∧
    (∃ (s : State) (v : BitVec 8), s.mgmtUp = true ∧ 1 ≤ v.toNat ∧ v.toNat ≤ 4) ∧
    (∃ (s : State) (v : BitVec 8), s.mgmtUp = true ∧ 1 ≤ v.toNat ∧ v.toNat ≤ 4) ∧
    (∃ (s : State) (v : BitVec 8), s.mgmtUp = true ∧ (v.toNat = 0 ∨ 4 < v.toNat)) ∧
    (∃ (s : State) (v : BitVec 8), s.mgmtUp = true ∧ (v.toNat = 0 ∨ 4 < v.toNat)) ∧
    (∃ (s : State) (ty : Nat) (e : DirEntry), s.mgmtUp = true ∧ ty = s.obj Obj.upd_UPD_TYPE ∧ ty ≠ 0 ∧ s.dirEntry ty (s.inactiveSlot ty)
    = some e ∧ (s.obj Obj.upd_UPD_STATE = 1 ∨ s.obj Obj.upd_UPD_STATE = 3)) ∧
    (∃ (s : State) (ty : Nat) (e : DirEntry), s.mgmtUp = true ∧ ty = s.obj Obj.upd_UPD_TYPE ∧ ty ≠ 0 ∧ s.dirEntry ty (s.inactiveSlot ty)
    = some e ∧ s.obj Obj.upd_UPD_STATE ≠ 1 ∧ s.obj Obj.upd_UPD_STATE ≠ 3) ∧
    (∃ (s : State) (o : Nat) (n : Nat), s.mgmtUp = true ∧ s.updRange = some (o, n) ∧ s.flashLost = [] ∧ s.obj Obj.upd_UPD_STATE = 1) ∧
    (∃ (s : State) (o : Nat) (n : Nat) (d : Bytes) (off : Nat), s.mgmtUp = true ∧ s.updRange = some (o, n) ∧ s.flashLost = [] ∧ d.length
    = 64 ∧ off = s.obj Obj.upd_UPD_OFFSET ∧ off % 64 = 0 ∧ off < n ∧ n ≤ 2 ^ 22 ∧ s.obj Obj.upd_UPD_STATE = 2 ∧ ((∀ i, i < 64 →
    s.flashByte (o + off + i) = 0xFF))) ∧
    (∃ (s : State), s.mgmtUp = true ∧ s.obj Obj.upd_UPD_STATE = 2) ∧
    (∃ (s : State), s.mgmtUp = true ∧ s.obj Obj.upd_UPD_STATE ≠ 2) ∧
    (∃ (s : State) (code : Nat), s.mgmtUp = true ∧ code = s.imageCheck (s.obj Obj.upd_UPD_TYPE) s.sec.updSlot ∧ s.obj Obj.upd_UPD_STATE =
    3) ∧
    (∃ (s : State), s.mgmtUp = true ∧ s.obj Obj.upd_UPD_STATE = 4) ∧
    (∃ (s : State), s.mgmtUp = true ∧ s.obj Obj.upd_UPD_STATE ≠ 4) :=
  ⟨⟨wMgm, List.replicate 32 5, by decide +kernel, by decide +kernel⟩,
   ⟨wMgm, 1, 2, 3, List.replicate 64 7, wMgm.sealed.ops.set 1 ⟨List.replicate 64 7, 2, 3⟩, by decide +kernel, by decide +kernel,
    by decide +kernel, by decide +kernel, by decide +kernel, by decide +kernel, by decide +kernel, by decide +kernel⟩,
   ⟨wMgm, 0, 2, 3, List.replicate 64 7, wMgm.sealed.ops.set 0 ⟨List.replicate 64 7, 2, 3⟩, by decide +kernel, by decide +kernel,
    by decide +kernel, by decide +kernel, by decide +kernel, by decide +kernel, by decide +kernel, by decide +kernel⟩,
   ⟨wMgm, List.replicate 32 5, by decide +kernel, by decide +kernel⟩,
   ⟨wSec 0 0, 1, 0, 1, 9, by decide +kernel, by decide +kernel, by decide +kernel, by decide +kernel, by decide +kernel,
    by decide +kernel⟩,
   ⟨wSec 0 1, 1, 0, 1, 9, by decide +kernel, by decide +kernel, by decide +kernel, by decide +kernel, by decide +kernel,
    by decide +kernel⟩,
   ⟨wSec 0xFFFFFFFE 1, 3, 0xFFFFFFFE, by decide +kernel, by decide +kernel, by decide +kernel, by decide +kernel, by decide +kernel⟩,
   ⟨wSec 0xFFFFFFFF 1, 3, 0xFFFFFFFF, by decide +kernel, by decide +kernel, by decide +kernel, by decide +kernel, by decide +kernel⟩,
   ⟨wMgm, List.replicate 64 7, by decide +kernel, by decide +kernel⟩,
   ⟨wMgm, 4, by decide +kernel, by decide +kernel⟩,
   ⟨wMgm, 1, by decide +kernel, by decide +kernel⟩,
   ⟨wMgm, 0, by decide +kernel, .inl rfl⟩,
   ⟨wMgm, 5, by decide +kernel, .inr (by decide)⟩,
   ⟨wUpd 3 0, 1, ⟨1, 1, 0x8000, 8192⟩, by decide +kernel, by decide +kernel, by decide +kernel, by decide +kernel, .inr rfl⟩,
   ⟨wUpd 2 64, 1, ⟨1, 1, 0x8000, 8192⟩, by decide +kernel, by decide +kernel, by decide +kernel, by decide +kernel, by decide +kernel,
    by decide +kernel⟩,
   ⟨wUpd 1 0, 0x8000, 8192, by decide +kernel, by decide +kernel, by decide +kernel, by decide +kernel⟩,
   ⟨wUpd 2 8128, 0x8000, 8192, List.replicate 64 7, 8128, by decide +kernel, by decide +kernel, by decide +kernel, by decide +kernel,
    by decide +kernel, by decide +kernel, by decide +kernel, by decide +kernel, by decide +kernel, by decide +kernel⟩,
   ⟨wUpd 2 0, by decide +kernel, by decide +kernel⟩,
   ⟨wUpd 3 0, by decide +kernel, by decide +kernel⟩,
   ⟨wUpd 3 0, 1, by decide +kernel, by decide +kernel, by decide +kernel⟩,
   ⟨wUpd 4 0, by decide +kernel, by decide +kernel⟩,
   ⟨wUpd 3 0, by decide +kernel, by decide +kernel⟩⟩

/-- States and operands that meet the hypotheses of `Obligations.DapSessionsAnswerInSequence`. -/
theorem witness_DapSessionsAnswerInSequence :
    (∃ (s : State) (cl : DapClient) (msg : Bytes) (x : Instr), s.mgmtUp = true ∧ dapParse msg = none ∧ x ∈ [Instr.dapOpenA cl msg,
    .dapOpenC cl msg, .dapRead cl msg, .dapWrite cl msg, .dapClose cl msg]) ∧
    (∃ (s : State) (msg : Bytes) (m : DapMsg) (slot : Nat), s.mgmtUp = true ∧ dapParse msg = some m ∧ m.type = 0x02 ∧ slot = byteAt
    m.body 0 ∧ slotRole (s.opSlot slot) = none) ∧
    (∃ (s : State) (msg : Bytes) (m : DapMsg) (slot : Nat) (r : Nat), s.mgmtUp = true ∧ dapParse msg = some m ∧ m.type = 0x02 ∧ slot =
    byteAt m.body 0 ∧ slotRole (s.opSlot slot) ≠ none ∧ r = Config.freeNat s.freshCtr % (sm2N - 1) + 1) ∧
    (∃ (s : State) (msg : Bytes) (m : DapMsg) (x : Session), s.mgmtUp = true ∧ dapParse msg = some m ∧ m.type = 0x04 ∧ s.session
    m.session = some x ∧ x.confirmed = false ∧ m.body ≠ x.sA) ∧
    (∃ (s : State) (msg : Bytes) (m : DapMsg) (x : Session), s.mgmtUp = true ∧ dapParse msg = some m ∧ m.type = 0x04 ∧ s.session
    m.session = some x ∧ x.confirmed = false ∧ m.body = x.sA ∧ hmacSm3 x.keyIn m.head = m.mac ∧ m.seq = 0) ∧
    (∃ (s : State) (cl : DapClient) (msg : Bytes) (m : DapMsg) (x : Session) (c : Instr), s.mgmtUp = true ∧ dapParse msg = some m ∧
    s.session m.session = some x ∧ x.confirmed = true ∧ (((m.type = 0x10 ∧ c = .dapRead cl msg) ∨ (m.type = 0x12 ∧ c = .dapWrite cl msg)
    ∨ (m.type = 0x1E ∧ c = .dapClose cl msg))) ∧ hmacSm3 x.keyIn m.head ≠ m.mac) ∧
    (∃ (s : State) (cl : DapClient) (msg : Bytes) (m : DapMsg) (x : Session) (c : Instr), s.mgmtUp = true ∧ dapParse msg = some m ∧
    s.session m.session = some x ∧ x.confirmed = true ∧ (((m.type = 0x10 ∧ c = .dapRead cl msg) ∨ (m.type = 0x12 ∧ c = .dapWrite cl msg)
    ∨ (m.type = 0x1E ∧ c = .dapClose cl msg))) ∧ hmacSm3 x.keyIn m.head = m.mac ∧ m.seq = x.last) ∧
    (∃ (s : State) (cl : DapClient) (msg : Bytes) (m : DapMsg) (x : Session) (c : Instr), s.mgmtUp = true ∧ dapParse msg = some m ∧
    s.session m.session = some x ∧ x.confirmed = true ∧ (((m.type = 0x10 ∧ c = .dapRead cl msg) ∨ (m.type = 0x12 ∧ c = .dapWrite cl msg)
    ∨ (m.type = 0x1E ∧ c = .dapClose cl msg))) ∧ hmacSm3 x.keyIn m.head = m.mac ∧ m.seq ≠ x.last ∧ m.seq ≠ x.last + 1) ∧
    (∃ (s : State) (cl : DapClient) (msg : Bytes) (m : DapMsg) (x : Session) (c : Instr) (u : State) (st : Nat) (body : Bytes), s.mgmtUp
    = true ∧ dapParse msg = some m ∧ s.session m.session = some x ∧ x.confirmed = true ∧ (((m.type = 0x10 ∧ c = .dapRead cl msg) ∨
    (m.type = 0x12 ∧ c = .dapWrite cl msg) ∨ (m.type = 0x1E ∧ c = .dapClose cl msg))) ∧ hmacSm3 x.keyIn m.head = m.mac ∧ m.seq = x.last +
    1 ∧ m.type = 0x10 ∧ s.dapReadBody m.body = (u, st, body)) ∧
    (∃ (s : State) (cl : DapClient) (msg : Bytes) (m : DapMsg) (x : Session) (c : Instr), s.mgmtUp = true ∧ dapParse msg = some m ∧
    s.session m.session = some x ∧ x.confirmed = true ∧ (((m.type = 0x10 ∧ c = .dapRead cl msg) ∨ (m.type = 0x12 ∧ c = .dapWrite cl msg)
    ∨ (m.type = 0x1E ∧ c = .dapClose cl msg))) ∧ hmacSm3 x.keyIn m.head = m.mac ∧ m.seq = x.last + 1 ∧ m.type = 0x1E) ∧
    (∃ (s : State) (cl : DapClient) (msg : Bytes) (m : DapMsg) (x : Session) (c : Instr) (u : State) (st : Nat) (i : Nat), s.mgmtUp =
    true ∧ dapParse msg = some m ∧ s.session m.session = some x ∧ x.confirmed = true ∧ (((m.type = 0x10 ∧ c = .dapRead cl msg) ∨ (m.type
    = 0x12 ∧ c = .dapWrite cl msg) ∨ (m.type = 0x1E ∧ c = .dapClose cl msg))) ∧ hmacSm3 x.keyIn m.head = m.mac ∧ m.seq = x.last + 1 ∧
    m.type = 0x12 ∧ s.dapWriteBody ((slotRole (s.opSlot x.slot)).getD .read) m.body = (u, st, i)) ∧
    (∃ (s : State) (role : Role) (es : List WEntry) (u : State) (i : Nat) (c : Nat), s.mgmtUp = true ∧ s.dictWrite (some role) es = (u,
    some (i, c)) ∧ ((∀ e ∈ es, e.idx ≠ 0x1300 ∨ e.sub ≠ 4))) ∧
    (∃ (s : State) (id : BitVec 32) (x : Session), s.mgmtUp = true ∧ s.session id.toNat = some x ∧ x.expires < 2 ^ 64 ∧ x.confirmed =
    false) ∧
    (∃ (s : State) (id : BitVec 32) (x : Session), s.mgmtUp = true ∧ s.session id.toNat = some x ∧ x.expires < 2 ^ 64 ∧ x.confirmed =
    true) :=
  ⟨⟨wMgm, wCl, [1], .dapRead wCl [1], by decide +kernel, by decide +kernel, by simp⟩,
   ⟨wMgm, wOpen 5, (dapParse (wOpen 5)).getD ⟨0, 0, 0, [], [], []⟩, 5, by decide +kernel, by decide +kernel, by decide +kernel,
    by decide +kernel, by decide +kernel⟩,
   ⟨wMgm, wOpen 0, (dapParse (wOpen 0)).getD ⟨0, 0, 0, [], [], []⟩, 0, Config.freeNat wMgm.freshCtr % (sm2N - 1) + 1, by decide +kernel,
    by decide +kernel, by decide +kernel, by decide +kernel, by decide +kernel, rfl⟩,
   ⟨wDap false, wMsg 0x04 0 (List.replicate 32 8) true, wReqD 0x04 0 (List.replicate 32 8) true, wSess false, by decide +kernel,
    by decide +kernel, by decide +kernel, by decide +kernel, by decide +kernel, by decide +kernel⟩,
   ⟨wDap false, wMsg 0x04 0 (List.replicate 32 9) true, wReqD 0x04 0 (List.replicate 32 9) true, wSess false, by decide +kernel,
    by decide +kernel, by decide +kernel, by decide +kernel, by decide +kernel, by decide +kernel, by decide +kernel, by decide +kernel⟩,
   ⟨wDap true, wCl, wMsg 0x10 8 [1, 0, 0, 0, 0x20, 0, 1, 0] false, wReqD 0x10 8 [1, 0, 0, 0, 0x20, 0, 1, 0] false, wSess true,
    .dapRead wCl (wMsg 0x10 8 [1, 0, 0, 0, 0x20, 0, 1, 0] false), by decide +kernel, by decide +kernel, by decide +kernel,
    by decide +kernel, .inl ⟨rfl, rfl⟩, by decide +kernel⟩,
   ⟨wDap true, wCl, wMsg 0x10 7 [1, 0, 0, 0, 0x20, 0, 1, 0] true, wReqD 0x10 7 [1, 0, 0, 0, 0x20, 0, 1, 0] true, wSess true,
    .dapRead wCl (wMsg 0x10 7 [1, 0, 0, 0, 0x20, 0, 1, 0] true), by decide +kernel, by decide +kernel, by decide +kernel,
    by decide +kernel, .inl ⟨rfl, rfl⟩, by decide +kernel, by decide +kernel⟩,
   ⟨wDap true, wCl, wMsg 0x10 9 [1, 0, 0, 0, 0x20, 0, 1, 0] true, wReqD 0x10 9 [1, 0, 0, 0, 0x20, 0, 1, 0] true, wSess true,
    .dapRead wCl (wMsg 0x10 9 [1, 0, 0, 0, 0x20, 0, 1, 0] true), by decide +kernel, by decide +kernel, by decide +kernel,
    by decide +kernel, .inl ⟨rfl, rfl⟩, by decide +kernel, by decide +kernel, by decide +kernel⟩,
   ⟨wDap true, wCl, wMsg 0x10 8 [1, 0, 0, 0, 0x20, 0, 1, 0] true, wReqD 0x10 8 [1, 0, 0, 0, 0x20, 0, 1, 0] true, wSess true,
    .dapRead wCl (wMsg 0x10 8 [1, 0, 0, 0, 0x20, 0, 1, 0] true), ((wDap true).dapReadBody [1, 0, 0, 0, 0x20, 0, 1, 0]).1,
    ((wDap true).dapReadBody [1, 0, 0, 0, 0x20, 0, 1, 0]).2.1, ((wDap true).dapReadBody [1, 0, 0, 0, 0x20, 0, 1, 0]).2.2,
    by decide +kernel, by decide +kernel, by decide +kernel, by decide +kernel, .inl ⟨rfl, rfl⟩, by decide +kernel, by decide +kernel,
    by decide +kernel, by decide +kernel⟩,
   ⟨wDap true, wCl, wMsg 0x1E 8 [] true, wReqD 0x1E 8 [] true, wSess true, .dapClose wCl (wMsg 0x1E 8 [] true), by decide +kernel,
    by decide +kernel, by decide +kernel, by decide +kernel, .inr (.inr ⟨rfl, rfl⟩), by decide +kernel, by decide +kernel,
    by decide +kernel⟩,
   ⟨wDap true, wCl, wMsg 0x12 8 [0, 0, 0, 0] true, wReqD 0x12 8 [0, 0, 0, 0] true, wSess true,
    .dapWrite wCl (wMsg 0x12 8 [0, 0, 0, 0] true),
    ((wDap true).dapWriteBody ((slotRole ((wDap true).opSlot (wSess true).slot)).getD .read) (wReqD 0x12 8 [0, 0, 0, 0] true).body).1,
    ((wDap true).dapWriteBody ((slotRole ((wDap true).opSlot (wSess true).slot)).getD .read) (wReqD 0x12 8 [0, 0, 0, 0] true).body).2.1,
    ((wDap true).dapWriteBody ((slotRole ((wDap true).opSlot (wSess true).slot)).getD .read) (wReqD 0x12 8 [0, 0, 0, 0] true).body).2.2,
    by decide +kernel, by decide +kernel, by decide +kernel, by decide +kernel, .inr (.inl ⟨rfl, rfl⟩), by decide +kernel,
    by decide +kernel, by decide +kernel, by rfl⟩,
   ⟨wDap true, .operate, [⟨0x1100, 1, 1, 9⟩, ⟨0x1000, 1, 1, 9⟩], wDap true, 1, 2, by decide +kernel, by decide +kernel, by decide⟩,
   ⟨wDap false, 3, wSess false, by decide +kernel, by decide +kernel, by decide +kernel, by decide +kernel⟩,
   ⟨wDap true, 3, wSess true, by decide +kernel, by decide +kernel, by decide +kernel, by decide +kernel⟩⟩

/-- States and operands that meet the hypotheses of `Obligations.BoardBusesAnswerWithoutWriting`. -/
theorem witness_BoardBusesAnswerWithoutWriting :
    (∃ (s : State) (static_ : BitVec 7), s.poweredUp = true ∧ static_ = 0x3A) ∧
    (∃ (s : State) (static_ : BitVec 7), s.poweredUp = true ∧ static_ ≠ 0x3A) ∧
    (∃ (s : State), s.poweredUp = true ∧ s.mgmt.i3cAddr = none) ∧
    (∃ (s : State), s.poweredUp = true ∧ s.mgmt.i3cAddr ≠ none) ∧
    (∃ (s : State), s.poweredUp = true) ∧
    (∃ (s : State) (a : Nat), s.poweredUp = true ∧ s.mgmt.i3cAddr = some a) ∧
    (∃ (s : State) (a : Nat) (data : Bytes), s.poweredUp = true ∧ s.mgmt.i3cAddr = some a ∧ data.length = 3) ∧
    (∃ (s : State) (a : Nat) (data : Bytes), s.poweredUp = true ∧ s.mgmt.i3cAddr = some a ∧ data.length ≠ 3) ∧
    (∃ (s : State) (a : Nat), s.poweredUp = true ∧ s.mgmt.i3cAddr = some a ∧ s.mgmt.i3cSel = none) ∧
    (∃ (s : State) (a : Nat) (idx : Nat) (sub : Nat) (c : Nat) (r : ObjRow) (u : State) (v : Nat), s.poweredUp = true ∧ s.mgmt.i3cAddr =
    some a ∧ s.mgmt.i3cSel = some (idx, sub) ∧ viewFrom idx sub = some c ∧ objRow idx sub = some r ∧ s.viewReady c = true ∧ ((idx ≠
    0x2000 ∨ sub ≠ 5)) ∧ s.readValue idx sub r = (u, v)) ∧
    (∃ (s : State) (gigabit : Bool), s.fnState 0 ≠ 0 ∧ s.obj Obj.mgmt_MGMT_LINK = 0 ∧ s.mgmt.slowLink = gigabit) ∧
    (∃ (s : State) (gigabit : Bool), s.fnState 0 ≠ 0 ∧ s.obj Obj.mgmt_MGMT_LINK = 0 ∧ s.mgmt.slowLink = gigabit) ∧
    (∃ (s : State), s.fnState 0 ≠ 0 ∧ s.obj Obj.mgmt_MGMT_LINK ≠ 0) ∧
    (∃ (s : State), s.fnState 0 ≠ 0 ∧ s.obj Obj.mgmt_MGMT_LINK = 0 ∧ s.mgmt.slowLink = false) :=
  ⟨⟨wBus none, 0x3A, by decide +kernel, by decide +kernel⟩,
   ⟨wBus none, 0x3B, by decide +kernel, by decide +kernel⟩,
   ⟨wMgm, by decide +kernel, by decide +kernel⟩,
   ⟨wBus none, by decide +kernel, by decide +kernel⟩,
   ⟨wBus none, by decide +kernel⟩,
   ⟨wBus none, 8, by decide +kernel, by decide +kernel⟩,
   ⟨wBus none, 8, [0x20, 0, 1], by decide +kernel, by decide +kernel, by decide +kernel⟩,
   ⟨wBus none, 8, [0x20, 0], by decide +kernel, by decide +kernel, by decide +kernel⟩,
   ⟨wBus none, 8, by decide +kernel, by decide +kernel, by decide +kernel⟩,
   ⟨wBus (some (0x2000, 1)), 8, 0x2000, 1, 0, (objRow 0x2000 1).getD ⟨0, 0, .u8, .ro, 0⟩,
    ((wBus (some (0x2000, 1))).readValue 0x2000 1 ((objRow 0x2000 1).getD ⟨0, 0, .u8, .ro, 0⟩)).1,
    ((wBus (some (0x2000, 1))).readValue 0x2000 1 ((objRow 0x2000 1).getD ⟨0, 0, .u8, .ro, 0⟩)).2, by decide +kernel, by decide +kernel,
    by decide +kernel, by decide +kernel, by decide +kernel, by decide +kernel, .inr (by decide), by decide +kernel⟩,
   ⟨wMgm, false, by decide +kernel, by decide +kernel, by decide +kernel⟩,
   ⟨{ wMgm with mgmt := { wMgm.mgmt with slowLink := true } }, true, by decide +kernel, by decide +kernel, by decide +kernel⟩,
   ⟨wMgm.setObj Obj.mgmt_MGMT_LINK 2, by decide +kernel, by decide +kernel⟩,
   ⟨wMgm, by decide +kernel, by decide +kernel, by decide +kernel⟩⟩

/-- States and operands that meet the hypotheses of `Obligations.EveryStepKeepsTheCanonicalForms`. -/
theorem witness_EveryStepKeepsTheCanonicalForms :
    ∃ (s : State) (t : State), s.memWf = true ∧ s.dictWf = true ∧ Sparse.wf 0xFF s.flash = true ∧ step s = .next t :=
  ⟨wQueued, wStepped, by decide +kernel, by decide +kernel, by decide +kernel, by rfl⟩

/-- States and operands that meet the hypotheses of `Obligations.NoStepUndoesTheSealedStore`. -/
theorem witness_NoStepUndoesTheSealedStore :
    (∃ (s : State) (t : State), step s = .next t) ∧
    (∃ (s : State) (t : State), step s = .next t ∧ s.sealed.keysOk = true) :=
  ⟨⟨wQueued, wStepped, by rfl⟩,
   ⟨wQueued, wStepped, by rfl, by decide +kernel⟩⟩

end Sys2Proof.Tests
end

section
/-! PROOF. Scalar operations, `core.id` and `core.time` (R72, R105): each is one control operation without checks that writes one
register, so its next state is the fetched state, counted as issued, with that register written. -/

namespace Sys2Proof.Machine

/-! ### The values of R105, as the operations compute them -/

/-- A shift's count is the low 6 bits of its operand. -/
theorem and_63_toNat (y : BitVec 64) : (y &&& 63#64).toNat = y.toNat % 64 := by
  rw [BitVec.toNat_and]; exact Nat.and_two_pow_sub_one_eq_mod _ 6

theorem shiftLeft_and_63 (x y : BitVec 64) : x <<< (y.toNat % 64) = x <<< (y &&& 63#64) := by
  rw [BitVec.shiftLeft_eq', and_63_toNat]

theorem ushiftRight_and_63 (x y : BitVec 64) : x >>> (y.toNat % 64) = x >>> (y &&& 63#64) := by
  rw [BitVec.ushiftRight_eq', and_63_toNat]

theorem cmp64_eq_ofInt (x y : BitVec 64) :
    cmp64 x y = BitVec.ofInt 64 (if x.toInt < y.toInt then -1 else if x.toInt = y.toInt then 0 else 1) := by
  simp only [cmp64, BitVec.toInt_inj]
  split
  · rfl
  · split <;> rfl

section
variable {s₀ s : State} {c : CoreId}

/-- The objects below the cores' indices are not their counts. -/
theorem objKey_ne_OPS_ISSUED {i j : Nat} (hi : i < 0x6800) (hj : j < 256) (c : Nat) : objKey i j ≠ Obj.core_OPS_ISSUED c := by
  unfold Obj.core_OPS_ISSUED objKey; omega

/-- The logical id comes from the topology objects, which issue leaves (R217). -/
@[simp] theorem State.logicalId_issued (routine : Bool) : (s.issued c routine).logicalId = s.logicalId := by
  have hg : (s.issued c routine).obj Obj.topo_GROUP = s.obj Obj.topo_GROUP :=
    s.obj_issued_other c routine (objKey_ne_OPS_ISSUED (by decide) (by decide) c)
  have hp : (s.issued c routine).obj Obj.topo_POSITION = s.obj Obj.topo_POSITION :=
    s.obj_issued_other c routine (objKey_ne_OPS_ISSUED (by decide) (by decide) c)
  have hs : (s.issued c routine).standin = s.standin :=
    (congrArg State.standin (s.issued_only c routine) :)
  simp only [State.logicalId, hg, hp, hs]

@[simp] theorem State.ft_issued (routine : Bool) : (s.issued c routine).ft = s.ft :=
  (congrArg State.ft (s.issued_only c routine) :)

/-! ### The next state -/

/-- A control operation without checks that writes `f` to a register, where `f` is `v` in the state in which it was counted. -/
theorem State.control_setReg {routine : Bool} {f : State → BitVec 64} {v : BitVec 64} (hf : Fetched s₀ c routine s) (d : Reg)
    (hv : f (s.issued c routine) = v) :
    s₀.control c routine [] (fun u => u.setReg c d (f u)) = (s.issued c routine).setReg c d v := by
  rw [State.control_next hf.1 hf.2 rfl, hv]

/-- A two-operand scalar operation reads its operands as the fetched state holds them. -/
theorem State.scalar_eq_setReg {f : BitVec 64 → BitVec 64 → BitVec 64} {v : BitVec 64} {a b : Src} (hf : Fetched s₀ c false s)
    (d : Reg) (hv : f ((s.core c).val a) ((s.core c).val b) = v) :
    s₀.scalar c d a b f = (s.issued c false).setReg c d v := by
  refine State.control_setReg hf d ?_
  rw [State.core_issued, Core.val_moved, Core.val_moved, hv]

/-- The next state of an operation of `scalarResult`: the fetched state, issued, with its register written. -/
theorem exec_scalarResult {i : Instr} {d : Reg} {v : BitVec 64} (h : scalarResult s i = some (c, d, v))
    (hf : Fetched s₀ c false s) : exec i s₀ = .next ((s.issued c false).setReg c d v) := by
  cases i <;> cases h
  case scLi => exact congrArg _ (State.control_setReg hf d rfl)
  case scShl => exact congrArg _ (State.scalar_eq_setReg hf d (shiftLeft_and_63 _ _))
  case scShr => exact congrArg _ (State.scalar_eq_setReg hf d (ushiftRight_and_63 _ _))
  case scCmp => exact congrArg _ (State.scalar_eq_setReg hf d (cmp64_eq_ofInt _ _))
  case coreIdOp => exact congrArg _ (State.control_setReg hf d (by rw [State.logicalId_issued, Nat.add_comm]))
  case coreTime => exact congrArg _ (State.control_setReg hf d (by simp [State.now]))
  case scAdd | scSub | scMul | scAnd | scOr | scXor => exact congrArg _ (State.scalar_eq_setReg hf d rfl)

end

/-- Settles O3: the next state is known exactly (`exec_scalarResult`), and issue and register write each have their frame. -/
theorem scalarOperationWritesItsRegister : Obligations.ScalarOperationWritesItsRegister := by
  intro s₀ s i c d v h hf
  refine ⟨_, exec_scalarResult h hf, (Issued.issued s false c).setReg d v, ?_⟩
  rw [State.setReg, State.core_modCore_same, State.core_issued]
  exact RegWritten.setReg (s.core c) false d v

end Sys2Proof.Machine
end

section
/-! PROOF. Frames of the operations that move functions, enter errors and halt or restart cores: what they leave of time, memory, cores,
parcels and objects. -/

namespace Sys2Proof.Machine

/-! ### Two frames -/

/-- Fabric Time, the parcels' records and every object outside `P` are as they were. -/
structure Beside (P : Nat → Prop) (s t : State) : Prop where
  ft : t.ft = s.ft
  parcels : t.parcels = s.parcels
  objs : ∀ k, ¬ P k → t.obj k = s.obj k

/-- Nothing waits in the switch core to be transferred, queued or sent. -/
def Switch.Quiet (w : Switch) : Prop := w.stages = [] ∧ w.queues = [] ∧ w.outs = []

/-- Besides, memory, the cores, what a start and a stop mark, the clears in progress and the index of the free values are as they
were, and a quiet switch core stays quiet. -/
structure Steady (P : Nat → Prop) (s t : State) : Prop extends Beside P s t where
  mem : t.mem = s.mem
  cores : t.cores = s.cores
  sec : t.sec = s.sec
  freshCtr : t.freshCtr = s.freshCtr
  dieClears : t.dieClears = s.dieClears
  steClears : t.steClears = s.steClears
  quiet : s.sw.Quiet → t.sw.Quiet

section
variable {P Q : Nat → Prop} {s t u : State}

theorem Beside.refl (P : Nat → Prop) (s : State) : Beside P s s := ⟨rfl, rfl, fun _ _ => rfl⟩

theorem Beside.trans (h : Beside P s t) (g : Beside P t u) : Beside P s u :=
  ⟨g.ft.trans h.ft, g.parcels.trans h.parcels, fun k hk => (g.objs k hk).trans (h.objs k hk)⟩

theorem Beside.mono (h : Beside P s t) (g : ∀ k, P k → Q k) : Beside Q s t :=
  ⟨h.ft, h.parcels, fun k hk => h.objs k (fun x => hk (g k x))⟩

theorem Beside.now (h : Beside P s t) : t.now = s.now := congrArg BitVec.toNat h.ft

theorem Beside.parcel (h : Beside P s t) (n : Nat) : t.parcel n = s.parcel n := congrArg (Sparse.get Parcel.reset · n) h.parcels

theorem Beside.foldl {β : Type} {g : State → β → State} {l : List β} (h : Beside P s t)
    (step : ∀ u, ∀ x ∈ l, Beside P u (g u x)) : Beside P s (l.foldl g t) :=
  List.foldlRecOn (motive := Beside P s) l g h (fun u hu x hx => hu.trans (step u x hx))

theorem Beside.setObj (h : Beside P s t) {k : Nat} (v : Nat) (hk : P k) : Beside P s (t.setObj k v) :=
  ⟨h.ft, h.parcels, fun j hj => by rw [State.obj_setObj_other t v (fun e : j = k => hj (by rwa [e])), h.objs j hj]⟩

theorem Beside.addObj (h : Beside P s t) {k : Nat} (n : Nat) (hk : P k) : Beside P s (t.addObj k n) := by
  unfold State.addObj; split
  · exact h
  · exact h.setObj _ hk

theorem Beside.bump (h : Beside P s t) {k : Nat} (hk : P k) : Beside P s (t.bump k) := h.addObj 1 hk

theorem Beside.setCore (h : Beside P s t) (c : Nat) (k : Core) : Beside P s (t.setCore c k) := ⟨h.ft, h.parcels, h.objs⟩

theorem Beside.modCore (h : Beside P s t) (c : Nat) (f : Core → Core) : Beside P s (t.modCore c f) := h.setCore c _

theorem Beside.pokeByte (h : Beside P s t) (k : Nat) (b : Byte) : Beside P s (t.pokeByte k b) := ⟨h.ft, h.parcels, h.objs⟩

theorem Steady.refl (P : Nat → Prop) (s : State) : Steady P s s := ⟨Beside.refl P s, rfl, rfl, rfl, rfl, rfl, rfl, id⟩

theorem Steady.trans (h : Steady P s t) (g : Steady P t u) : Steady P s u :=
  ⟨h.toBeside.trans g.toBeside, g.mem.trans h.mem, g.cores.trans h.cores, g.sec.trans h.sec, g.freshCtr.trans h.freshCtr,
    g.dieClears.trans h.dieClears, g.steClears.trans h.steClears, fun q => g.quiet (h.quiet q)⟩

theorem Steady.mono (h : Steady P s t) (g : ∀ k, P k → Q k) : Steady Q s t :=
  ⟨h.toBeside.mono g, h.mem, h.cores, h.sec, h.freshCtr, h.dieClears, h.steClears, h.quiet⟩

theorem Steady.foldl {β : Type} {g : State → β → State} {l : List β} (h : Steady P s t)
    (step : ∀ u, ∀ x ∈ l, Steady P u (g u x)) : Steady P s (l.foldl g t) :=
  List.foldlRecOn (motive := Steady P s) l g h (fun u hu x hx => hu.trans (step u x hx))

theorem Steady.setObj (h : Steady P s t) {k : Nat} (v : Nat) (hk : P k) : Steady P s (t.setObj k v) :=
  ⟨h.toBeside.setObj v hk, h.mem, h.cores, h.sec, h.freshCtr, h.dieClears, h.steClears, h.quiet⟩

theorem Steady.addObj (h : Steady P s t) {k : Nat} (n : Nat) (hk : P k) : Steady P s (t.addObj k n) := by
  unfold State.addObj; split
  · exact h
  · exact h.setObj _ hk

theorem Steady.bump (h : Steady P s t) {k : Nat} (hk : P k) : Steady P s (t.bump k) := h.addObj 1 hk

/-- The parts of the time function and the mask of first INITs are in no frame. -/
theorem Steady.modTime (h : Steady P s t) (x : TimeSt) : Steady P s { t with time := x } :=
  ⟨⟨h.ft, h.parcels, h.objs⟩, h.mem, h.cores, h.sec, h.freshCtr, h.dieClears, h.steClears, h.quiet⟩

theorem Steady.setFirstInit (h : Steady P s t) (x : Nat) : Steady P s { t with firstInit := x } :=
  ⟨⟨h.ft, h.parcels, h.objs⟩, h.mem, h.cores, h.sec, h.freshCtr, h.dieClears, h.steClears, h.quiet⟩

theorem Steady.setFtInc (h : Steady P s t) (x : BitVec 48) : Steady P s { t with ftInc := x } :=
  ⟨⟨h.ft, h.parcels, h.objs⟩, h.mem, h.cores, h.sec, h.freshCtr, h.dieClears, h.steClears, h.quiet⟩

theorem Steady.setLinks (h : Steady P s t) (x : Sparse Link) : Steady P s { t with links := x } :=
  ⟨⟨h.ft, h.parcels, h.objs⟩, h.mem, h.cores, h.sec, h.freshCtr, h.dieClears, h.steClears, h.quiet⟩

theorem Steady.ite {c : Prop} [Decidable c] (h : Steady P s t) (g : Steady P s u) : Steady P s (if c then t else u) := by
  split <;> assumption

theorem Beside.ite {c : Prop} [Decidable c] (h : Beside P s t) (g : Beside P s u) : Beside P s (if c then t else u) := by
  split <;> assumption

end

/-! ### What a fold over units reaches -/

/-- What an operation gives its own unit, and does not take from another, every unit of a list has after the operation on each. -/
theorem State.foldl_reaches {Q : Nat → State → Prop} {g : State → Nat → State} (set : ∀ s c, Q c (g s c))
    (keep : ∀ s c b, b ≠ c → Q b s → Q b (g s c)) {l : List Nat} {b : Nat} (h : b ∈ l) (s : State) : Q b (l.foldl g s) := by
  induction l using List.reverseRecOn with
  | nil => cases h
  | append_singleton l c ih =>
    rw [List.foldl_append, List.foldl_cons, List.foldl_nil]
    by_cases e : b = c
    · exact e ▸ set _ _
    · exact keep _ _ _ e (ih (by simpa [e] using h))

/-! ### Parcels and their dies -/

section
variable {P : Nat → Prop} {s t : State}

/-- A die's parcel comes from the DIE_MASKs alone (R13). -/
theorem State.dieParcel_congr (h : ∀ n < 4, t.obj (Obj.par_DIE_MASK n) = s.obj (Obj.par_DIE_MASK n)) : t.dieParcel = s.dieParcel := by
  funext k
  simp only [State.dieParcel, findParcel, List.find?_cons, List.find?_nil, h 0 (by decide), h 1 (by decide),
    h 2 (by decide), h 3 (by decide)]

theorem State.coreParcel_congr (h : ∀ n < 4, t.obj (Obj.par_DIE_MASK n) = s.obj (Obj.par_DIE_MASK n)) : t.coreParcel = s.coreParcel := by
  funext c; simp only [State.coreParcel, State.dieParcel_congr h]

/-- A parcel's core is listed as soon as it differs from an idle one. -/
theorem Sparse.mem_keys_of_get_ne {α : Type} {d : α} {m : Sparse α} {k : Nat} (h : Sparse.get d m k ≠ d) : k ∈ m.map Prod.fst := by
  induction m with
  | nil => exact absurd rfl h
  | cons e m ih =>
    rw [Sparse.get_cons] at h
    split at h
    · next e => exact e ▸ List.mem_cons_self ..
    · exact List.mem_cons_of_mem _ (ih h)

theorem State.coreParcel_lt {n c : Nat} (h : s.coreParcel c = some n) : c < 1152 := by
  unfold State.coreParcel at h; split at h
  · assumption
  · cases h

theorem State.mem_parCores {n c : Nat} (h : s.coreParcel c = some n) (hc : s.core c ≠ Core.reset) : c ∈ s.parCores n := by
  unfold State.parCores State.coresWhere
  exact List.mem_filter.2 ⟨Sparse.mem_keys_of_get_ne hc, by simp [State.coreParcel_lt h, h]⟩

theorem State.of_mem_parCores {n c : Nat} (h : c ∈ s.parCores n) : s.coreParcel c = some n := by
  have := (List.mem_filter.1 h).2
  simp only [Bool.and_eq_true, decide_eq_true_eq] at this
  exact this.2

theorem State.mem_mapped {n c : Nat} : c ∈ s.mapped n ↔ s.coreParcel c = some n ∧ (s.core c).mapped = true := by
  unfold State.mapped
  rw [List.mem_filter]
  refine ⟨fun h => ⟨State.of_mem_parCores h.1, h.2⟩, fun h => ⟨State.mem_parCores h.1 (fun e => ?_), h.2⟩⟩
  have := h.2
  rw [e] at this; cases this

end

end Sys2Proof.Machine
end

section
/-! PROOF. What the change of a function's state changes (R398, R399), and what enters an advisory (R376, R377). -/

namespace Sys2Proof.Machine

/-! ### The state of the device and of its time -/

/-- The objects of the time function and of the device. -/
def TimeKey (k : Nat) : Prop := k / 256 = 0x1100 ∨ k / 256 = 0x2000

section
variable {s t : State}

theorem Steady.bumpChange (h : Steady TimeKey s t) : Steady TimeKey s t.bumpChange := h.setObj _ (.inr (by decide))

theorem Steady.setDeviceState (h : Steady TimeKey s t) (v : Nat) : Steady TimeKey s (t.setDeviceState v) :=
  .ite h (h.setObj _ (.inr (by decide))).bumpChange

theorem Steady.updDeviceState (h : Steady TimeKey s t) : Steady TimeKey s t.updDeviceState :=
  .ite h (.ite (h.setDeviceState 1) (h.setDeviceState 0))

theorem Steady.setFreq (h : Steady TimeKey s t) (adj : Int) : Steady TimeKey s (t.setFreq adj) :=
  (h.setFtInc _).setObj _ (.inl (by decide))

theorem Steady.setTimeState (h : Steady TimeKey s t) (v : Nat) : Steady TimeKey s (t.setTimeState v) := by
  have hv := (h.setObj (k := Obj.time_TIME_STATE) v (.inl (by decide))).bumpChange
  exact .ite h (.ite ((hv.modTime _).setObj _ (.inl (by decide))) hv)

theorem Steady.setDatum (h : Steady TimeKey s t) (phys prio dist parent : Nat) : Steady TimeKey s (t.setDatum phys prio dist parent) :=
  (((h.setObj _ (.inl (by decide))).setObj _ (.inl (by decide))).setObj _ (.inl (by decide))).setObj _ (.inl (by decide))

theorem Steady.timeStop (h : Steady TimeKey s t) : Steady TimeKey s t.timeStop :=
  (((((h.modTime _).setTimeState 0).setFreq 0).setDatum _ _ _ _).setObj _ (.inl (by decide))).setObj _ (.inl (by decide))

theorem Steady.leaveSource (h : Steady TimeKey s t) : Steady TimeKey s t.leaveSource :=
  .ite ((h.modTime _).setObj _ (.inl (by decide))) h

theorem Steady.acquire (h : Steady TimeKey s t) : Steady TimeKey s t.acquire := (h.modTime _).setTimeState 1

/-- An election changes time objects, CHANGE_SEQ, the counter's increment and the time function's record. -/
theorem Steady.elect (h : Steady TimeKey s t) : Steady TimeKey s t.elect := by
  have counted (c : Prop) [Decidable c] : Steady TimeKey s (if c then t else t.bump Obj.time_ELECTIONS) :=
    .ite h (h.bump (.inl (by decide)))
  unfold State.elect
  refine .ite h ?_
  dsimp only
  generalize bestKey _ = best
  cases best with
  | none => exact ((counted _).leaveSource.setDatum _ _ _ _).setTimeState 3
  | some k =>
    refine .ite ?own ?other
    case own =>
      refine .ite ?_ ?_
      · exact ((counted _).setDatum _ _ _ _).setObj _ (.inl (by decide))
      · exact (((((counted _).setDatum _ _ _ _).setObj _ (.inl (by decide))).modTime _).setFreq 0).setTimeState 4
    case other =>
      split
      · exact counted _
      · refine .ite ?_ ?_
        · exact (((counted _).leaveSource.setDatum _ _ _ _).setObj _ (.inl (by decide))).acquire
        · exact ((counted _).leaveSource.setDatum _ _ _ _).setObj _ (.inl (by decide))

/-! ### The state of a function (R398, R399) -/

/-- The objects that follow a change of function f: those of the device and its time, and the counts of its starts and faults. -/
def FollowKey (f k : Nat) : Prop := TimeKey k ∨ k = Obj.fn_STARTS f ∨ k = Obj.fn_FAULT_ENTRIES f

/-- The objects that a change of function f may change. -/
def FnKey (f k : Nat) : Prop := FollowKey f k ∨ k = Obj.fn_STATE f ∨ k = Obj.fn_LAST_CHANGE f

theorem not_followKey_STATE (f : Nat) : ¬ FollowKey f (Obj.fn_STATE f) := by
  simp only [FollowKey, TimeKey, Obj.fn_STATE, Obj.fn_STARTS, Obj.fn_FAULT_ENTRIES, objKey]; omega

theorem not_followKey_LAST_CHANGE (f : Nat) : ¬ FollowKey f (Obj.fn_LAST_CHANGE f) := by
  simp only [FollowKey, TimeKey, Obj.fn_LAST_CHANGE, Obj.fn_STARTS, Obj.fn_FAULT_ENTRIES, objKey]; omega

theorem not_fnKey_START_RESULT (f : Nat) : ¬ FnKey f (Obj.fn_START_RESULT f) := by
  simp only [FnKey, FollowKey, TimeKey, Obj.fn_START_RESULT, Obj.fn_LAST_CHANGE, Obj.fn_STATE, Obj.fn_STARTS, Obj.fn_FAULT_ENTRIES, objKey]
  omega

/-- Outside the indexes of functions, of time and of the device a change of a function changes nothing. -/
theorem not_fnKey {f k : Nat} (h : k / 256 ≠ 0x1100) (h' : k / 256 ≠ 0x2000) (hf : k / 256 ≠ 0x2100 + f) : ¬ FnKey f k := by
  simp only [FnKey, FollowKey, TimeKey, Obj.fn_LAST_CHANGE, Obj.fn_STATE, Obj.fn_STARTS, Obj.fn_FAULT_ENTRIES, objKey]; omega

/-- A change to another state sets STATE and LAST_CHANGE; what follows leaves both. -/
theorem State.setFnState_follows {f v : Nat} (h : s.fnState f ≠ v) :
    Steady (FollowKey f) ((s.setObj (Obj.fn_STATE f) v).setObj (Obj.fn_LAST_CHANGE f) s.now) (s.setFnState f v) := by
  have time {a b : State} (h : Steady TimeKey a b) : Steady (FollowKey f) a b := h.mono fun _ => .inl
  unfold State.setFnState
  rw [if_neg h]
  extract_lets s1 s2 s3 s4 s5 s6 s7 s8
  have h3 : Steady (FollowKey f) s2 s3 := .ite ((Steady.refl _ _).setObj _ (.inr (.inl rfl))) (.refl _ _)
  have h4 : Steady (FollowKey f) s2 s4 := .ite (h3.setObj _ (.inr (.inr rfl))) h3
  have h6 : Steady (FollowKey f) s2 s6 := (h4.setObj _ (.inl (.inr (by decide)))).setObj _ (.inl (.inr (by decide)))
  have h7 : Steady (FollowKey f) s2 s7 := .ite (h6.trans (time (Steady.refl _ _).timeStop)) h6
  have h8 : Steady (FollowKey f) s2 s8 := .ite (h7.setFirstInit _) h7
  exact h8.trans (time (Steady.refl _ _).bumpChange.updDeviceState)

@[simp] theorem State.fnState_setFnState (s : State) (f v : Nat) : (s.setFnState f v).fnState f = v := by
  by_cases h : s.fnState f = v
  · rw [State.setFnState, if_pos h, h]
  · have hne : Obj.fn_STATE f ≠ Obj.fn_LAST_CHANGE f := by simp only [Obj.fn_STATE, Obj.fn_LAST_CHANGE, objKey]; omega
    rw [State.fnState, (State.setFnState_follows h).objs _ (not_followKey_STATE f), State.obj_setObj_other _ _ hne, State.obj_setObj_same]

theorem State.lastChange_setFnState {f v : Nat} (h : s.fnState f ≠ v) : (s.setFnState f v).obj (Obj.fn_LAST_CHANGE f) = s.now := by
  rw [(State.setFnState_follows h).objs _ (not_followKey_LAST_CHANGE f), State.obj_setObj_same]

theorem Steady.setFnState {P : Nat → Prop} (h : Steady P s t) {f : Nat} (hP : ∀ k, FnKey f k → P k) (v : Nat) :
    Steady P s (t.setFnState f v) := by
  by_cases hv : t.fnState f = v
  · rw [State.setFnState, if_pos hv]; exact h
  · exact ((h.setObj _ (hP _ (.inr (.inl rfl)))).setObj _ (hP _ (.inr (.inr rfl)))).trans
      ((State.setFnState_follows hv).mono fun k hk => hP k (.inl hk))

end

/-! ### Advisories (R376, R377) -/

/-- The objects of the error ring. -/
def RingKey (k : Nat) : Prop := k / 256 = 0x8000 ∨ k / 256 = 0x8100

/-- An entry that is no error to handle is written to the ring, and that is all. -/
theorem State.enter_advisory (s : State) (e : ErrRec) (h : e.sev = 0) : Steady RingKey s (s.enter e).1 ∧ (s.enter e).2.1 = 0 := by
  obtain ⟨sev, fn, parcel, code, unit, detail⟩ := e
  subst h
  refine ⟨?_, by simp [State.enter]⟩
  simp only [State.enter, Nat.not_le.2 Nat.zero_lt_two, decide_false, Bool.and_false, Bool.false_eq_true, if_false, false_and]
  have hentry (i : Nat) : RingKey (Obj.ring_ENTRY i) := .inr (by unfold Obj.ring_ENTRY objKey; omega)
  exact (((Steady.refl _ _).setObj _ (.inl (by decide))).setObj _ (hentry _)).bump (.inl (by simp [Obj.ring_ENTRIES, objKey]))

theorem Steady.advise {P : Nat → Prop} {s t : State} (h : Steady P s t) (hP : ∀ k, RingKey k → P k) (fn : Nat) (parcel : Option Nat)
    (code unit detail : Nat) : Steady P s (t.advise fn parcel code unit detail) := by
  obtain ⟨hring, hsev⟩ := t.enter_advisory ⟨0, fn, parcel, code, unit, detail⟩ rfl
  unfold State.advise State.raise
  revert hring hsev
  generalize t.enter _ = x
  obtain ⟨u, sev, esc⟩ := x
  rintro hring rfl
  exact h.trans (hring.mono hP)

/-! ### First errors (R379, R385) -/

/-- Clearing the capture of function f changes the objects of its errors. -/
theorem Steady.clearCapture {P : Nat → Prop} {s t : State} (h : Steady P s t) (f : Nat) (hP : ∀ k, k / 256 = 0x8400 + f → P k) :
    Steady P s (t.clearCapture f) := by
  refine Steady.foldl h fun u k hk => (Steady.refl _ _).setObj _ (hP k ?_)
  simp only [Obj.ferr_FIRST_ERROR, Obj.ferr_FIRST_NESTED, Obj.ferr_NESTED, Obj.ferr_HANDLING, objKey,
    List.mem_cons, List.not_mem_nil, or_false] at hk
  omega

end Sys2Proof.Machine
end

section
/-! PROOF. What halting, restarting and returning cores change (R14, R94, R101, R362), and flushing the accumulate units (R174). -/

namespace Sys2Proof.Machine

/-! ### One core -/

/-- The objects of core c. -/
def CoreKey (c k : Nat) : Prop := k / 256 = 0x6800 + c

theorem coreKey_objKey (c : Nat) {j : Nat} (h : j < 256) : CoreKey c (objKey (0x6800 + c) j) := objKey_idx h

section
variable (s : State) (c : Nat)

theorem State.settle_beside : Beside (CoreKey c) s (s.settle c) := by
  have set (v : Nat) : Beside (CoreKey c) s (s.setCoreState c v) := (Beside.refl _ s).setObj v (coreKey_objKey c (by decide))
  unfold State.settle
  exact .ite (.refl _ _) (.ite (.ite (set 5) (.refl _ _)) (set _))

theorem State.updFill_beside : Beside (CoreKey c) s (s.updFill c) := (Beside.refl _ s).setObj _ (coreKey_objKey c (by decide))

theorem State.place_beside : Beside (CoreKey c) s (s.place c) := by
  unfold State.place
  dsimp only
  split
  · exact .ite (((Beside.refl _ s).setCore c _).addObj _ (coreKey_objKey c (by decide))) (.refl _ _)
  · exact .refl _ _

theorem State.modQueue_beside (q : Queue) (f : List QEntry → List QEntry) : Beside (CoreKey c) s (s.modQueue c q f) :=
  ((((Beside.refl _ s).modCore c _).trans (State.place_beside _ c)).trans (State.updFill_beside _ c)).trans (State.settle_beside _ c)

theorem State.libReturn_beside (l : List Nat) : Beside (CoreKey c) s (s.libReturn c l) :=
  (((Beside.refl _ s).modCore c _).modCore c _).trans (State.settle_beside _ c)

theorem State.haltCore_beside : Beside (CoreKey c) s (s.haltCore c) := by
  have h : Beside (CoreKey c) s ((s.modCore c Core.halt).updFill c) := ((Beside.refl _ s).modCore c _).trans (State.updFill_beside _ c)
  exact .ite h (h.setObj 0 (coreKey_objKey c (by decide)))

/-! ### What a core keeps -/

@[simp] theorem State.core_settle (b : Nat) : (s.settle c).core b = s.core b := by
  unfold State.settle State.setCoreState
  dsimp only
  split_ifs <;> simp only [State.core_setObj]

@[simp] theorem State.core_updFill (b : Nat) : (s.updFill c).core b = s.core b := by
  rw [State.updFill, State.core_setObj]

@[simp] theorem Core.mapped_setQueue (k : Core) (q : Queue) (l : List QEntry) : (k.setQueue q l).mapped = k.mapped := by
  cases q <;> rfl

@[simp] theorem Core.mapped_noteHead (k : Core) (q : Queue) (now : Nat) : (k.noteHead q now).mapped = k.mapped := by
  unfold Core.noteHead; split
  · exact k.mapped_setQueue _ _
  · rfl

theorem State.mapped_place (b : Nat) : ((s.place c).core b).mapped = (s.core b).mapped := by
  unfold State.place
  dsimp only
  split
  · split_ifs
    · by_cases h : b = c
      · subst h; simp
      · rw [State.core_addObj, State.core_setCore_other _ _ h]
    · rfl
  · rfl

theorem State.mapped_modQueue (q : Queue) (f : List QEntry → List QEntry) (b : Nat) :
    ((s.modQueue c q f).core b).mapped = (s.core b).mapped := by
  unfold State.modQueue
  rw [State.core_settle, State.core_updFill, State.mapped_place]
  by_cases h : b = c
  · subst h; simp
  · rw [State.core_modCore_other _ _ h]

end

/-! ### A parcel's cores and engines halted (R362) -/

/-- The objects of cores and of stream engines. -/
def UnitKey (k : Nat) : Prop := (0x6800 ≤ k / 256 ∧ k / 256 < 0x6C80) ∨ (0x7800 ≤ k / 256 ∧ k / 256 < 0x7830)

theorem unitKey_of_coreKey {c k : Nat} (hc : c < 1152) (h : CoreKey c k) : UnitKey k := by unfold CoreKey at h; unfold UnitKey; omega

theorem State.stopSte_beside (s : State) {j : Nat} (hj : j < 48) : Beside UnitKey s (s.stopSte j) := by
  have key {i : Nat} (hi : i < 256) : UnitKey (objKey (0x7800 + j) i) := by unfold UnitKey objKey; omega
  have busy : Beside UnitKey s (s.steBusy j) := by
    have mark (x : Sparse Ste) : Beside UnitKey s { s with stes := x } := ⟨rfl, rfl, fun _ _ => rfl⟩
    exact .ite ((mark _).addObj _ (key (i := 9) (by decide))) (.refl _ _)
  have clear : Beside UnitKey s ((s.steBusy j).clearSte j) := ⟨busy.ft, busy.parcels, busy.objs⟩
  exact .ite ((clear.setObj 3 (key (i := 1) (by decide))).pokeByte _ _) (.refl _ _)

theorem State.haltParcel_beside (s : State) (n : Nat) : Beside UnitKey s (s.haltParcel n) := by
  have cores : Beside UnitKey s ((s.parCores n).foldl State.haltCore s) := (Beside.refl _ s).foldl fun u c hc =>
    (u.haltCore_beside c).mono fun _ => unitKey_of_coreKey (State.coreParcel_lt (State.of_mem_parCores hc))
  have engines (u : State) : Beside UnitKey u (u.stopEngines n) := (Beside.refl _ u).foldl fun v j hj =>
    v.stopSte_beside (List.mem_range.1 (List.mem_filter.1 hj).1)
  have h := cores.trans (engines _)
  exact ⟨h.ft, h.parcels, h.objs⟩

/-! ### The accumulate units flushed (R174) -/

/-- The objects of the memory controllers. -/
def CtlKey (k : Nat) : Prop := 0x5200 ≤ k / 256 ∧ k / 256 < 0x5310

theorem State.flushUnits_steady (s : State) (n : Nat) : Steady CtlKey s (s.flushUnits n) := by
  refine (Steady.refl _ s).foldl fun u i hi => ?_
  have hi := List.mem_range.1 hi
  have key : CtlKey (ctlObj i 0x0E) := by unfold ctlObj ctlIndex CtlKey objKey; split <;> omega
  have keep (x : Sparse (List Nat)) : Steady CtlKey u { u with accBuf := x } :=
    ⟨⟨rfl, rfl, fun _ _ => rfl⟩, rfl, rfl, rfl, rfl, rfl, rfl, id⟩
  exact (keep _).addObj _ key

/-! ### Requests that expire (R362 step 4) -/

section
variable (s : State) (n : Nat)

/-- The fold that drops the requests of a parcel's cores. -/
theorem State.expireRequests_beside : Beside UnitKey (s.advanceTo (s.lastExpiry n)) (s.expireRequests n) :=
  (Beside.refl _ _).foldl fun u c hc => (u.modQueue_beside c .txe _).mono fun _ =>
    unitKey_of_coreKey (State.coreParcel_lt (State.mem_mapped.1 hc).1)

theorem State.mapped_expireRequests (b : Nat) : ((s.expireRequests n).core b).mapped = (s.core b).mapped := by
  refine List.foldlRecOn (motive := fun t : State => (t.core b).mapped = (s.core b).mapped) _ _ (by rw [State.core_advanceTo])
    fun t ih c _ => ?_
  rw [State.mapped_modQueue, ih]

theorem State.obj_expireRequests {k : Nat} (h : ¬ UnitKey k) : (s.expireRequests n).obj k = s.obj k := by
  rw [(s.expireRequests_beside n).objs k h, State.obj_advanceTo]

theorem State.parcels_expireRequests : (s.expireRequests n).parcels = s.parcels := by
  rw [(s.expireRequests_beside n).parcels, State.advanceTo_parcels]

end

end Sys2Proof.Machine
end

section
/-! PROOF. The reset state (R14, R322, R389, R394, R398, R421, R426): its maps are empty, so that they are in canonical form and every
object reads as its Default, and the rest are the registers' values. -/

namespace Sys2Proof.Machine

/-- An empty dictionary holds every Default (R389). -/
theorem State.obj_of_objs_nil {s : State} (h : s.objs = []) (k : Nat) : s.obj k = objDefault k := by
  rw [State.obj, h, Sparse.get_nil]

/-- A function's state after reset is its Default, OFF. -/
theorem State.fnState_reset : ∀ f ∈ allFunctions, State.reset.fnState f = 0 := by decide

/-- Settles O60: the forms hold of empty maps, every object has its Default, and the Defaults it names are 0. -/
theorem resetStateHoldsItsForms : Obligations.ResetStateHoldsItsForms := by
  have hobj := State.obj_of_objs_nil (s := State.reset) rfl
  refine ⟨Sparse.wf_nil, rfl, Sparse.wf_nil, by decide, hobj, State.fnState_reset, rfl, by decide, ?_, ?_, rfl, rfl, rfl, rfl⟩
  · rw [hobj]; decide
  · rw [hobj]; decide

end Sys2Proof.Machine
end

section
/-! PROOF. The clears of a die and of a stream engine (R14, R264). -/

namespace Sys2Proof.Machine

/-! ### Held starts (R14) -/

/-- Releasing held starts changes the parcels' records alone. -/
theorem State.releaseHeld_only (s : State) : { s.releaseHeld with parcels := s.parcels } = s := by
  refine List.foldlRecOn (motive := fun t : State => { t with parcels := s.parcels } = s) _ _ rfl (fun t ih n _ => ?_)
  split <;> exact ih

@[simp] theorem State.mem_releaseHeld (s : State) : s.releaseHeld.mem = s.mem := (congrArg State.mem s.releaseHeld_only :)
@[simp] theorem State.objs_releaseHeld (s : State) : s.releaseHeld.objs = s.objs := (congrArg State.objs s.releaseHeld_only :)
@[simp] theorem State.ft_releaseHeld (s : State) : s.releaseHeld.ft = s.ft := (congrArg State.ft s.releaseHeld_only :)
@[simp] theorem State.cores_releaseHeld (s : State) : s.releaseHeld.cores = s.cores := (congrArg State.cores s.releaseHeld_only :)
@[simp] theorem State.stes_releaseHeld (s : State) : s.releaseHeld.stes = s.stes := (congrArg State.stes s.releaseHeld_only :)
@[simp] theorem State.dieClears_releaseHeld (s : State) : s.releaseHeld.dieClears = s.dieClears :=
  (congrArg State.dieClears s.releaseHeld_only :)
@[simp] theorem State.steClears_releaseHeld (s : State) : s.releaseHeld.steClears = s.steClears :=
  (congrArg State.steClears s.releaseHeld_only :)
@[simp] theorem State.obj_releaseHeld (s : State) (k : Nat) : s.releaseHeld.obj k = s.obj k := by simp [State.obj]

/-! ### A die (R14) -/

/-- A core whose descriptor table, flags and instruction cache are zero. -/
def Core.Wiped (x : Core) : Prop := x.flags = [] ∧ x.desc = [] ∧ x.gens = [] ∧ x.fstat = [] ∧ x.fexc = []

/-- Wiping a die changes no memory, object or clear, and takes no time. -/
theorem State.wipeDie_keeps (s : State) (k : Nat) :
    (s.wipeDie k).mem = s.mem ∧ (s.wipeDie k).objs = s.objs ∧ (s.wipeDie k).ft = s.ft ∧ (s.wipeDie k).dieClears = s.dieClears :=
  List.foldlRecOn (motive := fun t : State => t.mem = s.mem ∧ t.objs = s.objs ∧ t.ft = s.ft ∧ t.dieClears = s.dieClears)
    _ _ ⟨rfl, rfl, rfl, rfl⟩ (fun _ ih _ _ => ih)

theorem State.core_wipeDie_other (s : State) {k b : Nat} (h : b / 192 ≠ k) : (s.wipeDie k).core b = s.core b := by
  refine List.foldlRecOn (motive := fun t : State => t.core b = s.core b) _ _ rfl (fun t ih i hi => ?_)
  have hi := List.mem_range.1 hi
  rw [State.core_modCore_other _ _ (by omega), ih]

theorem State.core_wipeDie_wiped (s : State) {k b : Nat} (h : b / 192 = k) : ((s.wipeDie k).core b).Wiped := by
  have hb : b ∈ (List.range 192).map (192 * k + ·) := List.mem_map.2 ⟨b % 192, List.mem_range.2 (by omega), by omega⟩
  rw [State.wipeDie, ← List.foldl_map (f := (192 * k + ·)) (g := fun (s : State) c => s.modCore c
    (fun x => { x with flags := [], fstat := [], fexc := [], desc := [], gens := [], icache := [] }))]
  refine State.foldl_reaches (Q := fun c t => (t.core c).Wiped) (fun t c => ?_) (fun t c b e ht => ?_) hb s
  · rw [State.core_modCore_same]; exact ⟨rfl, rfl, rfl, rfl, rfl⟩
  · rwa [State.core_modCore_other _ _ e]

/-- The cores after the clear of a die are those after the wipe. -/
theorem State.core_dieCleared (s : State) (k b : Nat) : (s.dieCleared k).core b = (s.wipeDie k).core b := by
  simp only [State.dieCleared, State.core, State.cores_releaseHeld]

/-- The clear of a die empties the memory of its cores, is then no longer in progress, and changes no object and no time. -/
theorem State.dieCleared_fields (s : State) (k : Nat) :
    (s.dieCleared k).mem = Sparse.clearRange s.mem (192 * k * 2 ^ 21) (192 * (k + 1) * 2 ^ 21) ∧
      (s.dieCleared k).dieClears = s.dieClears.filter (fun j => decide (j ≠ k)) ∧ (s.dieCleared k).objs = s.objs ∧
      (s.dieCleared k).ft = s.ft := by
  obtain ⟨hmem, hobjs, hft, hclears⟩ := s.wipeDie_keeps k
  simp only [State.dieCleared, State.mem_releaseHeld, State.dieClears_releaseHeld, State.objs_releaseHeld, State.ft_releaseHeld,
    hmem, hobjs, hft, hclears, and_self]

/-! ### A stream engine (R264) -/

/-- Accounting BUSY changes the engine's mark of it and the object BUSY. -/
theorem State.steBusy_only (s : State) (j : Nat) : { s.steBusy j with objs := s.objs, stes := s.stes } = s := by
  unfold State.steBusy
  split
  · cases s; simp only [State.addObj, State.setObj]; split <;> rfl
  · rfl

theorem State.nextTag_steBusy (s : State) (j : Nat) :
    (Sparse.get Ste.reset (s.steBusy j).stes j).nextTag = (Sparse.get Ste.reset s.stes j).nextTag := by
  unfold State.steBusy
  split
  · simp
  · rfl

/-- What an engine holds after its clear: nothing but its next TAG. -/
theorem State.ste_steCleared (s : State) (j : Nat) :
    Sparse.get Ste.reset (s.steCleared j).stes j = { Ste.reset with nextTag := (Sparse.get Ste.reset s.stes j).nextTag } := by
  simp only [State.steCleared, State.stes_releaseHeld, State.setSteState, State.pokeByte, State.setObj, State.clearSte,
    Sparse.get_modify_same, State.nextTag_steBusy]

theorem steAddr_zero (j : Nat) : steAddr j 0 = 4 * 2 ^ 41 + j * 2 ^ 20 := by unfold steAddr; omega

theorem steAddr_end (j : Nat) : steAddr j (2 ^ 20) = 4 * 2 ^ 41 + (j + 1) * 2 ^ 20 := by unfold steAddr; omega

/-- The engine's memory after its clear: the control block's STE_STATE is IDLE, which is 0 as well. -/
theorem State.mem_steCleared (s : State) (j a : Nat) : Sparse.get 0 (s.steCleared j).mem a =
    if steAddr j 0 ≤ a ∧ a < steAddr j (2 ^ 20) then 0 else Sparse.get 0 s.mem a := by
  have hb : (s.steBusy j).mem = s.mem := (congrArg State.mem (s.steBusy_only j) :)
  rw [State.steCleared, State.mem_releaseHeld, State.setSteState, State.mem_pokeByte, State.setObj_mem]
  show (if a = _ then _ else Sparse.get 0 (Sparse.clearRange (s.steBusy j).mem _ _) a) = _
  rw [hb, Sparse.get_clearRange]
  split
  · subst a; rw [if_pos (by unfold steAddr; omega)]; rfl
  · rfl

theorem State.cores_steCleared (s : State) (j : Nat) : (s.steCleared j).cores = s.cores := by
  rw [State.steCleared, State.cores_releaseHeld]; exact (congrArg State.cores (s.steBusy_only j) :)

theorem State.ft_steCleared (s : State) (j : Nat) : (s.steCleared j).ft = s.ft := by
  rw [State.steCleared, State.ft_releaseHeld]; exact (congrArg State.ft (s.steBusy_only j) :)

theorem State.steClears_steCleared (s : State) (j : Nat) : (s.steCleared j).steClears = s.steClears.filter (fun i => decide (i ≠ j)) := by
  rw [State.steCleared, State.steClears_releaseHeld]
  exact congrArg (List.filter _) (congrArg State.steClears (s.steBusy_only j) :)

theorem State.steState_steCleared (s : State) (j : Nat) : (s.steCleared j).obj (Obj.ste_STE_STATE j) = 0 := by
  rw [State.steCleared, State.obj_releaseHeld, State.setSteState, State.obj_pokeByte, State.obj_setObj_same]

theorem exec_dieClearDone {s : State} {k : Fin 6} (h : k.val ∈ s.dieClears) : exec (.dieClearDone k) s = .next (s.dieCleared k) := by
  show Host.Outcome.next (if s.dieClears.contains k.val then s.dieCleared k else s) = _
  rw [if_pos (List.contains_iff_mem.2 h)]

theorem exec_steClearDone {s : State} {j : EngineId} (h : j.val ∈ s.steClears) : exec (.steClearDone j) s = .next (s.steCleared j) := by
  show Host.Outcome.next (if s.steClears.contains j.val then s.steCleared j else s) = _
  rw [if_pos (List.contains_iff_mem.2 h)]

/-- Settles O33: each clear empties a range of memory and what its units hold, and releases the starts held for it, which are records
of parcels. -/
theorem clearsLeaveZeroes : Obligations.ClearsLeaveZeroes := by
  intro s
  constructor
  · intro k hk
    obtain ⟨hmem, hclears, hobjs, hft⟩ := s.dieCleared_fields k
    refine ⟨s.dieCleared k, exec_dieClearDone hk, fun a => ?_, fun b hb => ?_, fun b hb => ?_,
      by simp [hclears], hobjs, hft⟩
    · rw [hmem, Sparse.get_clearRange]
    · rw [State.core_dieCleared, State.core_wipeDie_other s hb]
    · rw [State.core_dieCleared]
      obtain ⟨hflags, hrest⟩ := s.core_wipeDie_wiped hb
      exact ⟨fun f => by simp [Core.flag, hflags], hrest⟩
  · intro j hj
    refine ⟨s.steCleared j, exec_steClearDone hj, s.steState_steCleared j, fun a => ?_,
      s.ste_steCleared j, by simp [State.steClears_steCleared], s.cores_steCleared j, s.ft_steCleared j⟩
    rw [State.mem_steCleared, steAddr_zero, steAddr_end]

end Sys2Proof.Machine
end

section
/-! PROOF. A fabric request that is not carried out (R15, R191, R196): its checks end in one counter. -/

namespace Sys2Proof.Machine

/-! ### One counter -/

/-- Counting one object changes that object alone. -/
theorem OnlyObjs.bump (s : State) (k : Nat) : OnlyObjs [k] s (s.bump k) := by
  refine ⟨?_, fun j hj => s.obj_bump_other (by simpa using hj)⟩
  cases s; rfl

theorem Counted.bump (s : State) (k : Nat) : Counted k s (s.bump k) := by
  rw [Counted, State.obj_bump_same, satN_eq_min]

/-! ### The checks of a request -/

section
variable {s : State} {at_ : RxAt} {k : Packet} {p : PortId}

/-- The command of a request's kind carries it out as a request without memory errors. -/
theorem exec_rxCommand {x : Instr} (hx : rxCommand at_ k = some x) (hresp : k.resp = false) (hrx : s.received at_ k = true) :
    exec x s = .next (s.takeRequest at_ k) := by
  have take {kind : Bool} (h : kind = true) : s.rxRequest at_ k kind [] = s.takeRequest at_ k := by
    simp [State.rxRequest, h, hresp, hrx, State.plant]
  unfold rxCommand at hx
  split_ifs at hx with hput hflag hget hacc hmsg <;> cases hx
  · exact congrArg Host.Outcome.next (take hflag)
  · exact congrArg Host.Outcome.next (take (by simp [hput, hflag]))
  · exact congrArg Host.Outcome.next (take (by simp [hget]))
  · exact congrArg Host.Outcome.next (take (by simp [hacc]))
  · exact congrArg Host.Outcome.next (take (by simp [hmsg]))

/-- Packets of the fabric have LEN up to 4096 (R191). -/
theorem State.lenLimit_fabric (s : State) (hp : at_.port = some p) (hf : p.val < 125) : s.lenLimit at_ = 4096 := by
  simp [State.lenLimit, hp, Nat.not_le.2 hf]

/-- A request with a reserved encoding is discarded (R191). -/
theorem State.checkRequest_reserved (hp : at_.port = some p) (hf : p.val < 125) (h : k.requestOk 4096 = false) :
    s.checkRequest at_ k = ⟨s.bump (Obj.port_RX_DISCARD p), none⟩ := by
  have hbad : (!k.requestOk (s.lenLimit at_)) = true := by rw [s.lenLimit_fabric hp hf, h]; rfl
  rw [State.checkRequest, if_pos hbad, State.discardRx, hp]

/-- A well-formed request for this device by a fabric port passes, and has no peer's entry (R196). -/
theorem State.checkRequest_fabric (hp : at_.port = some p) (hf : p.val < 125) (h : k.requestOk 4096 = true)
    (hd : k.dst.toNat = s.logicalId) : s.checkRequest at_ k = ⟨s, some none⟩ := by
  have hgood : ¬ (!k.requestOk (s.lenLimit at_)) = true := by rw [s.lenLimit_fabric hp hf, h]; decide
  have hsvc : ¬ at_.service = true := by simp [RxAt.service, hp, Nat.not_le.2 hf]
  rw [State.checkRequest, if_neg hgood, if_neg hsvc, if_neg (not_not.2 hd)]

theorem State.takeRequest_reserved (hp : at_.port = some p) (hf : p.val < 125) (h : k.requestOk 4096 = false) :
    s.takeRequest at_ k = (s.taken at_ k).bump (Obj.port_RX_DISCARD p) := by
  unfold State.takeRequest
  rw [State.checkRequest_reserved hp hf h]

/-- Its admission settles such a request. -/
theorem State.takeRequest_fabric (hp : at_.port = some p) (hf : p.val < 125) (h : k.requestOk 4096 = true)
    (hd : k.dst.toNat = s.logicalId) :
    s.takeRequest at_ k = (s.taken at_ k).settleRequest at_ k none ((s.taken at_ k).admission false k) := by
  have hid : k.dst.toNat = (s.taken at_ k).logicalId := hd
  unfold State.takeRequest
  rw [State.checkRequest_fabric hp hf h hid, hp]
  rfl

/-- The counter of a request that is not admitted: of the parcel it targets, or of its port (R15, R196). -/
def refusedCounter (p : PortId) : Option Nat → Nat
  | some n => Obj.par_REFUSED_ACCESS n
  | none => Obj.port_RX_REFUSED p

theorem State.settleRequest_no (s : State) (peer : Option Nat) (hp : at_.port = some p) (target : Option Nat) :
    s.settleRequest at_ k peer (.no target) = s.bump (refusedCounter p target) := by
  cases target with
  | some n => rfl
  | none => simp [State.settleRequest, State.refuseRx, hp, refusedCounter]

end

/-- Settles O39: both ways, the state after is the one without what arrived, with one object counted. -/
theorem unadmittedRequestHasNoEffect : Obligations.UnadmittedRequestHasNoEffect := by
  intro s at_ p k x hx hresp hp hf hrx
  rw [exec_rxCommand hx hresp hrx]
  refine ⟨fun hbad => ⟨_, rfl, ?_⟩, fun hok hdst target hno => ⟨_, refusedCounter p target, rfl, by cases target <;> rfl, ?_⟩⟩
  · rw [State.takeRequest_reserved hp hf hbad]
    exact ⟨OnlyObjs.bump _ _, Counted.bump _ _⟩
  · rw [State.takeRequest_fabric hp hf hok hdst, hno, State.settleRequest_no _ _ hp]
    exact ⟨OnlyObjs.bump _ _, Counted.bump _ _⟩

end Sys2Proof.Machine
end

section
/-! PROOF. The end of a rollback (R362, R365) and of a ready agreement that times out (R363). -/

namespace Sys2Proof.Machine

/-! ### Sequence numbers (R356) -/

section
variable (s : State) (n v : Nat)

/-- Setting NEXT_CSEQ changes no object. -/
theorem State.setCseqs_steady : Steady (fun _ => False) s (s.setCseqs n v) :=
  (Steady.refl _ s).foldl fun _ _ _ => ⟨⟨rfl, rfl, fun _ _ => rfl⟩, rfl, rfl, rfl, rfl, rfl, rfl, id⟩

theorem State.next_setCseqs {g : Nat} (h : g ∈ s.groupsOf n) : ((s.setCseqs n v).groupSt g).next = v % 2 ^ 32 := by
  refine State.foldl_reaches (Q := fun g t => (t.groupSt g).next = v % 2 ^ 32) (fun t c => ?_) (fun t c b e ht => ?_) h s
  · simp only [State.groupSt, State.modGroup, Sparse.get_modify_same]
  · simp only [State.groupSt, State.modGroup]
    rw [Sparse.get_modify_other _ e]; exact ht

/-- The groups of a parcel come from the group table alone (R291). -/
theorem State.groupsOf_congr {t : State} (h : ∀ g < 4096, t.obj (Obj.grp_ENTRY g) = s.obj (Obj.grp_ENTRY g)) :
    t.groupsOf n = s.groupsOf n := by
  have hg : t.groupOf = s.groupOf := by
    funext g
    unfold State.groupOf
    split
    · rw [h g ‹_›]
    · rfl
  simp only [State.groupsOf, hg]

/-- base(step, 1) of R356 is below 2^32. -/
theorem stepBase_nextStep (m : Nat) : stepBase ((m + 1) % 2 ^ 32) 1 % 2 ^ 32 = (m + 1) % 2 ^ 15 * 2 ^ 17 + 2 ^ 16 := by
  unfold stepBase; omega

end

/-! ### Cores restarted (R362 step 6) -/

/-- A core that a restart leaves: mapped, with registers and flags clear and its queues empty. -/
def Core.Fresh (k : Core) : Prop :=
  k.mapped = true ∧ k.regs = [] ∧ k.flags = [] ∧ k.mxe = [] ∧ k.vxe = [] ∧ k.spe = [] ∧ k.txe = []

section
variable (s : State) (n : Nat)

/-- Installing descriptors changes the descriptor tables and generations of cores alone. -/
theorem State.installDescs_beside : Beside UnitKey s (s.installDescs n) :=
  (Beside.refl _ s).foldl fun _ _ _ => .ite ((Beside.refl _ _).modCore _ _) (.refl _ _)

theorem State.fresh_installDescs {b : Nat} (h : (s.core b).Fresh) : ((s.installDescs n).core b).Fresh := by
  refine List.foldlRecOn (motive := fun t : State => (t.core b).Fresh) _ _ h fun t ih e _ => ?_
  split_ifs
  · by_cases hb : b = e.1
    · subst hb; rw [State.core_modCore_same]; exact ih
    · rwa [State.core_modCore_other _ _ hb]
  · exact ih

theorem State.coreState_installDescs (b : Nat) : (s.installDescs n).coreState b = s.coreState b :=
  List.foldlRecOn (motive := fun t : State => t.coreState b = s.coreState b) _ _ rfl fun t ih e _ => by split <;> exact ih

/-- A mapped core set to its start with an empty queue, and RUNNING. -/
def State.Running (t : State) (b : Nat) : Prop := t.obj (Obj.core_CORE_STATE b) = 1 ∧ (t.core b).Fresh

/-- The step of `State.restartCores` for one core. -/
def State.restartCore (s : State) (c : Nat) : State :=
  ((s.setCore c { Core.reset with mapped := true, nextTag := (s.core c).nextTag, warm := (s.core c).warm }).updFill c).setCoreState c 1

theorem State.restartCore_beside (c : Nat) : Beside (CoreKey c) s (s.restartCore c) :=
  (((Beside.refl _ s).setCore c _).trans (State.updFill_beside _ c)).setObj 1 (coreKey_objKey c (by decide))

theorem State.running_restartCore (c : Nat) : (s.restartCore c).Running c := by
  unfold State.restartCore State.setCoreState
  refine ⟨State.obj_setObj_same _ _ _, ?_⟩
  rw [State.core_setObj, State.core_updFill, State.core_setCore_same]
  exact ⟨rfl, rfl, rfl, rfl, rfl, rfl, rfl⟩

theorem State.running_restartCore_other {c b : Nat} (hb : b ≠ c) (h : s.Running b) : (s.restartCore c).Running b := by
  refine ⟨?_, ?_⟩
  · rw [(s.restartCore_beside c).objs _ (by unfold CoreKey Obj.core_CORE_STATE objKey; omega)]; exact h.1
  · unfold State.restartCore State.setCoreState
    rw [State.core_setObj, State.core_updFill, State.core_setCore_other _ _ hb]; exact h.2

theorem State.restartCores_eq : s.restartCores n = ((s.mapped n).foldl State.restartCore s).installDescs n := rfl

theorem State.restartCores_beside : Beside UnitKey s (s.restartCores n) := by
  rw [State.restartCores_eq]
  refine Beside.trans ((Beside.refl _ s).foldl fun u c hc => (u.restartCore_beside c).mono fun _ => ?_) (State.installDescs_beside _ n)
  exact unitKey_of_coreKey (State.coreParcel_lt (State.mem_mapped.1 hc).1)

theorem State.groups_restartCore (c : Nat) : (s.restartCore c).groups = s.groups := by
  rw [State.restartCore, State.setCoreState, State.setObj_groups, State.updFill, State.setObj_groups, State.setCore_groups]

theorem State.groups_installDescs : (s.installDescs n).groups = s.groups :=
  List.foldlRecOn (motive := fun t : State => t.groups = s.groups) _ _ rfl fun t ih e _ => by
    split
    · rw [State.modCore_groups, ih]
    · exact ih

theorem State.groups_restartCores : (s.restartCores n).groups = s.groups := by
  rw [State.restartCores_eq, State.groups_installDescs]
  exact List.foldlRecOn (motive := fun t : State => t.groups = s.groups) _ _ rfl fun t ih c _ => by
    rw [State.groups_restartCore, ih]

/-- Every mapped core of the parcel runs after the restart. -/
theorem State.running_restartCores {b : Nat} (h : b ∈ s.mapped n) : (s.restartCores n).Running b := by
  rw [State.restartCores_eq]
  have hb := State.foldl_reaches (Q := fun c t => t.Running c) (fun t c => t.running_restartCore c)
    (fun t c b e ht => t.running_restartCore_other e ht) h s
  exact ⟨(State.coreState_installDescs _ n b).trans hb.1, State.fresh_installDescs _ n hb.2⟩

end

/-! ### The end of a rollback (R362) -/

/-- The record of a parcel that has been rolled back: it stands before attempt 1 of the step after RESULT_STEP. -/
def Parcel.rolledBack (p : Parcel) : Parcel :=
  { p with
    attempt := 1, begun := none, commit := none, decided := none, late := false, job := none, adopting := none, calls := [], ready := none }

@[simp] theorem State.parcel_modParcel_same (s : State) (n : Nat) (f : Parcel → Parcel) : (s.modParcel n f).parcel n = f (s.parcel n) :=
  Sparse.get_modify_same f
@[simp] theorem State.obj_modParcel (s : State) (n k : Nat) (f : Parcel → Parcel) : (s.modParcel n f).obj k = s.obj k := rfl
@[simp] theorem State.mapped_modParcel (s : State) (n m : Nat) (f : Parcel → Parcel) : (s.modParcel n f).mapped m = s.mapped m := rfl
@[simp] theorem State.groups_modParcel (s : State) (n : Nat) (f : Parcel → Parcel) : (s.modParcel n f).groups = s.groups := rfl

section
variable (s : State) (n : Nat)

/-- The state in which the sequence numbers of a rollback are set: requests expired, units flushed. -/
def State.drained : State := (s.expireRequests n).flushUnits n

theorem State.obj_drained {k : Nat} (h : ¬ UnitKey k) (h' : ¬ CtlKey k) : (s.drained n).obj k = s.obj k := by
  rw [State.drained, ((s.expireRequests n).flushUnits_steady n).objs k h', s.obj_expireRequests n h]

theorem State.parcel_drained (m : Nat) : (s.drained n).parcel m = s.parcel m := by
  rw [State.drained, ((s.expireRequests n).flushUnits_steady n).parcel, State.parcel, s.parcels_expireRequests n, State.parcel]

theorem State.mapped_core_drained (b : Nat) : ((s.drained n).core b).mapped = (s.core b).mapped := by
  rw [State.drained, State.core, ((s.expireRequests n).flushUnits_steady n).cores]
  exact s.mapped_expireRequests n b

/-- The state of a rollback before the parcel's record is changed. -/
def State.rebased : State :=
  (((s.drained n).setCseqs n (stepBase ((s.drained n).nextStep n) 1)).setJobState n 4).bump (Obj.res_ROLLBACKS n)

theorem State.rollbackTail_eq : s.rollbackTail n = (s.rebased n).modParcel n Parcel.rolledBack := rfl

/-- The objects of a parcel's job. -/
def JobKey (n k : Nat) : Prop := k = Obj.res_JOB_STATE n ∨ k = Obj.res_ROLLBACKS n

theorem State.rebased_steady : Steady (JobKey n) (s.drained n) (s.rebased n) :=
  (((State.setCseqs_steady _ n _).mono fun _ => False.elim).setObj 4 (.inl rfl)).bump (.inr rfl)

theorem State.obj_rebased {k : Nat} (hj : ¬ JobKey n k) (hu : ¬ UnitKey k) (hc : ¬ CtlKey k) : (s.rebased n).obj k = s.obj k := by
  rw [(s.rebased_steady n).objs k hj, s.obj_drained n hu hc]

/-- Objects at other indexes than a parcel's job, cores, engines and controllers are as before. -/
theorem State.obj_rebased_of_idx {k : Nat}
    (h : k / 256 < 0x5200 ∨ 0x5310 ≤ k / 256 ∧ k / 256 < 0x6800 ∨ 0x6C80 ≤ k / 256 ∧ k / 256 < 0x7800) :
    (s.rebased n).obj k = s.obj k := by
  refine s.obj_rebased n ?_ ?_ ?_
  · simp only [JobKey, Obj.res_JOB_STATE, Obj.res_ROLLBACKS, objKey]; omega
  · unfold UnitKey; omega
  · unfold CtlKey; omega

theorem State.jobState_rebased : (s.rebased n).obj (Obj.res_JOB_STATE n) = 4 := by
  rw [State.rebased, State.obj_bump_other _ (by simp only [Obj.res_JOB_STATE, Obj.res_ROLLBACKS, objKey]; omega), State.setJobState,
    State.obj_setObj_same]

theorem State.counted_rebased : Counted (Obj.res_ROLLBACKS n) s (s.rebased n) := by
  have hkey : ¬ UnitKey (Obj.res_ROLLBACKS n) ∧ ¬ CtlKey (Obj.res_ROLLBACKS n) ∧ Obj.res_ROLLBACKS n ≠ Obj.res_JOB_STATE n := by
    simp only [UnitKey, CtlKey, Obj.res_JOB_STATE, Obj.res_ROLLBACKS, objKey]; omega
  rw [Counted, State.rebased, State.obj_bump_same, satN_eq_min, State.setJobState, State.obj_setObj_other _ _ hkey.2.2,
    (State.setCseqs_steady _ n _).objs _ id, s.obj_drained n hkey.1 hkey.2.1]

theorem State.next_rebased (hn : n < 4) {g : Nat} (h : g ∈ s.groupsOf n) :
    ((s.rebased n).groupSt g).next = (s.obj (Obj.pardig_RESULT_STEP n) + 1) % 2 ^ 15 * 2 ^ 17 + 2 ^ 16 := by
  have hg : g ∈ (s.drained n).groupsOf n := by
    rw [State.groupsOf_congr s n fun i hi => s.obj_drained n ?_ ?_]
    · exact h
    · simp only [UnitKey, Obj.grp_ENTRY, objKey]; omega
    · simp only [CtlKey, Obj.grp_ENTRY, objKey]; omega
  have hstep : (s.drained n).nextStep n = (s.obj (Obj.pardig_RESULT_STEP n) + 1) % 2 ^ 32 := by
    rw [State.nextStep, s.obj_drained n]
    · simp only [UnitKey, Obj.pardig_RESULT_STEP, objKey]; omega
    · simp only [CtlKey, Obj.pardig_RESULT_STEP, objKey]; omega
  rw [← stepBase_nextStep, ← hstep, ← State.next_setCseqs _ n _ hg]
  unfold State.rebased State.groupSt
  rw [State.bump, State.addObj_groups, State.setJobState, State.setObj_groups]

theorem State.mapped_rebased {b : Nat} (h : b ∈ s.mapped n) : b ∈ (s.rebased n).mapped n := by
  have hd : (s.rebased n).coreParcel = s.coreParcel := State.coreParcel_congr fun i hi =>
    s.obj_rebased_of_idx n (by simp only [Obj.par_DIE_MASK, objKey]; omega)
  rw [State.mem_mapped] at h ⊢
  rw [hd, State.core, (s.rebased_steady n).cores]
  exact ⟨h.1, (s.mapped_core_drained n b).trans h.2⟩

end

/-- ROLLBACK_COMPLETE of a parcel in a rollback, no reclaim fallen due, restarts its cores. -/
theorem exec_rollbackComplete {s : State} {n : ParcelId} (hj : s.jobState n = 3) (ha : s.parActive n = true) (he : s.enginesDone n = true)
    (hr : (s.parcel n).reclaim ≠ 2) :
    exec (.rollbackComplete n) s = .next (((s.rebased n).modParcel n Parcel.rolledBack).restartCores n) := by
  have hr' : (((s.rebased n).modParcel n Parcel.rolledBack).parcel n).reclaim ≠ 2 := by
    rw [State.parcel_modParcel_same, (s.rebased_steady n).parcel, s.parcel_drained n]; exact hr
  show execRollbackComplete n s = _
  unfold execRollbackComplete
  rw [if_pos ⟨hj, ha, he⟩, State.rollbackTail_eq]
  dsimp only
  rw [if_neg hr']

/-! ### A ready agreement that times out (R363) -/

section
variable (s : State) (n : Nat)

/-- A parcel whose job must restart stands in RESTART_NEEDED (R365). -/
theorem State.jobState_restartNeeded : (s.restartNeeded n).obj (Obj.res_JOB_STATE n) = 7 := by
  unfold State.restartNeeded
  split
  · assumption
  · rw [State.obj_bump_other _ (by simp only [Obj.res_JOB_STATE, Obj.res_RESTARTS_NEEDED, objKey]; omega), State.setJobState,
      State.obj_setObj_same]

/-- The objects of a parcel's resilience and of the error ring. -/
def ResKey (k : Nat) : Prop := 0x8000 ≤ k / 256 ∧ k / 256 < 0x8304

theorem resKey_of_ringKey {k : Nat} (h : RingKey k) : ResKey k := by unfold RingKey at h; unfold ResKey; omega

theorem State.restartNeeded_steady (hn : n < 4) : Steady ResKey s (s.restartNeeded n) := by
  refine .ite (.refl _ _) (((Steady.refl _ s).setObj 7 ?_).bump ?_)
  · simp only [ResKey, Obj.res_JOB_STATE, objKey]; omega
  · simp only [ResKey, Obj.res_RESTARTS_NEEDED, objKey]; omega

/-- A core out of its routine with 1 in s1. -/
def Core.ReturnedOne (k : Core) : Prop := k.lib = none ∧ k.reg 1 = 1

theorem State.core_libReturn_other (c : Nat) (l : List Nat) {b : Nat} (h : b ≠ c) : (s.libReturn c l).core b = s.core b := by
  rw [State.libReturn, State.core_settle, State.setResults, State.core_modCore_other _ _ h, State.core_modCore_other _ _ h]

theorem State.returnedOne_libReturn (c : Nat) : ((s.libReturn c [1]).core c).ReturnedOne := by
  rw [State.libReturn, State.core_settle, State.setResults, State.core_modCore_same, State.core_modCore_same]
  exact ⟨rfl, Core.reg_setReg_same _ 1 1⟩

/-- The cores of a parcel inside STEP_REPLAY. -/
def State.readyCores : List Nat := (s.parCores n).filter (fun c => decide ((s.core c).lib = some .ready))

theorem State.mem_readyCores {b : Nat} (h : s.coreParcel b = some n) (hb : (s.core b).lib = some .ready) : b ∈ s.readyCores n := by
  refine List.mem_filter.2 ⟨State.mem_parCores h fun e => ?_, by simpa using hb⟩
  rw [e] at hb; cases hb

/-- The agreement and its calls over, without an outcome. -/
def Parcel.unready (p : Parcel) : Parcel := { p with ready := none, calls := [] }

/-- The state in which a failed agreement's cores return: the job must restart, and the ring says so. -/
def State.readyFailed : State :=
  ((s.modParcel n Parcel.unready).restartNeeded n).advise (8 + n) (some n) 0x0905 0xFFFF
    ((s.modParcel n Parcel.unready).obj (Obj.pardig_RESULT_STEP n))

theorem State.readyEnd_false (slot : Nat) :
    s.readyEnd n false slot = (s.readyCores n).foldl (fun s c => s.libReturn c [1]) (s.readyFailed n) := rfl

theorem State.readyFailed_steady (hn : n < 4) : Steady ResKey (s.modParcel n Parcel.unready) (s.readyFailed n) :=
  (State.restartNeeded_steady _ n hn).advise (fun _ => resKey_of_ringKey) _ _ _ _ _

theorem State.jobState_readyFailed : (s.readyFailed n).obj (Obj.res_JOB_STATE n) = 7 := by
  have h := (Steady.refl RingKey ((s.modParcel n Parcel.unready).restartNeeded n)).advise (fun _ => id) (8 + n) (some n) 0x0905 0xFFFF
    ((s.modParcel n Parcel.unready).obj (Obj.pardig_RESULT_STEP n))
  rw [State.readyFailed, h.objs _ (by simp only [RingKey, Obj.res_JOB_STATE, objKey]; omega), State.jobState_restartNeeded]

/-- The cores' returns change cores and their objects. -/
theorem State.readyEnd_beside (slot : Nat) : Beside UnitKey (s.readyFailed n) (s.readyEnd n false slot) := by
  rw [State.readyEnd_false]
  exact (Beside.refl _ _).foldl fun u c hc => (u.libReturn_beside c [1]).mono fun _ =>
    unitKey_of_coreKey (State.coreParcel_lt (State.of_mem_parCores (List.mem_filter.1 hc).1))

theorem State.returnedOne_readyEnd (slot : Nat) {b : Nat} (h : b ∈ s.readyCores n) : ((s.readyEnd n false slot).core b).ReturnedOne := by
  rw [State.readyEnd_false]
  refine State.foldl_reaches (Q := fun c t => (t.core c).ReturnedOne) (g := fun s c => s.libReturn c [1])
    (fun t c => t.returnedOne_libReturn c) (fun t c b e ht => ?_) h _
  rwa [State.core_libReturn_other _ _ _ e]

end

/-- RESUME_TIMEOUT of an agreement that is not complete in time ends it. -/
theorem exec_resumeTimeout {s : State} {n : ParcelId} {q : Nat} {x : Coll} {due : Nat} (hq : (s.parcel n).ready = some q)
    (hx : s.collOf (s.obj (Obj.res_JOB_GROUP n)) q = some x) (hp : x.parcel = n.val) (hc : x.complete = false ∨ due < s.now)
    (hdue : due = x.startAt + s.obj (Obj.res_RESUME_TIMEOUT n) * 1024) (hlt : due < 2 ^ 64) :
    exec (.resumeTimeout n) s = .next (((s.advanceTo due).dropColl x.group x.cseq).readyEnd n false 0) := by
  have hd : s.resumeDue x = due := by rw [State.resumeDue, hp, hdue]
  have hlate : ¬ ((s.advanceTo due).now < due ∨ (x.complete = true ∧ s.now ≤ due)) := by
    rw [s.now_advanceTo hlt]
    rcases hc with hc | hc
    · simp [hc]
    · omega
  show execResumeTimeout n s = _
  unfold execResumeTimeout
  rw [hq, Option.bind_some, hx]
  dsimp only
  rw [hd, if_neg hlate]

/-- Settles O31: the end of a rollback is `rebased` with the parcel's record and its cores made new, and a late agreement ends as a
failed one at its instant. -/
theorem rollbackAndReadyAgreementEnd : Obligations.RollbackAndReadyAgreementEnd := by
  intro s n
  constructor
  · intro hj ha he hr
    have ht := ((s.rebased n).modParcel n Parcel.rolledBack).restartCores_beside n
    have hobj {k : Nat} (hk : k / 256 = 0x8300 + n) :
        (((s.rebased n).modParcel n Parcel.rolledBack).restartCores n).obj k = (s.rebased n).obj k := by
      rw [ht.objs k (by unfold UnitKey; omega), State.obj_modParcel]
    refine ⟨_, exec_rollbackComplete hj ha he hr, ?_⟩
    have hstate := (hobj (k := Obj.res_JOB_STATE n) (by simp only [Obj.res_JOB_STATE, objKey]; omega)).trans (s.jobState_rebased n)
    have hcount := (hobj (k := Obj.res_ROLLBACKS n) (by simp only [Obj.res_ROLLBACKS, objKey]; omega)).trans (s.counted_rebased n)
    rw [ht.parcel, State.parcel_modParcel_same]
    refine ⟨hstate, hcount, rfl, rfl, rfl, rfl, fun g hg => ?_, fun b hb => ?_⟩
    · rw [← s.next_rebased n n.isLt hg, State.groupSt, State.groups_restartCores, State.groups_modParcel, State.groupSt]
    · exact State.running_restartCores _ n (by rw [State.mapped_modParcel]; exact s.mapped_rebased n hb)
  · intro q x due hq hx hp hc hdue hlt
    refine ⟨_, exec_resumeTimeout hq hx hp hc hdue hlt, ?_⟩
    generalize hu : (s.advanceTo due).dropColl x.group x.cseq = u
    have hnow : u.now = max s.now due := by rw [← s.now_advanceTo hlt, ← hu]; rfl
    have hcore (b : Nat) : u.core b = s.core b := by rw [← s.core_advanceTo due, ← hu]; rfl
    have hparcel : u.coreParcel = s.coreParcel := State.coreParcel_congr fun i _ => by rw [← s.obj_advanceTo due, ← hu]; rfl
    have ht := u.readyEnd_beside n 0
    have hs := u.readyFailed_steady n n.isLt
    have hstate := ht.objs (Obj.res_JOB_STATE n) (by simp only [UnitKey, Obj.res_JOB_STATE, objKey]; omega)
    rw [ht.now, hs.now, ht.parcel, hs.parcel, State.parcel_modParcel_same]
    refine ⟨hnow, hstate.trans (u.jobState_readyFailed n), rfl, rfl,
      fun b hb hl => u.returnedOne_readyEnd n 0 (u.mem_readyCores n ?_ ?_)⟩
    · rw [hparcel, hb]
    · rw [hcore, hl]

end Sys2Proof.Machine
end

section
/-! PROOF. The commands START, STOP and REINIT (R388, R396): a write of a function's command object carries out its command. -/

namespace Sys2Proof.Machine

/-! ### A function's command objects (R399) -/

theorem fnNum_mem (f : Function) : fnNum f ∈ allFunctions := by
  cases f with
  | parcel n => simp only [fnNum, allFunctions, List.mem_cons, List.not_mem_nil, or_false]; omega
  | _ => decide

theorem fnNum_lt (f : Function) : fnNum f < 12 := (by decide : ∀ n ∈ allFunctions, n < 12) _ (fnNum_mem f)

/-- START, STOP and REINIT of every function are command objects (R399). -/
theorem objRow_fnCommand : ∀ n ∈ allFunctions, ∀ sub ∈ [3, 4, 5], objRow (0x2100 + n) sub = some ⟨sub, 1, .cmd, .cmd, 0⟩ := by
  decide

/-- Outside the indexes of security every role but that of reading permits (R406). -/
theorem mayWrite_fn {role : Role} (h : role ≠ .read) {idx : Nat} (hi : 0x2000 ≤ idx) : mayWrite role idx = true := by
  cases role with
  | read => exact absurd rfl h
  | operate => simp [mayWrite]; omega
  | security => rfl

section
variable {s : State} {role : Role} {f : Function} {sub : Nat}

theorem State.command_fn (s : State) (f : Function) (written : List Nat) (sub v : Nat) :
    s.command written (0x2100 + fnNum f) sub v = s.fnCommand (fnNum f) sub := by
  have hlt := fnNum_lt f
  unfold State.command
  rw [if_pos ⟨by omega, by omega⟩, Nat.add_sub_cancel_left]

/-- A command object of a function, written last and without a value, carries out the function's command. -/
theorem State.writeOne_fnCommand (hr : role ≠ .read) (hs : sub ∈ [3, 4, 5]) (written : List Nat) :
    s.writeOne (some role) true written (sentEntry (0x2100 + fnNum f) sub []) = s.fnCommand (fnNum f) sub := by
  have hrow := objRow_fnCommand _ (fnNum_mem f) sub hs
  have hmay := mayWrite_fn hr (idx := 0x2100 + fnNum f) (by omega)
  have hlock (v : Nat) : s.runLocked (0x2100 + fnNum f) sub v .cmd = false := by
    have hlt := fnNum_lt f
    unfold State.runLocked
    rw [if_neg (by omega), if_neg (by omega)]; rfl
  unfold State.writeOne sentEntry
  dsimp only
  rw [hrow]
  simp [hmay, hlock, OTy.size, State.command_fn]

/-- Alone in its write, it takes effect when its status is OK, and otherwise leaves nothing behind (R405). -/
theorem State.write1_fnCommand (hm : s.mgmtUp = true) (hr : role ≠ .read) (hs : sub ∈ [3, 4, 5]) :
    s.write1 role (0x2100 + fnNum f) sub [] =
      if (s.fnCommand (fnNum f) sub).1 = 0 then (s.fnCommand (fnNum f) sub).2 else s := by
  unfold State.write1 State.access State.dictWrite State.writeAll
  rw [if_pos hm, List.isEmpty_nil, State.writeOne_fnCommand hr hs]
  generalize s.fnCommand (fnNum f) sub = r
  obtain ⟨c, t⟩ := r
  cases c with
  | zero => rfl
  | succ c => simp [sentEntry]

theorem exec_functionStart (hm : s.mgmtUp = true) (hr : role ≠ .read) :
    exec (.functionStart role f) s = .next (if s.startCheck (fnNum f) = 0 then s.startFn (fnNum f) else s) := by
  show Host.Outcome.next (s.write1 role (0x2100 + fnNum f) 3 []) = _
  rw [State.write1_fnCommand hm hr (by decide)]
  by_cases h : s.startCheck (fnNum f) = 0 <;> simp [State.fnCommand, h]

theorem exec_functionStop (hm : s.mgmtUp = true) (hr : role ≠ .read) :
    exec (.functionStop role f) s = .next (if s.stopCheck (fnNum f) = 0 then s.stopFn (fnNum f) else s) := by
  show Host.Outcome.next (s.write1 role (0x2100 + fnNum f) 4 []) = _
  rw [State.write1_fnCommand hm hr (by decide)]
  by_cases h : s.stopCheck (fnNum f) = 0 <;> simp [State.fnCommand, h]

theorem exec_functionReinit (hm : s.mgmtUp = true) (hr : role ≠ .read) :
    exec (.functionReinit role f) s = .next (if s.reinitCheck (fnNum f) = 0 then s.reinitFn (fnNum f) else s) := by
  show Host.Outcome.next (s.write1 role (0x2100 + fnNum f) 5 []) = _
  rw [State.write1_fnCommand hm hr (by decide)]
  by_cases h : s.reinitCheck (fnNum f) = 0 <;> simp [State.fnCommand, h]

end

/-! ### The marks of an INIT (R396) -/

theorem testBit_setBit (m f : Nat) (b : Bool) : (setBit m f b).testBit f = b := by
  cases b with
  | true => simp [setBit, Nat.testBit_or]
  | false =>
    have hlow : m % 2 ^ f < 2 ^ f := Nat.mod_lt _ (Nat.two_pow_pos f)
    have hhigh : m - m % 2 ^ (f + 1) = 2 ^ f * (2 * (m / 2 ^ (f + 1))) := by
      have := Nat.div_add_mod m (2 ^ (f + 1))
      rw [← Nat.mul_assoc, ← pow_succ]; omega
    rw [setBit, if_neg Bool.false_ne_true, hhigh, Nat.testBit_eq_decide_div_mod_eq, Nat.mul_add_div (Nat.two_pow_pos f),
      Nat.div_eq_of_lt hlow]
    simp

section
variable (s : State) (f : Nat) (a b : Bool)

@[simp] theorem State.starting_markInit : (s.markInit f a b).sec.starting.testBit f = a := testBit_setBit _ _ _
@[simp] theorem State.stopping_markInit : (s.markInit f a b).sec.stopping.testBit f = b := testBit_setBit _ _ _
@[simp] theorem State.obj_markInit (k : Nat) : (s.markInit f a b).obj k = s.obj k := rfl
@[simp] theorem State.fnState_markInit (g : Nat) : (s.markInit f a b).fnState g = s.fnState g := rfl
@[simp] theorem State.now_markInit : (s.markInit f a b).now = s.now := rfl
@[simp] theorem State.mem_markInit : (s.markInit f a b).mem = s.mem := rfl
@[simp] theorem State.cores_markInit : (s.markInit f a b).cores = s.cores := rfl
@[simp] theorem State.dieClears_markInit : (s.markInit f a b).dieClears = s.dieClears := rfl
@[simp] theorem State.steClears_markInit : (s.markInit f a b).steClears = s.steClears := rfl
@[simp] theorem State.phyOk_markInit : (s.markInit f a b).phyOk = s.phyOk := rfl

end

end Sys2Proof.Machine
end

section
/-! PROOF. START, STOP, REINIT and the end of a stop (R393 to R396): each is one change of the function's state, with what precedes it. -/

namespace Sys2Proof.Machine

theorem not_fnKey_fn_STATE_unit (f : Nat) (hf : f < 12) : ¬ UnitKey (Obj.fn_STATE f) := by
  simp only [UnitKey, Obj.fn_STATE, objKey]; omega

/-! ### Checks -/

section
variable {s : State} {f : Nat}

/-- START is accepted of a function that is READY, STOPPED or in FAULT. -/
theorem State.fnState_of_startCheck (h : s.startCheck f = 0) : s.fnState f ≠ 1 := by
  intro h1
  unfold State.startCheck at h
  simp only [h1] at h
  split at h
  · cases h
  · cases h

end

/-! ### START (R14, R396) -/

section
variable (s : State) (f : Nat)

/-- A function in the INIT that START begins, before a parcel's is held. -/
def State.begun : State := ((s.clearCapture f).markInit f true false).setFnState f 1

/-- The objects that a START may change. -/
def StartKey (f k : Nat) : Prop := FnKey f k ∨ k / 256 = 0x8400 + f

theorem State.clearCapture_steady : Steady (StartKey f) s (s.clearCapture f) := (Steady.refl _ s).clearCapture f fun _ => .inr

theorem State.begun_steady : Steady (StartKey f) ((s.clearCapture f).markInit f true false) (s.begun f) :=
  (Steady.refl _ _).setFnState (fun _ => .inl) 1

theorem State.startFn_eq :
    s.startFn f = if 8 ≤ f then (s.begun f).modParcel (f - 8) (fun p => { p with heldStart := (s.begun f).clearing (f - 8) })
      else s.begun f := rfl

/-- What the hold of a parcel's START leaves as it is. -/
theorem State.startFn_keeps : (∀ k, (s.startFn f).obj k = (s.begun f).obj k) ∧ (s.startFn f).sec = (s.begun f).sec ∧
    (s.startFn f).mem = (s.begun f).mem ∧ (s.startFn f).cores = (s.begun f).cores := by
  rw [State.startFn_eq]
  generalize s.begun f = u
  split <;> exact ⟨fun _ => rfl, rfl, rfl, rfl⟩

theorem State.fnState_startFn : (s.startFn f).fnState f = 1 := by
  rw [State.fnState, (s.startFn_keeps f).1]; exact State.fnState_setFnState _ f 1

theorem State.lastChange_startFn (h : s.fnState f ≠ 1) : (s.startFn f).obj (Obj.fn_LAST_CHANGE f) = s.now := by
  have hs : Steady (fun k => k / 256 = 0x8400 + f) s (s.clearCapture f) := (Steady.refl _ s).clearCapture f fun _ => id
  have h1 : ((s.clearCapture f).markInit f true false).fnState f ≠ 1 := by
    rw [State.fnState_markInit, State.fnState, hs.objs _ (by simp only [Obj.fn_STATE, objKey]; omega)]
    exact h
  rw [(s.startFn_keeps f).1, State.begun, State.lastChange_setFnState h1, State.now_markInit, hs.now]

theorem State.marks_startFn : (s.startFn f).sec.starting.testBit f = true ∧ (s.startFn f).sec.stopping.testBit f = false := by
  rw [(s.startFn_keeps f).2.1, (s.begun_steady f).sec]
  exact ⟨State.starting_markInit _ f true false, State.stopping_markInit _ f true false⟩

theorem State.mem_startFn : (s.startFn f).mem = s.mem := by
  rw [(s.startFn_keeps f).2.2.1, (s.begun_steady f).mem, State.mem_markInit, (s.clearCapture_steady f).mem]

theorem State.cores_startFn : (s.startFn f).cores = s.cores := by
  rw [(s.startFn_keeps f).2.2.2, (s.begun_steady f).cores, State.cores_markInit, (s.clearCapture_steady f).cores]

end

/-- Whether a clear is in progress comes from the parcel's dies and engines and the clears (R14, R264). -/
theorem State.clearing_congr {s t : State} {n : Nat} (hd : t.obj (Obj.par_DIE_MASK n) = s.obj (Obj.par_DIE_MASK n))
    (he : t.obj (Obj.par_STE_MASK n) = s.obj (Obj.par_STE_MASK n)) (hk : t.dieClears = s.dieClears) (hj : t.steClears = s.steClears) :
    t.clearing n = s.clearing n := by
  simp only [State.clearing, State.dies, State.engines, hd, he, hk, hj]

/-- A parcel's START is held while a clear of its dies or engines is in progress. -/
theorem State.heldStart_startFn (s : State) (m : Nat) : ((s.startFn (8 + m)).parcel m).heldStart = s.clearing m := by
  have hc := s.clearCapture_steady (8 + m)
  have hb := s.begun_steady (8 + m)
  have hobj {k : Nat} (hk : k / 256 = 0x6100 + m) : (s.begun (8 + m)).obj k = s.obj k := by
    have hkey : ¬ StartKey (8 + m) k := fun h => h.elim (not_fnKey (by omega) (by omega) (by omega)) (by omega)
    rw [hb.objs k hkey, State.obj_markInit, hc.objs k hkey]
  rw [State.startFn_eq, if_pos (by omega), Nat.add_sub_cancel_left, State.parcel_modParcel_same]
  exact State.clearing_congr (hobj (by simp only [Obj.par_DIE_MASK, objKey]; omega)) (hobj (by simp only [Obj.par_STE_MASK, objKey]; omega))
    (by rw [hb.dieClears, State.dieClears_markInit, hc.dieClears]) (by rw [hb.steClears, State.steClears_markInit, hc.steClears])

/-! ### STOP and REINIT (R396) -/

section
variable {s : State} {f : Nat}

/-- A RUNNING function as its STOP finds it: a parcel's cores, engines and contexts halted. -/
def State.halted (s : State) (f : Nat) : State := if 8 ≤ f then s.haltParcel (f - 8) else s

theorem State.halted_beside (s : State) (f : Nat) : Beside UnitKey s (s.halted f) := .ite (s.haltParcel_beside _) (.refl _ _)

theorem State.stopFn_running (h : s.fnState f = 3) : s.stopFn f = (s.halted f).setFnState f 4 := by
  unfold State.stopFn
  rw [h]
  rfl

theorem State.stopFn_init (h : s.fnState f = 1) : s.stopFn f = s.markInit f (s.sec.starting.testBit f) true := by
  unfold State.stopFn
  rw [h]
  rfl

/-- The stop of a RUNNING function: STOPPING, from now. -/
theorem State.stopFn_stops (h : s.fnState f = 3) (hf : f < 12) :
    (s.stopFn f).fnState f = 4 ∧ (s.stopFn f).obj (Obj.fn_LAST_CHANGE f) = s.now ∧
      (f < 8 → (s.stopFn f).mem = s.mem ∧ (s.stopFn f).cores = s.cores) := by
  have hh := s.halted_beside f
  have h3 : (s.halted f).fnState f = 3 := (hh.objs _ (not_fnKey_fn_STATE_unit f hf)).trans h
  have ht := (Steady.refl (FnKey f) (s.halted f)).setFnState (fun _ => id) 4
  rw [State.stopFn_running h]
  refine ⟨State.fnState_setFnState _ f 4, ?_, fun h8 => ?_⟩
  · rw [State.lastChange_setFnState (by rw [h3]; decide), hh.now]
  · rw [ht.mem, ht.cores, State.halted, if_neg (by omega)]
    exact ⟨rfl, rfl⟩

theorem State.reinitFn_begins (s : State) (f : Nat) :
    (s.reinitFn f).fnState f = 1 ∧ (s.reinitFn f).sec.starting.testBit f = false ∧ (s.reinitFn f).mem = s.mem ∧
      (s.reinitFn f).cores = s.cores := by
  have ht := (Steady.refl (FnKey f) (s.markInit f false false)).setFnState (fun _ => id) 1
  refine ⟨State.fnState_setFnState _ f 1, ?_, ht.mem, ht.cores⟩
  rw [State.reinitFn, ht.sec, State.starting_markInit]

/-! ### The end of a stop (R362, R393) -/

/-- A stopped function's units: a parcel's requests ended and its accumulate units flushed. -/
theorem State.stopDone_stopping (h : s.fnState f = 4) :
    s.stopDone f = (if 8 ≤ f then (s.expireRequests (f - 8)).flushUnits (f - 8) else s).setFnState f 5 := by
  unfold State.stopDone
  rw [if_pos h]

theorem State.stopDone_stops (h : s.fnState f = 4) : (s.stopDone f).fnState f = 5 ∧ (f < 8 → (s.stopDone f).mem = s.mem) := by
  rw [State.stopDone_stopping h]
  refine ⟨State.fnState_setFnState _ f 5, fun h8 => ?_⟩
  rw [if_neg (by omega)]
  exact ((Steady.refl (FnKey f) s).setFnState (fun _ => id) 5).mem

end

end Sys2Proof.Machine
end

section
/-! PROOF. The restart of the fabric touches neither memory nor a core (R231, R235): its switch core starts empty, so that a port held
disabled has nothing to give back. -/

namespace Sys2Proof.Machine

section
variable {P : Nat → Prop} {s t : State}

/-- A switch core that differs in other parts than its stages, queues and outputs. -/
theorem Steady.setSwitch (h : Steady P s t) {w : Switch} (hw : t.sw.Quiet → w.Quiet) : Steady P s { t with sw := w } :=
  ⟨⟨h.ft, h.parcels, h.objs⟩, h.mem, h.cores, h.sec, h.freshCtr, h.dieClears, h.steClears, fun q => hw (h.quiet q)⟩

theorem Steady.setSvc (h : Steady P s t) (p : Nat) (v : Svc) : Steady P s (t.setSvc p v) := h.setSwitch id

/-- An election changes what it changes, whatever else is in the frame. -/
theorem Steady.timeLink (h : Steady P s t) (hP : ∀ k, TimeKey k → P k) (p : Nat) : Steady P s (t.timeLink p) :=
  (h.modTime _).trans ((Steady.refl _ _).elect.mono hP)

end

/-! ### A quiet switch core -/

section
variable {s : State}

theorem State.stageOf_quiet (h : s.sw.Quiet) (x : Nat) : s.stageOf x = Stage.reset := by
  rw [State.stageOf, h.1, Sparse.get_nil]

/-- No output is sending. -/
theorem State.dropSending_quiet (h : s.sw.Quiet) (x : Nat) : s.dropSending x = s := by
  have ho : s.outPort x = OutPort.reset := by rw [State.outPort, h.2.2, Sparse.get_nil]
  unfold State.dropSending
  dsimp only
  rw [ho]
  rfl

/-- An empty stage written over itself leaves the switch core quiet. -/
theorem Switch.quiet_setStage (h : s.sw.Quiet) (x : Nat) : (s.setStage x Stage.reset).sw.Quiet := by
  obtain ⟨hs, hq, ho⟩ := h
  exact ⟨by simp [State.setStage, hs, Sparse.set, Sparse.drop], hq, ho⟩

/-- No packet is queued for a port. -/
theorem State.reroute_quiet (h : s.sw.Quiet) (p : Nat) : s.reroute p = s := by
  unfold State.reroute
  rw [h.2.1]
  rfl

/-- What a link's stop comes to when its port holds nothing. -/
theorem State.stopLink_quiet (h : s.sw.Quiet) (p : Nat) :
    s.stopLink p = (((s.setLink p (s.link p).down).setStage p Stage.reset).timeLink p).reroute p := by
  have hl : (s.setLink p (s.link p).down).sw.Quiet := h
  unfold State.stopLink
  dsimp only
  rw [State.dropSending_quiet hl]
  simp only [State.stageOf_quiet hl, Stage.reset]

/-- With a quiet switch core the stop of a link changes its link layer and the time unit. -/
theorem Steady.stopLink {P : Nat → Prop} {s t : State} (h : Steady P s t) (hP : ∀ k, TimeKey k → P k) (hq : t.sw.Quiet) (p : Nat) :
    Steady P s (t.stopLink p) := by
  have hs : Steady P s ((t.setLink p (t.link p).down).setStage p Stage.reset) :=
    (h.setLinks _).setSwitch fun _ => Switch.quiet_setStage (s := t.setLink p _) hq p
  have ht := (Steady.refl P ((t.setLink p (t.link p).down).setStage p Stage.reset)).timeLink hP p
  rw [State.stopLink_quiet hq, State.reroute_quiet (ht.quiet (Switch.quiet_setStage (s := t.setLink p _) hq p))]
  exact hs.trans ht

end

/-! ### The restart (R231, R235) -/

/-- Everything. -/
def AnyKey (_ : Nat) : Prop := True

section
variable {s t : State}

theorem Steady.applyDisabled (h : Steady AnyKey s t) (hq : s.sw.Quiet) : Steady AnyKey s t.applyDisabled := by
  refine List.foldlRecOn (motive := Steady AnyKey s) _ _ h fun u hu p _ => ?_
  have state (v : Nat) : Steady AnyKey s (u.setObj (Obj.port_LINK_STATE p) v) := hu.setObj v trivial
  refine .ite hu (.ite (.ite ?_ (state 4)) (.ite (state _) hu))
  exact (state 4).stopLink (fun _ _ => trivial) (hu.quiet hq) p

/-- The fabric as its restart finds it: an empty switch core, nothing sent or received, the new STANDIN. -/
def State.emptied (s : State) : State := { s with sw := Switch.reset, txq := [], inbox := [], standin := s.obj Obj.topo_STANDIN }

theorem State.emptied_steady (s : State) : Steady AnyKey s s.emptied :=
  ⟨⟨rfl, rfl, fun _ _ => rfl⟩, rfl, rfl, rfl, rfl, rfl, rfl, fun _ => ⟨rfl, rfl, rfl⟩⟩

theorem State.fabricStart_steady (s : State) : Steady AnyKey s s.fabricStart := by
  have any (k : Nat) : AnyKey k := trivial
  refine s.emptied_steady.trans (Steady.applyDisabled (.foldl (.foldl (.foldl (.foldl (.refl _ _) ?refused) ?buckets) ?modes) ?ports)
    ⟨rfl, rfl, rfl⟩)
  case refused => exact fun u q _ => ((Steady.refl _ u).setObj _ (any _)).setObj _ (any _)
  case buckets => exact fun u i _ => (Steady.refl _ u).setSvc _ _
  case modes => exact fun u i _ => (Steady.refl _ u).setSvc _ _
  case ports =>
    intro u p _
    have anew (c : Prop) [Decidable c] (x : Link) : Steady AnyKey u (if c then u.setLink p x else u) :=
      .ite ((Steady.refl _ u).setLinks _) (.refl _ u)
    have state (c : Prop) [Decidable c] (x : Link) (v : Nat) := (anew c x).setObj (k := Obj.port_LINK_STATE p) v (any _)
    exact .ite ((Steady.refl _ u).setObj _ (any _)) (.ite (anew _ _) (.ite ((state _ _ _).timeLink (fun k _ => any k) p) (state _ _ _)))

end

end Sys2Proof.Machine
end

section
/-! PROOF. The end of the INIT of a parcel's START (R101, R396): the container's checks, and what a parcel that passes them starts with. -/

namespace Sys2Proof.Machine

/-! ### A container is read from memory and objects alone (R100, R101) -/

section
variable (s : State) (f n : Nat) (a b : Bool)

@[simp] theorem State.contDigest_markInit : (s.markInit f a b).contDigest n = s.contDigest n := rfl
@[simp] theorem State.contTotal_markInit : (s.markInit f a b).contTotal n = s.contTotal n := rfl
theorem State.contFormat_markInit : (s.markInit f a b).contFormat n = s.contFormat n := rfl
theorem State.contSigned_markInit : (s.markInit f a b).contSigned n = s.contSigned n := rfl
theorem State.contXaisk_markInit : (s.markInit f a b).contXaisk n = s.contXaisk n := rfl

theorem State.contMap_markInit : (s.markInit f a b).contMap n = s.contMap n := by
  have hs : (s.markInit f a b).sections n = s.sections n := rfl
  have hm : (s.markInit f a b).mapEntry n = s.mapEntry n := rfl
  have hc : (s.markInit f a b).coreParcel = s.coreParcel := rfl
  unfold State.contMap
  rw [hs, hm, hc]

@[simp] theorem State.contCheck_markInit : (s.markInit f a b).contCheck n = s.contCheck n := by
  unfold State.contCheck
  rw [s.contFormat_markInit, s.contSigned_markInit, s.contMap_markInit, s.contXaisk_markInit, s.contDigest_markInit]
  rfl

theorem State.contDigest_modParcel (m : Nat) (g : Parcel → Parcel) : (s.modParcel m g).contDigest n = s.contDigest n := rfl

end

/-! ### Stores (R15) -/

section
variable {P : Nat → Prop} {s t : State}

theorem Beside.writeBytes (h : Beside P s t) (a : Nat) (bs : Bytes) : Beside P s (t.writeBytes a bs) :=
  ⟨by rw [State.writeBytes_ft, h.ft], by rw [State.writeBytes_parcels, h.parcels],
    fun k hk => by rw [State.obj_writeBytes, h.objs k hk]⟩

/-- A store changes memory and the marks of its errors, whatever it meets. -/
theorem Beside.storeBytes (h : Beside P s t) (a : Nat) (bs : Bytes) : Beside P s (t.storeBytes a bs).1 := by
  unfold State.storeBytes
  split
  · exact h.writeBytes a bs
  · refine List.foldlRecOn (motive := fun r : State × Option Nat => Beside P s r.1) _ _ h fun r hr e _ => ?_
    dsimp only
    split
    · exact hr
    · have hp := hr.pokeByte (t.resolve true (a + e.2)) e.1
      generalize r.1.pokeByte _ _ = v at hp ⊢
      exact ⟨hp.ft, hp.parcels, hp.objs⟩

end

/-! ### A parcel's start (R101) -/

/-- Every object but the digest of parcel n's container. -/
def NotDigest (n k : Nat) : Prop := k ≠ Obj.pardig_PROGRAM_DIGEST n

theorem notDigest_of_idx {n k : Nat} (h : k / 256 ≠ 0x6300 + n) : NotDigest n k := by
  simp only [NotDigest, Obj.pardig_PROGRAM_DIGEST, objKey]; omega

theorem notDigest_objKey {n i j : Nat} (hj : j < 256) (h : i ≠ 0x6300 + n) : NotDigest n (objKey i j) :=
  notDigest_of_idx (by unfold objKey; omega)

section
variable (s : State) (n : Nat)

theorem State.installData_beside (P : Nat → Prop) : Beside P s (s.installData n) :=
  (Beside.refl P s).foldl fun _ _ _ => .ite ((Beside.refl _ _).storeBytes _ _) (.refl _ _)

theorem State.installCode_beside (P : Nat → Prop) : Beside P s (s.installCode n) := by
  refine (Beside.refl P s).foldl fun u k _ => (Beside.refl P u).foldl fun v e _ => ?_
  split
  · exact (Beside.refl P v).storeBytes _ _
  · exact .refl P v

/-- A start sets the cores of the parcel's dies. -/
theorem State.startCores_beside : Beside UnitKey s (s.startCores n) := by
  refine (Beside.refl _ s).foldl fun u c hc => ?_
  obtain ⟨k, hk, i, hi, rfl⟩ : ∃ k ∈ s.dies n, ∃ i ∈ List.range 192, 192 * k + i = c := by simpa using hc
  have hlt : 192 * k + i < 1152 := by
    have := (by decide : ∀ k ∈ [0, 1, 2, 3, 4, 5], k < 6) k (List.mem_filter.1 hk).1
    have := List.mem_range.1 hi
    omega
  have key {j : Nat} (hj : j < 256) : UnitKey (objKey (0x6800 + (192 * k + i)) j) := unitKey_of_coreKey hlt (coreKey_objKey _ hj)
  refine Beside.setObj (.foldl ((Beside.refl _ u).modCore _ _) fun v sub hs => (Beside.refl _ v).setObj _ (key ?_)) _ (key (by decide))
  exact (by decide : ∀ sub ∈ [0x02, 0x03, 0x04, 0x05, 0x06, 0x07, 0x08, 0x09, 0x0A, 0x0E], sub < 256) sub hs

/-- Parcel n with the record of its start. -/
def State.recorded : State := s.modParcel n (fun _ => { Parcel.reset with contLen := s.contTotal n })

/-- And with the digest of its container. -/
def State.admitted : State := (s.recorded n).setObj (Obj.pardig_PROGRAM_DIGEST n) (leNat ((s.recorded n).contDigest n))

theorem State.digest_admitted : (s.admitted n).obj (Obj.pardig_PROGRAM_DIGEST n) = leNat (s.contDigest n) := by
  rw [State.admitted, State.obj_setObj_same, State.recorded, State.contDigest_modParcel]

theorem State.contLen_admitted : ((s.admitted n).parcel n).contLen = s.contTotal n := by
  rw [State.admitted, State.recorded, State.parcel, State.setObj_parcels, ← State.parcel, State.parcel_modParcel_same]

/-- The state in which a start makes the parcel RUNNING: container installed, cores at their first operations. -/
theorem State.runParcel_eq (hn : n < 4) : ∃ u, Beside (NotDigest n) (s.admitted n) u ∧
    s.runParcel n = (u.setObj (Obj.fn_START_RESULT (8 + n)) 0).setFnState (8 + n) 3 := by
  unfold State.runParcel
  extract_lets f p s1 s2 s3 s4 s5 s6 s7 s8 s9 s10 s11
  refine ⟨s11, ?_, rfl⟩
  have key {i j : Nat} (hj : j < 256 := by decide) (h : i < 0x6300 ∨ 0x6304 ≤ i := by omega) : NotDigest n (objKey i j) :=
    notDigest_objKey hj (by omega)
  have of_unit {k : Nat} (h : UnitKey k) : NotDigest n k := notDigest_of_idx (by unfold UnitKey at h; omega)
  have h2 : Beside (NotDigest n) (s.admitted n) s2 := .refl _ _
  have h3 : Beside (NotDigest n) s2 s3 := ((Beside.refl _ _).setObj _ (key (i := 0x1301))).bump (key (i := 0x1301))
  have h4 : Beside (NotDigest n) s3 s4 := ((State.installDescs_beside _ n).mono fun _ => of_unit).trans
    ((State.installData_beside _ n _).trans (State.installCode_beside _ n _))
  have h5 : Beside (NotDigest n) s4 s5 := (State.setCseqs_steady _ n 1).toBeside.mono fun _ => False.elim
  have h6 : Beside (NotDigest n) s5 s6 := (Beside.refl _ _).foldl fun u g _ => ⟨rfl, rfl, fun _ _ => rfl⟩
  have h7 : Beside (NotDigest n) s6 s7 := by
    refine (Beside.refl _ _).foldl fun u j hj => (Beside.refl _ u).foldl fun v k hk => (Beside.refl _ v).setObj _ (notDigest_of_idx ?_)
    simp only [Obj.ste_FAULT_CODE, Obj.ste_FAULT_PC, Obj.ste_FAULT_END, Obj.ste_FAULT_TIME, objKey, List.mem_cons, List.not_mem_nil,
      or_false] at hk
    omega
  have h8 : Beside (NotDigest n) s7 s8 := (Beside.refl _ _).setObj 0 (key (i := 0x5100 + n))
  have h9 : Beside (NotDigest n) s8 s9 := .ite ((Beside.refl _ _).setObj 0 (key (i := 0x8300 + n))) (.refl _ _)
  have h10 : Beside (NotDigest n) s9 s10 :=
    .ite (((Beside.refl _ _).setObj 1 (key (i := 0x8300 + n))).setObj 0 (key (i := 0x8300 + n))) (.refl _ _)
  have h11 : Beside (NotDigest n) s10 s11 := (State.startCores_beside _ n).mono fun _ => of_unit
  exact ((((((((h2.trans h3).trans h4).trans h5).trans h6).trans h7).trans h8).trans h9).trans h10).trans h11

theorem notDigest_of_fnKey {f k : Nat} (hf : f < 12) (h : FnKey f k) : NotDigest n k := by
  rintro rfl
  exact not_fnKey (by simp only [Obj.pardig_PROGRAM_DIGEST, objKey]; omega) (by simp only [Obj.pardig_PROGRAM_DIGEST, objKey]; omega)
    (by simp only [Obj.pardig_PROGRAM_DIGEST, objKey]; omega) h

/-- A parcel that starts: RUNNING with START_RESULT 0, its container's digest and length noted. -/
theorem State.runParcel_runs (hn : n < 4) :
    (s.runParcel n).fnState (8 + n) = 3 ∧ (s.runParcel n).obj (Obj.fn_START_RESULT (8 + n)) = 0 ∧
      (s.runParcel n).obj (Obj.pardig_PROGRAM_DIGEST n) = leNat (s.contDigest n) ∧
      ((s.runParcel n).parcel n).contLen = s.contTotal n := by
  obtain ⟨u, hu, e⟩ := s.runParcel_eq n hn
  have hset := (Steady.refl (FnKey (8 + n)) (u.setObj (Obj.fn_START_RESULT (8 + n)) 0)).setFnState (fun _ => id) 3
  have hres : NotDigest n (Obj.fn_START_RESULT (8 + n)) := notDigest_objKey (i := 0x2100 + (8 + n)) (by decide) (by omega)
  have hall : Beside (NotDigest n) (s.admitted n) (s.runParcel n) :=
    e ▸ (hu.setObj 0 hres).trans (hset.toBeside.mono fun _ => notDigest_of_fnKey n (by omega))
  refine ⟨?_, ?_, ?_, ?_⟩
  · rw [e, State.fnState_setFnState]
  · rw [e, hset.objs _ (not_fnKey_START_RESULT _), State.obj_setObj_same]
  · rw [hall.objs _ (fun h => h rfl), State.digest_admitted]
  · rw [hall.parcel, State.contLen_admitted]

/-- The advisory of a container's failing check entered, START_RESULT set. -/
def State.refused (code : Nat) : State :=
  (s.advise (8 + n) (some n) (0x0800 + code) 0xFFFF 0).setObj (Obj.fn_START_RESULT (8 + n)) (0x0800 + code)

/-- Objects of the error ring and a function's START_RESULT. -/
def RefuseKey (n k : Nat) : Prop := RingKey k ∨ k = Obj.fn_START_RESULT (8 + n)

theorem State.refused_steady (code : Nat) : Steady (RefuseKey n) s (s.refused n code) :=
  ((Steady.refl _ s).advise (fun _ => .inl) _ _ _ _ _).setObj _ (.inr rfl)

variable {s n}

/-- The INIT of a START ends in one of two ways where the container's bytes are good: its first failing check decides. -/
theorem State.parcelInit_eq (hn : n < 4) (h1 : s.fnState (8 + n) = 1) (hb : s.contBad n = none) :
    s.parcelInit n = if s.contCheck n = 0 then s.runParcel n else (s.refused n (s.contCheck n)).setFnState (8 + n) 5 := by
  have hstate : (s.refused n (s.contCheck n)).fnState (8 + n) ≠ 6 := by
    have hkey : ¬ RefuseKey n (Obj.fn_STATE (8 + n)) := by
      simp only [RefuseKey, RingKey, Obj.fn_STATE, Obj.fn_START_RESULT, objKey]; omega
    have hsame : (s.refused n (s.contCheck n)).fnState (8 + n) = s.fnState (8 + n) := (s.refused_steady n _).objs _ hkey
    rw [hsame, h1]; decide
  unfold State.parcelInit
  rw [hb]
  dsimp only
  by_cases hc : s.contCheck n = 0
  · rw [if_neg (not_not.2 hc), if_pos hc]
  · rw [if_pos hc, if_neg hc]
    exact if_neg hstate

/-- A parcel whose container fails a check: STOPPED with the check's code. -/
theorem State.refused_stops (code : Nat) :
    ((s.refused n code).setFnState (8 + n) 5).fnState (8 + n) = 5 ∧
      ((s.refused n code).setFnState (8 + n) 5).obj (Obj.fn_START_RESULT (8 + n)) = 0x0800 + code ∧
      ((s.refused n code).setFnState (8 + n) 5).mem = s.mem ∧ ((s.refused n code).setFnState (8 + n) 5).cores = s.cores := by
  have hset := (Steady.refl (FnKey (8 + n)) (s.refused n code)).setFnState (fun _ => id) 5
  have href := s.refused_steady n code
  refine ⟨State.fnState_setFnState _ _ 5, ?_, hset.mem.trans href.mem, hset.cores.trans href.cores⟩
  rw [hset.objs _ (not_fnKey_START_RESULT _), State.refused, State.obj_setObj_same]

end

end Sys2Proof.Machine
end

section
/-! PROOF. The end of INIT work (R395, R396), automatic starts, and the states of functions put together. -/

namespace Sys2Proof.Machine

section
variable {s : State} {f : Nat}

/-- Whether a parcel's START waits for a clear, so that its INIT does not end (R14). -/
def State.waits (s : State) (f : Nat) : Prop := 8 ≤ f ∧ (s.parcel (f - 8)).heldStart = true

theorem State.not_waits (h : ∀ m, f = 8 + m → (s.parcel m).heldStart = false) : ¬ s.waits f := by
  rintro ⟨hf, hw⟩
  rw [h (f - 8) (by omega)] at hw
  cases hw

theorem State.initDone_waits (h : s.waits f) (ok : Bool) : s.initDone f ok = s := by
  obtain ⟨hf, hw⟩ := h
  unfold State.initDone
  dsimp only
  rw [if_pos (.inr (by simp [hf, hw]))]

/-! ### An INIT that STOP ended -/

/-- A function's START_RESULT and its state set together. -/
def State.ended (s : State) (f v : Nat) : State := (s.setObj (Obj.fn_START_RESULT f) 0).setFnState f v

theorem State.ended_is (s : State) (f v : Nat) : (s.ended f v).fnState f = v ∧ (s.ended f v).obj (Obj.fn_START_RESULT f) = 0 ∧
    (s.ended f v).mem = s.mem ∧ (s.ended f v).cores = s.cores := by
  have h := (Steady.refl (FnKey f) (s.setObj (Obj.fn_START_RESULT f) 0)).setFnState (fun _ => id) v
  refine ⟨State.fnState_setFnState _ f v, ?_, h.mem, h.cores⟩
  rw [State.ended, h.objs _ (not_fnKey_START_RESULT f), State.obj_setObj_same]

/-- The marks of an INIT cleared as it ends. -/
def State.unmarked (s : State) (f : Nat) : State := s.markInit f false false

theorem State.initDone_stopped (h1 : s.fnState f = 1) (hw : ¬ s.waits f) (hs : s.sec.stopping.testBit f = true) (ok : Bool) :
    s.initDone f ok = (s.unmarked f).ended f 5 := by
  unfold State.initDone
  dsimp only
  rw [if_neg (by simpa [State.waits, h1] using hw), if_pos hs]
  rfl

/-- Past the cases of a held INIT and of one that STOP ended. -/
theorem State.initDone_runs (h1 : s.fnState f = 1) (hw : ¬ s.waits f) (hs : s.sec.stopping.testBit f = false) (ok : Bool) :
    s.initDone f ok =
      if 8 ≤ f then
        if s.sec.starting.testBit f then (s.unmarked f).parcelInit (f - 8) else (s.unmarked f).setFnState f (if ok then 2 else 6)
      else if f = 2 ∧ !((s.unmarked f).initWork f ok).2 then ((s.unmarked f).initWork f ok).1.regulatorFault
      else if s.sec.starting.testBit f then
        if ((s.unmarked f).initWork f ok).2 then
          let t := if f = 4 then ((s.unmarked f).initWork f ok).1.fabricStart else ((s.unmarked f).initWork f ok).1
          if f = 3 then (t.ended f 3).elect else t.ended f 3
        else ((s.unmarked f).initWork f ok).1.startFails f
      else ((s.unmarked f).initWork f ok).1.setFnState f (if ((s.unmarked f).initWork f ok).2 then 2 else 6) := by
  unfold State.initDone
  dsimp only
  rw [if_neg (by simpa [State.waits, h1] using hw), hs, if_neg Bool.false_ne_true]
  rfl

/-! ### What INIT work comes to -/

theorem State.initWork_plain (s : State) (h4 : f ≠ 4) (h5 : f ≠ 5) (ok : Bool) : s.initWork f ok = (s, ok) := by
  unfold State.initWork
  rw [if_neg h4, if_neg h5]

/-- The fabric's needs a verified PHY image (R420). -/
theorem State.initWork_fabric (s : State) (ok : Bool) : s.initWork 4 ok = (s, ok && s.phyOk) := rfl

/-- Not begun by START: READY, or FAULT. -/
theorem State.initDone_ready (h1 : s.fnState f = 1) (hw : ¬ s.waits f) (hs : s.sec.stopping.testBit f = false)
    (hb : s.sec.starting.testBit f = false) (h2 : f ≠ 2) (h4 : f ≠ 4) (h5 : f ≠ 5) (ok : Bool) :
    s.initDone f ok = (s.unmarked f).setFnState f (if ok then 2 else 6) := by
  rw [State.initDone_runs h1 hw hs, hb, State.initWork_plain _ h4 h5]
  simp [h2]

/-- Begun by START: RUNNING, the time function with an election. -/
theorem State.initDone_started (h1 : s.fnState f = 1) (hw : ¬ s.waits f) (hs : s.sec.stopping.testBit f = false)
    (hb : s.sec.starting.testBit f = true) (h8 : f < 8) (h2 : f ≠ 2) (h4 : f ≠ 4) (h5 : f ≠ 5) (ok : Bool) :
    s.initDone f ok =
      if ok then (if f = 3 then ((s.unmarked f).ended f 3).elect else (s.unmarked f).ended f 3) else (s.unmarked f).startFails f := by
  rw [State.initDone_runs h1 hw hs, hb, State.initWork_plain _ h4 h5]
  simp [h2, h4, Nat.not_le.2 h8]

theorem State.initDone_fabric (h1 : s.fnState 4 = 1) (hs : s.sec.stopping.testBit 4 = false) (hb : s.sec.starting.testBit 4 = true)
    (ok : Bool) :
    s.initDone 4 ok = if ok && s.phyOk then (s.unmarked 4).fabricStart.ended 4 3 else (s.unmarked 4).startFails 4 := by
  rw [State.initDone_runs h1 (fun h => absurd h.1 (by decide)) hs, hb, State.initWork_fabric, State.unmarked, State.phyOk_markInit]
  generalize s.markInit 4 false false = u
  simp

theorem State.initDone_parcel {m : Nat} (h1 : s.fnState (8 + m) = 1) (hw : (s.parcel m).heldStart = false)
    (hs : s.sec.stopping.testBit (8 + m) = false) (hb : s.sec.starting.testBit (8 + m) = true) (ok : Bool) :
    s.initDone (8 + m) ok = (s.unmarked (8 + m)).parcelInit m := by
  rw [State.initDone_runs h1 (State.not_waits fun k hk => by rwa [show k = m by omega]) hs, hb, if_pos (by omega), if_pos rfl,
    Nat.add_sub_cancel_left]

/-- A parcel's INIT begun by START, its container's bytes good. -/
theorem State.initDone_container {m : Nat} (hm : m < 4) (h1 : s.fnState (8 + m) = 1) (hw : (s.parcel m).heldStart = false)
    (hs : s.sec.stopping.testBit (8 + m) = false) (hb : s.sec.starting.testBit (8 + m) = true) (hbad : s.contBad m = none) (ok : Bool) :
    s.initDone (8 + m) ok = if s.contCheck m = 0 then (s.unmarked (8 + m)).runParcel m
      else ((s.unmarked (8 + m)).refused m (s.contCheck m)).setFnState (8 + m) 5 := by
  rw [State.initDone_parcel h1 hw hs hb, State.parcelInit_eq (s := s.unmarked (8 + m)) hm h1 hbad, State.unmarked, State.contCheck_markInit]

/-- A START that fails leaves STOPPED and takes one free value (log 35). -/
theorem State.startFails_stops (s : State) (f : Nat) : (s.startFails f).fnState f = 5 ∧ (s.startFails f).freshCtr = s.freshCtr + 1 ∧
    (s.startFails f).mem = s.mem ∧ (s.startFails f).cores = s.cores := by
  have h := (Steady.refl (FnKey f) (s.fresh.2.setObj (Obj.fn_START_RESULT f) (s.fresh.1 % 2 ^ 16))).setFnState (fun _ => id) 5
  exact ⟨State.fnState_setFnState _ f 5, h.freshCtr, h.mem, h.cores⟩

/-- An election leaves the time function's state and START_RESULT. -/
theorem State.elect_ended (s : State) (f : Nat) : (s.ended f 3).elect.fnState f = 3 ∧
    (s.ended f 3).elect.obj (Obj.fn_START_RESULT f) = 0 ∧ (s.ended f 3).elect.mem = s.mem ∧ (s.ended f 3).elect.cores = s.cores := by
  obtain ⟨hstate, hres, hmem, hcores⟩ := s.ended_is f 3
  have h := (Steady.refl TimeKey (s.ended f 3)).elect
  refine ⟨?_, ?_, h.mem.trans hmem, h.cores.trans hcores⟩
  · rw [State.fnState, h.objs _ (by simp only [TimeKey, Obj.fn_STATE, objKey]; omega)]; exact hstate
  · rw [h.objs _ (by simp only [TimeKey, Obj.fn_START_RESULT, objKey]; omega)]; exact hres

end

/-! ### Automatic starts (R395) -/

theorem State.autoStart_starts {s : State} {f : Nat} (ha : s.obj (Obj.fn_AUTO_START f) = 1) (h2 : s.fnState f = 2)
    (hc : s.startCheck f = 0) : s.autoStart f = s.startFn f := by
  unfold State.autoStart
  rw [if_pos ⟨ha, h2, hc⟩]

/-! ### The states of functions -/

theorem exec_autoStart (s : State) (f : Function) : exec (.autoStart f) s = .next (s.autoStart (fnNum f)) := rfl
theorem exec_functionInitDone (s : State) (f : Function) (ok : Bool) :
    exec (.functionInitDone f ok) s = .next (s.initDone (fnNum f) ok) := rfl
theorem exec_functionStopDone (s : State) (f : Function) : exec (.functionStopDone f) s = .next (s.stopDone (fnNum f)) :=
  rfl

/-- Settles O53: each command and end is one change of the function's state, after what precedes it is carried out. -/
theorem functionsMoveThroughTheirStates : Obligations.FunctionsMoveThroughTheirStates := by
  rintro s f n hn
  have hlt : n < 12 := hn ▸ fnNum_lt f
  refine ⟨fun role hm hr => ?_, fun ha h2 hc => ?_, fun ok h1 hheld => ?_, fun hheld h8 ok => ?_, fun h4 => ?_⟩
  · rw [exec_functionStart hm hr, exec_functionStop hm hr, exec_functionReinit hm hr, ← hn]
    refine ⟨fun hc => ?_, fun hc => by rw [if_neg hc], fun hc h3 => ?_, fun hc h1 => ?_, fun hc => by rw [if_neg hc], fun hc => ?_,
      fun hc => by rw [if_neg hc]⟩
    · rw [if_pos hc]
      obtain ⟨hstarting, hstopping⟩ := s.marks_startFn n
      exact ⟨_, rfl, s.fnState_startFn n, s.lastChange_startFn n (State.fnState_of_startCheck hc), hstarting, hstopping, s.mem_startFn n,
        s.cores_startFn n, fun m hm => by rw [hm, s.heldStart_startFn m]⟩
    · rw [if_pos hc]
      exact ⟨_, rfl, State.stopFn_stops h3 hlt⟩
    · rw [if_pos hc, State.stopFn_init h1]
      exact ⟨_, rfl, rfl, State.stopping_markInit s n _ true⟩
    · rw [if_pos hc]
      exact ⟨_, rfl, s.reinitFn_begins n⟩
  · rw [exec_autoStart, ← hn, State.autoStart_starts ha h2 hc]
    exact ⟨_, rfl, s.fnState_startFn n, (s.marks_startFn n).1, s.mem_startFn n⟩
  · have hw := State.not_waits hheld
    rw [exec_functionInitDone, ← hn]
    refine ⟨fun hs => ?_, fun hs hb h2 h4 h5 => ?_, fun hs hb hf => ?_, fun hs hb hf => ?_, fun m hf hs hb hbad => ?_⟩
    · rw [State.initDone_stopped h1 hw hs]
      exact ⟨_, rfl, (s.unmarked n).ended_is n 5⟩
    · have h := (Steady.refl (FnKey n) (s.unmarked n)).setFnState (fun _ => id) (if ok then 2 else 6)
      rw [State.initDone_ready h1 hw hs hb h2 h4 h5]
      exact ⟨_, rfl, State.fnState_setFnState _ n _, h.mem, h.cores⟩
    · rw [State.initDone_started h1 hw hs hb (by omega) (by omega) (by omega) (by omega)]
      cases ok with
      | false =>
        obtain ⟨hstate, hfresh, hmem, -⟩ := (s.unmarked n).startFails_stops n
        exact ⟨_, rfl, hstate, hmem, nofun, fun _ => hfresh⟩
      | true =>
        rw [if_pos rfl]
        split
        · obtain ⟨hstate, hres, hmem, -⟩ := (s.unmarked n).elect_ended n
          exact ⟨_, rfl, hstate, hmem, fun _ => hres, nofun⟩
        · obtain ⟨hstate, hres, hmem, -⟩ := (s.unmarked n).ended_is n 3
          exact ⟨_, rfl, hstate, hmem, fun _ => hres, nofun⟩
    · clear hn
      subst hf
      rw [State.initDone_fabric h1 hs hb]
      cases hok : ok && s.phyOk with
      | false =>
        obtain ⟨hstate, -, hmem, hcores⟩ := (s.unmarked 4).startFails_stops 4
        exact ⟨_, rfl, hstate, hmem, hcores⟩
      | true =>
        obtain ⟨hstate, -, hmem, hcores⟩ := (s.unmarked 4).fabricStart.ended_is 4 3
        have h := (s.unmarked 4).fabricStart_steady
        rw [if_pos rfl]
        exact ⟨_, rfl, hstate, hmem.trans h.mem, hcores.trans h.cores⟩
    · clear hn
      subst hf
      rw [State.initDone_container (by omega) h1 (hheld m rfl) hs hb hbad]
      refine ⟨_, rfl, ?_⟩
      by_cases hcheck : s.contCheck m = 0
      · rw [if_pos hcheck, if_pos hcheck, ← s.contDigest_markInit (8 + m) m false false, ← s.contTotal_markInit (8 + m) m false false]
        exact (s.unmarked (8 + m)).runParcel_runs m (by omega)
      · rw [if_neg hcheck, if_neg hcheck]
        exact State.refused_stops _
  · rw [exec_functionInitDone, ← hn, State.initDone_waits ⟨h8, hheld _ (by omega)⟩]
  · rw [exec_functionStopDone, ← hn]
    exact ⟨_, rfl, State.stopDone_stops h4⟩

end Sys2Proof.Machine
end

section
/-! PROOF. ANCHOR_RETRY (R67): the clearing of its result array, and the descriptor of an attempt. -/

namespace Sys2Proof.Machine

/-! ### Regions of a core's own SRAM cleared -/

section
variable {s : State} {c : CoreId} {l : List (Nat × Nat)}

/-- Bytes written change memory alone. -/
theorem State.writeBytes_only (s : State) (a : Nat) (bs : Bytes) : { s.writeBytes a bs with mem := s.mem } = s := by
  induction bs generalizing s a with
  | nil => rfl
  | cons b bs ih => exact congrArg (fun t : State => { t with mem := s.mem }) (ih (s.pokeByte (s.resolve true a) b) (a + 1))

/-- A region inside a core's own SRAM lies in the first 2^41 addresses, which are their own direct locations (R157). -/
theorem inOwnSram_le (c : CoreId) {a m : Nat} (ha : a < 2 ^ 44) (h : inOwnSram c a m = true) : a + m ≤ 2 ^ 41 := by
  have hc := c.isLt
  unfold inOwnSram at h
  obtain ⟨⟨hspace, -⟩, hend⟩ := (Bool.and_eq_true _ _).mp h |>.imp_left (Bool.and_eq_true _ _).mp
  have hspace := of_decide_eq_true hspace
  have hend := of_decide_eq_true hend
  simp only [addrSpace, addrOff, field, Nat.shiftRight_eq_div_pow] at hspace hend
  omega

theorem Desc.allRegions_lt {d : Desc} {r : Nat × Nat} (h : r ∈ d.allRegions) : r.1 < 2 ^ 44 := by
  obtain ⟨p, -, rfl⟩ := List.mem_map.1 h
  exact Nat.mod_lt _ (by decide)

/-- A run of zeros written in SRAM. -/
theorem State.mem_writeZeros_sram (s : State) {a m : Nat} (h : a + m ≤ 2 ^ 41) (x : Nat) :
    Sparse.get 0 (s.writeBytes a (List.replicate m 0)).mem x = if a ≤ x ∧ x < a + m then 0 else Sparse.get 0 s.mem x := by
  rw [State.mem_writeBytes_sram s a _ (by rwa [List.length_replicate]), List.length_replicate]
  congr 1
  rw [List.getD_eq_getElem?_getD, List.getElem?_replicate]
  split <;> rfl

/-- The regions of a list that lie in core `c`'s own SRAM filled with zeros, the others left (R67). -/
def State.clearOwn (s : State) (c : Nat) (l : List (Nat × Nat)) : State :=
  l.foldl (fun (s : State) r => if inOwnSram c r.1 r.2 then s.writeBytes r.1 (List.replicate r.2 0) else s) s

theorem State.clearOwn_cons (s : State) (c : Nat) (r : Nat × Nat) (l : List (Nat × Nat)) :
    s.clearOwn c (r :: l) = (if inOwnSram c r.1 r.2 then s.writeBytes r.1 (List.replicate r.2 0) else s).clearOwn c l := rfl

/-- Clearing changes memory alone. -/
theorem State.clearOwn_only (s : State) (c : Nat) (l : List (Nat × Nat)) : { s.clearOwn c l with mem := s.mem } = s := by
  induction l generalizing s with
  | nil => rfl
  | cons r l ih =>
    rw [State.clearOwn_cons]
    split
    · exact (congrArg (fun t : State => { t with mem := s.mem }) (ih (s.writeBytes r.1 _))).trans (s.writeBytes_only r.1 _)
    · exact ih s

@[simp] theorem State.core_clearOwn (s : State) (c : Nat) (l : List (Nat × Nat)) (b : Nat) : (s.clearOwn c l).core b = s.core b :=
  (congrArg (fun t : State => t.core b) (s.clearOwn_only c l) :)

/-- A byte that is zero stays so under the clearing of any regions. -/
theorem State.mem_clearOwn_of_zero (hl : ∀ r ∈ l, r.1 < 2 ^ 44) {x : Nat} (hx : Sparse.get 0 s.mem x = 0) :
    Sparse.get 0 (s.clearOwn c l).mem x = 0 := by
  induction l generalizing s with
  | nil => exact hx
  | cons r l ih =>
    rw [State.clearOwn_cons]
    refine ih (fun p hp => hl p (List.mem_cons_of_mem _ hp)) ?_
    split
    next h => rw [State.mem_writeZeros_sram _ (inOwnSram_le c (hl r List.mem_cons_self) h), hx, ite_self]
    next => exact hx

/-- Every byte of a cleared region is zero. -/
theorem State.mem_clearOwn (hl : ∀ r ∈ l, r.1 < 2 ^ 44) {r : Nat × Nat} (hr : r ∈ l) (ho : inOwnSram c r.1 r.2 = true) {x : Nat}
    (hlo : r.1 ≤ x) (hhi : x < r.1 + r.2) : Sparse.get 0 (s.clearOwn c l).mem x = 0 := by
  induction l generalizing s with
  | nil => cases hr
  | cons p l ih =>
    have hrest : ∀ q ∈ l, q.1 < 2 ^ 44 := fun q hq => hl q (List.mem_cons_of_mem _ hq)
    rw [State.clearOwn_cons]
    obtain rfl | hr := List.mem_cons.1 hr
    · refine State.mem_clearOwn_of_zero hrest ?_
      rw [if_pos ho, State.mem_writeZeros_sram _ (inOwnSram_le c (hl r List.mem_cons_self) ho), if_pos ⟨hlo, hhi⟩]
    · exact ih hrest hr

theorem State.readByte_clearOwn {d : Desc} {r : Nat × Nat} (hr : r ∈ d.allRegions) (ho : inOwnSram c r.1 r.2 = true) {j : Nat}
    (hj : j < r.2) : (s.clearOwn c d.allRegions).readByte (r.1 + j) = 0 := by
  have hle := inOwnSram_le c (Desc.allRegions_lt hr) ho
  rw [State.readByte, State.resolve_sram _ _ (by omega)]
  exact State.mem_clearOwn (fun _ => Desc.allRegions_lt) hr ho (by omega) (by omega)

end

/-! ### The routine's call -/

section
variable {s₀ s : State} {c : CoreId} {n : Nat}

/-- A core's parcel comes from the die masks, which issue leaves (R10). -/
theorem State.coreParcel_issued (s : State) (c : Nat) (routine : Bool) (b : Nat) : (s.issued c routine).coreParcel b = s.coreParcel b := by
  have hmask (m : Nat) (hm : m < 4) : (s.issued c routine).obj (Obj.par_DIE_MASK m) = s.obj (Obj.par_DIE_MASK m) :=
    s.obj_issued_other c routine (by simp only [Obj.par_DIE_MASK, Obj.core_OPS_ISSUED, objKey]; omega)
  simp only [State.coreParcel, State.dieParcel, findParcel, List.find?_cons, List.find?_nil, hmask 0 (by decide), hmask 1 (by decide),
    hmask 2 (by decide), hmask 3 (by decide)]

theorem State.argReg_issued (s : State) (c : Nat) (routine : Bool) (i : Nat) : (s.issued c routine).argReg c i = s.argReg c i := by
  rw [State.argReg, State.core_issued]; rfl

theorem State.argReg_clearOwn (s : State) (c : Nat) (l : List (Nat × Nat)) (b i : Nat) : (s.clearOwn c l).argReg b i = s.argReg b i := by
  rw [State.argReg, State.core_clearOwn]; rfl

/-- The descriptor of the result that the record at SRAM offset `ro` of a core names (R301). -/
def State.resultDesc (s : State) (c ro : Nat) : Desc := ((s.core c).recDesc (bytesField (s.collRecord c ro) 14 2)).1

/-- ANCHOR_RETRY on a record aligned and inside SRAM: the result array is cleared, then the first attempt starts. -/
theorem exec_anchorRetry {u : State} (hu : u = s.issued c false) (hf : Fetched s₀ c false s) (hp : s.coreParcel c = some n)
    (halign : s.argReg c 1 % 8 = 0) (hend : s.argReg c 1 + 128 ≤ 2 ^ 21) :
    exec (.anchorRetry c) s₀ = .next ((u.clearOwn c (u.resultDesc c (u.argReg c 1)).allRegions).retryStart n c (u.argReg c 1)
      (signed 16 (u.argReg c 2)) 1) := by
  have hrec : u.argReg c 1 % 8 = 0 ∧ u.argReg c 1 + 128 ≤ 2 ^ 21 := by rw [hu, State.argReg_issued]; exact ⟨halign, hend⟩
  rw [← State.argReg_clearOwn u c (u.resultDesc c (u.argReg c 1)).allRegions c 2]
  show Host.Outcome.next _ = _
  rw [State.control_next hf.1 hf.2 rfl, ← hu, show u.coreParcel c = some n by rw [hu, State.coreParcel_issued, hp]]
  dsimp only
  rw [if_pos hrec]
  rfl

end

/-! ### An attempt -/

/-- A table entry with its ANCHOR, bits 207 to 192, replaced (R79). -/
def withAnchor (v : Nat) (a : Int) : Nat := v - field v 207 192 * 2 ^ 192 + wrap 16 a * 2 ^ 192

theorem withAnchor_fields (v : Nat) (a : Int) :
    withAnchor v a % 2 ^ 192 = v % 2 ^ 192 ∧ withAnchor v a / 2 ^ 192 % 2 ^ 16 = wrap 16 a ∧ withAnchor v a / 2 ^ 208 = v / 2 ^ 208 := by
  have ha : wrap 16 a < 2 ^ 16 := by unfold wrap; omega
  simp only [withAnchor, field, Nat.shiftRight_eq_div_pow]
  omega

/-- Settles O22: the call clears the array (`exec_anchorRetry`), every byte of a cleared region reads as zero, and an attempt's table
entry differs in its ANCHOR alone (`withAnchor_fields`). -/
theorem anchorRetryClearsAndStartsItsAttempt : Obligations.AnchorRetryClearsAndStartsItsAttempt := by
  intro s₀ s c n
  refine ⟨fun hf hp halign hend => ?_, fun ro k a => ?_⟩
  · exact ⟨_, exec_anchorRetry rfl hf hp halign hend, State.clearOwn_only _ _ _, fun r hr ho j hj => State.readByte_clearOwn hr ho hj⟩
  · obtain ⟨hlow, hanchor, hhigh⟩ := withAnchor_fields (Sparse.get 0 (s.core c).desc (bytesField (s.collRecord c ro) 14 2 % 4096)) a
    exact ⟨_, _, _, rfl, hlow, hanchor, hhigh, rfl, rfl⟩

end Sys2Proof.Machine
end

section
/-! PROOF. An engine operation whose operand fails a residue check in a training parcel (R63, R64): the error is step-fatal, so the
rollback it starts discards the operations queued behind the one that completes (R106, R362), which therefore are not in the queue
after it. -/

namespace Sys2Proof.Machine

/-- A started operation of an MXE, VXE or SPE that can complete does (R88). -/
theorem exec_engineOpComplete {s : State} {c : CoreId} {q : Queue} {i : Nat} {e : QEntry} (rep : EngineReport) (hq : q ≠ .txe)
    (he : ((s.core c).queue q)[i]? = some e) (hp : e.phase = .started) (hc : (s.core c).canComplete e = true) :
    exec (.engineOpComplete c q i rep) s = .next (s.completeEngine c q i e rep) := by
  show execEngineOpComplete c q i rep s = _
  unfold execEngineOpComplete
  rw [he]
  dsimp only
  rw [if_pos hp, if_neg hq, if_pos hc]

/-- An array of one DA128 word at an offset of core 0's SRAM. -/
def wordAt (a : Nat) : Desc := { lineDesc .da128 0 1 1 with base := a }

/-- A drain of one DA128 word. -/
def drainOp : QOp := .drain (wordAt 0x1000) (wordAt 0x2000) none

/-- The drain started, with the image of its operands: the source word has value 1 and RESIDUE 0, the target word is zero. -/
def startedDrain : QEntry :=
  { Core.reset.entry ⟨0, false, none, none⟩ 0 drainOp with phase := .started, image := [0, 0, 1] ++ List.replicate 29 0 }

/-- The same operation issued next. -/
def waitingDrain : QEntry := Core.reset.entry ⟨0, false, none, none⟩ 1 drainOp

/-- A report of nothing counted. -/
def quietReport : EngineReport := ⟨0, 0, 0, [], 0, 0, 0, 0, 0⟩

/-- Parcel 0 trains and runs on die 0, its job is RUNNING, and core 0's MXE has started a drain of a word whose residue is wrong, with
another drain waiting behind it. -/
def badResidue : State :=
  let s := ((State.reset.setObj (Obj.fn_STATE 8) 3).setObj (Obj.par_MODE 0) 2).setObj (Obj.par_DIE_MASK 0) 1
  { (s.setObj (Obj.res_JOB_STATE 0) 1).setObj (Obj.core_CORE_STATE 0) 1 with
    cores := [(0, { Core.reset with mapped := true, mxe := [startedDrain, waitingDrain] })], mem := [(0x1002, 1)] }

/-- The state after the drain has completed. -/
def badResidueDrained : State := badResidue.completeEngine (0 : CoreId) .mxe 0 startedDrain quietReport

/-- The drain passes the checks of its start (R81) and nothing has written its operands since; once it has completed, the parcel's
JOB_STATE is ROLLBACK and no operation is in the queue. -/
theorem badResidueDrained_queue_empty : badResidue.engineFaults 0 false drainOp = [] ∧ badResidue.opImage drainOp = startedDrain.image ∧
    badResidueDrained.jobState 0 = 3 ∧ (badResidueDrained.core 0).mxe = [] := by
  decide +kernel

/-- Refutes O17: where the operation meets a word with a wrong residue in a training parcel, the waiting operation behind it is
discarded and does not stand in the queue afterwards (R64, R362). -/
theorem not_engineOperationCompletes : ¬ Obligations.EngineOperationCompletes := by
  intro h
  obtain ⟨t, u, st, ex, hexec, -, -, hqueue, -⟩ :=
    h badResidue 0 .mxe 0 startedDrain quietReport (by decide) rfl rfl rfl
  have hnext : exec (.engineOpComplete 0 .mxe 0 quietReport) badResidue = .next badResidueDrained :=
    exec_engineOpComplete (e := startedDrain) _ (by decide) rfl rfl rfl
  obtain rfl : badResidueDrained = t := Host.Outcome.next.inj (hnext.symm.trans hexec)
  obtain ⟨-, -, -, hempty⟩ := badResidueDrained_queue_empty
  have hkept : [waitingDrain.seq] <+: (badResidueDrained.core 0).mxe.map QEntry.seq := hqueue
  rw [hempty] at hkept
  exact absurd (List.prefix_nil.1 hkept) (List.cons_ne_nil _ _)

end Sys2Proof.Machine
end

section
/-! PROOF. What a fetched operation finds, and what issue leaves (R72, R103): the layer under the control operations. -/

namespace Sys2Proof.Machine

/-! ### A core that differs in its cache alone -/

section
variable {k k' : Core}

theorem Core.sameButCache.eq (h : k.sameButCache k') : k = { k' with icache := k.icache } := h.symm

theorem Core.sameButCache.reg (h : k.sameButCache k') (r : Reg) : k.reg r = k'.reg r := by rw [h.eq]; rfl
theorem Core.sameButCache.val (h : k.sameButCache k') (x : Src) : k.val x = k'.val x := by rw [h.eq]; cases x <;> rfl
theorem Core.sameButCache.val32 (h : k.sameButCache k') (x : Src) : k.val32 x = k'.val32 x := by rw [Core.val32, h.val]; rfl
theorem Core.sameButCache.loopStack (h : k.sameButCache k') (routine : Bool) : k.loopStack routine = k'.loopStack routine := by
  rw [h.eq]; rfl
theorem Core.sameButCache.handleCheck (h : k.sameButCache k') (routine : Bool) (n : Nat) :
    k.handleCheck routine n = k'.handleCheck routine n := by rw [h.eq]; rfl

end

section
variable {s₀ s : State} {c : CoreId} {routine : Bool}

theorem Fetched.same (h : Fetched s₀ c routine s) : (s₀.core c).sameButCache (s.core c) := h.frame.2

theorem Fetched.hold (h : Fetched s₀ c routine s) : (s.core c).hold = .none := by
  have := State.issues_hold h.1
  rw [h.same.eq] at this; exact this

theorem Fetched.stopped (h : Fetched s₀ c routine s) : (s.core c).stopped = false := by
  have := State.issues_stopped h.1
  rw [h.same.eq] at this; exact this

/-- A fetch leaves CORE_STATE. -/
theorem Fetched.coreState (h : Fetched s₀ c routine s) : s.coreState c = if routine then 4 else 1 := by
  rw [← State.issues_state h.1]
  exact h.frame.1.2.1 _ (by simp [Obj.core_CORE_STATE, Obj.core_ICACHE_MISS, objKey])

end

/-! ### Addresses and bytes after issue -/

section
variable {s t : State}

/-- Where an address lies comes from the objects of parcels and their memory (R157, R176). -/
theorem State.resolve_congr (h : ∀ k, k / 256 < 0x6800 → t.obj k = s.obj k) (w : Bool) (a : Nat) : t.resolve w a = s.resolve w a := by
  have hd : t.dieParcel = s.dieParcel := State.dieParcel_congr fun n hn => h _ (by unfold Obj.par_DIE_MASK objKey; omega)
  have hn (k : Nat) : (s.stackParcel k).getD 0 < 4 := by
    cases e : s.stackParcel k with
    | none => simp
    | some n =>
      have := List.mem_of_find?_eq_some e
      simp only [List.mem_cons, List.not_mem_nil, or_false] at this
      simp only [Option.getD_some]; omega
  have hs (k : Nat) : t.stackParcel k = s.stackParcel k := by rw [State.stackParcel, State.stackParcel, hd]
  unfold State.resolve
  split
  · dsimp only
    rw [hs, h (Obj.parmem_ACTIVE_HALF _), h (Obj.parmem_SHARD_OFFSET _), h (Obj.parmem_SHARD_GIB _)] <;>
      · have := hn ((addrOff a - winBase) / 2 ^ 35)
        simp only [Obj.parmem_ACTIVE_HALF, Obj.parmem_SHARD_OFFSET, Obj.parmem_SHARD_GIB, objKey]; omega
  · rfl

variable (c : CoreId) (routine : Bool)

theorem ne_coreObj_of_idx {k : Nat} (h : k / 256 < 0x6800) (c : Nat) {j : Nat} : k ≠ objKey (0x6800 + c) j := by
  unfold objKey; omega

@[simp] theorem State.resolve_issued (w : Bool) (a : Nat) : (s.issued c routine).resolve w a = s.resolve w a :=
  State.resolve_congr (fun _ hk => s.obj_issued_other c routine (ne_coreObj_of_idx hk c)) w a

@[simp] theorem State.readByte_issued (a : Nat) : (s.issued c routine).readByte a = s.readByte a := by
  rw [State.readByte, State.mem_issued, State.resolve_issued]; rfl

@[simp] theorem State.readNat_issued (a n : Nat) : (s.issued c routine).readNat a n = s.readNat a n := by
  simp [State.readNat, State.readBytes]

/-- Own SRAM of a core lies in the first 2^41 addresses (R157). -/
theorem sram_lt (c : CoreId) {o n : Nat} (h : o + n ≤ 2 ^ 21) : c.val * 2 ^ 21 + o + n ≤ 2 ^ 41 := by
  have := c.isLt; omega

theorem State.readByte_sram (s : State) {a : Nat} (h : a < 2 ^ 41) : s.readByte a = Sparse.get 0 s.mem a := by
  rw [State.readByte, State.resolve_sram _ _ h]

end

end Sys2Proof.Machine
end

section
/-! PROOF. The front of the queue, the comparison of flags (R84), and the loads and stores of a core (R76, R77, R88, R90, R105). -/

namespace Sys2Proof.Machine

/-- Settles O1: with a command in front, a step takes it off the queue and runs it. -/
theorem stepRunsTheFrontCommand : Obligations.StepRunsTheFrontCommand := fun _ _ _ => rfl

/-! ### Comparisons (R84) -/

/-- A difference of 32-bit values is the difference of their numbers modulo 2^32. -/
theorem flagGe_iff (f v : BitVec 32) : flagGe f v = true ↔ ((f.toNat : Int) - v.toNat) % 2 ^ 32 < 2 ^ 31 := by
  have hf := f.isLt
  have hv := v.isLt
  rw [flagGe, decide_eq_true_iff, BitVec.toNat_sub]
  omega

theorem skipHolds_lt_iff (f v : BitVec 32) : skipHolds .lt f v = true ↔ ¬ flagGe f v = true := by
  rw [skipHolds, Bool.not_eq_true', Bool.not_eq_true]

theorem Core.gateOpen_iff (k : Core) {e : QEntry} {g : Flag} {n : Nat} (h : e.gate = some (g, n)) :
    k.gateOpen e = true ↔ flagGe (k.flag g) (BitVec.ofNat 32 n) = true := by
  rw [Core.gateOpen, h]

/-- Settles O8: every comparison is `flagGe`, its opposite for LT, and a gate's value is its operand's 32 bits. -/
theorem flagComparisonIsModular : Obligations.FlagComparisonIsModular := by
  refine fun f v => ⟨flagGe_iff f v, flagGe_iff f v, (skipHolds_lt_iff f v).trans (not_congr (flagGe_iff f v)), fun k e g n hg hn => ?_⟩
  rw [Core.gateOpen_iff k hg, flagGe_iff, BitVec.toNat_ofNat, Nat.mod_eq_of_lt hn]

/-! ### Bytes of words -/

/-- A byte of a word, counted from the least significant. -/
theorem byte_of_word (v : BitVec 64) (j : Nat) : (v >>> (8 * j)).setWidth 8 = BitVec.ofNat 8 (v.toNat / 256 ^ j) := by
  apply BitVec.eq_of_toNat_eq
  rw [BitVec.toNat_setWidth, BitVec.toNat_ushiftRight, BitVec.toNat_ofNat, Nat.shiftRight_eq_div_pow, Nat.pow_mul]

/-- A word read from memory holds the bytes there, least significant first. -/
theorem State.byte_of_readNat (s : State) (a : Nat) {j : Nat} (hj : j < 8) :
    (BitVec.ofNat 64 (s.readNat a 8) >>> (8 * j)).setWidth 8 = s.readByte (a + j) := by
  apply BitVec.eq_of_toNat_eq
  have hlt : s.readNat a 8 < 2 ^ 64 := s.readNat_lt a 8
  rw [byte_of_word, BitVec.toNat_ofNat, BitVec.toNat_ofNat, Nat.mod_eq_of_lt hlt]
  exact s.readNat_byte a 8 j hj

section
variable {s₀ s : State} {c : CoreId} {routine : Bool}

/-! ### Loads (R88, R90, R105) -/

theorem exec_scLd (hf : Fetched s₀ c false s) (d : Reg) (a : Src) (halign : ((s.core c).val a).toNat % 8 = 0)
    (hend : ((s.core c).val a).toNat + 8 ≤ 2 ^ 21) :
    exec (.scLd c d a) s₀ =
      .next ((s.issued c false).setReg c d (BitVec.ofNat 64 (s.readNat (c.val * 2 ^ 21 + ((s.core c).val a).toNat) 8))) := by
  show execScLd c d a s₀ = _
  rw [execScLd, hf.same.val]
  rw [State.control_next hf.1 hf.2 (sramCheck_ok hend halign), State.readNat_issued]
  rfl

theorem exec_flagStatus (hf : Fetched s₀ c routine s) (d : Reg) {f : Flag} (hok : routine = true ∨ f.val < 240) :
    exec (.flagStatus c routine d f) s₀ = .next ((s.issued c routine).setReg c d ((s.core c).flagStatus f)) := by
  show execFlagStatus c routine d f s₀ = _
  rw [execFlagStatus, State.control_next hf.1 hf.2 (flagCheck_ok hok), State.core_issued]
  rfl

/-- The excess nibble stands above the status byte (R88). -/
theorem Core.flagStatus_eq (k : Core) (f : Flag) :
    k.flagStatus f = (Sparse.get 0 k.fexc f.val ++ Sparse.get 0 k.fstat f.val).setWidth 64 := by
  apply BitVec.eq_of_toNat_eq
  have hx := (Sparse.get 0 k.fexc f.val).isLt
  have hs := (Sparse.get 0 k.fstat f.val).isLt
  rw [Core.flagStatus, BitVec.toNat_setWidth, BitVec.toNat_append, BitVec.toNat_ofNat, ← Nat.shiftLeft_add_eq_or_of_lt hs,
    Nat.shiftLeft_eq]

theorem exec_loopIdx_open (hf : Fetched s₀ c routine s) (d : Reg) (k : Fin 4) {fr : LoopFrame}
    (h : ((s.core c).loopStack routine)[k.val]? = some fr) :
    exec (.loopIdx c routine d k) s₀ = .next ((s.issued c routine).setReg c d (BitVec.ofNat 64 fr.iter)) := by
  show execLoopIdx c routine d k s₀ = _
  rw [execLoopIdx, State.control_next hf.1 hf.2 rfl, State.core_issued, Core.loopStack_moved, h]

theorem exec_loopIdx_free (hf : Fetched s₀ c routine s) (d : Reg) (k : Fin 4)
    (h : ((s.core c).loopStack routine)[k.val]? = none) :
    exec (.loopIdx c routine d k) s₀ =
      .next ((s.issued c routine).fresh.2.setReg c d (BitVec.ofNat 64 (Config.freeNat s.freshCtr))) := by
  show execLoopIdx c routine d k s₀ = _
  rw [execLoopIdx, State.control_next hf.1 hf.2 rfl, State.core_issued, Core.loopStack_moved, h]
  dsimp only
  rw [State.fresh, State.freshCtr_issued]

/-- An issued operation that writes a register. -/
theorem Issued.setReg_issued (s : State) (c : CoreId) (routine : Bool) (d : Reg) (v : BitVec 64) :
    Issued c [] s ((s.issued c routine).setReg c d v) ∧
      RegWritten (s.core c) (((s.issued c routine).setReg c d v).core c) routine d v := by
  refine ⟨(Issued.issued s routine c).setReg d v, ?_⟩
  rw [State.core_setReg_same, State.core_issued]
  exact RegWritten.setReg _ routine d v

/-- Settles O4: each is the fetched state, issued, with one register written. -/
theorem loadsOfACoreWriteTheirRegister : Obligations.LoadsOfACoreWriteTheirRegister := by
  intro s₀ s c d
  refine ⟨?_, ?_, ?_⟩
  · rintro a o rfl hf halign hend
    obtain ⟨hi, hw⟩ := Issued.setReg_issued s c false d (BitVec.ofNat 64 (s.readNat (c.val * 2 ^ 21 + ((s.core c).val a).toNat) 8))
    exact ⟨_, _, exec_scLd hf d a halign hend, hi, hw, fun j hj => s.byte_of_readNat _ hj⟩
  · intro routine f hf hok
    rw [← Core.flagStatus_eq]
    exact ⟨_, exec_flagStatus hf d hok, Issued.setReg_issued s c routine d _⟩
  · intro routine k hf
    cases h : ((s.core c).loopStack routine)[k.val]? with
    | some fr =>
      obtain ⟨hi, hw⟩ := Issued.setReg_issued s c routine d (BitVec.ofNat 64 fr.iter)
      refine ⟨_, exec_loopIdx_open hf d k h, ?_, ?_, (fun e => by cases e)⟩
      · rw [show s.freshCtr = ((s.issued c routine).setReg c d (BitVec.ofNat 64 fr.iter)).freshCtr by simp]; exact hi
      · rintro _ ⟨⟩; exact ⟨by simp, hw⟩
    | none =>
      obtain ⟨hi, hw⟩ := Issued.setReg_issued s c routine d (BitVec.ofNat 64 (Config.freeNat s.freshCtr))
      refine ⟨_, exec_loopIdx_free hf d k h, ?_, (fun fr e => by cases e), fun _ => ⟨by simp [State.fresh], hw⟩⟩
      rw [show s.freshCtr = ((s.issued c routine).setReg c d (BitVec.ofNat 64 (Config.freeNat s.freshCtr))).freshCtr by simp]
      exact hi

/-! ### Stores (R76, R77, R105) -/

/-- Bytes stored in a core's own SRAM: each lands at its address, and every byte that lies elsewhere reads as before. -/
theorem State.readByte_storeSram (s : State) (c : CoreId) {o : Nat} {bs : Bytes} (h : o + bs.length ≤ 2 ^ 21) :
    (∀ j, j < bs.length → (s.writeBytes (c.val * 2 ^ 21 + o) bs).readByte (c.val * 2 ^ 21 + o + j) = bs.getD j 0) ∧
    ∀ b, (∀ j, j < bs.length → s.resolve false b ≠ c.val * 2 ^ 21 + o + j) →
      (s.writeBytes (c.val * 2 ^ 21 + o) bs).readByte b = s.readByte b := by
  have hlt := sram_lt c h
  constructor
  · intro j hj
    rw [State.readByte_sram _ (by omega), State.mem_writeBytes_sram _ _ _ hlt, if_pos (by omega), Nat.add_sub_cancel_left]
  · intro b hb
    rw [State.readByte, State.resolve_congr (fun k _ => State.obj_writeBytes _ _ _ k), State.mem_writeBytes_sram _ _ _ hlt, if_neg]
    · rfl
    · rintro ⟨hlo, hhi⟩
      exact hb (s.resolve false b - (c.val * 2 ^ 21 + o)) (by omega) (by omega)

theorem exec_scSt (hf : Fetched s₀ c false s) (v a : Src) (halign : ((s.core c).val a).toNat % 8 = 0)
    (hend : ((s.core c).val a).toNat + 8 ≤ 2 ^ 21) :
    exec (.scSt c v a) s₀ =
      .next ((s.issued c false).writeBytes (c.val * 2 ^ 21 + ((s.core c).val a).toNat) (leBytes 8 ((s.core c).val v).toNat)) := by
  show execScSt c v a s₀ = _
  rw [execScSt, hf.same.val]
  rw [State.control_next hf.1 hf.2 (sramCheck_ok hend halign), State.core_issued, Core.val_moved]
  rfl

/-- A handle is valid when its generation is its entry's (R77), and a program names entries below 3,840 (R76). -/
theorem Core.handleCheck_ok {k : Core} {n : Nat} (hg : (Sparse.get 0 k.gens (n % 4096)).toNat = n / 4096)
    (hr : routine = true ∨ n % 4096 < 3840) : k.handleCheck routine n = [] := by
  have := (Sparse.get 0 k.gens (n % 4096)).isLt
  have : n / 4096 % 16 = n / 4096 := Nat.mod_eq_of_lt (by omega)
  simp only [Core.handleCheck, need, this, hg, hr, decide_true, if_true, Bool.or_eq_true, decide_eq_true_eq, List.nil_append]

theorem exec_descGet (hf : Fetched s₀ c routine s) (h a : Src) {n : Nat} (hn : n = ((s.core c).val h).toNat % 2 ^ 16)
    (hg : (Sparse.get 0 (s.core c).gens (n % 4096)).toNat = n / 4096) (hr : routine = true ∨ n % 4096 < 3840)
    (hend : ((s.core c).val a).toNat + 128 ≤ 2 ^ 21) :
    exec (.descGet c routine h a) s₀ = .next ((s.issued c routine).writeBytes (c.val * 2 ^ 21 + ((s.core c).val a).toNat)
      (leBytes 128 (Sparse.get 0 (s.core c).desc (n % 4096)))) := by
  have hcheck : (s.core c).handleCheck routine n ++ sramCheck ((s.core c).val a).toNat 128 1 = [] := by
    rw [Core.handleCheck_ok hg hr, sramCheck_ok hend (Nat.mod_one _)]; rfl
  show execDescGet c routine h a s₀ = _
  rw [execDescGet]
  rw [hf.same.val, hf.same.val, ← hn, hf.same.handleCheck, State.control_next hf.1 hf.2 hcheck, State.core_issued]
  rfl

/-- An issued operation that stores bytes. -/
theorem Issued.writeBytes_issued (s : State) (c : CoreId) (routine : Bool) (a : Nat) (bs : Bytes) :
    Issued c [] s { (s.issued c routine).writeBytes a bs with mem := s.mem } ∧
      ((s.issued c routine).writeBytes a bs).core c = (s.core c).moved routine := by
  have honly := State.writeBytes_only (s.issued c routine) a bs
  rw [State.mem_issued] at honly
  exact ⟨honly.symm ▸ Issued.issued s routine c, by rw [State.core_writeBytes, State.core_issued]⟩

/-- Settles O5: each is the fetched state, issued, with the bytes of a value stored in own SRAM. -/
theorem storesOfACoreWriteOnlyTheirBytes : Obligations.StoresOfACoreWriteOnlyTheirBytes := by
  rintro s₀ s c a o rfl
  constructor
  · intro v hf halign hend
    obtain ⟨hi, hc⟩ := Issued.writeBytes_issued s c false (c.val * 2 ^ 21 + ((s.core c).val a).toNat) (leBytes 8 ((s.core c).val v).toNat)
    obtain ⟨hin, hout⟩ := State.readByte_storeSram (s.issued c false) c (o := ((s.core c).val a).toNat)
      (bs := leBytes 8 ((s.core c).val v).toNat) (by rwa [leBytes_length])
    simp only [leBytes_length, State.resolve_issued, State.readByte_issued] at hin hout
    refine ⟨_, exec_scSt hf v a halign hend, hi, hc, fun j hj => ?_, hout⟩
    rw [hin j hj, List.getD_eq_getElem?_getD, leBytes_get _ _ _ hj, byte_of_word]; rfl
  · intro routine h n hf hn hg hr hend
    obtain ⟨hi, hc⟩ := Issued.writeBytes_issued s c routine (c.val * 2 ^ 21 + ((s.core c).val a).toNat)
      (leBytes 128 (Sparse.get 0 (s.core c).desc (n % 4096)))
    obtain ⟨hin, hout⟩ := State.readByte_storeSram (s.issued c routine) c (o := ((s.core c).val a).toNat)
      (bs := leBytes 128 (Sparse.get 0 (s.core c).desc (n % 4096))) (by rwa [leBytes_length])
    simp only [leBytes_length, State.resolve_issued, State.readByte_issued] at hin hout
    refine ⟨_, exec_descGet hf h a hn hg hr hend, hi, hc, fun j hj => ?_, hout⟩
    rw [hin j hj, List.getD_eq_getElem?_getD, leBytes_get _ _ _ hj]
    simp

end

end Sys2Proof.Machine
end

section
/-! PROOF. The descriptor table (R76, R77), the flags (R83, R88), the waits of a core (R87, R92) and its control flow (R90 to R93). -/

namespace Sys2Proof.Machine

section
variable {s₀ s : State} {c : CoreId} {routine : Bool}

/-! ### `desc.set` (R76, R77, R105) -/

/-- A core with an entry of its table installed: the entry's generation moves on, and a register takes the handle. -/
def Core.installed (k : Core) (d : Reg) (n w : Nat) : Core :=
  { k with desc := Sparse.set 0 k.desc n w, gens := Sparse.set 0 k.gens n (Sparse.get 0 k.gens n + 1) }.setReg d
    (BitVec.ofNat 64 ((Sparse.get 0 k.gens n + 1).toNat * 4096 + n))

/-- With its tables as they were, such a core has a register written and nothing else. -/
theorem Core.installed_tables (k : Core) (d : Reg) (n w : Nat) :
    k.setReg d (BitVec.ofNat 64 ((Sparse.get 0 k.gens n + 1).toNat * 2 ^ 12 + n)) =
        { k.installed d n w with desc := k.desc, gens := k.gens } ∧
      (k.installed d n w).desc = Sparse.set 0 k.desc n w ∧
      (k.installed d n w).gens = Sparse.set 0 k.gens n (Sparse.get 0 k.gens n + 1) := by
  unfold Core.installed Core.setReg; split <;> exact ⟨rfl, rfl, rfl⟩

theorem exec_descSet (hf : Fetched s₀ c routine s) (d : Reg) (i a : Src)
    (hn : ((s.core c).val i).toNat < (if routine then 4096 else 3840)) (hend : ((s.core c).val a).toNat + 128 ≤ 2 ^ 21) :
    exec (.descSet c routine d i a) s₀ = .next ((s.issued c routine).modCore c fun k =>
      k.installed d ((s.core c).val i).toNat (s.readNat (c.val * 2 ^ 21 + ((s.core c).val a).toNat) 128)) := by
  have hcheck : need (decide (((s.core c).val i).toNat < (if routine then 4096 else 3840))) fHandleReserved ++
      sramCheck ((s.core c).val a).toNat 128 1 = [] := by
    rw [sramCheck_ok hend (Nat.mod_one _), decide_eq_true hn]; rfl
  show execDescSet c routine d i a s₀ = _
  rw [execDescSet, hf.same.val, hf.same.val, State.control_next hf.1 hf.2 hcheck]
  dsimp only
  rw [State.readNat_issued]
  rfl

/-- Settles O6: the core after `desc.set` is `Core.installed`. -/
theorem descSetInstallsTheEntry : Obligations.DescSetInstallsTheEntry := by
  rintro s₀ s c routine d i a n o hf rfl rfl hn hend
  refine ⟨_, _, exec_descSet hf d i a hn hend, (Issued.issued s routine c).modCore _, rfl, ?_⟩
  rw [State.core_modCore_same, State.core_issued]
  obtain ⟨hold, hdesc, hgens⟩ := Core.installed_tables ((s.core c).moved routine) d ((s.core c).val i).toNat
    (s.readNat (c.val * 2 ^ 21 + ((s.core c).val a).toNat) 128)
  refine ⟨hold ▸ RegWritten.setReg (s.core c) routine d _, fun m => ?_, fun m hm => ?_, fun j hj => ?_⟩
  · rw [hgens]; exact Sparse.get_set
  · rw [hdesc]; exact Sparse.get_set_other hm
  · rw [hdesc, Sparse.get_set_same]; exact s.readNat_byte _ 128 j hj

/-! ### Flags (R83, R88) -/

/-- The low 32 bits of an operand. -/
theorem Core.ofNat_val32 (k : Core) (x : Src) : BitVec.ofNat 32 (k.val32 x) = (k.val x).setWidth 32 := by
  apply BitVec.eq_of_toNat_eq
  rw [Core.val32, BitVec.toNat_ofNat, BitVec.toNat_setWidth, Nat.mod_mod]

/-- A flag of a core written, its status byte and its excess nibble cleared (R88). -/
def Core.flagSet (k : Core) (f : Flag) (v : BitVec 32) : Core :=
  { k.setFlag f v with fstat := Sparse.set 0 k.fstat f.val 0, fexc := Sparse.set 0 k.fexc f.val 0 }

/-- A core that issues is held by no wait, so that a flag it writes retests none. -/
theorem State.writeFlag_free {u : State} (f : Flag) (v : BitVec 32) (h : (u.core c).hold = .none) :
    u.writeFlag c f v = u.modCore c (·.flagSet f v) :=
  State.retest_free _ (by rw [State.core_modCore_same]; exact h)

theorem Core.mark_nil (k : Core) (f : Flag) : k.mark f [] = k := rfl

theorem State.addFlag_free {u : State} (f : Flag) (n : BitVec 32) (h : (u.core c).hold = .none) :
    u.addFlag c f n [] = u.modCore c fun k => k.setFlag f (k.flag f + n) :=
  State.retest_free _ (by rw [State.core_modCore_same, Core.mark_nil]; exact h)

theorem Fetched.hold_issued (hf : Fetched s₀ c routine s) : ((s.issued c routine).core c).hold = .none := by
  rw [State.core_issued, Core.hold_moved, hf.hold]

theorem exec_flagSet (hf : Fetched s₀ c routine s) {f : Flag} (v : Src) (hok : routine = true ∨ f.val < 240) :
    exec (.flagSet c routine f v) s₀ = .next ((s.issued c routine).modCore c (·.flagSet f (((s.core c).val v).setWidth 32))) := by
  show execFlagSet c routine f v s₀ = _
  rw [execFlagSet, State.control_next hf.1 hf.2 (flagCheck_ok hok), State.writeFlag_free _ _ hf.hold_issued, Core.ofNat_val32,
    State.core_issued, Core.val_moved]

theorem exec_flagAdd (hf : Fetched s₀ c routine s) {f : Flag} (v : Src) (hok : routine = true ∨ f.val < 240) :
    exec (.flagAdd c routine f v) s₀ =
      .next ((s.issued c routine).modCore c fun k => k.setFlag f (k.flag f + ((s.core c).val v).setWidth 32)) := by
  show execFlagAdd c routine f v s₀ = _
  rw [execFlagAdd, State.control_next hf.1 hf.2 (flagCheck_ok hok), State.addFlag_free _ _ hf.hold_issued, Core.ofNat_val32,
    State.core_issued, Core.val_moved]

theorem Core.flag_setFlag (k : Core) (f g : Flag) (v : BitVec 32) : (k.setFlag f v).flag g = if g = f then v else k.flag g := by
  split
  · subst g; exact k.flag_setFlag_same f v
  · exact k.flag_setFlag_other v ‹_›

/-- Settles O7: no wait is retested, since the core that issues is in none. -/
theorem flagWritesChangeOneFlag : Obligations.FlagWritesChangeOneFlag := by
  intro s₀ s c routine f v hf hok
  constructor
  · refine ⟨_, exec_flagSet hf v hok, (Issued.issued s routine c).modCore _, ?_⟩
    rw [State.core_modCore_same, State.core_issued]
    refine ⟨rfl, fun g => Core.flag_setFlag _ f g _, fun g => ?_, fun g => ?_⟩
    · exact Sparse.get_set (d := 0) (m := (s.core c).fstat) (k := f.val) (v := 0)
    · exact Sparse.get_set (d := 0) (m := (s.core c).fexc) (k := f.val) (v := 0)
  · refine ⟨_, exec_flagAdd hf v hok, (Issued.issued s routine c).modCore _, ?_⟩
    rw [State.core_modCore_same, State.core_issued]
    exact ⟨rfl, fun g => Core.flag_setFlag _ f g _⟩

/-! ### Waits (R87, R92, R109) -/

/-- CORE_STATE of a core that issued and has not ended follows what holds it. -/
theorem State.settle_issued (hf : Fetched s₀ c routine s) {t : State} (hs : t.coreState c = s.coreState c)
    (he : (t.core c).ended = false) : t.settle c = t.setCoreState c (t.core c).holdState := by
  refine State.settle_open ?_ he
  rw [hs, hf.coreState]
  cases routine <;> decide

theorem State.coreState_issued (s : State) (c : CoreId) (routine : Bool) : (s.issued c routine).coreState c = s.coreState c :=
  s.obj_issued_other c routine (by simp [Obj.core_CORE_STATE, Obj.core_OPS_ISSUED, objKey])

/-- An operation that leaves a core that has not ended held, its CORE_STATE after what holds it. -/
theorem Issued.held (hf : Fetched s₀ c routine s) (he : (s.core c).ended = false) {k : Core} (hk : k.ended = (s.core c).ended) :
    (((s.issued c routine).setCore c k).settle c) = ((s.issued c routine).setCore c k).setCoreState c k.holdState ∧
    Issued c [Obj.core_CORE_STATE c] s (((s.issued c routine).setCore c k).settle c) ∧
    (((s.issued c routine).setCore c k).settle c).obj (Obj.core_CORE_STATE c) = k.holdState ∧
    (((s.issued c routine).setCore c k).settle c).core c = k := by
  have hset : (((s.issued c routine).setCore c k).settle c) = ((s.issued c routine).setCore c k).setCoreState c k.holdState := by
    rw [State.settle_issued (t := (s.issued c routine).setCore c k) hf (s.coreState_issued c routine)
      (by rw [State.core_setCore_same, hk, he]), State.core_setCore_same]
  refine ⟨hset, ?_, ?_, by rw [State.core_settle, State.core_setCore_same]⟩
  · rw [hset]
    exact (((Issued.issued s routine c).setCore k).mono (by simp)).setObj _ (List.mem_singleton.2 rfl)
      (by simp [Obj.core_CORE_STATE, Obj.core_OPS_ISSUED, objKey])
  · rw [hset]; exact State.obj_setObj_same _ _ _

/-- The count that a fault records is that of the operations issued before. -/
theorem State.opsIssued_issued (s : State) (c : CoreId) (routine : Bool) :
    (s.issued c routine).opsIssued c - 1 + 1 = min (2 ^ 64 - 1) (s.obj (Obj.core_OPS_ISSUED c) + 1) := by
  rw [State.opsIssued, State.obj_issued_same]; omega

/-- What a `flag.wait` does once it is counted (R87). -/
def State.flagWaited (u : State) (c : CoreId) (f : Flag) (cond : WaitCond) (v timeout : Src) : State :=
  if waitHolds cond ((u.core c).flag f) (BitVec.ofNat 32 ((u.core c).val32 v)) then u
  else if (u.core c).val32 timeout = 0 then u.waitFault c f ((u.core c).val32 v) (u.opsIssued c - 1)
  else (u.setCore c { u.core c with
    hold := .flagWait f cond ((u.core c).val32 v) (u.now + (u.core c).val32 timeout * 1024) (u.opsIssued c - 1) }).settle c

theorem exec_flagWait (hf : Fetched s₀ c routine s) {f : Flag} (cond : WaitCond) (v timeout : Src) (hok : routine = true ∨ f.val < 240) :
    exec (.flagWait c routine f cond v timeout) s₀ = .next ((s.issued c routine).flagWaited c f cond v timeout) := by
  show execFlagWait c routine f cond v timeout s₀ = _
  rw [execFlagWait, State.control_next hf.1 hf.2 (flagCheck_ok hok)]
  rfl

theorem exec_waitExpired {f : Flag} {cond : WaitCond} {v deadline seq : Nat} (h : (s.core c).hold = .flagWait f cond v deadline seq)
    (hd : deadline < 2 ^ 64) : exec (.waitExpired c) s = .next ((s.advanceTo deadline).waitFault c f v seq) := by
  show execWaitExpired c s = _
  rw [execWaitExpired, h]
  dsimp only
  rw [if_pos (by rw [State.now_advanceTo s hd]; exact le_max_right _ _)]

/-- Settles O9: the three ways of `State.flagWaited`, and the deadline of the wait it leaves. -/
theorem flagWaitHoldsUntilItsDeadline : Obligations.FlagWaitHoldsUntilItsDeadline := by
  intro s₀ s c
  constructor
  · intro routine f cond v timeout hf he hok
    rw [exec_flagWait hf cond v timeout hok, State.flagWaited, State.core_issued, Core.flag_moved, Core.val32_moved, Core.val32_moved,
      Core.ofNat_val32]
    refine ⟨fun h => ?_, fun h ht => ?_, fun h ht => ?_⟩
    · rw [if_pos h]
      exact ⟨_, rfl, Issued.issued s routine c, s.core_issued c routine⟩
    · rw [if_neg (by rw [h]; decide), if_pos ht]
      refine ⟨_, _, Issued.issued s routine c, s.core_issued c routine, s.opsIssued_issued c routine, ?_⟩
      rw [State.waitFault, State.core_issued, Core.flag_moved]; rfl
    · rw [if_neg (by rw [h]; decide), if_neg ht]
      obtain ⟨-, hi, hstate, hcore⟩ := Issued.held hf he (k := { (s.core c).moved routine with
        hold := .flagWait f cond ((s.core c).val32 v) ((s.issued c routine).now + (s.core c).val32 timeout * 1024)
          ((s.issued c routine).opsIssued c - 1) }) rfl
      exact ⟨_, rfl, hi, hstate, _, s.opsIssued_issued c routine, by rw [hcore, State.now_issued]⟩
  · intro f cond v deadline seq h hd
    rw [exec_waitExpired h hd, State.waitFault, State.core_advanceTo]; rfl

/-! ### `time.wait` (R92) -/

/-- What a `time.wait` does once it is counted. -/
def State.timeWaited (u : State) (c : CoreId) (T : Nat) : State :=
  if u.now < T * 1024 then (u.setCore c { u.core c with hold := .timeWait T }).settle c
  else if T * 1024 < u.now then u.bump (Obj.core_LATE_SLOT c) else u

theorem OnlyCore.refl (c : Nat) (ks : List Nat) (s : State) : OnlyCore c ks s s := ⟨rfl, fun _ _ => rfl, fun _ _ => rfl⟩

theorem State.countCore_late (u : State) (c : CoreId) : u.countCore c 0x0F 1 = u.bump (Obj.core_LATE_SLOT c) := rfl

theorem exec_timeWait (hf : Fetched s₀ c false s) (x : Src) :
    exec (.timeWait c x) s₀ = .next ((s.issued c false).timeWaited c ((s.core c).val x).toNat) := by
  show execTimeWait c x s₀ = _
  rw [execTimeWait, State.control_next hf.1 hf.2 rfl]
  dsimp only
  rw [← Core.val_moved (s.core c) false x, ← State.core_issued]
  rfl

theorem exec_timeWaitRelease {T : Nat} (h : (s.core c).hold = .timeWait T) (hT : T * 1024 < 2 ^ 64) :
    exec (.timeWaitRelease c) s =
      .next (((s.advanceTo (T * 1024)).modCore c (fun k => { k with hold := .none })).settle c) := by
  show execTimeWaitRelease c s = _
  rw [execTimeWaitRelease, h]
  dsimp only
  rw [if_pos (by rw [State.now_advanceTo s hT]; exact le_max_right _ _)]

theorem State.advanceTo_only (s : State) (t : Nat) : { s.advanceTo t with ft := s.ft } = s := by
  unfold State.advanceTo; split <;> rfl

/-- Settles O10: the three ways of `State.timeWaited`, and the release of the hold it leaves. -/
theorem timeWaitHoldsUntilItsSlot : Obligations.TimeWaitHoldsUntilItsSlot := by
  intro s₀ s c
  constructor
  · rintro x T rfl hf he
    rw [exec_timeWait hf x, State.timeWaited, State.now_issued]
    refine ⟨fun h => ?_, fun h => ?_, fun h => ?_⟩
    · rw [if_pos h, State.core_issued]
      obtain ⟨-, hi, hstate, hcore⟩ := Issued.held hf he (k := { (s.core c).moved false with hold := .timeWait ((s.core c).val x).toNat }) rfl
      exact ⟨_, rfl, hi, hstate, hcore⟩
    · rw [if_neg (by omega), if_pos h]
      have hne : Obj.core_LATE_SLOT c ≠ Obj.core_OPS_ISSUED c := by simp [Obj.core_LATE_SLOT, Obj.core_OPS_ISSUED, objKey]
      refine ⟨_, rfl, ⟨((Issued.issued s false c).mono (by simp)).1.addObj 1 (by simp), ?_⟩, ?_, by rw [State.core_bump, State.core_issued]⟩
      · rw [State.obj_bump_other _ hne.symm]; exact s.obj_issued_same false c
      · rw [State.obj_bump_same, s.obj_issued_other c false hne, objBits_LATE_SLOT, satN_eq_min]
    · rw [if_neg (by omega), if_neg (by omega)]
      exact ⟨_, rfl, Issued.issued s false c, s.core_issued c false⟩
  · intro T hhold hT hstate hlib hended
    have hopen : (((s.advanceTo (T * 1024)).modCore c (fun k => { k with hold := .none })).settle c) =
        ((s.advanceTo (T * 1024)).modCore c (fun k => { k with hold := .none })).setCoreState c 1 := by
      have hst : ((s.advanceTo (T * 1024)).modCore c (fun k => { k with hold := .none })).coreState c = 2 :=
        (State.obj_advanceTo _ _ _).trans hstate
      rw [State.settle_open (by rw [hst]; decide) (by rw [State.core_modCore_same, State.core_advanceTo]; exact hended),
        State.core_modCore_same, State.core_advanceTo]
      simp [Core.holdState, hlib]
    rw [exec_timeWaitRelease hhold hT, hopen]
    have honly := ((OnlyCore.refl c [Obj.core_CORE_STATE c] s).modCore (fun k => { k with hold := .none })).setObj 1
      (List.mem_singleton.2 rfl)
    refine ⟨_, rfl, ?_, ?_, ?_, State.obj_setObj_same _ _ _⟩
    · nth_rewrite 2 [← s.advanceTo_only (T * 1024)] at honly; exact honly
    · exact State.now_advanceTo s hT
    · rw [State.setCoreState, State.core_setObj, State.core_modCore_same, State.core_advanceTo]

end

end Sys2Proof.Machine
end

section
/-! PROOF. Control flow (R90 to R93), the fetch of an operation and the faults it can have at issue (R103, R105 to R108), and what a
core fault does (R106, R107). -/

namespace Sys2Proof.Machine

section
variable {s₀ s : State} {c : CoreId} {routine : Bool}

/-! ### Control flow (R90, R91) -/

theorem Core.ne_coreState_OPS_ISSUED (c : Nat) : Obj.core_CORE_STATE c ≠ Obj.core_OPS_ISSUED c := by
  simp [Obj.core_CORE_STATE, Obj.core_OPS_ISSUED, objKey]

/-- An issued operation that then replaces its core. -/
theorem Issued.setCore_issued (s : State) (c : CoreId) (routine : Bool) (k : Core) :
    Issued c [] s ((s.issued c routine).setCore c k) ∧ ((s.issued c routine).setCore c k).core c = k :=
  ⟨(Issued.issued s routine c).setCore k, State.core_setCore_same _ _ _⟩

theorem Issued.issued_core (s : State) (c : CoreId) (routine : Bool) :
    Issued c [] s (s.issued c routine) ∧ (s.issued c routine).core c = (s.core c).moved routine :=
  ⟨Issued.issued s routine c, s.core_issued c routine⟩

theorem exec_skipIf (hf : Fetched s₀ c routine s) {f : Flag} (cond : SkipCond) (v : Src) {n : Fin 256} {room : Nat} (span : Nat)
    (hok : routine = true ∨ f.val < 240) (hroom : n.val ≤ room) :
    exec (.skipIf c routine f cond v n room span) s₀ =
      .next (if skipHolds cond ((s.core c).flag f) (((s.core c).val v).setWidth 32) && !routine
        then (s.issued c routine).setCore c { (s.core c).moved routine with pos := ((s.core c).moved routine).pos + span }
        else s.issued c routine) := by
  have hcheck : flagCheck routine f ++ need (decide (n.val ≤ room)) fSkipRange = [] := by
    rw [flagCheck_ok hok, decide_eq_true hroom]; rfl
  show execSkipIf c routine f cond v n room span s₀ = _
  rw [execSkipIf, State.control_next hf.1 hf.2 hcheck]
  dsimp only
  rw [State.core_issued, Core.val32_moved, Core.ofNat_val32, Core.flag_moved]

theorem exec_loopBegin (hf : Fetched s₀ c routine s) (n : Src) (body : Nat) (h : ((s.core c).loopStack routine).length < 4) :
    exec (.loopBegin c routine n body) s₀ = .next ((s.issued c routine).setCore c
      (if (s.core c).val32 n = 0 then ((s.core c).moved routine).setPos routine (((s.core c).moved routine).pos + body)
        else ((s.core c).moved routine).setLoops routine
          (⟨((s.core c).moved routine).pos, (s.core c).val32 n, 0⟩ :: (s.core c).loopStack routine))) := by
  show execLoopBegin c routine n body s₀ = _
  rw [execLoopBegin, hf.same.loopStack, decide_eq_true h, State.control_next (faults := need true fLoopDepth) hf.1 hf.2 rfl]
  dsimp only
  rw [State.core_issued, Core.val32_moved, Core.loopStack_moved]
  split <;> rfl

/-- A core after `loop.end` with `fr` its innermost open loop (R90). -/
def Core.loopEnded (k : Core) (routine : Bool) (fr : LoopFrame) (rest : List LoopFrame) : Core :=
  if fr.iter + 1 < fr.count then (k.setLoops routine ({ fr with iter := fr.iter + 1 } :: rest)).setPos routine fr.body
  else k.setLoops routine rest

theorem exec_loopEnd (hf : Fetched s₀ c routine s) {fr : LoopFrame} {rest : List LoopFrame}
    (h : (s.core c).loopStack routine = fr :: rest) :
    exec (.loopEnd c routine) s₀ = .next ((s.issued c routine).setCore c (((s.core c).moved routine).loopEnded routine fr rest)) := by
  show execLoopEnd c routine s₀ = _
  rw [execLoopEnd, hf.same.loopStack, h]
  dsimp only
  rw [State.control_next hf.1 hf.2 rfl, State.core_issued, Core.loopStack_moved, h]
  dsimp only
  unfold Core.loopEnded
  split <;> rfl

/-- CORE_STATE of a core that issued and has ended is ENDED as soon as its queues are empty (R93). -/
theorem exec_coreEnd (hf : Fetched s₀ c false s) :
    exec (.coreEnd c) s₀ =
      .next (if (s.core c).idle
        then ((s.issued c false).modCore c (fun k => { k with stopped := true, ended := true })).setCoreState c 5
        else (s.issued c false).modCore c (fun k => { k with stopped := true, ended := true })) := by
  have hstate : ((s.issued c false).modCore c (fun k => { k with stopped := true, ended := true })).coreState c = 1 :=
    (s.coreState_issued c false).trans hf.coreState
  show execCoreEnd c s₀ = _
  rw [execCoreEnd, State.control_next hf.1 hf.2 rfl, State.settle, hstate, State.core_modCore_same, State.core_issued]
  rfl

/-- Settles O11: each operation's next state is known exactly. -/
theorem controlFlowMovesThePosition : Obligations.ControlFlowMovesThePosition := by
  intro s₀ s c routine hf
  refine ⟨fun f cond v n room span hok hroom => ?_, fun n body h => ?_, fun fr rest h => ?_, ?_⟩
  · rw [exec_skipIf hf cond v span hok hroom]
    cases routine
    · by_cases h : skipHolds cond ((s.core c).flag f) (((s.core c).val v).setWidth 32) = true
      · rw [if_pos (by rw [h]; rfl), if_pos ⟨rfl, h⟩]
        exact ⟨_, rfl, Issued.setCore_issued s c false _⟩
      · rw [if_neg (by simpa using h), if_neg (fun e => h e.2)]
        exact ⟨_, rfl, Issued.issued_core s c false⟩
    · rw [if_neg (by simp), if_neg (fun e => by cases e.1)]
      exact ⟨_, rfl, Issued.issued_core s c true⟩
  · rw [exec_loopBegin hf n body h]
    refine ⟨_, rfl, (Issued.issued s routine c).setCore _, ?_⟩
    rw [State.core_setCore_same]
    cases routine <;> rfl
  · rw [exec_loopEnd hf h]
    exact ⟨_, rfl, Issued.setCore_issued s c routine _⟩
  · rintro rfl
    rw [exec_coreEnd hf]
    have hi := ((Issued.issued s false c).modCore (fun k => { k with stopped := true, ended := true })).mono
      (ls := [Obj.core_CORE_STATE c]) (by simp)
    have hcore : ((s.issued c false).modCore c (fun k => { k with stopped := true, ended := true })).core c =
        { (s.core c).moved false with stopped := true, ended := true } := by rw [State.core_modCore_same, State.core_issued]
    split
    · exact ⟨_, rfl, hi.setObj 5 (by simp) (Core.ne_coreState_OPS_ISSUED c), hcore, State.obj_setObj_same _ _ _⟩
    · exact ⟨_, rfl, hi, hcore, (s.coreState_issued c false).trans hf.coreState⟩

/-! ### The instruction cache (R103) -/

/-- A line in the cache is found and becomes the most recently used. -/
theorem State.fetchLine_hit {l : Nat} (h : l ∈ (s.core c).icache) :
    s.fetchLine c l = (s.modCore c (fun k => { k with icache := useLine k.icache l }), none) := by
  rw [State.fetchLine, if_pos (List.contains_iff_mem.2 h)]

/-- A line that is not is filled and counted. -/
theorem State.fetchLine_fill {l : Nat} (h : l ∉ (s.core c).icache) (hb : s.firstBad false (l * 256) 256 = none) :
    s.fetchLine c l = ((s.modCore c (fun k => { k with icache := useLine k.icache l })).bump (Obj.core_ICACHE_MISS c), none) := by
  rw [State.fetchLine, if_neg (by simpa using h), hb]; rfl

theorem State.fetchLine_bad {l k : Nat} (h : l ∉ (s.core c).icache) (hb : s.firstBad false (l * 256) 256 = some k) :
    s.fetchLine c l = (s, some k) := by
  rw [State.fetchLine, if_neg (by simpa using h), hb]

theorem useLine_hit {tags : List Nat} {l : Nat} (h : l ∈ tags) : useLine tags l = l :: tags.erase l := by
  rw [useLine, if_pos (List.contains_iff_mem.2 h)]

/-- A line joins a set with room. -/
theorem useLine_room {tags : List Nat} {l : Nat} (h : l ∉ tags) (hs : (tags.filter (fun x => decide (x % 64 = l % 64))).length < 4) :
    useLine tags l = l :: tags := by
  rw [useLine, if_neg (by simpa using h)]
  dsimp only
  rw [if_pos hs]

/-- A line in a full set takes the place of the least recently used of it. -/
theorem useLine_full {tags rest : List Nat} {l old : Nat} (h : l ∉ tags)
    (hs : tags.filter (fun x => decide (x % 64 = l % 64)) = rest ++ [old]) (hr : 3 ≤ rest.length) : useLine tags l = l :: tags.erase old := by
  rw [useLine, if_neg (by simpa using h), hs]
  dsimp only
  rw [if_neg (by simp; omega), List.getLastD_eq_getLast?, List.getLast?_concat]
  rfl

/-- A program's operation fetches its lines in order, up to the first bad one. -/
theorem State.fetch_program (s : State) (c : Nat) :
    s.fetch c false = (s.codeLines c).foldl (fun x l => if x.2 = none then x.1.fetchLine c l else x) (s, none) := by
  have hstep : (fun (x : State × Option Nat) l => match x.2 with | some _ => x | none => x.1.fetchLine c l) =
      fun x l => if x.2 = none then x.1.fetchLine c l else x := by
    funext x l
    obtain ⟨u, o⟩ := x
    cases o <;> rfl
  exact congrArg (fun g => (s.codeLines c).foldl g (s, none)) hstep

/-! ### Faults at issue (R106, R108) -/

theorem lowest_singleton (a : Nat) : lowest [a] = some a := rfl

/-- The fault of a failed check, with the count of the operations issued before. -/
theorem Fetched.control_fault (hf : Fetched s₀ c routine s) {faults : List Nat} {eff : State → State} {code : Nat}
    (h : lowest faults = some code) :
    Host.Outcome.next (s₀.control c routine faults eff) =
      (.next (s.coreFaultWith c 0 code (s.obj (Obj.core_OPS_ISSUED c)) none 0) : Out) :=
  congrArg _ (State.control_fault hf.1 hf.2 h)

theorem sramCheck_misaligned {o n al : Nat} (h : o + n ≤ 2 ^ 21) (ha : o % al ≠ 0) : sramCheck o n al = [fAddrAlign] := by
  rw [sramCheck, decide_eq_true h, decide_eq_false ha]; rfl

theorem lowest_sramCheck_beyond {o n al : Nat} (h : 2 ^ 21 < o + n) : lowest (sramCheck o n al) = some fAddrRange := by
  rw [sramCheck, decide_eq_false (by omega)]
  by_cases ha : o % al = 0
  · rw [decide_eq_true ha]; rfl
  · rw [decide_eq_false ha]; rfl

/-- A handle of another generation fails before anything else of it does (R77, R108). -/
theorem Core.handleCheck_stale (k : Core) (routine : Bool) {n : Nat} (hn : n < 2 ^ 16)
    (hg : (Sparse.get 0 k.gens (n % 4096)).toNat ≠ n / 4096) : lowest (k.handleCheck routine n) = some fHandleStale := by
  have h16 : n / 4096 % 16 = n / 4096 := Nat.mod_eq_of_lt (by omega)
  rw [Core.handleCheck, h16, decide_eq_false hg]
  cases routine || decide (n % 4096 < 3840) <;> rfl

/-- What an operation's commands answer when its fill met an uncorrectable error (R103, R167). -/
theorem exec_fetch_fault {t : State} {k : Nat} {d : Reg} {v : BitVec 64} {y : Src} {x : Instr} (h : s₀.issues c false = true)
    (hk : s₀.fetch c false = (t, some k))
    (hx : x ∈ [Instr.scLi c d v, .scAdd c d y y, .coreEnd c, .illegalOp c, .jobStart c]) :
    exec x s₀ = .next ((t.memUncorrected k).coreFaultWith c 0 0x31 (t.obj (Obj.core_OPS_ISSUED c)) none 0) := by
  have control (faults : List Nat) (eff : State → State) : Host.Outcome.next (s₀.control c false faults eff) =
      (.next ((t.memUncorrected k).coreFaultWith c 0 0x31 (t.obj (Obj.core_OPS_ISSUED c)) none 0) : Out) :=
    congrArg _ (State.control_fetch_fault h hk)
  simp only [List.mem_cons, List.not_mem_nil, or_false] at hx
  obtain rfl | rfl | rfl | rfl | rfl := hx <;> exact control _ _

/-- Settles O12: a fetch is `State.fetchLine` line by line, and each fault that of the lowest failed check. -/
theorem operationIsFetchedThroughTheCacheOrFaults : Obligations.OperationIsFetchedThroughTheCacheOrFaults := by
  intro s₀ c
  refine ⟨fun routine => State.fetch_frame routine, rfl, s₀.fetch_program c, fun l => ⟨fun h => ?_, ?_, ?_⟩, ?_, ?_⟩
  · refine ⟨_, State.fetchLine_hit h, fun _ => rfl, ?_⟩
    rw [State.core_modCore_same]; exact useLine_hit h
  · rintro _ h rfl hb
    refine ⟨_, State.fetchLine_fill h hb, ?_, fun hs => ?_, fun old rest hs hr => ?_⟩
    · rw [Counted, State.obj_bump_same, satN_eq_min]; rfl
    · rw [State.core_bump, State.core_modCore_same]; exact useLine_room h hs
    · rw [State.core_bump, State.core_modCore_same]; exact useLine_full h hs hr
  · exact fun k h hb => State.fetchLine_bad h hb
  · intro x d v y h hx
    rcases hk : s₀.fetch c false with ⟨t, _ | k⟩
    · exact .inl ⟨t, rfl⟩
    · exact .inr ⟨t, k, rfl, exec_fetch_fault h hk hx⟩
  · intro s hf
    refine ⟨hf.control_fault rfl, fun id hid => ?_, ?_, fun d v a h => ?_, fun f v cond timeout d h => ?_, fun d i a hn hend => ?_, ?_,
      fun n body h => ?_, fun f cond v n room span hflag hroom => ?_⟩
    · show execLibUnknown c id s₀ = _
      rw [execLibUnknown, if_neg (by simpa [libIds] using hid)]
      exact hf.control_fault rfl
    · rintro d v a o rfl hend halign
      have hlow := congrArg lowest (sramCheck_misaligned hend halign)
      rw [← hf.same.val] at hlow
      exact ⟨hf.control_fault hlow, hf.control_fault hlow⟩
    · have hlow := lowest_sramCheck_beyond (al := 8) h
      rw [← hf.same.val] at hlow
      exact ⟨hf.control_fault hlow, hf.control_fault hlow⟩
    · have hlow : lowest (flagCheck false f) = some 0x12 := by rw [flagCheck_reserved h]; rfl
      exact ⟨hf.control_fault hlow, hf.control_fault hlow, hf.control_fault hlow, hf.control_fault hlow⟩
    · rw [← hf.same.val] at hn hend
      refine hf.control_fault ?_
      rw [sramCheck_ok hend (Nat.mod_one _), decide_eq_false (by simpa using hn)]; rfl
    · rintro h a n rfl hg hend
      show execDescGet c false h a s₀ = _
      rw [execDescGet, hf.same.val, hf.same.val, hf.same.handleCheck]
      refine hf.control_fault ?_
      rw [sramCheck_ok hend (Nat.mod_one _), List.append_nil]
      exact Core.handleCheck_stale _ _ (Nat.mod_lt _ (by decide)) hg
    · show execLoopBegin c false n body s₀ = _
      have hdeep : ¬ ((s.core c).loopStack false).length < 4 := Nat.not_lt.2 h
      rw [execLoopBegin, hf.same.loopStack, decide_eq_false hdeep]
      exact hf.control_fault rfl
    · refine hf.control_fault ?_
      rw [flagCheck_ok (.inr hflag), decide_eq_false (Nat.not_le.2 hroom)]; rfl

end

end Sys2Proof.Machine
end

section
/-! PROOF. What a core fault records, stops and raises (R106, R107, R110). -/

namespace Sys2Proof.Machine

section
variable (s : State) (c : CoreId)

/-- The objects that a core fault writes (R106, R107, R110). -/
def faultObjs (c : Nat) : List Nat :=
  [Obj.core_CORE_STATE c, Obj.core_FAULT_CODE c, Obj.core_FAULT_QUEUE c, Obj.core_FAULT_FLAG c, Obj.core_FAULT_WANT c,
    Obj.core_FAULT_SEEN c, Obj.core_FAULT_TIME c, Obj.core_FAULT_OPSEQ c, Obj.core_NESTED_FAULTS c, Obj.core_QUEUE_FILL c]

theorem coreObj_ne (c : Nat) {i j : Nat} (h : i ≠ j) : objKey (0x6800 + c) i ≠ objKey (0x6800 + c) j := by
  unfold objKey; omega

/-- The first fault of a core recorded in its fault objects (R107). -/
def State.recordFault (queue code seq : Nat) (w : Nat × Nat × Nat) : State :=
  ((((((s.setObj (Obj.core_FAULT_CODE c) code).setObj (Obj.core_FAULT_QUEUE c) queue).setObj (Obj.core_FAULT_FLAG c) w.1).setObj
    (Obj.core_FAULT_WANT c) w.2.1).setObj (Obj.core_FAULT_SEEN c) w.2.2).setObj (Obj.core_FAULT_TIME c) s.now).setObj
    (Obj.core_FAULT_OPSEQ c) seq

/-- A fault noted: the first is recorded, any other is counted (R107). -/
def State.noteFault (queue code seq : Nat) (w : Nat × Nat × Nat) : State :=
  if s.obj (Obj.core_FAULT_CODE c) = 0 then s.recordFault c queue code seq w else s.bump (Obj.core_NESTED_FAULTS c)

/-- The core's issue stopped, its queues without what had not started, CORE_STATE FAULTED (R106). -/
def State.stopFaulted : State := ((s.modCore c Core.halt).updFill c).setCoreState c 6

/-- A core fault before it is raised. -/
def State.faulted (queue code seq : Nat) (w : Option (Nat × Nat × Nat)) : State :=
  (s.noteFault c queue code seq (w.getD (0xFFFF, 0, 0))).stopFaulted c

variable {s c}

theorem OnlyCore.recordFault (queue code seq : Nat) (w : Nat × Nat × Nat) :
    OnlyCore c (faultObjs c) s (s.recordFault c queue code seq w) :=
  (((((((OnlyCore.refl c _ s).setObj _ (by simp [faultObjs])).setObj _ (by simp [faultObjs])).setObj _ (by simp [faultObjs])).setObj _
    (by simp [faultObjs])).setObj _ (by simp [faultObjs])).setObj _ (by simp [faultObjs])).setObj _ (by simp [faultObjs])

theorem OnlyCore.noteFault (queue code seq : Nat) (w : Nat × Nat × Nat) :
    OnlyCore c (faultObjs c) s (s.noteFault c queue code seq w) := by
  unfold State.noteFault
  split
  · exact OnlyCore.recordFault queue code seq w
  · exact (OnlyCore.refl c _ s).addObj 1 (by simp [faultObjs])

theorem OnlyCore.faulted (queue code seq : Nat) (w : Option (Nat × Nat × Nat)) :
    OnlyCore c (faultObjs c) s (s.faulted c queue code seq w) :=
  (((OnlyCore.noteFault queue code seq _).modCore _).setObj _ (by simp [faultObjs])).setObj _ (by simp [faultObjs])

/-- The core after the fault is halted. -/
theorem State.core_faulted (queue code seq : Nat) (w : Option (Nat × Nat × Nat)) :
    (s.faulted c queue code seq w).core c = (s.core c).halt := by
  have hcore (x : Nat × Nat × Nat) : (s.noteFault c queue code seq x).core c = s.core c := by
    unfold State.noteFault State.recordFault
    split <;> simp only [State.core_setObj, State.core_bump]
  rw [State.faulted, State.stopFaulted, State.setCoreState, State.core_setObj, State.core_updFill, State.core_modCore_same, hcore]

/-- Halting sets CORE_STATE and QUEUE_FILL alone. -/
theorem State.obj_stopFaulted {k : Nat} (h : k ≠ Obj.core_CORE_STATE c) (h' : k ≠ Obj.core_QUEUE_FILL c) :
    (s.stopFaulted c).obj k = s.obj k := by
  rw [State.stopFaulted, State.setCoreState, State.obj_setObj_other _ _ h, State.updFill, State.obj_setObj_other _ _ h', State.obj_modCore]

theorem State.fill_stopFaulted : (s.stopFaulted c).obj (Obj.core_QUEUE_FILL c) = (s.core c).halt.fill := by
  have hne : Obj.core_QUEUE_FILL c ≠ Obj.core_CORE_STATE c := coreObj_ne c (by decide)
  rw [State.stopFaulted, State.setCoreState, State.obj_setObj_other _ _ hne, State.updFill, State.obj_setObj_same, State.core_modCore_same]

/-- What the record of a first fault reads. -/
theorem State.obj_recordFault (queue code seq : Nat) (w : Nat × Nat × Nat) :
    (s.recordFault c queue code seq w).obj (Obj.core_FAULT_CODE c) = code ∧
    (s.recordFault c queue code seq w).obj (Obj.core_FAULT_QUEUE c) = queue ∧
    (s.recordFault c queue code seq w).obj (Obj.core_FAULT_FLAG c) = w.1 ∧
    (s.recordFault c queue code seq w).obj (Obj.core_FAULT_WANT c) = w.2.1 ∧
    (s.recordFault c queue code seq w).obj (Obj.core_FAULT_SEEN c) = w.2.2 ∧
    (s.recordFault c queue code seq w).obj (Obj.core_FAULT_TIME c) = s.now ∧
    (s.recordFault c queue code seq w).obj (Obj.core_FAULT_OPSEQ c) = seq ∧
    (s.recordFault c queue code seq w).obj (Obj.core_NESTED_FAULTS c) = s.obj (Obj.core_NESTED_FAULTS c) := by
  simp only [State.recordFault, State.obj_setObj, Obj.core_FAULT_CODE, Obj.core_FAULT_QUEUE, Obj.core_FAULT_FLAG, Obj.core_FAULT_WANT,
    Obj.core_FAULT_SEEN, Obj.core_FAULT_TIME, Obj.core_FAULT_OPSEQ, Obj.core_NESTED_FAULTS, objKey]
  simp

theorem State.dieParcel_lt {k n : Nat} (h : s.dieParcel k = some n) : n < 4 := by
  have := List.mem_of_find?_eq_some h
  simp only [List.mem_cons, List.not_mem_nil, or_false] at this
  omega

theorem State.parcel_lt_of_coreParcel {b n : Nat} (h : s.coreParcel b = some n) : n < 4 := by
  unfold State.coreParcel at h
  split at h
  · exact State.dieParcel_lt h
  · cases h

/-- A core fault is raised as an error of the core's parcel, if it has one (R106, R377). -/
theorem State.coreFaultWith_eq (queue code seq : Nat) (w : Option (Nat × Nat × Nat)) (detail : Nat) :
    s.coreFaultWith c queue code seq w detail = (match s.coreParcel c with
      | some n => (s.faulted c queue code seq w).raise ⟨if s.parMode n = 2 then 2 else 3, 8 + n, some n, 0x0100 + code, c.val, detail⟩
      | none => s.faulted c queue code seq w) := by
  have hobj := (OnlyCore.faulted (s := s) (c := c) queue code seq w).2.1
  have hother {i j : Nat} (hi : i < 0x6800) (hj : j < 256) : objKey i j ∉ faultObjs c := by
    simp only [faultObjs, List.mem_cons, List.not_mem_nil, or_false, Obj.core_CORE_STATE, Obj.core_FAULT_CODE, Obj.core_FAULT_QUEUE,
      Obj.core_FAULT_FLAG, Obj.core_FAULT_WANT, Obj.core_FAULT_SEEN, Obj.core_FAULT_TIME, Obj.core_FAULT_OPSEQ, Obj.core_NESTED_FAULTS,
      Obj.core_QUEUE_FILL, objKey]
    omega
  have hparcel : (s.faulted c queue code seq w).coreParcel c = s.coreParcel c :=
    congrFun (State.coreParcel_congr fun n hn => hobj _ (hother (by omega) (by decide))) c
  have hmode {n : Nat} (h : s.coreParcel c = some n) : (s.faulted c queue code seq w).parMode n = s.parMode n :=
    hobj _ (hother (by have := State.parcel_lt_of_coreParcel h; omega) (by decide))
  show (match (s.faulted c queue code seq w).coreParcel c with
    | some n => (s.faulted c queue code seq w).raiseParcel n (0x0100 + code) c detail 3
    | none => s.faulted c queue code seq w) = _
  rw [hparcel]
  cases h : s.coreParcel c with
  | none => rfl
  | some n => dsimp only; rw [State.raiseParcel, hmode h]

theorem Core.mem_halt (k : Core) (e : QEntry) :
    (e ∈ k.halt.mxe ↔ e ∈ k.mxe ∧ e.phase ≠ .waiting) ∧ (e ∈ k.halt.vxe ↔ e ∈ k.vxe ∧ e.phase ≠ .waiting) ∧
      (e ∈ k.halt.spe ↔ e ∈ k.spe ∧ e.phase ≠ .waiting) ∧ (e ∈ k.halt.txe ↔ e ∈ k.txe ∧ e.phase ≠ .waiting) := by
  simp only [Core.halt, List.mem_filter, decide_eq_true_eq, and_self]

end

/-- Settles O13: the fault is noted and the core stopped (`State.faulted`), and then raised. -/
theorem coreFaultIsRecordedAndHaltsTheCore : Obligations.CoreFaultIsRecordedAndHaltsTheCore := by
  intro s c q code seq detail w
  have hnote {j : Nat} (hs : j ≠ 0x01) (hfill : j ≠ 0x0A) : (s.faulted c q code seq w).obj (objKey (0x6800 + c) j) =
      (s.noteFault c q code seq (w.getD (0xFFFF, 0, 0))).obj (objKey (0x6800 + c) j) :=
    State.obj_stopFaulted (coreObj_ne c hs) (coreObj_ne c hfill)
  refine ⟨s.faulted c q code seq w, State.coreFaultWith_eq q code seq w detail, OnlyCore.faulted q code seq w, ?_⟩
  rw [State.core_faulted]
  refine ⟨fun e => Core.mem_halt _ e, rfl, State.obj_setObj_same _ _ _, ?_, fun h => ?_, fun h => ?_⟩
  · have hcore := State.core_faulted (s := s) (c := c) q code seq w
    rw [State.faulted, State.stopFaulted, State.setCoreState, State.core_setObj, State.core_updFill, State.core_modCore_same] at hcore
    rw [State.faulted, State.fill_stopFaulted, hcore]; rfl
  · have hrec : s.noteFault c q code seq (w.getD (0xFFFF, 0, 0)) = s.recordFault c q code seq (w.getD (0xFFFF, 0, 0)) := if_pos h
    obtain ⟨h1, h2, h3, h4, h5, h6, h7, h8⟩ := State.obj_recordFault (s := s) (c := c) q code seq (w.getD (0xFFFF, 0, 0))
    rw [← hrec] at h1 h2 h3 h4 h5 h6 h7 h8
    have hread {j v : Nat} (hs : j ≠ 0x01) (hfill : j ≠ 0x0A)
        (hv : (s.noteFault c q code seq (w.getD (0xFFFF, 0, 0))).obj (objKey (0x6800 + c) j) = v) :
        (s.faulted c q code seq w).obj (objKey (0x6800 + c) j) = v := (hnote hs hfill).trans hv
    exact ⟨hread (by decide) (by decide) h1, hread (by decide) (by decide) h2, hread (by decide) (by decide) h3,
      hread (by decide) (by decide) h4, hread (by decide) (by decide) h5, hread (by decide) (by decide) h6,
      hread (by decide) (by decide) h7, hread (by decide) (by decide) h8⟩
  · have hcount : s.noteFault c q code seq (w.getD (0xFFFF, 0, 0)) = s.bump (Obj.core_NESTED_FAULTS c) := if_neg h
    constructor
    · refine (hnote (by decide) (by decide)).trans ?_
      rw [hcount, show objKey (0x6800 + c.val) 0x09 = Obj.core_NESTED_FAULTS c from rfl, State.obj_bump_same, objBits_NESTED_FAULTS,
        satN_eq_min]
    · have hkeep {j : Nat} (hs : j ≠ 0x01) (hfill : j ≠ 0x0A) (hn : j ≠ 0x09) :
          (s.faulted c q code seq w).obj (objKey (0x6800 + c) j) = s.obj (objKey (0x6800 + c) j) := by
        rw [hnote hs hfill, hcount]; exact State.obj_bump_other _ (coreObj_ne c hn)
      intro k hk
      simp only [List.mem_cons, List.not_mem_nil, or_false] at hk
      obtain rfl | rfl | rfl | rfl | rfl | rfl | rfl := hk <;> exact hkeep (by decide) (by decide) (by decide)

end Sys2Proof.Machine
end

section
/-! PROOF. The issue of queued operations (R72, R73, R78, R105, R458): every one is checked alike and takes its entry alike. -/

namespace Sys2Proof.Machine

/-! ### The lowest code of a list of faults (R108) -/

theorem lowest_eq_some_iff {l : List Nat} {a : Nat} : lowest l = some a ↔ a ∈ l ∧ ∀ b ∈ l, a ≤ b := by
  induction l generalizing a with
  | nil => simp [lowest]
  | cons c l ih =>
    rw [lowest]
    cases h : lowest l with
    | none =>
      have hl : l = [] := by
        cases l with
        | nil => rfl
        | cons d l => rw [lowest] at h; split at h <;> cases h
      subst hl
      rw [Option.some.injEq, List.mem_singleton]
      constructor
      · rintro rfl; exact ⟨rfl, fun b hb => (List.mem_singleton.1 hb).ge⟩
      · exact fun h => h.1.symm
    | some d =>
      obtain ⟨hd, hle⟩ := ih.1 h
      rw [Option.some.injEq]
      constructor
      · rintro rfl
        refine ⟨?_, ?_⟩
        · rcases le_total c d with hcd | hcd
          · rw [Nat.min_eq_left hcd]; exact List.mem_cons_self
          · rw [Nat.min_eq_right hcd]; exact List.mem_cons_of_mem _ hd
        · intro b hb
          rcases List.mem_cons.1 hb with rfl | hb
          · exact Nat.min_le_left _ _
          · exact (Nat.min_le_right _ _).trans (hle b hb)
      · rintro ⟨ha, hmin⟩
        have h1 := hmin c List.mem_cons_self
        have h2 := hmin d (List.mem_cons_of_mem _ hd)
        rcases List.mem_cons.1 ha with rfl | ha
        · exact Nat.min_eq_left h2
        · exact (Nat.min_eq_right ((hle a ha).trans h1)).trans (le_antisymm (hle a ha) h2)

/-! ### The checks at issue (R76, R77, R83, R458) -/

/-- The failing checks of a queued operation: of the flags its gate, its completion field and its operands name, of its destination
flags, and of its handles. -/
def Core.queueFaults (k : Core) (i : Issue) (hs : List HRef) (fs ds : List Flag) : List Nat :=
  (issueFlags i ++ fs).flatMap (flagCheck i.routine) ++ (ds.flatMap (flagCheck false) ++ hs.flatMap (k.hrefCheck i.routine))

theorem mem_need {a code : Nat} {ok : Bool} : a ∈ need ok code ↔ a = code ∧ ok = false := by
  unfold need; cases ok <;> simp

theorem mem_flagCheck {a : Nat} {routine : Bool} {f : Flag} : a ∈ flagCheck routine f ↔ a = 0x12 ∧ routine = false ∧ 240 ≤ f.val := by
  rw [flagCheck, mem_need, Bool.or_eq_false_iff, decide_eq_false_iff_not, Nat.not_lt]; rfl

theorem Core.handle_lt (k : Core) (h : HRef) : k.handle h < 2 ^ 16 := Nat.mod_lt _ (by decide)

theorem Core.mem_hrefCheck {k : Core} {a : Nat} {routine : Bool} {h : HRef} : a ∈ k.hrefCheck routine h ↔
    (a = 0x10 ∧ ¬ k.valid h) ∨ (a = 0x11 ∧ routine = false ∧ 3840 ≤ k.handle h % 4096) := by
  have hlt := k.handle_lt h
  have h16 : k.handle h / 4096 % 16 = k.handle h / 4096 := Nat.mod_eq_of_lt (by omega)
  rw [Core.hrefCheck, Core.handleCheck, h16, List.mem_append, mem_need, mem_need, Bool.or_eq_false_iff, decide_eq_false_iff_not,
    decide_eq_false_iff_not, Nat.not_lt]
  rfl

theorem Core.mem_queueFaults {k : Core} {i : Issue} {hs : List HRef} {fs ds : List Flag} {a : Nat} :
    a ∈ k.queueFaults i hs fs ds ↔ (a = 0x10 ∧ ∃ h ∈ hs, ¬ k.valid h) ∨
      (a = 0x11 ∧ i.routine = false ∧ ∃ h ∈ hs, 3840 ≤ k.handle h % 4096) ∨
      (a = 0x12 ∧ ((i.routine = false ∧ ∃ f ∈ issueFlags i ++ fs, 240 ≤ f.val) ∨ ∃ f ∈ ds, 240 ≤ f.val)) := by
  simp only [Core.queueFaults, List.mem_append (s := List.flatMap _ _), List.mem_flatMap, mem_flagCheck, Core.mem_hrefCheck]
  constructor
  · rintro (⟨f, hf, rfl, hr, h240⟩ | ⟨f, hf, rfl, -, h240⟩ | ⟨h, hh, ⟨rfl, hv⟩ | ⟨rfl, hr, hres⟩⟩)
    · exact .inr (.inr ⟨rfl, .inl ⟨hr, f, hf, h240⟩⟩)
    · exact .inr (.inr ⟨rfl, .inr ⟨f, hf, h240⟩⟩)
    · exact .inl ⟨rfl, h, hh, hv⟩
    · exact .inr (.inl ⟨rfl, hr, h, hh, hres⟩)
  · rintro (⟨rfl, h, hh, hv⟩ | ⟨rfl, hr, h, hh, hres⟩ | ⟨rfl, ⟨hr, f, hf, h240⟩ | ⟨f, hf, h240⟩⟩)
    · exact .inr (.inr ⟨h, hh, .inl ⟨rfl, hv⟩⟩)
    · exact .inr (.inr ⟨h, hh, .inr ⟨rfl, hr, hres⟩⟩)
    · exact .inl ⟨f, hf, rfl, hr, h240⟩
    · exact .inr (.inl ⟨f, hf, rfl, trivial, h240⟩)

theorem issueCheck_eq (i : Issue) : issueCheck i = (issueFlags i).flatMap (flagCheck i.routine) := by
  obtain ⟨c, routine, gate, comp⟩ := i
  cases gate <;> cases comp <;> simp [issueCheck, issueFlags]

theorem dflagCheck_eq (d : Option (Src × Flag)) : dflagCheck d = (d.toList.map Prod.snd).flatMap (flagCheck false) := by
  cases d <;> simp [dflagCheck]

/-! ### Every queued operation is one call of the issue -/

section
variable {s₀ s : State} {x : Instr} {i : Issue} {q : Queue} {hs : List HRef} {fs ds : List Flag} {op : QOp}

theorem State.handles_same (h : (s₀.core i.core).sameButCache (s.core i.core)) (hs : List HRef) :
    s₀.handles i hs = hs.flatMap ((s.core i.core).hrefCheck i.routine) := by
  have hcheck : (s₀.core i.core).hrefCheck i.routine = (s.core i.core).hrefCheck i.routine := by rw [h.eq]; rfl
  rw [State.handles, hcheck]

/-- The destination of a message, as its device and its core (R458). -/
theorem msgDest_eq (w : BitVec 64) : w.toNat % 2 ^ 20 = (w.extractLsb' 0 20).toNat ∧ field w.toNat 31 20 = (w.extractLsb' 20 12).toNat := by
  simp [field, BitVec.extractLsb'_toNat]

/-- What a queued operation answers: the issue of its entry with the checks of its flags and handles, its operands those of
`queuedOp` for the core as it stands when the operation is counted. -/
theorem exec_queued (h : queuedOp s x = some (i, q, hs, fs, ds, op)) (hsame : (s₀.core i.core).sameButCache (s.core i.core)) :
    ∃ faults f, exec x s₀ = .next (s₀.enqueue i q faults f) ∧ issueCheck i ++ faults = (s.core i.core).queueFaults i hs fs ds ∧
      f ((s.core i.core).moved i.routine) = op := by
  cases x <;> cases h
  case txeMsg dest r a n tc =>
    obtain ⟨hdev, hcore⟩ := msgDest_eq ((s.core i.core).reg dest)
    refine ⟨_, _, rfl, ?_, ?_⟩
    · simp [Core.queueFaults, issueCheck_eq]
    · rw [← hdev, ← hcore]; rfl
  all_goals
    refine ⟨_, _, rfl, ?_, rfl⟩
    simp only [State.handles_same hsame, Core.queueFaults, issueCheck_eq, dflagCheck_eq, List.flatMap_append, List.flatMap_cons,
      List.flatMap_nil, List.append_nil, List.nil_append, List.append_assoc]

/-- The issue of a queued operation whose checks hold. -/
theorem exec_queued_ok (h : queuedOp s x = some (i, q, hs, fs, ds, op)) (hf : Fetched s₀ i.core i.routine s)
    (hok : (s.core i.core).queueFaults i hs fs ds = []) :
    exec x s₀ = .next (
      if ((s.core i.core).queue q).length < queueDepth q
      then (s.issued i.core i.routine).modQueue i.core q
        (fun l => l ++ [(s.core i.core).entry i ((s.issued i.core i.routine).opsIssued i.core - 1) op])
      else ((s.issued i.core i.routine).setCore i.core { (s.core i.core).moved i.routine with
        hold := .stall q ((s.core i.core).entry i ((s.issued i.core i.routine).opsIssued i.core - 1) op) s.now }).settle i.core) := by
  obtain ⟨faults, f, hexec, hfaults, hop⟩ := exec_queued h hf.same
  have hqueue : ((s.core i.core).moved i.routine).queue q = (s.core i.core).queue q := by cases q <;> rfl
  rw [hexec, State.enqueue, State.control_next hf.1 hf.2 (hfaults.trans hok)]
  dsimp only
  rw [State.core_issued, hop, hqueue, State.now_issued]
  rfl

theorem exec_queued_fault (h : queuedOp s x = some (i, q, hs, fs, ds, op)) (hf : Fetched s₀ i.core i.routine s) {code : Nat}
    (hlow : lowest ((s.core i.core).queueFaults i hs fs ds) = some code) :
    exec x s₀ = .next (s.coreFaultWith i.core 0 code (s.obj (Obj.core_OPS_ISSUED i.core)) none 0) := by
  obtain ⟨faults, f, hexec, hfaults, -⟩ := exec_queued h hf.same
  rw [hexec, State.enqueue]
  exact hf.control_fault (by rw [hfaults, hlow])

/-- Settles O15: the codes that the checks can give are those of `Core.mem_queueFaults`, and the lowest of them is the fault's. -/
theorem queuedOperationFaultsAtIssue : Obligations.QueuedOperationFaultsAtIssue := by
  intro s₀ s x i q hs fs ds op h hf
  refine ⟨fun hstale => ?_, fun hvalid hr hres => ?_, fun hvalid hflag => ?_⟩
  all_goals
    refine exec_queued_fault h hf (lowest_eq_some_iff.2 ⟨Core.mem_queueFaults.2 ?_, fun b hb => ?_⟩)
  · exact .inl ⟨rfl, hstale⟩
  · rcases Core.mem_queueFaults.1 hb with ⟨rfl, -⟩ | ⟨rfl, -⟩ | ⟨rfl, -⟩ <;> decide
  · exact .inr (.inl ⟨rfl, hr, hres⟩)
  · rcases Core.mem_queueFaults.1 hb with ⟨rfl, g, hg, hv⟩ | ⟨rfl, -⟩ | ⟨rfl, -⟩
    · exact absurd (hvalid g hg) hv
    · decide
    · decide
  · exact .inr (.inr ⟨rfl, hflag⟩)
  · rcases Core.mem_queueFaults.1 hb with ⟨rfl, g, hg, hv⟩ | ⟨rfl, hr, g, hg, hres⟩ | ⟨rfl, -⟩
    · exact absurd (hvalid g hg).1 hv
    · rcases (hvalid g hg).2 with hr' | hlt
      · rw [hr] at hr'; cases hr'
      · omega
    · decide

end

end Sys2Proof.Machine
end

section
/-! PROOF. What joining a queue leaves (R73, R86, R109, R110). -/

namespace Sys2Proof.Machine

/-! ### A queue replaced leaves what holds the core -/

section
variable (k : Core) (q : Queue) (l : List QEntry) (now : Nat)

@[simp] theorem Core.hold_setQueue : (k.setQueue q l).hold = k.hold := by cases q <;> rfl
@[simp] theorem Core.lib_setQueue : (k.setQueue q l).lib = k.lib := by cases q <;> rfl
@[simp] theorem Core.ended_setQueue : (k.setQueue q l).ended = k.ended := by cases q <;> rfl
@[simp] theorem Core.queue_setQueue : (k.setQueue q l).queue q = l := by cases q <;> rfl

/-- Noting the head replaces one queue, whose operations stay. -/
theorem Core.noteHead_eq : ∃ l, k.noteHead q now = k.setQueue q l ∧ l.map QEntry.seq = (k.queue q).map QEntry.seq := by
  unfold Core.noteHead
  split
  next i _ =>
    refine ⟨_, rfl, List.ext_getElem? fun j => ?_⟩
    simp only [List.getElem?_map, List.getElem?_modify]
    split
    · cases (k.queue q)[j]? <;> rfl
    · simp
  next => exact ⟨k.queue q, by cases q <;> rfl, rfl⟩

@[simp] theorem Core.hold_noteHead : (k.noteHead q now).hold = k.hold := by
  obtain ⟨l, h, -⟩ := k.noteHead_eq q now; rw [h, Core.hold_setQueue]
@[simp] theorem Core.lib_noteHead : (k.noteHead q now).lib = k.lib := by
  obtain ⟨l, h, -⟩ := k.noteHead_eq q now; rw [h, Core.lib_setQueue]
@[simp] theorem Core.ended_noteHead : (k.noteHead q now).ended = k.ended := by
  obtain ⟨l, h, -⟩ := k.noteHead_eq q now; rw [h, Core.ended_setQueue]

end

section
variable {s₀ s : State} {c : CoreId} {routine : Bool}

/-- A core that nothing holds has no operation to place. -/
theorem State.place_free {u : State} {b : Nat} (h : (u.core b).hold = .none) : u.place b = u := by
  rw [State.place, h]

/-- A core's queue changed, its head noted and QUEUE_FILL brought up to date. -/
def State.requeued (u : State) (b : Nat) (q : Queue) (f : List QEntry → List QEntry) : State :=
  (u.modCore b (fun k => (k.setQueue q (f (k.queue q))).noteHead q u.now)).updFill b

/-- A queue of a core that nothing holds changed: no operation waits to be placed (R73). -/
theorem State.modQueue_free {u : State} {b : Nat} (q : Queue) (f : List QEntry → List QEntry) (h : (u.core b).hold = .none) :
    u.modQueue b q f = (u.requeued b q f).settle b := by
  have hfree : ((u.modCore b (fun k => (k.setQueue q (f (k.queue q))).noteHead q u.now)).core b).hold = .none := by
    rw [State.core_modCore_same, Core.hold_noteHead, Core.hold_setQueue, h]
  rw [State.modQueue, State.place_free hfree]
  rfl

theorem State.core_requeued (u : State) (b : Nat) (q : Queue) (f : List QEntry → List QEntry) :
    (u.requeued b q f).core b = ((u.core b).setQueue q (f ((u.core b).queue q))).noteHead q u.now := by
  rw [State.requeued, State.core_updFill, State.core_modCore_same]

theorem State.fill_requeued (u : State) (b : Nat) (q : Queue) (f : List QEntry → List QEntry) :
    (u.requeued b q f).obj (Obj.core_QUEUE_FILL b) = ((u.requeued b q f).core b).fill := by
  rw [State.requeued, State.core_updFill, State.updFill, State.obj_setObj_same]

theorem State.coreState_requeued (u : State) (b : Nat) (q : Queue) (f : List QEntry → List QEntry) :
    (u.requeued b q f).coreState b = u.coreState b := by
  have hne : Obj.core_CORE_STATE b ≠ Obj.core_QUEUE_FILL b := coreObj_ne b (by decide)
  rw [State.coreState, State.requeued, State.updFill, State.obj_setObj_other _ _ hne]; rfl

/-- An issued operation that changes a queue of a core that has not ended. -/
theorem Issued.queued (hf : Fetched s₀ c routine s) (he : (s.core c).ended = false) (q : Queue) (f : List QEntry → List QEntry) {k : Core}
    (hk : k = (((s.core c).moved routine).setQueue q (f ((s.core c).queue q))).noteHead q s.now) :
    Issued c [Obj.core_QUEUE_FILL c, Obj.core_CORE_STATE c] s ((s.issued c routine).modQueue c q f) ∧
    ((s.issued c routine).modQueue c q f).core c = k ∧
    ((s.issued c routine).modQueue c q f).obj (Obj.core_QUEUE_FILL c) = k.fill ∧
    ((s.issued c routine).modQueue c q f).obj (Obj.core_CORE_STATE c) = if (s.core c).lib = none then 1 else 4 := by
  have hne : Obj.core_QUEUE_FILL c ≠ Obj.core_OPS_ISSUED c := coreObj_ne c (by decide)
  have hne' : Obj.core_QUEUE_FILL c ≠ Obj.core_CORE_STATE c := coreObj_ne c (by decide)
  have hqueue : ((s.core c).moved routine).queue q = (s.core c).queue q := by cases q <;> rfl
  have hcore : ((s.issued c routine).requeued c q f).core c = k := by
    rw [State.core_requeued, State.core_issued, hqueue, State.now_issued, hk]
  have hi : Issued c [Obj.core_QUEUE_FILL c, Obj.core_CORE_STATE c] s ((s.issued c routine).requeued c q f) :=
    (((Issued.issued s routine c).modCore _).mono (by simp)).setObj _ (by simp) hne
  have hstate : k.holdState = if (s.core c).lib = none then 1 else 4 := by
    rw [hk, Core.holdState, Core.hold_noteHead, Core.hold_setQueue, Core.hold_moved, hf.hold, Core.lib_noteHead, Core.lib_setQueue,
      Core.lib_moved]
    cases (s.core c).lib <;> rfl
  have hnotended : k.ended = false := by rw [hk, Core.ended_noteHead, Core.ended_setQueue, Core.ended_moved, he]
  rw [State.modQueue_free q f hf.hold_issued, State.settle_issued hf
    (by rw [State.coreState_requeued, State.coreState_issued]) (by rw [hcore, hnotended]), hcore]
  refine ⟨hi.setObj _ (by simp) (Core.ne_coreState_OPS_ISSUED c), ?_, ?_, ?_⟩
  · rw [State.setCoreState, State.core_setObj, hcore]
  · rw [State.setCoreState, State.obj_setObj_other _ _ hne', State.fill_requeued, hcore]
  · rw [State.setCoreState, State.obj_setObj_same, hstate]

end

/-- Settles O14: the checks hold, and the entry joins its queue (`Issued.queued`) or holds the core (`Issued.held`). -/
theorem queuedOperationEntersItsQueue : Obligations.QueuedOperationEntersItsQueue := by
  intro s₀ s x i q hs fs ds op h hf he hvalid hflags hdflags
  have hok : (s.core i.core).queueFaults i hs fs ds = [] := by
    refine List.eq_nil_iff_forall_not_mem.2 fun a ha => ?_
    rcases Core.mem_queueFaults.1 ha with ⟨-, g, hg, hv⟩ | ⟨-, hr, g, hg, hres⟩ | ⟨-, ⟨hr, f, hmem, h240⟩ | ⟨f, hmem, h240⟩⟩
    · exact hv (hvalid g hg).1
    · rcases (hvalid g hg).2 with hr' | hlt
      · rw [hr] at hr'; cases hr'
      · omega
    · rcases hflags f hmem with hr' | hlt
      · rw [hr] at hr'; cases hr'
      · omega
    · exact absurd (hdflags f hmem) (Nat.not_lt.2 h240)
  rw [exec_queued_ok h hf hok]
  by_cases hroom : ((s.core i.core).queue q).length < queueDepth q
  · obtain ⟨hi, hcore, hfill, hstate⟩ := Issued.queued hf he q
      (fun l => l ++ [(s.core i.core).entry i ((s.issued i.core i.routine).opsIssued i.core - 1) op]) rfl
    rw [if_pos hroom]
    refine ⟨_, _, rfl, s.opsIssued_issued i.core i.routine, hi, fun _ => ⟨hcore, ?_, hstate⟩, fun hfull => absurd hroom (Nat.not_lt.2 hfull)⟩
    rw [hcore, hfill]; rfl
  · obtain ⟨-, hi, hstate, hcore⟩ := Issued.held hf he (k := { (s.core i.core).moved i.routine with
      hold := .stall q ((s.core i.core).entry i ((s.issued i.core i.routine).opsIssued i.core - 1) op) s.now }) rfl
    rw [if_neg hroom]
    exact ⟨_, _, rfl, s.opsIssued_issued i.core i.routine, hi.mono (by simp), fun h => absurd h hroom, fun _ => ⟨hcore, hstate⟩⟩

end Sys2Proof.Machine
end

section
/-! PROOF. What a change of a queue can do (R73, R74, R86), and the start of an operation of an MXE, VXE or SPE (R81, R95). -/

namespace Sys2Proof.Machine

/-! ### A queue changed -/

section
variable (k : Core) {q q' : Queue} (l : List QEntry) (now : Nat)

theorem Core.queue_setQueue_other (h : q ≠ q') : (k.setQueue q' l).queue q = k.queue q := by
  cases q <;> cases q' <;> first | rfl | exact absurd rfl h

theorem Core.queue_noteHead_other (h : q ≠ q') : (k.noteHead q' now).queue q = k.queue q := by
  obtain ⟨l, e, -⟩ := k.noteHead_eq q' now
  rw [e, Core.queue_setQueue_other _ _ h]

theorem Core.noteHead_none (h : k.headIdx q = none) : k.noteHead q now = k := by
  rw [Core.noteHead, h]

/-- While an operation of an MXE, VXE or SPE runs at the head of its queue, none waits there (R74). -/
theorem Core.headIdx_running (hq : q ≠ .txe) {e : QEntry} (he : (k.queue q)[0]? = some e) (hp : e.phase ≠ .waiting) :
    k.headIdx q = none := by
  unfold Core.headIdx
  dsimp only
  split
  next i hi =>
    refine if_neg ?_
    rintro (h | rfl)
    · exact hq h
    · obtain ⟨hlt, hwait, -⟩ := List.findIdx?_eq_some_iff_getElem.1 hi
      rw [List.getElem?_eq_getElem hlt, Option.some.injEq] at he
      rw [he] at hwait
      exact hp (of_decide_eq_true hwait)
  next => rfl

end

section
variable {s u : State} {c : Nat} (q : Queue) (f : List QEntry → List QEntry)

/-- The core after a change of a queue: the queue changed and its head noted, and then, where there is room for it, the operation the
core was held on placed at the end of its queue. -/
theorem State.core_modQueue_cases {k : Core} (hk : k = ((u.core c).setQueue q (f ((u.core c).queue q))).noteHead q u.now) :
    (u.modQueue c q f).core c = k ∨ ∃ q' e since, (u.core c).hold = .stall q' e since ∧
      (u.modQueue c q f).core c = ({ k with hold := .none }.setQueue q' (k.queue q' ++ [e])).noteHead q' u.now := by
  have hcore : (u.modCore c (fun k => (k.setQueue q (f (k.queue q))).noteHead q u.now)).core c = k := by
    rw [State.core_modCore_same, hk]
  have hhold : k.hold = (u.core c).hold := by rw [hk, Core.hold_noteHead, Core.hold_setQueue]
  unfold State.modQueue
  rw [State.core_settle, State.core_updFill, State.place, hcore, hhold]
  cases (u.core c).hold with
  | stall q' e since =>
    dsimp only
    split
    · refine .inr ⟨q', e, since, rfl, ?_⟩
      rw [State.core_addObj, State.core_setCore_same]; rfl
    · exact .inl hcore
  | _ => exact .inl hcore

/-- A change of a queue changes the core, its QUEUE_FILL, its CORE_STATE and, where an operation is placed, its ISSUE_STALL. -/
theorem OnlyCore.modQueue {ks : List Nat} (h : OnlyCore c ks s u) (hfill : Obj.core_QUEUE_FILL c ∈ ks)
    (hstall : Obj.core_ISSUE_STALL c ∈ ks) (hstate : Obj.core_CORE_STATE c ∈ ks) : OnlyCore c ks s (u.modQueue c q f) := by
  have hplace {v : State} (h : OnlyCore c ks s v) : OnlyCore c ks s (v.place c) := by
    unfold State.place
    dsimp only
    split
    · split
      · exact (h.setCore _).addObj _ hstall
      · exact h
    · exact h
  have hsettle {v : State} (h : OnlyCore c ks s v) : OnlyCore c ks s (v.settle c) := by
    unfold State.settle
    dsimp only
    split
    · exact h
    · split
      · split
        · exact h.setObj _ hstate
        · exact h
      · exact h.setObj _ hstate
  exact hsettle ((hplace (h.modCore _)).setObj _ hfill)

end

/-! ### The start of an engine's operation -/

section
variable {s : State} {c : CoreId} {q : Queue} {e : QEntry} {rest : List QEntry}

/-- A waiting operation first in its queue is at its head. -/
theorem Core.headIdx_first {k : Core} (h : k.queue q = e :: rest) (hp : e.phase = .waiting) : k.headIdx q = some 0 := by
  have hfind : (e :: rest).findIdx? (fun e => decide (e.phase = .waiting)) = some 0 := by
    rw [List.findIdx?_cons, if_pos (decide_eq_true hp)]
  rw [Core.headIdx, h, hfind]
  exact if_pos (.inr rfl)

/-- An operation as it stands once started (R95, R99). -/
def State.startedEntry (u : State) (e : QEntry) : QEntry :=
  { e with phase := .started, startAt := u.now, settings := u.opSettings e.op, image := u.opImage e.op }

/-- The start of an operation at the head of a queue of a warm engine, no memory error met (R434). -/
theorem exec_engineOpStart (hq : q ≠ .txe) (h : (s.core c).queue q = e :: rest) (hp : e.phase = .waiting)
    (hg : (s.core c).gateOpen e = true) (hw : (s.core c).isWarm q = true) :
    exec (.engineOpStart c q []) s = .next ((s.warmUp c q).startEngine c q 0 e) := by
  show execEngineOpStart c q [] s = _
  rw [execEngineOpStart, Core.headIdx_first h hp]
  dsimp only
  rw [h, List.getElem?_cons_zero]
  dsimp only
  rw [if_pos hg, if_neg hq, State.ramp, if_pos hw]
  rfl

/-- The queue after an operation at its place was started: the started one first, the others as they were. -/
theorem State.queue_setEntry_first {u : State} (hq : q ≠ .txe) (h : (u.core c).queue q = e :: rest) {e' : QEntry} (hp : e'.phase ≠ .waiting) :
    ∃ more, ((u.setEntry c q 0 e').core c).queue q = e' :: rest ++ more := by
  have hset : ((u.core c).queue q).set 0 e' = e' :: rest := by rw [h]; rfl
  have hnote {k : Core} {l : List QEntry} (hl : k.queue q = e' :: l) : k.noteHead q u.now = k :=
    k.noteHead_none u.now (k.headIdx_running hq (by rw [hl]; rfl) hp)
  have hk : (u.core c).setQueue q (e' :: rest) =
      ((u.core c).setQueue q (((u.core c).queue q).set 0 e')).noteHead q u.now := by
    rw [hset, hnote (l := rest) (Core.queue_setQueue _ _ _)]
  rcases u.core_modQueue_cases q (fun l => l.set 0 e') hk with hc | ⟨q', x, since, -, hc⟩
  · refine ⟨[], ?_⟩
    rw [State.setEntry, hc, Core.queue_setQueue, List.append_nil]
  · rw [State.setEntry, hc]
    by_cases hqq : q = q'
    · subst hqq
      refine ⟨[x], ?_⟩
      rw [Core.queue_setQueue, List.cons_append, hnote (l := rest ++ [x]) (Core.queue_setQueue _ _ _), Core.queue_setQueue]
    · refine ⟨[], ?_⟩
      rw [Core.queue_noteHead_other _ _ hqq, Core.queue_setQueue_other _ _ hqq, List.append_nil]
      exact Core.queue_setQueue _ _ _

/-- Settles O16: with its gate satisfied and its engine warm the head operation comes to `State.startEngine`, which faults or replaces
the queue's first entry. -/
theorem engineOperationStartsAtItsHead : Obligations.EngineOperationStartsAtItsHead := by
  intro s c q e rest hq hqueue hp hg hw
  have hexec := exec_engineOpStart hq hqueue hp hg hw
  refine ⟨fun code hcode => ?_, fun v code hok hpass => ?_, fun hok hpass => ?_⟩
  · rw [hexec, State.startEngine, hcode]; rfl
  · rw [hexec, State.startEngine, hok, hpass]; rfl
  · have hwarm : ((s.warmUp c q).core c).queue q = e :: rest := by
      rw [State.warmUp, State.core_modCore_same, ← hqueue]; cases q <;> rfl
    obtain ⟨more, hmore⟩ := State.queue_setEntry_first hq hwarm (e' := (s.warmUp c q).startedEntry e) nofun
    refine ⟨_, hexec, ?_⟩
    rw [State.startEngine, hok, hpass]
    refine ⟨?_, (congrArg (·[0]?) hmore).trans rfl, fun j hj => (congrArg (·[j + 1]?) hmore).trans ?_⟩
    · exact OnlyCore.modQueue q _ ((OnlyCore.refl c _ s).modCore _) (by simp) (by simp) (by simp)
    · rw [List.cons_append, List.getElem?_cons_succ, List.getElem?_append_left hj]

end

end Sys2Proof.Machine
end

section
/-! PROOF. The completion of a TXE operation (R83, R88, R96 to R98), and the timeouts of waiting operations (R86, R95, R97, R123). -/

namespace Sys2Proof.Machine

/-! ### What a change of a queue leaves of the core -/

/-- Cores that differ in their queues and in what holds them alone. -/
def Core.SameButQueues (k k' : Core) : Prop :=
  { k' with mxe := k.mxe, vxe := k.vxe, spe := k.spe, txe := k.txe, hold := k.hold } = k

section
variable {k k' m : Core}

theorem Core.SameButQueues.refl (k : Core) : k.SameButQueues k := rfl

theorem Core.SameButQueues.eq (h : k.SameButQueues k') :
    { k' with mxe := k.mxe, vxe := k.vxe, spe := k.spe, txe := k.txe, hold := k.hold } = k := h

theorem Core.SameButQueues.trans (h : k.SameButQueues k') (g : k'.SameButQueues m) : k.SameButQueues m :=
  (congrArg (fun x : Core => { x with mxe := k.mxe, vxe := k.vxe, spe := k.spe, txe := k.txe, hold := k.hold }) g.eq :).trans h.eq

theorem Core.SameButQueues.release (h : k.SameButQueues k') (x : Hold) : k.SameButQueues { k' with hold := x } := h

theorem Core.SameButQueues.setQueue (h : k.SameButQueues k') (q : Queue) (l : List QEntry) : k.SameButQueues (k'.setQueue q l) := by
  cases q <;> exact h

theorem Core.SameButQueues.noteHead (h : k.SameButQueues k') (q : Queue) (now : Nat) : k.SameButQueues (k'.noteHead q now) := by
  obtain ⟨l, e, -⟩ := k'.noteHead_eq q now
  rw [e]; exact h.setQueue q l

theorem Core.SameButQueues.flag (h : k.SameButQueues k') (f : Flag) : k'.flag f = k.flag f :=
  (congrArg (Core.flag · f) h.eq :)
theorem Core.SameButQueues.rings (h : k.SameButQueues k') : k'.rings = k.rings :=
  (congrArg Core.rings h.eq :)

end

section
variable {s u : State} {c : Nat} (q : Queue) (f : List QEntry → List QEntry)

theorem State.modQueue_sameButQueues : (u.core c).SameButQueues ((u.modQueue c q f).core c) := by
  have hk := ((Core.SameButQueues.refl (u.core c)).setQueue q (f ((u.core c).queue q))).noteHead q u.now
  rcases u.core_modQueue_cases q f rfl with hc | ⟨q', e, since, -, hc⟩
  · rw [hc]; exact hk
  · rw [hc]; exact ((hk.release .none).setQueue q' _).noteHead q' u.now

/-- After a change of a queue the queue begins with the operations that the change left. -/
theorem State.seq_modQueue : (f ((u.core c).queue q)).map QEntry.seq <+: (((u.modQueue c q f).core c).queue q).map QEntry.seq := by
  have hnote (k : Core) : ((k.noteHead q u.now).queue q).map QEntry.seq = (k.queue q).map QEntry.seq := by
    obtain ⟨l, e, hl⟩ := k.noteHead_eq q u.now
    rw [e, Core.queue_setQueue, hl]
  rcases u.core_modQueue_cases q f rfl with hc | ⟨q', e, since, -, hc⟩
  · rw [hc, hnote, Core.queue_setQueue]
  · rw [hc]
    by_cases hqq : q = q'
    · subst hqq
      rw [hnote, Core.queue_setQueue, List.map_append, hnote, Core.queue_setQueue]
      exact List.prefix_append _ _
    · rw [Core.queue_noteHead_other _ _ hqq, Core.queue_setQueue_other _ _ hqq]
      have hkept := hnote ((u.core c).setQueue q (f ((u.core c).queue q)))
      rw [Core.queue_setQueue] at hkept
      exact hkept ▸ List.prefix_rfl

end

/-! ### Flags of a completion (R83, R88) -/

section
variable {s u : State} {c : CoreId}

/-- Retesting a wait can end it, and changes nothing else but CORE_STATE (R87). -/
theorem State.core_retest (u : State) (c : Nat) : ∃ x, (u.retest c).core c = { u.core c with hold := x } := by
  unfold State.retest
  dsimp only
  split
  · split
    · exact ⟨.none, by rw [State.core_settle, State.core_setCore_same]⟩
    · exact ⟨(u.core c).hold, rfl⟩
  · exact ⟨(u.core c).hold, rfl⟩

theorem OnlyCore.settle {c : Nat} {ks : List Nat} (h : OnlyCore c ks s u) (hstate : Obj.core_CORE_STATE c ∈ ks) :
    OnlyCore c ks s (u.settle c) := by
  unfold State.settle
  dsimp only
  split
  · exact h
  · split
    · split
      · exact h.setObj _ hstate
      · exact h
    · exact h.setObj _ hstate

theorem OnlyCore.retest {c : Nat} {ks : List Nat} (h : OnlyCore c ks s u) (hstate : Obj.core_CORE_STATE c ∈ ks) :
    OnlyCore c ks s (u.retest c) := by
  unfold State.retest
  dsimp only
  split
  · split
    · exact (h.setCore _).settle hstate
    · exact h
  · exact h

theorem OnlyCore.completeFlag {ks : List Nat} (h : OnlyCore c ks s u) (hstate : Obj.core_CORE_STATE c ∈ ks) (comp : Option Flag)
    (st ex : Nat) (region : List (Nat × Nat)) : OnlyCore c ks s (u.completeFlag c comp st ex region) := by
  cases comp with
  | none => exact h
  | some f => exact ((h.modCore _).modCore _).retest hstate

/-- A completion that marks no piece moves its flag on by 1 (R83). -/
theorem State.core_completeFlag (u : State) (c : CoreId) (comp : Option Flag) (st ex : Nat) :
    ((u.completeFlag c comp st ex []).core c).txe = (u.core c).txe ∧ ((u.completeFlag c comp st ex []).core c).rings = (u.core c).rings ∧
      ∀ g, ((u.completeFlag c comp st ex []).core c).flag g = if comp = some g then (u.core c).flag g + 1 else (u.core c).flag g := by
  cases comp with
  | none => exact ⟨rfl, rfl, fun g => (if_neg nofun).symm⟩
  | some f =>
    obtain ⟨x, hx⟩ := State.core_retest ((u.modCore c (fun k => k.raiseStatus f st ex)).modCore c
      (fun k => (k.setFlag f (k.flag f + 1)).mark f [])) c
    rw [State.core_modCore_same, State.core_modCore_same, Core.mark_nil] at hx
    rw [State.completeFlag, State.addFlag, hx]
    refine ⟨rfl, rfl, fun g => (Core.flag_setFlag _ f g _).trans ?_⟩
    by_cases hg : g = f
    · subst hg; rw [if_pos rfl, if_pos rfl]; rfl
    · rw [if_neg hg, if_neg (fun e => hg (Option.some.inj e).symm)]; rfl

/-- Counting changes objects alone. -/
theorem State.addObj_only (s : State) (k n : Nat) : { s.addObj k n with objs := s.objs } = s := by
  unfold State.addObj; split <;> rfl

theorem State.countCore_only (s : State) (c sub n : Nat) : { s.countCore c sub n with objs := s.objs } = s := by
  unfold State.countCore
  dsimp only
  split
  · exact (congrArg (fun t : State => { t with objs := s.objs }) (State.addObj_only _ _ _)).trans (s.addObj_only _ _)
  · exact s.addObj_only _ _

/-- A status of anchor miss counted (R71, R88). -/
def State.countMiss (u : State) (c st : Nat) : State := if st = 2 then u.countCore c 0x6B 1 else u

theorem State.countMiss_only (u : State) (c st : Nat) : { u.countMiss c st with objs := u.objs } = u := by
  unfold State.countMiss; split
  · exact u.countCore_only c 0x6B 1
  · rfl

@[simp] theorem State.core_countMiss (u : State) (c st b : Nat) : (u.countMiss c st).core b = u.core b :=
  (congrArg (fun x : State => x.core b) (u.countMiss_only c st) :)
@[simp] theorem State.mem_countMiss (u : State) (c st : Nat) : (u.countMiss c st).mem = u.mem :=
  (congrArg State.mem (u.countMiss_only c st) :)

/-! ### The completion of a transfer (R96 to R98) -/

/-- The objects that a completion changes. -/
def completionObjs (c : Nat) : List Nat := [Obj.core_QUEUE_FILL c, Obj.core_ISSUE_STALL c, Obj.core_CORE_STATE c]

theorem Core.queue_txe (k : Core) : k.queue .txe = k.txe := rfl

/-- A completion that marks no piece: its flag, and its entry gone. -/
theorem State.completed (u : State) (c : CoreId) (comp : Option Flag) (st ex i : Nat) {t : State}
    (ht : t = (u.completeFlag c comp st ex []).dropEntry c .txe i) :
    OnlyCore c (completionObjs c) u t ∧ ((u.core c).txe.eraseIdx i).map QEntry.seq <+: (t.core c).txe.map QEntry.seq ∧
      (∀ g, (t.core c).flag g = if comp = some g then (u.core c).flag g + 1 else (u.core c).flag g) ∧
      (t.core c).rings = (u.core c).rings := by
  subst ht
  obtain ⟨htxe, hrings, hflag⟩ := u.core_completeFlag c comp st ex
  have hsame : ((u.completeFlag c comp st ex []).core c).SameButQueues (((u.completeFlag c comp st ex []).dropEntry c .txe i).core c) :=
    State.modQueue_sameButQueues .txe _
  refine ⟨?_, ?_, fun g => (hsame.flag g).trans (hflag g), hsame.rings.trans hrings⟩
  · exact OnlyCore.modQueue .txe _ ((OnlyCore.refl c _ u).completeFlag (by simp [completionObjs]) comp st ex [])
      (by simp [completionObjs]) (by simp [completionObjs]) (by simp [completionObjs])
  · have hseq := State.seq_modQueue (u := u.completeFlag c comp st ex []) (c := c) .txe (fun l => l.eraseIdx i)
    rw [Core.queue_txe, Core.queue_txe, htxe] at hseq
    rw [State.dropEntry]; exact hseq

theorem OnlyCore.mem_eq {c : Nat} {ks : List Nat} (h : OnlyCore c ks s u) : u.mem = s.mem := (congrArg State.mem h.1 :)

/-- The completion of a TXE operation without a destination flag. -/
theorem exec_txeComplete {i : Nat} {e : QEntry} (rep : EngineReport) (he : (s.core c).txe[i]? = some e) (hp : e.phase = .started)
    (htodo : e.todo = []) (hout : e.out = []) {st ex : Nat} (hfin : s.txeFinish c e = (u, st, ex, []))
    (hget : ∀ d a tc x, e.op ≠ .get d a tc (some x)) (hrem : e.op.remoteFlag = none) :
    exec (.engineOpComplete c .txe i rep) s =
      .next (((u.countMiss c st).completeFlag c e.comp st ex []).dropEntry c .txe i) := by
  show execEngineOpComplete c .txe i rep s = _
  have he' : ((s.core c).queue .txe)[i]? = some e := he
  rw [execEngineOpComplete, he']
  dsimp only
  rw [if_pos hp, if_pos rfl, if_pos ⟨htodo, hout⟩, State.completeTxe, hfin]
  dsimp only
  split
  next d a tc x y hop => exact absurd hop (hget _ _ _ _)
  next => rw [hrem]; rfl

/-- What the completion of such an operation, whose effect leaves the queues and the flags, comes to. -/
theorem State.txe_completes {i : Nat} {e : QEntry} (rep : EngineReport) (he : (s.core c).txe[i]? = some e) (hp : e.phase = .started)
    (htodo : e.todo = []) (hout : e.out = []) {st ex : Nat} (hfin : s.txeFinish c e = (u, st, ex, []))
    (hget : ∀ d a tc x, e.op ≠ .get d a tc (some x)) (hrem : e.op.remoteFlag = none)
    (htxe : (u.core c).txe = (s.core c).txe) (hflag : ∀ f, (u.core c).flag f = (s.core c).flag f) :
    ∃ t, exec (.engineOpComplete c .txe i rep) s = .next t ∧
      OnlyCore c (completionObjs c) (u.countMiss c st) t ∧ ((s.core c).txe.eraseIdx i).map QEntry.seq <+: (t.core c).txe.map QEntry.seq ∧
      (∀ f, (t.core c).flag f = if e.comp = some f then (s.core c).flag f + 1 else (s.core c).flag f) ∧
      (t.core c).rings = (u.core c).rings := by
  obtain ⟨honly, hseq, hfl, hrings⟩ := State.completed (u.countMiss c st) c e.comp st ex i rfl
  rw [State.core_countMiss, htxe] at hseq
  rw [State.core_countMiss] at hfl hrings
  refine ⟨_, exec_txeComplete rep he hp htodo hout hfin hget hrem, honly, hseq, fun f => ?_, hrings⟩
  rw [hfl, hflag]

/-- A digest's 32 result bytes as they are kept (R98). -/
theorem getD_digest (m : Sparse Byte) {j : Nat} (hj : j < 32) : ((scratch m).readBytes 0 32).getD j 0 = Sparse.get 0 m j := by
  rw [State.readBytes, List.getD_eq_getElem?_getD, List.getElem?_map, List.getElem?_range hj, Option.map_some, Option.getD_some,
    Nat.zero_add, State.readByte_sram _ (by omega)]
  rfl

/-- Settles O18: by the form of the operation, its effect, its flag (`State.core_completeFlag`) and its entry gone. -/
theorem transferEngineOperationCompletes : Obligations.TransferEngineOperationCompletes := by
  intro s c i e rep he hp htodo hout hform
  rcases hform with ⟨k, h, fp, fc, hop⟩ | ⟨a, h, hop, hend⟩ | ⟨d, a, tc, step, hop⟩ | ⟨d, a, tc, hop⟩ | ⟨d, pat, tc, hop⟩
  case inl =>
    obtain ⟨t, hexec, honly, hseq, hflag, hrings⟩ := State.txe_completes (ex := 0) (st := 0) rep he hp htodo hout
      (u := s.modCore c (fun q => { q with rings := Sparse.set none q.rings k.val (some ⟨h.base, h.stride.1, h.e1, fp, fc⟩) }))
      (by rw [State.txeFinish, hop]) (by simp [hop]) (by rw [hop]; rfl) (by rw [State.core_modCore_same])
      (fun f => by rw [State.core_modCore_same]; rfl)
    have hmem : t.mem = s.mem := honly.mem_eq.trans (State.mem_countMiss _ _ _)
    refine ⟨t, hexec, hseq, hflag, fun k' h' fp' fc' hop' => ⟨hmem, fun j => ?_⟩, fun a' h' hop' => ?_, fun _ => hmem⟩
    · rw [hop] at hop'; cases hop'
      rw [hrings, State.core_modCore_same]
      exact Sparse.get_set (d := none) (m := (s.core c).rings) (k := k.val) (v := some ⟨h.base, h.stride.1, h.e1, fp, fc⟩)
    · rw [hop] at hop'; cases hop'
  case inr.inl =>
    obtain ⟨t, hexec, honly, hseq, hflag, hrings⟩ := State.txe_completes (ex := 0) (st := 0) rep he hp htodo hout
      (u := s.writeBytes (c * 2 ^ 21 + a) ((scratch e.got).readBytes 0 32)) (by rw [State.txeFinish, hop]) (by simp [hop])
      (by rw [hop]; rfl) (by rw [State.core_writeBytes]) (fun f => by rw [State.core_writeBytes])
    have hlen : ((scratch e.got).readBytes 0 32).length = 32 := by simp [State.readBytes]
    obtain ⟨hin, hoff⟩ := s.readByte_storeSram c (o := a) (bs := (scratch e.got).readBytes 0 32) (by rwa [hlen])
    have hread (b : Nat) : t.readByte b = (s.writeBytes (c * 2 ^ 21 + a) ((scratch e.got).readBytes 0 32)).readByte b := by
      rw [State.countMiss, if_neg (by decide)] at honly
      rw [State.readByte, honly.mem_eq, State.resolve_congr fun k hk => honly.2.1 k ?_, State.readByte]
      simp only [completionObjs, List.mem_cons, List.not_mem_nil, or_false, not_or]
      exact ⟨ne_coreObj_of_idx hk c, ne_coreObj_of_idx hk c, ne_coreObj_of_idx hk c⟩
    rw [hlen] at hin hoff
    refine ⟨t, hexec, hseq, hflag, fun k' h' fp' fc' hop' => ?_, fun a' h' hop' => ?_, fun hno => absurd hop (hno a h)⟩
    · rw [hop] at hop'; cases hop'
    · rw [hop] at hop'; cases hop'
      exact ⟨fun j hj => by rw [hread, hin j hj, getD_digest _ hj], fun b hb => by rw [hread, hoff b hb]⟩
  all_goals
    obtain ⟨t, hexec, honly, hseq, hflag, hrings⟩ := State.txe_completes (u := s) rep he hp htodo hout
      (by rw [State.txeFinish, hop]) (by simp [hop]) (by rw [hop]; rfl) rfl (fun f => rfl)
    have hmem : t.mem = s.mem := honly.mem_eq.trans (State.mem_countMiss _ _ _)
    refine ⟨t, hexec, hseq, hflag, fun k' h' fp' fc' hop' => ?_, fun a' h' hop' => ?_, fun _ => hmem⟩
    · rw [hop] at hop'; cases hop'
    · rw [hop] at hop'; cases hop'

end

end Sys2Proof.Machine
end

section
/-! PROOF. The timeouts of waiting operations and the message sent again (R86, R95, R97, R111, R123). -/

namespace Sys2Proof.Machine

section
variable {s : State} {c : CoreId} {e : QEntry}

/-- An instant that time is brought to has been reached. -/
theorem State.le_now_advanceTo (s : State) {d : Nat} (h : d < 2 ^ 64) : d ≤ (s.advanceTo d).now := by
  rw [State.now_advanceTo s h]; exact le_max_right _ _

theorem exec_gateTimeout {q : Queue} {f : Flag} {v since : Nat}
    (he : ((s.core c).headIdx q).bind (fun i => ((s.core c).queue q)[i]?) = some e) (hgate : e.gate = some (f, v))
    (hhead : e.headAt = some since) (hopen : (s.core c).gateOpen e = false) (hd : since + s.gateTime c < 2 ^ 64) :
    exec (.gateTimeout c q) s = .next ((s.advanceTo (since + s.gateTime c)).coreFaultWith c (queueCode q) fWaitExpired e.seq
      (some (f.val, v, ((s.core c).flag f).toNat)) 0) := by
  show execGateTimeout c q s = _
  rw [execGateTimeout, he]
  dsimp only
  rw [hgate, hhead]
  dsimp only
  rw [if_pos ⟨by rw [hopen]; rfl, s.le_now_advanceTo hd⟩]

theorem exec_mmgWaitExpired {rest : List QEntry} {d a b : Desc} {f : Flag} {base : Nat} {axis : GatherAxis} {clr : Bool} {step : Option Nat}
    (hq : (s.core c).mxe = e :: rest) (hop : e.op = .mmg d a b f base axis clr step) (hp : e.phase = .started)
    (hflag : flagGe ((s.core c).flag f) (BitVec.ofNat 32 ((base + a.e2) % 2 ^ 32)) = false) (hd : e.startAt + s.gateTime c < 2 ^ 64) :
    exec (.mmgWaitExpired c) s = .next (((s.advanceTo (e.startAt + s.gateTime c)).dropEntry c .mxe 0).coreFaultWith c 1 fWaitExpired e.seq
      (some (f.val, (base + a.e2) % 2 ^ 32, ((s.core c).flag f).toNat)) 0) := by
  show execMmgWaitExpired c s = _
  rw [execMmgWaitExpired, hq]
  dsimp only
  rw [hop]
  dsimp only
  rw [if_pos ⟨hp, by rw [hflag]; rfl, s.le_now_advanceTo hd⟩]

theorem exec_remoteTimeout {i : Nat} (he : (s.core c).txe[i]? = some e) (hp : e.phase ≠ .waiting) (hout : e.out ++ e.todo ≠ [])
    (hd : e.startAt + s.remoteTime c < 2 ^ 64) :
    exec (.remoteTimeout c i) s = .next
      (if s.jobState (s.parcelOf c) = 3 ∨ s.parState (s.parcelOf c) = 4 ∨ 2 ≤ (s.parcel (s.parcelOf c)).reclaim
        then (s.advanceTo (e.startAt + s.remoteTime c)).dropEntry c .txe i
        else ((s.advanceTo (e.startAt + s.remoteTime c)).dropEntry c .txe i).coreFaultWith c 4 fRemoteTimeout e.seq none 0) := by
  have hwait : e.out ≠ [] ∨ e.todo ≠ [] := by
    by_contra h
    obtain ⟨h1, h2⟩ := not_or.1 h
    exact hout (by rw [not_not.1 h1, not_not.1 h2]; rfl)
  show execRemoteTimeout c i s = _
  rw [execRemoteTimeout, he]
  dsimp only
  rw [if_pos ⟨hp, hwait, s.le_now_advanceTo hd⟩]
  simp only [Bool.or_eq_true, decide_eq_true_eq, or_assoc]
  rfl

theorem exec_txeResend {tag : BitVec 16} {i j : Nat} {o : OutPkt} {since : Nat} (hfind : (s.core c).findOut tag.toNat = some (i, j))
    (he : (s.core c).txe[i]? = some e) (ho : e.out[j]? = some o) (hfull : o.full = some since) (hd : since + 1024 < 2 ^ 64)
    (hrem : max s.now (since + 1024) < e.startAt + s.remoteTime c)
    (hdie : ((s.advanceTo (since + 1024)).setEntry c .txe i { e with out := e.out.set j { o with full := none } }).onDie c o.pkt = false) :
    exec (.txeResend (.core c tag)) s = .next
      (((s.advanceTo (since + 1024)).setEntry c .txe i { e with out := e.out.set j { o with full := none } }).inject (corePort c) o.pkt) := by
  have hnow : since + 1024 ≤ (s.advanceTo (since + 1024)).now ∧
      (s.advanceTo (since + 1024)).now < e.startAt + s.remoteTime c :=
    ⟨s.le_now_advanceTo hd, by rw [State.now_advanceTo s hd]; exact hrem⟩
  show execTxeResend (.core c tag) s = _
  rw [execTxeResend, hfind]
  dsimp only
  rw [State.resendCore, hfind]
  dsimp only
  rw [he]
  dsimp only
  rw [ho]
  dsimp only
  rw [hfull]
  dsimp only
  rw [if_pos hnow, hdie, if_neg Bool.false_ne_true]

end

/-- Settles O19: each deadline is reached, and what waits ends there as the operation's command says. -/
theorem waitingOperationTimesOut : Obligations.WaitingOperationTimesOut := by
  intro s c
  refine ⟨?_, ?_, ?_, ?_⟩
  · rintro q e f v since d he hgate hhead hopen rfl hd
    exact exec_gateTimeout he hgate hhead hopen hd
  · rintro e rest dC a b f base axis clr step d hq hop hp hflag rfl hd
    exact exec_mmgWaitExpired hq hop hp hflag hd
  · rintro i e d he hp hout rfl hd
    exact exec_remoteTimeout he hp hout hd
  · intro tag i j e o since hfind he ho hfull hd hrem u hdie
    exact exec_txeResend hfind he ho hfull hd hrem hdie

end Sys2Proof.Machine
end

section
/-! PROOF. The routines COLL_START and COLL_WAIT (R94, R296, R297, R301, R302), and what a routine returns. -/

namespace Sys2Proof.Machine

/-! ### Results in registers (R94) -/

/-- A core whose registers from s1 on take a routine's results. -/
def Core.results (k : Core) (l : List Nat) : Core :=
  l.zipIdx.foldl (fun k e => k.setReg (Fin.ofNat 32 (e.2 + 1)) (BitVec.ofNat 64 e.1)) k

theorem State.setResults_eq (s : State) (c : Nat) (l : List Nat) : s.setResults c l = s.modCore c (·.results l) := rfl

theorem Core.results_append (k : Core) (l : List Nat) (v : Nat) :
    k.results (l ++ [v]) = (k.results l).setReg (Fin.ofNat 32 (l.length + 1)) (BitVec.ofNat 64 v) := by
  rw [Core.results, List.zipIdx_append, List.foldl_append]
  simp [Core.results]

/-- Results change the registers only. -/
theorem Core.results_only (k : Core) (l : List Nat) : { k.results l with regs := k.regs } = k := by
  induction l using List.reverseRecOn with
  | nil => rfl
  | append_singleton l v ih =>
    rw [Core.results_append, Core.setReg]
    split <;> exact ih

theorem Core.reg_results (k : Core) {l : List Nat} (hl : l.length ≤ 31) (r : Reg) :
    (k.results l).reg r = if 1 ≤ r.val ∧ r.val ≤ l.length then BitVec.ofNat 64 (l.getD (r.val - 1) 0) else k.reg r := by
  induction l using List.reverseRecOn with
  | nil => rw [if_neg (by simp; omega)]; rfl
  | append_singleton l v ih =>
    rw [List.length_append, List.length_singleton] at hl ⊢
    have hval : (Fin.ofNat 32 (l.length + 1)).val = l.length + 1 := Nat.mod_eq_of_lt (by omega)
    have hne : Fin.ofNat 32 (l.length + 1) ≠ (0 : Fin 32) := fun e => by
      have := congrArg Fin.val e
      rw [hval] at this; simp at this
    rw [Core.results_append]
    by_cases h : r = Fin.ofNat 32 (l.length + 1)
    · subst h
      rw [Core.reg_setReg_same, if_neg hne, hval, if_pos (by omega), Nat.add_sub_cancel]
      simp
    · have hr : r.val ≠ l.length + 1 := fun e => h (Fin.ext (by rw [e, hval]))
      rw [Core.reg_setReg_other _ _ h, ih (by omega)]
      by_cases hin : 1 ≤ r.val ∧ r.val ≤ l.length
      · rw [if_pos hin, if_pos (by omega), List.getD_append _ _ _ _ (by omega)]
      · rw [if_neg hin, if_neg (by omega)]

/-- A core past its operation, given results, is that core returned from a routine. -/
theorem Core.returned_results (k : Core) {l : List Nat} (hl : l.length ≤ 31) : Returned k ((k.moved false).results l) l :=
  ⟨congrArg (fun x : Core => { x with pos := k.pos, lib := k.lib, libLoops := k.libLoops }) ((k.moved false).results_only l),
    fun r => Core.reg_results _ hl r⟩

section
variable {s₀ s : State} {c : CoreId} {n : Nat}

/-- An issued operation that returns results and changes nothing else. -/
theorem Issued.results (s : State) (c : CoreId) {l : List Nat} (hl : l.length ≤ 31) :
    Issued c [] s ((s.issued c false).setResults c l) ∧
      Returned (s.core c) (((s.issued c false).setResults c l).core c) l := by
  refine ⟨(Issued.issued s false c).modCore _, ?_⟩
  rw [State.setResults_eq, State.core_modCore_same, State.core_issued]
  exact Core.returned_results _ hl

/-! ### COLL_START (R296, R297, R301) -/

theorem exec_collStart (hf : Fetched s₀ c false s) (hp : s.coreParcel c = some n) :
    exec (.collStart c) s₀ = .next
      (let u := s.issued c false
       let r := u.collStart n c (u.argReg c 1) none
       if r.2.1 = 0 then r.1.setResults c [0, r.2.2] else r.1.setResults c [r.2.1]) := by
  show execCollStart c s₀ = _
  rw [execCollStart, State.control_next hf.1 hf.2 rfl, State.coreParcel_issued, hp]

theorem State.collStart_refused {u : State} {core off : Nat}
    (h : u.collRefusal n core off (u.collBuild n core off (u.collRecord core off)) (u.collRecord core off) ≠ 0) :
    u.collStart n core off none =
      (u, u.collRefusal n core off (u.collBuild n core off (u.collRecord core off)) (u.collRecord core off), 0) := by
  rw [State.collStart]; exact if_pos h

theorem State.collStart_taken {u : State} {core off : Nat}
    (h : u.collRefusal n core off (u.collBuild n core off (u.collRecord core off)) (u.collRecord core off) = 0) :
    u.collStart n core off none =
      ((u.writeBytes (core * 2 ^ 21 + off + 72) (leBytes 4 (u.collBuild n core off (u.collRecord core off)).cseq)).collOpen
        (u.collBuild n core off (u.collRecord core off)), 0, (u.collBuild n core off (u.collRecord core off)).cseq) := by
  rw [State.collStart]; exact if_neg (not_not.2 h)

/-- A record that is not refused lies inside SRAM. -/
theorem State.record_inside {u : State} {core off v : Nat} {x : Coll} (h : u.collRefusal n core off x v = 0) : off + 128 ≤ 2 ^ 21 := by
  unfold State.collRefusal at h
  dsimp only at h
  by_contra hlt
  split at h
  · omega
  · rw [if_pos (Or.inr (Or.inl (by omega)))] at h
    omega

/-- With no early arrivals held, none is landed. -/
theorem State.landHeld_nil {u : State} (h : u.early = []) : u.landHeld = u := by
  rw [State.landHeld, h]; rfl

/-- A context added, its group's next sequence number with it. -/
def State.withColl (u : State) (x : Coll) : State :=
  { u with groups := Sparse.modify ⟨0, 0, 0⟩ u.groups x.group (fun t => { t with next := (t.next + 1) % 2 ^ 32 }),
           colls := u.colls ++ [x] }

/-- A context opened ahead of its slot waits for it. -/
theorem State.collOpen_ahead {u : State} {x : Coll} (he : u.early = []) (h : u.slot < x.startSlot) :
    u.collOpen x = (u.withColl x).bump Obj.coll_INSTANCES_TOTAL := by
  have hslot : ((u.withColl x).bump Obj.coll_INSTANCES_TOTAL).slot = u.slot := by
    rw [State.slot, State.now, State.bump_ft]; rfl
  have hearly : ((u.withColl x).bump Obj.coll_INSTANCES_TOTAL).early = [] := by rw [State.bump_early]; exact he
  show (if x.startSlot ≤ ((u.withColl x).bump Obj.coll_INSTANCES_TOTAL).slot then _ else _) = _
  rw [if_neg (by rw [hslot]; omega)]
  exact State.landHeld_nil hearly

/-- The issued state with a context opened ahead of its slot, its CSEQ in its record, and results returned. -/
def State.collStarted (u : State) (c : CoreId) (off : Nat) (x : Coll) : State :=
  ((u.writeBytes (c.val * 2 ^ 21 + off + 72) (leBytes 4 x.cseq)).collOpen x).setResults c [0, x.cseq]

theorem State.collStarted_eq {u : State} {off : Nat} {x : Coll} (he : u.early = []) (h : u.slot < x.startSlot) :
    u.collStarted c off x = (((u.writeBytes (c.val * 2 ^ 21 + off + 72) (leBytes 4 x.cseq)).withColl x).bump
      Obj.coll_INSTANCES_TOTAL).setResults c [0, x.cseq] := by
  rw [State.collStarted, State.collOpen_ahead (by rw [State.writeBytes_early, he])
    (by rw [State.slot, State.now, State.writeBytes_ft]; exact h)]

@[simp] theorem State.colls_setResults (u : State) (c : Nat) (l : List Nat) : (u.setResults c l).colls = u.colls := rfl
@[simp] theorem State.groups_setResults (u : State) (c : Nat) (l : List Nat) : (u.setResults c l).groups = u.groups := rfl
@[simp] theorem State.mem_setResults (u : State) (c : Nat) (l : List Nat) : (u.setResults c l).mem = u.mem := rfl
@[simp] theorem State.obj_setResults (u : State) (c : Nat) (l : List Nat) (k : Nat) : (u.setResults c l).obj k = u.obj k := rfl
@[simp] theorem State.core_setResults (u : State) (c : Nat) (l : List Nat) : (u.setResults c l).core c = (u.core c).results l :=
  State.core_modCore_same u c _

theorem State.groupSt_withColl (u : State) (x : Coll) (g : Nat) : (u.withColl x).groupSt g =
    if g = x.group then { u.groupSt g with next := ((u.groupSt g).next + 1) % 2 ^ 32 } else u.groupSt g := by
  simp only [State.groupSt, State.withColl, Sparse.modify, Sparse.get_set]
  split
  · rename_i hg; rw [hg]
  · rfl

theorem collRec_ne_INSTANCES {k : Nat} (h : k / 256 < 0x6800) : k ≠ Obj.coll_INSTANCES_TOTAL := by
  rintro rfl
  exact absurd h (by decide)

/-- A byte reads as before where its location's byte and the dictionary's rows of addressing are. -/
theorem State.readByte_congr {s t : State} (ho : ∀ k, k / 256 < 0x6800 → t.obj k = s.obj k) (hm : t.mem = s.mem) (a : Nat) :
    t.readByte a = s.readByte a := by
  rw [State.readByte, State.readByte, State.resolve_congr ho, hm]

/-- A count follows the dictionary it is counted in. -/
theorem State.obj_bump_congr {s t : State} (h : ∀ k, t.obj k = s.obj k) (j k : Nat) : (t.bump j).obj k = (s.bump j).obj k := by
  by_cases hk : k = j
  · subst hk; rw [State.obj_bump_same, State.obj_bump_same, h]
  · rw [State.obj_bump_other _ hk, State.obj_bump_other _ hk, h]

/-- What a context opened ahead of its slot leaves behind. -/
theorem State.collStarted_spec {u : State} {off : Nat} {x : Coll} (he : u.early = []) (h : u.slot < x.startSlot) :
    (u.collStarted c off x).colls = u.colls ++ [x] ∧
    (∀ g, (u.collStarted c off x).groupSt g =
      if g = x.group then { u.groupSt g with next := ((u.groupSt g).next + 1) % 2 ^ 32 } else u.groupSt g) ∧
    (∀ k, (u.collStarted c off x).obj k = (u.bump Obj.coll_INSTANCES_TOTAL).obj k) ∧
    (u.collStarted c off x).mem = (u.writeBytes (c.val * 2 ^ 21 + (off + 72)) (leBytes 4 x.cseq)).mem ∧
    (u.collStarted c off x).core c = (u.core c).results [0, x.cseq] := by
  rw [State.collStarted_eq he h]
  refine ⟨?_, fun g => ?_, fun k => ?_, ?_, ?_⟩
  · rw [State.colls_setResults, State.bump_colls, State.withColl, State.writeBytes_colls]
  · rw [State.groupSt, State.groups_setResults, State.bump_groups, ← State.groupSt, State.groupSt_withColl, State.groupSt,
      State.writeBytes_groups, ← State.groupSt]
  · rw [State.obj_setResults]
    exact State.obj_bump_congr (fun k => State.obj_writeBytes ..) _ k
  · rw [State.mem_setResults, State.bump_mem, Nat.add_assoc]; rfl
  · rw [State.core_setResults, State.core_bump]
    exact congrArg (Core.results · _) (State.core_writeBytes ..)

/-- Settles O20: the state after a start that is not refused is `State.collStarted` of the issued state. -/
theorem collectiveStartsOrIsRefused : Obligations.CollectiveStartsOrIsRefused := by
  intro s₀ s c n hf hp hearly u off x code
  constructor
  · intro hcode
    have hexec : exec (.collStart c) s₀ = .next (u.setResults c [code]) :=
      (exec_collStart hf hp).trans (by dsimp only; rw [State.collStart_refused hcode]; exact congrArg _ (if_neg hcode))
    exact ⟨_, hexec, Issued.results s c (by simp)⟩
  · intro hcode hslot
    have hrec := State.record_inside hcode
    have hexec : exec (.collStart c) s₀ = .next (u.collStarted c off x) :=
      (exec_collStart hf hp).trans (by dsimp only; rw [State.collStart_taken hcode]; rfl)
    have hue : u.early = [] := by show (s.issued c false).early = []; simpa [State.issued] using hearly
    obtain ⟨hcolls, hgroups, hobj, hmem, hcore⟩ := State.collStarted_spec (c := c) (off := off) hue hslot
    obtain ⟨hin, hout⟩ := State.readByte_storeSram u c (o := off + 72) (bs := leBytes 4 x.cseq) (by rw [leBytes_length]; omega)
    have hucolls : u.colls = s.colls := by show (s.issued c false).colls = _; simp [State.issued]
    have hugroup (g : Nat) : u.groupSt g = s.groupSt g := by
      show Sparse.get _ (s.issued c false).groups g = _; simp [State.issued, State.groupSt]
    have hcseq : x.cseq = (s.groupSt x.group).next := congrArg GroupSt.next (hugroup x.group)
    have hread (b : Nat) : (u.collStarted c off x).readByte b =
        (u.writeBytes (c.val * 2 ^ 21 + (off + 72)) (leBytes 4 x.cseq)).readByte b :=
      State.readByte_congr (fun k hk => by
        rw [hobj, State.obj_bump_other _ (collRec_ne_INSTANCES hk), State.obj_writeBytes]) hmem b
    simp only [leBytes_length, State.resolve_issued, u, ← Nat.add_assoc] at hin hout hread
    refine ⟨_, hexec, by rw [← hucolls]; exact hcolls, hcseq, fun g => ?_, ?_, ?_, fun j hj => ?_, fun b hb => ?_⟩
    · refine (hgroups g).trans ?_
      rw [hugroup]
      split
      · rename_i hg
        rw [hg, hcseq]
      · rfl
    · refine (hobj _).trans ?_
      rw [State.obj_bump_same, satN_eq_min, s.obj_issued_other c false
        (by have := c.isLt; simp only [Obj.coll_INSTANCES_TOTAL, Obj.core_OPS_ISSUED, objKey]; omega)]
    · rw [hcore, State.core_issued]
      exact Core.returned_results _ (by simp)
    · refine (congrArg BitVec.toNat ((hread _).trans (hin j hj))).trans ?_
      rw [List.getD_eq_getElem?_getD, leBytes_get _ _ _ hj]
      simp
    · exact (hread b).trans ((hout b hb).trans (by rw [State.readByte_issued]))

/-! ### COLL_WAIT (R302) -/

/-- What COLL_WAIT does once it is counted. -/
def State.collWaited (u : State) (c : Nat) (g q timeout : Nat) : State :=
  match u.collOf g q with
  | none => u.setResults c [0, 2]
  | some x =>
    if u.coreParcel c ≠ some x.parcel then u.setResults c [0, 2]
    else match x.waitResult with
      | some l => ((u.dropColl g q).setResults c l).landHeld
      | none => u.libWait c (.coll g q (u.now + timeout * 1024))

theorem exec_collWait (hf : Fetched s₀ c false s) :
    exec (.collWait c) s₀ = .next ((s.issued c false).collWaited c (s.argReg c 1) (s.argReg c 2 % 2 ^ 32) (s.argReg c 3)) := by
  show execCollWait c s₀ = _
  rw [execCollWait, State.control_next hf.1 hf.2 rfl, ← s.argReg_issued c false, ← s.argReg_issued c false, ← s.argReg_issued c false]
  rfl

theorem State.collOf_issued (g q : Nat) : (s.issued c false).collOf g q = s.collOf g q := by
  simp [State.collOf, State.issued]

section
variable {u : State} {g q timeout : Nat} {x : Coll}

theorem State.collWaited_absent (h : ∀ x, u.collOf g q = some x → u.coreParcel c ≠ some x.parcel) :
    u.collWaited c g q timeout = u.setResults c [0, 2] := by
  unfold State.collWaited
  cases hx : u.collOf g q with
  | none => rfl
  | some x => exact if_pos (h x hx)

theorem State.collWaited_ended {l : List Nat} (hx : u.collOf g q = some x) (hp : u.coreParcel c = some x.parcel)
    (hl : x.waitResult = some l) (he : u.early = []) :
    u.collWaited c g q timeout = (u.dropColl g q).setResults c l := by
  unfold State.collWaited
  rw [hx]
  dsimp only
  rw [if_neg (not_not.2 hp), hl]
  exact State.landHeld_nil he

theorem State.collWaited_open (hx : u.collOf g q = some x) (hp : u.coreParcel c = some x.parcel) (hl : x.waitResult = none) :
    u.collWaited c g q timeout = u.libWait c (.coll g q (u.now + timeout * 1024)) := by
  unfold State.collWaited
  rw [hx]
  dsimp only
  rw [if_neg (not_not.2 hp), hl]

end

theorem Coll.waitResult_ended {x : Coll} (h : x.failed = true ∨ x.written = true) :
    x.waitResult = some (if x.failed then [0, 1] else [x.excess % 16 * 256 + x.status, 0]) := by
  unfold Coll.waitResult
  by_cases hx : x.failed = true
  · rw [if_pos hx, if_pos hx]
  · rw [if_neg hx, if_neg hx, if_pos (h.resolve_left hx)]

theorem State.mem_dropColl {u : State} {g q : Nat} {y : Coll} :
    y ∈ (u.dropColl g q).colls ↔ y ∈ u.colls ∧ ¬ (y.group = g ∧ y.cseq = q) := by
  simp only [State.dropColl, List.mem_filter, Bool.not_eq_true', Bool.and_eq_false_iff, decide_eq_false_iff_not]
  tauto

/-- An issued operation that leaves a core that has not ended inside a routine (R94, R109). -/
theorem Issued.libWait (hf : Fetched s₀ c false s) (he : (s.core c).ended = false) (w : LibWait) :
    Issued c [Obj.core_CORE_STATE c] s ((s.issued c false).libWait c w) ∧
    ((s.issued c false).libWait c w).obj (Obj.core_CORE_STATE c) = 4 ∧
    ((s.issued c false).libWait c w).core c = { (s.core c).moved false with lib := some w } := by
  obtain ⟨-, hi, hstate, hcore⟩ := Issued.held hf he (k := { (s.core c).moved false with lib := some w }) rfl
  have heq : (s.issued c false).libWait c w = (((s.issued c false).setCore c { (s.core c).moved false with lib := some w }).settle c) := by
    rw [State.libWait, State.modCore, State.core_issued]
  rw [heq]
  refine ⟨hi, hstate.trans ?_, hcore⟩
  rw [Core.holdState, Core.hold_moved, hf.hold]; rfl

/-- Settles O21: the three ways of `State.collWaited`. -/
theorem collectiveWaitReturnsItsInstance : Obligations.CollectiveWaitReturnsItsInstance := by
  intro s₀ s c hf he hearly g q
  rw [exec_collWait hf]
  have hparcel := s.coreParcel_issued c false c
  refine ⟨fun h => ?_, fun x hx hp hend => ?_, fun x hx hp hfail hwritten => ?_⟩
  · rw [State.collWaited_absent (fun x hx => by rw [hparcel]; exact h x (State.collOf_issued _ _ ▸ hx))]
    exact ⟨_, rfl, Issued.results s c (by simp)⟩
  · rw [State.collWaited_ended ((State.collOf_issued _ _).trans hx) (hparcel.trans hp) (Coll.waitResult_ended hend)
      (by simpa [State.issued] using hearly)]
    obtain ⟨hi, hret⟩ := Issued.results s c (l := if x.failed then [0, 1] else [x.excess % 16 * 256 + x.status, 0]) (by split <;> simp)
    refine ⟨_, rfl, ?_, fun y => ?_, hret⟩
    · convert hi using 1
      simp [State.setResults, State.dropColl, State.modCore, State.setCore, State.issued, State.core]
    · refine State.mem_dropColl.trans ?_
      rw [show (s.issued c false).colls = s.colls by simp [State.issued]]
  · rw [State.collWaited_open ((State.collOf_issued _ _).trans hx) (hparcel.trans hp)
      (by rw [Coll.waitResult, hfail, hwritten]; rfl), State.now_issued]
    exact ⟨_, rfl, Issued.libWait hf he _⟩

end

end Sys2Proof.Machine
end

section
/-! PROOF. The routines of a job's steps: JOB_START (R348, R349, R355, R356), STEP_BEGIN (R357), and the gathering of STEP_COMMIT,
STEP_REPLAY, PARK and RESTORE (R360, R363, R372). -/

namespace Sys2Proof.Machine

section
variable {s₀ s : State} {c : CoreId} {n : Nat}

/-! ### What issue leaves of a parcel and its job -/

/-- Issue changes no object outside the rows of the cores. -/
theorem State.obj_issued_far {k : Nat} (h : k / 256 < 0x6800 ∨ 0x6C80 ≤ k / 256) : (s.issued c false).obj k = s.obj k :=
  s.obj_issued_other c false (by have := c.isLt; simp only [Obj.core_OPS_ISSUED, objKey]; omega)

@[simp] theorem State.parcel_issued (m : Nat) : (s.issued c false).parcel m = s.parcel m := by simp [State.issued, State.parcel]
@[simp] theorem State.bad_issued : (s.issued c false).bad = s.bad := by simp [State.issued]

theorem State.digest0_issued (hn : n < 4) (seed first : Nat) : (s.issued c false).digest0 n seed first = s.digest0 n seed first := by
  have hobj {k : Nat} (h : k / 256 < 0x6800) : (s.issued c false).obj k = s.obj k := State.obj_issued_far (.inl h)
  unfold State.digest0 State.octBytes
  rw [hobj (by simp only [Obj.pardig_PROGRAM_DIGEST, objKey]; omega), hobj (by simp only [Obj.pardig_WEIGHTS_DIGEST, objKey]; omega),
    hobj (by simp only [Obj.pardig_INPUT_DIGEST, objKey]; omega)]

theorem State.recordBytes_issued (hn : n < 4) : (s.issued c false).recordBytes n = s.recordBytes n := by
  have hobj {k : Nat} (h : k / 256 < 0x6800) : (s.issued c false).obj k = s.obj k := State.obj_issued_far (.inl h)
  unfold State.recordBytes State.recordAddr State.recordBa State.readBytes
  rw [hobj (by simp only [Obj.par_BULK_BASE, objKey]; omega), hobj (by simp only [Obj.par_BULK_SIZE, objKey]; omega)]
  simp only [State.readByte_issued]

theorem State.jobGroupOk_issued (g : Nat) : (s.issued c false).jobGroupOk n g = s.jobGroupOk n g := by
  have hobj {k : Nat} (h : 0x6C80 ≤ k / 256) : (s.issued c false).obj k = s.obj k := State.obj_issued_far (.inr h)
  have hgroup : (s.issued c false).groupOf g = s.groupOf g := by
    unfold State.groupOf
    rw [hobj (by simp only [Obj.grp_ENTRY, objKey]; omega)]
  have hmember (i : Nat) : (s.issued c false).obj (Obj.grp_MEMBER i) = s.obj (Obj.grp_MEMBER i) :=
    hobj (by simp only [Obj.grp_MEMBER, objKey]; omega)
  unfold State.jobGroupOk State.isShadow State.groupMembers State.ownDev
  simp only [hgroup, hmember, State.logicalId_issued]
  rw [hobj (by simp only [Obj.res_SHADOW_TARGET, objKey]; omega)]

theorem State.jobState_issued : (s.issued c false).jobState n = s.jobState n :=
  State.obj_issued_far (.inr (by simp only [Obj.res_JOB_STATE, objKey]; omega))

theorem State.parMode_issued (hn : n < 4) : (s.issued c false).parMode n = s.parMode n :=
  State.obj_issued_far (.inl (by simp only [Obj.par_MODE, objKey]; omega))

theorem State.mustAdopt_issued (g : Nat) : (s.issued c false).mustAdopt n g = s.mustAdopt n g := by
  unfold State.mustAdopt
  rw [State.jobGroupOk_issued, State.jobState_issued, State.parcel_issued,
    State.obj_issued_far (.inr (by simp only [Obj.res_ADOPT_FROM, objKey]; omega))]

@[simp] theorem State.parcel_setResults (u : State) (c : Nat) (l : List Nat) (m : Nat) : (u.setResults c l).parcel m = u.parcel m := rfl
@[simp] theorem State.parcel_setOct (u : State) (k : Nat) (bs : Bytes) (m : Nat) : (u.setOct k bs).parcel m = u.parcel m := rfl
@[simp] theorem State.core_setOct (u : State) (k : Nat) (bs : Bytes) (c : Nat) : (u.setOct k bs).core c = u.core c := rfl
@[simp] theorem State.core_modParcel (u : State) (n : Nat) (f : Parcel → Parcel) (c : Nat) : (u.modParcel n f).core c = u.core c := rfl
theorem State.setOct_modParcel (u : State) (n k : Nat) (f : Parcel → Parcel) (bs : Bytes) :
    (u.modParcel n f).setOct k bs = (u.setOct k bs).modParcel n f := rfl

/-! ### JOB_START (R355) -/

/-- JOB_START in a serving parcel. -/
def State.jobServed (u : State) (n c seed first : Nat) : State :=
  ((u.modParcel n (fun p => { p with seed := BitVec.ofNat 64 seed })).setOct (Obj.pardig_JOB_DIGEST n)
    (u.digest0 n seed first)).setResults c [0, first]

/-- An outcome of JOB_START returned to the first core that calls. -/
def State.jobReturned (r : State × List Nat) (n c : Nat) : State :=
  (r.1.modParcel n (fun p => { p with job := some (r.2, [c]) })).setResults c r.2

/-- An outcome of JOB_START returned to a further core. -/
def State.jobShared (u : State) (n c : Nat) (l cs : List Nat) : State :=
  (u.modParcel n (fun p => { p with job := some (l, c :: cs) })).setResults c l

theorem exec_jobStart_serving (hf : Fetched s₀ c false s) (hp : s.coreParcel c = some n) (hn : n < 4) (hm : s.parMode n ≠ 2) :
    exec (.jobStart c) s₀ = .next ((s.issued c false).jobServed n c (s.argReg c 1) (s.argReg c 2 % 2 ^ 32)) := by
  show execJobStart c s₀ = _
  rw [execJobStart, State.control_next hf.1 hf.2 rfl]
  dsimp only
  rw [State.coreParcel_issued, hp]
  dsimp only
  rw [State.parMode_issued hn, if_pos hm, State.argReg_issued, State.argReg_issued]
  rfl

theorem exec_jobStart_first (hf : Fetched s₀ c false s) (hp : s.coreParcel c = some n) (hn : n < 4) (hm : s.parMode n = 2)
    (ha : (s.parcel n).adopting = none) (hj : (s.parcel n).job = none) (hadopt : s.mustAdopt n (s.argReg c 3 % 2 ^ 16) = false) :
    exec (.jobStart c) s₀ = .next (State.jobReturned
      ((s.issued c false).jobDecide n (s.argReg c 1) (s.argReg c 2 % 2 ^ 32) (s.argReg c 3 % 2 ^ 16)) n c) := by
  show execJobStart c s₀ = _
  rw [execJobStart, State.control_next hf.1 hf.2 rfl]
  dsimp only
  rw [State.coreParcel_issued, hp]
  dsimp only
  rw [State.parMode_issued hn, if_neg (not_not.2 hm), State.parcel_issued, ha, hj]
  simp only [State.argReg_issued, State.mustAdopt_issued, hadopt]
  rfl

theorem exec_jobStart_later (hf : Fetched s₀ c false s) (hp : s.coreParcel c = some n) (hn : n < 4) (hm : s.parMode n = 2)
    {l cs : List Nat} (ha : (s.parcel n).adopting = none) (hj : (s.parcel n).job = some (l, cs)) (hc : c.val ∉ cs) :
    exec (.jobStart c) s₀ = .next ((s.issued c false).jobShared n c l cs) := by
  show execJobStart c s₀ = _
  rw [execJobStart, State.control_next hf.1 hf.2 rfl]
  dsimp only
  rw [State.coreParcel_issued, hp]
  dsimp only
  rw [State.parMode_issued hn, if_neg (not_not.2 hm), State.parcel_issued, ha, hj]
  dsimp only
  rw [if_neg (by simp), if_neg (by simpa using hc)]
  rfl

section
variable {u : State} {seed first g : Nat}

theorem State.firstBad_sound (h : u.bad = []) (w : Bool) (a m : Nat) : u.firstBad w a m = none := if_pos h

theorem State.jobDecide_args (hb : u.bad = []) (hg : u.jobGroupOk n g = false) : u.jobDecide n seed first g = (u, [5]) := by
  unfold State.jobDecide
  rw [State.firstBad_sound hb]
  dsimp only
  rw [hg]
  rfl

theorem State.jobDecide_restart (hb : u.bad = []) (hg : u.jobGroupOk n g = true) (hj : u.jobState n = 7) :
    u.jobDecide n seed first g = (u, [3]) := by
  unfold State.jobDecide
  rw [State.firstBad_sound hb]
  dsimp only
  rw [hg, if_neg (by decide), if_pos hj]

theorem State.jobDecide_fresh (hb : u.bad = []) (hg : u.jobGroupOk n g = true) (hj : u.jobState n ≠ 7)
    (hr : recPresent (u.recordBytes n) = false) (hk : u.obj (Obj.parmem_PARK_STATE n) ≠ 2) :
    u.jobDecide n seed first g = u.jobFresh n seed first g := by
  unfold State.jobDecide
  rw [State.firstBad_sound hb]
  dsimp only
  rw [hg, if_neg (by decide), if_neg hj, hr, if_neg (by simp), if_neg hk, if_neg (by simp)]

end

/-- A core that JOB_START returns to, the core as it was after issue. -/
theorem State.returned_jobReturned {r : State × List Nat} (hcore : r.1.core c = (s.core c).moved false) (hl : r.2.length ≤ 31) :
    Returned (s.core c) ((State.jobReturned r n c).core c) r.2 := by
  rw [State.jobReturned, State.core_setResults]
  show Returned _ ((r.1.core c).results _) _
  rw [hcore]
  exact Core.returned_results _ hl

theorem State.parcel_jobReturned (r : State × List Nat) (n c : Nat) :
    (State.jobReturned r n c).parcel n = { r.1.parcel n with job := some (r.2, [c]) } :=
  State.parcel_modParcel_same r.1 n (fun p => { p with job := some (r.2, [c]) })

theorem State.job_jobReturned (r : State × List Nat) (n c : Nat) : ((State.jobReturned r n c).parcel n).job = some (r.2, [c]) := by
  rw [State.parcel_jobReturned]

theorem State.obj_jobReturned (r : State × List Nat) (n c k : Nat) : (State.jobReturned r n c).obj k = r.1.obj k := rfl
theorem State.groupSt_jobReturned (r : State × List Nat) (n c h : Nat) : (State.jobReturned r n c).groupSt h = r.1.groupSt h := rfl

/-! ### A fresh job (R348, R349, R356) -/

section
variable {u : State} {seed first g m v : Nat} {d : Bytes}

/-- The objects and the parcel's record of a fresh job with D0 `d` and last committed step `m`, before the digest record is written. -/
def State.freshJob (u : State) (n seed g : Nat) (d : Bytes) (m : Nat) : State :=
  ((((u.setOct (Obj.pardig_JOB_DIGEST n) d).setOct (Obj.pardig_RESULT_DIGEST n) d).setObj (Obj.pardig_RESULT_STEP n) m).setObj
    (Obj.res_JOB_GROUP n) g).modParcel n (fun p => { p with seed := BitVec.ofNat 64 seed, attempt := 0 })

/-- A fresh job recorded, its groups' sequence numbers set. -/
def State.freshStart (u : State) (n seed g : Nat) (d : Bytes) (m v : Nat) : State :=
  ((u.freshJob n seed g d m).writeRecord n).setCseqs n v

theorem State.jobFresh_eq (hd : u.digest0 n seed first = d) (hm : (first + 2 ^ 32 - 1) % 2 ^ 32 = m) (hv : stepBase first 0 = v) :
    u.jobFresh n seed first g = (u.freshStart n seed g d m v, [0, first]) := by
  subst hd hm hv; rfl

theorem State.storeBytes_only (h : u.bad = []) (a : Nat) (bs : Bytes) : { (u.storeBytes a bs).1 with mem := u.mem } = u := by
  rw [State.storeBytes, if_pos h]
  exact State.writeBytes_only _ _ _

theorem State.writeRecord_eq (u : State) (n : Nat) : ∃ a bs, u.writeRecord n = (u.storeBytes a bs).1 := ⟨_, _, rfl⟩

/-- With no memory error, the digest record is written into memory and nowhere else. -/
theorem State.writeRecord_only (h : u.bad = []) (n : Nat) :
    (u.writeRecord n).objs = u.objs ∧ (u.writeRecord n).parcels = u.parcels ∧ (u.writeRecord n).cores = u.cores := by
  obtain ⟨a, bs, hw⟩ := u.writeRecord_eq n
  have honly := State.storeBytes_only h a bs
  rw [← hw] at honly
  exact ⟨(congrArg State.objs honly :), (congrArg State.parcels honly :), (congrArg State.cores honly :)⟩

theorem State.bad_freshJob : (u.freshJob n seed g d m).bad = u.bad := rfl

theorem State.parcel_freshJob :
    (u.freshJob n seed g d m).parcel n = { u.parcel n with seed := BitVec.ofNat 64 seed, attempt := 0 } := by
  rw [State.freshJob, State.parcel_modParcel_same]; rfl

theorem State.obj_freshJob {k : Nat} (h₁ : k ≠ Obj.pardig_JOB_DIGEST n) (h₂ : k ≠ Obj.pardig_RESULT_DIGEST n)
    (h₃ : k ≠ Obj.pardig_RESULT_STEP n) (h₄ : k ≠ Obj.res_JOB_GROUP n) : (u.freshJob n seed g d m).obj k = u.obj k := by
  rw [State.freshJob, State.obj_modParcel, State.obj_setObj_other _ _ h₄, State.obj_setObj_other _ _ h₃, State.setOct,
    State.obj_setObj_other _ _ h₂, State.setOct, State.obj_setObj_other _ _ h₁]

theorem State.objs_freshJob : (u.freshJob n seed g d m).obj (Obj.pardig_JOB_DIGEST n) = leNat d ∧
    (u.freshJob n seed g d m).obj (Obj.pardig_RESULT_DIGEST n) = leNat d ∧
    (u.freshJob n seed g d m).obj (Obj.pardig_RESULT_STEP n) = m ∧
    (u.freshJob n seed g d m).obj (Obj.res_JOB_GROUP n) = g := by
  have h₁ : Obj.pardig_JOB_DIGEST n ≠ Obj.res_JOB_GROUP n ∧ Obj.pardig_JOB_DIGEST n ≠ Obj.pardig_RESULT_STEP n ∧
      Obj.pardig_JOB_DIGEST n ≠ Obj.pardig_RESULT_DIGEST n := by
    simp only [Obj.pardig_JOB_DIGEST, Obj.pardig_RESULT_DIGEST, Obj.pardig_RESULT_STEP, Obj.res_JOB_GROUP, objKey]; omega
  have h₂ : Obj.pardig_RESULT_DIGEST n ≠ Obj.res_JOB_GROUP n ∧ Obj.pardig_RESULT_DIGEST n ≠ Obj.pardig_RESULT_STEP n := by
    simp only [Obj.pardig_RESULT_DIGEST, Obj.pardig_RESULT_STEP, Obj.res_JOB_GROUP, objKey]; omega
  have h₃ : Obj.pardig_RESULT_STEP n ≠ Obj.res_JOB_GROUP n := by
    simp only [Obj.pardig_RESULT_STEP, Obj.res_JOB_GROUP, objKey]; omega
  unfold State.freshJob State.setOct
  simp only [State.obj_modParcel]
  refine ⟨?_, ?_, ?_, State.obj_setObj_same _ _ _⟩
  · rw [State.obj_setObj_other _ _ h₁.1, State.obj_setObj_other _ _ h₁.2.1, State.obj_setObj_other _ _ h₁.2.2, State.obj_setObj_same]
  · rw [State.obj_setObj_other _ _ h₂.1, State.obj_setObj_other _ _ h₂.2, State.obj_setObj_same]
  · rw [State.obj_setObj_other _ _ h₃, State.obj_setObj_same]

/-- A fresh job: objects, the parcel's record and cores are those before the digest record is written. -/
theorem State.freshStart_kept (hb : u.bad = []) : (∀ k, (u.freshStart n seed g d m v).obj k = (u.freshJob n seed g d m).obj k) ∧
    (u.freshStart n seed g d m v).parcels = (u.freshJob n seed g d m).parcels ∧
    (u.freshStart n seed g d m v).cores = u.cores := by
  obtain ⟨hobjs, hpar, hcores⟩ := State.writeRecord_only (u := u.freshJob n seed g d m) hb n
  have hst := State.setCseqs_steady ((u.freshJob n seed g d m).writeRecord n) n v
  unfold State.freshStart
  exact ⟨fun k => (hst.objs k id).trans (by rw [State.obj, hobjs, State.obj]), hst.parcels.trans hpar, hst.cores.trans hcores⟩

theorem State.next_freshStart (hn : n < 4) (hb : u.bad = []) {h : Nat} (hh : h ∈ u.groupsOf n) :
    ((u.freshStart n seed g d m v).groupSt h).next = v % 2 ^ 32 := by
  obtain ⟨hobjs, -, -⟩ := State.writeRecord_only (u := u.freshJob n seed g d m) hb n
  rw [State.freshStart, State.next_setCseqs]
  · rw [State.groupsOf_congr u n fun i hi => ?_]
    · exact hh
    · rw [State.obj, hobjs, ← State.obj]
      apply State.obj_freshJob <;>
        simp only [Obj.grp_ENTRY, Obj.pardig_JOB_DIGEST, Obj.pardig_RESULT_DIGEST, Obj.pardig_RESULT_STEP, Obj.res_JOB_GROUP, objKey] <;> omega

end

/-- Results returned beside a change of the parcel's record. -/
theorem Issued.resultsBesideParcel {ks : List Nat} {t : State} (h : Issued c ks s t) (hp : t.parcels = s.parcels) (n : Nat)
    (f : Parcel → Parcel) (l : List Nat) : Issued c ks s { (t.modParcel n f).setResults c l with parcels := s.parcels } := by
  rw [← hp]
  exact h.modCore (·.results l)

theorem State.core_results_modParcel (u : State) (n : Nat) (f : Parcel → Parcel) (c : Nat) (l : List Nat) :
    ((u.modParcel n f).setResults c l).core c = (u.core c).results l := State.core_modCore_same _ c _

theorem State.groupsOf_issued (n : Nat) : (s.issued c false).groupsOf n = s.groupsOf n :=
  State.groupsOf_congr s n fun _ _ => State.obj_issued_far (.inr (by simp only [Obj.grp_ENTRY, objKey]; omega))

/-- Settles O24: the issued state with an outcome returned, the outcome of the first call decided by `State.jobDecide`. -/
theorem jobStartInstallsTheJob : Obligations.JobStartInstallsTheJob := by
  intro s₀ s c n hf hp seed first g
  have hn := State.parcel_lt_of_coreParcel hp
  refine ⟨fun hm => ?_, fun hm ha hj hadopt hb => ?_, fun l cs hm ha hj hc hl => ?_⟩
  · refine ⟨_, exec_jobStart_serving hf hp hn hm, ?_, ?_, ?_, ?_⟩
    · rw [State.jobServed, State.parcel_setResults, State.parcel_setOct, State.parcel_modParcel_same]
    · rw [State.jobServed, State.obj_setResults, State.setOct, State.obj_setObj_same, State.digest0_issued hn]
    · rw [State.jobServed, State.core_setResults, State.core_setOct, State.core_modParcel, State.core_issued]
      exact Core.returned_results _ (by simp)
    · have hi := ((Issued.issued s false c).mono (ls := [Obj.pardig_JOB_DIGEST n]) (by simp)).setObj
        (leNat ((s.issued c false).digest0 n seed first)) (List.mem_singleton.2 rfl)
        (by have := c.isLt; simp only [Obj.pardig_JOB_DIGEST, Obj.core_OPS_ISSUED, objKey]; omega)
      rw [State.jobServed, State.setOct_modParcel]
      exact hi.resultsBesideParcel (by simp [State.issued, State.setObj]) n _ _
  · have hexec := exec_jobStart_first hf hp hn hm ha hj hadopt
    have hub : (s.issued c false).bad = [] := State.bad_issued.trans hb
    refine ⟨fun hg => ?_, fun hg hstate => ?_, fun hg hstate hrec hpark => ?_⟩
    · rw [State.jobDecide_args hub ((State.jobGroupOk_issued g).trans hg)] at hexec
      exact ⟨_, hexec, State.returned_jobReturned (r := (s.issued c false, [5])) (s.core_issued c false) (by simp), State.job_jobReturned (_, [5]) n c⟩
    · rw [State.jobDecide_restart hub ((State.jobGroupOk_issued g).trans hg) (State.jobState_issued.trans hstate)] at hexec
      exact ⟨_, hexec, State.returned_jobReturned (r := (s.issued c false, [3])) (s.core_issued c false) (by simp), State.job_jobReturned (_, [3]) n c⟩
    · have hkeep : (s.issued c false).obj (Obj.parmem_PARK_STATE n) = s.obj (Obj.parmem_PARK_STATE n) :=
        State.obj_issued_far (.inl (by simp only [Obj.parmem_PARK_STATE, objKey]; omega))
      rw [State.jobDecide_fresh hub ((State.jobGroupOk_issued g).trans hg)
        (fun e => hstate (State.jobState_issued.symm.trans e)) ((congrArg recPresent (State.recordBytes_issued hn)).trans hrec)
        (fun e => hpark (hkeep.symm.trans e))] at hexec
      have hm : (first + 2 ^ 32 - 1) % 2 ^ 32 = (first + (2 ^ 32 - 1)) % 2 ^ 32 := by omega
      rw [State.jobFresh_eq (State.digest0_issued hn seed first) hm rfl] at hexec
      generalize ht : (s.issued c false).freshStart n seed g (s.digest0 n seed first) ((first + (2 ^ 32 - 1)) % 2 ^ 32)
        (stepBase first 0) = t at hexec
      obtain ⟨hobj, hpar, hcores⟩ := ht ▸ State.freshStart_kept (n := n) (seed := seed) (g := g) hub
      obtain ⟨h₁, h₂, h₃, h₄⟩ := State.objs_freshJob (u := s.issued c false) (n := n) (seed := seed) (g := g)
        (d := s.digest0 n seed first) (m := (first + (2 ^ 32 - 1)) % 2 ^ 32)
      have hparcel : (State.jobReturned (t, [0, first]) n c).parcel n = { s.parcel n with
          seed := BitVec.ofNat 64 seed, attempt := 0, job := some ([0, first], [c.val]) } := by
        rw [State.parcel_jobReturned, State.parcel, hpar, ← State.parcel, State.parcel_freshJob, State.parcel_issued]
      refine ⟨_, hexec, State.returned_jobReturned (r := (t, [0, first])) ?_ (by simp), State.job_jobReturned (t, [0, first]) n c,
        ?_, ?_, ?_, ?_, ?_, ?_, fun h hh => ?_⟩
      · rw [State.core, hcores]; exact s.core_issued c false
      · rw [hparcel]
      · rw [hparcel]
      · rw [State.obj_jobReturned, hobj, h₁]
      · rw [State.obj_jobReturned, hobj, h₂]
      · rw [State.obj_jobReturned, hobj, h₃]
      · rw [State.obj_jobReturned, hobj, h₄]
      · have hnext := State.next_freshStart (n := n) (seed := seed) (g := g) (d := s.digest0 n seed first)
          (m := (first + (2 ^ 32 - 1)) % 2 ^ 32) (v := stepBase first 0) hn hub (h := h) (by rwa [State.groupsOf_issued])
        rw [ht] at hnext
        rw [State.groupSt_jobReturned, hnext]
        unfold stepBase; omega
  · refine ⟨_, exec_jobStart_later hf hp hn hm ha hj hc, ?_, ?_, ?_⟩
    · rw [State.jobShared, State.core_results_modParcel, State.core_issued]
      exact Core.returned_results _ (by omega)
    · exact congrArg Parcel.job (State.parcel_modParcel_same (s.issued c false) n (fun p => { p with job := some (l, c.val :: cs) }))
    · exact (Issued.issued s false c).resultsBesideParcel (by simp [State.issued]) n _ _

end

end Sys2Proof.Machine
end

section
/-! PROOF. STEP_BEGIN (R357), and the gathering of STEP_COMMIT, STEP_REPLAY, PARK and RESTORE (R360, R363, R372). -/

namespace Sys2Proof.Machine

section
variable {s₀ s : State} {c : CoreId} {n : Nat}

/-! ### STEP_BEGIN (R92, R357) -/

/-- What STEP_BEGIN of a training parcel does once it is counted. -/
def State.stepBegun (u : State) (n c step slot : Nat) : State :=
  if step ≠ u.nextStep n then u.setResults c [1]
  else
    match (u.parcel n).begun with
    | some (m, t) => if m = step ∧ t = slot then (u.setResults c [0]).holdTo c slot else u.setResults c [2]
    | none => ((u.beginStep n step slot).setResults c [0]).holdTo c slot

theorem exec_stepBegin (hf : Fetched s₀ c false s) (hp : s.coreParcel c = some n) (hm : s.parMode n = 2) :
    exec (.stepBegin c) s₀ = .next ((s.issued c false).stepBegun n c (s.argReg c 1 % 2 ^ 32) (s.argReg c 2)) := by
  show execStepBegin c s₀ = _
  rw [execStepBegin, State.control_next hf.1 hf.2 rfl]
  dsimp only
  rw [State.coreParcel_issued, hp]
  dsimp only
  rw [State.parMode_issued (State.parcel_lt_of_coreParcel hp), if_neg (not_not.2 hm), State.argReg_issued, State.argReg_issued]
  rfl

theorem State.nextStep_issued (hn : n < 4) : (s.issued c false).nextStep n = (s.obj (Obj.pardig_RESULT_STEP n) + 1) % 2 ^ 32 := by
  rw [State.nextStep, State.obj_issued_far (.inl (by simp only [Obj.pardig_RESULT_STEP, objKey]; omega))]

/-- The core that a routine returned to and that is held to a slot (R92). -/
def Core.heldTo (k : Core) (slot : Nat) (l : List Nat) : Core := { (k.moved false).results l with hold := .timeWait slot }

theorem Core.returned_heldTo (k : Core) (slot : Nat) {l : List Nat} (hl : l.length ≤ 31) :
    Returned { k with hold := .timeWait slot } (k.heldTo slot l) l :=
  ⟨congrArg (fun x : Core => { x with hold := .timeWait slot, pos := k.pos, lib := k.lib, libLoops := k.libLoops })
    ((k.moved false).results_only l), fun r => Core.reg_results _ hl r⟩

theorem Core.ended_heldTo (k : Core) (slot : Nat) (l : List Nat) : (k.heldTo slot l).ended = k.ended :=
  (congrArg Core.ended ((k.moved false).results_only l) :)

/-- A core that issued, held to a slot still to come: the rest of the state is as the routine left it. -/
theorem State.holdTo_ahead (hf : Fetched s₀ c false s) (he : (s.core c).ended = false) {t : State} {slot : Nat} {l : List Nat}
    (hcore : t.core c = ((s.core c).moved false).results l) (hstate : t.coreState c = s.coreState c) (hnow : t.now < slot * 1024) :
    t.holdTo c slot = (t.setCore c ((s.core c).heldTo slot l)).setCoreState c 2 := by
  rw [State.holdTo, if_pos hnow, State.modCore, hcore]
  show State.settle (t.setCore c ((s.core c).heldTo slot l)) c = _
  rw [State.settle_issued hf, State.core_setCore_same]
  · rfl
  · exact hstate
  · rw [State.core_setCore_same, Core.ended_heldTo, he]

/-- A parcel's record at the first STEP_BEGIN of a step in attempt `a`: the log of the attempt starts empty. -/
def Parcel.begunAt (step slot a : Nat) (p : Parcel) : Parcel :=
  { p with
    log := if a = 0 then [] else p.log.filter (fun e => decide (e.attempt ≠ 1)), logFull := false, stepErr := false,
    begun := some (step, slot) }

/-- The first STEP_BEGIN of a step in attempt `a`: the parcel's record and three objects. -/
def State.begunStep (w : State) (n step slot a j : Nat) : State :=
  (((w.modParcel n (Parcel.begunAt step slot a)).setObj (Obj.res_STEP_IN_FLIGHT n) step).setObj (Obj.res_STEP_T0 n) slot).setObj
    (Obj.res_JOB_STATE n) j

theorem State.beginStep_eq (u : State) (n step slot : Nat) : u.beginStep n step slot =
    (u.setCseqs n (stepBase step (u.parcel n).attempt + 1)).begunStep n step slot (u.parcel n).attempt
      (if (u.parcel n).attempt = 0 then 1 else 5) := rfl

section
variable {w : State} {step slot a j : Nat}

theorem State.begunStep_kept : (w.begunStep n step slot a j).cores = w.cores ∧ (w.begunStep n step slot a j).mem = w.mem ∧
    (w.begunStep n step slot a j).ft = w.ft ∧ (w.begunStep n step slot a j).groups = w.groups := ⟨rfl, rfl, rfl, rfl⟩

theorem State.begun_begunStep : ((w.begunStep n step slot a j).parcel n).begun = some (step, slot) := by
  show ((w.modParcel n (Parcel.begunAt step slot a)).parcel n).begun = _
  rw [State.parcel_modParcel_same]; rfl

theorem State.objs_begunStep : (w.begunStep n step slot a j).obj (Obj.res_STEP_IN_FLIGHT n) = step ∧
    (w.begunStep n step slot a j).obj (Obj.res_STEP_T0 n) = slot ∧
    (w.begunStep n step slot a j).obj (Obj.res_JOB_STATE n) = j := by
  have hne : Obj.res_STEP_IN_FLIGHT n ≠ Obj.res_JOB_STATE n ∧ Obj.res_STEP_IN_FLIGHT n ≠ Obj.res_STEP_T0 n ∧
      Obj.res_STEP_T0 n ≠ Obj.res_JOB_STATE n := by
    simp only [Obj.res_STEP_IN_FLIGHT, Obj.res_JOB_STATE, Obj.res_STEP_T0, objKey]; omega
  rw [State.begunStep]
  exact ⟨by rw [State.obj_setObj_other _ _ hne.1, State.obj_setObj_other _ _ hne.2.1, State.obj_setObj_same],
    by rw [State.obj_setObj_other _ _ hne.2.2, State.obj_setObj_same], State.obj_setObj_same _ _ _⟩

theorem State.obj_begunStep_other {k : Nat} (h : k / 256 < 0x8300) : (w.begunStep n step slot a j).obj k = w.obj k := by
  have hkeys : k ≠ Obj.res_STEP_IN_FLIGHT n ∧ k ≠ Obj.res_STEP_T0 n ∧ k ≠ Obj.res_JOB_STATE n := by
    simp only [Obj.res_STEP_IN_FLIGHT, Obj.res_JOB_STATE, Obj.res_STEP_T0, objKey]; omega
  rw [State.begunStep, State.obj_setObj_other _ _ hkeys.2.2, State.obj_setObj_other _ _ hkeys.2.1, State.obj_setObj_other _ _ hkeys.1,
    State.obj_modParcel]

end

/-- Holding a core changes no object outside the rows of the cores. -/
theorem State.obj_heldTo {u : State} {k : Core} {v j : Nat} (h : j / 256 < 0x6800 ∨ 0x6C80 ≤ j / 256) :
    ((u.setCore c k).setCoreState c v).obj j = u.obj j :=
  State.obj_setObj_other _ _ (by have := c.isLt; simp only [Obj.core_CORE_STATE, objKey]; omega)

/-- Settles O25: the ways of `State.stepBegun`, the core held to the slot in two of them. -/
theorem stepBeginStartsTheNextStep : Obligations.StepBeginStartsTheNextStep := by
  intro s₀ s c n hf he hp hm step slot
  have hn := State.parcel_lt_of_coreParcel hp
  have hexec := exec_stepBegin hf hp hm
  have hcs := s.coreState_issued c false
  rw [State.stepBegun, State.nextStep_issued hn, State.parcel_issued] at hexec
  refine ⟨fun hstep => ?_, fun hstep hb hnow => ?_, fun m y hstep hb => ?_⟩
  · rw [if_pos hstep] at hexec
    exact ⟨_, hexec, Issued.results s c (by simp)⟩
  · rw [if_neg (not_not.2 hstep), hb] at hexec
    dsimp only at hexec
    rw [State.beginStep_eq, State.parcel_issued] at hexec
    generalize hv : stepBase step (s.parcel n).attempt + 1 = v at hexec
    generalize hj : (if (s.parcel n).attempt = 0 then 1 else 5) = j at hexec
    have hst := (s.issued c false).setCseqs_steady n v
    have hnext {h : Nat} (hh : h ∈ s.groupsOf n) : (((s.issued c false).setCseqs n v).groupSt h).next = v % 2 ^ 32 :=
      State.next_setCseqs _ n v (by rwa [State.groupsOf_issued])
    generalize (s.issued c false).setCseqs n v = w at hexec hst hnext
    obtain ⟨hcores, hmem, hft, hgroups⟩ := State.begunStep_kept (w := w) (n := n) (step := step) (slot := slot)
      (a := (s.parcel n).attempt) (j := j)
    obtain ⟨h₁, h₂, h₃⟩ := State.objs_begunStep (w := w) (n := n) (step := step) (slot := slot)
      (a := (s.parcel n).attempt) (j := j)
    have hbegun := State.begun_begunStep (w := w) (n := n) (step := step) (slot := slot) (a := (s.parcel n).attempt) (j := j)
    have hstate : (w.begunStep n step slot (s.parcel n).attempt j).coreState c = s.coreState c :=
      (State.obj_begunStep_other (by have := c.isLt; simp only [Obj.core_CORE_STATE, objKey]; omega)).trans
        ((hst.objs _ id).trans hcs)
    generalize w.begunStep n step slot (s.parcel n).attempt j = x at *
    rw [State.holdTo_ahead (l := [0]) hf he] at hexec
    · refine ⟨_, hexec, ?_, ?_, ?_, ?_, fun h hh => ?_, ?_, ?_, ?_⟩
      · rw [State.obj_heldTo (.inr (by simp only [Obj.res_STEP_IN_FLIGHT, objKey]; omega)), State.obj_setResults, h₁]
      · rw [State.obj_heldTo (.inr (by simp only [Obj.res_STEP_T0, objKey]; omega)), State.obj_setResults, h₂]
      · rw [State.obj_heldTo (.inr (by simp only [Obj.res_JOB_STATE, objKey]; omega)), State.obj_setResults, h₃]
      · exact hbegun
      · refine (congrArg (fun m => (Sparse.get ⟨0, 0, 0⟩ m h).next) hgroups).trans ((hnext hh).trans ?_)
        rw [← hv]; unfold stepBase; omega
      · rw [State.setCoreState, State.core_setObj, State.core_setCore_same]
        exact Core.returned_heldTo _ _ (by simp)
      · exact State.obj_setObj_same _ _ _
      · exact hmem.trans (hst.mem.trans (State.mem_issued ..))
    · rw [State.core_setResults, State.core, hcores, hst.cores, ← State.core, State.core_issued]
    · exact hstate
    · show x.ft.toNat < _
      rw [hft, hst.ft]
      exact (s.now_issued c false).trans_lt hnow
  · rw [if_neg (not_not.2 hstep), hb] at hexec
    dsimp only at hexec
    refine ⟨fun hne => ?_, fun hm hy hnow => ?_⟩
    · rw [if_neg hne] at hexec
      exact ⟨_, hexec, Issued.results s c (by simp)⟩
    · rw [if_pos ⟨hm, hy⟩, State.holdTo_ahead (l := [0]) hf he] at hexec
      · obtain ⟨hi, -⟩ := Issued.results s c (l := [0]) (by simp)
        refine ⟨_, hexec, ((hi.mono (by simp)).setCore _).setObj 2 (List.mem_singleton.2 rfl) ?_, ?_, State.obj_setObj_same _ _ _⟩
        · simp [Obj.core_CORE_STATE, Obj.core_OPS_ISSUED, objKey]
        · rw [State.setCoreState, State.core_setObj, State.core_setCore_same]
          exact Core.returned_heldTo _ _ (by simp)
      · rw [State.core_setResults, State.core_issued]
      · exact hcs
      · exact (s.now_issued c false).trans_lt hnow

end

end Sys2Proof.Machine
end

section
/-! PROOF. The gathering of the calls of STEP_COMMIT, STEP_REPLAY, PARK and RESTORE (R178, R360, R363, R372). -/

namespace Sys2Proof.Machine

section
variable {s₀ s : State} {c : CoreId} {n : Nat}

/-! ### A core inside a routine (R94, R109) -/

/-- A core past its operation, inside a routine, and its CORE_STATE. -/
def State.inRoutine (t : State) (c : Nat) (k : Core) (w : LibWait) : State :=
  (t.setCore c { k.moved false with lib := some w }).setCoreState c 4

/-- The core that issued waits inside a routine: the rest of the state is as the routine left it. -/
theorem State.libWait_eq (hf : Fetched s₀ c false s) (he : (s.core c).ended = false) {t : State}
    (hcore : t.core c = (s.core c).moved false) (hstate : t.coreState c = s.coreState c) (w : LibWait) :
    t.libWait c w = t.inRoutine c (s.core c) w := by
  have hhold : Core.holdState { (s.core c).moved false with lib := some w } = 4 := by
    rw [Core.holdState, Core.hold_moved, hf.hold]; rfl
  rw [State.libWait, State.modCore, hcore, State.settle_issued hf, State.core_setCore_same, hhold]
  · rfl
  · exact hstate
  · rw [State.core_setCore_same]; exact he

section
variable {t : State} {k : Core} {w : LibWait}

theorem State.core_inRoutine : (t.inRoutine c k w).core c = { k.moved false with lib := some w } := by
  rw [State.inRoutine, State.setCoreState, State.core_setObj, State.core_setCore_same]

theorem State.coreState_inRoutine : (t.inRoutine c k w).obj (Obj.core_CORE_STATE c) = 4 := State.obj_setObj_same _ _ _
theorem State.parcel_inRoutine : (t.inRoutine c k w).parcel n = t.parcel n := rfl
theorem State.mem_inRoutine : (t.inRoutine c k w).mem = t.mem := rfl

end

/-- An issued operation that leaves a core inside a routine beside a change of the parcel's record. -/
theorem Issued.inRoutine (s : State) (c : CoreId) (n : Nat) (f : Parcel → Parcel) (w : LibWait) :
    Issued c [Obj.core_CORE_STATE c] s
      { ((s.issued c false).modParcel n f).inRoutine c (s.core c) w with parcels := s.parcels } := by
  have hi := (((Issued.issued s false c).mono (ls := [Obj.core_CORE_STATE c]) (by simp)).setCore
    { (s.core c).moved false with lib := some w }).setObj 4 (List.mem_singleton.2 rfl)
    (by simp [Obj.core_CORE_STATE, Obj.core_OPS_ISSUED, objKey])
  have hpar : (s.issued c false).parcels = s.parcels := by simp [State.issued]
  rw [← hpar]
  exact hi

/-! ### STEP_COMMIT (R360) -/

/-- The commit of a parcel's record with one more caller. -/
def Parcel.joined (p : Parcel) (c step tc opts : Nat) (ds : Bytes) (first : Bool) : CommitRec :=
  let r := p.commit.getD ⟨step, tc, opts, ds, [], none, 0, false⟩
  { r with cores := c :: r.cores.erase c, digests := if first then ds else r.digests }

theorem State.joinCommit_eq (u : State) (n c step tc opts : Nat) (ds : Bytes) : u.joinCommit n c step tc opts ds =
    u.modParcel n (fun p => { p with commit := some (p.joined c step tc opts ds (decide ((u.mapped n).head? = some c))) }) := rfl

theorem Parcel.joined_first {p : Parcel} (h : p.commit = none) (c step tc opts : Nat) (ds : Bytes) (first : Bool) :
    p.joined c step tc opts ds first = ⟨step, tc, opts, ds, [c], none, 0, false⟩ := by
  simp [Parcel.joined, h]

theorem Parcel.joined_later {p : Parcel} {o : CommitRec} (h : p.commit = some o) (c step tc opts : Nat) (ds : Bytes) (first : Bool) :
    p.joined c step tc opts ds first = { o with cores := c :: o.cores.erase c, digests := if first then ds else o.digests } := by
  simp [Parcel.joined, h]

/-- A caller joins those before it. -/
theorem mem_cons_erase {b c : Nat} {l : List Nat} : b ∈ c :: l.erase c ↔ b = c ∨ b ∈ l := by
  rw [List.mem_cons]
  refine ⟨Or.imp_right List.mem_of_mem_erase, fun h => ?_⟩
  by_cases e : b = c
  · exact .inl e
  · exact .inr ((List.mem_erase_of_ne e).2 (h.resolve_left e))

theorem State.readBytes_issued (a m : Nat) : (s.issued c false).readBytes a m = s.readBytes a m := by
  simp only [State.readBytes, State.readByte_issued]

theorem exec_stepCommit (hf : Fetched s₀ c false s) (he : (s.core c).ended = false) (hp : s.coreParcel c = some n) (hm : s.parMode n = 2)
    (hcount : s.argReg c 4 ≤ 64) (hopts : s.argReg c 3 ≤ 1) (hend : s.argReg c 5 + 32 * s.argReg c 4 ≤ 2 ^ 21) :
    ∃ first, exec (.stepCommit c) s₀ = .next (((s.issued c false).modParcel n (fun p => { p with commit := some (p.joined c
      (s.argReg c 1 % 2 ^ 32) (s.argReg c 2) (s.argReg c 3) (s.readBytes (c.val * 2 ^ 21 + s.argReg c 5) (32 * s.argReg c 4))
        first) })).inRoutine c (s.core c) .commit) := by
  have harg (i : Nat) : s₀.argReg c i = s.argReg c i := by rw [State.argReg, State.argReg, hf.same.reg]
  have hcheck : need (decide (s.argReg c 4 ≤ 64) && decide (s.argReg c 3 ≤ 1)) fFmtCombo ++
      sramCheck (s.argReg c 5) (32 * min (s.argReg c 4) 64) 1 = [] := by
    rw [Nat.min_eq_left hcount, sramCheck_ok hend (Nat.mod_one _), decide_eq_true hcount, decide_eq_true hopts]; rfl
  refine ⟨decide (((s.issued c false).mapped n).head? = some c.val), ?_⟩
  show execStepCommit c s₀ = _
  rw [execStepCommit]
  simp only [harg]
  rw [State.control_next hf.1 hf.2 hcheck]
  simp only [State.coreParcel_issued, hp, State.parMode_issued (State.parcel_lt_of_coreParcel hp), State.argReg_issued,
    State.readBytes_issued]
  rw [if_neg (not_not.2 hm), State.joinCommit_eq, State.libWait_eq hf he]
  · rfl
  · rw [State.core_modParcel, State.core_issued]
  · exact s.coreState_issued c false

/-! ### STEP_REPLAY, PARK and RESTORE (R178, R363, R372) -/

/-- Cores mapped before are mapped where the die masks and their mappings are the same. -/
theorem State.mapped_congr {t : State} (ho : ∀ m < 4, t.obj (Obj.par_DIE_MASK m) = s.obj (Obj.par_DIE_MASK m))
    (hc : ∀ b, (t.core b).mapped = (s.core b).mapped) : ∀ b ∈ s.mapped n, b ∈ t.mapped n := by
  intro b hb
  rw [State.mem_mapped] at hb ⊢
  rw [State.coreParcel_congr ho, hc]
  exact hb

theorem State.allIn_false {t : State} {cs ds : List Nat} (h : s.allIn n cs = false) (hm : ∀ b ∈ s.mapped n, b ∈ t.mapped n)
    (hd : ∀ b ∈ ds, b ∈ cs) : t.allIn n ds = false := by
  simp only [State.allIn, List.all_eq_false, List.contains_iff_mem] at h ⊢
  obtain ⟨b, hb, hnot⟩ := h
  exact ⟨b, hm b hb, fun e => hnot (hd b e)⟩

/-- A parcel's record with one more caller. -/
def Parcel.called (c now : Nat) (p : Parcel) : Parcel :=
  { p with calls := c :: p.calls.erase c, callsAt := if p.calls = [] then now else p.callsAt }

theorem State.joinCall_eq (u : State) (n c : Nat) : u.joinCall n c = u.modParcel n (Parcel.called c u.now) := rfl

/-- A core called from `u`: the core waits inside the routine, its call joined. -/
def State.callJoined (u : State) (n : Nat) (c : CoreId) (k : Core) (w : LibWait) : State :=
  (u.modParcel n (Parcel.called c u.now)).inRoutine c k w

section
variable {u : State} {w : LibWait}

theorem State.joinCall_libWait (hf : Fetched s₀ c false s) (he : (s.core c).ended = false) (hcore : u.core c = (s.core c).moved false)
    (hstate : u.coreState c = s.coreState c) : (u.joinCall n c).libWait c w = u.callJoined n c (s.core c) w := by
  rw [State.joinCall_eq, State.libWait_eq (t := u.modParcel n _) hf he (by rw [State.core_modParcel, hcore]) hstate]
  rfl

theorem State.calls_callJoined (k : Core) : ((u.callJoined n c k w).parcel n).calls = c.val :: (u.parcel n).calls.erase c := by
  rw [State.callJoined, State.parcel_inRoutine, State.parcel_modParcel_same]; rfl

/-- While another mapped core has yet to call, not all are in. -/
theorem State.allIn_callJoined (h : s.allIn n (c.val :: (s.parcel n).calls) = false)
    (ho : ∀ m < 4, u.obj (Obj.par_DIE_MASK m) = s.obj (Obj.par_DIE_MASK m)) (hpar : u.parcel n = s.parcel n)
    (hothers : ∀ b, b ≠ c.val → u.core b = s.core b) :
    (u.callJoined n c (s.core c) w).allIn n ((u.callJoined n c (s.core c) w).parcel n).calls = false := by
  refine State.allIn_false h (State.mapped_congr (fun m hm => ?_) (fun b => ?_)) (fun b hb => ?_)
  · rw [← ho m hm]
    exact State.obj_heldTo (.inl (by simp only [Obj.par_DIE_MASK, objKey]; omega))
  · by_cases hb : b = c.val
    · subst hb; rw [State.callJoined, State.core_inRoutine]; rfl
    · rw [State.callJoined, State.inRoutine, State.setCoreState, State.core_setObj, State.core_setCore_other _ _ hb,
        State.core_modParcel, hothers b hb]
  · rw [State.calls_callJoined, hpar, mem_cons_erase] at hb
    rwa [List.mem_cons]

end

/-- The issued state before the first call of STEP_REPLAY marks its step boundary (R169). -/
def State.bounded (u : State) (n : Nat) : State := if (u.parcel n).calls = [] then u.boundary n else u

/-- The objects of a step boundary lie at the parcel's memory and fabric rows. -/
theorem State.boundary_steady (u : State) (n : Nat) : Steady (fun k => k / 256 = 0x5100 + n ∨ k / 256 = 0x4100 + n) u (u.boundary n) := by
  have hkey {i j : Nat} (h : j < 256) : objKey i j / 256 = i := objKey_idx h
  have h₀ : Steady (fun k => k / 256 = 0x5100 + n ∨ k / 256 = 0x4100 + n) u
      { u with env := { u.env with due := (u.dies n).foldl (fun m k => m ||| 2 ^ k) u.env.due } } :=
    ⟨⟨rfl, rfl, fun _ _ => rfl⟩, rfl, rfl, rfl, rfl, rfl, rfl, id⟩
  exact (((((h₀.setObj _ (.inl (hkey (by decide)))).setObj _ (.inl (hkey (by decide)))).setObj _ (.inl (hkey (by decide)))).setObj _
    (.inl (hkey (by decide)))).setObj _ (.inr (hkey (by decide)))).setObj _ (.inr (hkey (by decide)))

theorem State.bounded_steady (u : State) (n : Nat) : Steady (fun k => k / 256 = 0x5100 + n ∨ k / 256 = 0x4100 + n) u (u.bounded n) :=
  (u.boundary_steady n).ite (Steady.refl _ u)

/-- What issue leaves of the mapped cores. -/
theorem State.dieMask_issued {m : Nat} (hm : m < 4) : (s.issued c false).obj (Obj.par_DIE_MASK m) = s.obj (Obj.par_DIE_MASK m) :=
  State.obj_issued_far (.inl (by simp only [Obj.par_DIE_MASK, objKey]; omega))

theorem State.allIn_issued (w : LibWait) (h : s.allIn n (c.val :: (s.parcel n).calls) = false) :
    ((s.issued c false).callJoined n c (s.core c) w).allIn n (((s.issued c false).callJoined n c (s.core c) w).parcel n).calls = false :=
  State.allIn_callJoined h (fun _ => State.dieMask_issued) (State.parcel_issued n) (fun _ => s.core_issued_other c false)

theorem exec_park (hf : Fetched s₀ c false s) (he : (s.core c).ended = false) (hp : s.coreParcel c = some n) (hm : s.parMode n = 2)
    (h : s.allIn n (c.val :: (s.parcel n).calls) = false) :
    exec (.park c) s₀ = .next ((s.issued c false).callJoined n c (s.core c) .park) := by
  show execPark c s₀ = _
  rw [execPark, State.control_next hf.1 hf.2 rfl]
  dsimp only
  rw [State.coreParcel_issued, hp]
  dsimp only
  rw [State.parMode_issued (State.parcel_lt_of_coreParcel hp), if_neg (not_not.2 hm),
    State.joinCall_libWait hf he (s.core_issued c false) (s.coreState_issued c false), State.allIn_issued _ h]
  rfl

theorem exec_restore (hf : Fetched s₀ c false s) (he : (s.core c).ended = false) (hp : s.coreParcel c = some n) (hm : s.parMode n = 2)
    (h : s.allIn n (c.val :: (s.parcel n).calls) = false) :
    exec (.restore c) s₀ = .next ((s.issued c false).callJoined n c (s.core c) .restore) := by
  show execRestore c s₀ = _
  rw [execRestore, State.control_next hf.1 hf.2 rfl]
  dsimp only
  rw [State.coreParcel_issued, hp]
  dsimp only
  rw [State.parMode_issued (State.parcel_lt_of_coreParcel hp), if_neg (not_not.2 hm),
    State.joinCall_libWait hf he (s.core_issued c false) (s.coreState_issued c false), State.allIn_issued _ h]
  rfl

/-- The ready agreement starts once every mapped core has called. -/
def State.startReady (t : State) (n : Nat) : State :=
  if (t.parcel n).ready = none ∧ t.allIn n (t.parcel n).calls then t.readyStart n else t

theorem exec_stepReplay (hf : Fetched s₀ c false s) (he : (s.core c).ended = false) (hp : s.coreParcel c = some n) (hm : s.parMode n = 2)
    (h : s.allIn n (c.val :: (s.parcel n).calls) = false) :
    exec (.stepReplay c) s₀ = .next (((s.issued c false).bounded n).callJoined n c (s.core c) .ready) := by
  have hn := State.parcel_lt_of_coreParcel hp
  have hst := (s.issued c false).bounded_steady n
  have hcore (b : Nat) : ((s.issued c false).bounded n).core b = (s.issued c false).core b := by
    rw [State.core, hst.cores, ← State.core]
  have hobj {k : Nat} (hk : 0x6100 ≤ k / 256) : ((s.issued c false).bounded n).obj k = (s.issued c false).obj k :=
    hst.objs k (by omega)
  have hstate : ((s.issued c false).bounded n).coreState c = s.coreState c :=
    (hobj (by simp only [Obj.core_CORE_STATE, objKey]; omega)).trans (s.coreState_issued c false)
  have hall := State.allIn_callJoined (u := (s.issued c false).bounded n) (w := .ready) h
    (fun m hm => (hobj (by simp only [Obj.par_DIE_MASK, objKey]; omega)).trans (State.dieMask_issued hm))
    ((hst.parcel n).trans (State.parcel_issued n)) (fun b hb => (hcore b).trans (s.core_issued_other c false hb))
  show execStepReplay c s₀ = _
  rw [execStepReplay, State.control_next hf.1 hf.2 rfl]
  dsimp only
  rw [State.coreParcel_issued, hp]
  dsimp only
  rw [State.parMode_issued hn, if_neg (not_not.2 hm)]
  show Host.Outcome.next (State.startReady (((((s.issued c false).bounded n).joinCall n c).libWait c .ready)) n) = _
  rw [State.joinCall_libWait hf he ((hcore c).trans (s.core_issued c false)) hstate, State.startReady, hall, if_neg (by simp)]

/-- Settles O26: each call leaves the issued state with the parcel's record joined and the core inside the routine. -/
theorem stepRoutinesGatherTheirCalls : Obligations.StepRoutinesGatherTheirCalls := by
  intro s₀ s c n hf he hp hm
  refine ⟨fun hcount hopts hend => ?_, fun h => ⟨?_, ?_, ?_⟩⟩
  · obtain ⟨first, hexec⟩ := exec_stepCommit hf he hp hm hcount hopts hend
    refine ⟨_, (s.parcel n).joined c (s.argReg c 1 % 2 ^ 32) (s.argReg c 2) (s.argReg c 3)
      (s.readBytes (c.val * 2 ^ 21 + s.argReg c 5) (32 * s.argReg c 4)) first, hexec, ?_, ?_, fun hnone => ?_, fun o ho => ?_, Issued.inRoutine s c n _ _, State.coreState_inRoutine,
      State.core_inRoutine⟩
    · rw [State.parcel_inRoutine, State.parcel_modParcel_same, State.parcel_issued]
    · exact List.mem_cons_self
    · rw [Parcel.joined_first hnone]
      exact ⟨rfl, rfl, rfl, rfl, rfl⟩
    · rw [Parcel.joined_later ho]
      exact ⟨rfl, rfl, rfl, fun b hb => mem_cons_erase.2 (.inr hb)⟩
  · refine ⟨_, exec_stepReplay hf he hp hm h, fun b => ?_, State.core_inRoutine, State.coreState_inRoutine, ?_⟩
    · rw [State.calls_callJoined, ((s.issued c false).bounded_steady n).parcel, State.parcel_issued, mem_cons_erase]
    · exact ((s.issued c false).bounded_steady n).mem.trans (State.mem_issued ..)
  · refine ⟨_, exec_park hf he hp hm h, fun b => ?_, Issued.inRoutine s c n _ _, State.core_inRoutine, State.coreState_inRoutine⟩
    rw [State.calls_callJoined, State.parcel_issued, mem_cons_erase]
  · refine ⟨_, exec_restore hf he hp hm h, fun b => ?_, Issued.inRoutine s c n _ _, State.core_inRoutine, State.coreState_inRoutine⟩
    rw [State.calls_callJoined, State.parcel_issued, mem_cons_erase]

end

end Sys2Proof.Machine
end

section
/-! PROOF. An admitted request carried out and answered (R96, R97, R171, R191 to R197). -/

namespace Sys2Proof.Machine

/-! ### Bytes written (R157, R176) -/

/-- A store writes its bytes in order, and nothing outside their locations. -/
theorem Wrote.writeBytes (s : State) (a : Nat) (bs : Bytes) : Wrote a bs s (s.writeBytes a bs) := by
  induction bs generalizing s a with
  | nil => exact ⟨fun j hj => absurd hj (Nat.not_lt_zero j), fun k _ => rfl⟩
  | cons b bs ih =>
    obtain ⟨hin, hout⟩ := ih (s.pokeByte (s.resolve true a) b) (a + 1)
    have hres (x : Nat) : (s.pokeByte (s.resolve true a) b).resolve true x = s.resolve true x := rfl
    simp only [hres, Nat.add_right_comm a 1] at hin hout
    constructor
    · intro j hj hlast
      cases j with
      | zero =>
        refine (hout (s.resolve true a) fun i hi => ?_).trans ((State.mem_pokeByte ..).trans (if_pos rfl))
        exact hlast (i + 1) (Nat.succ_pos i) (Nat.succ_lt_succ hi)
      | succ j =>
        exact hin j (Nat.lt_of_succ_lt_succ hj) fun i hi hlen => hlast (i + 1) (Nat.succ_lt_succ hi) (Nat.succ_lt_succ hlen)
    · intro k hk
      refine (hout k fun j hj => hk (j + 1) (Nat.succ_lt_succ hj)).trans ((State.mem_pokeByte ..).trans (if_neg ?_))
      exact fun e => hk 0 (Nat.succ_pos _) e.symm

/-- Memory written alike from a state that addresses alike. -/
theorem Wrote.congr {s s' t t' : State} {a : Nat} {bs : Bytes} (h : Wrote a bs s' t') (hr : ∀ x, s'.resolve true x = s.resolve true x)
    (hs : s'.mem = s.mem) (ht : t.mem = t'.mem) : Wrote a bs s t := by
  obtain ⟨hin, hout⟩ := h
  simp only [hr, hs] at hin hout
  exact ⟨by rw [ht]; exact hin, by rw [ht]; exact hout⟩

section
variable {s : State} {at_ : RxAt} {k : Packet} {n : Nat}

/-! ### Requests admitted (R191, R196) -/

/-- A served request answered, a refused range counted at its port. -/
def State.answerServed (r : State × Answer) (at_ : RxAt) (k : Packet) : State :=
  (if r.2.status = stAddrRange then r.1.refuseRx at_ else r.1).respond at_ k r.2.status r.2.payload

/-- An admitted request of a sender of the fabric is served and answered where it was delivered. -/
theorem State.settleRequest_ok {u w : State} {bs : Bytes} (hsvc : at_.service = false)
    (hw : u.serve k k.srcCore.toNat k.src.toNat = (w, ⟨stOk, bs⟩)) :
    u.settleRequest at_ k none (.ok n) = w.inject (w.deliverTo k) (w.response k stOk bs) := by
  show State.answerServed (u.serve k k.srcCore.toNat k.src.toNat) at_ k = _
  rw [hw]
  show State.respond w at_ k stOk bs = _
  rw [State.respond, State.reply, hsvc]
  rfl

/-- A request that stands received and admitted for parcel `n`. -/
theorem State.takeRequest_admitted (h : Arrived s at_ k) (ha : (s.taken at_ k).admission at_.port.isNone k = .ok n)
    {w : State} {bs : Bytes} (hw : (s.taken at_ k).serve k k.srcCore.toNat k.src.toNat = (w, ⟨stOk, bs⟩)) :
    s.takeRequest at_ k = w.inject (w.deliverTo k) (w.response k stOk bs) := by
  obtain ⟨-, hsvc, -, hok, hdst⟩ := h
  have hlim : (s.taken at_ k).lenLimit at_ = 4096 := by
    unfold RxAt.service at hsvc
    unfold State.lenLimit
    split
    · rename_i p hp
      rw [hp] at hsvc
      exact if_neg (by simpa using hsvc)
    · rfl
  have hcheck : (s.taken at_ k).checkRequest at_ k = ⟨s.taken at_ k, some none⟩ := by
    rw [State.checkRequest, hlim, hok, hsvc]
    exact if_neg (not_not.2 hdst)
  unfold State.takeRequest
  rw [hcheck]
  dsimp only
  rw [ha, State.settleRequest_ok hsvc hw]

/-- The response to a request joins the packets of the endpoint the request was delivered to. -/
theorem Answered.inject (w : State) (k : Packet) (bs : Bytes) :
    Answered k 0 bs w (w.inject (w.deliverTo k) (w.response k stOk bs)) :=
  ⟨rfl, w.deliverTo k, w.response k stOk bs, fun _ => Sparse.get_set, rfl, rfl, rfl, rfl, rfl, rfl, rfl, rfl, rfl, rfl, rfl, rfl,
    rfl⟩

/-- The command of an admitted request. -/
theorem exec_admitted {x : Instr} (hx : rxCommand at_ k = some x) (h : Arrived s at_ k)
    (ha : (s.taken at_ k).admission at_.port.isNone k = .ok n) {w : State} {bs : Bytes}
    (hw : (s.taken at_ k).serve k k.srcCore.toNat k.src.toNat = (w, ⟨stOk, bs⟩)) :
    ∃ t, exec x s = .next t ∧ Answered k 0 bs w t :=
  ⟨_, (exec_rxCommand hx h.1 h.2.2.1).trans (congrArg _ (State.takeRequest_admitted h ha hw)), Answered.inject w k bs⟩

/-! ### What each request does (R97, R192) -/

/-- Marking pieces changes no flag. -/
theorem Core.flag_mark (k : Core) (f : Flag) (region : List (Nat × Nat)) (x : Hold) (g : Flag) :
    ({ k.mark f region with hold := x } : Core).flag g = k.flag g := by
  unfold Core.mark
  split
  · rfl
  · dsimp only
    split <;> rfl

/-- A flag that a packet of another core or of this one increments, a waiting core retested (R83, R87, R192). -/
theorem State.flag_addFlag (u : State) (c : Nat) (f : Flag) (region : List (Nat × Nat)) (b : Nat) (g : Flag) :
    ((u.addFlag c f 1 region).core b).flag g = if b = c ∧ g = f then (u.core b).flag g + 1 else (u.core b).flag g := by
  by_cases hb : b = c
  · subst hb
    obtain ⟨x, hx⟩ := State.core_retest (u.modCore b (fun k => (k.setFlag f (k.flag f + 1)).mark f region)) b
    rw [State.addFlag, hx, State.core_modCore_same]
    refine (Core.flag_mark ..).trans ((Core.flag_setFlag _ f g _).trans ?_)
    by_cases hg : g = f
    · subst hg; rw [if_pos rfl, if_pos ⟨rfl, rfl⟩]
    · rw [if_neg hg, if_neg (fun e => hg e.2)]
  · have honly := ((OnlyCore.refl c [Obj.core_CORE_STATE c] u).modCore
      (fun k => (k.setFlag f (k.flag f + 1)).mark f region)).retest (List.mem_singleton.2 rfl)
    rw [if_neg (fun e => hb e.1), ← honly.2.2 b hb]; rfl

theorem State.mem_addFlag (u : State) (c : Nat) (f : Flag) (m : BitVec 32) (region : List (Nat × Nat)) :
    (u.addFlag c f m region).mem = u.mem :=
  (((OnlyCore.refl c [Obj.core_CORE_STATE c] u).modCore (fun k => (k.setFlag f (k.flag f + m)).mark f region)).retest
    (List.mem_singleton.2 rfl)).mem_eq

section
variable {u : State}

theorem State.serve_put (hop : k.op = opPut) (hflag : k.isFlag = false) (hr : u.ranged k.addrN k.payload.length = true)
    (hg : u.steGuarded k.addrN k.payload.length = false) (hb : u.bad = []) (srcCore srcDev : Nat) :
    u.serve k srcCore srcDev = (u.writeBytes k.addrN k.payload, ⟨stOk, []⟩) := by
  rw [State.serve, hflag, hop]
  show u.servePut k = _
  rw [State.servePut, hr, hg, State.storeBytes, if_pos hb]
  rfl

theorem State.serve_flag (hflag : k.isFlag = true) (srcCore srcDev : Nat) :
    u.serve k srcCore srcDev = (u.addFlag k.dstCore.toNat (Fin.ofNat 256 (k.argN % 256)) 1 (flagRegion k), ⟨stOk, []⟩) := by
  rw [State.serve, hflag]; rfl

theorem State.serve_get (hop : k.op = opGet) (hconv : k.argN.testBit 16 = false) (hr : u.ranged k.addrN (k.argN % 2 ^ 13) = true)
    (hb : u.bad = []) (srcCore srcDev : Nat) :
    u.serve k srcCore srcDev = (u, ⟨stOk, u.readBytes k.addrN (k.argN % 2 ^ 13)⟩) := by
  have hflag : k.isFlag = false := by rw [Packet.isFlag, hop]; rfl
  have hlen : field k.argN 12 0 = k.argN % 2 ^ 13 := by simp [field]
  rw [State.serve, hflag, hop]
  show (if k.argN.testBit 16 then _ else _) = _
  rw [hconv]
  show u.serveGet k = _
  rw [State.serveGet, hlen, hr, State.firstBad_sound hb]
  rfl

/-- A message for a declared ring with room is stored in the slot the producer flag names (R97). -/
theorem State.serve_msg {r : RingDecl} (hop : k.op = opMsg) (hlo : 1 ≤ k.payload.length) (hhi : k.payload.length ≤ 224)
    (hring : Sparse.get none (u.core k.dstCore.toNat).rings (k.argN % 16) = some r)
    (hroom : ((u.core k.dstCore.toNat).flag r.fp - (u.core k.dstCore.toNat).flag r.fc).toNat < r.slots) (hb : u.bad = [])
    (srcCore srcDev : Nat) :
    u.serve k srcCore srcDev = ((u.writeBytes (r.base + ((u.core k.dstCore.toNat).flag r.fp).toNat % r.slots * r.stride)
      (ringSlot k.payload.length srcCore srcDev k.payload)).addFlag k.dstCore.toNat r.fp 1 [], ⟨stOk, []⟩) := by
  have hflag : k.isFlag = false := by rw [Packet.isFlag, hop]; rfl
  rw [State.serve, hflag, hop]
  show u.serveMsg k srcCore srcDev = _
  unfold State.serveMsg
  dsimp only
  rw [if_neg (by omega), hring]
  dsimp only
  rw [if_neg (by omega), State.storeBytes, if_pos hb]

theorem State.serve_acc (hop : k.op = opAcc) {w : State} (hw : u.serveAcc k = (w, 0)) (srcCore srcDev : Nat) :
    u.serve k srcCore srcDev = (w, ⟨stOk, []⟩) := by
  have hflag : k.isFlag = false := by rw [Packet.isFlag, hop]; rfl
  rw [State.serve, hflag, hop]
  show ((u.serveAcc k).1, (⟨(u.serveAcc k).2, []⟩ : Answer)) = _
  rw [hw]; rfl

end

/-- Extents come from the dictionary, which what arrives is no part of (R157, R158). -/
theorem State.inExtent_taken (at_ : RxAt) (k : Packet) : (s.taken at_ k).inExtent = s.inExtent := by
  funext a
  have hstack : (s.taken at_ k).stackParcel = s.stackParcel := rfl
  have hobj : (s.taken at_ k).obj = s.obj := rfl
  have hmod : (s.taken at_ k).modBytes = s.modBytes := rfl
  rw [State.inExtent, hstack, hobj, hmod, ← State.inExtent]

theorem State.ranged_taken (at_ : RxAt) (k : Packet) (a m : Nat) : (s.taken at_ k).ranged a m = s.ranged a m := by
  rw [State.ranged, State.inExtent_taken, ← State.ranged]

theorem State.steGuarded_taken (at_ : RxAt) (k : Packet) (a m : Nat) : (s.taken at_ k).steGuarded a m = s.steGuarded a m := by
  unfold State.steGuarded; rfl

theorem State.readBytes_taken (at_ : RxAt) (k : Packet) (a m : Nat) :
    (s.taken at_ k).readBytes a m = (List.range m).map (fun i => s.readByte (a + i)) := by
  unfold State.readBytes; rfl

/-- Settles O38: each request is served on the state without what arrived, and its answer joins one endpoint's packets. -/
theorem admittedRequestIsCarriedOutAndAnswered : Obligations.AdmittedRequestIsCarriedOutAndAnswered := by
  intro s at_ k n h ha hb
  have hub : (s.taken at_ k).bad = [] := hb
  refine ⟨fun hop hflag hr hg => ?_, fun hop hflag => ?_, fun hop hconv hr => ?_, fun r hop hlo hhi hring hroom => ?_, fun w hop hw => ?_⟩
  · obtain ⟨t, hexec, hans⟩ := exec_admitted (x := .rxPut at_ k []) (by rw [rxCommand, if_pos hop, hflag]; rfl) h ha
      (State.serve_put (u := s.taken at_ k) hop hflag ((State.ranged_taken ..).trans hr)
        ((State.steGuarded_taken ..).trans hg) hub _ _)
    refine ⟨_, t, hexec, hans, State.writeBytes_only (s.taken at_ k) _ _, ?_⟩
    exact (Wrote.writeBytes (s.taken at_ k) _ _).congr (fun _ => rfl) rfl rfl
  · obtain ⟨t, hexec, hans⟩ := exec_admitted (x := .rxFlagPacket at_ k) (by rw [rxCommand, if_pos hop, hflag]; rfl) h ha
      (State.serve_flag hflag _ _)
    refine ⟨_, t, hexec, hans, State.mem_addFlag (s.taken at_ k) _ _ _ _, fun b f => ?_⟩
    refine (State.flag_addFlag (s.taken at_ k) _ _ _ b f).trans ?_
    have hf : f = Fin.ofNat 256 (k.argN % 256) ↔ f.val = k.argN % 256 := by
      rw [Fin.ext_iff, Fin.val_ofNat, Nat.mod_mod]
    simp only [hf]; rfl
  · obtain ⟨t, hexec, hans⟩ := exec_admitted (x := .rxGet at_ k []) (by rw [rxCommand, hop]; rfl) h ha
      (State.serve_get (u := s.taken at_ k) hop hconv ((State.ranged_taken ..).trans hr) hub _ _)
    exact ⟨t, hexec, State.readBytes_taken .. ▸ hans⟩
  · obtain ⟨t, hexec, hans⟩ := exec_admitted (x := .rxMsg at_ k) (by rw [rxCommand, hop]; rfl) h ha
      (State.serve_msg (u := s.taken at_ k) hop hlo hhi hring hroom hub _ _)
    refine ⟨_, t, hexec, hans, ?_, fun b f => ?_⟩
    · have hslot : ringSlot k.payload.length k.srcCore.toNat k.src.toNat k.payload = leBytes 2 k.payload.length ++
          leBytes 2 k.srcCore.toNat ++ leBytes 4 k.src.toNat ++ List.replicate 24 0 ++ k.payload ++
          List.replicate (224 - k.payload.length) 0 := by
        have hpad : padTo 224 k.payload = k.payload ++ List.replicate (224 - k.payload.length) 0 := by
          rw [padTo, List.take_of_length_le (by simp; omega)]
        rw [ringSlot, hpad]
        simp only [List.append_assoc]
      rw [← hslot]
      exact (Wrote.writeBytes (s.taken at_ k) _ _).congr (fun _ => rfl) rfl (State.mem_addFlag ..)
    · refine (State.flag_addFlag _ _ _ _ b f).trans ?_
      rw [State.core_writeBytes]; rfl
  · exact exec_admitted (x := .rxAcc at_ k []) (by rw [rxCommand, hop]; rfl) h ha (State.serve_acc hop hw _ _)

end

end Sys2Proof.Machine
end

section
/-! PROOF. A response matched with its request (R97, R194, R195, R197, R209). -/

namespace Sys2Proof.Machine

/-! ### What a change of a queue leaves of its operations -/

section
variable {α : Type} {g : QEntry → α}

/-- Noting the head changes only when an operation reached it. -/
theorem Core.map_noteHead (hg : ∀ e h, g { e with headAt := h } = g e) (k : Core) (q : Queue) (now : Nat) :
    ((k.noteHead q now).queue q).map g = (k.queue q).map g := by
  unfold Core.noteHead
  split
  next i _ =>
    rw [Core.queue_setQueue]
    refine List.ext_getElem? fun j => ?_
    simp only [List.getElem?_map, List.getElem?_modify]
    split
    · cases (k.queue q)[j]? with
      | none => rfl
      | some e => exact congrArg some (hg e _)
    · simp
  next => rfl

/-- A queue changed begins with the operations that the change left. -/
theorem State.map_modQueue (hg : ∀ e h, g { e with headAt := h } = g e) (u : State) (c : Nat) (q : Queue)
    (f : List QEntry → List QEntry) : (f ((u.core c).queue q)).map g <+: (((u.modQueue c q f).core c).queue q).map g := by
  rcases u.core_modQueue_cases q f rfl with hc | ⟨q', e, since, -, hc⟩
  · rw [hc, Core.map_noteHead hg, Core.queue_setQueue]
  · rw [hc]
    by_cases hqq : q = q'
    · subst hqq
      rw [Core.map_noteHead hg, Core.queue_setQueue, List.map_append, Core.map_noteHead hg, Core.queue_setQueue]
      exact List.prefix_append _ _
    · have hkept := Core.map_noteHead hg ((u.core c).setQueue q (f ((u.core c).queue q))) q u.now
      rw [Core.queue_setQueue] at hkept
      rw [Core.queue_noteHead_other _ _ hqq, Core.queue_setQueue_other _ _ hqq, ← hkept]
      exact List.prefix_rfl

/-- An operation that a change of its queue left where it stood. -/
theorem State.get_modQueue (hg : ∀ e h, g { e with headAt := h } = g e) {u : State} {c : Nat} {q : Queue}
    {f : List QEntry → List QEntry} {i : Nat} {e : QEntry} (he : (f ((u.core c).queue q))[i]? = some e) :
    ((((u.modQueue c q f).core c).queue q)[i]?).map g = some (g e) := by
  obtain ⟨l, hl⟩ := State.map_modQueue hg u c q f
  rw [← List.getElem?_map, ← hl, List.getElem?_append_left, List.getElem?_map, he]
  · rfl
  · rw [List.length_map]
    exact (List.getElem?_eq_some_iff.1 he).1

end

/-! ### Requests sent from what waits (R209) -/

/-- Requests of a core sent: memory, what arrived and the windows stay, the operations stay in their places, and those with nothing to send
are as they were. -/
structure Sent (c : Nat) (u t : State) : Prop where
  mem : t.mem = u.mem
  inbox : t.inbox = u.inbox
  win : (t.core c).win = (u.core c).win
  seqs : (t.core c).txe.map QEntry.seq = (u.core c).txe.map QEntry.seq
  quiet : ∀ (i : Nat) e, (u.core c).txe[i]? = some e → e.todo = [] → (t.core c).txe[i]? = some e

theorem Sent.refl (c : Nat) (u : State) : Sent c u u := ⟨rfl, rfl, rfl, rfl, fun _ _ he _ => he⟩

theorem Sent.trans {c : Nat} {u t v : State} (h : Sent c u t) (g : Sent c t v) : Sent c u v :=
  ⟨g.mem.trans h.mem, g.inbox.trans h.inbox, g.win.trans h.win, g.seqs.trans h.seqs,
    fun i e he hq => g.quiet i e (h.quiet i e he hq) hq⟩

section
variable {u : State} {c i : Nat}

theorem Sent.sendOne {o : OutPkt} (h : ((u.core c).txe[i]?).bind (fun e => e.todo.head?) = some o) : Sent c u (u.sendOne c i o) := by
  have hcore : ∃ t x, (u.sendOne c i o).core c = { u.core c with
      nextTag := t, txe := (u.core c).txe.modify i (fun e => { e with todo := e.todo.drop 1, out := e.out ++ x }) } :=
    ⟨_, _, State.core_setCore_same u c _⟩
  obtain ⟨t, x, hcore⟩ := hcore
  refine ⟨rfl, rfl, by rw [hcore], ?_, fun j e he hq => ?_⟩
  · rw [hcore]
    refine List.ext_getElem? fun j => ?_
    simp only [List.getElem?_map, List.getElem?_modify]
    split
    · cases (u.core c).txe[j]? <;> rfl
    · simp
  · have hne : i ≠ j := fun e' => by
      subst e'
      rw [he] at h
      simp [hq] at h
    rw [hcore]
    simp only [List.getElem?_modify, if_neg hne, he]
    rfl

theorem Sent.sendEntry (u : State) (c i fuel : Nat) : Sent c u (u.sendEntry c i fuel) := by
  induction fuel generalizing u with
  | zero => exact Sent.refl c u
  | succ fuel ih =>
    unfold State.sendEntry
    dsimp only
    split
    next o ho =>
      split
      · exact (Sent.sendOne ho).trans (ih _)
      · exact Sent.refl c u
    next => exact Sent.refl c u

theorem Sent.sendAll (u : State) (c : Nat) : Sent c u (u.sendAll c) := by
  unfold State.sendAll
  generalize List.range (u.core c).txe.length = l
  induction l generalizing u with
  | nil => exact Sent.refl c u
  | cons i l ih => exact (Sent.sendEntry u c i 64).trans (ih _)

end

/-! ### A request answered (R194, R195) -/

section
variable {s : State} {at_ : RxAt} {k : Packet} {c i j : Nat} {e : QEntry} {o : OutPkt}

/-- A response for a core, its window moved. -/
def State.windowMoved (s : State) (c : Nat) (k : Packet) : State :=
  s.modCore c (fun e => { e with win := Sparse.set TxWindow.reset e.win k.tc.toNat ((e.window k.tc.toNat).respond k.ceEcho s.slot) })

/-- The bytes of a get that its answer brings change nothing of an operation but what it has got. -/
theorem QEntry.keep_eq (e : QEntry) (o : OutPkt) (bs : Bytes) : ∃ x, e.keep o bs = { e with got := x } := by
  unfold QEntry.keep
  split
  · split
    · exact ⟨_, rfl⟩
    · exact ⟨_, rfl⟩
  · exact ⟨_, rfl⟩

/-- A well-formed response for a core of this device is matched there. -/
theorem exec_rxResponse_device (hresp : k.resp = true) (hrx : s.received at_ k = true) (hok : k.responseOk (s.lenLimit at_) = true)
    (hdst : k.dst.toNat = s.logicalId) (hc : k.dstCore.toNat < 1152) :
    exec (.rxResponse at_ k) s = .next (match (s.core k.dstCore.toNat).findOut k.tag.toNat with
      | some _ => (s.taken at_ k).coreResponse at_ k.dstCore.toNat k
      | none => (s.taken at_ k).collResponse at_ k.dstCore.toNat k) := by
  have hok' : k.responseOk ((s.taken at_ k).lenLimit at_) = true := hok
  have hdst' : k.dst.toNat = (s.taken at_ k).logicalId := hdst
  show execRxResponse at_ k s = _
  unfold execRxResponse
  rw [hresp, hrx]
  dsimp only
  rw [hok', if_pos (by rfl), if_neg (by decide), if_neg (not_not.2 hdst'), if_pos hc]
  rfl

theorem exec_rxResponse_core (hresp : k.resp = true) (hrx : s.received at_ k = true) (hok : k.responseOk (s.lenLimit at_) = true)
    (hdst : k.dst.toNat = s.logicalId) (hc : k.dstCore.toNat < 1152) (hfind : (s.core k.dstCore.toNat).findOut k.tag.toNat = some (i, j))
    (he : (s.core k.dstCore.toNat).txe[i]? = some e) (ho : e.out[j]? = some o) (hop : k.op = o.pkt.op) (hfull : o.full = none) :
    exec (.rxResponse at_ k) s = .next ((((s.taken at_ k).windowMoved k.dstCore.toNat k).answered k.dstCore.toNat i j
      k.status.toNat k.payload).sendAll k.dstCore.toNat) := by
  have hfind' : ((s.taken at_ k).core k.dstCore.toNat).findOut k.tag.toNat = some (i, j) := hfind
  have ho' : (((s.taken at_ k).core k.dstCore.toNat).txe[i]?).bind (fun e => e.out[j]?) = some o := by
    show ((s.core k.dstCore.toNat).txe[i]?).bind _ = _
    rw [he]; exact ho
  have hanswers : (k.answers o.pkt && o.full.isNone) = true := by
    rw [Packet.answers, decide_eq_true hop, hfull]; rfl
  rw [exec_rxResponse_device hresp hrx hok hdst hc, hfind]
  dsimp only
  unfold State.coreResponse
  rw [hfind']
  dsimp only
  rw [ho']
  dsimp only
  rw [hanswers, if_pos rfl, State.coreAnswer]
  rfl

theorem exec_rxResponse_unknown {p : PortId} (hresp : k.resp = true) (hrx : s.received at_ k = true)
    (hok : k.responseOk (s.lenLimit at_) = true) (hdst : k.dst.toNat = s.logicalId) (hc : k.dstCore.toNat < 1152)
    (hfind : (s.core k.dstCore.toNat).findOut k.tag.toNat = none) (hcoll : s.findCollOut k.dstCore.toNat k.tag.toNat = none)
    (hp : at_.port = some p) : exec (.rxResponse at_ k) s = .next ((s.taken at_ k).bump (Obj.port_RX_DISCARD p)) := by
  have hcoll' : (s.taken at_ k).findCollOut k.dstCore.toNat k.tag.toNat = none := hcoll
  rw [exec_rxResponse_device hresp hrx hok hdst hc, hfind]
  dsimp only
  unfold State.collResponse
  rw [hcoll', State.discardRx, hp]

section
variable {u : State} {bs : Bytes}

theorem State.answered_full (he : (u.core c).txe[i]? = some e) (ho : e.out[j]? = some o) :
    u.answered c i j 5 bs = u.setEntry c .txe i { e with out := e.out.set j { o with full := some u.now } } := by
  unfold State.answered
  rw [he]
  dsimp only
  rw [ho]
  exact if_pos rfl

/-- A request answered OK leaves its operation, what it brought kept. -/
theorem State.answered_ok (he : (u.core c).txe[i]? = some e) (ho : e.out[j]? = some o) (hp : e.phase ≠ .flagSent) :
    ∃ x, u.answered c i j 0 bs = u.setEntry c .txe i { e with got := x, out := e.out.eraseIdx j } := by
  obtain ⟨x, hx⟩ := e.keep_eq o bs
  refine ⟨x, ?_⟩
  unfold State.answered
  rw [he]
  dsimp only
  rw [ho]
  dsimp only
  rw [if_neg (by decide), if_neg (by decide), hx, if_neg (fun h => hp h.1)]

theorem State.answered_flag (he : (u.core c).txe[i]? = some e) (ho : e.out[j]? = some o) (hp : e.phase = .flagSent)
    (hone : e.out = [o]) (htodo : e.todo = []) : u.answered c i j 0 bs = u.dropEntry c .txe i := by
  have hj : j = 0 := by
    have := (List.getElem?_eq_some_iff.1 ho).1
    rw [hone, List.length_singleton] at this
    omega
  obtain ⟨x, hx⟩ := e.keep_eq o bs
  unfold State.answered
  rw [he]
  dsimp only
  rw [ho]
  dsimp only
  rw [if_neg (by decide), if_neg (by decide), hx, if_pos ⟨hp, by rw [hj, hone]; rfl, htodo⟩]

end

theorem Core.SameButQueues.win {m m' : Core} (h : m.SameButQueues m') : m'.win = m.win := (congrArg Core.win h.eq :)

theorem State.window_windowMoved (u : State) : ((u.windowMoved c k).core c).window k.tc.toNat =
    ((u.core c).window k.tc.toNat).respond k.ceEcho u.slot := by
  rw [State.windowMoved, State.core_modCore_same]
  exact Sparse.get_set_same

/-- The window after a response, through a change of the queue and what is sent then. -/
theorem State.window_answered (u v : State) (f : List QEntry → List QEntry) (hv : v = u.modQueue c .txe f) (tc : Nat) :
    ((v.sendAll c).core c).window tc = (u.core c).window tc := by
  rw [Core.window, (Sent.sendAll v c).win, hv, (State.modQueue_sameButQueues (u := u) (c := c) .txe f).win]
  rfl

/-- A change of a queue leaves memory and what arrived, and what is sent then does too. -/
theorem State.mem_answered (u v : State) (f : List QEntry → List QEntry) (hv : v = u.modQueue c .txe f) :
    (v.sendAll c).mem = u.mem ∧ (v.sendAll c).inbox = u.inbox := by
  have honly : OnlyCore c [Obj.core_QUEUE_FILL c, Obj.core_ISSUE_STALL c, Obj.core_CORE_STATE c] u v := by
    rw [hv]
    exact (OnlyCore.refl c [Obj.core_QUEUE_FILL c, Obj.core_ISSUE_STALL c, Obj.core_CORE_STATE c] u).modQueue _ _ (by simp) (by simp)
      (by simp)
  exact ⟨(Sent.sendAll v c).mem.trans honly.mem_eq, (Sent.sendAll v c).inbox.trans (congrArg State.inbox honly.1 :)⟩

theorem State.txe_windowMoved (u : State) : ((u.windowMoved c k).core c).txe = (u.core c).txe := by
  rw [State.windowMoved, State.core_modCore_same]

/-- An operation replaced in its queue by one with nothing to send is there after what is sent then. -/
theorem State.out_answered {u v : State} {e' : QEntry} (hv : v = u.modQueue c .txe (fun l => l.set i e'))
    (hi : i < (u.core c).txe.length) (hq : e'.todo = []) :
    (((v.sendAll c).core c).txe[i]?).map QEntry.out = some e'.out := by
  have hset : (((u.core c).queue .txe).set i e')[i]? = some e' := by
    rw [Core.queue_txe]
    simp [hi]
  have hget := State.get_modQueue (g := fun e => (e.todo, e.out)) (fun _ _ => rfl) (f := fun l => l.set i e') hset
  rw [← hv, Core.queue_txe, Option.map_eq_some_iff] at hget
  obtain ⟨x, hx, heq⟩ := hget
  obtain ⟨htodo, hout⟩ := Prod.mk.inj heq
  rw [(Sent.sendAll v c).quiet i x hx (htodo.trans hq)]
  exact congrArg some hout

/-- Settles O40: the response moves its window and changes its operation's entry, and what is sent then changes neither. -/
theorem responsesAnswerTheirRequests : Obligations.ResponsesAnswerTheirRequests := by
  intro s at_ k hresp hrx hok hdst hc
  refine ⟨fun i j e o hfind he ho hop hfull htodo => ?_, fun hfind hcoll p hp => ?_⟩
  · have hexec := exec_rxResponse_core hresp hrx hok hdst hc hfind he ho hop hfull
    generalize hu : (s.taken at_ k).windowMoved k.dstCore.toNat k = u at hexec
    have htxe : (u.core k.dstCore.toNat).txe = (s.core k.dstCore.toNat).txe := by rw [← hu, State.txe_windowMoved]; rfl
    have hwin : (u.core k.dstCore.toNat).window k.tc.toNat = ((s.core k.dstCore.toNat).window k.tc.toNat).respond k.ceEcho s.slot := by
      rw [← hu, State.window_windowMoved]; rfl
    have hmem : u.mem = s.mem ∧ u.inbox = s.inbox.erase (at_, k) ∧ u.now = s.now := by rw [← hu]; exact ⟨rfl, rfl, rfl⟩
    have he' : (u.core k.dstCore.toNat).txe[i]? = some e := by rw [htxe]; exact he
    obtain ⟨hi, -⟩ := List.getElem?_eq_some_iff.1 he'
    have hquiet : e.todo = [] := htodo e (List.mem_of_getElem? he)
    refine ⟨fun hst hp => ?_, fun hst hp hone => ?_, fun hst => ?_⟩
    · obtain ⟨x, hx⟩ := State.answered_ok (bs := k.payload) he' ho hp
      rw [show k.status.toNat = 0 by rw [hst]; rfl, hx] at hexec
      obtain ⟨v, hv⟩ : ∃ v, v = u.setEntry k.dstCore.toNat .txe i { e with got := x, out := e.out.eraseIdx j } := ⟨_, rfl⟩
      rw [← hv] at hexec
      rw [State.setEntry] at hv
      obtain ⟨hmem', hinbox⟩ := State.mem_answered u v _ hv
      exact ⟨_, hexec, State.out_answered hv hi hquiet, (State.window_answered u v _ hv _).trans hwin, hmem'.trans hmem.1,
        hinbox.trans hmem.2.1⟩
    · rw [show k.status.toNat = 0 by rw [hst]; rfl, State.answered_flag he' ho hp hone hquiet] at hexec
      obtain ⟨v, hv⟩ : ∃ v, v = u.dropEntry k.dstCore.toNat .txe i := ⟨_, rfl⟩
      rw [← hv] at hexec
      rw [State.dropEntry] at hv
      refine ⟨_, hexec, ?_, (State.mem_answered u v _ hv).1.trans hmem.1⟩
      have hseq := State.map_modQueue (g := QEntry.seq) (fun _ _ => rfl) u k.dstCore.toNat .txe (fun l => l.eraseIdx i)
      rw [← hv, Core.queue_txe, Core.queue_txe, htxe] at hseq
      rw [(Sent.sendAll v _).seqs]
      exact hseq
    · rw [show k.status.toNat = 5 by rw [hst]; rfl, State.answered_full he' ho, hmem.2.2] at hexec
      obtain ⟨v, hv⟩ : ∃ v, v = u.setEntry k.dstCore.toNat .txe i { e with out := e.out.set j { o with full := some s.now } } := ⟨_, rfl⟩
      rw [← hv] at hexec
      rw [State.setEntry] at hv
      exact ⟨_, hexec, State.out_answered hv hi hquiet, (State.mem_answered u v _ hv).1.trans hmem.1⟩
  · exact ⟨_, exec_rxResponse_unknown hresp hrx hok hdst hc hfind hcoll hp, OnlyObjs.bump _ _, Counted.bump (s.taken at_ k) _⟩

end

end Sys2Proof.Machine
end

section
/-! PROOF. A scrub pass that meets an uncorrectable error in a parcel's memory halts the parcel's cores (R167, R168, R376). -/

namespace Sys2Proof.Machine

/-- Parcel 0 in service as reset configures it, NEAR running, one core mapped. -/
def servingOneCore : State :=
  { State.reset with objs := [(Obj.fn_STATE 6, 3), (Obj.fn_STATE 8, 3)], cores := [(0, { Core.reset with mapped := true })] }

/-- An uncorrectable error at the first byte of stack 0, a location that parcel 0 owns. -/
def uncorrectableInStack0 : MemErr := ⟨BitVec.ofNat 44 (2 ^ 41), false⟩

/-- Meeting the error is function-fatal in a serving parcel, so that its core stops. -/
theorem scrubPass_stops_core (t : State) (h : exec (.scrubPass (.stack 0) [uncorrectableInStack0]) servingOneCore = .next t) :
    (t.core 0).stopped = true := by
  have hrun : (match exec (.scrubPass (.stack 0) [uncorrectableInStack0]) servingOneCore with
      | .next t => (t.core 0).stopped
      | _ => false) = true := by decide +kernel
  rwa [h] at hrun

/-- Refutes O50: its clause on SCRUB_PASS leaves the cores as they were for every error, but an uncorrectable error of a parcel's
address (here of serving parcel 0 in stack 0) moves the parcel to FAULT and halts its cores. -/
theorem not_memoryUpkeepAndCoolingAreCounted : ¬ Obligations.MemoryUpkeepAndCoolingAreCounted := by
  unfold Obligations.MemoryUpkeepAndCoolingAreCounted
  intro h
  obtain ⟨-, hscrub, -⟩ := h servingOneCore
  obtain ⟨-, herr⟩ := hscrub (.stack 0) 0 rfl (by decide +kernel) rfl
  obtain ⟨t, hexec, -, -, hcores, -⟩ := herr uncorrectableInStack0 (2 ^ 41) (by decide) (by decide) (by decide) (by decide)
  have hcore : t.core 0 = servingOneCore.core 0 := congrArg (Sparse.get Core.reset · 0) hcores
  have hstop : (servingOneCore.core 0).stopped = true := hcore ▸ scrubPass_stops_core t hexec
  exact absurd hstop (by decide)

end Sys2Proof.Machine
end

section
/-! PROOF. OPT_STEP (R132, R133): what the call does with its records, and one element of algorithm 1. -/

namespace Sys2Proof.Machine

/-! ### The records of a call (R132) -/

section
variable {u : State} {c n base step left i st ex : Nat} {r : OptRec}

/-- Where no location has an uncorrectable error, no read of a record meets one. -/
theorem State.optBad_sound (h : u.bad = []) (ds : List Desc) : u.optBad ds = none := by
  unfold State.optBad
  induction ds.flatMap Desc.allRegions with
  | nil => rfl
  | cons r rs ih => rw [List.map_cons, State.firstBad_sound h, firstSome, ih]

/-- A record that fails a check ends the routine with the lowest code (R81, R132). -/
theorem State.optRecords_fault {code : Nat} (hr : u.optRec (sramAddr c (base + 64 * i)) = r) (h : lowest (u.optFaults c n r) = some code) :
    u.optRecords c n base step (left + 1) i st ex = u.coreFault c 0 code (u.opsIssued c - 1) := by
  rw [State.optRecords]; simp only [hr, h]

/-- A record that passes them is carried out, and the rest after it. -/
theorem State.optRecords_next (hr : u.optRec (sramAddr c (base + 64 * i)) = r) (h : u.optFaults c n r = [])
    (hb : u.bad = []) : u.optRecords c n base step (left + 1) i st ex =
      (u.optRun c step r).1.optRecords c n base step left (i + 1) (max st (u.optRun c step r).2.1) (max ex (u.optRun c step r).2.2) := by
  rw [State.optRecords]; simp only [hr, h, lowest, State.optBad_sound hb]

end

section
variable {s₀ s : State} {c : CoreId} {n : Nat}

/-- A call whose count and place pass their checks works through its records on the issued state. -/
theorem exec_optStep (hf : Fetched s₀ c false s) (hp : s.coreParcel c = some n)
    (hcount : 1 ≤ ((s.core c).reg 3).toNat ∧ ((s.core c).reg 3).toNat ≤ 256) (halign : ((s.core c).reg 1).toNat % 8 = 0)
    (hroom : ((s.core c).reg 1).toNat + 64 * ((s.core c).reg 3).toNat ≤ 2 ^ 21) :
    exec (.optStep c) s₀ = .next ((s.issued c false).optRecords c n ((s.core c).reg 1).toNat (((s.core c).reg 2).toNat % 2 ^ 32)
      ((s.core c).reg 3).toNat 0 0 0) := by
  simp only [← hf.same.reg] at hcount halign hroom ⊢
  refine congrArg Host.Outcome.next ((State.control_next hf.1 hf.2 ?_).trans ?_)
  · rw [decide_eq_true hcount, sramCheck_ok hroom halign]; rfl
  · rw [State.coreParcel_issued, hp]; rfl

/-- A call with no record, or with more than 256, faults with FMT_COMBO, the lowest code it can have (R108, R132). -/
theorem exec_optStep_count (hf : Fetched s₀ c false s) (h : ((s.core c).reg 3).toNat = 0 ∨ 256 < ((s.core c).reg 3).toNat) :
    exec (.optStep c) s₀ = .next (s.coreFaultWith c 0 0x02 (s.obj (Obj.core_OPS_ISSUED c)) none 0) := by
  rw [← hf.same.reg] at h
  refine congrArg Host.Outcome.next (State.control_fault hf.1 hf.2 (lowest_eq_some_iff.2 ⟨?_, fun b hb => ?_⟩))
  · exact List.mem_append_left _ (mem_need.2 ⟨rfl, decide_eq_false (by omega)⟩)
  · simp only [sramCheck, List.mem_append, mem_need] at hb
    obtain ⟨rfl, -⟩ | ⟨rfl, -⟩ | ⟨rfl, -⟩ := hb <;> decide

end

/-! ### One element (R133) -/

/-- R133's algorithm 1, every step rounded once to FP32. -/
theorem optElem_one (par : List Num) (w g m v : Num) :
    let p := fun i => par.getD i Num.zero
    let rd := fun x => (roundFp32 x).1
    let m1 := rd (vxeFma (p 1) m (rd (g.prod (p 9))))
    ∃ sats, optElem 1 par w g m v = (rd (w.plus (rd ((p 0).prod (rd (m1.plus (rd ((p 6).prod w)))))).neg), m1, v, sats) :=
  ⟨_, rfl⟩

/-- Settles O23: a call of one record is one step of `State.optRecords`, which faults or carries the record out. -/
theorem optimizerStepRunsItsRecord : Obligations.OptimizerStepRunsItsRecord := by
  intro s₀ s c n hf hp
  refine ⟨fun hcount halign hroom => ?_, exec_optStep_count hf, fun par w g m v => ?_⟩
  · have hexec := exec_optStep hf hp (by omega) halign (by omega)
    have hrec : (s.issued c false).optRec (sramAddr c (((s.core c).reg 1).toNat + 64 * 0)) =
        (s.issued c false).optRec (c.val * 2 ^ 21 + ((s.core c).reg 1).toNat) := rfl
    rw [hcount] at hexec
    intro u r
    refine ⟨fun code hcode => ?_, fun hok hbad => ?_⟩
    · rw [hexec, State.optRecords_fault hrec hcode]; rfl
    · obtain ⟨⟨v, st, ex⟩, hrun⟩ : ∃ x, u.optRun c (((s.core c).reg 2).toNat % 2 ^ 32) r = x := ⟨_, rfl⟩
      rw [State.optRecords_next hrec hok hbad, hrun, Nat.zero_max, Nat.zero_max] at hexec
      exact ⟨_, v, st, ex, hrun, hexec, rfl, rfl⟩
  · obtain ⟨sats, h⟩ := optElem_one par w g m v
    rw [h]
    exact ⟨rfl, rfl, rfl⟩

end Sys2Proof.Machine
end

section
/-! PROOF. Writes of one object (R388, R392, R405, R406): what passes its checks takes effect, what fails one leaves the state, and a
write of a command object carries out its command. -/

namespace Sys2Proof.Machine

/-! ### Values as they are sent (R5, R401) -/

theorem leNat_leBytes (n v : Nat) : leNat (leBytes n v) = v % 256 ^ n := by
  induction n generalizing v with
  | zero => rw [pow_zero, Nat.mod_one]; rfl
  | succ n ih => rw [leBytes, leNat, ih, BitVec.toNat_ofNat, pow_succ' 256 n, Nat.mod_mul]

theorem beNat_reverse (bs : Bytes) : beNat bs.reverse = leNat bs := by
  rw [beNat, List.foldl_reverse]
  induction bs with
  | nil => rfl
  | cons b bs ih => rw [List.foldr_cons, ih, leNat, Nat.add_comm]

theorem beNat_beBytes (n v : Nat) : beNat (beBytes n v) = v % 256 ^ n := by rw [beBytes, beNat_reverse, leNat_leBytes]

section
variable {s t : State} {role : Role} {idx sub : Nat} {bs : Bytes} {r : ObjRow}

/-! ### One entry alone in its write (R392, R405) -/

/-- No management processor, no write (R406). -/
theorem State.write1_down (h : s.mgmtUp = false) : s.write1 role idx sub bs = s := by
  unfold State.write1 State.access; rw [if_neg (by rw [h]; decide)]

/-- A write that passes its checks takes effect. -/
theorem State.write1_ok (hm : s.mgmtUp = true) (h : s.writeOne (some role) true [] (sentEntry idx sub bs) = (dsOk, t)) :
    s.write1 role idx sub bs = t := by
  unfold State.write1 State.access State.dictWrite State.writeAll
  rw [if_pos hm, List.isEmpty_nil, h]; rfl

/-- A write that fails a check leaves the state as it was, unless it is a debug token that fails (R433). -/
theorem State.write1_refused {c : Nat} (h : s.writeOne (some role) true [] (sentEntry idx sub bs) = (c, t)) (hc : c ≠ dsOk)
    (hk : c = dsRange → ¬ (idx = 0x1300 ∧ sub = 4)) : s.write1 role idx sub bs = s := by
  by_cases hm : s.mgmtUp = true
  · obtain ⟨c, rfl⟩ := Nat.exists_eq_succ_of_ne_zero hc
    unfold State.write1 State.access State.dictWrite State.writeAll
    rw [if_pos hm, List.isEmpty_nil, h]
    by_cases hr : c.succ = dsRange
    · simp [sentEntry, State.refusedCommand, hk hr]
    · simp [sentEntry, hr]
  · exact State.write1_down (Bool.eq_false_iff.2 hm)

/-! ### The objects that are not commands (R388) -/

/-- The value a write carries, as its object's type reads it. -/
theorem sentEntry_eq (h : objRow idx sub = some r) (bs : Bytes) : sentEntry idx sub bs = ⟨idx, sub, bs.length, wireNat r.ty bs⟩ := by
  rw [sentEntry, h]

/-- The checks of R392 that hold of every kind of object. -/
structure State.Passes (s : State) (role : Role) (idx sub : Nat) (bs : Bytes) (r : ObjRow) : Prop where
  row : objRow idx sub = some r
  may : mayWrite role idx = true
  access : r.acc ≠ .ro ∧ r.acc ≠ .rc
  length : bs.length = r.ty.size
  unlocked : s.runLocked idx sub (wireNat r.ty bs) r.acc = false

/-- A write that fails one of them changes nothing, and its status is not RANGE. -/
theorem State.writeOne_fails (hrow : objRow idx sub = some r) (h : ¬ s.Passes role idx sub bs r) :
    ∃ c, s.writeOne (some role) true [] (sentEntry idx sub bs) = (c, s) ∧ c ≠ dsOk ∧ c ≠ dsRange := by
  rw [sentEntry_eq hrow]
  unfold State.writeOne
  simp only [hrow]
  by_cases hmay : mayWrite role idx = true
  · by_cases hacc : r.acc = .ro ∨ r.acc = .rc
    · exact ⟨dsReadOnly, by simp [hmay, hacc], by decide, by decide⟩
    · by_cases hlen : bs.length = r.ty.size
      · by_cases hlock : s.runLocked idx sub (wireNat r.ty bs) r.acc = true
        · exact ⟨dsRunLocked, by simp [hmay, hacc, hlen, hlock], by decide, by decide⟩
        · exact absurd ⟨hrow, hmay, not_or.1 hacc, hlen, Bool.eq_false_iff.2 hlock⟩ h
      · exact ⟨dsLength, by simp [hmay, hacc, hlen], by decide, by decide⟩
  · exact ⟨dsAuth, by simp [hmay], by decide, by decide⟩

theorem State.write1_fails (hrow : objRow idx sub = some r) (h : ¬ s.Passes role idx sub bs r) : s.write1 role idx sub bs = s := by
  obtain ⟨c, hone, hok, hrange⟩ := State.writeOne_fails hrow h
  exact State.write1_refused hone hok fun e => absurd e hrange

theorem State.write1_noObject (h : objRow idx sub = none) : s.write1 role idx sub bs = s := by
  refine State.write1_refused (c := dsNoObject) (t := s) ?_ (by decide) fun e => absurd e (by decide)
  rw [State.writeOne, show (sentEntry idx sub bs).idx = idx from rfl, show (sentEntry idx sub bs).sub = sub from rfl, h]

/-- A writable object whose value is its type's and in range takes it, with what the write does beside (R388, R392). -/
theorem State.write1_set (hm : s.mgmtUp = true) (hp : s.Passes role idx sub bs r) (hacc : r.acc = .rw ∨ r.acc = .rl)
    (hbool : r.ty = .bool → wireNat r.ty bs ≤ 1)
    (hrange : (s.setObj (objKey idx sub) (wireNat r.ty bs)).rangeOk idx sub (wireNat r.ty bs) = true) :
    s.write1 role idx sub bs =
      (s.setObj (objKey idx sub) (wireNat r.ty bs)).afterWrite s idx sub (wireNat r.ty bs) := by
  obtain ⟨hrow, hmay, hro, hlen, hlock⟩ := hp
  refine State.write1_ok hm ?_
  rw [sentEntry_eq hrow]
  unfold State.writeOne
  have hcmd : r.acc ≠ .cmd ∧ r.acc ≠ .wo := by obtain h | h := hacc <;> rw [h] <;> decide
  have hb : ¬ (r.ty = .bool ∧ 1 < wireNat r.ty bs) := fun h => absurd (hbool h.1) (Nat.not_le.2 h.2)
  simp [hrow, hmay, hro, hlen, hlock, hcmd, hb, hrange]

/-- A value that is no truth value or out of range leaves a writable object as it was. -/
theorem State.write1_outOfRange (hp : s.Passes role idx sub bs r) (hacc : r.acc = .rw ∨ r.acc = .rl)
    (h : (r.ty = .bool ∧ 1 < wireNat r.ty bs) ∨
      (s.setObj (objKey idx sub) (wireNat r.ty bs)).rangeOk idx sub (wireNat r.ty bs) = false) : s.write1 role idx sub bs = s := by
  obtain ⟨hrow, hmay, hro, hlen, hlock⟩ := hp
  have hcmd : r.acc ≠ .cmd ∧ r.acc ≠ .wo := by obtain h | h := hacc <;> rw [h] <;> decide
  refine State.write1_refused (c := dsRange) (t := s) ?_ (by decide) fun _ => ?_
  · rw [sentEntry_eq hrow]
    unfold State.writeOne
    generalize wireNat r.ty bs = v at h hlock ⊢
    by_cases hb : r.ty = .bool ∧ 1 < v
    · simp [hrow, hmay, hro, hlen, hlock, hcmd, hb]
    · simp [hrow, hmay, hro, hlen, hlock, hcmd, hb, h.resolve_left hb]
  · rintro ⟨rfl, rfl⟩
    rw [show objRow 0x1300 4 = some ⟨4, 1, .oct 64, .cmd, 0⟩ by decide] at hrow
    cases hrow
    exact hcmd.1 rfl

/-! ### Command objects (R388) -/

/-- A command that is accepted takes effect, and one that is not leaves the state as it was. -/
theorem State.write1_accepted (hm : s.mgmtUp = true) (hp : s.Passes role idx sub bs r) (hacc : r.acc = .cmd)
    (hk : ¬ (idx = 0x1300 ∧ sub = 4)) {o : Option State} (h : s.command [] idx sub (wireNat r.ty bs) = accepted s o) :
    s.write1 role idx sub bs = o.getD s := by
  have hone : s.writeOne (some role) true [] (sentEntry idx sub bs) = accepted s o := by
    obtain ⟨hrow, hmay, hro, hlen, hlock⟩ := hp
    rw [sentEntry_eq hrow]
    unfold State.writeOne
    rw [hacc] at hlock
    simp [hrow, hmay, hlen, hlock, hacc, h]
  cases o with
  | none => exact State.write1_refused hone (by decide) fun _ => hk
  | some t => exact State.write1_ok hm hone

end

end Sys2Proof.Machine
end

section
/-! PROOF. ROLLBACK, RECLAIM and JOB_RESET (R362, R365, R369, R384), WATCH_CLEAR (R138) and DEVICE_RESET (R432), and the writes of an
object. -/

namespace Sys2Proof.Machine

section
variable {s : State} {role : Role}

/-! ### The command objects (R384, R388) -/

/-- The write of a command object outside the stores of groups and members passes the checks of R392 by its role and length. -/
theorem State.passes_command {idx sub : Nat} {bs : Bytes} {r : ObjRow} (hrow : objRow idx sub = some r) (hacc : r.acc = .cmd)
    (hmay : mayWrite role idx = true) (hlen : bs.length = r.ty.size) (hi : idx < 0x7100 ∨ 0x7240 ≤ idx) :
    s.Passes role idx sub bs r := by
  refine ⟨hrow, hmay, by rw [hacc]; decide, hlen, ?_⟩
  unfold State.runLocked
  rw [if_neg (by omega), if_neg (by omega), hacc]; rfl

/-- ROLLBACK, RECLAIM and JOB_RESET of every parcel are command objects (R384). -/
theorem objRow_jobCommand : ∀ n : ParcelId, objRow (0x8300 + n.val) 0x16 = some ⟨0x16, 1, .cmd, .cmd, 0⟩ ∧
    objRow (0x8300 + n.val) 0x17 = some ⟨0x17, 1, .u64, .cmd, 0⟩ ∧ objRow (0x8300 + n.val) 0x18 = some ⟨0x18, 1, .cmd, .cmd, 0⟩ := by
  decide

/-- The commands of a parcel's job (R384). -/
theorem State.command_job (s : State) (n : ParcelId) (sub v : Nat) : s.command [] (0x8300 + n.val) sub v =
    accepted s (if sub = 0x16 then s.rollbackCmd n else if sub = 0x17 then s.reclaimCmd n v else s.jobResetCmd n) := by
  have := n.isLt
  unfold State.command
  rw [if_neg (by omega), if_pos (by omega), Nat.add_sub_cancel_left]

theorem State.write1_job (hm : s.mgmtUp = true) (hr : role ≠ .read) (n : ParcelId) {sub : Nat} {bs : Bytes} {r : ObjRow}
    (hrow : objRow (0x8300 + n.val) sub = some r) (hacc : r.acc = .cmd) (hlen : bs.length = r.ty.size) :
    s.write1 role (0x8300 + n.val) sub bs = (if sub = 0x16 then s.rollbackCmd n
      else if sub = 0x17 then s.reclaimCmd n (wireNat r.ty bs) else s.jobResetCmd n).getD s :=
  State.write1_accepted hm (State.passes_command hrow hacc (mayWrite_fn hr (by omega)) hlen (by omega)) hacc (by omega)
    (s.command_job n sub _)

theorem exec_rollback (hm : s.mgmtUp = true) (hr : role ≠ .read) (n : ParcelId) :
    exec (.rollback role n) s = .next ((s.rollbackCmd n).getD s) :=
  congrArg Host.Outcome.next (State.write1_job hm hr n (bs := []) (objRow_jobCommand n).1 rfl rfl)

theorem exec_reclaim (hm : s.mgmtUp = true) (hr : role ≠ .read) (n : ParcelId) (tr : BitVec 64) :
    exec (.reclaim role n tr) s = .next ((s.reclaimCmd n tr.toNat).getD s) := by
  have hv : wireNat .u64 (beBytes 8 tr.toNat) = tr.toNat := by
    show beNat (beBytes 8 tr.toNat) = tr.toNat
    rw [beNat_beBytes, show 256 ^ 8 = 2 ^ 64 by norm_num, Nat.mod_eq_of_lt tr.isLt]
  have hw := State.write1_job hm hr n (bs := beBytes 8 tr.toNat) (objRow_jobCommand n).2.1 rfl rfl
  rw [hv] at hw
  exact congrArg Host.Outcome.next hw

theorem exec_jobReset (hm : s.mgmtUp = true) (hr : role ≠ .read) (n : ParcelId) :
    exec (.jobReset role n) s = .next ((s.jobResetCmd n).getD s) :=
  congrArg Host.Outcome.next (State.write1_job hm hr n (bs := []) (objRow_jobCommand n).2.2 rfl rfl)

theorem exec_watchClear (hm : s.mgmtUp = true) (hr : role ≠ .read) : exec (.watchClear role) s = .next s.watchClear :=
  congrArg Host.Outcome.next (State.write1_accepted hm (State.passes_command (r := ⟨0xA, 1, .cmd, .cmd, 0⟩) (by decide) rfl
    (mayWrite_fn hr (by decide)) rfl (by decide)) rfl (by decide) (o := some s.watchClear) rfl)

theorem exec_deviceReset (hm : s.mgmtUp = true) : exec (.deviceReset .security) s = .next (s.deviceReset.getD s) :=
  congrArg Host.Outcome.next (State.write1_accepted hm (State.passes_command (r := ⟨7, 1, .cmd, .cmd, 0⟩) (by decide) rfl rfl rfl
    (by decide)) rfl (by decide) rfl)

/-- Only SECURITY may write an object of security (R406). -/
theorem exec_deviceReset_operate (s : State) : exec (.deviceReset .operate) s = .next s :=
  congrArg Host.Outcome.next (State.write1_fails (r := ⟨7, 1, .cmd, .cmd, 0⟩) (by decide) fun h => absurd h.may (by decide))

end

/-! ### Objects set one after another -/

section
variable {ks : List Nat} {s t : State}

theorem OnlyObjs.refl (ks : List Nat) (s : State) : OnlyObjs ks s s := ⟨rfl, fun _ _ => rfl⟩

theorem OnlyObjs.setObj (h : OnlyObjs ks s t) {k : Nat} (v : Nat) (hk : k ∈ ks) : OnlyObjs ks s (t.setObj k v) :=
  ⟨h.1, fun j hj => by rw [State.obj_setObj_other t v (fun e : j = k => hj (e ▸ hk)), h.2 j hj]⟩

/-- Objects given values, each by its key. -/
def State.setAll (s : State) (ks : List Nat) (f : Nat → Nat) : State := ks.foldl (fun s k => s.setObj k (f k)) s

theorem OnlyObjs.setAll (s : State) (ks : List Nat) (f : Nat → Nat) : OnlyObjs ks s (s.setAll ks f) :=
  List.foldlRecOn (motive := OnlyObjs ks s) ks _ (.refl ks s) fun _ h _ hk => h.setObj _ hk

theorem State.obj_setAll (s : State) (f : Nat → Nat) {k : Nat} (h : k ∈ ks) : (s.setAll ks f).obj k = f k :=
  State.foldl_reaches (Q := fun k t => t.obj k = f k) (fun t k => t.obj_setObj_same k (f k))
    (fun t j _ hne hk => (t.obj_setObj_other (f j) hne).trans hk) h s

theorem State.mem_setAll (s : State) (ks : List Nat) (f : Nat → Nat) : (s.setAll ks f).mem = s.mem :=
  (congrArg State.mem (OnlyObjs.setAll s ks f).1 :)

/-- The objects that WATCH_CLEAR restores (R138). -/
def firstOvers : List Nat :=
  [Obj.watch_FIRST_OVER_CORE, Obj.watch_FIRST_OVER_TENSOR, Obj.watch_FIRST_OVER_INDEX, Obj.watch_FIRST_OVER_R, Obj.watch_FIRST_OVER_TIME]

theorem State.watchClear_eq (s : State) : s.watchClear = s.setAll firstOvers objDefault := rfl

end

/-! ### JOB_RESET (R365, R384) -/

section
variable {s : State} {n : Nat}

/-- The objects that JOB_RESET makes 0. -/
def jobObjs (n : Nat) : List Nat :=
  [Obj.pardig_JOB_DIGEST n, Obj.pardig_RESULT_DIGEST n, Obj.pardig_RESULT_STEP n, Obj.parmem_PARK_STATE n, Obj.res_JOB_STATE n]

/-- The digest record of a training parcel with a bulk region cleared. -/
def State.recordCleared (s : State) (n : Nat) : State :=
  if s.parMode n = 2 ∧ s.obj (Obj.par_BULK_SIZE n) ≠ 0 then (s.storeBytes (s.recordAddr n) (List.replicate 4096 0)).1 else s

theorem State.jobResetCmd_accepted (h : s.parState n = 5) : s.jobResetCmd n = some ((s.recordCleared n).setAll (jobObjs n) (fun _ => 0)) :=
  if_pos h

theorem State.recordCleared_only (h : s.bad = []) (n : Nat) : { s.recordCleared n with mem := s.mem } = s := by
  unfold State.recordCleared; split
  · exact State.storeBytes_only h _ _
  · rfl

theorem State.mem_recordCleared {t : State} (h : s.bad = []) (ht : t.mem = (s.recordCleared n).mem) :
    if s.parMode n = 2 ∧ s.obj (Obj.par_BULK_SIZE n) ≠ 0 then Wrote (s.recordAddr n) (List.replicate 4096 0) s t else t.mem = s.mem := by
  unfold State.recordCleared at ht
  generalize List.replicate 4096 (0 : Byte) = bs at ht ⊢
  split
  · next hc =>
    rw [if_pos hc, State.storeBytes, if_pos h] at ht
    exact (Wrote.writeBytes s _ bs).congr (fun _ => rfl) rfl ht
  · next hc => rwa [if_neg hc] at ht

/-- Where memory alone differs before objects are set, the rest differs in those objects alone. -/
theorem OnlyObjs.setAll_of_mem {t : State} (h : { t with mem := s.mem } = s) (ks : List Nat) (f : Nat → Nat) :
    OnlyObjs ks s { t.setAll ks f with mem := s.mem } := by
  obtain ⟨hrest, hobjs⟩ := OnlyObjs.setAll t ks f
  have hobj (k : Nat) : t.obj k = s.obj k := (congrArg (State.obj · k) h :)
  refine ⟨?_, fun k hk => (hobjs k hk).trans (hobj k)⟩
  calc { { t.setAll ks f with mem := s.mem } with objs := s.objs }
      = { { t.setAll ks f with objs := t.objs } with mem := s.mem, objs := s.objs } := rfl
    _ = { { t with mem := s.mem } with objs := s.objs } := by rw [hrest]
    _ = s := by rw [h]

end

/-! ### ROLLBACK (R362) -/

section
variable {s : State}

theorem Core.halt_halt (k : Core) : k.halt.halt = k.halt := by
  simp [Core.halt]

/-- Of the cores, the halt of one changes that one alone. -/
theorem State.core_haltCore (s : State) (c b : Nat) : (s.haltCore c).core b = (s.modCore c Core.halt).core b := by
  have hidle (u : State) : (if u.coreState c = 5 ∨ u.coreState c = 6 then u else u.setCoreState c 0).core b = u.core b := by
    split
    · rfl
    · exact State.core_setObj ..
  exact (hidle _).trans (State.core_updFill ..)

/-- The STOP of a stream engine touches no core and no collective context. -/
theorem State.stopSte_keeps (s : State) (j : Nat) : (s.stopSte j).cores = s.cores ∧ (s.stopSte j).colls = s.colls := by
  have hbusy := s.steBusy_only j
  unfold State.stopSte
  dsimp only
  split
  · exact ⟨(congrArg State.cores hbusy :), (congrArg State.colls hbusy :)⟩
  · exact ⟨rfl, rfl⟩

theorem State.stopEngines_cores (s : State) (n : Nat) : (s.stopEngines n).cores = s.cores :=
  List.foldlRecOn (motive := fun t : State => t.cores = s.cores) _ _ rfl fun t h j _ => (t.stopSte_keeps j).1.trans h

/-- Halting a parcel halts its cores, each once or again, and no other. -/
theorem State.core_haltParcel (s : State) (n b : Nat) :
    (s.haltParcel n).core b = (if b ∈ s.parCores n then (s.core b).halt else s.core b) := by
  have hcores : (s.haltParcel n).core b = ((s.parCores n).foldl State.haltCore s).core b :=
    congrArg (Sparse.get Core.reset · b) (State.stopEngines_cores _ n)
  rw [hcores]
  generalize s.parCores n = l
  induction l using List.reverseRecOn with
  | nil => rfl
  | append_singleton l c ih =>
    rw [List.foldl_append, List.foldl_cons, List.foldl_nil]
    by_cases h : b = c
    · subst h
      rw [State.core_haltCore, State.core_modCore_same, ih, if_pos (List.mem_append_right _ (List.mem_singleton_self b))]
      split
      · exact Core.halt_halt _
      · rfl
    · rw [State.core_haltCore, State.core_modCore_other _ _ h, ih]
      simp [h]

theorem State.colls_haltParcel (s : State) (n : Nat) {x : Coll} (h : x ∈ (s.haltParcel n).colls) : x.parcel ≠ n :=
  of_decide_eq_true (List.mem_filter.1 h).2

/-- A parcel's record with its commit given up. -/
def Parcel.uncommitted (p : Parcel) : Parcel := { p with commit := none, decided := none }

/-- What ROLLBACK leaves: some contexts gone, the commit given up, the parcel halted, JOB_STATE 3. -/
def State.rollingBack (s : State) (n : Nat) (l : List Coll) : State :=
  (({ s with colls := l }.modParcel n Parcel.uncommitted).haltParcel n).setJobState n 3

theorem State.rollbackCmd_accepted {n : Nat} (hm : s.parMode n = 2) (hp : s.parState n = 3)
    (hj : s.jobState n = 1 ∨ s.jobState n = 2 ∨ s.jobState n = 5) (hr : (s.parcel n).reclaim < 2) :
    ∃ l, s.rollbackCmd n = some (s.rollingBack n l) := by
  unfold State.rollbackCmd
  dsimp only
  rw [if_pos ⟨hm, hp, hj, hr⟩]
  split
  · split
    · exact ⟨_, rfl⟩
    · exact ⟨s.colls, rfl⟩
  · exact ⟨s.colls, rfl⟩

theorem State.parcel_rollingBack (s : State) (n : Nat) (l : List Coll) :
    (s.rollingBack n l).parcel n = (s.parcel n).uncommitted := by
  refine ((State.haltParcel_beside _ n).parcel n).trans ?_
  rw [State.parcel_modParcel_same]; rfl

theorem State.core_rollingBack (s : State) (n : Nat) (l : List Coll) (b : Nat) :
    (s.rollingBack n l).core b = (if b ∈ s.parCores n then (s.core b).halt else s.core b) :=
  State.core_haltParcel _ n b

end

/-! ### RECLAIM (R369) and DEVICE_RESET (R417, R432) -/

/-- A parcel's record with a reclaim noted for slot `tr`. -/
def Parcel.reclaiming (tr : Nat) (p : Parcel) : Parcel := { p with reclaim := 1, reclaimSlot := tr }

theorem State.reclaimCmd_accepted {s : State} {n : Nat} (hm : s.parMode n = 2) (hp : s.parState n = 3) (hr : (s.parcel n).reclaim = 0)
    (tr : Nat) : s.reclaimCmd n tr = some (s.modParcel n (Parcel.reclaiming (if tr = 0 then s.slot + 1 else tr))) :=
  if_pos ⟨hm, hp, hr⟩

theorem State.restart_restarted (s : State) : Restarted 2 s (s.restart 2) := by
  refine ⟨⟨rfl, rfl, rfl, rfl, rfl, rfl, rfl, rfl⟩, fun k => ?_, rfl, rfl, rfl, rfl, rfl⟩
  unfold State.restart
  rw [State.obj_setObj, State.obj_of_objs_nil rfl]

/-! ### The obligation's clauses -/

section
variable {s : State} {role : Role}

/-- Below the objects of security a write does nothing beside setting its value. -/
theorem State.afterWrite_below {t : State} {idx : Nat} (h : idx < 0x1300) (sub v : Nat) : t.afterWrite s idx sub v = t := by
  unfold State.afterWrite
  rw [if_neg (by omega), if_neg (by omega), if_neg (by omega), if_neg (by omega), if_neg (by omega), if_neg (by omega),
    if_neg (by omega)]

theorem exec_objectWrite_set {idx : BitVec 16} {sub : BitVec 8} {bs : Bytes} {r : ObjRow} (hm : s.mgmtUp = true)
    (hp : s.Passes role idx.toNat sub.toNat bs r) (hacc : r.acc = .rw ∨ r.acc = .rl) (hbool : r.ty = .bool → wireNat r.ty bs ≤ 1)
    (hrange : (s.setObj (objKey idx.toNat sub.toNat) (wireNat r.ty bs)).rangeOk idx.toNat sub.toNat (wireNat r.ty bs) = true) :
    exec (.objectWrite role idx sub bs) s = .next
      ((s.setObj (objKey idx.toNat sub.toNat) (wireNat r.ty bs)).afterWrite s idx.toNat sub.toNat (wireNat r.ty bs)) :=
  congrArg Host.Outcome.next (State.write1_set hm hp hacc hbool hrange)

/-- Whatever keeps a write from being carried out, the state stays. -/
theorem exec_objectWrite_refused {idx : BitVec 16} {sub : BitVec 8} {bs : Bytes}
    (h : s.mgmtUp = false ∨ objRow idx.toNat sub.toNat = none ∨ mayWrite role idx.toNat = false ∨
      ∃ r, objRow idx.toNat sub.toNat = some r ∧ (r.acc = .ro ∨ r.acc = .rc ∨ bs.length ≠ r.ty.size ∨
        s.runLocked idx.toNat sub.toNat (wireNat r.ty bs) r.acc = true ∨
        ((r.acc = .rw ∨ r.acc = .rl) ∧ ((r.ty = .bool ∧ 1 < wireNat r.ty bs) ∨
          (s.setObj (objKey idx.toNat sub.toNat) (wireNat r.ty bs)).rangeOk idx.toNat sub.toNat (wireNat r.ty bs) = false)))) :
    exec (.objectWrite role idx sub bs) s = .next s := by
  refine congrArg Host.Outcome.next (?_ : s.write1 role idx.toNat sub.toNat bs = s)
  obtain hdown | hnone | hmay | ⟨r, hrow, h⟩ := h
  · exact State.write1_down hdown
  · exact State.write1_noObject hnone
  · cases hrow : objRow idx.toNat sub.toNat with
    | none => exact State.write1_noObject hrow
    | some r => exact State.write1_fails hrow fun hp => absurd hp.may (by rw [hmay]; decide)
  · by_cases hp : s.Passes role idx.toNat sub.toNat bs r
    · obtain hro | hrc | hlen | hlock | ⟨hacc, hrange⟩ := h
      · exact absurd hro hp.access.1
      · exact absurd hrc hp.access.2
      · exact absurd hp.length hlen
      · exact absurd hp.unlocked (by rw [hlock]; decide)
      · exact State.write1_outOfRange hp hacc hrange
    · exact State.write1_fails hrow hp

theorem State.rollbackCmd_refused {n : Nat} (h : s.parMode n ≠ 2 ∨ s.parState n ≠ 3 ∨
    (s.jobState n ≠ 1 ∧ s.jobState n ≠ 2 ∧ s.jobState n ≠ 5)) : s.rollbackCmd n = none := by
  refine if_neg ?_
  rintro ⟨hm, hp, hj, -⟩
  obtain h | h | ⟨h₁, h₂, h₅⟩ := h
  · exact h hm
  · exact h hp
  · exact hj.elim h₁ (Or.rec h₂ h₅)

theorem State.reclaimCmd_refused {n : Nat} (h : s.parMode n ≠ 2 ∨ s.parState n ≠ 3 ∨ (s.parcel n).reclaim ≠ 0) (tr : Nat) :
    s.reclaimCmd n tr = none :=
  if_neg fun ⟨hm, hp, hr⟩ => h.elim (· hm) (Or.rec (· hp) (· hr))

theorem State.jobResetCmd_refused {n : Nat} (h : s.parState n ≠ 5) : s.jobResetCmd n = none := if_neg h

theorem exec_rollback_accepted (hm : s.mgmtUp = true) (hr : role ≠ .read) (n : ParcelId) (hmode : s.parMode n = 2)
    (hstate : s.parState n = 3) (hj : s.jobState n = 1 ∨ s.jobState n = 2 ∨ s.jobState n = 5) (hrec : (s.parcel n).reclaim < 2) :
    ∃ l, exec (.rollback role n) s = .next (s.rollingBack n l) := by
  obtain ⟨l, hl⟩ := State.rollbackCmd_accepted hmode hstate hj hrec
  exact ⟨l, by rw [exec_rollback hm hr, hl, Option.getD_some]⟩

theorem exec_reclaim_accepted (hm : s.mgmtUp = true) (hr : role ≠ .read) (n : ParcelId) (tr : BitVec 64) (hmode : s.parMode n = 2)
    (hstate : s.parState n = 3) (hrec : (s.parcel n).reclaim = 0) :
    exec (.reclaim role n tr) s = .next (s.modParcel n (Parcel.reclaiming (if tr = 0 then s.slot + 1 else tr.toNat))) := by
  have htr : tr.toNat = 0 ↔ tr = 0 := ⟨fun h => BitVec.eq_of_toNat_eq h, fun h => by rw [h]; rfl⟩
  rw [exec_reclaim hm hr, State.reclaimCmd_accepted hmode hstate hrec, Option.getD_some]
  simp only [htr]

theorem exec_jobReset_accepted (hm : s.mgmtUp = true) (hr : role ≠ .read) (n : ParcelId) (h : s.parState n = 5) :
    exec (.jobReset role n) s = .next ((s.recordCleared n).setAll (jobObjs n) (fun _ => 0)) := by
  rw [exec_jobReset hm hr, State.jobResetCmd_accepted h, Option.getD_some]

end

/-- Settles O54: an object's write either passes the checks of R392 and takes effect or leaves the state, and a command's write is its
command where that is accepted. -/
theorem jobAndObjectCommandsActOrAreRefused : Obligations.JobAndObjectCommandsActOrAreRefused := by
  intro s
  refine ⟨?_, fun role idx sub bs h => exec_objectWrite_refused h, fun hm role hr => ⟨?_, ?_, ?_, ?_, ?_, ?_, ?_⟩,
    fun hm => ⟨?_, ?_, exec_deviceReset_operate s⟩⟩
  · rintro role idx sub bs r k v hm hrow rfl rfl hmay hacc hlen hlock hbool hrange
    have hread : r.acc ≠ .ro ∧ r.acc ≠ .rc := by obtain h | h := hacc <;> rw [h] <;> decide
    have hexec := exec_objectWrite_set hm ⟨hrow, hmay, hread, hlen, hlock⟩ hacc hbool hrange
    refine ⟨hexec, fun hidx => ?_⟩
    rw [State.afterWrite_below hidx] at hexec
    exact ⟨_, hexec, (OnlyObjs.refl _ s).setObj _ (List.mem_singleton_self _), State.obj_setObj_same ..⟩
  · intro n hmode hstate hj hrec
    obtain ⟨l, hexec⟩ := exec_rollback_accepted hm hr n hmode hstate hj hrec
    have hparcel := s.parcel_rollingBack n l
    refine ⟨_, hexec, State.obj_setObj_same .., ?_, ?_, fun x => State.colls_haltParcel _ n, fun c hc hne => ?_, fun c hc => ?_⟩
    · rw [hparcel]; rfl
    · rw [hparcel]; rfl
    · rw [State.core_rollingBack, if_pos (State.mem_parCores hc hne)]
    · rw [State.core_rollingBack, if_neg fun h => hc (State.of_mem_parCores h)]
  · intro n h
    rw [exec_rollback hm hr, State.rollbackCmd_refused h, Option.getD_none]
  · intro n tr hmode hstate hrec
    exact ⟨_, exec_reclaim_accepted hm hr n tr hmode hstate hrec, rfl, State.parcel_modParcel_same ..⟩
  · intro n tr h
    rw [exec_reclaim hm hr, State.reclaimCmd_refused h, Option.getD_none]
  · intro n hstop hbad
    have hval {k : Nat} (hk : k ∈ jobObjs n) : ((s.recordCleared n).setAll (jobObjs n) (fun _ => 0)).obj k = 0 :=
      State.obj_setAll _ (fun _ => 0) hk
    exact ⟨_, exec_jobReset_accepted hm hr n hstop, OnlyObjs.setAll_of_mem (State.recordCleared_only hbad n) _ _,
      hval (by simp [jobObjs]), hval (by simp [jobObjs]), hval (by simp [jobObjs]), hval (by simp [jobObjs]), hval (by simp [jobObjs]),
      State.mem_recordCleared hbad (State.mem_setAll ..)⟩
  · intro n h
    rw [exec_jobReset hm hr, State.jobResetCmd_refused h, Option.getD_none]
  · exact ⟨_, exec_watchClear hm hr, OnlyObjs.setAll s firstOvers objDefault, fun k hk => State.obj_setAll s objDefault hk⟩
  · intro hidle hstate
    have hreset : s.deviceReset = some (s.restart 2) := if_neg (by rw [hidle]; simp [hstate])
    exact ⟨_, by rw [exec_deviceReset hm, hreset, Option.getD_some], s.restart_restarted⟩
  · intro h
    have hreset : s.deviceReset = none := if_pos h
    rw [exec_deviceReset hm, hreset, Option.getD_none]

end Sys2Proof.Machine
end

section
/-! PROOF. Every command keeps what `Kept` says, and so does a tick; of it, the canonical forms (R157, R386, R389, R421). -/

namespace Sys2Proof.Machine

/-- No command undoes what `Kept` speaks of: each by the lemma about its own meaning. -/
theorem exec_kept {a s : State} (h : Kept a s) (i : Instr) : KeptOut a (exec i s) :=
  match i with
  | .scLi _ _ _ => execScLi_kept _ _ _ _ h
  | .scAdd _ _ _ _ => execScAdd_kept _ _ _ _ _ h
  | .scSub _ _ _ _ => execScSub_kept _ _ _ _ _ h
  | .scMul _ _ _ _ => execScMul_kept _ _ _ _ _ h
  | .scAnd _ _ _ _ => execScAnd_kept _ _ _ _ _ h
  | .scOr _ _ _ _ => execScOr_kept _ _ _ _ _ h
  | .scXor _ _ _ _ => execScXor_kept _ _ _ _ _ h
  | .scShl _ _ _ _ => execScShl_kept _ _ _ _ _ h
  | .scShr _ _ _ _ => execScShr_kept _ _ _ _ _ h
  | .scCmp _ _ _ _ => execScCmp_kept _ _ _ _ _ h
  | .scLd _ _ _ => execScLd_kept _ _ _ _ h
  | .scSt _ _ _ => execScSt_kept _ _ _ _ h
  | .descSet _ _ _ _ _ => execDescSet_kept _ _ _ _ _ _ h
  | .descGet _ _ _ _ => execDescGet_kept _ _ _ _ _ h
  | .flagSet _ _ _ _ => execFlagSet_kept _ _ _ _ _ h
  | .flagAdd _ _ _ _ => execFlagAdd_kept _ _ _ _ _ h
  | .flagWait _ _ _ _ _ _ => execFlagWait_kept _ _ _ _ _ _ _ h
  | .waitExpired _ => execWaitExpired_kept _ _ h
  | .flagStatus _ _ _ _ => execFlagStatus_kept _ _ _ _ _ h
  | .skipIf _ _ _ _ _ _ _ _ => execSkipIf_kept _ _ _ _ _ _ _ _ _ h
  | .loopBegin _ _ _ _ => execLoopBegin_kept _ _ _ _ _ h
  | .loopEnd _ _ => execLoopEnd_kept _ _ _ h
  | .loopIdx _ _ _ _ => execLoopIdx_kept _ _ _ _ _ h
  | .timeWait _ _ => execTimeWait_kept _ _ _ h
  | .timeWaitRelease _ => execTimeWaitRelease_kept _ _ h
  | .coreIdOp _ _ => execCoreIdOp_kept _ _ _ h
  | .coreTime _ _ => execCoreTime_kept _ _ _ h
  | .coreEnd _ => execCoreEnd_kept _ _ h
  | .illegalOp _ => execIllegalOp_kept _ _ h
  | .libUnknown _ _ => execLibUnknown_kept _ _ _ h
  | .mxeMm _ _ _ _ _ _ => execMxeMm_kept _ _ _ _ _ _ _ h
  | .mxeMmg _ _ _ _ _ _ _ _ _ => execMxeMmg_kept _ _ _ _ _ _ _ _ _ _ h
  | .mxeDrain _ _ _ _ => execMxeDrain_kept _ _ _ _ _ h
  | .vxeMap _ _ _ _ => execVxeMap_kept _ _ _ _ _ h
  | .vxeZip _ _ _ _ _ => execVxeZip_kept _ _ _ _ _ _ h
  | .vxeFma _ _ _ _ _ => execVxeFma_kept _ _ _ _ _ _ h
  | .vxeRed _ _ _ _ _ _ _ => execVxeRed_kept _ _ _ _ _ _ _ _ h
  | .vxeConv _ _ _ _ => execVxeConv_kept _ _ _ _ _ h
  | .vxeRand _ _ _ _ => execVxeRand_kept _ _ _ _ _ h
  | .speMm _ _ _ _ _ _ _ => execSpeMm_kept _ _ _ _ _ _ _ _ h
  | .spePack _ _ _ _ => execSpePack_kept _ _ _ _ _ h
  | .txePut _ _ _ _ _ _ => execTxePut_kept _ _ _ _ _ _ _ h
  | .txeGet _ _ _ _ _ => execTxeGet_kept _ _ _ _ _ _ h
  | .txeAcc _ _ _ _ _ => execTxeAcc_kept _ _ _ _ _ _ h
  | .txeRing _ _ _ _ _ => execTxeRing_kept _ _ _ _ _ _ h
  | .txeMsg _ _ _ _ _ _ => execTxeMsg_kept _ _ _ _ _ _ _ h
  | .txeDigest _ _ _ => execTxeDigest_kept _ _ _ _ h
  | .txeFill _ _ _ _ => execTxeFill_kept _ _ _ _ _ h
  | .engineOpStart _ _ _ => execEngineOpStart_kept _ _ _ _ h
  | .engineOpComplete _ _ _ _ => execEngineOpComplete_kept _ _ _ _ _ h
  | .gateTimeout _ _ => execGateTimeout_kept _ _ _ h
  | .remoteTimeout _ _ => execRemoteTimeout_kept _ _ _ h
  | .txeResend _ => execTxeResend_kept _ _ h
  | .collStart _ => execCollStart_kept _ _ h
  | .collWait _ => execCollWait_kept _ _ h
  | .anchorRetry _ => execAnchorRetry_kept _ _ h
  | .optStep _ => execOptStep_kept _ _ h
  | .jobStart _ => execJobStart_kept _ _ h
  | .stepBegin _ => execStepBegin_kept _ _ h
  | .stepCommit _ => execStepCommit_kept _ _ h
  | .stepReplay _ => execStepReplay_kept _ _ h
  | .park _ => execPark_kept _ _ h
  | .restore _ => execRestore_kept _ _ h
  | .collComplete _ _ => execCollComplete_kept _ _ _ h
  | .adoptComplete _ _ _ _ => execAdoptComplete_kept _ _ _ _ _ h
  | .commitBegin _ => execCommitBegin_kept _ _ h
  | .commitDecide _ _ => execCommitDecide_kept _ _ _ h
  | .commitTimeout _ => execCommitTimeout_kept _ _ h
  | .commitFlip _ => execCommitFlip_kept _ _ h
  | .rollbackComplete _ => execRollbackComplete_kept _ _ h
  | .reclaimDrainDone _ => execReclaimDrainDone_kept _ _ h
  | .reclaimParkDone _ => execReclaimParkDone_kept _ _ h
  | .dieClearDone _ => execDieClearDone_kept _ _ h
  | .steClearDone _ => execSteClearDone_kept _ _ h
  | .linkUnitRx _ _ => execLinkUnitRx_kept _ _ _ h
  | .replayTimeout _ => execReplayTimeout_kept _ _ h
  | .controlUnitRx _ _ => execControlUnitRx_kept _ _ _ h
  | .controlUnitTx _ => execControlUnitTx_kept _ _ h
  | .pcsLockLoss _ => execPcsLockLoss_kept _ _ h
  | .linkTrainDone _ _ => execLinkTrainDone_kept _ _ _ h
  | .rxPut _ _ _ => execRxPut_kept _ _ _ _ h
  | .rxFlagPacket _ _ => execRxFlagPacket_kept _ _ _ h
  | .rxGet _ _ _ => execRxGet_kept _ _ _ _ h
  | .rxAcc _ _ _ => execRxAcc_kept _ _ _ _ h
  | .rxMsg _ _ => execRxMsg_kept _ _ _ h
  | .rxColl _ _ => execRxColl_kept _ _ _ h
  | .mgmtRead _ _ => execMgmtRead_kept _ _ _ h
  | .mgmtWrite _ _ => execMgmtWrite_kept _ _ _ h
  | .mgmtCommand _ _ => execMgmtCommand_kept _ _ _ h
  | .rxResponse _ _ => execRxResponse_kept _ _ _ h
  | .xbarMatch => execXbarMatch_kept _ h
  | .outputCellTime _ => execOutputCellTime_kept _ _ h
  | .poolLevelTest => execPoolLevelTest_kept _ h
  | .spillPage _ _ => execSpillPage_kept _ _ _ h
  | .spillReturn _ _ _ => execSpillReturn_kept _ _ _ _ h
  | .pacingWindow => execPacingWindow_kept _ h
  | .policerRefill => execPolicerRefill_kept _ h
  | .svcFrameRx _ _ => execSvcFrameRx_kept _ _ _ h
  | .neighborSolicitationRx _ _ _ => execNeighborSolicitationRx_kept _ _ _ _ h
  | .pfcFrameRx _ _ _ => execPfcFrameRx_kept _ _ _ _ h
  | .pfcPauseExpiry _ _ => execPfcPauseExpiry_kept _ _ _ h
  | .pfcRefresh _ => execPfcRefresh_kept _ _ h
  | .timePacketTx _ => execTimePacketTx_kept _ _ h
  | .timePacketRx _ _ _ => execTimePacketRx_kept _ _ _ _ h
  | .datumTimeout _ => execDatumTimeout_kept _ _ h
  | .timeStep => execTimeStep_kept _ h
  | .ppsInEdge _ => execPpsInEdge_kept _ _ h
  | .ppsInLoss => execPpsInLoss_kept _ h
  | .ptpSyncTx _ => execPtpSyncTx_kept _ _ h
  | .ptpAnnounceTx _ => execPtpAnnounceTx_kept _ _ h
  | .ptpDelayReqRx _ _ _ _ => execPtpDelayReqRx_kept _ _ _ _ _ h
  | .ptpSyncRx _ _ _ _ => execPtpSyncRx_kept _ _ _ _ _ h
  | .ptpFollowUpRx _ _ _ _ _ => execPtpFollowUpRx_kept _ _ _ _ _ _ h
  | .ptpAnnounceRx _ _ => execPtpAnnounceRx_kept _ _ _ h
  | .ptpDelayRespRx _ _ _ _ _ => execPtpDelayRespRx_kept _ _ _ _ _ _ h
  | .standinApply => execStandinApply_kept _ h
  | .steStart _ => execSteStart_kept _ _ h
  | .steStop _ => execSteStop_kept _ _ h
  | .steRunBegin _ => execSteRunBegin_kept _ _ h
  | .steStageEnd _ => execSteStageEnd_kept _ _ h
  | .steRunEnd _ => execSteRunEnd_kept _ _ h
  | .steExpired _ => execSteExpired_kept _ _ h
  | .steRecvDeadline _ _ => execSteRecvDeadline_kept _ _ _ h
  | .memRefresh _ _ => execMemRefresh_kept _ _ _ h
  | .bulkRetune _ _ => execBulkRetune_kept _ _ _ h
  | .scrubPass _ _ => execScrubPass_kept _ _ _ h
  | .moduleTempRead _ => execModuleTempRead_kept _ _ h
  | .opticsCycle _ _ => execOpticsCycle_kept _ _ _ h
  | .levelRunStart => execLevelRunStart_kept _ h
  | .levelNow _ => execLevelNow_kept _ _ h
  | .levelRunEnd _ => execLevelRunEnd_kept _ _ h
  | .thermDecision _ _ _ _ => execThermDecision_kept _ _ _ _ _ h
  | .thermCrit _ _ _ _ => execThermCrit_kept _ _ _ _ _ h
  | .thermShutdown _ _ => execThermShutdown_kept _ _ _ h
  | .overcurrent _ => execOvercurrent_kept _ _ h
  | .overcurrentRestore => execOvercurrentRestore_kept _ h
  | .rampCooling _ => execRampCooling_kept _ _ h
  | .supplyOut => execSupplyOut_kept _ h
  | .supplyLoss _ => execSupplyLoss_kept _ _ h
  | .supplyValid _ => execSupplyValid_kept _ _ h
  | .resetNLow _ => execResetNLow_kept _ _ h
  | .resetNRise => execResetNRise_kept _ h
  | .watchdog => execWatchdog_kept _ h
  | .bootStage1 => execBootStage1_kept _ h
  | .bootStage2 => execBootStage2_kept _ h
  | .bootStage3 => execBootStage3_kept _ h
  | .bootStage4 => execBootStage4_kept _ h
  | .bootStage5 => execBootStage5_kept _ h
  | .bootStage6 => execBootStage6_kept _ h
  | .functionStart _ _ => execFunctionStart_kept _ _ _ h
  | .functionStop _ _ => execFunctionStop_kept _ _ _ h
  | .functionReinit _ _ => execFunctionReinit_kept _ _ _ h
  | .functionInitDone _ _ => execFunctionInitDone_kept _ _ _ h
  | .functionStopDone _ => execFunctionStopDone_kept _ _ h
  | .autoStart _ => execAutoStart_kept _ _ h
  | .rollback _ _ => execRollback_kept _ _ _ h
  | .reclaim _ _ _ => execReclaim_kept _ _ _ _ h
  | .jobReset _ _ => execJobReset_kept _ _ _ h
  | .watchClear _ => execWatchClear_kept _ _ h
  | .debugUnlock _ _ => execDebugUnlock_kept _ _ _ h
  | .deviceReset _ => execDeviceReset_kept _ _ h
  | .measureExtend _ _ => execMeasureExtend_kept _ _ _ h
  | .keyCommit _ _ _ _ _ => execKeyCommit_kept _ _ _ _ _ _ h
  | .quote _ _ => execQuote_kept _ _ _ h
  | .updType _ _ => execUpdType_kept _ _ _ h
  | .updErase _ => execUpdErase_kept _ _ h
  | .updEraseDone => execUpdEraseDone_kept _ h
  | .updData _ _ => execUpdData_kept _ _ _ h
  | .updVerify _ => execUpdVerify_kept _ _ h
  | .updActivate _ => execUpdActivate_kept _ _ h
  | .svnCommit _ _ => execSvnCommit_kept _ _ _ h
  | .counterInc _ _ => execCounterInc_kept _ _ _ h
  | .objectWrite _ _ _ _ => execObjectWrite_kept _ _ _ _ _ h
  | .dapOpenA _ _ => execDapOpenA_kept _ _ _ h
  | .dapOpenC _ _ => execDapOpenC_kept _ _ _ h
  | .dapRead _ _ => execDapRead_kept _ _ _ h
  | .dapWrite _ _ => execDapWrite_kept _ _ _ h
  | .dapClose _ _ => execDapClose_kept _ _ _ h
  | .dapHalfOpenExpiry _ => execDapHalfOpenExpiry_kept _ _ h
  | .sessionIdle _ => execSessionIdle_kept _ _ h
  | .i3cSelectorWrite _ => execI3cSelectorWrite_kept _ _ h
  | .i3cPrivateRead => execI3cPrivateRead_kept _ h
  | .setdasa _ _ => execSetdasa_kept _ _ _ h
  | .entdaa _ => execEntdaa_kept _ _ h
  | .rstdaa => execRstdaa_kept _ h
  | .getpid => execGetpid_kept _ h
  | .getbcr => execGetbcr_kept _ h
  | .getdcr => execGetdcr_kept _ h
  | .getstatus => execGetstatus_kept _ h
  | .mmgWaitExpired _ => execMmgWaitExpired_kept _ _ h
  | .steRemote _ => execSteRemote_kept _ _ h
  | .resumeTimeout _ => execResumeTimeout_kept _ _ h
  | .reclaimAtTr _ => execReclaimAtTr_kept _ _ h
  | .updVerifyDone => execUpdVerifyDone_kept _ h
  | .mgmtLinkUp _ => execMgmtLinkUp_kept _ _ h
  | .mgmtLinkDown => execMgmtLinkDown_kept _ h
  | .mgmtLinkFallback => execMgmtLinkFallback_kept _ h
  | .announceReceiptTimeout => execAnnounceReceiptTimeout_kept _ h
  | .ptpDelayReqTx _ => execPtpDelayReqTx_kept _ _ h

/-- A step keeps what `Kept` says of the state whose queue has lost its front command, or of the state itself where none waits. -/
theorem step_kept {s t : State} (h : step s = .next t) : ∃ rest, Kept { s with pending := rest } t := by
  unfold step at h
  split at h
  next hq =>
    refine ⟨s.pending, ?_⟩
    split at h
    next => cases h
    next => cases h; exact State.tick_kept _ (Kept.refl s)
  next c rest hq => exact ⟨rest, exec_kept (Kept.refl _) c t h⟩

/-- Settles O58: the forms are among what `Kept` says, and the queue is no part of them. -/
theorem everyStepKeepsTheCanonicalForms : Obligations.EveryStepKeepsTheCanonicalForms := by
  intro s t hmem hdict hflash hstep
  obtain ⟨rest, hkept⟩ := step_kept hstep
  exact ⟨hkept.memory hmem, hkept.dict hdict, hkept.flashForm hflash⟩

end Sys2Proof.Machine
end

section
/-! PROOF. A packet of a reclaimed job whose cell is not allocated: discarding it is a refused release (R231, R233), step-fatal while a
parcel trains, and the parcel being reclaimed must then restart (R370). -/

namespace Sys2Proof.Machine

/-- A request of job 1 queued at the first internal port of die 0, in cell 0. -/
def queuedOfJob1 : OutQ := ⟨[⟨{ Packet.parse [] with job := 1 }, ownAt, none, [.die 0]⟩], 1⟩

/-- Parcel 0 trains job 1 and is RUNNING, and its reclaim is draining; the cell of the packet queued toward its die was never
allocated. -/
def drainingUnallocated : State :=
  let s := ((State.reset.setObj (Obj.fn_STATE 8) 3).setObj (Obj.par_MODE 0) 2).setObj (Obj.parfab_JOB_ID 0) 1
  { (s.setObj (Obj.res_JOB_STATE 0) 6).modParcel 0 (fun p => { p with reclaim := 2 }) with
    sw := { s.sw with queues := [(queueKey 144 0 0, queuedOfJob1)] } }

/-- The refused release of the packet's cell leaves the job in RESTART_NEEDED. -/
theorem reclaimDrainDone_needsRestart (t : State) (h : exec (.reclaimDrainDone 0) drainingUnallocated = .next t) :
    t.obj (Obj.res_JOB_STATE 0) = 7 := by
  have hrun : (match exec (.reclaimDrainDone 0) drainingUnallocated with
      | .next t => decide (t.obj (Obj.res_JOB_STATE 0) = 7)
      | _ => false) = true := by decide +kernel
  rw [h] at hrun
  exact of_decide_eq_true hrun

/-- Refutes O32: RECLAIM_DRAIN_DONE discards the job's queued packets, and the release of a cell that is not allocated is a step-fatal
error (BAD_INDEX, R233), so that the job is RESTART_NEEDED (7) and not RECLAIMING (6) afterwards. -/
theorem not_reclaimRunsThroughItsPhases : ¬ Obligations.ReclaimRunsThroughItsPhases := by
  unfold Obligations.ReclaimRunsThroughItsPhases
  intro h
  obtain ⟨-, hdrain, -⟩ := h drainingUnallocated 0
  obtain ⟨t, hexec, -, hstate, -⟩ := hdrain (by decide +kernel) (by decide +kernel) (by decide +kernel)
  have hrestart := reclaimDrainDone_needsRestart t hexec
  have hbefore : drainingUnallocated.jobState (0 : ParcelId) = 6 := by decide +kernel
  rw [hbefore] at hstate
  exact absurd (hstate.symm.trans hrestart) (by decide)

end Sys2Proof.Machine
end

section
/-! PROOF. A page that two entries of the queues' map hold (R238, R239): the pages still held are counted over every entry listed, where
a queue is read as the first entry of its key, so that a state out of canonical form keeps a returned page allocated. -/

namespace Sys2Proof.Machine

/-- PFC leaves the buffer pools as they are. -/
theorem State.pool_pfcAll (s : State) (q : Nat) : s.pfcAll.pool q = s.pool q := by
  have hcount (t : State) (p : Nat) (l : List Nat) : (t.countXoff p l).sw = t.sw :=
    List.foldlRecOn (motive := fun u : State => u.sw = t.sw) _ _ rfl fun u hu c _ => by rw [State.bump, State.addObj_sw, hu]
  have hport (t : State) (p : PortId) : (t.pfcPort p).pool q = t.pool q := by
    unfold State.pfcPort
    dsimp only
    split
    · rfl
    · rw [State.pool, hcount]; rfl
  refine List.foldlRecOn (motive := fun t : State => t.pool q = s.pool q) _ _ rfl fun t ht p _ => ?_
  split
  · rw [hport, ht]
  · exact ht

/-- One packet queued in slot 1 of page 0. -/
def spilledPacket : OutQ := ⟨[⟨Packet.parse [], ownAt, none, [.page 0 1]⟩], 0⟩

/-- Class 7 of endpoint 144 has the packet in page 0, and the map of queues lists that queue twice. -/
def pageListedTwice : State :=
  let s := ((State.reset.setObj (Obj.fn_STATE 4) 3).setObj Obj.lim_SPILL_RETURN 16).setObj (Obj.pool_BACKPRESSURE 0) 200
  { s with sw := { s.sw with pages := ⟨nil, 1, 1, [(0, 2 ^ 63 + 2 ^ 55)], false⟩,
                             queues := [(5795, spilledPacket), (5795, spilledPacket)] } }

theorem outQ_pageListedTwice (k : Nat) : pageListedTwice.outQ k = if k = 5795 then spilledPacket else OutQ.reset := by
  show Sparse.get OutQ.reset [(5795, spilledPacket), (5795, spilledPacket)] k = _
  by_cases h : k = 5795
  · rw [if_pos h, h]; rfl
  · simp [Sparse.get_cons, h, Ne.symm h]

/-- After the return the page is not the head of the free list. -/
theorem spillReturn_keepsPage (t : State) (h : exec (.spillReturn 144 35 []) pageListedTwice = .next t) : (t.pool 1).head = nil := by
  have hrun : (match exec (.spillReturn 144 35 []) pageListedTwice with
      | .next t => decide ((t.pool 1).head = nil)
      | _ => false) = true := by decide +kernel
  rw [h] at hrun
  exact of_decide_eq_true hrun

/-- Refutes O45: in a state whose map of queues lists the queue twice, the second entry, which no queue is read from, still holds the
page, and SPILL_RETURN does not free it. -/
theorem not_spilledPagesKeepQueueOrder : ¬ Obligations.SpilledPagesKeepQueueOrder := by
  unfold Obligations.SpilledPagesKeepQueueOrder
  intro h
  have hother (k : Nat) (hk : k ≠ 5795) : (pageListedTwice.outQ k).cells.any (fun c => c.inPage 0) = false := by
    rw [outQ_pageListedTwice, if_neg hk]; rfl
  have hqueue : pageListedTwice.outQ 5795 = spilledPacket := by rw [outQ_pageListedTwice, if_pos rfl]
  obtain ⟨-, hreturn⟩ := h pageListedTwice 144 35 5795 (by decide) (by decide +kernel) (by rw [hqueue]; decide)
  obtain ⟨w, hexec, -, -, -, -, -, hhead, -⟩ := hreturn 0 1 spilledPacket hqueue.symm rfl (by decide +kernel) hother rfl (by decide +kernel)
    (by decide +kernel) rfl (by decide) (fun b hb => absurd hb (by simp [OutQ.cells, spilledPacket])) (by decide) (by decide +kernel)
    (by decide +kernel)
  have hkept := spillReturn_keepsPage _ hexec
  rw [State.pool_pfcAll, hhead] at hkept
  exact absurd hkept (by decide)

end Sys2Proof.Machine
end

section
/-! PROOF. The flip of a committed step (R348, R361): its objects, the digest record, the sequence numbers of the next step, and the
return of the cores inside STEP_COMMIT. -/

namespace Sys2Proof.Machine

/-! ### Frames -/

/-- A store changes memory and the marks of its errors, whatever it meets. -/
theorem State.storeBytes_onlyMemory (s : State) (a : Nat) (bs : Bytes) :
    { (s.storeBytes a bs).1 with mem := s.mem, bad := s.bad } = s := by
  unfold State.storeBytes
  split
  · exact (congrArg (fun t : State => { t with bad := s.bad }) (s.writeBytes_only a bs) :)
  · refine List.foldlRecOn (motive := fun r : State × Option Nat => { r.1 with mem := s.mem, bad := s.bad } = s) _ _ rfl fun r hr e _ => ?_
    dsimp only
    split
    · exact hr
    · exact hr

theorem State.writeRecord_onlyMemory (s : State) (n : Nat) : { s.writeRecord n with mem := s.mem, bad := s.bad } = s := by
  obtain ⟨a, bs, h⟩ := s.writeRecord_eq n
  rw [h]; exact s.storeBytes_onlyMemory a bs

/-- The objects that a step boundary changes: counts since the last one and those of the last step (R169). -/
def BoundaryKey (n k : Nat) : Prop := (k / 256 = 0x5100 + n ∧ 7 ≤ k % 256) ∨ k / 256 = 0x4100 + n

theorem State.boundary_keys (s : State) (n : Nat) : Steady (BoundaryKey n) s (s.boundary n) := by
  have near {j : Nat} (h : 7 ≤ j ∧ j < 256) : BoundaryKey n (objKey (0x5100 + n) j) := .inl (by unfold objKey; omega)
  have link {j : Nat} (h : j < 256) : BoundaryKey n (objKey (0x4100 + n) j) := .inr (objKey_idx h)
  have h₀ : Steady (BoundaryKey n) s { s with env := { s.env with due := (s.dies n).foldl (fun m k => m ||| 2 ^ k) s.env.due } } :=
    ⟨⟨rfl, rfl, fun _ _ => rfl⟩, rfl, rfl, rfl, rfl, rfl, rfl, id⟩
  unfold State.boundary
  dsimp only [List.foldl_cons, List.foldl_nil]
  exact (((((h₀.setObj _ (near (j := 7) (by decide))).setObj _ (near (j := 9) (by decide))).setObj _ (near (j := 8) (by decide))).setObj _
    (near (j := 10) (by decide))).setObj _ (link (j := 2) (by decide))).setObj _ (link (j := 3) (by decide))

theorem State.groups_boundary (s : State) (n : Nat) : (s.boundary n).groups = s.groups := by
  simp only [State.boundary, List.foldl_cons, List.foldl_nil, State.setObj_groups]

/-! ### What a commit records (R348, R361) -/

/-- The record of a parcel whose step has committed: attempt 0 of the next step. -/
def Parcel.nextStep (p : Parcel) : Parcel :=
  { p with attempt := 0, begun := none, commit := none, decided := none, stepErr := false, late := false }

section
variable (s : State) (n : Nat) (r : CommitRec) (d : Nat) (agreed : Bytes)

/-- The other half active, and the flip counted. -/
def State.flipped : State := (s.setObj (Obj.parmem_ACTIVE_HALF n) (1 - s.obj (Obj.parmem_ACTIVE_HALF n))).bump (Obj.parmem_FLIPS n)

/-- The commit counted where it is late. -/
def State.lateCounted : State := if r.tc ≤ d then s.bump (Obj.res_COMMIT_LATE n) else s

/-- The step's digest joined to the result digest. -/
def State.chained : State :=
  ((s.setOct (Obj.pardig_RESULT_DIGEST n) (sm3 (s.octBytes (Obj.pardig_RESULT_DIGEST n) 32 ++ leBytes 4 r.n ++ agreed))).setObj
    (Obj.pardig_RESULT_STEP n) r.n).setOct (Obj.res_AGREED_STEP_DIGEST n) agreed

/-- The slot of the commit. -/
def State.slotNoted : State := s.setObj (Obj.res_LAST_COMMIT_SLOT n) s.slot

/-- The objects of a commit as the digest record is written. -/
def State.flipRecorded : State := (((s.flipped n).lateCounted n r d).chained n r agreed).slotNoted n

/-- A committed step's state but for JOB_STATE and the cores that return. -/
def State.committed : State :=
  ((((((s.flipRecorded n r d agreed).writeRecord n).setCseqs n (stepBase (r.n + 1) 0)).bump (Obj.res_COMMITS n)).boundary n).modParcel n
    Parcel.nextStep).setObj (Obj.ferr_HANDLING (8 + n)) 0

/-- The cores of a parcel inside STEP_COMMIT. -/
def State.commitCores : List Nat := s.waiters n (fun w => decide (w = .commit))

theorem State.commitStep_eq (h : (s.parcel n).late = false) : s.commitStep n r d agreed =
    ((s.committed n r d agreed).setJobState n 1).returnAll ((s.committed n r d agreed).commitCores n) [0] := by
  simp only [State.commitStep, h, Bool.false_eq_true, if_false]
  rfl

/-- The objects that a commit records. -/
def FlipKey (n k : Nat) : Prop :=
  k = Obj.parmem_ACTIVE_HALF n ∨ k = Obj.parmem_FLIPS n ∨ k = Obj.res_COMMIT_LATE n ∨ k = Obj.pardig_RESULT_DIGEST n ∨
    k = Obj.pardig_RESULT_STEP n ∨ k = Obj.res_AGREED_STEP_DIGEST n ∨ k = Obj.res_LAST_COMMIT_SLOT n

theorem State.flipped_steady : Steady (FlipKey n) s (s.flipped n) :=
  ((Steady.refl _ s).setObj _ (.inl rfl)).bump (.inr (.inl rfl))

theorem State.lateCounted_steady : Steady (· = Obj.res_COMMIT_LATE n) s (s.lateCounted n r d) :=
  .ite ((Steady.refl _ s).bump rfl) (.refl _ s)

/-- The digests' objects. -/
def ChainKey (n k : Nat) : Prop := k = Obj.pardig_RESULT_DIGEST n ∨ k = Obj.pardig_RESULT_STEP n ∨ k = Obj.res_AGREED_STEP_DIGEST n

theorem State.chained_steady : Steady (ChainKey n) s (s.chained n r agreed) :=
  (((Steady.refl _ s).setObj _ (.inl rfl)).setObj _ (.inr (.inl rfl))).setObj _ (.inr (.inr rfl))

theorem State.slotNoted_steady : Steady (· = Obj.res_LAST_COMMIT_SLOT n) s (s.slotNoted n) := (Steady.refl _ s).setObj _ rfl

theorem State.flipRecorded_steady : Steady (FlipKey n) s (s.flipRecorded n r d agreed) := by
  refine (((s.flipped_steady n).trans ((State.lateCounted_steady _ n r d).mono fun k hk => .inr (.inr (.inl hk)))).trans
    ((State.chained_steady _ n r agreed).mono fun k hk => ?_)).trans
    ((State.slotNoted_steady _ n).mono fun k hk => .inr (.inr (.inr (.inr (.inr (.inr hk))))))
  exact .inr (.inr (.inr (hk.imp_right (Or.imp_right .inl))))

end

/-! ### The objects of a commit -/

section
variable {s : State} {n : Nat} {r : CommitRec} {d : Nat} {agreed : Bytes}

/-- The objects of the flip are those that the flip itself leaves. -/
theorem State.obj_flipRecorded_flipped {k : Nat} (hk : k / 256 = 0x5100 + n) :
    (s.flipRecorded n r d agreed).obj k = (s.flipped n).obj k := by
  rw [State.flipRecorded, (State.slotNoted_steady _ n).objs, (State.chained_steady _ n r agreed).objs, (State.lateCounted_steady _ n r d).objs]
  all_goals
    simp only [ChainKey, Obj.res_LAST_COMMIT_SLOT, Obj.res_COMMIT_LATE, Obj.res_AGREED_STEP_DIGEST, Obj.pardig_RESULT_DIGEST,
      Obj.pardig_RESULT_STEP, objKey]
    omega

theorem State.activeHalf_flipRecorded :
    (s.flipRecorded n r d agreed).obj (Obj.parmem_ACTIVE_HALF n) = 1 - s.obj (Obj.parmem_ACTIVE_HALF n) := by
  have hne : Obj.parmem_ACTIVE_HALF n ≠ Obj.parmem_FLIPS n := by simp only [Obj.parmem_ACTIVE_HALF, Obj.parmem_FLIPS, objKey]; omega
  have hrow : Obj.parmem_ACTIVE_HALF n / 256 = 0x5100 + n := objKey_idx (by decide)
  rw [State.obj_flipRecorded_flipped hrow, State.flipped, State.obj_bump_other _ hne, State.obj_setObj_same]

theorem State.flips_flipRecorded : Counted (Obj.parmem_FLIPS n) s (s.flipRecorded n r d agreed) := by
  have hne : Obj.parmem_FLIPS n ≠ Obj.parmem_ACTIVE_HALF n := by simp only [Obj.parmem_ACTIVE_HALF, Obj.parmem_FLIPS, objKey]; omega
  have hrow : Obj.parmem_FLIPS n / 256 = 0x5100 + n := objKey_idx (by decide)
  rw [Counted, State.obj_flipRecorded_flipped hrow, State.flipped, State.obj_bump_same, satN_eq_min, State.obj_setObj_other _ _ hne]

/-- The flip changes no object outside the parcel's memory row. -/
theorem State.obj_flipped_other {k : Nat} (hk : k / 256 ≠ 0x5100 + n) : (s.flipped n).obj k = s.obj k := by
  rw [State.flipped, State.obj_bump_other, State.obj_setObj_other]
  all_goals
    simp only [Obj.parmem_ACTIVE_HALF, Obj.parmem_FLIPS, objKey]
    omega

theorem State.commitLate_flipRecorded : (s.flipRecorded n r d agreed).obj (Obj.res_COMMIT_LATE n) =
    ((s.flipped n).lateCounted n r d).obj (Obj.res_COMMIT_LATE n) := by
  rw [State.flipRecorded, (State.slotNoted_steady _ n).objs, (State.chained_steady _ n r agreed).objs]
  all_goals
    simp only [ChainKey, Obj.res_LAST_COMMIT_SLOT, Obj.res_COMMIT_LATE, Obj.res_AGREED_STEP_DIGEST, Obj.pardig_RESULT_DIGEST,
      Obj.pardig_RESULT_STEP, objKey]
    omega

/-- A commit decided in its slot or later is counted as late, and no other is. -/
theorem State.late_flipRecorded :
    if r.tc ≤ d then Counted (Obj.res_COMMIT_LATE n) s (s.flipRecorded n r d agreed)
    else (s.flipRecorded n r d agreed).obj (Obj.res_COMMIT_LATE n) = s.obj (Obj.res_COMMIT_LATE n) := by
  have hflip : (s.flipped n).obj (Obj.res_COMMIT_LATE n) = s.obj (Obj.res_COMMIT_LATE n) :=
    State.obj_flipped_other (by simp only [Obj.res_COMMIT_LATE, objKey]; omega)
  rw [Counted, State.commitLate_flipRecorded, State.lateCounted]
  split
  · rw [State.obj_bump_same, satN_eq_min, hflip]
  · exact hflip

/-- The digest chained is the result digest that stood before the flip. -/
theorem State.octBytes_lateCounted : ((s.flipped n).lateCounted n r d).octBytes (Obj.pardig_RESULT_DIGEST n) 32 =
    s.octBytes (Obj.pardig_RESULT_DIGEST n) 32 := by
  have hne : Obj.pardig_RESULT_DIGEST n ≠ Obj.res_COMMIT_LATE n := by
    simp only [Obj.pardig_RESULT_DIGEST, Obj.res_COMMIT_LATE, objKey]; omega
  rw [State.octBytes, State.octBytes, (State.lateCounted_steady _ n r d).objs _ hne,
    State.obj_flipped_other (by simp only [Obj.pardig_RESULT_DIGEST, objKey]; omega)]

theorem State.digests_flipRecorded : (s.flipRecorded n r d agreed).obj (Obj.pardig_RESULT_STEP n) = r.n ∧
    (s.flipRecorded n r d agreed).obj (Obj.res_AGREED_STEP_DIGEST n) = leNat agreed ∧
    (s.flipRecorded n r d agreed).obj (Obj.pardig_RESULT_DIGEST n) =
      leNat (sm3 (s.octBytes (Obj.pardig_RESULT_DIGEST n) 32 ++ leBytes 4 r.n ++ agreed)) := by
  have hslot : Obj.pardig_RESULT_STEP n ≠ Obj.res_LAST_COMMIT_SLOT n ∧ Obj.res_AGREED_STEP_DIGEST n ≠ Obj.res_LAST_COMMIT_SLOT n ∧
      Obj.pardig_RESULT_DIGEST n ≠ Obj.res_LAST_COMMIT_SLOT n := by
    simp only [Obj.pardig_RESULT_STEP, Obj.pardig_RESULT_DIGEST, Obj.res_AGREED_STEP_DIGEST, Obj.res_LAST_COMMIT_SLOT, objKey]; omega
  have hdigest : Obj.pardig_RESULT_STEP n ≠ Obj.res_AGREED_STEP_DIGEST n ∧ Obj.pardig_RESULT_DIGEST n ≠ Obj.res_AGREED_STEP_DIGEST n ∧
      Obj.pardig_RESULT_DIGEST n ≠ Obj.pardig_RESULT_STEP n := by
    simp only [Obj.pardig_RESULT_STEP, Obj.pardig_RESULT_DIGEST, Obj.res_AGREED_STEP_DIGEST, objKey]; omega
  obtain ⟨hstepSlot, hagreedSlot, hresultSlot⟩ := hslot
  obtain ⟨hstepAgreed, hresultAgreed, hresultStep⟩ := hdigest
  rw [← State.octBytes_lateCounted (s := s) (r := r) (d := d), State.flipRecorded]
  generalize (s.flipped n).lateCounted n r d = u
  unfold State.slotNoted State.chained State.setOct
  refine ⟨?_, ?_, ?_⟩
  · rw [State.obj_setObj_other _ _ hstepSlot, State.obj_setObj_other _ _ hstepAgreed, State.obj_setObj_same]
  · rw [State.obj_setObj_other _ _ hagreedSlot, State.obj_setObj_same]
  · rw [State.obj_setObj_other _ _ hresultSlot, State.obj_setObj_other _ _ hresultAgreed, State.obj_setObj_other _ _ hresultStep,
      State.obj_setObj_same]

theorem State.slot_flipRecorded : (s.flipRecorded n r d agreed).obj (Obj.res_LAST_COMMIT_SLOT n) = s.slot := by
  have hft : (((s.flipped n).lateCounted n r d).chained n r agreed).ft = s.ft :=
    (State.chained_steady _ n r agreed).ft.trans ((State.lateCounted_steady _ n r d).ft.trans (s.flipped_steady n).ft)
  rw [State.flipRecorded, State.slotNoted, State.obj_setObj_same, State.slot, State.now, hft, ← State.now, ← State.slot]

end

/-! ### The digest record, the sequence numbers and the parcel's record -/

section
variable (s : State) (n : Nat) (r : CommitRec) (d : Nat) (agreed : Bytes)

/-- The state of a commit before the parcel's record is changed. -/
def State.resequenced : State :=
  ((((s.flipRecorded n r d agreed).writeRecord n).setCseqs n (stepBase (r.n + 1) 0)).bump (Obj.res_COMMITS n)).boundary n

theorem State.committed_eq : s.committed n r d agreed =
    ((s.resequenced n r d agreed).modParcel n Parcel.nextStep).setObj (Obj.ferr_HANDLING (8 + n)) 0 := rfl

theorem State.obj_writeRecord (k : Nat) : (s.writeRecord n).obj k = s.obj k := (congrArg (State.obj · k) (s.writeRecord_onlyMemory n) :)

/-- The objects that a commit changes after the digest record is written. -/
def ResequenceKey (n k : Nat) : Prop := k = Obj.res_COMMITS n ∨ BoundaryKey n k

theorem State.resequenced_steady : Steady (ResequenceKey n) ((s.flipRecorded n r d agreed).writeRecord n) (s.resequenced n r d agreed) :=
  (((State.setCseqs_steady _ n _).mono fun _ => False.elim).bump (.inl rfl)).trans ((State.boundary_keys _ n).mono fun _ => .inr)

theorem State.obj_resequenced {k : Nat} (h : ¬ ResequenceKey n k) :
    (s.resequenced n r d agreed).obj k = (s.flipRecorded n r d agreed).obj k := by
  rw [(s.resequenced_steady n r d agreed).objs k h, State.obj_writeRecord]

theorem State.commits_resequenced : Counted (Obj.res_COMMITS n) s (s.resequenced n r d agreed) := by
  have hkey : ¬ BoundaryKey n (Obj.res_COMMITS n) ∧ ¬ FlipKey n (Obj.res_COMMITS n) := by
    simp only [BoundaryKey, FlipKey, Obj.res_COMMITS, Obj.parmem_ACTIVE_HALF, Obj.parmem_FLIPS, Obj.res_COMMIT_LATE,
      Obj.pardig_RESULT_DIGEST, Obj.pardig_RESULT_STEP, Obj.res_AGREED_STEP_DIGEST, Obj.res_LAST_COMMIT_SLOT, objKey]
    omega
  rw [Counted, State.resequenced, (State.boundary_keys _ n).objs _ hkey.1, State.obj_bump_same, satN_eq_min,
    (State.setCseqs_steady _ n _).objs _ id, State.obj_writeRecord, (s.flipRecorded_steady n r d agreed).objs _ hkey.2]

/-- Fabric Time, the parcels' records and the cores of a commit are those before it. -/
theorem State.resequenced_keeps : (s.resequenced n r d agreed).ft = s.ft ∧ (s.resequenced n r d agreed).parcels = s.parcels ∧
    (s.resequenced n r d agreed).cores = s.cores := by
  have hrecord := (s.flipRecorded n r d agreed).writeRecord_onlyMemory n
  have hflip := s.flipRecorded_steady n r d agreed
  have hseq := s.resequenced_steady n r d agreed
  exact ⟨hseq.ft.trans ((congrArg State.ft hrecord :).trans hflip.ft),
    hseq.parcels.trans ((congrArg State.parcels hrecord :).trans hflip.parcels),
    hseq.cores.trans ((congrArg State.cores hrecord :).trans hflip.cores)⟩

/-- base(step + 1, 0) of R356 is below 2^32. -/
theorem stepBase_next (m : Nat) : stepBase (m + 1) 0 % 2 ^ 32 = (m + 1) % 2 ^ 15 * 2 ^ 17 := by
  unfold stepBase; omega

theorem State.next_resequenced (hn : n < 4) {g : Nat} (h : g ∈ s.groupsOf n) :
    ((s.resequenced n r d agreed).groupSt g).next = (r.n + 1) % 2 ^ 15 * 2 ^ 17 := by
  have hg : g ∈ ((s.flipRecorded n r d agreed).writeRecord n).groupsOf n := by
    rw [State.groupsOf_congr s n fun i hi => ?_]
    · exact h
    · rw [State.obj_writeRecord, (s.flipRecorded_steady n r d agreed).objs]
      simp only [FlipKey, Obj.grp_ENTRY, Obj.parmem_ACTIVE_HALF, Obj.parmem_FLIPS, Obj.res_COMMIT_LATE, Obj.pardig_RESULT_DIGEST,
        Obj.pardig_RESULT_STEP, Obj.res_AGREED_STEP_DIGEST, Obj.res_LAST_COMMIT_SLOT, objKey]
      omega
  rw [← stepBase_next, ← State.next_setCseqs _ n _ hg, State.groupSt, State.resequenced, State.groups_boundary, State.bump,
    State.addObj_groups, State.groupSt]

end

/-! ### The cores inside STEP_COMMIT return (R361) -/

/-- A core out of its routine with `v` in s1. -/
def Core.ReturnedWith (k : Core) (v : BitVec 64) : Prop := k.lib = none ∧ k.reg 1 = v

section
variable (s : State) (n : Nat) (r : CommitRec) (d : Nat) (agreed : Bytes)

theorem State.returnedWith_libReturn (c v : Nat) : ((s.libReturn c [v]).core c).ReturnedWith (BitVec.ofNat 64 v) := by
  rw [State.libReturn, State.core_settle, State.setResults, State.core_modCore_same, State.core_modCore_same]
  exact ⟨rfl, Core.reg_setReg_same _ 1 _⟩

theorem State.groups_settle (c : Nat) : (s.settle c).groups = s.groups := by
  unfold State.settle State.setCoreState
  dsimp only
  split_ifs <;> rfl

theorem State.groups_libReturn (c : Nat) (l : List Nat) : (s.libReturn c l).groups = s.groups := by
  rw [State.libReturn, State.groups_settle, State.groups_setResults, State.modCore_groups]

theorem State.groups_returnAll (cs l : List Nat) : (s.returnAll cs l).groups = s.groups :=
  List.foldlRecOn (motive := fun t : State => t.groups = s.groups) _ _ rfl fun t ih c _ => by rw [State.groups_libReturn, ih]

/-- Beside the parcel's record and HANDLING the sequence numbers are the last change before the cores return. -/
theorem State.committed_keeps : (s.committed n r d agreed).ft = s.ft ∧ (s.committed n r d agreed).cores = s.cores ∧
    (s.committed n r d agreed).groups = (s.resequenced n r d agreed).groups ∧
    (s.committed n r d agreed).parcel n = (s.parcel n).nextStep := by
  obtain ⟨hft, hparcels, hcores⟩ := s.resequenced_keeps n r d agreed
  have hbefore : (s.resequenced n r d agreed).parcel n = s.parcel n := congrArg (Sparse.get Parcel.reset · n) hparcels
  rw [State.committed_eq]
  generalize s.resequenced n r d agreed = u at hft hcores hbefore ⊢
  refine ⟨hft, hcores, rfl, ?_⟩
  rw [← hbefore]
  exact State.parcel_modParcel_same u n _

theorem State.mem_commitCores {b : Nat} (h : s.coreParcel b = some n) (hb : (s.core b).lib = some .commit) : b ∈ s.commitCores n := by
  refine List.mem_filter.2 ⟨State.mem_parCores h fun e => ?_, by rw [hb]; rfl⟩
  rw [e] at hb; cases hb

/-- The returns of a parcel's cores change cores and their objects. -/
theorem State.returnAll_beside {u : State} (l : List Nat) : Beside UnitKey u (u.returnAll (s.commitCores n) l) :=
  (Beside.refl _ u).foldl fun v c hc => (v.libReturn_beside c l).mono fun _ =>
    unitKey_of_coreKey (State.coreParcel_lt (State.of_mem_parCores (List.mem_filter.1 hc).1))

theorem State.returnedWith_returnAll {cs : List Nat} {b : Nat} (h : b ∈ cs) (v : Nat) :
    ((s.returnAll cs [v]).core b).ReturnedWith (BitVec.ofNat 64 v) := by
  refine State.foldl_reaches (Q := fun c t => (t.core c).ReturnedWith (BitVec.ofNat 64 v)) (g := fun s c => s.libReturn c [v])
    (fun t c => t.returnedWith_libReturn c v) (fun t c b e ht => ?_) h s
  rwa [State.core_libReturn_other _ _ _ e]

/-- The objects of a commit outside cores, JOB_STATE, HANDLING and step boundaries are those recorded at the flip. -/
theorem State.obj_commitStep (h : (s.parcel n).late = false) {k : Nat} (hu : ¬ UnitKey k) (hjob : k ≠ Obj.res_JOB_STATE n)
    (hhandling : k ≠ Obj.ferr_HANDLING (8 + n)) : (s.commitStep n r d agreed).obj k = (s.resequenced n r d agreed).obj k := by
  rw [s.commitStep_eq n r d agreed h, ((s.committed n r d agreed).returnAll_beside n [0]).objs k hu, State.setJobState,
    State.obj_setObj_other _ _ hjob, State.committed_eq, State.obj_setObj_other _ _ hhandling, State.obj_modParcel]

/-- The objects at the parcel's memory row below those of the step boundary, at its digests' row, and at its resilience row. -/
theorem State.obj_commitStep_row (h : (s.parcel n).late = false) {k : Nat} (hn : n < 4)
    (hk : (k / 256 = 0x5100 + n ∧ k % 256 < 7) ∨ k / 256 = 0x6300 + n ∨ (k / 256 = 0x8300 + n ∧ 1 < k % 256 ∧ k ≠ Obj.res_COMMITS n)) :
    (s.commitStep n r d agreed).obj k = (s.flipRecorded n r d agreed).obj k := by
  rw [s.obj_commitStep n r d agreed h, s.obj_resequenced]
  all_goals
    simp only [UnitKey, ResequenceKey, BoundaryKey, Obj.res_JOB_STATE, Obj.ferr_HANDLING, Obj.res_COMMITS, objKey] at hk ⊢
    omega

theorem State.jobState_commitStep (h : (s.parcel n).late = false) : (s.commitStep n r d agreed).obj (Obj.res_JOB_STATE n) = 1 := by
  rw [s.commitStep_eq n r d agreed h, ((s.committed n r d agreed).returnAll_beside n [0]).objs, State.setJobState, State.obj_setObj_same]
  simp only [UnitKey, Obj.res_JOB_STATE, objKey]; omega

theorem State.now_commitStep (h : (s.parcel n).late = false) : (s.commitStep n r d agreed).now = s.now := by
  obtain ⟨hft, -⟩ := s.committed_keeps n r d agreed
  rw [s.commitStep_eq n r d agreed h, ((s.committed n r d agreed).returnAll_beside n [0]).now, State.now, State.setJobState,
    State.setObj_ft, hft, State.now]

theorem State.parcel_commitStep (h : (s.parcel n).late = false) : (s.commitStep n r d agreed).parcel n = (s.parcel n).nextStep := by
  obtain ⟨-, -, -, hparcel⟩ := s.committed_keeps n r d agreed
  rw [s.commitStep_eq n r d agreed h, ((s.committed n r d agreed).returnAll_beside n [0]).parcel, State.parcel, State.setJobState,
    State.setObj_parcels, ← hparcel, State.parcel]

theorem State.next_commitStep (h : (s.parcel n).late = false) (hn : n < 4) {g : Nat} (hg : g ∈ s.groupsOf n) :
    ((s.commitStep n r d agreed).groupSt g).next = (r.n + 1) % 2 ^ 15 * 2 ^ 17 := by
  obtain ⟨-, -, hgroups, -⟩ := s.committed_keeps n r d agreed
  rw [← s.next_resequenced n r d agreed hn hg, s.commitStep_eq n r d agreed h, State.groupSt, State.groups_returnAll, State.setJobState,
    State.setObj_groups, hgroups, State.groupSt]

theorem State.returned_commitStep (h : (s.parcel n).late = false) (hn : n < 4) {b : Nat} (hb : s.coreParcel b = some n)
    (hlib : (s.core b).lib = some .commit) : ((s.commitStep n r d agreed).core b).ReturnedWith 0 := by
  obtain ⟨-, hcores, -⟩ := s.committed_keeps n r d agreed
  have hcore : (s.committed n r d agreed).core b = s.core b := congrArg (Sparse.get Core.reset · b) hcores
  have hparcel : (s.committed n r d agreed).coreParcel = s.coreParcel := State.coreParcel_congr fun i hi => by
    rw [State.committed_eq, State.obj_setObj_other, State.obj_modParcel, State.obj_resequenced,
      (s.flipRecorded_steady n r d agreed).objs]
    all_goals
      simp only [FlipKey, ResequenceKey, BoundaryKey, Obj.par_DIE_MASK, Obj.ferr_HANDLING, Obj.res_COMMITS, Obj.parmem_ACTIVE_HALF,
        Obj.parmem_FLIPS, Obj.res_COMMIT_LATE, Obj.pardig_RESULT_DIGEST, Obj.pardig_RESULT_STEP, Obj.res_AGREED_STEP_DIGEST,
        Obj.res_LAST_COMMIT_SLOT, objKey]
      omega
  rw [s.commitStep_eq n r d agreed h]
  refine State.returnedWith_returnAll _ (State.mem_commitCores _ n ?_ ?_) 0
  · rw [hparcel, hb]
  · rw [hcore, hlib]

end

/-! ### COMMIT_FLIP -/

/-- COMMIT_FLIP of a decided commit of a parcel that is no shadow carries it out at its slot, the context of its agreement released. -/
theorem exec_commitFlip {s : State} {n : ParcelId} {r : CommitRec} {d : Nat} {x : Coll} (hr : (s.parcel n).commit = some r)
    (hd : (s.parcel n).decided = some d) (hj : s.jobState n = 2) (hs : s.isShadow n = false) (hx : s.commitColl n r = some x)
    (hlt : flipSlot r.tc d * 1024 < 2 ^ 64) : exec (.commitFlip n) s = .next
      (((s.advanceTo (flipSlot r.tc d * 1024)).dropColl x.group x.cseq).commitStep n r d (agreedDigest r.n x.sums)) := by
  have hdue : ¬ ((s.advanceTo (flipSlot r.tc d * 1024)).now < flipSlot r.tc d * 1024 ∨ s.jobState n ≠ 2) := by
    rw [s.now_advanceTo hlt, hj]; omega
  have hshadow : (s.advanceTo (flipSlot r.tc d * 1024)).isShadow n = false := by
    rw [State.isShadow, State.obj_advanceTo]; exact hs
  have hcoll : (s.advanceTo (flipSlot r.tc d * 1024)).commitColl n r = some x := by
    rw [← hx, State.commitColl, State.obj_advanceTo, State.commitColl]
    unfold State.collOf
    rw [State.advanceTo_colls]
  show execCommitFlip n s = _
  unfold execCommitFlip
  rw [hr, hd]
  dsimp only
  rw [if_neg hdue, hshadow, if_neg Bool.false_ne_true, hcoll]

/-- Settles O30: COMMIT_FLIP is `State.commitStep` at its slot, whose objects are recorded at the flip (`State.flipRecorded`) and whose
cores return last. -/
theorem committedStepTakesEffect : Obligations.CommittedStepTakesEffect := by
  intro s n r d at_ x hr hd hlate hj hs hx hat hlt
  obtain rfl : at_ = flipSlot r.tc d := hat
  refine ⟨_, exec_commitFlip hr hd hj hs hx hlt, ?_⟩
  generalize hu : (s.advanceTo (flipSlot r.tc d * 1024)).dropColl x.group x.cseq = u
  generalize agreedDigest r.n x.sums = agreed
  have hnow : u.now = max s.now (flipSlot r.tc d * 1024) := by rw [← s.now_advanceTo hlt, ← hu]; rfl
  have hobj (k : Nat) : u.obj k = s.obj k := by rw [← s.obj_advanceTo (flipSlot r.tc d * 1024), ← hu]; rfl
  have hcore (b : Nat) : u.core b = s.core b := by rw [← s.core_advanceTo (flipSlot r.tc d * 1024), ← hu]; rfl
  have hparcel : u.coreParcel = s.coreParcel := State.coreParcel_congr fun i _ => hobj _
  have hgroups : u.groupsOf n = s.groupsOf n := State.groupsOf_congr s n fun g _ => hobj _
  have hrec : u.parcel n = s.parcel n := by rw [State.parcel, State.parcel, ← s.advanceTo_parcels (flipSlot r.tc d * 1024), ← hu]; rfl
  have hl : (u.parcel n).late = false := by rw [hrec, hlate]
  have hdigest : u.octBytes (Obj.pardig_RESULT_DIGEST n) 32 = s.octBytes (Obj.pardig_RESULT_DIGEST n) 32 :=
    congrArg (leBytes 32) (hobj _)
  have row {k : Nat} := u.obj_commitStep_row n r d agreed hl (k := k) n.isLt
  have hhalf : (u.commitStep n r d agreed).obj (Obj.parmem_ACTIVE_HALF n) = 1 - s.obj (Obj.parmem_ACTIVE_HALF n) := by
    rw [row (by simp only [Obj.parmem_ACTIVE_HALF, objKey]; omega), State.activeHalf_flipRecorded, hobj]
  have hflips : Counted (Obj.parmem_FLIPS n) s (u.commitStep n r d agreed) := by
    rw [Counted, row (by simp only [Obj.parmem_FLIPS, objKey]; omega), ← hobj]; exact State.flips_flipRecorded
  have hcommits : Counted (Obj.res_COMMITS n) s (u.commitStep n r d agreed) := by
    rw [Counted, u.obj_commitStep n r d agreed hl, ← hobj]
    · exact u.commits_resequenced n r d agreed
    all_goals simp only [UnitKey, Obj.res_COMMITS, Obj.res_JOB_STATE, Obj.ferr_HANDLING, objKey]; omega
  have hcounted : if r.tc ≤ d then Counted (Obj.res_COMMIT_LATE n) s (u.commitStep n r d agreed)
      else (u.commitStep n r d agreed).obj (Obj.res_COMMIT_LATE n) = s.obj (Obj.res_COMMIT_LATE n) := by
    rw [Counted, row (by simp only [Obj.res_COMMIT_LATE, Obj.res_COMMITS, objKey]; omega), ← hobj]; exact State.late_flipRecorded
  obtain ⟨hstep, hagreed, hresult⟩ := State.digests_flipRecorded (s := u) (n := n) (r := r) (d := d) (agreed := agreed)
  have hslot : (u.commitStep n r d agreed).obj (Obj.res_LAST_COMMIT_SLOT n) = (u.commitStep n r d agreed).slot := by
    rw [row (by simp only [Obj.res_LAST_COMMIT_SLOT, Obj.res_COMMITS, objKey]; omega), State.slot_flipRecorded, State.slot, State.slot,
      u.now_commitStep n r d agreed hl]
  refine ⟨(u.now_commitStep n r d agreed hl).trans hnow, hhalf, hflips, hcounted, ?_, ?_, ?_, hslot, hcommits,
    u.jobState_commitStep n r d agreed hl, ?_⟩
  · rw [row (by simp only [Obj.pardig_RESULT_STEP, objKey]; omega), hstep]
  · rw [row (by simp only [Obj.res_AGREED_STEP_DIGEST, Obj.res_COMMITS, objKey]; omega), hagreed]
  · rw [row (by simp only [Obj.pardig_RESULT_DIGEST, objKey]; omega), hresult, hdigest]
  rw [u.parcel_commitStep n r d agreed hl]
  refine ⟨rfl, rfl, rfl, rfl, fun g hg => ?_, fun b hb hlib => ?_⟩
  · exact u.next_commitStep n r d agreed hl n.isLt (by rw [hgroups]; exact hg)
  · exact u.returned_commitStep n r d agreed hl n.isLt (by rw [hparcel, hb]) (by rw [hcore, hlib])

end Sys2Proof.Machine
end

section
/-! PROOF. Sequenced units of a fabric port (R187, R188, R223): in order they are accepted, otherwise NAK is set. -/

namespace Sys2Proof.Machine

/-! ### A port's link layer -/

section
variable (s : State)

theorem State.link_setLink (p q : Nat) (l : Link) : (s.setLink p l).link q = if q = p then l else s.link q := Sparse.get_set

@[simp] theorem State.link_setLink_same (p : Nat) (l : Link) : (s.setLink p l).link p = l := Sparse.get_set_same

/-- Of two link layers given to a port the later stands. -/
theorem State.link_setLink_twice (p q : Nat) (l m : Link) :
    ((s.setLink p l).setLink p m).link q = if q = p then m else s.link q := by
  rw [State.link_setLink, State.link_setLink]
  split <;> rfl

/-- A port's link layer replaced changes nothing else. -/
theorem State.setLink_only (p : Nat) (l : Link) : { s.setLink p l with links := s.links } = s := by
  cases s; rfl

theorem State.setLinks_only (p : Nat) (l m : Link) : { (s.setLink p l).setLink p m with links := s.links } = s := by
  cases s; rfl

@[simp] theorem State.link_bump (k q : Nat) : (s.bump k).link q = s.link q := by rw [State.link, State.bump_links]; rfl

@[simp] theorem State.link_setObj (k v q : Nat) : (s.setObj k v).link q = s.link q := rfl

@[simp] theorem State.link_advanceTo (t q : Nat) : (s.advanceTo t).link q = s.link q := by
  rw [State.link, State.advanceTo_links]; rfl

end

section
variable {ks : List Nat} {s t : State}

/-- One more object counted. -/
theorem OnlyObjs.bumped (h : OnlyObjs ks s t) {k : Nat} (hk : k ∈ ks) : OnlyObjs ks s (t.bump k) := by
  unfold State.bump State.addObj
  exact h.setObj _ hk

/-- What changes objects alone does so beside a link layer that is replaced. -/
theorem OnlyObjs.setLink (h : OnlyObjs ks s t) (p : Nat) (l : Link) : OnlyObjs ks s { t.setLink p l with links := s.links } :=
  ⟨congrArg (fun u : State => { u with links := s.links }) h.1, h.2⟩

/-- Another object counted after it. -/
theorem Counted.bumped {k j : Nat} (h : Counted k s t) (hne : k ≠ j) : Counted k s (t.bump j) := by
  rw [Counted, State.obj_bump_other t hne]; exact h

/-- A counter counted once others have changed. -/
theorem Counted.bump_of_obj_eq {k : Nat} (h : t.obj k = s.obj k) : Counted k s (t.bump k) := by
  have hb := Counted.bump t k
  rwa [Counted, h] at hb

theorem Counted.setLink {k : Nat} (h : Counted k s t) (p : Nat) (l : Link) : Counted k s (t.setLink p l) := h

theorem State.bump_setLink (s : State) (p k : Nat) (l : Link) : (s.setLink p l).bump k = (s.bump k).setLink p l := by
  unfold State.bump State.addObj
  rfl

end

/-! ### What a received unit does (R188, R223) -/

section
variable {s : State} {p : PortId} {lu : Bytes}

/-- A trailer without NAK starts no replay. -/
theorem State.takeAck_withoutNak (h : unitNak lu = false) :
    s.takeAck p lu = s.setLink p ((s.link p).acked (unitAck lu) s.now) := by
  unfold State.takeAck
  rw [h]
  rfl

theorem State.unitRx_bad (ho : s.linkOpen p = true) (hk : unitKind lu = 1 ∨ unitKind lu = 2) (hg : unitGood lu = false) :
    s.unitRx p lu = (s.bump (Obj.port_CRC_ERR p)).setLink p { s.link p with nak := true } := by
  unfold State.unitRx
  simp [ho, hg, hk]

/-- A good unit without NAK: not next, next with a full stage, or next with room. -/
theorem State.unitRx_good (ho : s.linkOpen p = true) (hk : unitKind lu = 1 ∨ unitKind lu = 2) (hg : unitGood lu = true)
    (hn : unitNak lu = false) {l : Link} (hl : l = (s.link p).acked (unitAck lu) s.now) :
    s.unitRx p lu =
      if unitSeq lu ≠ (l.accepted + 1) % 4096 then (s.setLink p l).setLink p { l with nak := true }
      else if 4 ≤ (s.stageOf p).cells.length then
        (((s.bump (Obj.sw_STAGE_NAK p)).bump Obj.lim_STAGE_NAK_TOTAL).setLink p l).setLink p { l with nak := true }
      else (((s.bump (Obj.port_RX_LU p)).setLink p l).setLink p { l with accepted := unitSeq lu, nak := false }).takeUnit p
        (unitKind lu) (lu.take 248) := by
  have hup : (s.setLink p l).linkUp p = true := by
    unfold State.linkOpen at ho
    simp only [Bool.and_eq_true] at ho
    exact ho.1.1.2
  have hkind : (decide (unitKind lu = 1) || decide (unitKind lu = 2)) = true := by simpa using hk
  unfold State.unitRx
  rw [State.takeAck_withoutNak hn, ← hl]
  simp only [ho, hg, hup, hkind, Bool.not_true, Bool.or_false, Bool.false_eq_true, if_false, State.bump_setLink, State.link_setLink_same]
  rfl

end

/-- Settles O34: each clause is one branch of `State.unitRx_good`, or the branch of a bad CRC. -/
theorem linkUnitsAreAcceptedInOrder : Obligations.LinkUnitsAreAcceptedInOrder := by
  intro s p lu ho hk l
  have next : exec (.linkUnitRx p lu) s = .next (s.unitRx p lu) := rfl
  rw [next]
  refine ⟨fun hg => ?bad, fun hg hn hseq => ?early, fun hg hn hseq hfull => ?full, fun hg hn hseq hroom => ?accepted⟩
  case bad =>
    rw [State.unitRx_bad ho hk hg]
    refine ⟨_, rfl, (Counted.bump s _).setLink p _, (OnlyObjs.bump s _).setLink p _, fun q => ?_⟩
    rw [State.link_setLink, State.link_bump]
  case early =>
    rw [State.unitRx_good ho hk hg hn rfl, if_pos hseq]
    exact ⟨_, rfl, s.setLinks_only p l _, fun q => s.link_setLink_twice p q _ _⟩
  case full =>
    have hne : Obj.sw_STAGE_NAK p ≠ Obj.lim_STAGE_NAK_TOTAL := by
      have := p.isLt
      simp only [Obj.sw_STAGE_NAK, Obj.lim_STAGE_NAK_TOTAL, objKey, endIndex]; split <;> omega
    rw [State.unitRx_good ho hk hg hn rfl, if_neg (not_not.2 hseq), if_pos hfull]
    refine ⟨_, rfl, ?_, ?_, ?_, fun q => ?_⟩
    · exact (((Counted.bump s _).bumped hne).setLink p l).setLink p _
    · exact ((Counted.bump_of_obj_eq (State.obj_bump_other s hne.symm)).setLink p l).setLink p _
    · have counted := ((OnlyObjs.refl [Obj.sw_STAGE_NAK p, Obj.lim_STAGE_NAK_TOTAL] s).bumped (.head _)).bumped (.tail _ (.head _))
      exact counted.setLink p l
    · rw [State.link_setLink_twice, State.link_bump, State.link_bump]
  case accepted =>
    rw [State.unitRx_good ho hk hg hn rfl, if_neg (not_not.2 hseq), if_neg (Nat.not_le.2 hroom)]
    refine ⟨_, rfl, ((Counted.bump s _).setLink p l).setLink p _, (OnlyObjs.bump s _).setLink p l, fun q => ?_⟩
    rw [State.link_setLink_twice, State.link_bump]

end Sys2Proof.Machine
end

section
/-! PROOF. Replays (R188): every unacknowledged unit is sent again. -/

namespace Sys2Proof.Machine

/-! ### Units sent on a port (R187) -/

/-- Fabric port `p` sent `us`: besides, only TX_LU can differ. -/
structure UnitsSent (p : PortId) (us : List Output) (s t : State) : Prop where
  only : { t with objs := s.objs, sent := s.sent } = s
  objs : ∀ k, k ≠ Obj.port_TX_LU p → t.obj k = s.obj k
  sent : t.sent = s.sent ++ us

section
variable {p : PortId} {us vs : List Output} {s t u : State}

theorem UnitsSent.nil (p : PortId) (s : State) : UnitsSent p [] s s := ⟨rfl, fun _ _ => rfl, (List.append_nil _).symm⟩

theorem UnitsSent.trans (h : UnitsSent p us s t) (g : UnitsSent p vs t u) : UnitsSent p (us ++ vs) s u := by
  refine ⟨?_, fun k hk => (g.objs k hk).trans (h.objs k hk), by rw [g.sent, h.sent, List.append_assoc]⟩
  exact (congrArg (fun x : State => { x with objs := s.objs, sent := s.sent }) g.only).trans h.only

theorem UnitsSent.links (h : UnitsSent p us s t) : t.links = s.links := (congrArg State.links h.only :)

theorem UnitsSent.link (h : UnitsSent p us s t) (q : Nat) : t.link q = s.link q := congrArg (Sparse.get Link.reset · q) h.links

theorem UnitsSent.now (h : UnitsSent p us s t) : t.now = s.now := congrArg BitVec.toNat (congrArg State.ft h.only :)

theorem UnitsSent.mem (h : UnitsSent p us s t) : t.mem = s.mem := (congrArg State.mem h.only :)

theorem UnitsSent.cores (h : UnitsSent p us s t) : t.cores = s.cores := (congrArg State.cores h.only :)

/-- The unit that a port sends carries its receiver's ACK and NAK (R187). -/
def State.unitOf (s : State) (p : PortId) (kind seq : Nat) (data : Bytes) : Output :=
  .lu p (linkUnit kind seq (s.link p).accepted (s.link p).nak data)

/-- A unit other than an idle one is counted. -/
theorem State.sendUnit_counted (s : State) (p : PortId) {kind : Nat} (h : kind ≠ 0) (seq : Nat) (data : Bytes) :
    s.sendUnit p kind seq data = (s.emit (s.unitOf p kind seq data)).bump (Obj.port_TX_LU p) := if_neg h

theorem State.sendUnit_idle (s : State) (p : PortId) (seq : Nat) (data : Bytes) :
    s.sendUnit p 0 seq data = s.emit (s.unitOf p 0 seq data) := rfl

theorem UnitsSent.emit (s : State) (p : PortId) (o : Output) : UnitsSent p [o] s (s.emit o) := by
  refine ⟨?_, fun _ _ => rfl, rfl⟩
  cases s; rfl

theorem UnitsSent.bump (h : UnitsSent p us s t) : UnitsSent p us s (t.bump (Obj.port_TX_LU p)) := by
  refine ⟨?_, fun k hk => (State.obj_bump_other t hk).trans (h.objs k hk), (State.bump_sent t _).trans h.sent⟩
  unfold State.bump State.addObj
  exact h.only

theorem UnitsSent.sendUnit (s : State) (p : PortId) (kind seq : Nat) (data : Bytes) :
    UnitsSent p [s.unitOf p kind seq data] s (s.sendUnit p kind seq data) := by
  by_cases h : kind = 0
  · subst h; rw [State.sendUnit_idle]; exact UnitsSent.emit s p _
  · rw [State.sendUnit_counted s p h]; exact (UnitsSent.emit s p _).bump

/-- Units sent one after another. -/
theorem UnitsSent.sendUnits (s : State) (p : PortId) (l : List (Nat × Nat × Bytes)) :
    UnitsSent p (l.map fun u => s.unitOf p u.2.1 u.1 u.2.2) s (l.foldl (fun s u => s.sendUnit p u.2.1 u.1 u.2.2) s) := by
  induction l generalizing s with
  | nil => exact UnitsSent.nil p s
  | cons e l ih =>
    have first := UnitsSent.sendUnit s p e.2.1 e.1 e.2.2
    have rest := first.trans (ih _)
    simp only [State.unitOf, first.link] at rest
    exact rest

end

/-! ### A replay -/

/-- What a replay of `n` units counts: REPLAYS and LU_REPLAYED of its port and of the parcels. -/
def State.replayCounted (s : State) (p : PortId) (n : Nat) : State :=
  [0, 1, 2, 3].foldl (fun s m => s.addObj (Obj.parfab_LU_REPLAYED m) n) ((s.bump (Obj.port_REPLAYS p)).addObj (Obj.port_LU_REPLAYED p) n)

/-- The link layer as a replay leaves it. -/
def Link.replayed (l : Link) (now : Nat) : Link := { l with stuck := l.stuck + 1, progressAt := now }

section
variable {s : State} {p : PortId}

theorem State.replay_down (hr : (s.link p).replay ≠ []) (h : 8 ≤ (s.link p).stuck) : s.replay p = s.linkDown p 1 := by
  unfold State.replay
  rw [if_neg hr, if_pos h]

theorem State.replay_resends (hr : (s.link p).replay ≠ []) (h : (s.link p).stuck < 8) :
    s.replay p = (s.link p).replay.foldl (fun s u => s.sendUnit p u.2.1 u.1 u.2.2)
      ((s.setLink p ((s.link p).replayed s.now)).replayCounted p (s.link p).replay.length) := by
  unfold State.replay
  rw [if_neg hr, if_neg (Nat.not_le.2 h)]
  rfl

variable (s : State) (p : PortId) (n : Nat)

theorem State.replayCounted_eq : s.replayCounted p n = ((((((s.bump (Obj.port_REPLAYS p)).addObj (Obj.port_LU_REPLAYED p) n).addObj
    (Obj.parfab_LU_REPLAYED 0) n).addObj (Obj.parfab_LU_REPLAYED 1) n).addObj (Obj.parfab_LU_REPLAYED 2) n).addObj
    (Obj.parfab_LU_REPLAYED 3) n) := rfl

theorem State.replayCounted_only : { s.replayCounted p n with objs := s.objs } = s := by
  have h (t : State) (ht : { t with objs := s.objs } = s) (k : Nat) : { t.addObj k n with objs := s.objs } = s := by
    unfold State.addObj; split <;> exact ht
  exact h _ (h _ (h _ (h _ (h _ (OnlyObjs.bump s _).1 _) _) _) _) _

/-- The objects of a fabric port lie apart from those of the parcels. -/
theorem port_ne_parfab {j : Nat} (hj : j < 256) (m i : Nat) (hi : i < 256) : objKey (0x3000 + p.val) j ≠ objKey (0x4100 + m) i := by
  have := p.isLt
  simp only [objKey]; omega

theorem State.counted_replayCounted : Counted (Obj.port_REPLAYS p) s (s.replayCounted p n) := by
  have hne (m : Nat) : Obj.port_REPLAYS p ≠ Obj.parfab_LU_REPLAYED m := port_ne_parfab p (by decide) m _ (by decide)
  have hown : Obj.port_REPLAYS p ≠ Obj.port_LU_REPLAYED p := by simp only [Obj.port_REPLAYS, Obj.port_LU_REPLAYED, objKey]; omega
  rw [Counted, State.replayCounted_eq, State.obj_addObj_other _ n (hne 3), State.obj_addObj_other _ n (hne 2),
    State.obj_addObj_other _ n (hne 1), State.obj_addObj_other _ n (hne 0), State.obj_addObj_other _ n hown]
  exact Counted.bump s _

theorem State.luReplayed_replayCounted (hn : n ≠ 0) : (s.replayCounted p n).obj (Obj.port_LU_REPLAYED p) =
    min (2 ^ objBits (Obj.port_LU_REPLAYED p) - 1) (s.obj (Obj.port_LU_REPLAYED p) + n) := by
  have hne (m : Nat) : Obj.port_LU_REPLAYED p ≠ Obj.parfab_LU_REPLAYED m := port_ne_parfab p (by decide) m _ (by decide)
  have hown : Obj.port_LU_REPLAYED p ≠ Obj.port_REPLAYS p := by simp only [Obj.port_REPLAYS, Obj.port_LU_REPLAYED, objKey]; omega
  rw [State.replayCounted_eq, State.obj_addObj_other _ n (hne 3), State.obj_addObj_other _ n (hne 2),
    State.obj_addObj_other _ n (hne 1), State.obj_addObj_other _ n (hne 0), State.obj_addObj_same _ hn, State.obj_bump_other _ hown,
    satN_eq_min]

variable {s p}

/-- A replay sends the units of the buffer, is counted, and lengthens the run of replays. -/
theorem State.replay_spec (hr : (s.link p).replay ≠ []) (h : (s.link p).stuck < 8) :
    { s.replay p with objs := s.objs, links := s.links, sent := s.sent } = s ∧
      (s.replay p).sent = s.sent ++ (s.link p).replay.map (fun u => s.unitOf p u.2.1 u.1 u.2.2) ∧
      Counted (Obj.port_REPLAYS p) s (s.replay p) ∧
      (s.replay p).obj (Obj.port_LU_REPLAYED p) =
        min (2 ^ objBits (Obj.port_LU_REPLAYED p) - 1) (s.obj (Obj.port_LU_REPLAYED p) + (s.link p).replay.length) ∧
      ∀ q, (s.replay p).link q = if q = p.val then (s.link p).replayed s.now else s.link q := by
  rw [State.replay_resends hr h]
  generalize hw : s.setLink p ((s.link p).replayed s.now) = w
  have hlink (q : Nat) : w.link q = if q = p.val then (s.link p).replayed s.now else s.link q := by rw [← hw, State.link_setLink]
  have hunit (kind seq : Nat) (data : Bytes) : w.unitOf p kind seq data = s.unitOf p kind seq data := by
    rw [State.unitOf, hlink, if_pos rfl]; rfl
  have only := w.replayCounted_only p (s.link p).replay.length
  have counted := w.counted_replayCounted p (s.link p).replay.length
  have resent := w.luReplayed_replayCounted p _ (List.length_pos_iff.2 hr).ne'
  have sends := UnitsSent.sendUnits (w.replayCounted p (s.link p).replay.length) p (s.link p).replay
  generalize w.replayCounted p (s.link p).replay.length = v at only counted resent sends ⊢
  have hvlink (q : Nat) : v.link q = w.link q := congrArg (Sparse.get Link.reset · q) (congrArg State.links only :)
  have hvunit (kind seq : Nat) (data : Bytes) : v.unitOf p kind seq data = s.unitOf p kind seq data := by
    rw [← hunit, State.unitOf, State.unitOf, hvlink]
  simp only [hvunit] at sends
  have hsent : v.sent = s.sent := by rw [← hw] at only; exact (congrArg State.sent only :)
  have hobj (k : Nat) : w.obj k = s.obj k := by rw [← hw]; rfl
  have hne {j : Nat} (hj : j < 0x11) : objKey (0x3000 + p.val) j ≠ Obj.port_TX_LU p := by simp only [Obj.port_TX_LU, objKey]; omega
  refine ⟨?_, by rw [sends.sent, hsent], ?_, ?_, fun q => by rw [sends.link, hvlink, hlink]⟩
  · have hv : { v with objs := s.objs, links := s.links, sent := s.sent } = s := by
      rw [← hw] at only
      exact (congrArg (fun x : State => { x with objs := s.objs, links := s.links, sent := s.sent }) only).trans
        (congrArg (fun x : State => { x with objs := s.objs, sent := s.sent }) (s.setLink_only p ((s.link p).replayed s.now)))
    exact (congrArg (fun x : State => { x with objs := s.objs, links := s.links, sent := s.sent }) sends.only).trans hv
  · rw [Counted, sends.objs (Obj.port_REPLAYS p) (hne (j := 0x0B) (by decide)), ← hobj]; exact counted
  · rw [sends.objs (Obj.port_LU_REPLAYED p) (hne (j := 0x0C) (by decide)), ← hobj]; exact resent

end

/-- REPLAY_TIMEOUT of an open port with units unacknowledged comes at its instant. -/
theorem exec_replayTimeout {s : State} {p : PortId} (ho : s.linkOpen p = true) (hr : (s.link p).replay ≠ []) :
    exec (.replayTimeout p) s =
      .next ((s.advanceTo ((s.link p).progressAt + s.obj Obj.topo_REPLAY_TIMEOUT * 1024)).replay p) := by
  show execReplayTimeout p s = _
  unfold execReplayTimeout
  simp only [ho, hr, ne_eq, not_false_eq_true, decide_true, Bool.and_self, if_true]

/-- Settles O35: a replay (`State.replay_spec`, `State.replay_down`) at its instant. -/
theorem replayResendsEveryUnacknowledgedUnit : Obligations.ReplayResendsEveryUnacknowledgedUnit := by
  rintro s p due ho hr rfl hlt
  rw [exec_replayTimeout ho hr]
  generalize hu : s.advanceTo ((s.link p).progressAt + s.obj Obj.topo_REPLAY_TIMEOUT * 1024) = u
  have hlink (q : Nat) : u.link q = s.link q := hu ▸ s.link_advanceTo _ q
  have hobj (k : Nat) : u.obj k = s.obj k := hu ▸ s.obj_advanceTo _ k
  have hnow : u.now = max s.now ((s.link p).progressAt + s.obj Obj.topo_REPLAY_TIMEOUT * 1024) := hu ▸ s.now_advanceTo hlt
  have hru : (u.link p).replay ≠ [] := by rwa [hlink]
  refine ⟨fun hstuck => ?_, fun hstuck => by rw [State.replay_down hru (by rwa [hlink])]⟩
  obtain ⟨only, sent, counted, resent, links⟩ := State.replay_spec hru (by rwa [hlink])
  have now : (u.replay p).now = u.now := congrArg BitVec.toNat (congrArg State.ft only :)
  have mem : (u.replay p).mem = u.mem := (congrArg State.mem only :)
  have cores : (u.replay p).cores = u.cores := (congrArg State.cores only :)
  simp only [Counted, State.unitOf, hlink, hobj] at sent counted resent links
  refine ⟨_, rfl, now.trans hnow, ?_, counted, resent, fun q => ?_, ?_, ?_⟩
  · rw [sent, ← hu, State.advanceTo_sent]
  · rw [links, now]; rfl
  · rw [mem, ← hu, State.advanceTo_mem]
  · rw [cores, ← hu, State.advanceTo_cores]

end Sys2Proof.Machine
end

section
/-! PROOF. Control units (R189, R190) and the PCS (R184, R190). -/

namespace Sys2Proof.Machine

/-! ### The time function leaves the link layers -/

section
variable (s : State)

theorem State.links_setTimeState (v : Nat) : (s.setTimeState v).links = s.links := by
  unfold State.setTimeState
  split
  · rfl
  · dsimp only; split <;> rfl

theorem State.links_leaveSource : s.leaveSource.links = s.links := by
  unfold State.leaveSource; split <;> rfl

theorem State.links_setDatum (phys prio dist parent : Nat) : (s.setDatum phys prio dist parent).links = s.links := rfl

theorem State.links_modTime (f : TimeSt → TimeSt) : (s.modTime f).links = s.links := rfl

theorem State.links_setFreq (adj : Int) : (s.setFreq adj).links = s.links := rfl

theorem State.links_acquire : s.acquire.links = s.links := by
  rw [State.acquire, State.links_setTimeState, State.links_modTime]

theorem State.links_ite {c : Prop} [Decidable c] {t u : State} {l : Sparse Link} (h : t.links = l) (g : u.links = l) :
    (if c then t else u).links = l := by
  split <;> assumption

theorem State.links_elect : s.elect.links = s.links := by
  have counted (c : Prop) [Decidable c] : (if c then s else s.bump Obj.time_ELECTIONS).links = s.links :=
    State.links_ite rfl (s.bump_links _)
  unfold State.elect
  refine State.links_ite rfl ?_
  dsimp only
  generalize bestKey _ = best
  cases best with
  | none => simp only [State.links_setTimeState, State.links_setDatum, State.links_leaveSource, counted]
  | some k =>
    refine State.links_ite (State.links_ite ?_ ?_) ?_
    · simp only [State.setObj_links, State.links_setDatum, counted]
    · simp only [State.links_setTimeState, State.links_setFreq, State.links_modTime, State.setObj_links, State.links_setDatum, counted]
    · split
      · exact counted _
      · refine State.links_ite ?_ ?_ <;>
          simp only [State.links_acquire, State.setObj_links, State.links_setDatum, State.links_leaveSource, counted]

theorem State.links_timeLink (p : Nat) : (s.timeLink p).links = s.links := State.links_elect _

end

/-! ### An advisory entered (R377) -/

theorem OnlyObjs.mono {ks ls : List Nat} {s t : State} (h : OnlyObjs ks s t) (g : ∀ k ∈ ks, k ∈ ls) : OnlyObjs ls s t :=
  ⟨h.1, fun k hk => h.2 k fun hks => hk (g k hks)⟩

/-- An advisory is one entry of the error ring. -/
theorem OnlyObjs.advise (s : State) (fn : Nat) (parcel : Option Nat) (code unit detail : Nat) :
    OnlyObjs [Obj.ring_WRITE_SEQ, Obj.ring_ENTRY (s.obj Obj.ring_WRITE_SEQ), Obj.ring_ENTRIES 0] s
      (s.advise fn parcel code unit detail) := by
  have entered : s.advise fn parcel code unit detail = (s.enter ⟨0, fn, parcel, code, unit, detail⟩).1 := by
    simp [State.advise, State.raise, State.enter]
  rw [entered]
  simp only [State.enter, Nat.not_le.2 Nat.zero_lt_two, decide_false, Bool.and_false, Bool.false_eq_true, if_false, false_and]
  exact (((OnlyObjs.refl _ s).setObj _ (by simp)).setObj _ (by simp)).bumped (by simp)

/-! ### Control units -/

/-- The counts of a control unit. -/
theorem Sparse.get_foldl_set (f : Nat → Nat) (n i : Nat) (m : Sparse Nat) :
    Sparse.get 0 ((List.range n).foldl (fun r j => Sparse.set 0 r j (f j)) m) i = if i < n then f i else Sparse.get 0 m i := by
  induction n with
  | zero => rfl
  | succ n ih =>
    rw [List.range_succ, List.foldl_append, List.foldl_cons, List.foldl_nil, Sparse.get_set]
    by_cases h : i = n
    · simp [h]
    · rw [if_neg h, ih]
      congr 1
      simp only [eq_iff_iff]; omega

theorem Link.returned_takeCredits (l : Link) (d : Bytes) {i : Nat} (h : i < 40) :
    Sparse.get 0 (l.takeCredits d).returned i = beAt d (2 * i) 2 := by
  rw [Link.takeCredits, Sparse.get_foldl_set, if_pos h]

section
variable {s : State} {p : PortId} {lu : Bytes}

/-- The peer of a port as a control unit names it. -/
def State.peerKnown (s : State) (p : PortId) (info : PeerInfo) : State :=
  ((s.setLink p { s.link p with peer := some info }).setObj (Obj.port_PEER_PHYS_ID p) info.physId).setObj (Obj.port_PEER_PORT p) info.port

theorem State.peerKnown_only (s : State) (p : PortId) (info : PeerInfo) :
    OnlyObjs [Obj.port_PEER_PHYS_ID p, Obj.port_PEER_PORT p] s { s.peerKnown p info with links := s.links } :=
  (((OnlyObjs.refl _ s).setObj _ (by simp)).setObj _ (by simp)).setLink p { s.link p with peer := some info }

theorem State.obj_peerKnown (s : State) (p : PortId) (info : PeerInfo) {k : Nat} (h : k ≠ Obj.port_PEER_PHYS_ID p)
    (h' : k ≠ Obj.port_PEER_PORT p) : (s.peerKnown p info).obj k = s.obj k :=
  (s.peerKnown_only p info).2 k (by simp [h, h'])

theorem State.link_peerKnown (s : State) (p : PortId) (info : PeerInfo) (q : Nat) :
    (s.peerKnown p info).link q = if q = p.val then { s.link p with peer := some info } else s.link q := s.link_setLink p q _

/-- The layout rests on the objects of the topology, which lie beyond those of the ports. -/
theorem State.expected_congr {s t : State} (h : ∀ i j, 0x4000 ≤ i → t.obj (objKey i j) = s.obj (objKey i j)) (p : Nat) :
    t.expected p = s.expected p := by
  have topo (j : Nat) : t.obj (objKey 0x4000 j) = s.obj (objKey 0x4000 j) := h _ j (le_refl _)
  have hdims : t.dims = s.dims := topo _
  have hsize : t.sizeD = s.sizeD := funext fun _ => topo _
  have htrunk : t.trunkD = s.trunkD := funext fun _ => topo _
  have hspares : t.hasSpares = s.hasSpares := congrArg (fun n => decide (n = 1)) (topo _)
  have hspare : t.onSpare = s.onSpare := congrArg (fun n => decide (n = 32)) (topo _)
  have hgroup : t.obj Obj.topo_GROUP = s.obj Obj.topo_GROUP := topo _
  have hposition : t.obj Obj.topo_POSITION = s.obj Obj.topo_POSITION := topo _
  have hown : t.ownCoord = s.ownCoord := by funext k; simp only [State.ownCoord, hgroup, hposition]
  have hpeers : t.peersD = s.peersD := by funext k; simp only [State.peersD, hsize, hspares]
  have hbase : t.baseD = s.baseD := by
    funext k
    induction k with
    | zero => rfl
    | succ k ih => rw [State.baseD, State.baseD, ih, hpeers, htrunk]
  have hpos : t.posAt = s.posAt := by funext k j; simp only [State.posAt, hspare, hsize, hown]
  simp only [State.expected, State.place3, hdims, hbase, htrunk, hgroup, hposition, hpos, hown, hspare, hsize]

/-- A link that an enabled peer's control unit finds down comes up for the peer expected, or is held down. -/
theorem State.controlRx_down (hd : s.portsDisabled = false) (hup : s.linkUp p = false) (hp : (peerOf lu).disabled = false)
    {u v : State} (hu : u = s.peerKnown p (peerOf lu)) (hv : v = u.setObj (Obj.port_WIRING p) 0) :
    s.controlRx p lu =
      if s.expected p = some ((peerOf lu).group, (peerOf lu).position, (peerOf lu).port) then
        (if s.fabricOn then (v.bringUp p).setLink p (((v.bringUp p).link p).takeCredits lu) else v)
      else
        ((if u.obj (Obj.port_WIRING p) = 1 then u else u.advise 4 none 0x0602 p 0).setObj (Obj.port_WIRING p) 1).setObj
          (Obj.port_LINK_STATE p) 0 := by
  have := p.isLt
  have far (i j : Nat) (hi : 0x4000 ≤ i) : u.obj (objKey i j) = s.obj (objKey i j) := by
    rw [hu, s.obj_peerKnown] <;> simp only [Obj.port_PEER_PHYS_ID, Obj.port_PEER_PORT, objKey] <;> omega
  have hstate : u.obj (Obj.port_LINK_STATE p) = s.obj (Obj.port_LINK_STATE p) := by
    rw [hu, s.obj_peerKnown] <;> simp only [Obj.port_LINK_STATE, Obj.port_PEER_PHYS_ID, Obj.port_PEER_PORT, objKey] <;> omega
  have hfn : v.fnState 4 = s.fnState 4 := by
    rw [hv, State.fnState, State.obj_setObj_other, hu, s.obj_peerKnown] <;>
      simp only [State.fnState, Obj.fn_STATE, Obj.port_PEER_PHYS_ID, Obj.port_PEER_PORT, Obj.port_WIRING, objKey] <;> omega
  have h1 : u.portsDisabled = false := by
    rw [← hd, State.portsDisabled, State.portsDisabled, Obj.topo_POSITION, far _ _ (le_refl _), hu]
    rfl
  have h2 : u.linkUp p = false := by rw [← hup, State.linkUp, State.linkUp, hstate]
  have h3 : u.expected p = s.expected p := State.expected_congr far p
  have h4 : v.fabricOn = s.fabricOn := by rw [State.fabricOn, hfn, State.fabricOn]
  rw [← h3, ← h4]
  subst hv hu
  show (if (s.peerKnown p (peerOf lu)).portsDisabled = true then _ else if (peerOf lu).disabled = true then _
    else if (s.peerKnown p (peerOf lu)).linkUp p = true then _ else _) = _
  rw [h1, hp, h2]
  rfl

/-! ### A link comes up -/

/-- The link layer of a port right after its link comes up. -/
theorem State.link_bringUp (s : State) (p : Nat) :
    (s.bringUp p).link p = { (s.link p).down with creditInit := s.initialCredits p, progressAt := s.now } := by
  show Sparse.get Link.reset (State.timeLink _ p).links p = _
  rw [State.links_timeLink]
  exact s.link_setLink_same p _

theorem State.initialCredits_congr {s t : State} {p : Nat} (h : ∀ i j, 0x4000 ≤ i → t.obj (objKey i j) = s.obj (objKey i j))
    (hs : t.obj (Obj.sw_CREDIT_SCALE p) = s.obj (Obj.sw_CREDIT_SCALE p)) : t.initialCredits p = s.initialCredits p := by
  unfold State.initialCredits
  rw [hs]
  refine List.map_congr_left fun i _ => ?_
  rw [Obj.lim_CREDIT, h _ _ (by decide)]

end

section
variable {s : State} {p : PortId}

/-- A good control unit on a locked fabric port is taken. -/
theorem exec_controlUnitRx {lu : Bytes} (hp : p.val < 125) (hr : s.obj (Obj.port_ROLE p) = 1) (hl : (s.link p).locked = true)
    (hg : unitGood lu = true) (hk : unitKind lu = 3) : exec (.controlUnitRx p lu) s = .next (s.controlRx p lu) := by
  show execControlUnitRx p lu s = _
  unfold execControlUnitRx
  rw [hl, hg, decide_eq_true hp, decide_eq_true hr, decide_eq_true hk]
  rfl

theorem exec_controlUnitTx (hp : p.val < 125) (hr : s.obj (Obj.port_ROLE p) = 1) (hl : (s.link p).locked = true) :
    exec (.controlUnitTx p) s = .next ((s.sendUnit p 3 (s.link p).nextSeq (s.controlData p)).setLink p
      { s.link p with sentGrant := (s.link p).granted, controlAt := (s.sendUnit p 3 (s.link p).nextSeq (s.controlData p)).now }) := by
  show execControlUnitTx p s = _
  unfold execControlUnitTx
  simp only [hl, decide_eq_true hp, decide_eq_true hr, Bool.and_self, if_true]

end

/-- The objects of a fabric port that a control unit sets. -/
def controlObjs (p : PortId) : List Nat := [Obj.port_PEER_PHYS_ID p, Obj.port_PEER_PORT p, Obj.port_WIRING p]

/-- The port of a known peer whose WIRING is as expected. -/
theorem State.wired_spec (s : State) (p : PortId) (info : PeerInfo) {v : State}
    (hv : v = (s.peerKnown p info).setObj (Obj.port_WIRING p) 0) :
    OnlyObjs (controlObjs p) s { v with links := s.links } ∧ v.obj (Obj.port_PEER_PHYS_ID p) = info.physId ∧
      v.obj (Obj.port_PEER_PORT p) = info.port ∧ v.obj (Obj.port_WIRING p) = 0 := by
  have h1 : Obj.port_PEER_PHYS_ID p ≠ Obj.port_WIRING p := by simp only [Obj.port_PEER_PHYS_ID, Obj.port_WIRING, objKey]; omega
  have h2 : Obj.port_PEER_PORT p ≠ Obj.port_WIRING p := by simp only [Obj.port_PEER_PORT, Obj.port_WIRING, objKey]; omega
  have h3 : Obj.port_PEER_PHYS_ID p ≠ Obj.port_PEER_PORT p := by simp only [Obj.port_PEER_PHYS_ID, Obj.port_PEER_PORT, objKey]; omega
  subst hv
  refine ⟨?_, ?_, ?_, State.obj_setObj_same _ _ _⟩
  · have known := (s.peerKnown_only p info).mono (ls := controlObjs p) (by simp [controlObjs])
    exact known.setObj (k := Obj.port_WIRING p) 0 (by simp [controlObjs])
  · rw [State.obj_setObj_other _ _ h1, State.peerKnown, State.obj_setObj_other _ _ h3, State.obj_setObj_same]
  · rw [State.obj_setObj_other _ _ h2, State.peerKnown, State.obj_setObj_same]

/-- Settles O36: a control unit on a link that is down (`State.controlRx_down`), and the unit that a port sends. -/
theorem controlUnitsBringLinksUp : Obligations.ControlUnitsBringLinksUp := by
  intro s p hp hr hl
  refine ⟨fun lu hg hk hd hup hpeer => ⟨fun he hf => ?up, fun he => ?held⟩, ?sent⟩
  case up =>
    rw [exec_controlUnitRx hp hr hl hg hk, State.controlRx_down hd hup hpeer rfl rfl, if_pos he, if_pos hf]
    generalize hv : (s.peerKnown p (peerOf lu)).setObj (Obj.port_WIRING p) 0 = v
    obtain ⟨only, hphys, hport, hwiring⟩ := s.wired_spec p (peerOf lu) hv.symm
    have hcredits : v.initialCredits p = s.initialCredits p := by
      refine State.initialCredits_congr (fun i j hi => only.2 _ ?_) (only.2 _ ?_) <;>
        simp only [controlObjs, Obj.sw_CREDIT_SCALE, endIndex, Obj.port_PEER_PHYS_ID, Obj.port_PEER_PORT, Obj.port_WIRING, objKey,
          List.mem_cons, List.not_mem_nil, or_false] <;> omega
    refine ⟨_, v, rfl, only, hphys, hport, hwiring, rfl, ?_⟩
    rw [State.link_setLink_same, State.link_bringUp]
    exact ⟨hcredits, rfl, rfl, rfl, fun i hi => Link.returned_takeCredits _ lu hi⟩
  case held =>
    rw [exec_controlUnitRx hp hr hl hg hk, State.controlRx_down hd hup hpeer rfl rfl, if_neg he]
    generalize hu : s.peerKnown p (peerOf lu) = u
    generalize hw : (if u.obj (Obj.port_WIRING p) = 1 then u else u.advise 4 none 0x0602 p 0) = w
    have hne : Obj.port_WIRING p ≠ Obj.port_LINK_STATE p := by simp only [Obj.port_WIRING, Obj.port_LINK_STATE, objKey]; omega
    have only : { w with objs := u.objs } = u := by
      rw [← hw]; split
      · rfl
      · exact (OnlyObjs.advise u 4 none 0x0602 p 0).1
    have links : w.links = u.links := (congrArg State.links only :)
    have mem : w.mem = u.mem := (congrArg State.mem only :)
    have cores : w.cores = u.cores := (congrArg State.cores only :)
    refine ⟨_, rfl, ?_, State.obj_setObj_same _ _ _, ?_, ?_, ?_⟩
    · rw [State.obj_setObj_other _ _ hne, State.obj_setObj_same]
    · rw [State.link_setObj, State.link_setObj, State.link, links, ← hu]
      exact (s.link_peerKnown p _ p).trans (if_pos rfl)
    · rw [State.setObj_mem, State.setObj_mem, mem, ← hu]; rfl
    · rw [State.setObj_cores, State.setObj_cores, cores, ← hu]; rfl
  case sent =>
    have sends := UnitsSent.sendUnit s p 3 (s.link p).nextSeq (s.controlData p)
    rw [exec_controlUnitTx hp hr hl]
    refine ⟨_, rfl, sends.sent, ⟨?_, fun k hk => sends.objs k (by simpa using hk)⟩, ?_⟩
    · exact congrArg (fun x : State => { x with links := s.links }) sends.only
    · rw [State.link_setLink_same, sends.now]

end Sys2Proof.Machine
end

section
/-! PROOF. The PCS of a port locks and loses its lock (R184, R190). -/

namespace Sys2Proof.Machine

section
variable {s : State} {p : PortId}

/-- The link layer of a port whose link has trained (R184). -/
def trainedLink (res : TrainResult) : Link := { Link.reset with locked := true, half := decide (res ≠ .full) }

/-- The link layer of a port whose PCS lost its lock (R190). -/
def Link.unlocked (l : Link) : Link := { l.down with locked := false, peer := none }

/-- Training completes: a link that was up goes down, and the link layer starts anew. -/
theorem exec_linkTrainDone (res : TrainResult) (hf : s.fnState 4 ≠ 0) (hr : s.obj (Obj.port_ROLE p) ≠ 0)
    (hm : res = .full ∨ s.obj (Obj.port_MODE p) = 1) {u : State} (hu : u = if s.linkUp p then s.linkDown p 1 else s) :
    exec (.linkTrainDone p res) s = .next ((u.setLink p (trainedLink res)).setObj (Obj.port_LINK_STATE p)
      (if s.obj (Obj.port_ROLE p) = 2 then 2 else if u.portsDisabled then 4 else 1)) := by
  subst hu
  have htrains : ¬ (s.fnState 4 = 0 ∨ s.obj (Obj.port_ROLE p) = 0 ∨
      ((!decide (res = .full)) = true ∧ s.obj (Obj.port_MODE p) ≠ 1)) := by
    rintro (h | h | ⟨h, h'⟩)
    · exact hf h
    · exact hr h
    · exact hm.elim (fun e => by simp [e] at h) h'
  show execLinkTrainDone p res s = _
  unfold execLinkTrainDone
  dsimp only
  rw [if_neg htrains]
  have hhalf : (!decide (res = .full)) = decide (res ≠ .full) := by simp
  rw [hhalf]
  generalize (if s.linkUp p = true then s.linkDown p 1 else s) = u
  show Host.Outcome.next (if s.obj (Obj.port_ROLE p) = 2 then _ else if u.portsDisabled = true then _ else _) = _
  by_cases h2 : s.obj (Obj.port_ROLE p) = 2
  · rw [if_pos h2, if_pos h2]; rfl
  · rw [if_neg h2, if_neg h2]
    by_cases hd : u.portsDisabled = true
    · rw [if_pos hd, if_pos hd]; rfl
    · rw [if_neg hd, if_neg hd]; rfl

/-- A PCS that loses its lock takes the link down, unless the device holds the port disabled. -/
theorem exec_pcsLockLoss (hl : (s.link p).locked = true) {u : State}
    (hu : u = if s.obj (Obj.port_LINK_STATE p) = 4 then s else s.linkDown p 1) :
    exec (.pcsLockLoss p) s = .next (u.setLink p (u.link p).unlocked) := by
  subst hu
  show execPcsLockLoss p s = _
  unfold execPcsLockLoss
  rw [if_pos hl]
  rfl

/-- The going down of a link that is down sets LINK_STATE. -/
theorem State.linkDown_down (h : s.linkUp p = false) (v : Nat) : s.linkDown p v = s.setObj (Obj.port_LINK_STATE p) v := by
  unfold State.linkDown
  rw [h]
  rfl

end

/-- Settles O37: what is left of a port is the link layer given to it last. -/
theorem trainingStartsTheLinkLayerAnew : Obligations.TrainingStartsTheLinkLayerAnew := by
  intro s p
  refine ⟨fun res hf hr hm => ?trained, fun hl => ?lost⟩
  case trained =>
    rw [exec_linkTrainDone res hf hr hm rfl]
    refine ⟨_, rfl, ?_, fun h2 => ?_, fun h2 hdown => ?_⟩
    · rw [State.link_setObj, State.link_setLink_same]; rfl
    · rw [State.obj_setObj_same, if_pos h2]
    · rw [State.obj_setObj_same, if_neg h2, hdown]
      exact ⟨rfl, ((OnlyObjs.refl _ s).setObj _ (.head _)).setLink p (trainedLink res)⟩
  case lost =>
    rw [exec_pcsLockLoss hl rfl]
    refine ⟨_, rfl, fun hdown => ?_, ?_⟩
    · by_cases h4 : s.obj (Obj.port_LINK_STATE p) = 4
      · rw [if_pos h4, if_pos h4, State.link_setLink_same]
        exact ⟨rfl, h4, (OnlyObjs.refl _ s).setLink p _⟩
      · rw [if_neg h4, if_neg h4, State.linkDown_down hdown, State.link_setLink_same]
        exact ⟨rfl, State.obj_setObj_same _ _ _, ((OnlyObjs.refl _ s).setObj _ (.head _)).setLink p _⟩
    · rw [State.link_setLink_same]
      exact ⟨rfl, rfl, rfl, rfl⟩

end Sys2Proof.Machine
end

section
/-! PROOF. Management over Renensan (R192, R196, R408): a mgmt packet of the fabric reaches the dictionary, and is answered. -/

namespace Sys2Proof.Machine

section
variable {s : State} {at_ : RxAt} {k : Packet}

/-- A request that stands received from the fabric, or from this device, passes the checks of its header (R191, R196). -/
theorem State.checkRequest_arrived (h : Arrived s at_ k) : (s.taken at_ k).checkRequest at_ k = ⟨s.taken at_ k, some none⟩ := by
  obtain ⟨-, hsvc, -, hok, hdst⟩ := h
  have hlim : (s.taken at_ k).lenLimit at_ = 4096 := by
    unfold RxAt.service at hsvc
    unfold State.lenLimit
    split
    · rename_i p hp
      rw [hp] at hsvc
      exact if_neg (by simpa using hsvc)
    · rfl
  rw [State.checkRequest, hlim, hok, hsvc]
  exact if_neg (not_not.2 hdst)

/-! ### Admission (R196, R408) -/

/-- What carries out a mgmt packet, and what answers it. -/
def State.mgmtServed (u : State) (at_ : RxAt) (k : Packet) : State :=
  (u.mgmtAccess k).1.mgmtAnswer at_ k (u.mgmtAccess k).2.1 (u.mgmtAccess k).2.2

/-- While FABRIC_MGMT permits it and MGMT is up, the packet is counted and carried out. -/
theorem State.takeMgmt_served (h : Arrived s at_ k) (hm : s.obj Obj.topo_FABRIC_MGMT ≠ 0) (hup : s.mgmtUp = true) :
    s.takeMgmt at_ k = ((s.taken at_ k).bump Obj.mgc_MGMT_PKT_RX).mgmtServed at_ k := by
  have hmay : ¬ ((s.taken at_ k).obj Obj.topo_FABRIC_MGMT = 0 ∨ (!(s.taken at_ k).mgmtUp) = true ∨ (!true) = true) := by
    rintro (h0 | h0 | h0)
    · exact hm h0
    · have : (s.taken at_ k).mgmtUp = true := hup
      rw [this] at h0; cases h0
    · cases h0
  unfold State.takeMgmt
  rw [State.checkRequest_arrived h]
  exact if_neg hmay

theorem State.takeMgmt_off (h : Arrived s at_ k) (hm : s.obj Obj.topo_FABRIC_MGMT = 0) :
    s.takeMgmt at_ k = (s.taken at_ k).refuseRx at_ := by
  unfold State.takeMgmt
  rw [State.checkRequest_arrived h]
  exact if_pos (.inl hm)

/-- The kind of access is the low two bits of ARG (R193). -/
theorem mgmtKind_eq (k : Packet) : mgmtKind k = k.argN % 4 := by
  simp [mgmtKind, field]

/-- The command of a mgmt packet's kind takes it. -/
theorem State.rxMgmt_takes (h : Arrived s at_ k) (hop : k.op = opMgmt) {kind : Nat} (hk : k.argN % 4 = kind) :
    s.rxMgmt at_ k kind = s.takeMgmt at_ k := by
  obtain ⟨hresp, -, hrx, -⟩ := h
  exact if_pos ⟨hop, by rw [mgmtKind_eq, hk], by rw [hresp]; rfl, hrx⟩

/-! ### The access -/

/-- A read without payload gives the value of its object. -/
theorem State.mgmtAccess_read (hs : addrSpace k.addrN = 5) (ho : addrOff k.addrN < 2 ^ 24) (hk : k.argN % 4 = 0) (hp : k.payload = []) :
    s.mgmtAccess k = ((s.dictRead false (addrOff k.addrN / 256) (addrOff k.addrN % 256)).1,
      (s.dictRead false (addrOff k.addrN / 256) (addrOff k.addrN % 256)).2.status,
      (s.dictRead false (addrOff k.addrN / 256) (addrOff k.addrN % 256)).2.value) := by
  have hin : ¬ (addrSpace k.addrN ≠ 5 ∨ 2 ^ 24 ≤ addrOff k.addrN) := by omega
  unfold State.mgmtAccess
  dsimp only
  rw [if_neg hin, mgmtKind_eq, hk, hp]
  rfl

/-- The dictionary's code of a write: OK, or that of the entry that failed. -/
def writeCode : Option (Nat × Nat) → Nat
  | none => dsOk
  | some x => x.2

/-- A write or a command makes one write in the role of FABRIC_MGMT. -/
theorem State.mgmtAccess_write (hs : addrSpace k.addrN = 5) (ho : addrOff k.addrN < 2 ^ 24) (hk : k.argN % 4 ≠ 0) {v : State}
    {e : Option (Nat × Nat)}
    (hw : s.dictWrite (some s.fabricRole) [sentEntry (addrOff k.addrN / 256) (addrOff k.addrN % 256) k.payload] = (v, e)) :
    s.mgmtAccess k = (v, writeCode e, []) := by
  have hin : ¬ (addrSpace k.addrN ≠ 5 ∨ 2 ^ 24 ≤ addrOff k.addrN) := by omega
  unfold State.mgmtAccess
  dsimp only
  rw [if_neg hin, mgmtKind_eq, if_neg hk, hw]
  cases e <;> rfl

/-! ### The answer -/

/-- A mgmt packet's answer joins the packets of one endpoint; a code other than OK is counted. -/
theorem State.mgmtAnswer_spec (hsvc : at_.service = false) (v : State) (code : Nat) (bs : Bytes) :
    ∃ (w : State) (x : Nat) (p : Packet), { v.mgmtAnswer at_ k code bs with txq := v.txq } = w ∧ (code = 0 → w = v) ∧
      (code ≠ 0 → OnlyObjs [Obj.mgc_MGMT_PKT_REFUSED] v w ∧ Counted Obj.mgc_MGMT_PKT_REFUSED v w) ∧
      Sparse.get [] (v.mgmtAnswer at_ k code bs).txq x = Sparse.get [] v.txq x ++ [⟨p, ownAt, none, 0, none⟩] ∧ p.resp = true ∧
      p.tag = k.tag ∧ p.dst = k.src ∧ p.status = (if code = 0 then 0 else BitVec.ofNat 8 stMgmtRefused) ∧
      p.arg = BitVec.ofNat 48 (code * 256) ∧ p.payload = bs := by
  generalize hw : (if code ≠ dsOk then v.bump Obj.mgc_MGMT_PKT_REFUSED else v) = w
  have htxq : w.txq = v.txq := by
    rw [← hw]; split
    · exact State.bump_txq v _
    · rfl
  generalize hp : ({ w.response k (if code = dsOk then stOk else stMgmtRefused) bs with arg := BitVec.ofNat 48 (code * 256) } : Packet) = p
  have answered : v.mgmtAnswer at_ k code bs = w.inject (w.deliverTo k) p := by
    unfold State.mgmtAnswer
    dsimp only
    rw [hw, hp, State.reply, hsvc]
    rfl
  rw [answered]
  refine ⟨w, w.deliverTo k, p, ?_, fun h => ?_, fun h => ?_, ?_, ?_⟩
  · show { w with txq := v.txq } = w
    rw [← htxq]
  · rw [← hw, h]; rfl
  · rw [← hw, if_pos (show code ≠ dsOk from h)]
    exact ⟨OnlyObjs.bump v _, Counted.bump v _⟩
  · rw [← htxq]; exact Sparse.get_set_same
  · subst hp
    refine ⟨rfl, rfl, rfl, ?_, rfl, rfl⟩
    show BitVec.ofNat 8 (if code = 0 then stOk else stMgmtRefused) = _
    split <;> rfl

end

/-- Settles O42: a mgmt packet is served (`State.takeMgmt_served`), or refused with FABRIC_MGMT OFF. -/
theorem managementPacketsReachTheDictionary : Obligations.ManagementPacketsReachTheDictionary := by
  intro s at_ k hop harr hspace hoff
  refine ⟨fun hm hup => ?served, fun hm p x hp hx => ?off⟩
  case served =>
    intro u idx sub ends
    have serves {x : Instr} {kind : Nat} (hx : exec x s = .next (s.rxMgmt at_ k kind)) (hk : k.argN % 4 = kind) {v : State} {code : Nat}
        {bs : Bytes} (ha : u.mgmtAccess k = (v, code, bs)) : ∃ t, exec x s = .next t ∧ ends v code bs t := by
      rw [hx, State.rxMgmt_takes harr hop hk, State.takeMgmt_served harr hm hup, State.mgmtServed, ha]
      exact ⟨_, rfl, State.mgmtAnswer_spec harr.2.1 v code bs⟩
    have hrole : u.fabricRole = (if s.obj Obj.topo_FABRIC_MGMT = 2 then .operate else .read) := by
      rw [State.fabricRole, State.obj_bump_other _ (by decide)]; rfl
    refine ⟨fun hk hp v r hr => serves rfl hk ?_, fun v e hw => ?_⟩
    · rw [State.mgmtAccess_read hspace hoff hk hp, hr]
    · rw [← hrole] at hw
      have written (hk : k.argN % 4 ≠ 0) : u.mgmtAccess k = (v, writeCode e, []) := State.mgmtAccess_write hspace hoff hk hw
      exact ⟨fun hk => serves rfl hk ((written (by omega)).trans (by cases e <;> rfl)),
        fun hk => serves rfl hk ((written (by omega)).trans (by cases e <;> rfl))⟩
  case off =>
    have refused {kind : Nat} (hx' : exec x s = .next (s.rxMgmt at_ k kind)) (hk : k.argN % 4 = kind) :
        exec x s = .next ((s.taken at_ k).bump (Obj.port_RX_REFUSED p)) := by
      rw [hx', State.rxMgmt_takes harr hop hk, State.takeMgmt_off harr hm, State.refuseRx, hp]
    obtain ⟨rfl, hk⟩ | ⟨rfl, hk⟩ | ⟨rfl, hk⟩ := hx
    all_goals exact ⟨_, refused rfl hk, OnlyObjs.bump _ _, Counted.bump _ _⟩

end Sys2Proof.Machine
end

section
/-! PROOF. A core listed under a number past the 1,152 (R8): the objects of core n lie at index 6800h + n, so that CORE_STATE of the
number 6,144 is WRITE_SEQ of the error ring (8000h:01), and the release of its `time.wait` by a step (R336) writes there. -/

namespace Sys2Proof.Machine

/-- The datum at Fabric Time 0 with a first step of 2,048 units due, WRITE_SEQ 7, and a core of number 6,144 that waits for slot 2. -/
def waitsPastTheCores : State :=
  let s := ((State.reset.setObj (Obj.fn_STATE 3) 3).setObj Obj.time_TIME_STATE 4).setObj Obj.ring_WRITE_SEQ 7
  { s with cores := [(6144, { Core.reset with hold := .timeWait 2 })],
           time := { s.time with est := some 4096, src := { s.time.src with step := true } } }

/-- The step skips slot 2, and the core's state, RUNNING (1), is written to WRITE_SEQ. -/
theorem timeStep_writesPastTheCores (t : State) (h : exec .timeStep waitsPastTheCores = .next t) : t.obj Obj.ring_WRITE_SEQ = 1 := by
  have hrun : (match exec .timeStep waitsPastTheCores with
      | .next t => decide (t.obj Obj.ring_WRITE_SEQ = 1)
      | _ => false) = true := by decide +kernel
  rw [h] at hrun
  exact of_decide_eq_true hrun

/-- Refutes O47: before first alignment a step leaves WRITE_SEQ as it is, except in a state that lists a core past the 1,152, whose
CORE_STATE is that object. -/
theorem not_timePacketsMeasureElectAndStep : ¬ Obligations.TimePacketsMeasureElectAndStep := by
  unfold Obligations.TimePacketsMeasureElectAndStep
  intro h
  obtain ⟨-, -, -, hstep, -⟩ := h waitsPastTheCores
  obtain ⟨t, hexec, -, -, -, -, hseq, -⟩ := hstep 2048 (by decide +kernel) (by decide +kernel) (by decide +kernel) (by decide +kernel)
    (by decide +kernel) (by decide +kernel)
  have hbefore : waitsPastTheCores.obj Obj.ring_WRITE_SEQ = 7 := by decide +kernel
  have haligned : waitsPastTheCores.time.aligned = false := by decide +kernel
  rw [timeStep_writesPastTheCores t hexec, haligned, hbefore] at hseq
  exact absurd hseq (by decide)

end Sys2Proof.Machine
end

section
/-! PROOF. Service ports (R210, R211, R251 to R258): what a frame leaves of the state, and priority flow control. -/

namespace Sys2Proof.Machine

/-! ### A service port's record -/

section
variable (s : State)

@[simp] theorem State.svc_setSvc_same (p : Nat) (v : Svc) : (s.setSvc p v).svc p = v := Sparse.get_set_same

@[simp] theorem State.obj_setSvc (p k : Nat) (v : Svc) : (s.setSvc p v).obj k = s.obj k := rfl

@[simp] theorem State.svc_bump (k q : Nat) : (s.bump k).svc q = s.svc q := by rw [State.svc, State.bump_sw]; rfl

theorem State.now_bump (k : Nat) : (s.bump k).now = s.now := congrArg BitVec.toNat (s.bump_ft k)

theorem State.bump_setSvc (p k : Nat) (v : Svc) : (s.setSvc p v).bump k = (s.bump k).setSvc p v := by
  unfold State.bump State.addObj
  rfl

/-- What changes objects alone does so beside a service port's record that is replaced. -/
theorem OnlyObjs.setSvc {ks : List Nat} {s t : State} (h : OnlyObjs ks s { t with sw := s.sw }) (p : Nat) (v : Svc) :
    OnlyObjs ks s { t.setSvc p v with sw := s.sw } := h

end

/-! ### A datagram admitted (R191, R213, R255, R256) -/

section
variable {s t : State} {p : PortId} {f : EthFrame} {k : Packet}

/-- A datagram that passes the checks of R210 and R211 up to policing. -/
structure Datagram (s : State) (p : PortId) (f : EthFrame) (k : Packet) : Prop where
  csum : f.csumOk = true
  fits : f.payload.length ≤ s.obj (Obj.port_SVC_MTU p) - 48
  whole : 32 ≤ f.payload.length
  packet : k = { Packet.parse f.payload with payload := f.payload.drop (if (Packet.parse f.payload).ext then 64 else 32) }

/-- A packet that the checks after policing take. -/
structure Admitted (s : State) (p : PortId) (f : EthFrame) (k : Packet) : Prop where
  op : k.op ≠ opTime
  ok : k.requestOk (s.svcLimit p) = true ∨ k.responseOk (s.svcLimit p) = true
  peer : k.resp = true ∨ s.peerEntry f.srcAddr ≠ none
  dst : k.dst.toNat = s.logicalId

/-- The objects that the checks read agree: all but those of the policers, which lie beyond the peer table. -/
def SameChecks (s t : State) : Prop := (∀ i j, i < 0x4800 → j < 256 → t.obj (objKey i j) = s.obj (objKey i j)) ∧ t.standin = s.standin

theorem SameChecks.refl (s : State) : SameChecks s s := ⟨fun _ _ _ _ => rfl, rfl⟩

/-- A policer's counter is none of them. -/
theorem SameChecks.bump (s : State) {i j : Nat} : SameChecks s (s.bump (objKey (0x4800 + i) j)) := by
  refine ⟨fun x y hx hy => State.obj_bump_other s ?_, s.bump_standin _⟩
  simp only [objKey]; omega

theorem SameChecks.setSvc (h : SameChecks s t) (q : Nat) (v : Svc) : SameChecks s (t.setSvc q v) := h

theorem SameChecks.svcLimit (h : SameChecks s t) : t.svcLimit p = s.svcLimit p := by
  have := p.isLt
  rw [State.svcLimit, State.svcLimit, Obj.port_SVC_MTU, h.1 _ _ (by omega) (by omega)]

theorem SameChecks.peerEntry (h : SameChecks s t) (a : BitVec 128) : t.peerEntry a = s.peerEntry a := by
  have entry (i : Nat) (hi : i ∈ List.range 1024) : decide (t.obj (Obj.peer_PEER_ADDR i) = octNat 16 a.toNat) =
      decide (s.obj (Obj.peer_PEER_ADDR i) = octNat 16 a.toNat) := by
    have hi := List.mem_range.1 hi
    rw [Obj.peer_PEER_ADDR, h.1 _ _ (by omega) (by omega)]
  exact congrArg (fun o => if a = 0 then none else o) (List.find?_congr entry)

theorem SameChecks.logicalId (h : SameChecks s t) : t.logicalId = s.logicalId := by
  unfold State.logicalId
  rw [h.2, Obj.topo_GROUP, Obj.topo_POSITION, h.1 _ _ (by omega) (by omega), h.1 _ _ (by omega) (by omega)]

/-- CM plays no part in the checks. -/
theorem State.svcAdmit_admitted (hk : Admitted s p f k) (h : SameChecks s t) (cm : Bool) :
    t.svcAdmit p f.srcAddr { k with cm := cm } = (t, true) := by
  have hok : ¬ (k.op = opTime ∨ (!(k.requestOk (s.svcLimit p) || k.responseOk (s.svcLimit p))) = true) := by
    rintro (e | e)
    · exact hk.op e
    · rcases hk.ok with g | g <;> simp [g] at e
  have hpeer : ¬ ((!k.resp && (s.peerEntry f.srcAddr).isNone) = true) := by
    rcases hk.peer with g | g
    · simp [g]
    · simp [g]
  rw [← h.svcLimit] at hok
  rw [← h.peerEntry] at hpeer
  exact (if_neg hok).trans ((if_neg hpeer).trans (if_neg (not_not.2 (hk.dst.trans h.logicalId.symm))))

/-- What a datagram of `k` leaves when policing finds it red, and when it does not. -/
theorem State.datagramRx_red (hd : Datagram s p f k) (hp : s.police p k.tc.toNat f.bytes f.dscp.toNat = (t, 2)) :
    s.datagramRx p f = t := by
  obtain ⟨hcsum, hfits, -, rfl⟩ := hd
  unfold State.datagramRx
  simp only [hcsum, Bool.not_true, Bool.false_eq_true, if_false, if_neg (Nat.not_lt.2 hfits)]
  simp only at hp
  rw [hp]
  rfl

/-- The item that an admitted datagram becomes. -/
def svcItem (p : PortId) (f : EthFrame) (k : Packet) (yellow : Bool) : TxItem :=
  ⟨{ k with cm := k.cm || yellow || decide (f.ecn = 3) }, ⟨some p, f.srcAddr, f.udpSrc, f.srcMac⟩, none, 0, none⟩

theorem State.datagramRx_taken (hd : Datagram s p f k) (hk : Admitted s p f k) {colour : Nat}
    (hp : s.police p k.tc.toNat f.bytes f.dscp.toNat = (t, colour)) (hc : colour ≠ 2) (h : SameChecks s t) :
    s.datagramRx p f = t.setTxq p (Sparse.get [] t.txq p ++ [svcItem p f k (decide (colour = 1))]) := by
  have admitted := State.svcAdmit_admitted hk h (k.cm || decide (colour = 1) || decide (f.ecn = 3))
  obtain ⟨hcsum, hfits, hwhole, rfl⟩ := hd
  unfold State.datagramRx
  simp only [hcsum, Bool.not_true, Bool.false_eq_true, if_false, if_neg (Nat.not_lt.2 hfits)]
  simp only at hp admitted
  rw [hp]
  simp only [if_neg hc, if_neg (Nat.not_lt.2 hwhole), admitted]
  rfl

end

/-! ### Policing (R256 to R258) -/

/-- The colour that a frame's own DSCP gives it (R256): 1 yellow, 2 red, 0 neither. -/
def dscpColour (mode dscp : Nat) : Nat :=
  if mode = 2 ∧ dscp / 2 % 4 = 2 then 1 else if mode = 2 ∧ dscp / 2 % 4 = 3 then 2 else 0

/-- The peak bucket of class `c` debited. -/
def Svc.debitPeak (v : Svc) (c : Nat) (b : Int) : Svc := { v with tp := v.tp.set c (v.tp.getD c 0 - b) }

/-- Both buckets of class `c` debited. -/
def Svc.debitBoth (v : Svc) (c : Nat) (b : Int) : Svc := { v.debitPeak c b with tc := v.tc.set c (v.tc.getD c 0 - b) }

theorem getD_set_eight {α : Type} {l : List α} {c : Nat} (hl : l.length = 8) (hc : c < 8) (x y : α) (d : Nat) :
    (l.set c x).getD d y = if d = c then x else l.getD d y := by
  by_cases h : d = c
  · subst h; rw [List.getD_eq_getElem?_getD, List.getElem?_set_self (by omega), if_pos rfl]; rfl
  · rw [List.getD_eq_getElem?_getD, List.getElem?_set_ne (Ne.symm h), if_neg h, List.getD_eq_getElem?_getD]

section
variable (s : State) (p : PortId) {c : Nat}

theorem State.police_off {bytes dscp : Nat} (h : (s.svc p).mode.getD c 0 = 0) : s.police p c bytes dscp = (s, 0) := if_pos h

/-- A policer in force finds a frame red, yellow or green, counts it, and debits what it found enough in. -/
theorem State.police_eq {bytes dscp mode pre : Nat} {b : Int} (hm : mode = (s.svc p).mode.getD c 0) (h : mode ≠ 0)
    (hb : b = (bytes : Int) * 1000) (hpre : pre = dscpColour mode dscp) :
    s.police p c bytes dscp =
      if pre = 2 ∨ (s.svc p).tp.getD c 0 < b then (s.bump (Obj.pol_RED (polIdx p c)), 2)
      else if pre = 1 ∨ (s.svc p).tc.getD c 0 < b then ((s.bump (Obj.pol_YELLOW (polIdx p c))).setSvc p ((s.svc p).debitPeak c b), 1)
      else ((s.bump (Obj.pol_GREEN (polIdx p c))).setSvc p ((s.svc p).debitBoth c b), 0) := by
  have hcolour : (if mode = 2 then (if field dscp 2 1 = 2 then 1 else if field dscp 2 1 = 3 then 2 else 0) else 0) = pre := by
    have hfield : field dscp 2 1 = dscp / 2 % 4 := by simp [field, Nat.shiftRight_eq_div_pow]
    rw [hpre, dscpColour, hfield]
    by_cases h2 : mode = 2
    · simp [h2]
    · simp [h2]
  have hbytes : ((bytes * 1000 : Nat) : Int) = b := by rw [hb]; push_cast; rfl
  have hlow (x : Int) : x - b < 0 ↔ x < b := by omega
  subst hm
  unfold State.police
  rw [if_neg h]
  simp only [hcolour, hbytes, hlow, State.bump_setSvc]
  rfl

end

/-! ### Frames (R210) -/

section
variable {s : State} {p : PortId} {f : EthFrame}

theorem State.execSvcFrameRx_badFcs (hup : s.svcUp p = true) (hf : f.fcsOk = false) :
    exec (.svcFrameRx p f) s = .next (s.bump (Obj.port_ETH_FCS_ERR p)) := by
  show execSvcFrameRx p f s = _
  unfold execSvcFrameRx
  rw [hup, hf]
  rfl

theorem State.execSvcFrameRx_refused (hup : s.svcUp p = true) (hf : f.fcsOk = true) (hr : s.frameRefused p f = true ∨ f.udp = false) :
    exec (.svcFrameRx p f) s = .next (s.bump (Obj.port_ETH_DISCARD p)) := by
  have hr : (s.frameRefused p f || !f.udp) = true := by rcases hr with h | h <;> simp [h]
  show execSvcFrameRx p f s = _
  unfold execSvcFrameRx
  rw [hup, hf, hr]
  rfl

/-- A datagram for this port's address and the UDP port of R211. -/
theorem State.execSvcFrameRx_datagram (hup : s.svcUp p = true) (hf : f.fcsOk = true) (hr : s.frameRefused p f = false) (hu : f.udp = true)
    (ha : octNat 16 f.dstAddr.toNat = s.obj (Obj.port_SVC_ADDR p)) (hport : f.udpDst = 48211) :
    exec (.svcFrameRx p f) s = .next (s.datagramRx p f) := by
  have hptp : ptpPort f.udpDst.toNat = false := by rw [hport]; decide
  show execSvcFrameRx p f s = _
  unfold execSvcFrameRx
  rw [hup, hf, hr, hu, hptp, if_neg (by simp), if_neg (by simp), if_neg (by simp), if_neg (by simp), if_neg (not_not.2 ha), if_pos hport]

theorem State.execNeighborSolicitationRx_answered {target : BitVec 128} (hup : s.svcUp p = true) (hf : f.fcsOk = true)
    (hr : s.frameRefused p f = false) (h0 : target ≠ 0) (ha : octNat 16 target.toNat = s.obj (Obj.port_SVC_ADDR p)) :
    exec (.neighborSolicitationRx p f target) s = .next (s.emit (.frame p (s.advertFrame p f))) := by
  show execNeighborSolicitationRx p f target s = _
  unfold execNeighborSolicitationRx
  rw [hup, hf, hr, decide_eq_false h0, decide_eq_false (not_not.2 ha)]
  rfl

theorem beBytes_length (n v : Nat) : (beBytes n v).length = n := by
  rw [beBytes, List.length_reverse, leBytes_length]

/-- An advertisement goes from the port's MAC to the sender of the solicitation. -/
theorem State.advertFrame_macs (s : State) (p : Nat) (f : EthFrame) :
    (s.advertFrame p f).take 12 = beBytes 6 f.srcMac.toNat ++ s.octBytes (Obj.port_SVC_MAC p) 6 := by
  have hlen : (beBytes 6 f.srcMac.toNat ++ s.octBytes (Obj.port_SVC_MAC p) 6).length = 12 := by
    rw [List.length_append, beBytes_length, State.octBytes, leBytes_length]
  unfold State.advertFrame
  simp only [List.append_assoc]
  rw [← List.append_assoc (beBytes 6 f.srcMac.toNat)]
  exact List.take_left' hlen

end

/-! ### Pauses received (R253) -/

/-- When a pause of `q` quanta that begins at `now` ends; 0 quanta resume. -/
def pauseEnd (now rate q : Nat) : Option Nat := if q = 0 then none else some (now + ceilDiv (q * 8192) rate)

/-- One class of a PFC frame taken. -/
def State.takeQuanta (s : State) (p : PortId) (rate c q : Nat) : State :=
  let u := if q = 0 then s else s.bump (Obj.sw_PFC_XOFF_RX p c)
  u.setSvc p { u.svc p with paused := (u.svc p).paused.set c (pauseEnd u.now rate q) }

/-- The classes `l` of a PFC frame with quanta `q` taken by a service port. -/
structure QuantaTaken (p : PortId) (rate : Nat) (q : Fin 8 → Nat) (l : List (Fin 8)) (s t : State) : Prop where
  only : OnlyObjs ((List.range 8).map (Obj.sw_PFC_XOFF_RX p)) s { t with sw := s.sw }
  svc : { t.svc p with paused := (s.svc p).paused } = s.svc p
  length : (t.svc p).paused.length = 8
  paused : ∀ d : Fin 8, (t.svc p).paused.getD d none = if d ∈ l then pauseEnd s.now rate (q d) else (s.svc p).paused.getD d none
  counts : ∀ d : Fin 8, t.obj (Obj.sw_PFC_XOFF_RX p d) =
    if d ∈ l ∧ q d ≠ 0 then min (2 ^ objBits (Obj.sw_PFC_XOFF_RX p d) - 1) (s.obj (Obj.sw_PFC_XOFF_RX p d) + 1)
    else s.obj (Obj.sw_PFC_XOFF_RX p d)

section
variable {p : PortId} {rate : Nat} {q : Fin 8 → Nat} {l : List (Fin 8)} {s t u : State}

theorem QuantaTaken.now (h : QuantaTaken p rate q l s t) : t.now = s.now := congrArg BitVec.toNat (congrArg State.ft h.only.1 :)

theorem sw_PFC_XOFF_RX_inj {c d : Fin 8} (h : d ≠ c) : Obj.sw_PFC_XOFF_RX p d ≠ Obj.sw_PFC_XOFF_RX p c := by
  have := Fin.val_ne_of_ne h
  simp only [Obj.sw_PFC_XOFF_RX, objKey]; omega

theorem QuantaTaken.single (hlen : (s.svc p).paused.length = 8) (c : Fin 8) : QuantaTaken p rate q [c] s (s.takeQuanta p rate c (q c)) := by
  generalize hu : (if q c = 0 then s else s.bump (Obj.sw_PFC_XOFF_RX p c)) = u
  have hsvc : u.svc p = s.svc p := by
    rw [← hu]; split
    · rfl
    · exact s.svc_bump _ _
  have hnow : u.now = s.now := by
    rw [← hu]; split
    · rfl
    · exact s.now_bump _
  have taken : s.takeQuanta p rate c (q c) = u.setSvc p { s.svc p with paused := (s.svc p).paused.set c (pauseEnd s.now rate (q c)) } := by
    rw [State.takeQuanta, hu, hsvc, hnow]
  have hmem : Obj.sw_PFC_XOFF_RX p c ∈ (List.range 8).map (Obj.sw_PFC_XOFF_RX p) :=
    List.mem_map_of_mem (List.mem_range.2 c.isLt)
  rw [taken]
  refine ⟨?_, ?_, ?_, fun d => ?_, fun d => ?_⟩
  · have hsw : u.sw = s.sw := by
      rw [← hu]; split
      · rfl
      · exact s.bump_sw _
    have only : OnlyObjs ((List.range 8).map (Obj.sw_PFC_XOFF_RX p)) s u := by
      rw [← hu]; split
      · exact OnlyObjs.refl _ s
      · exact (OnlyObjs.refl _ s).bumped hmem
    exact ⟨congrArg (fun x : State => { x with sw := s.sw }) only.1, only.2⟩
  · rw [State.svc_setSvc_same]
  · rw [State.svc_setSvc_same, List.length_set, hlen]
  · rw [State.svc_setSvc_same, getD_set_eight hlen c.isLt]
    simp only [List.mem_singleton, Fin.ext_iff]
    split
    · rename_i h; rw [Fin.ext h]
    · rfl
  · rw [State.obj_setSvc, ← hu]
    by_cases hd : d = c
    · subst hd
      by_cases h0 : q d = 0
      · simp [h0]
      · rw [if_neg h0, if_pos ⟨List.mem_singleton_self d, h0⟩]
        exact Counted.bump s _
    · rw [if_neg (c := d ∈ [c] ∧ q d ≠ 0) (by simp [hd])]
      split
      · rfl
      · exact State.obj_bump_other s (sw_PFC_XOFF_RX_inj hd)

/-- A further class taken after others. -/
theorem QuantaTaken.cons {c : Fin 8} (h : QuantaTaken p rate q [c] s t) (hc : c ∉ l) (g : QuantaTaken p rate q l t u) :
    QuantaTaken p rate q (c :: l) s u := by
  refine ⟨⟨?_, fun k hk => (g.only.2 k hk).trans (h.only.2 k hk)⟩, ?_, g.length, fun d => ?_, fun d => ?_⟩
  · exact (congrArg (fun x : State => { x with objs := s.objs, sw := s.sw }) g.only.1).trans h.only.1
  · exact (congrArg (fun x : Svc => { x with paused := (s.svc p).paused }) g.svc).trans h.svc
  · rw [g.paused, h.paused, h.now]
    by_cases hd : d = c
    · subst hd; simp [hc]
    · simp [hd]
  · rw [g.counts, h.counts]
    by_cases hd : d = c
    · subst hd; simp [hc]
    · simp [hd]

/-- The classes of a frame taken one after another. -/
theorem QuantaTaken.foldl (hlen : (s.svc p).paused.length = 8) (hl : l.Nodup) :
    QuantaTaken p rate q l s (l.foldl (fun t (c : Fin 8) => t.takeQuanta p rate c (q c)) s) := by
  induction l generalizing s with
  | nil => exact ⟨OnlyObjs.refl _ s, rfl, hlen, fun d => by simp, fun d => by simp⟩
  | cons c l ih =>
    obtain ⟨hc, hl⟩ := List.nodup_cons.1 hl
    have first := QuantaTaken.single (rate := rate) (q := q) hlen c
    exact first.cons hc (ih first.length hl)

/-- The lossless classes that a PFC frame names. -/
def State.pfcClasses (s : State) (vec : BitVec 8) : List (Fin 8) :=
  (List.finRange 8).filter (fun c => vec.toNat.testBit c.val && s.lossless c.val)

theorem State.mem_pfcClasses (s : State) (vec : BitVec 8) (c : Fin 8) :
    c ∈ s.pfcClasses vec ↔ vec.toNat.testBit c.val = true ∧ s.lossless c.val = true := by
  simp [State.pfcClasses]

theorem exec_pfcFrameRx (hup : s.svcUp p = true) (vec : BitVec 8) (quanta : Vector (BitVec 16) 8) :
    exec (.pfcFrameRx p vec quanta) s = .next ((s.pfcClasses vec).foldl
      (fun t (c : Fin 8) => t.takeQuanta p (modeRate (s.obj (Obj.port_MODE p))) c (quanta.get c).toNat) s) := by
  show execPfcFrameRx p vec quanta s = _
  unfold execPfcFrameRx
  rw [hup]
  rfl

end

/-! ### Pauses sent (R252) -/

section
variable {s : State} {p : PortId}

theorem sw_PFC_XOFF_TX_inj {c d : Nat} (h : d ≠ c) : Obj.sw_PFC_XOFF_TX p d ≠ Obj.sw_PFC_XOFF_TX p c := by
  simp only [Obj.sw_PFC_XOFF_TX, objKey]; omega

theorem State.countXoff_only (s : State) (p : Nat) (l : List Nat) : { s.countXoff p l with objs := s.objs } = s := by
  induction l generalizing s with
  | nil => rfl
  | cons c l ih =>
    exact (congrArg (fun x : State => { x with objs := s.objs }) (ih (s.bump (Obj.sw_PFC_XOFF_TX p c)))).trans (OnlyObjs.bump s _).1

/-- Each class of an XOFF frame is counted once. -/
theorem State.obj_countXoff {l : List Nat} (hl : l.Nodup) (s : State) (c : Nat) :
    (s.countXoff p l).obj (Obj.sw_PFC_XOFF_TX p c) =
      if l.contains c then min (2 ^ objBits (Obj.sw_PFC_XOFF_TX p c) - 1) (s.obj (Obj.sw_PFC_XOFF_TX p c) + 1)
      else s.obj (Obj.sw_PFC_XOFF_TX p c) := by
  induction l generalizing s with
  | nil => rfl
  | cons d l ih =>
    obtain ⟨hd, hl⟩ := List.nodup_cons.1 hl
    have rest := ih hl (s.bump (Obj.sw_PFC_XOFF_TX p d))
    rw [State.countXoff, List.foldl_cons, ← State.countXoff, rest]
    by_cases h : c = d
    · subst h
      have hc : l.contains c = false := by simpa using hd
      rw [hc, List.contains_cons, beq_self_eq_true]
      exact Counted.bump s _
    · rw [State.obj_bump_other s (sw_PFC_XOFF_TX_inj h), List.contains_cons, beq_eq_false_iff_ne.2 h, Bool.false_or]

theorem exec_pfcRefresh {on : List Nat} (hup : s.svcUp p = true) (hon : on = (List.range 8).filter (fun c => (s.svc p).xoff.getD c false))
    (h : on ≠ []) {u : State} (hu : u = s.advanceTo ((s.svc p).xoffAt + s.obj Obj.cls_PFC_REFRESH * 1024)) :
    exec (.pfcRefresh p) s = .next (((u.emit (.frame p (u.pfcFrame p (classMask on)
      (fun c => if on.contains c then u.obj Obj.cls_PFC_QUANTA else 0)))).setSvc p { s.svc p with xoffAt := u.now }).countXoff p on) := by
  have hne : ¬ (on = [] ∨ (!s.svcUp p) = true) := by simp [h, hup]
  subst hon hu
  show execPfcRefresh p s = _
  unfold execPfcRefresh
  exact if_neg hne

/-- The classes that a port starts to pause, and those that it lets go on. -/
def State.xoffOf (s : State) (p : Nat) : List Nat :=
  (List.range 8).filter (fun c => !(s.svc p).xoff.getD c false && s.mustPause p c)

def State.xonOf (s : State) (p : Nat) : List Nat :=
  (List.range 8).filter (fun c => (s.svc p).xoff.getD c false && s.mayResume p c)

theorem State.contains_xoffOf (s : State) (p : Nat) {c : Nat} (hc : c < 8) :
    (s.xoffOf p).contains c = (!(s.svc p).xoff.getD c false && s.mustPause p c) := by
  rw [Bool.eq_iff_iff, List.contains_iff_mem, State.xoffOf, List.mem_filter, List.mem_range]
  exact and_iff_right hc

theorem State.contains_xonOf (s : State) (p : Nat) {c : Nat} (hc : c < 8) :
    (s.xonOf p).contains c = ((s.svc p).xoff.getD c false && s.mayResume p c) := by
  rw [Bool.eq_iff_iff, List.contains_iff_mem, State.xonOf, List.mem_filter, List.mem_range]
  exact and_iff_right hc

theorem State.pfcPort_still (h : s.xoffOf p = [] ∧ s.xonOf p = []) : s.pfcPort p = s := if_pos (.inl h)

theorem State.pfcPort_down (h : s.svcUp p = false) : s.pfcPort p = s := if_pos (.inr (by rw [h]; rfl))

/-- The classes paused after XOFF and XON. -/
theorem State.xoff_pfcPort (hup : s.svcUp p = true) (h : ¬ (s.xoffOf p = [] ∧ s.xonOf p = [])) : ((s.pfcPort p).svc p).xoff =
    (List.range 8).map (fun c => ((s.svc p).xoff.getD c false || (s.xoffOf p).contains c) && !(s.xonOf p).contains c) := by
  have hne : ¬ ((s.xoffOf p = [] ∧ s.xonOf p = []) ∨ (!s.svcUp p) = true) := by simp [h, hup]
  have sw (u : State) (l : List Nat) : (u.countXoff p l).sw = u.sw := (congrArg State.sw (u.countXoff_only p l) :)
  have sends : (s.pfcPort p).sw = _ := (congrArg State.sw (if_neg hne)).trans (sw _ _)
  rw [State.svc, sends]
  exact congrArg Svc.xoff (Sparse.get_set_same)

theorem State.pfcAll_down (s : State) (h : ∀ q, s.svcUp q = false) : s.pfcAll = s := by
  refine List.foldl_fixed' (fun p => ?_) _
  split
  · exact State.pfcPort_down (h p)
  · rfl

end

/-- A service port pauses a class that must pause, and keeps a pause until the class may go on. -/
theorem State.xoff_getD_pfcPort {s : State} {p : PortId} (hup : s.svcUp p = true) {c : Nat} (hc : c < 8) :
    ((s.pfcPort p).svc p).xoff.getD c false = if (s.svc p).xoff.getD c false then !s.mayResume p c else s.mustPause p c := by
  have hoff := s.contains_xoffOf p hc
  have hon := s.contains_xonOf p hc
  by_cases h : s.xoffOf p = [] ∧ s.xonOf p = []
  · rw [State.pfcPort_still h]
    rw [h.1] at hoff
    rw [h.2] at hon
    cases hx : (s.svc p).xoff.getD c false
    · rw [hx] at hoff; simpa using hoff
    · rw [hx] at hon; simp at hon; simp [← hon]
  · rw [State.xoff_pfcPort hup h, List.getD_eq_getElem?_getD, List.getElem?_map, List.getElem?_range hc]
    show (((s.svc p).xoff.getD c false || (s.xoffOf p).contains c) && !(s.xonOf p).contains c) = _
    rw [hoff, hon]
    cases (s.svc p).xoff.getD c false <;> simp

/-- A pause ends at its time. -/
theorem exec_pfcPauseExpiry {s : State} {p : PortId} {c : ClassId} {at_ : Nat} (h : (s.svc p).paused.getD c.val none = some at_) :
    exec (.pfcPauseExpiry p c) s =
      .next ((s.advanceTo at_).setSvc p { s.svc p with paused := (s.svc p).paused.set c.val none }) := by
  show execPfcPauseExpiry p c s = _
  unfold execPfcPauseExpiry
  dsimp only
  rw [h]

/-- Settles O46: the branches of a frame (`State.datagramRx_taken`, `State.police_eq`), and priority flow control class by class. -/
theorem servicePortsTakeFramesAndPause : Obligations.ServicePortsTakeFramesAndPause := by
  intro s p hup
  refine ⟨fun f hf => ?badFcs, fun f hf hr => ?refused, ?datagram, fun f target hf hr h0 ha => ?solicitation, fun hlen => ⟨fun vec quanta => ?pfc,
    fun c at_ hc hlt => ?expiry⟩, fun on due hon hne hdue hlt => ?refresh, fun c hc => State.xoff_getD_pfcPort hup hc,
    State.pfcAll_down⟩
  case badFcs => exact ⟨_, State.execSvcFrameRx_badFcs hup hf, OnlyObjs.bump s _, Counted.bump s _⟩
  case refused => exact ⟨_, State.execSvcFrameRx_refused hup hf hr, OnlyObjs.bump s _, Counted.bump s _⟩
  case datagram =>
    intro f k i c pre mode b hf hr hu ha hport hcsum hfits hwhole hk hop hok hpeer hdst hc hi hm hb htpl htcl hpre item tp tc
    have datagram : Datagram s p f k := ⟨hcsum, hfits, hwhole, hk⟩
    have admitted : Admitted s p f k := ⟨hop, hok, hpeer, hdst⟩
    have hc8 : c < 8 := hc ▸ k.tc.isLt
    rw [State.execSvcFrameRx_datagram hup hf hr hu ha hport]
    subst hc hi
    have police := fun h => s.police_eq p hm h hb hpre
    have queue (n : Nat) (v : Svc) : Sparse.get [] ((s.bump n).setSvc p v).txq p = Sparse.get [] s.txq p :=
      congrArg (Sparse.get [] · p) (s.bump_txq n)
    have debited (n : Nat) (v : Svc) : OnlyObjs [n] s { (s.bump n).setSvc p v with sw := s.sw } := by
      have only := OnlyObjs.bump s n
      exact ⟨congrArg (fun x : State => { x with sw := s.sw }) only.1, only.2⟩
    refine ⟨fun h => ?off, fun h hred => ?red, fun h h2 hbp hyellow => ?yellow, fun h h0 hbp hbc => ?green⟩
    case off =>
      rw [State.datagramRx_taken datagram admitted (State.police_off s p (hm ▸ h)) (by decide) (SameChecks.refl s)]
      rfl
    case red =>
      rw [State.datagramRx_red datagram ((police h).trans (if_pos hred))]
      exact ⟨_, rfl, OnlyObjs.bump s _, Counted.bump s _⟩
    case yellow =>
      have hred : ¬ (pre = 2 ∨ tp < b) := by omega
      have found := (police h).trans ((if_neg hred).trans (if_pos hyellow))
      rw [State.datagramRx_taken datagram admitted found (by decide) ((SameChecks.bump s).setSvc p _)]
      refine ⟨(s.bump _).setSvc p ((s.svc p).debitPeak k.tc.toNat b), ?_, Counted.bump s _, debited _ _, ?_, fun d hd => ?_⟩
      · exact congrArg (fun l => Host.Outcome.next (State.setTxq _ p (l ++ [item true]))) (queue _ _)
      · rw [State.svc_setSvc_same]; rfl
      · rw [State.svc_setSvc_same]
        exact getD_set_eight htpl hc8 _ _ d
    case green =>
      have hred : ¬ (pre = 2 ∨ tp < b) := by omega
      have hyellow : ¬ (pre = 1 ∨ tc < b) := by omega
      have found := (police h).trans ((if_neg hred).trans (if_neg hyellow))
      rw [State.datagramRx_taken datagram admitted found (by decide) ((SameChecks.bump s).setSvc p _)]
      refine ⟨(s.bump _).setSvc p ((s.svc p).debitBoth k.tc.toNat b), ?_, Counted.bump s _, debited _ _, ?_, fun d hd => ?_⟩
      · exact congrArg (fun l => Host.Outcome.next (State.setTxq _ p (l ++ [item false]))) (queue _ _)
      · rw [State.svc_setSvc_same]; rfl
      · rw [State.svc_setSvc_same]
        exact ⟨getD_set_eight htpl hc8 _ _ d, getD_set_eight htcl hc8 _ _ d⟩
  case solicitation =>
    exact ⟨_, State.execNeighborSolicitationRx_answered hup hf hr h0 ha, s.advertFrame_macs p f⟩
  case pfc =>
    have taken : QuantaTaken p (modeRate (s.obj (Obj.port_MODE p))) (fun c => (quanta.get c).toNat) (s.pfcClasses vec) s _ :=
      QuantaTaken.foldl hlen ((List.nodup_finRange 8).filter _)
    refine ⟨_, exec_pfcFrameRx hup vec quanta, taken.only, taken.svc, fun c => ?_⟩
    have paused := taken.paused c
    have counts := taken.counts c
    by_cases hc : vec.toNat.testBit c.val = true ∧ s.lossless c.val = true
    · have named := (s.mem_pfcClasses vec c).2 hc
      rw [if_pos named] at paused
      rw [if_pos hc]
      by_cases h0 : quanta.get c = 0
      · have hq : (quanta.get c).toNat = 0 := by rw [h0]; rfl
        rw [pauseEnd, if_pos hq] at paused
        rw [if_neg fun h => h.2 hq] at counts
        rw [if_pos h0]
        exact ⟨paused, counts⟩
      · have hq : (quanta.get c).toNat ≠ 0 := fun h => h0 (BitVec.eq_of_toNat_eq h)
        rw [pauseEnd, if_neg hq] at paused
        rw [if_pos ⟨named, hq⟩] at counts
        rw [if_neg h0]
        exact ⟨paused, counts⟩
    · have other : c ∉ s.pfcClasses vec := fun h => hc ((s.mem_pfcClasses vec c).1 h)
      rw [if_neg other] at paused
      rw [if_neg fun h => other h.1] at counts
      rw [if_neg hc]
      exact ⟨paused, counts⟩
  case expiry =>
    refine ⟨_, exec_pfcPauseExpiry hc, s.now_advanceTo hlt, ?_, fun d => ?_⟩
    · exact congrArg (fun x : State => { x with sw := s.sw }) (s.advanceTo_only at_)
    · rw [State.svc_setSvc_same]
      exact getD_set_eight hlen c.isLt _ _ d
  case refresh =>
    generalize hu : s.advanceTo ((s.svc p).xoffAt + s.obj Obj.cls_PFC_REFRESH * 1024) = u
    have hobj (k : Nat) : u.obj k = s.obj k := hu ▸ s.obj_advanceTo _ k
    have hnow : u.now = max s.now due := by rw [← hu, hdue]; exact s.now_advanceTo (hdue ▸ hlt)
    have hsent : u.sent = s.sent := hu ▸ s.advanceTo_sent _
    have frame (vec : Nat) (quanta : Nat → Nat) : u.pfcFrame p vec quanta = s.pfcFrame p vec quanta := by
      unfold State.pfcFrame State.octBytes
      rw [hobj]
    have hnodup : on.Nodup := hon ▸ List.nodup_range.filter _
    rw [exec_pfcRefresh hup hon hne hu.symm, frame, hobj]
    generalize hw : (u.emit _).setSvc p _ = w
    have only := w.countXoff_only p on
    have now : (w.countXoff p on).now = u.now := (congrArg BitVec.toNat (congrArg State.ft only :)).trans (by rw [← hw]; rfl)
    refine ⟨_, rfl, now.trans hnow, ?_, ?_, fun c _ => ?_⟩
    · exact (congrArg State.sent only :).trans (by rw [← hw, ← hsent]; rfl)
    · rw [now]
      exact (congrArg (fun x : State => x.svc p) only :).trans (by rw [← hw]; exact State.svc_setSvc_same _ _ _)
    · have hwobj (k : Nat) : w.obj k = s.obj k := by rw [← hw]; exact hobj k
      rw [State.obj_countXoff hnodup, hwobj]

end Sys2Proof.Machine
end

section
/-! PROOF. The cell times of an output (R187, R188, R226, R246): a packet begun, a cell sent, a packet ended, or an idle unit. -/

namespace Sys2Proof.Machine

/-! ### Queues and outputs -/

section
variable (s : State)

theorem State.outQ_setOutQ (k j : Nat) (q : OutQ) : (s.setOutQ k q).outQ j = if j = k then q else s.outQ j := Sparse.get_set

theorem State.outPort_setOut_same (x : Nat) (o : OutPort) : (s.setOut x o).outPort x = o := Sparse.get_set_same

theorem State.setOut_only (x : Nat) (o : OutPort) : { s.setOut x o with sw := s.sw } = s := by
  cases s; rfl

/-- Tail cells that join the head stay where they are. -/
theorem State.pkts_joinTail (k j : Nat) : ((s.joinTail k).outQ j).pkts = (s.outQ j).pkts := by
  unfold State.joinTail
  dsimp only
  split
  · rfl
  · split
    · rfl
    · rw [State.outQ_setOutQ]
      split
      · rename_i h; rw [h]
      · rfl

theorem State.joinTail_only (k : Nat) : { s.joinTail k with sw := s.sw } = s := by
  unfold State.joinTail
  dsimp only
  split
  · rfl
  · split
    · rfl
    · cases s; rfl

theorem State.pool_joinTail (k q : Nat) : (s.joinTail k).pool q = s.pool q := by
  unfold State.joinTail
  dsimp only
  split
  · rfl
  · split <;> rfl

end

/-! ### Selection (R246 to R248) -/

/-- The output's scheduler with the shaper's settings taken. -/
def State.settled (s : State) (x : Nat) : OutPort :=
  { s.outPort x with live := s.shaperSet, cr := (List.range 8).map (fun c => min ((s.outPort x).cr.getD c 0) (256 * (s.obj (Obj.cls_HI c) : Int))) }

section
variable {s : State} {x : Nat}

theorem State.takeSettings_eq (s : State) (x : Nat) : s.takeSettings x = s.setOut x (s.settled x) := rfl

/-- A class neither paused nor shaped is ready with what it would send. -/
theorem State.ready_unshaped {c : Nat} (o : OutPort) (hs : s.shaped c = false) (hp : s.classPaused x c = false) :
    s.ready x o c = s.choice x c (o.hp.getD c 0) := by
  unfold State.ready
  rw [hs, hp]
  rfl

/-- An output whose class 7 has a packet that may be sent begins it. -/
theorem State.beginPacket_seven {h : Nat} {k : QPkt} (hs : s.shaped 7 = false) (hp : s.classPaused x 7 = false)
    (hc : s.choice x 7 ((s.outPort x).hp.getD 7 0) = some (h, k)) :
    (s.takeSettings x).beginPacket x =
      (((s.setOut x (s.settled x)).setOutQ (queueKey x 7 h)
        ⟨(s.outQ (queueKey x 7 h)).pkts.drop 1, (s.outQ (queueKey x 7 h)).head - k.cells.length⟩).joinTail (queueKey x 7 h)).setOut x
        { s.settled x with sending := some k, next := 0, hp := (s.settled x).hp.set 7 ((h + 1) % 5) } := by
  have hready : (s.setOut x (s.settled x)).ready x (s.settled x) 7 = some (h, k) :=
    (State.ready_unshaped (s := s.setOut x (s.settled x)) (s.settled x) hs hp).trans hc
  have hselect : (s.setOut x (s.settled x)).select x (s.settled x) = (s.settled x, some 7) := by
    unfold State.select
    rw [hready]
    rfl
  have hchoice : (s.setOut x (s.settled x)).choice x 7 ((s.settled x).hp.getD 7 0) = some (h, k) := hc
  unfold State.beginPacket
  rw [State.takeSettings_eq, State.outPort_setOut_same]
  dsimp only
  rw [hselect]
  dsimp only
  rw [hchoice]
  rfl

/-- Where no class is ready, the group selects none. -/
theorem State.selectGroup_none (hr : ∀ o c, s.ready x o c = none) (fuel : Nat) (o : OutPort) :
    (s.selectGroup x fuel o).2 = none ∧ (s.selectGroup x fuel o).1.sending = o.sending := by
  induction fuel generalizing o with
  | zero => exact ⟨rfl, rfl⟩
  | succ fuel ih =>
    unfold State.selectGroup
    dsimp only
    rw [hr]
    obtain ⟨hnone, hsending⟩ := ih { (if s.classEmpty x o.cur then { o with defs := o.defs.set o.cur 0 } else o) with
      cur := (o.cur + 1) % 6, fresh := true }
    refine ⟨hnone, hsending.trans ?_⟩
    dsimp only
    split <;> rfl

/-- With no packet in its queues an output begins none. -/
theorem State.beginPacket_empty (h : ∀ c h, (s.outQ (queueKey x c h)).pkts = []) :
    ∃ o, (s.takeSettings x).beginPacket x = (s.setOut x (s.settled x)).setOut x o ∧ o.sending = (s.outPort x).sending := by
  have hready (o : OutPort) (c : Nat) : (s.setOut x (s.settled x)).ready x o c = none := by
    have hsend (h' : Nat) : (s.setOut x (s.settled x)).sendable x c h' = none := by
      have hq : ((s.setOut x (s.settled x)).outQ (queueKey x c h')).pkts = [] := h c h'
      unfold State.sendable
      dsimp only
      rw [hq]
    unfold State.ready
    split
    · rfl
    · unfold State.choice
      rw [List.findSome?_eq_none_iff]
      intro h' _
      rw [hsend]
      rfl
  obtain ⟨hnone, hsending⟩ := State.selectGroup_none hready 7 (s.settled x)
  have hselect : (s.setOut x (s.settled x)).select x (s.settled x) = (((s.setOut x (s.settled x)).selectGroup x 7 (s.settled x)).1, none) := by
    unfold State.select
    rw [hready, hready]
    exact Prod.ext rfl hnone
  refine ⟨_, ?_, hsending⟩
  unfold State.beginPacket
  rw [State.takeSettings_eq, State.outPort_setOut_same]
  dsimp only
  rw [hselect]

end

/-! ### Cells released (R207, R231) -/

/-- Cells were let go: of the switch the queues and outputs stay, and of the links all but the credits granted. -/
structure CellsFreed (s t : State) : Prop where
  only : { t with sw := s.sw, links := s.links } = s
  queues : t.sw.queues = s.sw.queues
  outs : t.sw.outs = s.sw.outs
  link : ∀ q, { t.link q with granted := (s.link q).granted } = s.link q

section
variable {s t u : State}

theorem CellsFreed.refl (s : State) : CellsFreed s s := ⟨rfl, rfl, rfl, fun _ => rfl⟩

theorem CellsFreed.trans (h : CellsFreed s t) (g : CellsFreed t u) : CellsFreed s u :=
  ⟨(congrArg (fun x : State => { x with sw := s.sw, links := s.links }) g.only).trans h.only, g.queues.trans h.queues,
    g.outs.trans h.outs, fun q => (congrArg (fun l : Link => { l with granted := (s.link q).granted }) (g.link q)).trans (h.link q)⟩

/-- Another pool, owed credits, cells taken, records of cells or of shared ones are of no matter here. -/
theorem CellsFreed.setSw (h : CellsFreed s t) {v : Switch} (hq : v.queues = t.sw.queues) (ho : v.outs = t.sw.outs) :
    CellsFreed s { t with sw := v } := ⟨h.only, hq.trans h.queues, ho.trans h.outs, h.link⟩

theorem State.link_modLink (s : State) (x q : Nat) (f : Link → Link) :
    ({ s with links := Sparse.modify Link.reset s.links x f } : State).link q = if q = x then f (s.link x) else s.link q := Sparse.get_set

theorem CellsFreed.grant (h : CellsFreed s t) (key : Nat) : CellsFreed s (t.grant key) := by
  unfold State.grant
  dsimp only
  split
  · refine h.trans ⟨by cases t; rfl, rfl, rfl, fun q => ?_⟩
    rw [State.link_modLink]
    split
    · rename_i hq; rw [hq]
    · rfl
  · exact h.setSw rfl rfl

theorem CellsFreed.giveBack (h : CellsFreed s t) (key : Nat) : CellsFreed s (t.giveBack key) := by
  unfold State.giveBack
  dsimp only
  split
  · exact h.setSw rfl rfl
  · exact h.grant key

/-- The release of an allocated cell is no refusal. -/
theorem CellsFreed.releaseCell {b : Nat} (hb : b < (s.pool 0).fresh) (ha : ((s.pool 0).rd b).testBit 63 = true) :
    CellsFreed s (s.releaseCell b) := by
  have hput (p : Pool) : CellsFreed s (s.setPool 0 p) := (CellsFreed.refl s).setSw rfl rfl
  have hrelease : s.release 0 b = if 1 < refOf ((s.pool 0).rd b)
      then (s.setPool 0 ((s.pool 0).wr b ((s.pool 0).rd b - 2 ^ 55)), false)
      else (s.setPool 0 { (s.pool 0).wr b ((s.pool 0).head * 2 ^ 30) with head := b, used := (s.pool 0).used - 1 }, true) := by
    unfold State.release
    dsimp only
    rw [if_neg (Nat.not_le.2 hb), ha]
    rfl
  unfold State.releaseCell
  rw [hrelease]
  by_cases hr : 1 < refOf ((s.pool 0).rd b)
  · rw [if_pos hr]
    exact hput _
  · rw [if_neg hr]
    have freed := hput { (s.pool 0).wr b ((s.pool 0).head * 2 ^ 30) with head := b, used := (s.pool 0).used - 1 }
    generalize s.setPool 0 _ = t at freed ⊢
    show CellsFreed s (match (t.cellInfo b).credit with | some k => State.giveBack _ k | none => _)
    cases (t.cellInfo b).credit with
    | none => exact freed.setSw rfl rfl
    | some k =>
      refine CellsFreed.giveBack ?_ k
      exact freed.setSw rfl rfl

end

/-! ### A cell sent (R187, R188, R226) -/

/-- The unit of a packet's first cell on a fabric port: sent under the next SEQ and kept for replay. -/
def State.unitKept (s : State) (p : PortId) (k : QPkt) : State :=
  let l := s.link p
  let u := s.sendUnit p 1 l.nextSeq (slice k.pkt.bytes 0 248)
  u.setLink p { l with
    nextSeq := (l.nextSeq + 1) % 4096
    replay := l.replay ++ [(l.nextSeq, 1, padTo 248 (slice k.pkt.bytes 0 248))]
    progressAt := if l.replay = [] then u.now else l.progressAt
    consumed := Sparse.modify 0 l.consumed (5 * k.pkt.tc.toNat + k.pkt.hop.toNat) (fun v => (v + 1) % 2 ^ 16) }

/-- The first cell of a packet sent by an output: counted, and on a fabric port a unit. -/
def State.firstSent (s : State) (x : EndId) (k : QPkt) : State :=
  let u := s.bump (Obj.sw_TX_CELLS x k.pkt.tc.toNat)
  if h : x.val < 125 then u.unitKept ⟨x.val, by omega⟩ k else u

/-- A packet wholly sent leaves to its port, or arrives in the device. -/
def State.delivered (s : State) (x : EndId) (k : QPkt) : State :=
  if h : x.val < 144 then
    if x.val < 125 then s
    else match k.dest with
      | some r => s.emit (.datagram ⟨x.val, h⟩ r.peerAddr r.peerPort r.peerMac (if k.pkt.cm then 3 else 2) k.pkt.bytes)
      | none => s
  else { s with inbox := s.inbox ++ [(k.at_, k.pkt)] }

/-- What a unit kept for replay leaves. -/
theorem State.unitKept_spec (s : State) (p : PortId) (k : QPkt) :
    { s.unitKept p k with objs := s.objs, sent := s.sent, links := s.links } = s ∧
      (∀ j, j ≠ Obj.port_TX_LU p → (s.unitKept p k).obj j = s.obj j) ∧
      (s.unitKept p k).sent = s.sent ++
        [.lu p (linkUnit 1 (s.link p).nextSeq (s.link p).accepted (s.link p).nak (slice k.pkt.bytes 0 248))] ∧
      ((s.unitKept p k).link p).nextSeq = ((s.link p).nextSeq + 1) % 4096 ∧
      ((s.unitKept p k).link p).replay =
        (s.link p).replay ++ [((s.link p).nextSeq, 1, padTo 248 (slice k.pkt.bytes 0 248))] ∧
      Counted (Obj.port_TX_LU p) s (s.unitKept p k) := by
  have sends := UnitsSent.sendUnit s p 1 (s.link p).nextSeq (slice k.pkt.bytes 0 248)
  unfold State.unitKept
  dsimp only
  refine ⟨congrArg (fun u : State => { u with links := s.links }) sends.only, sends.objs, sends.sent, ?_, ?_, ?_⟩
  · rw [State.link_setLink_same]
  · rw [State.link_setLink_same]
  · rw [State.sendUnit_counted s p (by decide)]
    exact (Counted.bump _ _).setLink p _

section
variable {s : State} {x : EndId} {k : QPkt}

theorem State.firstSent_fabric {p : PortId} (hp : p.val = x.val) (h : p.val < 125) :
    s.firstSent x k = (s.bump (Obj.sw_TX_CELLS x k.pkt.tc.toNat)).unitKept p k := by
  have hx : x.val < 125 := hp ▸ h
  have hport : (⟨x.val, by omega⟩ : PortId) = p := Fin.ext hp.symm
  unfold State.firstSent
  dsimp only
  rw [dif_pos hx, hport]

theorem State.firstSent_inside (h : 125 ≤ x.val) : s.firstSent x k = s.bump (Obj.sw_TX_CELLS x k.pkt.tc.toNat) :=
  dif_neg (Nat.not_lt.2 h)

/-- The first cell of a packet leaves the switch as it is, and is counted. -/
theorem State.firstSent_spec (s : State) (x : EndId) (k : QPkt) :
    { s.firstSent x k with objs := s.objs, sent := s.sent, links := s.links } = s ∧
      Counted (Obj.sw_TX_CELLS x k.pkt.tc.toNat) s (s.firstSent x k) := by
  have counted := (OnlyObjs.bump s (Obj.sw_TX_CELLS x k.pkt.tc.toNat)).1
  have rest := congrArg (fun u : State => { u with sent := s.sent, links := s.links }) counted
  have hcell := Counted.bump s (Obj.sw_TX_CELLS x k.pkt.tc.toNat)
  by_cases hx : x.val < 125
  · obtain ⟨p, hp⟩ : ∃ p : PortId, p.val = x.val := ⟨⟨x.val, by omega⟩, rfl⟩
    have hne : Obj.sw_TX_CELLS x k.pkt.tc.toNat ≠ Obj.port_TX_LU p := by
      have := k.pkt.tc.isLt
      simp only [Obj.sw_TX_CELLS, Obj.port_TX_LU, endIndex, objKey]; split <;> omega
    rw [State.firstSent_fabric hp (hp ▸ hx)]
    obtain ⟨only, objs, -⟩ := (s.bump (Obj.sw_TX_CELLS x k.pkt.tc.toNat)).unitKept_spec p k
    refine ⟨?_, (objs _ hne).trans hcell⟩
    exact (congrArg (fun u : State => { u with objs := s.objs, sent := s.sent, links := s.links }) only).trans rest
  · rw [State.firstSent_inside (Nat.not_lt.1 hx)]
    exact ⟨rest, hcell⟩

/-- On a fabric port it is a unit that is kept for replay. -/
theorem State.firstSent_unit {p : PortId} (hp : p.val = x.val) (h : p.val < 125) :
    (s.firstSent x k).sent = s.sent ++
        [.lu p (linkUnit 1 (s.link p).nextSeq (s.link p).accepted (s.link p).nak (slice k.pkt.bytes 0 248))] ∧
      ((s.firstSent x k).link p).nextSeq = ((s.link p).nextSeq + 1) % 4096 ∧
      ((s.firstSent x k).link p).replay =
        (s.link p).replay ++ [((s.link p).nextSeq, 1, padTo 248 (slice k.pkt.bytes 0 248))] ∧
      Counted (Obj.port_TX_LU p) s (s.firstSent x k) := by
  have hne : Obj.port_TX_LU p ≠ Obj.sw_TX_CELLS x k.pkt.tc.toNat := by
    have := k.pkt.tc.isLt
    simp only [Obj.sw_TX_CELLS, Obj.port_TX_LU, endIndex, objKey]; split <;> omega
  rw [State.firstSent_fabric hp h]
  obtain ⟨-, -, sent, next, replay, unit⟩ := (s.bump (Obj.sw_TX_CELLS x k.pkt.tc.toNat)).unitKept_spec p k
  rw [State.link_bump] at sent next replay
  rw [State.bump_sent] at sent
  rw [Counted, State.obj_bump_other s hne] at unit
  exact ⟨sent, next, replay, unit⟩

theorem State.sendCell_goesOn (h0 : (s.outPort x).next = 0) (h1 : 1 < k.cells.length) :
    s.sendCell x k = (s.firstSent x k).setOut x { s.outPort x with next := 1 } := by
  unfold State.sendCell
  dsimp only
  rw [h0]
  exact if_neg (by omega)

theorem State.sendCell_ends (h0 : (s.outPort x).next = 0) {b : Nat} (h1 : k.cells = [.die b]) :
    s.sendCell x k = (((s.firstSent x k).setOut x { s.outPort x with sending := none, next := 0 }).delivered x k).releaseCell b := by
  have hends (u : State) : u.endPacket x k = (u.delivered x k).releaseCell b := by
    unfold State.endPacket
    rw [h1]
    rfl
  unfold State.sendCell
  dsimp only
  rw [h0]
  exact (if_pos (by rw [h1]; rfl)).trans (hends _)

/-- What the sending of the first cell of packet `k` leaves at output `x`. -/
structure FirstCellSent (x : EndId) (k : QPkt) (s t : State) : Prop where
  queues : t.sw.queues = s.sw.queues
  sending : (t.outPort x).sending = if k.cells.length = 1 then none else some k
  counted : Counted (Obj.sw_TX_CELLS x k.pkt.tc.toNat) s t
  mem : t.mem = s.mem
  cores : t.cores = s.cores
  unit : ∀ p : PortId, p.val = x.val → p.val < 125 →
    t.sent = s.sent ++ [.lu p (linkUnit 1 (s.link p).nextSeq (s.link p).accepted (s.link p).nak (slice k.pkt.bytes 0 248))] ∧
      (t.link p).nextSeq = ((s.link p).nextSeq + 1) % 4096 ∧
      (t.link p).replay = (s.link p).replay ++ [((s.link p).nextSeq, 1, padTo 248 (slice k.pkt.bytes 0 248))] ∧
      Counted (Obj.port_TX_LU p) s t
  inbox : 144 ≤ x.val → k.cells.length = 1 → t.inbox = s.inbox ++ [(k.at_, k.pkt)]
  datagram : ∀ (p : PortId) r, p.val = x.val → 125 ≤ p.val → k.cells.length = 1 → k.dest = some r →
    t.sent = s.sent ++ [.datagram p r.peerAddr r.peerPort r.peerMac (if k.pkt.cm then 3 else 2) k.pkt.bytes]

/-- A packet of further cells stays the packet being sent. -/
theorem FirstCellSent.goesOn (hs : (s.outPort x).sending = some k) (h0 : (s.outPort x).next = 0) (h1 : 1 < k.cells.length) :
    FirstCellSent x k s (s.sendCell x k) := by
  have hlen : k.cells.length ≠ 1 := by omega
  obtain ⟨only, counted⟩ := s.firstSent_spec x k
  have unit := fun p => State.firstSent_unit (s := s) (x := x) (k := k) (p := p)
  rw [State.sendCell_goesOn h0 h1]
  generalize s.firstSent x k = u at only counted unit ⊢
  have sw : u.sw = s.sw := (congrArg State.sw only :)
  refine ⟨(congrArg Switch.queues sw :), ?_, counted, (congrArg State.mem only :), (congrArg State.cores only :), fun p => unit p,
    fun _ h => absurd h hlen, fun _ _ _ _ h => absurd h hlen⟩
  rw [State.outPort_setOut_same, if_neg hlen]
  exact hs

theorem State.delivered_only (s : State) (x : EndId) (k : QPkt) : { s.delivered x k with sent := s.sent, inbox := s.inbox } = s := by
  unfold State.delivered
  split
  · split
    · rfl
    · split
      · cases s; rfl
      · rfl
  · cases s; rfl

theorem State.delivered_fabric (h : x.val < 125) : s.delivered x k = s := by
  unfold State.delivered
  rw [dif_pos (by omega), if_pos h]

theorem State.delivered_service {p : PortId} {r : RxAt} (hp : p.val = x.val) (h : 125 ≤ p.val) (hr : k.dest = some r) :
    s.delivered x k = s.emit (.datagram p r.peerAddr r.peerPort r.peerMac (if k.pkt.cm then 3 else 2) k.pkt.bytes) := by
  have hx : x.val < 144 := hp ▸ p.isLt
  have hport : (⟨x.val, hx⟩ : PortId) = p := Fin.ext hp.symm
  unfold State.delivered
  rw [dif_pos hx, if_neg (by omega), hr, hport]

theorem State.delivered_inside (h : 144 ≤ x.val) : s.delivered x k = { s with inbox := s.inbox ++ [(k.at_, k.pkt)] } :=
  dif_neg (Nat.not_lt.2 h)

/-- A packet of one cell ends: it is delivered, and its cell let go. -/
theorem FirstCellSent.ends (h0 : (s.outPort x).next = 0) {b : Nat} (h1 : k.cells = [.die b]) (hb : b < (s.pool 0).fresh)
    (ha : ((s.pool 0).rd b).testBit 63 = true) : FirstCellSent x k s (s.sendCell x k) := by
  have hlen : k.cells.length = 1 := by rw [h1]; rfl
  obtain ⟨only, counted⟩ := s.firstSent_spec x k
  have unit := fun p => State.firstSent_unit (s := s) (x := x) (k := k) (p := p)
  have inside (h : 125 ≤ x.val) : (s.firstSent x k).sent = s.sent := by rw [State.firstSent_inside h, State.bump_sent]
  rw [State.sendCell_ends h0 h1]
  generalize s.firstSent x k = u at only counted unit inside ⊢
  have sw : u.sw = s.sw := (congrArg State.sw only :)
  have hinbox : u.inbox = s.inbox := (congrArg State.inbox only :)
  generalize hv : u.setOut x { s.outPort x with sending := none, next := 0 } = v
  have hout : (v.outPort x).sending = none := by rw [← hv, State.outPort_setOut_same]
  have vonly : { v with sw := u.sw } = u := by rw [← hv]; exact u.setOut_only x _
  have vqueues : v.sw.queues = u.sw.queues := by rw [← hv]; rfl
  have vpool : v.pool 0 = s.pool 0 := by rw [← hv]; exact (congrArg Switch.cells sw :)
  have donly := v.delivered_only x k
  have fabric (h : x.val < 125) := State.delivered_fabric (s := v) (k := k) h
  have service := fun p r => State.delivered_service (s := v) (x := x) (k := k) (p := p) (r := r)
  have inside' (h : 144 ≤ x.val) := State.delivered_inside (s := v) (k := k) h
  generalize v.delivered x k = d at donly fabric service inside' ⊢
  have dsw : d.sw = v.sw := (congrArg State.sw donly :)
  have dpool : d.pool 0 = s.pool 0 := (congrArg Switch.cells dsw :).trans vpool
  have freed : CellsFreed d (d.releaseCell b) := CellsFreed.releaseCell (by rw [dpool]; exact hb) (by rw [dpool]; exact ha)
  generalize d.releaseCell b = w at freed ⊢
  have vobjs : v.objs = u.objs := (congrArg State.objs vonly :)
  have vlinks : v.links = u.links := (congrArg State.links vonly :)
  have vsent : v.sent = u.sent := (congrArg State.sent vonly :)
  have vinbox : v.inbox = s.inbox := (congrArg State.inbox vonly :).trans hinbox
  have wobjs : w.objs = u.objs := ((congrArg State.objs freed.only :).trans (congrArg State.objs donly :)).trans vobjs
  have wsent : w.sent = d.sent := (congrArg State.sent freed.only :)
  have winbox : w.inbox = d.inbox := (congrArg State.inbox freed.only :)
  have wmem : w.mem = s.mem :=
    ((congrArg State.mem freed.only :).trans (congrArg State.mem donly :)).trans ((congrArg State.mem vonly :).trans (congrArg State.mem only :))
  have wcores : w.cores = s.cores := ((congrArg State.cores freed.only :).trans (congrArg State.cores donly :)).trans
    ((congrArg State.cores vonly :).trans (congrArg State.cores only :))
  have hlink (p : PortId) : { w.link p with granted := (u.link p).granted } = u.link p := by
    have dlink : d.link p = u.link p := congrArg (Sparse.get Link.reset · p) ((congrArg State.links donly :).trans vlinks)
    rw [← dlink]; exact freed.link p
  refine ⟨?_, ?_, ?_, wmem, wcores, fun p hp h => ?_, fun h _ => ?_, fun p r hp h _ hr => ?_⟩
  · rw [freed.queues, dsw, vqueues, sw]
  · rw [hlen, if_pos rfl, ← hout, State.outPort, State.outPort, freed.outs, dsw]
  · rw [Counted, State.obj, wobjs]; exact counted
  · obtain ⟨sent, next, replay, tx⟩ := unit p hp h
    refine ⟨?_, (congrArg Link.nextSeq (hlink p) :).trans next, (congrArg Link.replay (hlink p) :).trans replay, ?_⟩
    · rw [wsent, fabric (hp ▸ h), vsent, sent]
    · rw [Counted, State.obj, wobjs]; exact tx
  · rw [winbox, inside' h, ← vinbox]
  · rw [wsent, service p r hp h hr, ← inside (hp ▸ h), ← vsent]
    rfl

end

/-! ### A cell time (R246, R249) -/

section
variable {s t u : State} {x : EndId} {k : QPkt}

/-- The shaper leaves the packet being sent. -/
theorem State.shape_spec (s : State) (x : Nat) (c : Option Nat) :
    ∃ o, s.shape x c = s.setOut x o ∧ o.sending = (s.outPort x).sending := ⟨_, rfl, rfl⟩

theorem FirstCellSent.setOut (h : FirstCellSent x k s t) {o : OutPort} (ho : o.sending = (t.outPort x).sending) :
    FirstCellSent x k s (t.setOut x o) := by
  refine ⟨h.queues, ?_, h.counted, h.mem, h.cores, h.unit, h.inbox, h.datagram⟩
  rw [State.outPort_setOut_same, ho]
  exact h.sending

/-- An output that is on and free, with room for replay, sends the first cell of the packet that it begins. -/
theorem exec_outputCellTime_begins (hon : s.outputOn x = true) (hfree : (s.outPort x).sending = none)
    (hroom : x.val < 125 → (s.link x).replay.length < 2048) (hb : (s.takeSettings x).beginPacket x = t)
    (hk : (t.outPort x).sending = some k) :
    exec (.outputCellTime x) s = .next (((t.sendCell x k).shape x (some k.pkt.tc.toNat)).pfcAll) := by
  have hfull : (decide (x.val < 125) && decide (2048 ≤ (s.link x).replay.length)) = false := by
    by_cases h : x.val < 125
    · have := hroom h
      simp [this]
    · simp [h]
  show execOutputCellTime x s = _
  unfold execOutputCellTime
  rw [hon, hfull, hfree]
  dsimp only
  rw [if_neg (by simp), if_neg (by simp), hb, hk]

/-- What a fabric port with nothing to send, or with 2,048 units unacknowledged, sends from: a full port begins nothing. -/
def State.idleFrom (s : State) (x : EndId) : State :=
  if 2048 ≤ (s.link x).replay.length then s else (s.takeSettings x).beginPacket x

/-- A fabric port that begins nothing sends an idle unit (R187). -/
theorem exec_outputCellTime_idle {p : PortId} (hx : x.val < 125) (hp : p = ⟨x.val, by omega⟩) (hon : s.outputOn x = true)
    (hfree : (s.outPort x).sending = none) (ht : s.idleFrom x = t) (hnone : (t.outPort x).sending = none) :
    exec (.outputCellTime x) s = .next (((t.sendUnit p 0 (t.link p).nextSeq []).shape x none).pfcAll) := by
  subst hp
  show execOutputCellTime x s = _
  unfold execOutputCellTime
  rw [hon, hfree, decide_eq_true hx]
  unfold State.idleFrom at ht
  by_cases hfull : 2048 ≤ (s.link x).replay.length
  · rw [if_pos hfull] at ht
    rw [decide_eq_true hfull, ht]
    dsimp only
    rw [if_neg (by simp), if_pos (.inl rfl), dif_pos hx]
    rfl
  · rw [if_neg hfull] at ht
    rw [decide_eq_false hfull, ht]
    dsimp only
    rw [if_neg (by simp), if_neg (by simp), hnone, dif_pos hx]
    rfl

/-- What an output leaves that begins a packet of class 7 (R226, R248). -/
structure Begun (s : State) (x h : Nat) (k : QPkt) (t : State) : Prop where
  only : { t with sw := s.sw } = s
  pkts : (t.outQ (queueKey x 7 h)).pkts = (s.outQ (queueKey x 7 h)).pkts.drop 1
  sending : (t.outPort x).sending = some k
  next : (t.outPort x).next = 0
  pool : t.pool 0 = s.pool 0

theorem State.begun_seven {h : Nat} (hs : s.shaped 7 = false) (hp : s.classPaused x 7 = false)
    (hc : s.choice x 7 ((s.outPort x).hp.getD 7 0) = some (h, k)) : Begun s x h k ((s.takeSettings x).beginPacket x) := by
  rw [State.beginPacket_seven hs hp hc]
  generalize hu : (s.setOut x (s.settled x)).setOutQ _ _ = u
  have uonly : { u with sw := s.sw } = s := by rw [← hu]; exact s.setOut_only x (s.settled x)
  refine ⟨(congrArg (fun v : State => { v with sw := s.sw }) (u.joinTail_only _)).trans uonly, ?_, ?_, ?_, ?_⟩
  · refine (u.pkts_joinTail (queueKey x 7 h) (queueKey x 7 h)).trans ?_
    rw [← hu, State.outQ_setOutQ, if_pos rfl]
  · rw [State.outPort_setOut_same]
  · rw [State.outPort_setOut_same]
  · refine (u.pool_joinTail (queueKey x 7 h) 0).trans ?_
    rw [← hu]; rfl

/-- The output's cell time when class 7 has a packet that may be sent. -/
theorem exec_outputCellTime_spec {h : Nat} (hon : s.outputOn x = true) (hfree : (s.outPort x).sending = none)
    (hs : s.shaped 7 = false) (hp : s.classPaused x 7 = false) (hroom : x.val < 125 → (s.link x).replay.length < 2048)
    (hc : s.choice x 7 ((s.outPort x).hp.getD 7 0) = some (h, k))
    (hcells : 1 < k.cells.length ∨ ∃ b, k.cells = [.die b] ∧ b < (s.pool 0).fresh ∧ ((s.pool 0).rd b).testBit 63 = true) :
    ∃ t w, Begun s x h k t ∧ exec (.outputCellTime x) s = .next w.pfcAll ∧ FirstCellSent x k t w := by
  have begun := State.begun_seven hs hp hc
  have sent : FirstCellSent x k _ (State.sendCell _ x k) := hcells.elim (FirstCellSent.goesOn begun.sending begun.next)
    fun ⟨b, h1, hb, ha⟩ => FirstCellSent.ends begun.next h1 (by rw [begun.pool]; exact hb) (by rw [begun.pool]; exact ha)
  obtain ⟨o, hshape, ho⟩ := State.shape_spec (((s.takeSettings x).beginPacket x).sendCell x k) x (some k.pkt.tc.toNat)
  refine ⟨_, _, begun, exec_outputCellTime_begins hon hfree hroom rfl begun.sending, ?_⟩
  rw [hshape]
  exact sent.setOut ho

/-- A fabric port with no packet in its queues begins none, full or not. -/
theorem State.idleFrom_empty (h : ∀ c h, (s.outQ (queueKey x c h)).pkts = []) (hfree : (s.outPort x).sending = none) :
    { s.idleFrom x with sw := s.sw } = s ∧ ((s.idleFrom x).outPort x).sending = none := by
  unfold State.idleFrom
  split
  · exact ⟨rfl, hfree⟩
  · obtain ⟨o, hbegin, ho⟩ := State.beginPacket_empty h
    rw [hbegin, State.outPort_setOut_same]
    exact ⟨s.setOut_only x o, ho.trans hfree⟩

end

end Sys2Proof.Machine
end

section
/-! PROOF. A transfer slot with one staged cell (R224, R226, R231), and the two kinds of instants of the switch core together. -/

namespace Sys2Proof.Machine

/-! ### Matching one cell (R224) -/

section
variable {s : State} {i o : Nat} {c : StCell}

/-- One cell staged for one output is matched with it. -/
theorem State.matchOnce_single (hst : s.sw.stages = [(i, ⟨[c], none⟩)]) (ho : c.outs = [o]) (hheld : s.paceHeld i c.cls = false) :
    s.matchOnce s.paceHeld [] = [⟨i, 0, [o]⟩] := by
  have once (n : Nat) : [n].eraseDups = [n] := rfl
  simp [State.matchOnce, hst, stageRequests, ho, hheld, bestReq, once]

theorem State.matchOnce_done (hst : s.sw.stages = [(i, ⟨[c], none⟩)]) : s.matchOnce s.paceHeld [⟨i, 0, [o]⟩] = [] := by
  simp [State.matchOnce, hst]

theorem sortMatches_single {m : XMatch} (h : m.i < 221) : sortMatches [m] = [m] := by
  have hrange (n : Nat) : (List.range n).filterMap (fun j => [m].find? (fun k => decide (k.i = j))) = if m.i < n then [m] else [] := by
    induction n with
    | zero => rfl
    | succ n ih =>
      rw [List.range_succ, List.filterMap_append, ih]
      rcases Nat.lt_trichotomy m.i n with g | g | g
      · simp [g, Nat.lt_succ_of_lt g, Nat.ne_of_lt g]
      · simp [g]
      · simp [Nat.not_lt_of_gt g, Nat.ne_of_gt g, Nat.not_lt.2 g]
  exact (hrange 221).trans (if_pos h)

/-- A slot with one staged cell for one output transfers it, and moves that output's grant pointer past its input. -/
theorem State.slotMatch_single (hst : s.sw.stages = [(i, ⟨[c], none⟩)]) (ho : c.outs = [o]) (hheld : s.paceHeld i c.cls = false)
    (hi : i < 221) :
    s.slotMatch = State.transfer { s with sw := { s.sw with gp := Sparse.set 0 s.sw.gp o ((i + 1) % 221) } } i 0 [o] := by
  unfold State.slotMatch
  dsimp only
  rw [State.matchOnce_single hst ho hheld]
  rw [State.matchOnce_done hst, List.append_nil, State.matchOnce_done hst, List.append_nil, sortMatches_single hi]
  rfl

theorem State.countHeld_single (hst : s.sw.stages = [(i, ⟨[c], none⟩)]) (hheld : s.paceHeld i c.cls = false) : s.countHeld = s := by
  simp [State.countHeld, hst, hheld]

end

/-! ### The transfer -/

/-- A transfer counted, and charged to the budget of a parcel's port (R250). -/
def State.crossed (s : State) (i cls : Nat) : State :=
  let s := s.bump (Obj.sw_XBAR_CELLS i)
  if 144 ≤ i ∧ i < 180 ∧ cls < 6 then
    match s.chargeOf i with
    | some k => { s with sw := { s.sw with paced := s.sw.paced.modify k (· + 1) } }
    | none => s
  else s

section
variable {s u v : State} {i o b : Nat} {c : StCell}

theorem State.stages_crossed (s : State) (i cls : Nat) : (s.crossed i cls).sw.stages = s.sw.stages := by
  have hb := congrArg Switch.stages (s.bump_sw (Obj.sw_XBAR_CELLS i))
  unfold State.crossed
  dsimp only
  split
  · split <;> exact hb
  · exact hb

/-- A whole lossless packet of one cell for one output: its cell is given a buffer of its own. -/
theorem State.transfer_whole (hst : s.stageOf i = ⟨[c], none⟩) (hbuf : c.buf = none) (hshare : c.share = none) (hfan : c.fan = 1)
    (hu : s.crossed i c.cls = u) (hl : u.lossless c.cls = true) (ha : u.alloc 0 = (v, some b)) :
    s.transfer i 0 [o] = ((v.describe 0 b nil c.first c.last c.len).account i b c).giveCell i 0 c b [o] := by
  have hst' : u.stageOf i = ⟨[c], none⟩ := by rw [← hst, ← hu, State.stageOf, State.stages_crossed]; rfl
  have hkeeps (o : Nat) : u.lossyDrop c.cls o = none := if_pos hl
  have hown : u.sharedBuf c = none := by rw [State.sharedBuf, hshare]
  unfold State.transfer
  rw [hst]
  dsimp -zeta only [List.getElem?_cons_zero]
  extract_lets counted sw crossed lost left kept
  have hcrossed : crossed = u := hu
  have hlost : lost = [] := by simp [lost, hcrossed, hkeeps]
  have hleft : left = u := by simp [left, hlost, hcrossed]
  have hkept : kept = [o] := by simp [kept, hlost]
  rw [hleft, hkept, if_neg (List.cons_ne_nil o []), hst', List.getElem?_cons_zero]
  dsimp only
  rw [hbuf]
  dsimp only
  rw [hown]
  dsimp only
  rw [ha]
  dsimp only
  rw [hfan, if_neg (lt_irrefl 1), hshare]

/-- A pool with its next fresh buffer allocated. -/
def Pool.tookFresh (p : Pool) : Pool :=
  { p.wr p.fresh (2 ^ 63 + 2 ^ 55 + nil * 2 ^ 30) with fresh := p.fresh + 1, used := p.used + 1 }

/-- A pool that runs, with an empty free list, gives its next fresh buffer. -/
theorem State.alloc_fresh (hstop : (u.pool 0).stopped = false) (hhead : (u.pool 0).head = nil) (hfresh : (u.pool 0).fresh < 786432) :
    u.alloc 0 = (u.putPool 0 (u.pool 0).tookFresh, some (u.pool 0).fresh) := by
  have hcap : (u.pool 0).fresh ≠ u.poolCap 0 := Nat.ne_of_lt hfresh
  unfold State.alloc
  dsimp only
  rw [hstop, if_neg Bool.false_ne_true, if_neg (not_not.2 hhead), if_neg hcap]
  rfl

/-- A packet's last cell given to the one output that takes it: the packet is queued and the stage is as if it had not been. -/
theorem State.giveCell_last (hst : v.stageOf i = ⟨[c], none⟩) (ho : c.outs = [o]) (hlast : c.last = true) (hpart : v.partOf i o = none)
    (hw : v.enqueuePkt i o c ⟨[b], c.bytes.take c.len⟩ = u) (hu : u.sw.stages = v.sw.stages) :
    v.giveCell i 0 c b [o] = (u.setPart i o none).setStage i Stage.reset := by
  have hst' : (u.setPart i o none).stageOf i = ⟨[c], none⟩ := by
    rw [← hst, State.stageOf, State.stageOf, ← hu]; rfl
  unfold State.giveCell
  simp only [List.foldl_cons, List.foldl_nil, hpart, Option.getD_none, List.getLast?_nil, List.nil_append, hlast, if_true, hw, hst', ho]
  simp [Stage.reset]

/-! ### What a transfer leaves -/

/-- Of the switch, its stages, queues, packets in transfer and grant pointers stay, and of the objects all but `ks`. -/
structure Buffered (ks : List Nat) (s t : State) : Prop where
  only : { t with objs := s.objs, sw := s.sw } = s
  objs : ∀ k, k ∉ ks → t.obj k = s.obj k
  stages : t.sw.stages = s.sw.stages
  queues : t.sw.queues = s.sw.queues
  parts : t.sw.parts = s.sw.parts
  gp : t.sw.gp = s.sw.gp

end

section
variable {ks : List Nat} {s t u : State}

theorem Buffered.refl (ks : List Nat) (s : State) : Buffered ks s s := ⟨rfl, fun _ _ => rfl, rfl, rfl, rfl, rfl⟩

theorem Buffered.trans (h : Buffered ks s t) (g : Buffered ks t u) : Buffered ks s u :=
  ⟨(congrArg (fun v : State => { v with objs := s.objs, sw := s.sw }) g.only).trans h.only, fun k hk => (g.objs k hk).trans (h.objs k hk),
    g.stages.trans h.stages, g.queues.trans h.queues, g.parts.trans h.parts, g.gp.trans h.gp⟩

/-- Pools, records of cells and credits are of no matter here. -/
theorem Buffered.setSw (h : Buffered ks s t) {v : Switch} (hs : v.stages = t.sw.stages) (hq : v.queues = t.sw.queues)
    (hp : v.parts = t.sw.parts) (hg : v.gp = t.sw.gp) : Buffered ks s { t with sw := v } :=
  ⟨h.only, h.objs, hs.trans h.stages, hq.trans h.queues, hp.trans h.parts, hg.trans h.gp⟩

theorem Buffered.setObj (h : Buffered ks s t) {k : Nat} (v : Nat) (hk : k ∈ ks) : Buffered ks s (t.setObj k v) :=
  ⟨h.only, fun j hj => (State.obj_setObj_other t v (ne_of_mem_of_not_mem hk hj).symm).trans (h.objs j hj), h.stages, h.queues, h.parts, h.gp⟩

theorem Buffered.bumped (h : Buffered ks s t) {k : Nat} (hk : k ∈ ks) : Buffered ks s (t.bump k) := by
  unfold State.bump State.addObj
  exact h.setObj _ hk

theorem Buffered.raiseObj (h : Buffered ks s t) {k : Nat} (n : Nat) (hk : k ∈ ks) : Buffered ks s (t.raiseObj k n) := by
  unfold State.raiseObj
  split
  · exact h.setObj _ hk
  · exact h

theorem Buffered.setPool (h : Buffered ks s t) (p : Pool) : Buffered ks s (t.setPool 0 p) := h.setSw rfl rfl rfl rfl

theorem Buffered.crossed {i : Nat} (h : Buffered ks s t) (cls : Nat) (hk : Obj.sw_XBAR_CELLS i ∈ ks) : Buffered ks s (t.crossed i cls) := by
  have counted := h.bumped hk
  unfold State.crossed
  dsimp only
  split
  · split
    · exact counted.setSw rfl rfl rfl rfl
    · exact counted
  · exact counted

theorem Buffered.account (h : Buffered ks s t) (i b : Nat) (c : StCell) : Buffered ks s (t.account i b c) := by
  unfold State.account
  dsimp only
  split
  · split
    · exact h.setSw rfl rfl rfl rfl
    · exact h.setSw rfl rfl rfl rfl
  · exact h.setSw rfl rfl rfl rfl

theorem State.pool_account (s : State) (i b q : Nat) (c : StCell) : (s.account i b c).pool q = s.pool q := by
  unfold State.account
  dsimp only
  split
  · split <;> rfl
  · rfl

theorem State.raiseObj_sw (s : State) (k n : Nat) : (s.raiseObj k n).sw = s.sw := by
  unfold State.raiseObj
  split <;> rfl

/-- The cell given its buffer. -/
def State.buffered (s : State) (i : Nat) (c : StCell) : State :=
  let u := s.crossed i c.cls
  ((u.putPool 0 (u.pool 0).tookFresh).describe 0 (u.pool 0).fresh nil c.first c.last c.len).account i (u.pool 0).fresh c

/-- The objects that a transfer counts in. -/
def crossedObjs (i : Nat) : List Nat := [Obj.sw_XBAR_CELLS i, Obj.pool_HIGH_WATER 0]

theorem State.buffered_spec (s : State) (i : Nat) (c : StCell) : Buffered (crossedObjs i) s (s.buffered i c) :=
  (((((Buffered.refl _ s).crossed c.cls (.head _)).setPool _).raiseObj _ (.tail _ (.head _))).setPool _).account i _ c

theorem State.pool_crossed (s : State) (i cls : Nat) : (s.crossed i cls).pool 0 = s.pool 0 := by
  have hb := congrArg Switch.cells (s.bump_sw (Obj.sw_XBAR_CELLS i))
  unfold State.crossed
  dsimp only
  split
  · split <;> exact hb
  · exact hb

theorem State.pool_putPool (s : State) (p : Pool) : (s.putPool 0 p).pool 0 = p := by
  rw [State.putPool, State.pool, State.raiseObj_sw]; rfl

theorem Pool.fresh_wr (p : Pool) (b w : Nat) : (p.wr b w).fresh = p.fresh := rfl

theorem Pool.used_wr (p : Pool) (b w : Nat) : (p.wr b w).used = p.used := rfl

theorem State.pool_setPool (s : State) (p : Pool) : (s.setPool 0 p).pool 0 = p := rfl

/-- One more buffer of the cell pool is taken. -/
theorem State.pool_buffered (s : State) (i : Nat) (c : StCell) :
    ((s.buffered i c).pool 0).fresh = (s.pool 0).fresh + 1 ∧ ((s.buffered i c).pool 0).used = (s.pool 0).used + 1 := by
  rw [← s.pool_crossed i c.cls]
  unfold State.buffered
  dsimp only
  rw [State.pool_account]
  unfold State.describe
  dsimp only
  rw [State.pool_setPool, State.pool_putPool, Pool.fresh_wr, Pool.used_wr]
  exact ⟨rfl, rfl⟩

theorem State.buffered_counted (s : State) (i : Nat) (c : StCell) : Counted (Obj.sw_XBAR_CELLS i) s (s.buffered i c) := by
  have after : Buffered [Obj.pool_HIGH_WATER 0] (s.crossed i c.cls) (s.buffered i c) :=
    ((((Buffered.refl _ _).setPool _).raiseObj _ (.head _)).setPool _).account i _ c
  have hne : Obj.sw_XBAR_CELLS i ≠ Obj.pool_HIGH_WATER 0 := by
    simp only [Obj.sw_XBAR_CELLS, Obj.pool_HIGH_WATER, objKey]; omega
  have crossed : (s.crossed i c.cls).obj (Obj.sw_XBAR_CELLS i) = (s.bump (Obj.sw_XBAR_CELLS i)).obj (Obj.sw_XBAR_CELLS i) := by
    unfold State.crossed
    dsimp only
    split
    · split <;> rfl
    · rfl
  rw [Counted, after.objs _ (by simpa using hne), crossed]
  exact Counted.bump s _

end

/-! ### The packet queued (R208, R226) -/

/-- The packet of cell `c` as its queue holds it. -/
def State.queuedPkt (s : State) (o : Nat) (c : StCell) : Packet :=
  let p := Packet.parse (c.bytes.take c.len)
  { p with hop := if o < 144 then BitVec.ofNat 3 (hopSet o c.hop) else p.hop, detour := c.detour,
           cm := p.cm || decide (s.obj (Obj.lim_MARK_THRESH c.cls) < s.occupancy o c.cls) }

/-- What the entry of a packet of one cell, in buffer `b`, leaves. -/
structure Queued (o b : Nat) (c : StCell) (s t : State) : Prop where
  only : { t with objs := s.objs, sw := { t.sw with queues := s.sw.queues } } = s
  objs : ∀ k, k ∉ [Obj.port_CM_MARKED o, Obj.sw_OQ_HIGH_WATER o] → t.obj k = s.obj k
  pkts : ∀ k, (t.outQ k).pkts = if k = queueKey o c.cls (hopSet o c.hop)
    then (s.outQ k).pkts ++ [⟨s.queuedPkt o c, c.at_, c.dest, [.die b]⟩] else (s.outQ k).pkts
  keys : ∀ e ∈ t.sw.queues, e.1 = queueKey o c.cls (hopSet o c.hop) ∨ e ∈ s.sw.queues

theorem State.setOutQ_only (s : State) (k : Nat) (q : OutQ) :
    { s.setOutQ k q with objs := s.objs, sw := { (s.setOutQ k q).sw with queues := s.sw.queues } } = s := by
  cases s; rfl

theorem Queued.sw {o b : Nat} {c : StCell} {s t : State} (h : Queued o b c s t) : { t.sw with queues := s.sw.queues } = s.sw :=
  congrArg State.sw h.only

theorem OnlyObjs.raiseObj {ks : List Nat} {s t : State} (h : OnlyObjs ks s t) {k : Nat} (n : Nat) (hk : k ∈ ks) :
    OnlyObjs ks s (t.raiseObj k n) := by
  unfold State.raiseObj
  split
  · exact h.setObj _ hk
  · exact h

theorem Sparse.mem_set {α : Type} [DecidableEq α] {d v : α} {m : Sparse α} {k : Nat} {e : Nat × α} (h : e ∈ Sparse.set d m k v) :
    e.1 = k ∨ e ∈ m := by
  unfold Sparse.set at h
  split at h
  · exact .inr (List.mem_filter.1 h).1
  · exact (Sparse.mem_put h).imp_left fun g => congrArg Prod.fst g

section
variable {s : State} {i o b : Nat} {c : StCell}

theorem State.enqueuePkt_spec (hfree : 0 < s.entriesFree) (hl : s.lossless c.cls = true) :
    Queued o b c s (s.enqueuePkt i o c ⟨[b], c.bytes.take c.len⟩) := by
  have hmark : s.poolMark i c.cls = false := by rw [State.poolMark, hl]; rfl
  unfold State.enqueuePkt
  rw [if_neg (Nat.ne_of_gt hfree), hmark]
  dsimp -zeta only
  extract_lets p h past queued k q direct cells u w
  have hqueued : queued = s.queuedPkt o c := by simp only [queued, State.queuedPkt, Bool.or_false]; rfl
  have marked : OnlyObjs [Obj.port_CM_MARKED o, Obj.sw_OQ_HIGH_WATER o] u w := by
    by_cases hm : (past && decide (o < 144)) = true
    · rw [show w = u.bump (Obj.port_CM_MARKED o) from if_pos hm]
      exact (OnlyObjs.refl _ u).bumped (.head _)
    · rw [show w = u from if_neg hm]
      exact OnlyObjs.refl _ u
  have raised := marked.raiseObj (k := Obj.sw_OQ_HIGH_WATER o) (w.oqCells o + w.oqSpilled o) (.tail _ (.head _))
  generalize w.raiseObj (Obj.sw_OQ_HIGH_WATER o) (w.oqCells o + w.oqSpilled o) = t at raised ⊢
  have hsw : t.sw = u.sw := (congrArg State.sw raised.1 :)
  refine ⟨?_, raised.2, fun j => ?_, fun e he => ?_⟩
  · exact (congrArg (fun v : State => { v with objs := s.objs, sw := { v.sw with queues := s.sw.queues } }) raised.1).trans
      (s.setOutQ_only k _)
  · have hq : t.outQ j = u.outQ j := congrArg (fun v : Switch => Sparse.get OutQ.reset v.queues j) hsw
    rw [hq, State.outQ_setOutQ, hqueued]
    split
    · rename_i hj; rw [hj]; rfl
    · rfl
  · rw [hsw] at he
    exact Sparse.mem_set he

end

/-! ### A transfer slot with one cell -/

/-- The grant pointer of an output moved past an input. -/
def State.granted (s : State) (i o : Nat) : State := { s with sw := { s.sw with gp := Sparse.set 0 s.sw.gp o ((i + 1) % 221) } }

/-- Nothing of a packet is left between input and output. -/
def State.cleared (s : State) (i o : Nat) : State := (s.setPart i o none).setStage i Stage.reset

/-- The one staged cell transferred: given a buffer, queued, and its stage empty. -/
def State.carried (s : State) (i o : Nat) (c : StCell) : State :=
  (((s.granted i o).buffered i c).enqueuePkt i o c ⟨[(s.pool 0).fresh], c.bytes.take c.len⟩).cleared i o

/-- The transfer slot of the cell time that is next. -/
def State.toSlot (s : State) (slot : Nat) : State := { s with sw := { s.sw with phase := slot } }

/-- A switch with one staged cell: the first and last of a lossless packet bound for one output. -/
structure OneCell (s : State) (i o : Nat) (c : StCell) : Prop where
  stages : s.sw.stages = [(i, ⟨[c], none⟩)]
  input : i < 221
  outs : c.outs = [o]
  fan : c.fan = 1
  last : c.last = true
  buf : c.buf = none
  share : c.share = none
  lossless : s.lossless c.cls = true
  free : s.paceHeld i c.cls = false
  part : s.partOf i o = none
  running : (s.pool 0).stopped = false
  unlisted : (s.pool 0).head = nil
  fresh : (s.pool 0).fresh < 786432
  entry : 0 < s.entriesFree

section
variable {s : State} {i o : Nat} {c : StCell}

theorem State.cleared_only (s : State) (i o : Nat) :
    { s.cleared i o with sw := { (s.cleared i o).sw with stages := s.sw.stages, parts := s.sw.parts } } = s := by
  cases s; rfl

theorem State.stages_cleared (s : State) (i o : Nat) : (s.cleared i o).sw.stages = Sparse.drop s.sw.stages i := by
  show Sparse.set Stage.reset s.sw.stages i Stage.reset = _
  exact if_pos rfl

theorem State.lossless_congr {s t : State} (h : t.obj Obj.cls_LOSSLESS = s.obj Obj.cls_LOSSLESS) (c : Nat) : t.lossless c = s.lossless c := by
  rw [State.lossless, State.lossless, h]

theorem State.queued_granted (h : OneCell s i o c) : Queued o (s.pool 0).fresh c ((s.granted i o).buffered i c)
    (((s.granted i o).buffered i c).enqueuePkt i o c ⟨[(s.pool 0).fresh], c.bytes.take c.len⟩) := by
  have buffered := (s.granted i o).buffered_spec i c
  have hi := h.input
  have hlossless := State.lossless_congr (buffered.objs Obj.cls_LOSSLESS (by
    simp only [crossedObjs, Obj.cls_LOSSLESS, Obj.sw_XBAR_CELLS, Obj.pool_HIGH_WATER, endIndex, objKey, List.mem_cons, List.not_mem_nil, or_false]
    split <;> omega)) c.cls
  refine State.enqueuePkt_spec ?_ (hlossless.trans h.lossless)
  rw [State.entriesFree, buffered.queues]
  exact h.entry

theorem State.transfer_carries (h : OneCell s i o c) : (s.granted i o).transfer i 0 [o] = s.carried i o c := by
  have buffered := (s.granted i o).buffered_spec i c
  have queued := (State.queued_granted h).sw
  have hi := h.input
  have hst : (s.granted i o).stageOf i = ⟨[c], none⟩ := by
    show Sparse.get Stage.reset s.sw.stages i = _
    rw [h.stages]; exact if_pos rfl
  have crossed : Buffered [Obj.sw_XBAR_CELLS i] (s.granted i o) ((s.granted i o).crossed i c.cls) :=
    (Buffered.refl _ _).crossed c.cls (.head _)
  have hlossless := State.lossless_congr (crossed.objs Obj.cls_LOSSLESS (by
    simp only [Obj.cls_LOSSLESS, Obj.sw_XBAR_CELLS, endIndex, objKey, List.mem_cons, List.not_mem_nil, or_false]
    split <;> omega)) c.cls
  have hpool : ((s.granted i o).crossed i c.cls).pool 0 = s.pool 0 := (s.granted i o).pool_crossed i c.cls
  have halloc := State.alloc_fresh (hpool ▸ h.running) (hpool ▸ h.unlisted) (hpool ▸ h.fresh)
  have hst' : ((s.granted i o).buffered i c).stageOf i = ⟨[c], none⟩ := by rw [← hst, State.stageOf, buffered.stages]; rfl
  have hpart : ((s.granted i o).buffered i c).partOf i o = none := by
    rw [← h.part, State.partOf, buffered.parts]; rfl
  rw [State.transfer_whole hst h.buf h.share h.fan rfl (hlossless.trans h.lossless) halloc]
  change ((s.granted i o).buffered i c).giveCell i 0 c (((s.granted i o).crossed i c.cls).pool 0).fresh [o] = _
  rw [hpool, State.giveCell_last hst' h.outs h.last hpart rfl (congrArg Switch.stages queued :)]
  rfl

/-- What the transfer of the one cell leaves: the objects it can change, and the switch. -/
structure Carried (i o : Nat) (c : StCell) (s t : State) : Prop where
  only : { t with objs := s.objs, sw := s.sw } = s
  objs : ∀ k, k ∉ crossedObjs i → k ∉ [Obj.port_CM_MARKED o, Obj.sw_OQ_HIGH_WATER o] → t.obj k = s.obj k
  counted : Counted (Obj.sw_XBAR_CELLS i) s t
  stages : t.sw.stages = []
  gp : t.gpOf o = (i + 1) % 221
  fresh : (t.pool 0).fresh = (s.pool 0).fresh + 1
  used : (t.pool 0).used = (s.pool 0).used + 1
  pkts : ∀ k, (t.outQ k).pkts = if k = queueKey o c.cls (hopSet o c.hop)
    then (s.outQ k).pkts ++ [⟨s.queuedPkt o c, c.at_, c.dest, [.die (s.pool 0).fresh]⟩] else (s.outQ k).pkts
  keys : ∀ e ∈ t.sw.queues, e.1 = queueKey o c.cls (hopSet o c.hop) ∨ e ∈ s.sw.queues

/-- The packet that is queued is the one of the cell, marked by the occupancy before it. -/
theorem Buffered.queuedPkt {t : State} (h : Buffered (crossedObjs i) s t) (hi : i < 221) (hc : c.cls < 8) :
    t.queuedPkt o c = s.queuedPkt o c := by
  have hthresh := h.objs (Obj.lim_MARK_THRESH c.cls) (by
    simp only [crossedObjs, Obj.lim_MARK_THRESH, Obj.sw_XBAR_CELLS, Obj.pool_HIGH_WATER, endIndex, objKey, List.mem_cons, List.not_mem_nil,
      or_false]
    split <;> omega)
  have hocc : t.occupancy o c.cls = s.occupancy o c.cls := by
    have hq (k : Nat) : t.outQ k = s.outQ k := congrArg (Sparse.get OutQ.reset · k) h.queues
    simp only [State.occupancy, hq]
  rw [State.queuedPkt, State.queuedPkt, hthresh, hocc]

theorem State.carried_spec (h : OneCell s i o c) (hc : c.cls < 8) : Carried i o c s (s.carried i o c) := by
  have hi := h.input
  have queued := State.queued_granted h
  have buffered := (s.granted i o).buffered_spec i c
  have pool := (s.granted i o).pool_buffered i c
  have counted := (s.granted i o).buffered_counted i c
  have hgp : (s.granted i o).gpOf o = (i + 1) % 221 := Sparse.get_set_same
  have hne : Obj.sw_XBAR_CELLS i ∉ [Obj.port_CM_MARKED o, Obj.sw_OQ_HIGH_WATER o] := by
    simp only [Obj.port_CM_MARKED, Obj.sw_XBAR_CELLS, Obj.sw_OQ_HIGH_WATER, endIndex, objKey, List.mem_cons, List.not_mem_nil, or_false]
    split <;> split <;> omega
  unfold State.carried
  generalize ((s.granted i o).buffered i c).enqueuePkt i o c _ = u at queued ⊢
  generalize (s.granted i o).buffered i c = v at queued buffered pool counted
  have cleared := u.cleared_only i o
  have hdrop := u.stages_cleared i o
  generalize u.cleared i o = t at cleared hdrop ⊢
  have usw := queued.sw
  have hobj (k : Nat) : t.obj k = u.obj k := (congrArg (State.obj · k) cleared :)
  have hcells : t.pool 0 = v.pool 0 := (congrArg (State.pool · 0) cleared :).trans (congrArg Switch.cells usw :)
  have hqueues : t.sw.queues = u.sw.queues := (congrArg (fun x : State => x.sw.queues) cleared :)
  have hq (k : Nat) : t.outQ k = u.outQ k := congrArg (Sparse.get OutQ.reset · k) hqueues
  have hv (k : Nat) : v.outQ k = s.outQ k := congrArg (Sparse.get OutQ.reset · k) buffered.queues
  refine ⟨?_, fun k hk hk' => ?_, ?_, ?_, ?_, ?_, ?_, fun k => ?_, fun e he => ?_⟩
  · have tu := congrArg (fun x : State => { x with objs := s.objs, sw := s.sw }) cleared
    have uv := congrArg (fun x : State => { x with objs := s.objs, sw := s.sw }) queued.only
    have vs := congrArg (fun x : State => { x with objs := s.objs, sw := s.sw }) buffered.only
    exact (tu.trans uv).trans vs
  · exact (hobj k).trans ((queued.objs k hk').trans (buffered.objs k hk))
  · exact ((hobj _).trans (queued.objs _ hne)).trans counted
  · have ustages : u.sw.stages = v.sw.stages := (congrArg Switch.stages usw :)
    have stages : (s.granted i o).sw.stages = [(i, ⟨[c], none⟩)] := h.stages
    rw [hdrop, ustages, buffered.stages, stages]
    simp [Sparse.drop]
  · have gp : t.sw.gp = (s.granted i o).sw.gp :=
      ((congrArg (fun x : State => x.sw.gp) cleared :).trans (congrArg Switch.gp usw :)).trans buffered.gp
    rw [← hgp, State.gpOf, gp]; rfl
  · rw [hcells]; exact pool.1
  · rw [hcells]; exact pool.2
  · rw [hq, queued.pkts, hv, buffered.queuedPkt hi hc]
    rfl
  · rw [hqueues] at he
    exact (queued.keys e he).imp_right fun g => buffered.queues ▸ g

/-- No link with a queue is down after the transfer. -/
theorem Carried.linksUp {t : State} (h : Carried i o c s t) (hc : c.cls < 8) (hh : hopSet o c.hop < 5)
    (hup : ∀ x, x < 125 → (x = o ∨ ∃ e ∈ s.sw.queues, e.1 / 40 = x) → s.linkUp x = true) :
    ((t.sw.queues.map (fun e => e.1 / 40)).eraseDups).filter (fun x => decide (x < 125) && !t.linkUp x) = [] := by
  refine List.filter_eq_nil_iff.2 fun x hx hdown => ?_
  obtain ⟨e, he, rfl⟩ := List.mem_map.1 (List.mem_eraseDups.1 hx)
  simp only [Bool.and_eq_true, decide_eq_true_eq, Bool.not_eq_true'] at hdown
  obtain ⟨hx, hdown⟩ := hdown
  have hstate : t.obj (Obj.port_LINK_STATE (e.1 / 40)) = s.obj (Obj.port_LINK_STATE (e.1 / 40)) := h.objs _
    (by
      simp only [crossedObjs, Obj.port_LINK_STATE, Obj.sw_XBAR_CELLS, Obj.pool_HIGH_WATER, endIndex, objKey, List.mem_cons,
        List.not_mem_nil, or_false]
      split <;> omega)
    (by
      simp only [Obj.port_LINK_STATE, Obj.port_CM_MARKED, Obj.sw_OQ_HIGH_WATER, endIndex, objKey, List.mem_cons, List.not_mem_nil, or_false]
      split <;> omega)
  have hqueue : e.1 / 40 = o ∨ ∃ f ∈ s.sw.queues, f.1 / 40 = e.1 / 40 := by
    refine (h.keys e he).imp (fun g => ?_) fun g => ⟨e, g, rfl⟩
    rw [g, queueKey]; omega
  have hstill := hup _ hx hqueue
  rw [State.linkUp, hstate] at hdown
  rw [State.linkUp, hdown] at hstill
  cases hstill

/-- A transfer slot with one cell, while every link that has a queue is up (R224). -/
theorem exec_xbarMatch_oneCell (h : OneCell s i o c) (hon : s.fabricOn = true) (htx : s.txq = [])
    (hc : c.cls < 8) (hh : hopSet o c.hop < 5) (hup : ∀ x, x < 125 → (x = o ∨ ∃ e ∈ s.sw.queues, e.1 / 40 = x) → s.linkUp x = true) :
    exec .xbarMatch s = .next ((s.carried i o c).toSlot (1 - s.sw.phase)).pfcAll := by
  have carried := State.carried_spec h hc
  have htxq : (s.carried i o c).txq = [] := (congrArg State.txq carried.only :).trans htx
  have hoffer : (s.carried i o c).offerAll = s.carried i o c := by rw [State.offerAll, htxq]; rfl
  have hmatch : s.slotMatch = s.carried i o c :=
    (State.slotMatch_single h.stages h.outs h.free h.input).trans (State.transfer_carries h)
  have hdowns := carried.linksUp hc hh hup
  show execXbarMatch s = _
  unfold execXbarMatch
  rw [hon]
  dsimp only
  rw [State.countHeld_single h.stages h.free, ite_self, hmatch, hoffer, ite_self]
  change Host.Outcome.next (((((s.carried i o c).sw.queues.map (fun e => e.1 / 40)).eraseDups).filter
    (fun x => decide (x < 125) && !(s.carried i o c).linkUp x)).foldl State.reroute _).pfcAll = _
  rw [hdowns]
  rfl

end

/-- Settles O43: a transfer slot (`exec_xbarMatch_oneCell`), a cell time that begins a packet (`exec_outputCellTime_spec`), and one that
sends an idle unit. -/
theorem switchTransfersAndSendsCells : Obligations.SwitchTransfersAndSendsCells := by
  intro s
  refine ⟨?transfer, ?sends, ?idle⟩
  case transfer =>
    intro i o c h hon hst hi ho houts hfan hfirst hlast hbuf hshare hc hh hh5 hl hheld hpart hstop hhead hfresh hfree htx hup
    have cell : OneCell s i o c := ⟨hst, hi, houts, hfan, hlast, hbuf, hshare, hl, hheld, hpart, hstop, hhead, hfresh, hfree⟩
    have carried := State.carried_spec cell hc
    subst hh
    have hexec := exec_xbarMatch_oneCell cell hon htx hc hh5 hup
    generalize s.carried i o c = t at carried hexec
    have hhop : o < 144 → (s.queuedPkt o c).hop = BitVec.ofNat 3 (hopSet o c.hop) := fun h => if_pos h
    exact ⟨_, s.queuedPkt o c, hexec, rfl, carried.stages, carried.gp, carried.counted, carried.fresh, carried.used, carried.pkts,
      rfl, rfl, hhop, rfl, (congrArg State.mem carried.only :), (congrArg State.cores carried.only :)⟩
  case sends =>
    intro x h k l hon hfree hs hp hl hroom hc hh hcells
    subst hl
    obtain ⟨t, w, begun, hexec, sent⟩ := exec_outputCellTime_spec hon hfree hs hp hroom hc hcells
    have hobj (j : Nat) : t.obj j = s.obj j := (congrArg (State.obj · j) begun.only :)
    have hlink (q : Nat) : t.link q = s.link q := (congrArg (State.link · q) begun.only :)
    have hsent : t.sent = s.sent := (congrArg State.sent begun.only :)
    have hinbox : t.inbox = s.inbox := (congrArg State.inbox begun.only :)
    have hmem : t.mem = s.mem := (congrArg State.mem begun.only :)
    have hcores : t.cores = s.cores := (congrArg State.cores begun.only :)
    obtain ⟨queues, sending, counted, mem, cores, unit, inbox, datagram⟩ := sent
    have hq : w.outQ (queueKey x 7 h) = t.outQ (queueKey x 7 h) := congrArg (Sparse.get OutQ.reset · _) queues
    simp only [Counted, hobj, hlink, hsent, hinbox] at counted unit inbox datagram
    refine ⟨w, hexec, ?_, counted, mem.trans hmem, cores.trans hcores, sending, fun p hp hlt => ?_, inbox, datagram⟩
    · rw [hq, begun.pkts]
    · rw [← hp]; exact unit p hp hlt
  case idle =>
    intro p x hx hp hon hfree hempty
    rw [← hx] at hon hfree
    have hport : p = ⟨x.val, by omega⟩ := Fin.ext hx.symm
    have hqueues (c h : Nat) : (s.outQ (queueKey x c h)).pkts = [] := by rw [hx]; exact hempty c h
    obtain ⟨only, none⟩ := State.idleFrom_empty hqueues hfree
    have hexec := exec_outputCellTime_idle (by omega) hport hon hfree rfl none
    generalize s.idleFrom x = t at only none hexec
    have hlink : t.link p = s.link p := (congrArg (State.link · p) only :)
    have hsent : t.sent = s.sent := (congrArg State.sent only :)
    obtain ⟨o, hshape, -⟩ := State.shape_spec (t.sendUnit p 0 (t.link p).nextSeq []) x .none
    rw [hshape, State.sendUnit_idle, State.unitOf, hlink] at hexec
    exact ⟨_, hexec, (congrArg State.links only :), (congrArg State.objs only :), congrArg (· ++ _) hsent,
      (congrArg State.mem only :), (congrArg State.cores only :), (congrArg State.inbox only :)⟩

end Sys2Proof.Machine
end

section
/-! PROOF. What follows a clock in the switch core: the level test of a cell time with the credits it makes good (R236, R237), a pacing
window (R250), and the refill of the policers' buckets (R256, R261). -/

namespace Sys2Proof.Machine

/-! ### Rises counted (R236, R237) -/

/-- One test as the level test meets it: whether it holds now, its counter, and whether it held before. -/
def State.countRise (s : State) (e : Bool × Nat × Bool) : State := if e.1 && !e.2.2 then s.bump e.2.1 else s

/-- The tests of one cell time, each with its counter and with what was kept of it. -/
def State.levelRises (s : State) : List (Bool × Nat × Bool) := s.levelTests.zip (levelCounters.zip s.sw.above)

section
variable {s : State} {e : Bool × Nat × Bool} {l : List (Bool × Nat × Bool)}

theorem OnlyObjs.countRise {ks : List Nat} {t : State} (h : OnlyObjs ks s t) (he : e.2.1 ∈ ks) : OnlyObjs ks s (t.countRise e) := by
  unfold State.countRise
  split
  · exact h.bumped he
  · exact h

theorem OnlyObjs.countRises (s : State) (l : List (Bool × Nat × Bool)) :
    OnlyObjs (l.map (fun e => e.2.1)) s (l.foldl State.countRise s) :=
  List.foldlRecOn (motive := OnlyObjs _ s) l _ (.refl _ s) fun _ h _ he => h.countRise (List.mem_map_of_mem he)

theorem State.obj_countRise_same (s : State) (e : Bool × Nat × Bool) : (s.countRise e).obj e.2.1 =
    if e.1 = true ∧ e.2.2 = false then min (2 ^ objBits e.2.1 - 1) (s.obj e.2.1 + 1) else s.obj e.2.1 := by
  unfold State.countRise
  simp only [Bool.and_eq_true, Bool.not_eq_true']
  split
  · exact Counted.bump s e.2.1
  · rfl

/-- Tests with counters of their own: each is counted as if it stood alone. -/
theorem State.obj_countRises (hl : (l.map (fun e => e.2.1)).Nodup) (he : e ∈ l) : (l.foldl State.countRise s).obj e.2.1 =
    if e.1 = true ∧ e.2.2 = false then min (2 ^ objBits e.2.1 - 1) (s.obj e.2.1 + 1) else s.obj e.2.1 := by
  induction l generalizing s with
  | nil => cases he
  | cons x l ih =>
    obtain ⟨hx, hl⟩ := List.nodup_cons.1 hl
    rcases List.mem_cons.1 he with rfl | he
    · exact ((OnlyObjs.countRises (s.countRise e) l).2 _ hx).trans (s.obj_countRise_same e)
    · have hne : e.2.1 ≠ x.2.1 := fun h => hx (List.mem_map.2 ⟨e, he, h⟩)
      have alone : (s.countRise x).obj e.2.1 = s.obj e.2.1 :=
        ((OnlyObjs.refl [x.2.1] s).countRise (List.mem_singleton_self _)).2 _ (by simpa using hne)
      rw [List.foldl_cons, ih hl he, alone]

theorem levelRises_counters (h : s.sw.above.length = 8) : s.levelRises.map (fun e => e.2.1) = levelCounters := by
  have hpairs : s.levelRises.map Prod.snd = levelCounters.zip s.sw.above :=
    List.map_snd_zip (by rw [List.length_zip, h]; exact le_refl 8)
  have hcounters : (levelCounters.zip s.sw.above).map Prod.fst = levelCounters := List.map_fst_zip (h ▸ le_refl 8)
  rw [← hcounters, ← hpairs, List.map_map]
  rfl

theorem mem_levelRises (h : s.sw.above.length = 8) {i k : Nat} (hk : levelCounters[i]? = some k) :
    (s.levelTests.getD i false, k, s.wasAbove i) ∈ s.levelRises := by
  have hi : i < 8 := (List.getElem?_eq_some_iff.1 hk).1
  have htest : s.levelTests[i]? = some (s.levelTests.getD i false) := by
    rw [List.getD_eq_getElem?_getD, List.getElem?_eq_getElem (l := s.levelTests) hi]; rfl
  have habove : s.sw.above[i]? = some (s.wasAbove i) := by
    rw [State.wasAbove, List.getD_eq_getElem?_getD, List.getElem?_eq_getElem (h ▸ hi)]; rfl
  exact List.mem_of_getElem? (List.getElem?_zip_eq_some.2 ⟨htest, List.getElem?_zip_eq_some.2 ⟨hk, habove⟩⟩)

end

/-! ### Owed credits made good (R207, R236) -/

/-- Nothing differs but the credits granted at the links, and those taken and owed at the inputs. -/
structure CreditsMoved (s t : State) : Prop where
  only : { t with links := s.links, sw := s.sw } = s
  switch : { t.sw with taken := s.sw.taken, owed := s.sw.owed } = s.sw

section
variable {s t : State}

theorem CreditsMoved.refl (s : State) : CreditsMoved s s := ⟨rfl, rfl⟩

theorem CreditsMoved.setOwed (h : CreditsMoved s t) (m : Sparse Nat) : CreditsMoved s { t with sw := { t.sw with owed := m } } :=
  ⟨h.only, h.switch⟩

theorem CreditsMoved.grant (h : CreditsMoved s t) (key : Nat) : CreditsMoved s (t.grant key) := by
  unfold State.grant
  dsimp only
  split
  · exact ⟨h.only, h.switch⟩
  · exact ⟨h.only, h.switch⟩

theorem CreditsMoved.grantN (h : CreditsMoved s t) (key n : Nat) : CreditsMoved s (t.grantN key n) := by
  induction n generalizing t with
  | zero => exact h
  | succ n ih => exact ih (h.grant key)

theorem State.payOwed_moves (s : State) : CreditsMoved s s.payOwed :=
  List.foldlRecOn (motive := CreditsMoved s) _ _ (.refl s) fun t h e _ => by
    dsimp only
    split
    · exact h
    · exact (h.setOwed _).grantN _ _

end

/-! ### The level test -/

/-- The tests of one cell time kept for the next. -/
def State.keepTests (s : State) (l : List Bool) : State := { s with sw := { s.sw with above := l } }

theorem exec_poolLevelTest {s : State} (h : s.fabricOn = true) : exec .poolLevelTest s =
    .next ((s.levelRises.foldl State.countRise s).keepTests s.levelTests).payOwed.pfcAll := by
  show execPoolLevelTest s = _
  unfold execPoolLevelTest
  rw [h]
  rfl

/-- Each of the eight tests has a counter of its own. -/
theorem State.obj_levelRises {s : State} (h : s.sw.above.length = 8) {i k : Nat} (hk : levelCounters[i]? = some k) :
    (s.levelRises.foldl State.countRise s).obj k =
      if s.levelTests.getD i false = true ∧ s.wasAbove i = false then min (2 ^ objBits k - 1) (s.obj k + 1) else s.obj k :=
  have apart : (s.levelRises.map (fun e => e.2.1)).Nodup := by rw [levelRises_counters h]; decide
  State.obj_countRises apart (mem_levelRises h hk)

/-! ### A pacing window (R250) -/

theorem exec_pacingWindow (s : State) : exec .pacingWindow s =
    .next { s.advanceTo ((s.now / 16384 + 1) * 16384) with sw := { s.sw with paced := [0, 0, 0, 0] } } := by
  let u := s.advanceTo ((s.now / 16384 + 1) * 16384)
  exact congrArg (fun w : Switch => Host.Outcome.next { u with sw := { w with paced := [0, 0, 0, 0] } }) (s.advanceTo_sw _)

/-! ### Policer buckets (R256, R261) -/

/-- Service port p's record after the refill of one slot. -/
def State.refilled (s : State) (p : Nat) : Svc :=
  { s.svc p with
    tc := (List.range 8).map (fun c =>
      min ((s.svc p).tc.getD c 0 + (s.obj (Obj.pol_CIR (polIdx p c)) * 8 : Nat)) (s.obj (Obj.pol_CBS (polIdx p c)) * 1000 : Nat))
    tp := (List.range 8).map (fun c =>
      min ((s.svc p).tp.getD c 0 + (s.obj (Obj.pol_PIR (polIdx p c)) * 8 : Nat)) (s.obj (Obj.pol_PBS (polIdx p c)) * 1000 : Nat))
    mode := s.polModes p }

/-- Nothing differs but the service ports' records. -/
structure SvcOnly (s t : State) : Prop where
  only : { t with sw := s.sw } = s
  switch : { t.sw with svc := s.sw.svc } = s.sw

section
variable {s t : State}

theorem SvcOnly.now (h : SvcOnly s t) : t.now = s.now := congrArg BitVec.toNat (congrArg State.ft h.only :)

theorem State.refillPort_eq (s : State) (p : Nat) : s.refillPort p = s.setSvc p (s.refilled p) := rfl

theorem State.svc_setSvc_other {p q : Nat} (h : q ≠ p) (v : Svc) : (s.setSvc p v).svc q = s.svc q := Sparse.get_set_other h

/-- A port's refill reads the dictionary and its own record. -/
theorem State.refilled_congr {p : Nat} (hobj : ∀ k, t.obj k = s.obj k) (hsvc : t.svc p = s.svc p) : t.refilled p = s.refilled p := by
  simp only [State.refilled, State.polModes, hobj, hsvc]

/-- Ports refilled one after another: each from its own record as it was before. -/
theorem State.svc_refillPorts {l : List Nat} (hl : l.Nodup) (p : Nat) :
    (l.foldl State.refillPort s).svc p = if p ∈ l then s.refilled p else s.svc p := by
  induction l generalizing s with
  | nil => rfl
  | cons q l ih =>
    obtain ⟨hq, hl⟩ := List.nodup_cons.1 hl
    rw [List.foldl_cons, ih hl, s.refillPort_eq q]
    by_cases h : p = q
    · subst h
      rw [if_neg hq, if_pos (List.mem_cons_self ..), State.svc_setSvc_same]
    · have hsvc : (s.setSvc q (s.refilled q)).svc p = s.svc p := State.svc_setSvc_other h _
      rw [State.refilled_congr (fun k => s.obj_setSvc q k _) hsvc, hsvc]
      simp only [List.mem_cons, h, false_or]

theorem State.refillPorts_only (s : State) (l : List Nat) : SvcOnly s (l.foldl State.refillPort s) :=
  List.foldlRecOn (motive := SvcOnly s) l _ ⟨rfl, rfl⟩ fun _ h _ _ => ⟨h.only, h.switch⟩

/-- A value per class, read back. -/
theorem getD_map_classes {α : Type} (f : Nat → α) (d : α) {c : Nat} (hc : c < 8) : ((List.range 8).map f).getD c d = f c := by
  rw [List.getD_eq_getElem?_getD, List.getElem?_map, List.getElem?_range hc]
  rfl

theorem State.tc_refilled (s : State) (p : Nat) {c : Nat} (hc : c < 8) : (s.refilled p).tc.getD c 0 =
    min ((s.svc p).tc.getD c 0 + (s.obj (Obj.pol_CIR (polIdx p c)) : Int) * 8) ((s.obj (Obj.pol_CBS (polIdx p c)) : Int) * 1000) := by
  unfold State.refilled
  rw [getD_map_classes _ _ hc, Nat.cast_mul, Nat.cast_mul]
  rfl

theorem State.tp_refilled (s : State) (p : Nat) {c : Nat} (hc : c < 8) : (s.refilled p).tp.getD c 0 =
    min ((s.svc p).tp.getD c 0 + (s.obj (Obj.pol_PIR (polIdx p c)) : Int) * 8) ((s.obj (Obj.pol_PBS (polIdx p c)) : Int) * 1000) := by
  unfold State.refilled
  rw [getD_map_classes _ _ hc, Nat.cast_mul, Nat.cast_mul]
  rfl

theorem State.mode_refilled (s : State) (p : Nat) {c : Nat} (hc : c < 8) :
    (s.refilled p).mode.getD c 0 = s.obj (Obj.pol_MODE (polIdx p c)) := by
  unfold State.refilled State.polModes
  rw [getD_map_classes _ _ hc]

end

/-- The 19 service ports are refilled, numbers 125 to 143. -/
theorem exec_policerRefill (s : State) : exec .policerRefill s =
    .next ((List.range' 125 19).foldl State.refillPort (s.advanceTo ((s.slot + 1) * 1024))) := by
  rw [List.range'_eq_map_range, List.foldl_map]
  rfl

/-- Settles O44: the level test counts rises apart (`State.obj_levelRises`) and then moves credits alone (`State.payOwed_moves`); a
window and a refill begin at their instant. -/
theorem poolLevelsAndPacingFollowTheirClock : Obligations.PoolLevelsAndPacingFollowTheirClock := by
  intro s
  refine ⟨?levels, ?window, ?refill⟩
  case levels =>
    intro hon habove
    have hexec := exec_poolLevelTest hon
    have counted := OnlyObjs.countRises s s.levelRises
    have hrises (i k : Nat) (hk : levelCounters[i]? = some k) := s.obj_levelRises habove hk
    generalize s.levelRises.foldl State.countRise s = t at hexec counted hrises
    have paid := (t.keepTests s.levelTests).payOwed_moves
    generalize (t.keepTests s.levelTests).payOwed = w at hexec paid
    refine ⟨w, hexec, (congrArg Switch.above paid.switch :), ?_, ?_, fun i k hk => ?_⟩
    · exact (congrArg State.mem paid.only :).trans (congrArg State.mem counted.1 :)
    · exact (congrArg State.cores paid.only :).trans (congrArg State.cores counted.1 :)
    · exact (congrArg (State.obj · k) paid.only :).trans (hrises i k hk)
  case window =>
    intro hlt
    have later : s.now ≤ (s.now / 16384 + 1) * 16384 := by omega
    have hexec := exec_pacingWindow s
    have hnow := (s.now_advanceTo hlt).trans (max_eq_right later)
    have advanced := s.advanceTo_only ((s.now / 16384 + 1) * 16384)
    generalize s.advanceTo ((s.now / 16384 + 1) * 16384) = u at hexec hnow advanced
    exact ⟨_, hexec, hnow, rfl, congrArg (fun v : State => { v with sw := s.sw }) advanced⟩
  case refill =>
    intro hlt
    have later : s.now ≤ (s.slot + 1) * 1024 := by rw [State.slot]; omega
    have hexec := exec_policerRefill s
    have hnow := (s.now_advanceTo hlt).trans (max_eq_right later)
    have advanced := s.advanceTo_only ((s.slot + 1) * 1024)
    generalize s.advanceTo ((s.slot + 1) * 1024) = u at hexec hnow advanced
    have kept := u.refillPorts_only (List.range' 125 19)
    have hports := State.svc_refillPorts (s := u) (l := List.range' 125 19) List.nodup_range'
    generalize (List.range' 125 19).foldl State.refillPort u = t at hexec kept hports
    have hsw : u.sw = s.sw := (congrArg State.sw advanced :)
    have hobj (k : Nat) : u.obj k = s.obj k := (congrArg (State.obj · k) advanced :)
    refine ⟨t, hexec, kept.now.trans hnow, ?_, ?_, fun p c hp hp' hc => ?_⟩
    · exact (congrArg (fun v : State => { v with ft := s.ft, sw := s.sw }) kept.only).trans
        (congrArg (fun v : State => { v with sw := s.sw }) advanced)
    · rw [← hsw]; exact kept.switch
    · have hsvc : t.svc p = s.refilled p := by
        rw [hports, if_pos (List.mem_range'_1.2 ⟨hp, hp'⟩)]
        exact State.refilled_congr hobj (congrArg (fun w : Switch => Sparse.get Svc.reset w.svc p) hsw)
      rw [hsvc]
      exact ⟨s.tc_refilled p hc, s.tp_refilled p hc, s.mode_refilled p hc, rfl⟩

end Sys2Proof.Machine
end

section
/-! PROOF. Coll packets of a valid group, received over the fabric (R196, R274, R298 to R300, R321): the packet is taken as it is
classified, and what is held afterwards stays held while it is early. -/

namespace Sys2Proof.Machine

section
variable {s : State} {at_ : RxAt} {k : Packet} {w : State} {st : Nat}

/-! ### Admission (R196, R291, R298) -/

/-- A coll packet of the fabric for an active parcel's group, with the parcel's job, is taken as it is classified. -/
theorem exec_rxColl_taken {p : PortId} (hop : k.op = opColl) (harr : Arrived s at_ k) (hp : at_.port = some p)
    (hgroup : (collHdr k).group < 4096) (hvalid : (s.groupOf (collHdr k).group).valid ≠ 0)
    (hactive : s.parActive (s.groupOf (collHdr k).group).parcel = true)
    (hkept : (s.parcel (s.groupOf (collHdr k).group).parcel).reclaim < 2) (hjob : k.job.toNat ≠ 0)
    (hid : s.jobId (s.groupOf (collHdr k).group).parcel = k.job.toNat) :
    exec (.rxColl at_ k) s = .next ((s.taken at_ k).takeColl at_ k).landHeld := by
  have hstands : (decide (k.op = opColl) && !k.resp && s.received at_ k) = true := by
    obtain ⟨hresp, -, hrx, -, -⟩ := harr
    simp [hop, hresp, hrx]
  have hmay : (if at_.port.isNone then decide ((s.taken at_ k).sourceParcel k = some (s.groupOf (collHdr k).group).parcel)
      else s.parActive (s.groupOf (collHdr k).group).parcel && decide ((s.parcel (s.groupOf (collHdr k).group).parcel).reclaim < 2)
        && decide (k.job.toNat ≠ 0) && decide (s.jobId (s.groupOf (collHdr k).group).parcel = k.job.toNat)) = true := by
    simp [hp, hactive, hkept, hjob, hid]
  show execRxColl at_ k s = _
  rw [execRxColl, if_pos hstands, State.checkRequest_arrived harr]
  dsimp only
  rw [if_neg (Nat.not_le.2 hgroup)]
  refine (if_neg hvalid).trans ((if_neg Bool.false_ne_true).trans (congrArg Host.Outcome.next ?_))
  exact if_pos hmay

/-! ### Answers (R192, R197) -/

/-- An answer to a sender of the fabric joins the packets of the endpoint its request was delivered to. -/
theorem Answered.respond (hsvc : at_.service = false) (k : Packet) (w : State) (st : Nat) (bs : Bytes) :
    Answered k st bs w (w.respond at_ k st bs) := by
  rw [State.respond, State.reply, hsvc]
  exact ⟨rfl, w.deliverTo k, w.response k st bs, fun _ => Sparse.get_set, rfl, rfl, rfl, rfl, rfl, rfl, rfl, rfl, rfl, rfl, rfl, rfl,
    rfl⟩

/-- What is held does not change with an answer. -/
theorem Answered.early {bs : Bytes} {t : State} (h : Answered k st bs w t) : t.early = w.early := (congrArg State.early h.1 :)

/-! ### The ways of a packet (R298) -/

theorem State.takeColl_active {x : Coll} (hc : s.classify (collHdr k) = .active x) (hl : s.landColl x (collHdr k) k.payload = (w, st)) :
    s.takeColl at_ k = w.respond at_ k st [] := by
  rw [State.takeColl]; simp only [hc, hl]

theorem State.takeColl_stale (hc : s.classify (collHdr k) = .stale) :
    s.takeColl at_ k = (s.staleRx (collHdr k).group).respond at_ k stOk [] := by
  rw [State.takeColl]; simp only [hc]

/-- The state with an early packet held and counted. -/
def State.heldEarly (s : State) (at_ : RxAt) (k : Packet) : State :=
  { s with early := s.early ++ [(at_, k)] }.bump Obj.coll_EARLY_HOLDS_TOTAL

theorem State.takeColl_early (hc : s.classify (collHdr k) = .early)
    (hroom : s.heldCells (collHdr k).group + k.cells ≤ (s.groupOf (collHdr k).group).early) : s.takeColl at_ k = s.heldEarly at_ k := by
  rw [State.takeColl]; simp only [hc]
  exact if_pos hroom

/-- Besides what is held, only the count of the packets held differs. -/
theorem OnlyObjs.heldEarly (h : s.early = []) (at_ : RxAt) (k : Packet) :
    OnlyObjs [Obj.coll_EARLY_HOLDS_TOTAL] s { s.heldEarly at_ k with early := [] } := by
  obtain ⟨hrest, hobjs⟩ := OnlyObjs.bump { s with early := s.early ++ [(at_, k)] } Obj.coll_EARLY_HOLDS_TOTAL
  have hnone : { s with early := [] } = s := by cases s; cases h; rfl
  exact ⟨(congrArg (fun t : State => { t with early := [] }) hrest :).trans hnone, hobjs⟩

theorem State.heldCells_nil (h : s.early = []) (g : Nat) : s.heldCells g = 0 := by
  rw [State.heldCells, h]; rfl

/-- The engine of a phase follows the groups' entries, which the count of packets held is none of. -/
theorem State.phaseEngine_heldEarly (at_ : RxAt) (k : Packet) : (s.heldEarly at_ k).phaseEngine = s.phaseEngine := by
  have hgroup (g : Nat) : (s.heldEarly at_ k).groupOf g = s.groupOf g := by
    rw [State.groupOf, State.groupOf]
    split
    · rw [State.heldEarly, State.obj_bump_other _ (by unfold Obj.grp_ENTRY Obj.coll_EARLY_HOLDS_TOTAL objKey; omega)]; rfl
    · rfl
  funext g cseq phase
  rw [State.phaseEngine, hgroup, ← State.phaseEngine]

theorem State.recvInput_heldEarly (at_ : RxAt) (k : Packet) (j : Nat) (h : CollHdr) :
    (s.heldEarly at_ k).recvInput j h = s.recvInput j h := by
  have hstate : (s.heldEarly at_ k).steState j = s.steState j := by
    rw [State.steState, State.heldEarly, State.obj_bump_other _ (by unfold Obj.ste_STE_STATE Obj.coll_EARLY_HOLDS_TOTAL objKey; omega)]
    rfl
  have hste : (s.heldEarly at_ k).ste j = s.ste j := by
    rw [State.ste, State.heldEarly, State.bump_stes]; rfl
  rw [State.recvInput, hstate, hste, ← State.recvInput]

theorem State.colls_heldEarly (at_ : RxAt) (k : Packet) : (s.heldEarly at_ k).colls = s.colls := State.bump_colls ..

/-- One more packet held changes no packet's class. -/
theorem State.classify_heldEarly (at_ : RxAt) (k : Packet) (h : CollHdr) : (s.heldEarly at_ k).classify h = s.classify h := by
  have hready (x : Coll) : (s.heldEarly at_ k).collReady x h.phase = s.collReady x h.phase := by
    rw [State.collReady, State.colls_heldEarly, State.phaseEngine_heldEarly, ← State.collReady]
  have hcoll : (s.heldEarly at_ k).collOf h.group h.cseq = s.collOf h.group h.cseq := by
    rw [State.collOf, State.colls_heldEarly, ← State.collOf]
  have hgroup : (s.heldEarly at_ k).groupSt h.group = s.groupSt h.group := by
    rw [State.groupSt, State.heldEarly, State.bump_groups]; rfl
  simp only [State.classify, State.phaseEngine_heldEarly, State.recvInput_heldEarly, hcoll, hready, hgroup]

/-- A packet that is still early stays held. -/
theorem State.landHeld_early (h : s.early = [(at_, k)]) (hc : s.classify (collHdr k) = .early) : s.landHeld = s := by
  rw [State.landHeld, h, List.foldl_cons, List.foldl_nil]
  simp only [hc]

theorem State.early_staleRx (g : Nat) : (s.staleRx g).early = s.early := s.bump_early Obj.coll_STALE_RX_TOTAL

theorem State.groupSt_staleRx (g h : Nat) : (s.staleRx g).groupSt h =
    if h = g then { s.groupSt h with stale := min (2 ^ 32 - 1) ((s.groupSt h).stale + 1) } else s.groupSt h := by
  simp only [State.groupSt, State.staleRx, State.modGroup, Sparse.modify, Sparse.get_set, State.bump_groups, satN_eq_min]
  split
  · rename_i hg; rw [hg]
  · rfl

theorem OnlyObjs.staleRx (g : Nat) : OnlyObjs [Obj.coll_STALE_RX_TOTAL] s { s.staleRx g with groups := s.groups } := by
  obtain ⟨hrest, hobjs⟩ := OnlyObjs.bump s Obj.coll_STALE_RX_TOTAL
  exact ⟨(congrArg (fun t : State => { t with groups := s.groups }) hrest :), hobjs⟩

end

/-- Settles O41: each clause is one way of `State.takeColl`, and nothing held before or early still lands after it. -/
theorem collectivePacketsLandOrAreHeld : Obligations.CollectivePacketsLandOrAreHeld := by
  unfold Obligations.CollectivePacketsLandOrAreHeld
  intro s at_ p k hop harr hp hnone hgroup hvalid hactive hkept hjob hid u
  have hnone' : u.early = [] := hnone
  have hexec := exec_rxColl_taken hop harr hp hgroup hvalid hactive hkept hjob hid
  have answered {w : State} (st : Nat) (hw : w.early = []) (ht : u.takeColl at_ k = w.respond at_ k st []) :
      ∃ t, exec (.rxColl at_ k) s = .next t ∧ Answered k st [] w t := by
    have ha := Answered.respond harr.2.1 k w st []
    refine ⟨_, hexec.trans (congrArg _ ?_), ha⟩
    rw [ht]
    exact State.landHeld_nil (ha.early.trans hw)
  refine ⟨fun hc hroom => ?early, fun hc => ?stale, fun x w st hc hl hw => answered st hw (State.takeColl_active hc hl)⟩
  case early =>
    have hroom' : u.heldCells (collHdr k).group + k.cells ≤ (u.groupOf (collHdr k).group).early := by
      rw [State.heldCells_nil hnone', Nat.zero_add]; exact hroom
    have hearly : (u.heldEarly at_ k).early = [(at_, k)] := by
      rw [State.heldEarly, State.bump_early]
      exact congrArg (· ++ [(at_, k)]) hnone'
    have hstays : (u.takeColl at_ k).landHeld = u.heldEarly at_ k := by
      rw [State.takeColl_early hc hroom']
      exact State.landHeld_early hearly ((State.classify_heldEarly at_ k _).trans hc)
    exact ⟨u.heldEarly at_ k, hexec.trans (congrArg _ hstays), State.bump_txq ..,
      Counted.bump { u with early := u.early ++ [(at_, k)] } _, hearly, OnlyObjs.heldEarly hnone' at_ k⟩
  case stale =>
    have hw : (u.staleRx (collHdr k).group).early = [] := (State.early_staleRx _).trans hnone'
    obtain ⟨t, ht, ha⟩ := answered stOk hw (State.takeColl_stale hc)
    exact ⟨_, t, ht, ha, Counted.bump u _, OnlyObjs.staleRx _, fun g => State.groupSt_staleRx _ g⟩

end Sys2Proof.Machine
end

section
/-! PROOF. START of a stream engine whose memory has an uncorrectable error: the checks of R278 pass, and the engine faults with STE_MEM
(R288) all the same. -/

namespace Sys2Proof.Machine

/-- Parcel 0 RUNNING with stream engine 0, IDLE, of which START is asked under number 1. Its program is STE_END alone and its RUN_TIMEOUT
9 slots, and the first byte of its memory has an uncorrectable error. -/
def startMeetsError : State :=
  let s := (State.reset.setObj (Obj.fn_STATE 8) 3).setObj (Obj.par_STE_MASK 0) 1
  { s with mem := [(steAddr 0 0, 1), (steAddr 0 1, 1), (steAddr 0 0x58, 9), (steAddr 0 0x1000, 2)], bad := [(steAddr 0 0, true)] }

/-- What START loads of it. -/
def loadedBesideError : Ste :=
  { Ste.reset with prog := [2], ins := List.replicate 8 0, outs := List.replicate 4 0, temps := List.replicate 16 0, runTimeout := 9,
                   runSlot := 1 }

/-- It once the command's number is acknowledged, in the slot that starts now. -/
def acknowledgedError : State := (startMeetsError.advanceTo 0).stePoke (0 : EngineId) 0x60 4 (257 / 256)

theorem steLoad_acknowledgedError : acknowledgedError.steLoad (0 : EngineId) = loadedBesideError := by
  decide +kernel

/-- The checks of R278 find no fault in it. -/
theorem steChecks_acknowledgedError :
    (((acknowledgedError.setSte (0 : EngineId) loadedBesideError).stePoke (0 : EngineId) 0x67 1 0).stePoke (0 : EngineId) 0x68 4
      0).steChecks (0 : EngineId) loadedBesideError = none := by
  decide +kernel

/-- What START loads meets the error, so that the engine enters FAULTED with the code of STE_MEM. -/
theorem steStart_startMeetsError (t : State) (h : exec (.steStart 0) startMeetsError = .next t) :
    t.obj (Obj.ste_STE_STATE (0 : EngineId)) = 4 ∧ t.obj (Obj.ste_FAULT_CODE (0 : EngineId)) = steMem := by
  have hrun : (match exec (.steStart 0) startMeetsError with
      | .next t => decide (t.obj (Obj.ste_STE_STATE (0 : EngineId)) = 4 ∧ t.obj (Obj.ste_FAULT_CODE (0 : EngineId)) = steMem)
      | _ => false) = true := by decide +kernel
  rw [h] at hrun
  exact of_decide_eq_true hrun

/-- Refutes O49: its clause on START makes an engine WAITING whenever the checks of R278 pass, but an uncorrectable error in what
START loads (here in the command word) faults it with STE_MEM, and the obligation excludes no such error. -/
theorem not_streamEnginesStartRunAndStop : ¬ Obligations.StreamEnginesStartRunAndStop := by
  unfold Obligations.StreamEnginesStartRunAndStop
  intro h
  obtain ⟨hcommand, -⟩ := h startMeetsError 0 0 (by decide +kernel) rfl
  obtain ⟨hstart, -⟩ := hcommand 0 257 (by decide +kernel) (by decide) (by decide +kernel) (by decide +kernel) (by decide +kernel)
  obtain ⟨hpass, -⟩ := hstart (by decide) (by decide +kernel) (by decide +kernel)
  have hchecks := steChecks_acknowledgedError
  rw [← steLoad_acknowledgedError] at hchecks
  obtain ⟨t, hexec, -, hwaiting, -⟩ := hpass hchecks
  have hfaulted := (steStart_startMeetsError t hexec).1
  exact absurd (hwaiting.symm.trans hfaulted) (by decide)

end Sys2Proof.Machine
end

section
/-! PROOF. A collective of a program completes: its record, its log entry, its flag, and the cores that wait for it (R301, R302, R316,
R358). -/

namespace Sys2Proof.Machine

/-! ### What the steps of a completion keep -/

/-- Memory, the early arrivals held, the objects that place an address and `view` of every core are as they were, and no context was
added or changed. -/
structure CollKept {α : Type} (view : Core → α) (s t : State) : Prop where
  mem : t.mem = s.mem
  early : t.early = s.early
  objs : ∀ k, k / 256 < 0x6800 → t.obj k = s.obj k
  colls : ∀ y ∈ t.colls, y ∈ s.colls
  cores : ∀ b, view (t.core b) = view (s.core b)

section
variable {α : Type} {view : Core → α} {s t u : State}

theorem CollKept.refl (s : State) : CollKept view s s := ⟨rfl, rfl, fun _ _ => rfl, fun _ h => h, fun _ => rfl⟩

theorem CollKept.trans (h : CollKept view s t) (g : CollKept view t u) : CollKept view s u :=
  ⟨g.mem.trans h.mem, g.early.trans h.early, fun k hk => (g.objs k hk).trans (h.objs k hk), fun y hy => h.colls y (g.colls y hy),
    fun b => (g.cores b).trans (h.cores b)⟩

theorem CollKept.readByte (h : CollKept view s t) (a : Nat) : t.readByte a = s.readByte a := State.readByte_congr h.objs h.mem a

/-- The objects of a core come after those that place an address. -/
theorem CollKept.of_onlyCore {c : Nat} (h : OnlyCore c [Obj.core_CORE_STATE c] s t) (hview : view (t.core c) = view (s.core c)) :
    CollKept view s t := by
  have hcolls : t.colls = s.colls := (congrArg State.colls h.1 :)
  refine ⟨h.mem_eq, (congrArg State.early h.1 :), fun k hk => h.2.1 k ?_, fun y hy => hcolls ▸ hy, fun b => ?_⟩
  · rw [List.mem_singleton]; exact ne_coreObj_of_idx hk c
  · by_cases hb : b = c
    · rw [hb, hview]
    · rw [h.2.2 b hb]

/-! ### Counters, the log and contexts released -/

theorem CollKept.bumpIf (p : Prop) [Decidable p] (s : State) {k : Nat} (hk : 0x6800 ≤ k / 256) :
    CollKept view s (if p then s.bump k else s) := by
  split
  · exact ⟨s.bump_mem k, s.bump_early k, fun j hj => s.obj_bump_other (by rintro rfl; omega), fun y hy => s.bump_colls k ▸ hy,
      fun b => by rw [State.core_bump]⟩
  · exact .refl s

theorem CollKept.logColl (s : State) (c : Coll) : CollKept view s (s.logColl c) := by
  unfold State.logColl
  dsimp only
  split
  · exact ⟨rfl, rfl, fun _ _ => rfl, fun _ h => h, fun _ => rfl⟩
  · exact .refl s

theorem CollKept.dropColl (s : State) (g q : Nat) : CollKept view s (s.dropColl g q) :=
  ⟨rfl, rfl, fun _ _ => rfl, fun _ h => (State.mem_dropColl.1 h).1, fun _ => rfl⟩

/-! ### Cores that return (R302) -/

theorem Core.flag_results (k : Core) (l : List Nat) : (k.results l).flag = k.flag := by
  have hflags : (k.results l).flags = k.flags := (congrArg Core.flags (k.results_only l) :)
  funext f
  rw [Core.flag, hflags, Core.flag]

/-- A routine that returns changes no flag of its core. -/
theorem CollKept.libReturn (s : State) (c : Nat) (l : List Nat) : CollKept Core.flag s (s.libReturn c l) := by
  refine .of_onlyCore ((((OnlyCore.refl c _ s).modCore _).modCore _).settle (List.mem_singleton.2 rfl)) ?_
  rw [State.libReturn, State.core_settle, State.core_setResults, State.core_modCore_same, Core.flag_results]
  rfl

/-- The cores that wait in COLL_WAIT return, and the contexts they waited for are released. -/
theorem CollKept.wakeWaits (s : State) : CollKept Core.flag s s.wakeWaits := by
  unfold State.wakeWaits
  refine List.foldlRecOn (motive := fun t : State => CollKept Core.flag s t) _ _ (.refl s) fun t ht c _ => ht.trans ?_
  split
  · split
    · split
      · exact (CollKept.dropColl t _ _).trans (.libReturn _ c _)
      · exact .refl t
    · exact .libReturn t c _
  · exact .refl t

/-! ### ANCHOR_RETRY (R67) -/

/-- Core c is inside no ANCHOR_RETRY. -/
def State.NotRetrying (s : State) (c : Nat) : Prop := ∀ ro a k g q, (s.core c).lib ≠ some (.retry ro a k g q)

theorem State.retryNext_notRetrying {c : Nat} (h : s.NotRetrying c) : s.retryNext c = s := by
  unfold State.retryNext
  split
  · rename_i hlib
    exact absurd hlib (h _ _ _ _ _)
  · rfl

theorem State.foldl_retryNext_notRetrying (h : ∀ b, s.NotRetrying b) (cs : List Nat) : cs.foldl State.retryNext s = s :=
  List.foldl_fixed' (fun b => State.retryNext_notRetrying (h b)) cs

end

/-- A flag that moves on leaves the routine its core is inside. -/
theorem CollKept.addFlag (s : State) (c : Nat) (f : Flag) (m : BitVec 32) : CollKept Core.lib s (s.addFlag c f m []) := by
  obtain ⟨x, hx⟩ := State.core_retest (s.modCore c (fun k => (k.setFlag f (k.flag f + m)).mark f [])) c
  refine .of_onlyCore (((OnlyCore.refl c _ s).modCore _).retest (List.mem_singleton.2 rfl)) ?_
  rw [State.addFlag, hx, State.core_modCore_same]
  rfl

/-! ### The context written -/

/-- A context once its result is written (R301). -/
def Coll.done (c : Coll) : Coll := { c.final with written := true }

theorem Coll.final_eq (c : Coll) : c.final = { c with status := c.final.status, excess := c.final.excess } := by
  unfold Coll.final
  split <;> rfl

/-- Beside WRITTEN, only the status and the excess of a context can change at its end (R66). -/
theorem Coll.done_eq (c : Coll) : c.done = { c with status := c.final.status, excess := c.final.excess, written := true } := by
  rw [Coll.done, Coll.final_eq]

theorem padTo_self {n : Nat} {bs : Bytes} (h : bs.length = n) : padTo n bs = bs := by
  rw [padTo, h, Nat.sub_self, List.replicate_zero, List.append_nil, List.take_of_length_le h.le]

theorem Coll.written64_length (c : Coll) : c.written64.length = 64 := by
  simp only [Coll.written64, padTo, List.length_append, leBytes_length, List.length_replicate, List.length_take]
  omega

/-- Bytes 64 to 127 of the record of a collective that ends (R301). -/
theorem Coll.written64_done {c : Coll} (h : c.digest.length = 32) :
    c.done.written64 = leBytes 8 c.final.m ++ leBytes 4 c.cseq ++ leBytes 1 c.final.status ++ leBytes 1 (c.final.excess % 16) ++
      leBytes 1 c.algo ++ [0] ++ leBytes 4 c.final.included ++ leBytes 2 (wrap 16 c.anchor) ++ List.replicate 10 0 ++ c.digest := by
  have hdigest : padTo 32 c.done.digest = c.digest := by rw [Coll.done_eq]; exact padTo_self h
  rw [Coll.written64, hdigest, Coll.done_eq, Coll.final_eq]
  rfl

section
variable (s : State) (c : Coll)

theorem State.written_of_mem_setColl {x y : Coll} (h : y ∈ (s.setColl x).colls) (hg : y.group = x.group) (hq : y.cseq = x.cseq) :
    y = x := by
  obtain ⟨z, -, hz⟩ := List.mem_map.1 h
  split at hz
  · exact hz.symm
  · rename_i hne
    subst hz
    exact absurd ⟨hg, hq⟩ hne

/-- The state in which a context is written, counted and logged, before its record is (R316, R358). -/
def State.collLogged : State :=
  let t := s.setColl c.done
  let t := if c.done.short then t.bump Obj.coll_PARTIAL_TOTAL else t
  let t := if c.done.status = 2 then t.bump Obj.coll_ANCHOR_MISS_TOTAL else t
  t.logColl c.done

theorem State.collLogged_kept : CollKept id (s.setColl c.done) (s.collLogged c) :=
  ((CollKept.bumpIf _ _ (by decide)).trans (.bumpIf _ _ (by decide))).trans (.logColl _ _)

theorem State.core_collLogged (b : Nat) : (s.collLogged c).core b = s.core b := (s.collLogged_kept c).cores b

/-- The state in which a collective of a program has written its record and moved its flag on (R301). -/
def State.collRecorded : State :=
  ((s.collLogged c).writeBytes (c.core * 2 ^ 21 + c.record + 64) c.done.written64).addFlag c.core (Fin.ofNat 256 c.flag) 1 []

theorem State.collRecorded_kept :
    CollKept Core.lib ((s.collLogged c).writeBytes (c.core * 2 ^ 21 + c.record + 64) c.done.written64) (s.collRecorded c) :=
  .addFlag ..

theorem State.colls_collRecorded {y : Coll} (h : y ∈ (s.collRecorded c).colls) : y ∈ (s.setColl c.done).colls := by
  have hy := (s.collRecorded_kept c).colls y h
  rw [State.writeBytes_colls] at hy
  exact (s.collLogged_kept c).colls y hy

theorem State.early_collRecorded : (s.collRecorded c).early = s.early :=
  (s.collRecorded_kept c).early.trans ((State.writeBytes_early ..).trans (s.collLogged_kept c).early)

/-- Only the flag that the record names moves on, on the core of the record (R83, R301). -/
theorem State.flag_collRecorded (hf : c.flag < 256) (b : Nat) (f : Flag) : ((s.collRecorded c).core b).flag f =
    if b = c.core ∧ f.val = c.flag then (s.core b).flag f + 1 else (s.core b).flag f := by
  have hval : f = Fin.ofNat 256 c.flag ↔ f.val = c.flag := by rw [Fin.ext_iff, Fin.val_ofNat, Nat.mod_eq_of_lt hf]
  rw [State.collRecorded, State.flag_addFlag, State.core_writeBytes, s.core_collLogged]
  simp only [hval]

/-- A byte after the record is written and the flag has moved on: one of the record's 64 bytes, or as before (R301). -/
theorem State.readByte_collRecorded (hc : c.core < 1152) (hr : c.record + 128 ≤ 2 ^ 21) :
    (∀ j, j < 64 → (s.collRecorded c).readByte (c.core * 2 ^ 21 + c.record + 64 + j) = c.done.written64.getD j 0) ∧
    ∀ b, (∀ j, j < 64 → s.resolve false b ≠ c.core * 2 ^ 21 + c.record + 64 + j) →
      (s.collRecorded c).readByte b = s.readByte b := by
  have hlogged := s.collLogged_kept c
  have hkept := s.collRecorded_kept c
  obtain ⟨hin, hout⟩ := State.readByte_storeSram (s.collLogged c) ⟨c.core, hc⟩ (o := c.record + 64) (bs := c.done.written64)
    (by rw [Coll.written64_length]; omega)
  simp only [Coll.written64_length, ← Nat.add_assoc] at hin hout
  refine ⟨fun j hj => (hkept.readByte _).trans (hin j hj), fun b hb => ?_⟩
  have hplace : (s.collLogged c).resolve false b = s.resolve false b := State.resolve_congr hlogged.objs false b
  rw [hkept.readByte, hout b (by rwa [hplace])]
  exact hlogged.readByte b

theorem State.lib_collRecorded (b : Nat) : ((s.collRecorded c).core b).lib = (s.core b).lib := by
  rw [(s.collRecorded_kept c).cores, State.core_writeBytes, s.core_collLogged]

/-! ### COLL_COMPLETE -/

variable {s c}

/-- What a collective of a program does at its end while no early arrivals are held and no core is inside ANCHOR_RETRY. -/
theorem State.finishColl_program (hby : c.by_ = .program) (hearly : s.early = []) (hretry : ∀ b, s.NotRetrying b) :
    s.finishColl c = (s.collRecorded c).wakeWaits := by
  have hdone : c.done.by_ = .program := by rw [Coll.done_eq]; exact hby
  obtain ⟨hcore, hrecord, hflag⟩ : c.done.core = c.core ∧ c.done.record = c.record ∧ c.done.flag = c.flag := by
    rw [Coll.done_eq]; exact ⟨rfl, rfl, rfl⟩
  have hnone (b : Nat) : (s.collRecorded c).NotRetrying b := fun ro a k g q => by rw [s.lib_collRecorded]; exact hretry b ro a k g q
  have hheld : (s.collRecorded c).wakeWaits.early = [] :=
    (CollKept.wakeWaits _).early.trans ((s.early_collRecorded c).trans hearly)
  unfold State.finishColl
  rw [← Coll.done]
  dsimp only
  rw [if_neg (by rw [hdone]; decide), if_neg (by rw [hdone]; decide), hcore, hrecord, hflag, ← State.collLogged, ← State.collRecorded,
    State.foldl_retryNext_notRetrying hnone, State.landHeld_nil hheld]

theorem exec_collComplete {group : BitVec 16} {cseq : BitVec 32} (hx : s.collOf group.toNat cseq.toNat = some c)
    (hcomplete : c.complete = true) (hwritten : c.written = false) (hby : c.by_ = .program) :
    exec (.collComplete group cseq) s = .next (s.finishColl c) := by
  have hlate : s.readyLate c = false := by rw [State.readyLate, hby]; rfl
  show execCollComplete group cseq s = _
  rw [execCollComplete, hx]
  dsimp only
  rw [hcomplete, hwritten, hlate]
  rfl

end

theorem State.collOf_names {s : State} {g q : Nat} {x : Coll} (h : s.collOf g q = some x) : x.group = g ∧ x.cseq = q := by
  simpa using List.find?_some h

/-- Settles O27: the record and the flag are `State.collRecorded`'s, and the cores that return change neither. -/
theorem completedCollectiveWritesItsRecord : Obligations.CompletedCollectiveWritesItsRecord := by
  intro s group cseq x hx hcomplete hwritten hby hcore hrecord hdigest hflag hearly hretry
  have hwake := CollKept.wakeWaits (s.collRecorded x)
  obtain ⟨hin, hout⟩ := s.readByte_collRecorded x hcore hrecord
  obtain ⟨hgroup, hcseq⟩ := State.collOf_names hx
  refine ⟨_, exec_collComplete hx hcomplete hwritten hby, ?_⟩
  rw [State.finishColl_program hby hearly hretry]
  refine ⟨fun j hj => ?_, fun b hb => (hwake.readByte b).trans (hout b hb), fun b f => ?_, fun y hy hg hq => ?_⟩
  · rw [hwake.readByte, hin j hj, Coll.written64_done hdigest]
  · rw [hwake.cores, s.flag_collRecorded x hflag]
  · have hdone : y = x.done := s.written_of_mem_setColl (s.colls_collRecorded x (hwake.colls y hy))
      (by rw [hg, Coll.done_eq, ← hgroup]) (by rw [hq, Coll.done_eq, ← hcseq])
    rw [hdone]; rfl

end Sys2Proof.Machine
end

section
/-! PROOF. A step with no command waiting is one period of the clock (R322 to R324, R417). -/

namespace Sys2Proof.Machine

section
variable {s : State}

theorem step_idle (h : s.pending = []) : step s = if s.tickWraps then .fault .timeWrapped else .next s.tick := by
  unfold step; rw [h]

theorem State.tick_held (h : s.poweredUp = false) : s.tick = s := by rw [State.tick, h, if_neg Bool.false_ne_true]

theorem State.tickWraps_held (h : s.poweredUp = false) : s.tickWraps = false := by rw [State.tickWraps, h, Bool.false_and]

theorem State.tickWraps_powered (h : s.poweredUp = true) : s.tickWraps = true ↔ 2 ^ 104 ≤ s.afterTick := by
  rw [State.tickWraps, h, Bool.true_and, decide_eq_true_iff]

/-- A period changes the counter and its fraction only. -/
theorem State.tick_only (s : State) : { s.tick with ft := s.ft, ftFrac := s.ftFrac } = s := by
  unfold State.tick; split <;> rfl

/-- Short of the wrap the counter and its fraction hold the sum whole. -/
theorem State.tick_counts (hp : s.poweredUp = true) (h : s.afterTick < 2 ^ 104) :
    s.tick.ft.toNat * 2 ^ 40 + s.tick.ftFrac.toNat = s.afterTick := by
  have hquot : s.afterTick / 2 ^ 40 < 2 ^ 64 := by omega
  rw [State.tick, if_pos hp]
  simp only [BitVec.toNat_ofNat]
  rw [Nat.mod_eq_of_lt hquot, Nat.div_add_mod']

end

/-- Settles O2: the step is a tick, which counts the sum of `State.afterTick` unless it reaches 2^104. -/
theorem idleStepAdvancesFabricTime : Obligations.IdleStepAdvancesFabricTime := by
  intro s hs
  refine ⟨fun hp => ?_, fun hp => ⟨fun hlt => ⟨s.tick, ?_, s.tick_only, State.tick_counts hp hlt⟩, fun hge => ?_⟩⟩
  · rw [step_idle hs, State.tickWraps_held hp, State.tick_held hp, if_neg Bool.false_ne_true]
  · rw [step_idle hs, if_neg fun hw => absurd ((State.tickWraps_powered hp).1 hw) (Nat.not_le.2 hlt)]
  · rw [step_idle hs, if_pos ((State.tickWraps_powered hp).2 hge)]

end Sys2Proof.Machine
end

section
/-! PROOF. The end of an adoption (R349, R355, R366): JOB_START's outcome is decided, kept in the parcel's record, and returned to the
cores that wait for it. -/

namespace Sys2Proof.Machine

/-! ### Cores that return (R94) -/

/-- A core out of its routine with results. -/
def Core.back (k : Core) (l : List Nat) : Core := { k with lib := none, libLoops := [] }.results l

theorem Core.returned_back (k : Core) {l : List Nat} (hl : l.length ≤ 31) : Returned k (k.back l) l :=
  ⟨congrArg (fun x : Core => { x with pos := k.pos, lib := k.lib, libLoops := k.libLoops })
    (Core.results_only { k with lib := none, libLoops := [] } l), fun r => Core.reg_results _ hl r⟩

theorem Core.lib_back (k : Core) (l : List Nat) : (k.back l).lib = none :=
  (congrArg Core.lib (Core.results_only { k with lib := none, libLoops := [] } l) :)

/-- A core that returns twice with the same results has returned with them. -/
theorem Returned.trans {k k' k'' : Core} {l : List Nat} (h : Returned k k' l) (g : Returned k' k'' l) : Returned k k'' l := by
  obtain ⟨hrest, hreg⟩ := h
  obtain ⟨grest, greg⟩ := g
  refine ⟨?_, fun r => ?_⟩
  · exact (congrArg (fun x : Core => { x with regs := k.regs, pos := k.pos, lib := k.lib, libLoops := k.libLoops }) grest).trans hrest
  · rw [greg, hreg]; split <;> rfl

section
variable (s : State) (l : List Nat)

theorem State.core_libReturn_same (c : Nat) : (s.libReturn c l).core c = (s.core c).back l := by
  rw [State.libReturn, State.core_settle, State.setResults_eq, State.core_modCore_same, State.core_modCore_same, Core.back]

theorem State.mem_settle (c : Nat) : (s.settle c).mem = s.mem := by
  unfold State.settle State.setCoreState
  dsimp only
  split_ifs <;> rfl

theorem State.mem_returnAll (cs : List Nat) : (s.returnAll cs l).mem = s.mem :=
  List.foldlRecOn (motive := fun t : State => t.mem = s.mem) _ _ rfl fun t ih c _ => by
    rw [State.libReturn, State.mem_settle, State.setResults, State.modCore_mem, State.modCore_mem, ih]

theorem State.core_returnAll_other {cs : List Nat} {b : Nat} (h : b ∉ cs) : (s.returnAll cs l).core b = s.core b :=
  List.foldlRecOn (motive := fun t : State => t.core b = s.core b) _ _ rfl fun t ih c hc => by
    rw [State.core_libReturn_other t c l (fun e => h (by rw [e]; exact hc)), ih]

theorem State.returned_returnAll (hl : l.length ≤ 31) {cs : List Nat} {b : Nat} (h : b ∈ cs) :
    Returned (s.core b) ((s.returnAll cs l).core b) l ∧ ((s.returnAll cs l).core b).lib = none := by
  induction cs generalizing s with
  | nil => cases h
  | cons c cs ih =>
    have hcons : s.returnAll (c :: cs) l = (s.libReturn c l).returnAll cs l := rfl
    rw [hcons]
    by_cases hbc : b = c
    · subst hbc
      have hfirst := (s.core b).returned_back hl
      rw [← State.core_libReturn_same] at hfirst
      by_cases hmem : b ∈ cs
      · obtain ⟨hret, hlib⟩ := ih (s.libReturn b l) hmem
        exact ⟨hfirst.trans hret, hlib⟩
      · rw [State.core_returnAll_other _ _ hmem]
        exact ⟨hfirst, by rw [State.core_libReturn_same, Core.lib_back]⟩
    · rw [← State.core_libReturn_other s c l hbc]
      exact ih _ ((List.mem_cons.1 h).resolve_left hbc)

/-- The returns of cores of a parcel change cores and their objects. -/
theorem State.returnAll_waiters_beside (u : State) (n : Nat) (w : LibWait → Bool) : Beside UnitKey u (u.returnAll (s.waiters n w) l) :=
  (Beside.refl _ u).foldl fun v c hc => (v.libReturn_beside c l).mono fun _ =>
    unitKey_of_coreKey (State.coreParcel_lt (State.of_mem_parCores (List.mem_filter.1 hc).1))

end

theorem State.mem_waiters {s : State} {n b : Nat} {x : LibWait} {w : LibWait → Bool} (h : s.coreParcel b = some n)
    (hb : (s.core b).lib = some x) (hw : w x = true) : b ∈ s.waiters n w := by
  refine List.mem_filter.2 ⟨State.mem_parCores h fun e => ?_, by rw [hb]; exact hw⟩
  rw [e] at hb; cases hb

/-! ### What an adoption decides (R366) -/

section
variable (s : State) (n : Nat)

/-- The replica's shards are written into memory and nowhere else. -/
theorem State.adoptShards_onlyMemory (shards : List (BitVec 44 × Bytes)) :
    { s.adoptShards n shards with mem := s.mem, bad := s.bad } = s := by
  have clear (ks : List Nat) (at_ : State → Nat → Nat) (len : Nat) (u : State) (hu : { u with mem := s.mem, bad := s.bad } = s) :
      { ks.foldl (fun (u : State) k => u.clearMem (at_ u k) len) u with mem := s.mem, bad := s.bad } = s :=
    List.foldlRecOn (motive := fun t : State => { t with mem := s.mem, bad := s.bad } = s) _ _ hu fun t ht k _ => ht
  unfold State.adoptShards
  refine List.foldlRecOn (motive := fun t : State => { t with mem := s.mem, bad := s.bad } = s) _ _ (clear _ _ _ _ rfl) fun t ht e _ => ?_
  dsimp only
  split
  · exact (congrArg (fun u : State => { u with mem := s.mem, bad := s.bad }) (State.storeBytes_onlyMemory t _ _) :).trans ht
  · exact ht

/-- The state after the shards and the record of a good replica are written. -/
def State.adoptWritten (record : Bytes) (shards : List (BitVec 44 × Bytes)) : State :=
  let u := (s.adoptShards n shards).setObj (Obj.res_ADOPT_FROM n) 0xFFFFFFFF
  (u.storeBytes (u.recordAddr n) (padTo 4096 (record.take 212))).1

/-- What is written is memory, with ADOPT_FROM cleared. -/
theorem State.adoptWritten_onlyMemory (record : Bytes) (shards : List (BitVec 44 × Bytes)) :
    { s.adoptWritten n record shards with mem := s.mem, bad := s.bad } = s.setObj (Obj.res_ADOPT_FROM n) 0xFFFFFFFF := by
  have hstore := State.storeBytes_onlyMemory ((s.adoptShards n shards).setObj (Obj.res_ADOPT_FROM n) 0xFFFFFFFF)
    (((s.adoptShards n shards).setObj (Obj.res_ADOPT_FROM n) 0xFFFFFFFF).recordAddr n) (padTo 4096 (record.take 212))
  have hshards := congrArg (State.setObj · (Obj.res_ADOPT_FROM n) 0xFFFFFFFF) (s.adoptShards_onlyMemory n shards)
  exact (congrArg (fun u : State => { u with mem := s.mem, bad := s.bad }) hstore :).trans hshards

/-- The objects and the record of a parcel whose step runs again from digest record `r`. -/
def State.replaySet (g : Nat) (r : Bytes) : State :=
  ((s.mirrorRecord n r).setObj (Obj.res_JOB_GROUP n) g).modParcel n (fun p => { p with attempt := 1 })

theorem State.jobReplay_eq (g : Nat) (r : Bytes) : s.jobReplay n g r =
    ((s.replaySet n g r).setCseqs n (stepBase ((s.replaySet n g r).nextStep n) 1), [1, (s.replaySet n g r).nextStep n]) := rfl

theorem State.cores_replaySet (g : Nat) (r : Bytes) : (s.replaySet n g r).cores = s.cores := by
  simp only [State.replaySet, State.mirrorRecord, State.setOct, State.modParcel, State.setObj_cores]

theorem State.parcel_setObj (k v m : Nat) : (s.setObj k v).parcel m = s.parcel m := rfl

theorem State.parcel_replaySet (g : Nat) (r : Bytes) :
    (s.replaySet n g r).parcel n = { s.parcel n with seed := BitVec.ofNat 64 (leAt r 172 8), attempt := 1 } := by
  rw [State.replaySet, State.parcel_modParcel_same, State.parcel_setObj, State.mirrorRecord, State.parcel_modParcel_same,
    State.parcel_setOct, State.parcel_setOct, State.parcel_setObj, recSeed]

/-- The objects of the digest record that a replay does not set. -/
theorem State.obj_replaySet_other {k : Nat} (g : Nat) (r : Bytes) (hstep : k ≠ Obj.pardig_RESULT_STEP n)
    (hjob : k ≠ Obj.pardig_JOB_DIGEST n) (hresult : k ≠ Obj.pardig_RESULT_DIGEST n) (hgroup : k ≠ Obj.res_JOB_GROUP n) :
    (s.replaySet n g r).obj k = s.obj k := by
  unfold State.replaySet State.mirrorRecord State.setOct
  rw [State.obj_modParcel, State.obj_setObj_other _ _ hgroup, State.obj_modParcel, State.obj_setObj_other _ _ hresult,
    State.obj_setObj_other _ _ hjob, State.obj_setObj_other _ _ hstep]

theorem State.objs_replaySet (g : Nat) (r : Bytes) : (s.replaySet n g r).obj (Obj.pardig_RESULT_STEP n) = leAt r 8 4 ∧
    (s.replaySet n g r).obj (Obj.pardig_RESULT_DIGEST n) = leAt r 140 32 ∧ (s.replaySet n g r).obj (Obj.res_JOB_GROUP n) = g := by
  have hstep : Obj.pardig_RESULT_STEP n ≠ Obj.res_JOB_GROUP n ∧ Obj.pardig_RESULT_STEP n ≠ Obj.pardig_RESULT_DIGEST n ∧
      Obj.pardig_RESULT_STEP n ≠ Obj.pardig_JOB_DIGEST n := by
    simp only [Obj.pardig_RESULT_STEP, Obj.pardig_RESULT_DIGEST, Obj.pardig_JOB_DIGEST, Obj.res_JOB_GROUP, objKey]; omega
  have hresult : Obj.pardig_RESULT_DIGEST n ≠ Obj.res_JOB_GROUP n := by
    simp only [Obj.pardig_RESULT_DIGEST, Obj.res_JOB_GROUP, objKey]; omega
  obtain ⟨hstepGroup, hstepResult, hstepJob⟩ := hstep
  unfold State.replaySet State.mirrorRecord State.setOct
  simp only [State.obj_modParcel]
  refine ⟨?_, ?_, State.obj_setObj_same _ _ _⟩
  · rw [State.obj_setObj_other _ _ hstepGroup, State.obj_modParcel, State.obj_setObj_other _ _ hstepResult,
      State.obj_setObj_other _ _ hstepJob, State.obj_setObj_same, recStep]
  · rw [State.obj_setObj_other _ _ hresult, State.obj_modParcel, State.obj_setObj_same, leAt]

/-- The parcel no longer adopts. -/
def State.adoptOver : State := s.modParcel n (fun p => { p with adopting := none })

/-- A failed adoption: the ring says so. -/
def State.adoptFailed : State :=
  (s.adoptOver n).advise (8 + n) (some n) 0x0904 0xFFFF ((s.adoptOver n).obj (Obj.res_ADOPT_FROM n))

theorem State.adoptFailed_steady : Steady RingKey (s.adoptOver n) (s.adoptFailed n) :=
  (Steady.refl _ _).advise (fun _ => id) _ _ _ _ _

/-- A good adoption: the replica's shards, record and job are the parcel's. -/
def State.adopted (g : Nat) (record : Bytes) (shards : List (BitVec 44 × Bytes)) : State × List Nat :=
  ((s.adoptOver n).adoptWritten n record shards).jobReplay n g record

/-- The cores of a parcel that wait for an adoption. -/
def State.adoptCores : List Nat := s.waiters n (fun w => decide (w = .adopt))

/-- The state of an adoption decided, without the objects of a replay. -/
theorem State.adopted_spec (g : Nat) (record : Bytes) (shards : List (BitVec 44 × Bytes)) :
    (s.adopted n g record shards).2 = [1, (leAt record 8 4 + 1) % 2 ^ 32] ∧ (s.adopted n g record shards).1.cores = s.cores ∧
      (s.adopted n g record shards).1.parcel n =
        { s.parcel n with adopting := none, seed := BitVec.ofNat 64 (leAt record 172 8), attempt := 1 } ∧
      ∀ k, (s.adopted n g record shards).1.obj k = (((s.adoptOver n).adoptWritten n record shards).replaySet n g record).obj k := by
  have hwritten := (s.adoptOver n).adoptWritten_onlyMemory n record shards
  rw [State.adopted, State.jobReplay_eq]
  generalize stepBase _ 1 = base
  have hcseq := State.setCseqs_steady (((s.adoptOver n).adoptWritten n record shards).replaySet n g record) n base
  dsimp only
  have hcores : ((s.adoptOver n).adoptWritten n record shards).cores = s.cores := (congrArg State.cores hwritten :)
  refine ⟨?_, hcseq.cores.trans ((State.cores_replaySet ..).trans hcores), ?_, fun k => hcseq.objs k id⟩
  · obtain ⟨hstep, -⟩ := State.objs_replaySet ((s.adoptOver n).adoptWritten n record shards) n g record
    rw [State.nextStep, hstep]
  · have hparcel : ((s.adoptOver n).adoptWritten n record shards).parcel n = (s.adoptOver n).parcel n :=
      (congrArg (State.parcel · n) hwritten :)
    rw [hcseq.parcel, State.parcel_replaySet, hparcel, State.adoptOver, State.parcel_modParcel_same]

/-- The objects of a good adoption. -/
theorem State.objs_adopted (g : Nat) (record : Bytes) (shards : List (BitVec 44 × Bytes)) :
    (s.adopted n g record shards).1.obj (Obj.res_ADOPT_FROM n) = 0xFFFFFFFF ∧
      (s.adopted n g record shards).1.obj (Obj.pardig_RESULT_STEP n) = leAt record 8 4 ∧
      (s.adopted n g record shards).1.obj (Obj.pardig_RESULT_DIGEST n) = leAt record 140 32 ∧
      (s.adopted n g record shards).1.obj (Obj.res_JOB_GROUP n) = g := by
  obtain ⟨-, -, -, hobj⟩ := s.adopted_spec n g record shards
  have hfrom : ((s.adoptOver n).adoptWritten n record shards).obj (Obj.res_ADOPT_FROM n) = 0xFFFFFFFF :=
    (congrArg (State.obj · (Obj.res_ADOPT_FROM n)) ((s.adoptOver n).adoptWritten_onlyMemory n record shards) :).trans
      (State.obj_setObj_same _ _ _)
  simp only [hobj]
  refine ⟨?_, State.objs_replaySet _ n g record⟩
  rw [State.obj_replaySet_other, hfrom]
  all_goals
    simp only [Obj.res_ADOPT_FROM, Obj.pardig_RESULT_STEP, Obj.pardig_RESULT_DIGEST, Obj.pardig_JOB_DIGEST, Obj.res_JOB_GROUP, objKey]
    omega

/-! ### The outcome kept and returned (R355) -/

/-- JOB_START's outcome kept for the parcel and returned to waiting cores. -/
def State.outcomeGiven (l cs : List Nat) : State := (s.modParcel n (fun p => { p with job := some (l, cs) })).returnAll cs l

end

section
variable {s u : State} {n : Nat} {l : List Nat}

theorem State.parcel_outcomeGiven :
    (u.outcomeGiven n l (s.adoptCores n)).parcel n = { u.parcel n with job := some (l, s.adoptCores n) } := by
  rw [State.outcomeGiven, State.adoptCores, (State.returnAll_waiters_beside s l _ n _).parcel, State.parcel_modParcel_same]

theorem State.obj_outcomeGiven {k : Nat} (h : ¬ UnitKey k) : (u.outcomeGiven n l (s.adoptCores n)).obj k = u.obj k := by
  rw [State.outcomeGiven, State.adoptCores, (State.returnAll_waiters_beside s l _ n _).objs k h, State.obj_modParcel]

theorem State.mem_outcomeGiven (cs : List Nat) : (u.outcomeGiven n l cs).mem = u.mem := by
  rw [State.outcomeGiven, State.mem_returnAll]; rfl

theorem State.returned_outcomeGiven (hl : l.length ≤ 31) (hcores : u.cores = s.cores) {b : Nat} (hb : s.coreParcel b = some n)
    (hlib : (s.core b).lib = some .adopt) : Returned (s.core b) ((u.outcomeGiven n l (s.adoptCores n)).core b) l ∧
      ((u.outcomeGiven n l (s.adoptCores n)).core b).lib = none := by
  have hcore : (u.modParcel n (fun p => { p with job := some (l, s.adoptCores n) })).core b = s.core b :=
    congrArg (Sparse.get Core.reset · b) hcores
  rw [← hcore]
  exact State.returned_returnAll _ l hl (State.mem_waiters hb hlib (decide_eq_true rfl))

end

section
variable {s : State} {n : ParcelId} {record : Bytes} {shards : List (BitVec 44 × Bytes)} {ok : Bool} {seed first g : Nat}

/-- What an adoption comes to: the checks of the replica, in the order of the command. -/
def State.adoptDecided (s : State) (n g : Nat) (record : Bytes) (shards : List (BitVec 44 × Bytes)) (ok : Bool) : State × List Nat :=
  if ok && recPresent record && recSound record && s.recMatches n record then s.adopted n g record shards else (s.adoptFailed n, [4])

/-- The replica's record is good. -/
def State.adoptable (s : State) (n : Nat) (record : Bytes) (ok : Bool) : Prop :=
  ok = true ∧ recPresent record = true ∧ recSound record = true ∧ s.recMatches n record = true

theorem State.adoptChecks (s : State) (n : Nat) (record : Bytes) (ok : Bool) :
    (ok && recPresent record && recSound record && s.recMatches n record) = true ↔ s.adoptable n record ok := by
  rw [Bool.and_eq_true, Bool.and_eq_true, Bool.and_eq_true, and_assoc, and_assoc, State.adoptable]

theorem State.adoptDecided_good (h : s.adoptable n record ok) : s.adoptDecided n g record shards ok = s.adopted n g record shards :=
  if_pos ((s.adoptChecks n record ok).2 h)

theorem State.adoptDecided_failed (h : ¬ s.adoptable n record ok) : s.adoptDecided n g record shards ok = (s.adoptFailed n, [4]) :=
  if_neg (mt (s.adoptChecks n record ok).1 h)

theorem exec_adoptComplete (hrun : s.parState n = 3) (hjob : s.jobState n ≠ 3) (hadopt : (s.parcel n).adopting = some [seed, first, g]) :
    exec (.adoptComplete n record shards ok) s = .next
      ((s.adoptDecided n g record shards ok).1.outcomeGiven n (s.adoptDecided n g record shards ok).2 (s.adoptCores n)) := by
  show execAdoptComplete n record shards ok s = _
  unfold execAdoptComplete
  rw [if_pos ⟨hrun, hjob⟩, hadopt]
  rfl

end

/-- Settles O28: the outcome is decided as `State.adopted` or `State.adoptFailed`, and given to the cores that wait. -/
theorem adoptionEndsJobStart : Obligations.AdoptionEndsJobStart := by
  intro s n record shards ok seed first g hrun hjob hadopt
  have hexec := exec_adoptComplete (record := record) (shards := shards) (ok := ok) hrun hjob hadopt
  have row {k : Nat} (hk : k / 256 = 0x6300 + n ∨ k / 256 = 0x8300 + n) : ¬ UnitKey k := by
    have := n.isLt; unfold UnitKey; omega
  have hstepRow : ¬ UnitKey (Obj.pardig_RESULT_STEP n) := row (.inl (objKey_idx (by decide)))
  by_cases h : s.adoptable n record ok
  · rw [State.adoptDecided_good h] at hexec
    obtain ⟨hl, hcores, hparcel, -⟩ := s.adopted_spec n g record shards
    obtain ⟨hfrom, hstep, hresult, hgroup⟩ := s.objs_adopted n g record shards
    refine ⟨_, (s.adopted n g record shards).2, hexec, ?_, ⟨s.adoptCores n, ?_⟩, fun b hb hlib => ?_, fun hn => absurd h hn,
      fun _ _ _ _ => ⟨hl, ?_, ?_, ?_, ?_, ?_, ?_⟩⟩
    · rw [State.parcel_outcomeGiven, hparcel]
    · rw [State.parcel_outcomeGiven]
    · exact State.returned_outcomeGiven (by simp [hl]) hcores hb hlib
    · rw [State.obj_outcomeGiven (k := Obj.res_ADOPT_FROM n) (row (.inr (objKey_idx (by decide)))), hfrom]
    · rw [State.obj_outcomeGiven hstepRow, hstep]
    · rw [State.obj_outcomeGiven (k := Obj.pardig_RESULT_DIGEST n) (row (.inl (objKey_idx (by decide)))), hresult]
    · rw [State.parcel_outcomeGiven, hparcel]
    · rw [State.obj_outcomeGiven (k := Obj.res_JOB_GROUP n) (row (.inr (objKey_idx (by decide)))), hgroup]
    · rw [State.parcel_outcomeGiven, hparcel]
  · rw [State.adoptDecided_failed h] at hexec
    dsimp only at hexec
    have hsteady := s.adoptFailed_steady n
    have hparcel : ((s.adoptFailed n).parcel n).adopting = none := by
      rw [hsteady.parcel, State.adoptOver, State.parcel_modParcel_same]
    refine ⟨_, [4], hexec, ?_, ⟨s.adoptCores n, ?_⟩, fun b hb hlib => ?_, fun _ => ⟨rfl, ?_, ?_⟩,
      fun hok hpresent hsound hmatches => absurd ⟨hok, hpresent, hsound, hmatches⟩ h⟩
    · rw [State.parcel_outcomeGiven, hparcel]
    · rw [State.parcel_outcomeGiven]
    · exact State.returned_outcomeGiven (by decide) hsteady.cores hb hlib
    · rw [State.mem_outcomeGiven, hsteady.mem]; rfl
    · rw [State.obj_outcomeGiven hstepRow, hsteady.objs _ (by simp only [RingKey, Obj.pardig_RESULT_STEP, objKey]; omega)]; rfl

end Sys2Proof.Machine
end

section
/-! PROOF. The messages of IEEE 1588 that a service port sends (R322, R340, R341): their fields, byte by byte, and the state after each. -/

namespace Sys2Proof.Machine

/-! ### Fields of byte strings -/

section
variable {a b : Bytes} {lo n : Nat}

theorem beAt_append_left (h : lo + n ≤ a.length) : beAt (a ++ b) lo n = beAt a lo n := by
  rw [beAt, slice, List.drop_append_of_le_length (by omega), List.take_append_of_le_length (by rw [List.length_drop]; omega), beAt, slice]

theorem beAt_append_right (h : a.length ≤ lo) : beAt (a ++ b) lo n = beAt b (lo - a.length) n := by
  rw [beAt, slice, List.drop_append, List.drop_eq_nil_of_le h, List.nil_append, beAt, slice]

theorem beAt_beBytes (n v : Nat) : beAt (beBytes n v) 0 n = v % 256 ^ n := by
  rw [beAt, slice, List.drop_zero, List.take_of_length_le (by rw [beBytes_length]), beNat_beBytes]

/-- The field `v` of a message after `a` and before `b`. -/
theorem beAt_field (h : a.length = lo) (v : Nat) : beAt (a ++ beBytes n v ++ b) lo n = v % 256 ^ n := by
  have hlen : (a ++ beBytes n v).length = lo + n := by rw [List.length_append, beBytes_length, h]
  rw [beAt_append_left (by rw [hlen]), beAt_append_right (by rw [h]), h, Nat.sub_self, beAt_beBytes]

theorem byteAt_eq_beAt (bs : Bytes) (i : Nat) : byteAt bs i = beAt bs i 1 := by
  rw [byteAt, beAt, slice, List.take_one, List.head?_drop, List.getD_eq_getElem?_getD]
  cases bs[i]? <;> simp [beNat]

end

/-! ### The header and the time stamp (R322, R340) -/

section
variable (s : State) (p type seq log flags len : Nat)

theorem State.length_ptpHeader : (s.ptpHeader p type seq log flags len).length = 34 := by
  simp [State.ptpHeader, beBytes_length]

theorem State.type_ptpHeader : beAt (s.ptpHeader p type seq log flags len) 0 1 = type % 2 ^ 8 := by
  unfold State.ptpHeader
  iterate 9 rw [beAt_append_left (by simp [beBytes_length])]
  exact beAt_field (a := []) rfl type

theorem State.clock_ptpHeader : beAt (s.ptpHeader p type seq log flags len) 20 8 = s.clockId p % 2 ^ 64 := by
  unfold State.ptpHeader
  iterate 3 rw [beAt_append_left (by simp [beBytes_length])]
  exact beAt_field (by simp [beBytes_length]) _

theorem State.seq_ptpHeader : beAt (s.ptpHeader p type seq log flags len) 30 2 = seq % 2 ^ 16 := by
  unfold State.ptpHeader
  rw [beAt_append_left (by simp [beBytes_length])]
  exact beAt_field (by simp [beBytes_length]) _

theorem State.length_ptpStamp (t : Nat) : (s.ptpStamp t).length = 10 := by
  rw [State.ptpStamp, List.length_append, beBytes_length, beBytes_length]

theorem State.seconds_ptpStamp (t : Nat) : beAt (s.ptpStamp t) 0 6 = (s.obj Obj.time_EPOCH_IN_USE + t / 16000000000) % 2 ^ 48 :=
  beAt_field (a := []) rfl _

theorem State.nanoseconds_ptpStamp (t : Nat) : beAt (s.ptpStamp t) 6 4 = t % 16000000000 / 16 := by
  have hlt : t % 16000000000 / 16 < 256 ^ 4 := by omega
  rw [State.ptpStamp, beAt_append_right (by rw [beBytes_length]), beBytes_length, beAt_beBytes, Nat.mod_eq_of_lt hlt]

end

/-! ### Messages: a header and a body -/

section
variable {s : State} {p type seq log flags len : Nat} {body : Bytes} {lo n : Nat}

theorem State.length_ptpMessage : (s.ptpHeader p type seq log flags len ++ body).length = 34 + body.length := by
  rw [List.length_append, State.length_ptpHeader]

/-- A field of the header of a message. -/
theorem State.beAt_ptpMessage_header (h : lo + n ≤ 34) :
    beAt (s.ptpHeader p type seq log flags len ++ body) lo n = beAt (s.ptpHeader p type seq log flags len) lo n :=
  beAt_append_left (by rw [State.length_ptpHeader]; exact h)

/-- A field of the body of a message. -/
theorem State.beAt_ptpMessage_body (h : 34 ≤ lo) :
    beAt (s.ptpHeader p type seq log flags len ++ body) lo n = beAt body (lo - 34) n := by
  rw [beAt_append_right (by rw [State.length_ptpHeader]; exact h), State.length_ptpHeader]

theorem State.type_ptpMessage (h : type < 2 ^ 8) : byteAt (s.ptpHeader p type seq log flags len ++ body) 0 = type := by
  rw [byteAt_eq_beAt, State.beAt_ptpMessage_header (by decide), State.type_ptpHeader, Nat.mod_eq_of_lt h]

theorem State.seq_ptpMessage (h : seq < 2 ^ 16) : beAt (s.ptpHeader p type seq log flags len ++ body) 30 2 = seq := by
  rw [State.beAt_ptpMessage_header (by decide), State.seq_ptpHeader, Nat.mod_eq_of_lt h]

theorem State.clock_ptpMessage : beAt (s.ptpHeader p type seq log flags len ++ body) 20 8 = s.clockId p % 2 ^ 64 := by
  rw [State.beAt_ptpMessage_header (by decide), State.clock_ptpHeader]

end

section
variable {s : State} {p : PortId}

/-! ### When a message is due -/

/-- When a message is due, `period` after the last. -/
def ptpDue (last : Option Nat) (period : Nat) : Nat :=
  match last with
  | some t => t + period
  | none => 0

theorem State.advanceTo_zero (s : State) : s.advanceTo 0 = s := if_neg fun h => Nat.not_lt_zero _ h.1

/-! ### Sync and Follow_Up (R340) -/

/-- A Sync with its sequence number. -/
def State.ptpSyncMsg (s : State) (p seq : Nat) : Bytes := s.ptpHeader p 0 seq (s.obj (Obj.port_PTP_SYNC_LOG p)) 0x0200 10 ++ beBytes 10 0

/-- The Follow_Up of the Sync sent now. -/
def State.ptpFollowUpMsg (s : State) (p seq : Nat) : Bytes :=
  s.ptpHeader p 8 seq (s.obj (Obj.port_PTP_SYNC_LOG p)) 0 10 ++ s.ptpStamp s.now

theorem State.ptpSyncMsg_fields (s : State) (p : Nat) {seq : Nat} (h : seq < 2 ^ 16) : (s.ptpSyncMsg p seq).length = 44 ∧
    byteAt (s.ptpSyncMsg p seq) 0 = 0 ∧ beAt (s.ptpSyncMsg p seq) 30 2 = seq ∧ beAt (s.ptpSyncMsg p seq) 20 8 = s.clockId p % 2 ^ 64 :=
  ⟨by rw [State.ptpSyncMsg, State.length_ptpMessage, beBytes_length], State.type_ptpMessage (by decide), State.seq_ptpMessage h,
    State.clock_ptpMessage⟩

theorem State.ptpFollowUpMsg_fields (s : State) (p : Nat) {seq : Nat} (h : seq < 2 ^ 16) : (s.ptpFollowUpMsg p seq).length = 44 ∧
    byteAt (s.ptpFollowUpMsg p seq) 0 = 8 ∧ beAt (s.ptpFollowUpMsg p seq) 30 2 = seq ∧
    beAt (s.ptpFollowUpMsg p seq) 34 6 = (s.obj Obj.time_EPOCH_IN_USE + s.now / 16000000000) % 2 ^ 48 ∧
    beAt (s.ptpFollowUpMsg p seq) 40 4 = s.now % 16000000000 / 16 := by
  refine ⟨?_, State.type_ptpMessage (by decide), State.seq_ptpMessage h, ?_, ?_⟩
  · rw [State.ptpFollowUpMsg, State.length_ptpMessage, State.length_ptpStamp]
  · rw [State.ptpFollowUpMsg, State.beAt_ptpMessage_body (by decide), State.seconds_ptpStamp]
  · rw [State.ptpFollowUpMsg, State.beAt_ptpMessage_body (by decide), State.nanoseconds_ptpStamp]

/-- What was sent and the time function's record after Sync and Follow_Up are sent now and noted in the port's record `r`. -/
def State.ptpSynced (s : State) (p : PortId) (r : PtpPort) : State :=
  { s with
    sent := s.sent ++ [.datagram p ptpGroup 319 0x333300000181 0 (s.ptpSyncMsg p r.syncSeq),
      .datagram p ptpGroup 320 0x333300000181 0 (s.ptpFollowUpMsg p r.syncSeq)]
    time := { s.time with
      ptp := Sparse.set PtpPort.reset s.time.ptp p { r with syncAt := some s.now, syncSeq := (r.syncSeq + 1) % 2 ^ 16 } } }

theorem State.ptpSynced_eq (s : State) (p : PortId) (r : PtpPort) : s.ptpSynced p r =
    ((s.ptpSend p true (s.ptpSyncMsg p r.syncSeq)).ptpSend p false (s.ptpFollowUpMsg p r.syncSeq)).setPtpRec p
      { r with syncAt := some s.now, syncSeq := (r.syncSeq + 1) % 2 ^ 16 } := by
  simp only [State.ptpSynced, State.ptpSend, State.emit, State.setPtpRec, State.modTime, List.append_assoc, List.cons_append,
    List.nil_append, if_true, Bool.false_eq_true, if_false]

theorem State.ptpRec_ptpSynced (s : State) (p : PortId) (r : PtpPort) :
    (s.ptpSynced p r).ptpRec p = { r with syncAt := some s.now, syncSeq := (r.syncSeq + 1) % 2 ^ 16 } := by
  rw [State.ptpRec, State.ptpSynced, Sparse.get_set_same]

theorem exec_ptpSyncTx (h : s.ptpMaster p = true) : exec (.ptpSyncTx p) s = .next
    ((s.advanceTo (ptpDue (s.ptpRec p).syncAt (ptpPeriod (s.obj (Obj.port_PTP_SYNC_LOG p))))).ptpSynced p (s.ptpRec p)) := by
  show execPtpSyncTx p s = _
  unfold execPtpSyncTx
  rw [h, Bool.not_true, if_neg Bool.false_ne_true, State.ptpSynced_eq, State.ptpSyncMsg, State.ptpFollowUpMsg, State.obj_advanceTo]
  dsimp only
  cases (s.ptpRec p).syncAt with
  | none => rw [ptpDue, State.advanceTo_zero]; rfl
  | some t => dsimp only [ptpDue]; rfl

/-! ### Announce (R341) -/

/-- The fields of an Announce's body that the manual gives. -/
theorem State.announceBody_fields (s : State) : s.announceBody.1.length = 30 ∧ beAt s.announceBody.1 10 2 = s.advert.utc % 2 ^ 16 ∧
    beAt s.announceBody.1 14 1 = (if s.obj Obj.time_TIME_STATE = 3 then 7 else s.advert.cls) % 2 ^ 8 ∧
    beAt s.announceBody.1 19 8 = s.advert.gm % 2 ^ 64 ∧ beAt s.announceBody.1 27 2 = (s.advert.steps + s.advert.dist) % 2 ^ 16 := by
  unfold State.announceBody
  dsimp only
  generalize (if s.obj Obj.time_TIME_STATE = 3 then 7 else s.advert.cls) = cls
  refine ⟨by simp [beBytes_length], ?utc, ?cls, ?gm, ?steps⟩
  case steps => exact beAt_field (by simp [beBytes_length]) _
  case gm =>
    rw [beAt_append_left (by simp [beBytes_length])]
    exact beAt_field (by simp [beBytes_length]) _
  case cls =>
    iterate 4 rw [beAt_append_left (by simp [beBytes_length])]
    exact beAt_field (by simp [beBytes_length]) _
  case utc =>
    iterate 7 rw [beAt_append_left (by simp [beBytes_length])]
    exact beAt_field (by simp [beBytes_length]) _

/-- An Announce with its sequence number: the header in the state of sending, the body with the next free value. -/
def State.ptpAnnounceMsg (s : State) (p seq : Nat) : Bytes :=
  s.ptpHeader p 11 seq (s.obj (Obj.port_PTP_ANNOUNCE_LOG p)) (announceFlags s.advert.leap) 30 ++ s.announceBody.1

theorem State.ptpAnnounceMsg_fields (s : State) (p : Nat) {seq : Nat} (h : seq < 2 ^ 16) : (s.ptpAnnounceMsg p seq).length = 64 ∧
    byteAt (s.ptpAnnounceMsg p seq) 0 = 11 ∧ beAt (s.ptpAnnounceMsg p seq) 30 2 = seq ∧
    beAt (s.ptpAnnounceMsg p seq) 44 2 = s.advert.utc % 2 ^ 16 ∧
    byteAt (s.ptpAnnounceMsg p seq) 48 = (if s.obj Obj.time_TIME_STATE = 3 then 7 else s.advert.cls % 256) ∧
    beAt (s.ptpAnnounceMsg p seq) 53 8 = s.advert.gm % 2 ^ 64 ∧
    beAt (s.ptpAnnounceMsg p seq) 61 2 = (s.advert.steps + s.advert.dist) % 2 ^ 16 := by
  obtain ⟨hlen, hutc, hcls, hgm, hsteps⟩ := s.announceBody_fields
  refine ⟨?_, State.type_ptpMessage (by decide), State.seq_ptpMessage h, ?_, ?_, ?_, ?_⟩
  · rw [State.ptpAnnounceMsg, State.length_ptpMessage, hlen]
  · rw [State.ptpAnnounceMsg, State.beAt_ptpMessage_body (by decide), hutc]
  · rw [byteAt_eq_beAt, State.ptpAnnounceMsg, State.beAt_ptpMessage_body (by decide), hcls]
    split <;> rfl
  · rw [State.ptpAnnounceMsg, State.beAt_ptpMessage_body (by decide), hgm]
  · rw [State.ptpAnnounceMsg, State.beAt_ptpMessage_body (by decide), hsteps]

/-- What was sent, the time function's record and the next free value after Announce is sent now and noted in the port's record `r`. -/
def State.ptpAnnounced (s : State) (p : PortId) (r : PtpPort) : State :=
  { s with
    freshCtr := s.freshCtr + 1
    sent := s.sent ++ [.datagram p ptpGroup 320 0x333300000181 0 (s.ptpAnnounceMsg p r.annSeq)]
    time := { s.time with
      ptp := Sparse.set PtpPort.reset s.time.ptp p { r with annAt := some s.now, annSeq := (r.annSeq + 1) % 2 ^ 16 } } }

theorem State.ptpAnnounced_eq (s : State) (p : PortId) (r : PtpPort) : s.ptpAnnounced p r =
    (s.fresh.2.ptpSend p false (s.ptpAnnounceMsg p r.annSeq)).setPtpRec p
      { r with annAt := some s.now, annSeq := (r.annSeq + 1) % 2 ^ 16 } := by
  simp only [State.ptpAnnounced, State.fresh, State.ptpSend, State.emit, State.setPtpRec, State.modTime, Bool.false_eq_true, if_false]

theorem State.ptpRec_ptpAnnounced (s : State) (p : PortId) (r : PtpPort) :
    (s.ptpAnnounced p r).ptpRec p = { r with annAt := some s.now, annSeq := (r.annSeq + 1) % 2 ^ 16 } := by
  rw [State.ptpRec, State.ptpAnnounced, Sparse.get_set_same]

theorem State.clockId_advanceTo (s : State) (t p : Nat) : (s.advanceTo t).clockId p = s.clockId p := by
  rw [State.clockId, State.obj_advanceTo, State.clockId]

/-- What is advertised does not depend on the time. -/
theorem State.advert_advanceTo (s : State) (t : Nat) : (s.advanceTo t).advert = s.advert := by
  unfold State.advanceTo; split <;> rfl

theorem exec_ptpAnnounceTx (h : s.ptpMaster p = true) : exec (.ptpAnnounceTx p) s = .next
    ((s.advanceTo (ptpDue (s.ptpRec p).annAt (ptpPeriod (s.obj (Obj.port_PTP_ANNOUNCE_LOG p))))).ptpAnnounced p (s.ptpRec p)) := by
  show execPtpAnnounceTx p s = _
  unfold execPtpAnnounceTx
  rw [h, Bool.not_true, if_neg Bool.false_ne_true, State.ptpAnnounced_eq, State.ptpAnnounceMsg, State.obj_advanceTo]
  dsimp only
  cases (s.ptpRec p).annAt with
  | none => rw [ptpDue, State.advanceTo_zero]; rfl
  | some t => dsimp only [ptpDue]; rfl

/-! ### Delay_Resp (R340) -/

/-- The answer to a Delay_Req that arrives now. -/
def State.ptpDelayRespMsg (s : State) (p seq sender : Nat) : Bytes :=
  s.ptpHeader p 9 seq 0 0 20 ++ (s.ptpStamp s.now ++ beBytes 10 sender)

theorem State.ptpDelayRespMsg_fields (s : State) (p : Nat) {seq sender : Nat} (h : seq < 2 ^ 16) (hsender : sender < 2 ^ 80) :
    byteAt (s.ptpDelayRespMsg p seq sender) 0 = 9 ∧ beAt (s.ptpDelayRespMsg p seq sender) 30 2 = seq ∧
    beAt (s.ptpDelayRespMsg p seq sender) 34 6 = (s.obj Obj.time_EPOCH_IN_USE + s.now / 16000000000) % 2 ^ 48 ∧
    beAt (s.ptpDelayRespMsg p seq sender) 40 4 = s.now % 16000000000 / 16 ∧
    beAt (s.ptpDelayRespMsg p seq sender) 44 10 = sender := by
  have hstamp := s.length_ptpStamp s.now
  refine ⟨State.type_ptpMessage (by decide), State.seq_ptpMessage h, ?_, ?_, ?_⟩
  · rw [State.ptpDelayRespMsg, State.beAt_ptpMessage_body (by decide), beAt_append_left (by rw [hstamp]; decide), State.seconds_ptpStamp]
  · rw [State.ptpDelayRespMsg, State.beAt_ptpMessage_body (by decide), beAt_append_left (by rw [hstamp]), State.nanoseconds_ptpStamp]
  · rw [State.ptpDelayRespMsg, State.beAt_ptpMessage_body (by decide), beAt_append_right (by rw [hstamp]), hstamp, beAt_beBytes]
    exact Nat.mod_eq_of_lt hsender

/-- Counting the Delay_Req changes neither the epoch nor the time of its answer. -/
theorem State.stamp_delayReqCounted (s : State) (p : PortId) :
    (s.bump (Obj.port_PTP_DELAY_REQ_RX p)).obj Obj.time_EPOCH_IN_USE = s.obj Obj.time_EPOCH_IN_USE ∧
      (s.bump (Obj.port_PTP_DELAY_REQ_RX p)).now = s.now := by
  have := p.isLt
  exact ⟨s.obj_bump_other (by simp only [Obj.time_EPOCH_IN_USE, Obj.port_PTP_DELAY_REQ_RX, objKey]; omega), by
    rw [State.now, State.bump, State.addObj_ft, State.now]⟩

theorem exec_ptpDelayReqRx {domain : BitVec 8} {sender : BitVec 80} {seq : BitVec 16} (h : s.ptpMaster p = true)
    (hd : domain.toNat = s.obj (Obj.port_PTP_DOMAIN p)) : exec (.ptpDelayReqRx p domain sender seq) s = .next
      ((s.bump (Obj.port_PTP_DELAY_REQ_RX p)).ptpSend p false
        ((s.bump (Obj.port_PTP_DELAY_REQ_RX p)).ptpDelayRespMsg p seq.toNat sender.toNat)) := by
  show execPtpDelayReqRx p domain sender seq s = _
  unfold execPtpDelayReqRx
  rw [h, decide_eq_true hd, Bool.true_and, if_pos rfl, State.ptpDelayRespMsg, ← List.append_assoc]

/-! ### Delay_Req (R340) -/

/-- A Delay_Req of the slave port. -/
def State.ptpDelayReqMsg (s : State) (p seq : Nat) : Bytes := s.ptpHeader p 1 seq 0x7F 0 10 ++ beBytes 10 0

/-- The last Delay_Req noted with its sending. -/
def TimeSrc.requested (r : TimeSrc) (now : Nat) : TimeSrc := { r with req := some (r.reqSeq, now), reqSeq := (r.reqSeq + 1) % 2 ^ 16 }

theorem exec_ptpDelayReqTx (hup : s.svcUp p = true) (hslave : s.ptpPortState p = 9) : exec (.ptpDelayReqTx p) s = .next
    ((s.modSrc (·.requested s.now)).ptpSend p true ((s.modSrc (·.requested s.now)).ptpDelayReqMsg p s.time.src.reqSeq)) := by
  show execPtpDelayReqTx p s = _
  unfold execPtpDelayReqTx
  rw [hup, decide_eq_true hslave, Bool.true_and, if_pos rfl]
  rfl

end

end Sys2Proof.Machine
end

section
/-! PROOF. The messages of IEEE 1588 that the slave port of the datum takes (R339, R340), and all messages put together. -/

namespace Sys2Proof.Machine

/-! ### The grandmaster followed -/

section
variable {s : State} {p : PortId} {domain : BitVec 8} {seq : BitVec 16} {g : PtpAnnounce}

theorem State.ptpFollows_gm (h : s.time.src.gm = some g) : s.ptpFollows g.sender = true := by
  rw [State.ptpFollows, h]; exact decide_eq_true rfl

/-- A change of the time function's record besides SOURCE_STATE. -/
theorem OnlyObjs.sourceState (x : TimeSt) (v : Nat) :
    OnlyObjs [Obj.time_SOURCE_STATE] s { { s with time := x }.setObj Obj.time_SOURCE_STATE v with time := s.time } :=
  ⟨rfl, fun _ hk => State.obj_setObj_other s v (by simpa using hk)⟩

/-! ### Sync, Follow_Up and Delay_Resp (R339) -/

theorem exec_ptpSyncRx_followed (hears : s.ptpHears p domain = true) (hg : s.time.src.gm = some g) :
    exec (.ptpSyncRx p domain g.sender seq) s = .next (s.modSrc fun r => { r with sync := some (seq.toNat, s.now) }) := by
  show execPtpSyncRx p domain g.sender seq s = _
  unfold execPtpSyncRx
  rw [hears, State.ptpFollows_gm hg, Bool.true_and, if_pos rfl]

/-- The source after the Follow_Up that measures `d` for its Sync. -/
def TimeSrc.measured (r : TimeSrc) (d : Int) : TimeSrc := { r with sync := none, down := some d }

/-- The Follow_Up of the Sync that is kept gives an offset once the path is known. -/
theorem exec_ptpFollowUpRx_taken {at_ origin : Nat} {u : Int} (hears : s.ptpHears p domain = true) (hg : s.time.src.gm = some g)
    (hsync : s.time.src.sync = some (seq.toNat, at_)) (hup : s.time.src.up = some u) (hrange : s.ptpInRange origin = true)
    (hbar : s.sourceBarred = false) : exec (.ptpFollowUpRx p domain g.sender seq origin) s = .next
      ((s.modSrc (·.measured ((at_ : Int) - s.ptpUnits origin))).sourceSample (u - ((at_ : Int) - s.ptpUnits origin))) := by
  have hup' : (s.modSrc (fun r => { r with sync := none, down := some ((at_ : Int) - s.ptpUnits origin) })).time.src.up = some u := hup
  show execPtpFollowUpRx p domain g.sender seq origin s = _
  unfold execPtpFollowUpRx
  rw [hears, State.ptpFollows_gm hg, hsync, hrange, hbar]
  dsimp only
  rw [if_neg (by decide), if_neg (not_not.2 rfl), if_neg (by decide), hup']
  rfl

/-- A grandmaster's time out of range, or barred before. -/
theorem exec_ptpFollowUpRx_barred {at_ origin : Nat} (hears : s.ptpHears p domain = true) (hg : s.time.src.gm = some g)
    (hsync : s.time.src.sync = some (seq.toNat, at_)) (h : s.ptpInRange origin = false ∨ s.sourceBarred = true) :
    exec (.ptpFollowUpRx p domain g.sender seq origin) s = .next
      ((s.modTime (fun t => { t with barred := some (s.obj Obj.time_EPOCH_TAI) })).setObj Obj.time_SOURCE_STATE 2) := by
  have hbad : (s.sourceBarred || !s.ptpInRange origin) = true := by
    rw [Bool.or_eq_true, Bool.not_eq_true']; exact h.symm
  show execPtpFollowUpRx p domain g.sender seq origin s = _
  unfold execPtpFollowUpRx
  rw [hears, State.ptpFollows_gm hg, hsync]
  dsimp only
  rw [if_neg (by decide), if_neg (not_not.2 rfl), if_pos hbad]

/-- The first offset of a source requires a step. -/
theorem State.sourceSample_first {th : Int} (h : s.time.src.taken = false) : s.sourceSample th =
    (s.modTime (fun t => { t with est := some th, src := { t.src with step := true, thetas := [th] } })).setObj
      Obj.time_SOURCE_STATE 1 := by
  have h' : (s.setObj Obj.time_SOURCE_STATE 1).time.src.taken = false := h
  unfold State.sourceSample
  dsimp only
  rw [h', if_neg Bool.false_ne_true]
  rfl

theorem exec_ptpDelayRespRx_followed {at_ received : Nat} (hears : s.ptpHears p domain = true) (hg : s.time.src.gm = some g)
    (hreq : s.time.src.req = some (seq.toNat, at_)) : exec (.ptpDelayRespRx p domain g.sender seq received) s = .next
      (s.modSrc (fun r => { r with req := none, up := some (s.ptpUnits received - (at_ : Int)) })) := by
  show execPtpDelayRespRx p domain g.sender seq received s = _
  unfold execPtpDelayRespRx
  rw [hears, State.ptpFollows_gm hg, hreq]
  dsimp only
  rw [if_neg (by decide), if_pos rfl]

/-! ### Announce (R340) -/

/-- A source without the measurements of the grandmaster it followed. -/
def TimeSrc.unheard (r : TimeSrc) (gm : Option PtpAnnounce) : TimeSrc :=
  { r with gm := gm, sync := none, req := none, down := none, up := none }

/-- The first grandmaster heard, or a better one than the one followed. -/
theorem exec_ptpAnnounceRx_chosen {a : PtpAnnounce} (hears : s.ptpHears p a.domain = true)
    (h : s.time.src.gm = none ∨
      ∃ g, s.time.src.gm = some g ∧ g.sender ≠ a.sender ∧ Config.bmcaBetter g.dataset a.dataset = true) :
    exec (.ptpAnnounceRx p a) s = .next (s.modSrc (·.unheard (some a))) := by
  show execPtpAnnounceRx p a s = _
  unfold execPtpAnnounceRx
  rw [hears, Bool.not_true, if_neg Bool.false_ne_true]
  rcases h with hnone | ⟨g, hsome, hother, hbetter⟩
  · rw [hnone]; rfl
  · rw [hsome]
    dsimp only
    rw [if_neg hother, if_pos hbetter]
    rfl

theorem exec_ptpAnnounceRx_again {a : PtpAnnounce} (hears : s.ptpHears p a.domain = true) (hg : s.time.src.gm = some g)
    (hsame : g.sender = a.sender) : exec (.ptpAnnounceRx p a) s = .next (s.modSrc (fun r => { r with gm := some a })) := by
  show execPtpAnnounceRx p a s = _
  unfold execPtpAnnounceRx
  rw [hears, Bool.not_true, if_neg Bool.false_ne_true, hg]
  exact if_pos hsame

theorem exec_announceReceiptTimeout_lost (h : s.ptpSlaveOnly (s.obj Obj.time_SOURCE_PORT) = true) (hg : s.time.src.gm = some g) :
    exec .announceReceiptTimeout s = .next ((s.modSrc (·.unheard none)).setObj Obj.time_SOURCE_STATE 2) := by
  show execAnnounceReceiptTimeout s = _
  unfold execAnnounceReceiptTimeout
  rw [h, hg]
  rfl

end

/-- Settles O48: the messages sent have their fields at the places of the standard, and each message taken is one branch of its
command. -/
theorem clockMessagesAreSentAndTaken : Obligations.ClockMessagesAreSentAndTaken := by
  intro s p
  refine ⟨fun hmaster r hr hsync hann => ?master, fun domain seq g hears hg => ?slave, fun a hears hgm => ?chosen,
    fun a g hears hg hsame => ?again, fun hup hslave hseq => ?request, fun g hslave hg => ?lost⟩
  case master =>
    subst hr
    refine ⟨fun due hdue hlt => ?sync, fun due hdue hlt => ?announce, fun domain sender seq hd => ?response⟩
    case sync =>
      have hexec := exec_ptpSyncTx hmaster
      rw [show ptpDue _ _ = due from hdue.symm] at hexec
      obtain ⟨hlenSync, htypeSync, hseqSync, hclock⟩ := (s.advanceTo due).ptpSyncMsg_fields p hsync
      obtain ⟨hlenFollow, htypeFollow, hseqFollow, hseconds, hnanos⟩ := (s.advanceTo due).ptpFollowUpMsg_fields p hsync
      rw [State.clockId_advanceTo] at hclock
      rw [State.obj_advanceTo] at hseconds
      exact ⟨_, _, _, hexec, s.now_advanceTo hlt, congrArg (· ++ _) (s.advanceTo_sent due), hlenSync, hlenFollow, htypeSync, htypeFollow,
        hseqSync, hseqFollow, hclock, hseconds, hnanos, State.ptpRec_ptpSynced _ p _,
        (congrArg (fun x : State => { x with time := s.time, sent := s.sent }) (s.advanceTo_only due) :)⟩
    case announce =>
      have hexec := exec_ptpAnnounceTx hmaster
      rw [show ptpDue _ _ = due from hdue.symm] at hexec
      obtain ⟨hlen, htype, hseq, hutc, hcls, hgm, hsteps⟩ := (s.advanceTo due).ptpAnnounceMsg_fields p hann
      rw [State.advert_advanceTo] at hutc hcls hgm hsteps
      rw [State.obj_advanceTo] at hcls
      exact ⟨_, _, hexec, s.now_advanceTo hlt, congrArg (· ++ _) (s.advanceTo_sent due), hlen, htype, hseq, hutc, hcls, hgm, hsteps,
        congrArg (· + 1) (s.advanceTo_freshCtr due), State.ptpRec_ptpAnnounced _ p _,
        (congrArg (fun x : State => { x with time := s.time, sent := s.sent, freshCtr := s.freshCtr }) (s.advanceTo_only due) :)⟩
    case response =>
      obtain ⟨htype, hseq, hseconds, hnanos, hsender⟩ :=
        (s.bump (Obj.port_PTP_DELAY_REQ_RX p)).ptpDelayRespMsg_fields p seq.isLt sender.isLt
      obtain ⟨hepoch, hnow⟩ := s.stamp_delayReqCounted p
      rw [hepoch, hnow] at hseconds
      rw [hnow] at hnanos
      obtain ⟨hrest, hobjs⟩ := OnlyObjs.bump s (Obj.port_PTP_DELAY_REQ_RX p)
      exact ⟨_, _, exec_ptpDelayReqRx hmaster hd, congrArg (· ++ _) (State.bump_sent s _), htype, hseq, hseconds, hnanos, hsender,
        Counted.bump s _, (congrArg (fun x : State => { x with sent := s.sent }) hrest :), hobjs⟩
  case slave =>
    refine ⟨exec_ptpSyncRx_followed hears hg, fun at_ origin u d hkept hpath hd => ⟨fun hrange hbar htaken => ?_, fun hbad => ?_⟩,
      fun at_ received hreq => exec_ptpDelayRespRx_followed hears hg hreq⟩
    · have hexec := exec_ptpFollowUpRx_taken hears hg hkept hpath hrange hbar
      rw [← hd, State.sourceSample_first (s := s.modSrc (·.measured d)) htaken] at hexec
      exact ⟨_, hexec, State.obj_setObj_same _ _ _, OnlyObjs.sourceState _ _, rfl, rfl⟩
    · exact ⟨_, exec_ptpFollowUpRx_barred hears hg hkept hbad, State.obj_setObj_same _ _ _, OnlyObjs.sourceState _ _, rfl⟩
  case chosen => exact ⟨_, exec_ptpAnnounceRx_chosen hears hgm, rfl, rfl⟩
  case again => exact ⟨_, exec_ptpAnnounceRx_again hears hg hsame, rfl, rfl⟩
  case request =>
    exact ⟨_, _, exec_ptpDelayReqTx hup hslave, rfl, rfl, State.type_ptpMessage (by decide), State.seq_ptpMessage hseq, rfl⟩
  case lost => exact ⟨_, exec_announceReceiptTimeout_lost hslave hg, State.obj_setObj_same _ _ _, OnlyObjs.sourceState _ _, rfl⟩

end Sys2Proof.Machine
end

section
/-! PROOF. What no step undoes (R423, R424, R426, R431): the sealed store, the modules, what was sent and the free values drawn are among
what `Kept` says, and the queue is that of the state whose queue has lost its front command. -/

namespace Sys2Proof.Machine

/-- A step keeps what `Kept` says of the state whose queue has lost its front command; where none waits that is the state itself. -/
theorem step_kept_tail {s t : State} (h : step s = .next t) : Kept { s with pending := s.pending.tail } t := by
  unfold step at h
  split at h
  next hq =>
    rw [show s.pending.tail = s.pending by rw [hq]; rfl]
    split at h
    next => cases h
    next => cases h; exact State.tick_kept _ (Kept.refl s)
  next c rest hq =>
    rw [hq]
    exact exec_kept (Kept.refl _) c t h

/-- Settles O59: each part is a field of `Kept`. -/
theorem noStepUndoesTheSealedStore : Obligations.NoStepUndoesTheSealedStore := by
  intro s t hstep
  have hkept := step_kept_tail hstep
  exact ⟨hkept.counters, hkept.identity, hkept.keys, hkept.queue, hkept.said, hkept.fitted, hkept.fresh⟩

end Sys2Proof.Machine
end

section
/-! PROOF. The commit of a step begins, is decided, or runs out of time (R358 to R361). -/

namespace Sys2Proof.Machine

/-! ### What the rank in a group depends on (R291, R292) -/

theorem bytesField_lt (v o n : Nat) : bytesField v o n < 256 ^ n :=
  Nat.mod_lt _ (Nat.pow_pos (by decide))

/-- A member that a group names lies in the member table (R291). -/
theorem State.groupMembers_congr {s t : State} {g : Nat} (hobj : ∀ k, 0x7100 ≤ k / 256 → k / 256 < 0x8300 → t.obj k = s.obj k) :
    t.groupMembers (t.groupOf g) = s.groupMembers (s.groupOf g) := by
  have hgroup : t.groupOf g = s.groupOf g := by
    unfold State.groupOf
    split
    · rw [hobj _ (by simp only [Obj.grp_ENTRY, objKey]; omega) (by simp only [Obj.grp_ENTRY, objKey]; omega)]
    · rfl
  rw [hgroup]
  unfold State.groupMembers
  split
  · rfl
  · refine List.map_congr_left fun i hi => ?_
    have hstart : (s.groupOf g).start < 256 ^ 2 := bytesField_lt _ _ _
    have hlen : (s.groupOf g).len < 256 ^ 2 := bytesField_lt _ _ _
    have hi := List.mem_range.1 hi
    rw [hobj _ (by simp only [Obj.grp_MEMBER, objKey]; omega) (by simp only [Obj.grp_MEMBER, objKey]; omega)]

/-- The logical id comes from the topology objects and STANDIN (R217). -/
theorem State.logicalId_congr {s t : State} (hobj : ∀ k, k / 256 = 0x4000 → t.obj k = s.obj k) (hst : t.standin = s.standin) :
    t.logicalId = s.logicalId := by
  unfold State.logicalId
  rw [hobj Obj.topo_GROUP (by decide), hobj Obj.topo_POSITION (by decide), hst]

theorem State.jobRank_congr {s t : State} {n : Nat} (hgroup : t.obj (Obj.res_JOB_GROUP n) = s.obj (Obj.res_JOB_GROUP n))
    (htopo : ∀ k, k / 256 = 0x4000 → t.obj k = s.obj k) (hobj : ∀ k, 0x7100 ≤ k / 256 → k / 256 < 0x8300 → t.obj k = s.obj k)
    (hst : t.standin = s.standin) : t.jobRank n = s.jobRank n := by
  unfold State.jobRank State.ownDev
  rw [hgroup, State.groupMembers_congr hobj, State.logicalId_congr htopo hst]

/-! ### COMMIT_BEGIN (R358 to R360) -/

/-- A flush of the accumulate units changes their buffers and counts alone (R174). -/
theorem State.flushUnits_only (s : State) (n : Nat) : { s.flushUnits n with objs := s.objs, accBuf := s.accBuf } = s :=
  List.foldlRecOn (motive := fun t : State => { t with objs := s.objs, accBuf := s.accBuf } = s) _ _ rfl fun t ht _ _ =>
    (congrArg (fun x : State => { x with objs := s.objs, accBuf := s.accBuf })
      (State.addObj_only { t with accBuf := _ } _ _) :).trans ht

/-- An instance on the job group is the group's next, on TC7 (R360, R363). -/
theorem State.jobColl_fields (s : State) (n : Nat) (who : CollFor) (opts : Nat) (src dst : Desc) (codes : List Nat) :
    (s.jobColl n who opts src dst codes).group = s.obj (Obj.res_JOB_GROUP n) ∧
    (s.jobColl n who opts src dst codes).cseq = (s.groupSt (s.obj (Obj.res_JOB_GROUP n))).next ∧
    (s.jobColl n who opts src dst codes).tc = 7 ∧ (s.jobColl n who opts src dst codes).codes = codes := ⟨rfl, rfl, rfl, rfl⟩

section
variable (s : State) (n : ParcelId) (r : CommitRec)

/-- The units flushed, the step and its digest recorded, and JOB_STATE COMMITTING. -/
def State.committing : State :=
  (((s.flushUnits n).setObj (Obj.res_LOCAL_STEP n) r.n).setOct (Obj.res_LOCAL_STEP_DIGEST n) ((s.parcel n).localDigest r)).setJobState n 2

/-- The objects that the begin of a commit sets. -/
def CommitKey (n k : Nat) : Prop :=
  CtlKey k ∨ k = Obj.res_LOCAL_STEP n ∨ k = Obj.res_LOCAL_STEP_DIGEST n ∨ k = Obj.res_JOB_STATE n

theorem State.committing_steady : Steady (CommitKey n) s (s.committing n r) :=
  ((((s.flushUnits_steady n).mono fun _ => .inl).setObj _ (.inr (.inl rfl))).setObj _ (.inr (.inr (.inl rfl)))).setObj _
    (.inr (.inr (.inr rfl)))

theorem State.committing_keeps : (s.committing n r).groups = s.groups ∧ (s.committing n r).standin = s.standin := by
  have honly := s.flushUnits_only n
  unfold State.committing
  generalize s.flushUnits n = u at honly ⊢
  have hgroups : u.groups = s.groups := (congrArg State.groups honly :)
  have hstandin : u.standin = s.standin := (congrArg State.standin honly :)
  simp only [State.setJobState, State.setOct, State.setObj_groups, State.setObj_standin]
  exact ⟨hgroups, hstandin⟩

theorem State.objs_committing : (s.committing n r).obj (Obj.res_JOB_STATE n) = 2 ∧ (s.committing n r).obj (Obj.res_LOCAL_STEP n) = r.n ∧
    (s.committing n r).obj (Obj.res_LOCAL_STEP_DIGEST n) = leNat ((s.parcel n).localDigest r) := by
  have hne : Obj.res_LOCAL_STEP n ≠ Obj.res_JOB_STATE n ∧ Obj.res_LOCAL_STEP n ≠ Obj.res_LOCAL_STEP_DIGEST n ∧
      Obj.res_LOCAL_STEP_DIGEST n ≠ Obj.res_JOB_STATE n := by
    simp only [Obj.res_LOCAL_STEP, Obj.res_LOCAL_STEP_DIGEST, Obj.res_JOB_STATE, objKey]; omega
  obtain ⟨hstate, hdigest, hdigestState⟩ := hne
  unfold State.committing State.setJobState State.setOct
  refine ⟨State.obj_setObj_same _ _ _, ?_, ?_⟩
  · rw [State.obj_setObj_other _ _ hstate, State.obj_setObj_other _ _ hdigest, State.obj_setObj_same]
  · rw [State.obj_setObj_other _ _ hdigestState, State.obj_setObj_same]

/-- An object beside the controllers and the parcel's job is as before. -/
theorem State.obj_committing {k : Nat} (h : k / 256 < 0x5200 ∨ 0x7100 ≤ k / 256 ∧ k / 256 < 0x8300) :
    (s.committing n r).obj k = s.obj k := by
  refine (s.committing_steady n r).objs k ?_
  simp only [CommitKey, CtlKey, Obj.res_LOCAL_STEP, Obj.res_LOCAL_STEP_DIGEST, Obj.res_JOB_STATE, objKey]
  omega

theorem State.obj_committing_row {j : Nat} (hj : 1 < j ∧ j < 256) (h : j ≠ 5 ∧ j ≠ 6) :
    (s.committing n r).obj (objKey (0x8300 + n) j) = s.obj (objKey (0x8300 + n) j) := by
  refine (s.committing_steady n r).objs _ ?_
  simp only [CommitKey, CtlKey, Obj.res_LOCAL_STEP, Obj.res_LOCAL_STEP_DIGEST, Obj.res_JOB_STATE, objKey]
  omega

theorem State.isShadow_committing : (s.committing n r).isShadow n = s.isShadow n :=
  congrArg (fun v => decide (v ≠ 0xFFFFFFFF)) (s.obj_committing_row n r (j := 0x0D) (by decide) (by decide))

theorem State.jobRank_committing : (s.committing n r).jobRank n = s.jobRank n :=
  State.jobRank_congr (s.obj_committing_row n r (by decide) (by decide)) (fun _ h => s.obj_committing n r (.inl (by omega)))
    (fun _ h h' => s.obj_committing n r (.inr ⟨h, h'⟩)) (s.committing_keeps n r).2

/-- The members of the job group. -/
def State.jobMembers : List Nat := s.groupMembers (s.groupOf (s.obj (Obj.res_JOB_GROUP n)))

/-- The instance that carries a commit's 33 elements. -/
def State.voteColl : Coll :=
  (s.committing n r).jobColl n .commit 1 (lineDesc .fp32 0 1 33) (lineDesc .da128 16 ((s.committing n r).jobMembers n).length 33)
    (voteCodes (s.jobRank n) ((s.parcel n).localDigest r) ((s.parcel n).vote r))

theorem State.voteColl_fields : (s.voteColl n r).group = s.obj (Obj.res_JOB_GROUP n) ∧
    (s.voteColl n r).cseq = (s.groupSt (s.obj (Obj.res_JOB_GROUP n))).next ∧ (s.voteColl n r).tc = 7 ∧
    (s.voteColl n r).codes = voteCodes (s.jobRank n) ((s.parcel n).localDigest r) ((s.parcel n).vote r) := by
  have hgroup : (s.committing n r).obj (Obj.res_JOB_GROUP n) = s.obj (Obj.res_JOB_GROUP n) :=
    s.obj_committing_row n r (by decide) (by decide)
  obtain ⟨hjob, hcseq, htc, hcodes⟩ := (s.committing n r).jobColl_fields n .commit 1 (lineDesc .fp32 0 1 33)
    (lineDesc .da128 16 ((s.committing n r).jobMembers n).length 33)
    (voteCodes (s.jobRank n) ((s.parcel n).localDigest r) ((s.parcel n).vote r))
  rw [hgroup] at hjob hcseq
  rw [State.groupSt, (s.committing_keeps n r).1] at hcseq
  exact ⟨hjob, hcseq, htc, hcodes⟩

/-- The vote and the instant kept in the commit's record, with the instance that carries the vote. -/
def State.commitNoted (cseq : Option Nat) : State :=
  (s.committing n r).modParcel n fun p =>
    { p with commit := some { r with startAt := s.now, vote := (s.parcel n).vote r, cseq := cseq } }

theorem State.commitNoted_keeps (cseq : Option Nat) : (s.commitNoted n r cseq).objs = (s.committing n r).objs ∧
    (s.commitNoted n r cseq).mem = s.mem ∧ (s.commitNoted n r cseq).cores = s.cores := by
  obtain ⟨-, hmem, hcores, -⟩ := s.committing_steady n r
  unfold State.commitNoted
  generalize s.committing n r = u at hmem hcores ⊢
  exact ⟨rfl, hmem, hcores⟩

theorem State.objs_commitNoted (cseq : Option Nat) : (s.commitNoted n r cseq).obj (Obj.res_JOB_STATE n) = 2 ∧
    (s.commitNoted n r cseq).obj (Obj.res_LOCAL_STEP n) = r.n ∧
    (s.commitNoted n r cseq).obj (Obj.res_LOCAL_STEP_DIGEST n) = leNat ((s.parcel n).localDigest r) := by
  have hobj (k : Nat) : (s.commitNoted n r cseq).obj k = (s.committing n r).obj k := by
    rw [State.obj, (s.commitNoted_keeps n r cseq).1, State.obj]
  rw [hobj, hobj, hobj]
  exact s.objs_committing n r

theorem State.commit_commitNoted (cseq : Option Nat) : ((s.commitNoted n r cseq).parcel n).commit =
    some { r with startAt := s.now, vote := (s.parcel n).vote r, cseq := cseq } :=
  congrArg Parcel.commit (State.parcel_modParcel_same _ n _)

/-- A commit begins: a shadow keeps its vote, and any other parcel opens the instance besides. -/
theorem State.beginCommit_eq : s.beginCommit n r = if s.isShadow n then s.commitNoted n r r.cseq
    else (s.commitNoted n r (some (s.voteColl n r).cseq)).collOpen (s.voteColl n r) := by
  have hnow : (s.committing n r).now = s.now := (s.committing_steady n r).now
  have hrec : (s.flushUnits n).parcel n = s.parcel n := (s.flushUnits_steady n).parcel n
  unfold State.beginCommit
  dsimp only
  rw [hrec]
  show (if (s.committing n r).isShadow n then (s.committing n r).modParcel n _ else _) = _
  rw [State.isShadow_committing]
  unfold State.commitNoted State.voteColl
  rw [← State.jobRank_committing s n r, ← hnow]
  rfl

end

theorem exec_commitBegin {s : State} {n : ParcelId} {r : CommitRec} (hr : (s.parcel n).commit = some r)
    (hj : s.jobState n = 1 ∨ s.jobState n = 5) (hin : s.allIn n r.cores = true) (hidle : s.allIdle n = true)
    (hdone : s.stepInstancesDone n = true) : exec (.commitBegin n) s = .next (s.beginCommit n r) := by
  show execCommitBegin n s = _
  unfold execCommitBegin
  rw [hr]
  exact congrArg Host.Outcome.next (if_pos ⟨hj, hin, hidle, hdone⟩)

/-! ### COMMIT_DECIDE and COMMIT_TIMEOUT (R360, R361) -/

/-- COMMIT_DECIDE of a complete and written instance of a parcel that is no shadow, within COMMIT_TIMEOUT. -/
theorem exec_commitDecide {s : State} {n : ParcelId} {r : CommitRec} {x : Coll} (target : Option (BitVec 32 × Bytes × BitVec 32))
    (hr : (s.parcel n).commit = some r) (hj : s.jobState n = 2) (hd : (s.parcel n).decided = none) (hs : s.isShadow n = false)
    (hx : s.commitColl n r = some x) (hc : x.complete = true) (hw : x.written = true) (hdue : s.now ≤ s.commitDue n r) :
    exec (.commitDecide n target) s = .next (if x.status = 0 ∧ x.sums.getD 32 0 = (x.n : Int) then s.decideCommit n
      else (s.dropColl x.group x.cseq).commitFails n 0x0902 r.n) := by
  have hopen : ¬ (s.jobState n ≠ 2 ∨ (s.parcel n).decided.isSome ∨ s.commitDue n r < s.now) := by
    rw [hj, hd]; simpa using hdue
  show execCommitDecide n target s = _
  unfold execCommitDecide
  rw [hr]
  dsimp only
  rw [if_neg hopen, hs, if_neg Bool.false_ne_true, hx]
  simp only [hc, hw, hx, Bool.not_true, Bool.false_eq_true, if_false, if_true]

/-- COMMIT_TIMEOUT of a commit whose instance is not complete in time. -/
theorem exec_commitTimeout {s : State} {n : ParcelId} {r : CommitRec} {q : Nat} (hr : (s.parcel n).commit = some r)
    (hj : s.jobState n = 2) (hd : (s.parcel n).decided = none) (hs : s.isShadow n = false) (hq : r.cseq = some q)
    (hin : s.commitInTime n r = false) (hlt : s.commitDue n r < 2 ^ 64) : exec (.commitTimeout n) s = .next
      (((s.advanceTo (s.commitDue n r)).dropColl (s.obj (Obj.res_JOB_GROUP n)) q).commitFails n 0x0901 r.n) := by
  have hopen : ¬ (s.jobState n ≠ 2 ∨ (s.parcel n).decided.isSome ∨ s.commitInTime n r) := by
    rw [hj, hd, hin]; decide
  have hreached : ¬ (s.advanceTo (s.commitDue n r)).now < s.commitDue n r := Nat.not_lt.2 (s.le_now_advanceTo hlt)
  have hshadow : (s.advanceTo (s.commitDue n r)).isShadow n = false := by rw [State.isShadow, State.obj_advanceTo]; exact hs
  show execCommitTimeout n s = _
  unfold execCommitTimeout
  rw [hr]
  dsimp only
  rw [if_neg hopen, if_neg hreached, hshadow, if_neg Bool.false_ne_true, hq, State.obj_advanceTo]

/-- Settles O29: the begin of a commit is `State.beginCommit`, its decision and its timeout each one command's single way. -/
theorem commitBeginsIsDecidedOrTimesOut : Obligations.CommitBeginsIsDecidedOrTimesOut := by
  intro s n r hr
  refine ⟨fun hj hin hidle hdone => ?begin, fun target x hj hd hs hx hc hw hdue => ?decide, fun due q hj hd hs hq hin hdue hlt => ?timeout⟩
  case begin =>
    have hexec := exec_commitBegin hr hj hin hidle hdone
    obtain ⟨hgroup, hcseq, htc, hcodes⟩ := s.voteColl_fields n r
    have noted (cseq : Option Nat) := s.objs_commitNoted n r cseq
    have keeps (cseq : Option Nat) := s.commitNoted_keeps n r cseq
    rw [State.beginCommit_eq] at hexec
    cases hs : s.isShadow n with
    | true =>
      rw [hs, if_pos rfl] at hexec
      obtain ⟨hstate, hstep, hdigest⟩ := noted r.cseq
      exact ⟨_, hstate, hstep, hdigest, (keeps _).2.1, (keeps _).2.2, fun _ => ⟨hexec, s.commit_commitNoted n r r.cseq⟩,
        fun h => Bool.noConfusion h⟩
    | false =>
      rw [hs, if_neg Bool.false_ne_true] at hexec
      obtain ⟨hstate, hstep, hdigest⟩ := noted (some (s.voteColl n r).cseq)
      exact ⟨_, hstate, hstep, hdigest, (keeps _).2.1, (keeps _).2.2, fun h => Bool.noConfusion h,
        fun _ => ⟨s.voteColl n r, hexec, s.commit_commitNoted n r _, hgroup, by rw [hgroup]; exact hcseq, htc, hcodes⟩⟩
  case decide =>
    rw [exec_commitDecide target hr hj hd hs hx hc hw hdue]
    exact ⟨fun hstatus hsum => ⟨s.decideCommit n, congrArg Host.Outcome.next (if_pos ⟨hstatus, hsum⟩), rfl,
      State.parcel_modParcel_same s n _⟩, fun h => congrArg Host.Outcome.next (if_neg h)⟩
  case timeout =>
    subst hdue
    exact exec_commitTimeout hr hj hd hs hq hin hlt

end Sys2Proof.Machine
end

section
/-! PROOF. The I3C target (R409 to R411) and the link of the management port (R400). -/

namespace Sys2Proof.Machine

/-! ### Addresses and common commands (R409) -/

section
variable {s : State} {a : Nat}

theorem State.onI3c_up (h : s.poweredUp = true) (act : State → State) : s.onI3c act = act s := if_pos h

/-- The answer to a common command directed at a target that has an address. -/
theorem State.direct_addressed (h : s.poweredUp = true) (ha : s.mgmt.i3cAddr = some a) (bs : Bytes) :
    s.direct bs = s.emit (.i3c bs) := by
  rw [State.direct, State.onI3c_up h, ha]; rfl

theorem exec_setdasa (h : s.poweredUp = true) (static_ dyn : BitVec 7) :
    exec (.setdasa static_ dyn) s = .next (if static_ = 0x3A then s.setI3c (some dyn.toNat) none else s) :=
  congrArg Host.Outcome.next (State.onI3c_up h _)

theorem exec_entdaa (h : s.poweredUp = true) (dyn : BitVec 7) :
    exec (.entdaa dyn) s = .next (if s.mgmt.i3cAddr.isNone then s.setI3c (some dyn.toNat) none else s) :=
  congrArg Host.Outcome.next (State.onI3c_up h _)

theorem exec_rstdaa (h : s.poweredUp = true) : exec .rstdaa s = .next (s.setI3c none none) :=
  congrArg Host.Outcome.next (State.onI3c_up h _)

/-- The provisional ID fits its six bytes. -/
theorem State.beAt_provisionalId (s : State) : beAt (beBytes 6 s.provisionalId) 0 6 = s.provisionalId := by
  rw [beAt_beBytes]
  unfold State.provisionalId
  omega

theorem exec_i3cSelectorWrite (h : s.poweredUp = true) (ha : s.mgmt.i3cAddr = some a) (data : Bytes) :
    exec (.i3cSelectorWrite data) s =
      .next (if data.length = 3 then s.setI3c s.mgmt.i3cAddr (some (beAt data 0 2, byteAt data 2)) else s) := by
  refine congrArg Host.Outcome.next ((State.onI3c_up h _).trans ?_)
  rw [ha]
  exact if_congr (and_iff_right rfl) rfl rfl

/-! ### The view (R410, R411) -/

/-- The answer of the view counted and sent. -/
def State.viewSent (u : State) (sel : Option (Nat × Nat)) (r : ReadResult) : State :=
  (if r.status = dsNotInView ∨ r.status = dsNoObject then (u.bump Obj.mgc_I3C_READS).bump Obj.mgc_I3C_NOT_IN_VIEW
    else u.bump Obj.mgc_I3C_READS).emit (.i3c (viewBytes sel r))

theorem exec_i3cPrivateRead (h : s.poweredUp = true) (ha : s.mgmt.i3cAddr = some a) : exec .i3cPrivateRead s =
    .next ((s.viewRead s.mgmt.i3cSel).1.viewSent s.mgmt.i3cSel (s.viewRead s.mgmt.i3cSel).2) := by
  refine congrArg Host.Outcome.next ((State.onI3c_up h _).trans ?_)
  rw [ha]
  rfl

/-- An object of the view that is available is read. -/
theorem State.viewRead_object {idx sub c v : Nat} {r : ObjRow} {u : State} (hc : viewFrom idx sub = some c)
    (hr : objRow idx sub = some r) (hready : s.viewReady c = true) (hpoll : idx ≠ 0x2000 ∨ sub ≠ 5)
    (hv : s.readValue idx sub r = (u, v)) : s.viewRead (some (idx, sub)) = (u, ⟨dsOk, r.ty.code, wireOf r.ty v⟩) := by
  have hword : ¬ (idx = 0x2000 ∧ sub = 5 ∧ !u.mgmtUp) := fun ⟨hidx, hsub, _⟩ => hpoll.elim (· hidx) (· hsub)
  unfold State.viewRead
  dsimp only
  rw [hc, hr]
  dsimp only
  rw [if_pos hready, hv]
  dsimp only
  rw [if_neg hword]

/-- The answer of an object of the view is counted as a read alone. -/
theorem State.viewSent_ok (u : State) (sel : Option (Nat × Nat)) (type : Nat) (value : Bytes) :
    u.viewSent sel ⟨dsOk, type, value⟩ = (u.bump Obj.mgc_I3C_READS).emit (.i3c (viewBytes sel ⟨dsOk, type, value⟩)) :=
  congrArg (State.emit · _) (if_neg (show ¬ (dsOk = dsNotInView ∨ dsOk = dsNoObject) by decide))

/-- The answer without a selector is counted as one that is not in the view. -/
theorem State.viewSent_noObject (u : State) (sel : Option (Nat × Nat)) (type : Nat) (value : Bytes) :
    u.viewSent sel ⟨dsNoObject, type, value⟩ =
      ((u.bump Obj.mgc_I3C_READS).bump Obj.mgc_I3C_NOT_IN_VIEW).emit (.i3c (viewBytes sel ⟨dsNoObject, type, value⟩)) :=
  congrArg (State.emit · _) (if_pos (.inr rfl))

theorem Counted.emit {k : Nat} {t : State} (h : Counted k s t) (o : Output) : Counted k s (t.emit o) := h

/-- The bytes of an answer without a value. -/
theorem viewBytes_empty (sel : Option (Nat × Nat)) (status type : Nat) : ∃ crc,
    viewBytes sel ⟨status, type, []⟩ = [BitVec.ofNat 8 status, BitVec.ofNat 8 type, 0, crc] := ⟨_, rfl⟩

/-- A read without a selector is answered NO_OBJECT, and counted as one that is not in the view. -/
theorem exec_i3cPrivateRead_unselected (h : s.poweredUp = true) (ha : s.mgmt.i3cAddr = some a) (hsel : s.mgmt.i3cSel = none) :
    ∃ (t : State) (bs : Bytes), exec .i3cPrivateRead s = .next t ∧ t.sent = s.sent ++ [.i3c bs] ∧ byteAt bs 0 = 1 ∧ byteAt bs 2 = 0 ∧
      bs.length = 4 ∧ Counted Obj.mgc_I3C_READS s t ∧ Counted Obj.mgc_I3C_NOT_IN_VIEW s t ∧
      OnlyObjs [Obj.mgc_I3C_READS, Obj.mgc_I3C_NOT_IN_VIEW] s { t with sent := s.sent, freshCtr := s.freshCtr } := by
  obtain ⟨crc, hbytes⟩ := viewBytes_empty none dsNoObject (s.fresh.1 % 256)
  have hexec := exec_i3cPrivateRead h ha
  rw [hsel, show s.viewRead none = (s.fresh.2, ⟨dsNoObject, s.fresh.1 % 256, []⟩) from rfl, State.viewSent_noObject, hbytes] at hexec
  have hsent : ((s.fresh.2.bump Obj.mgc_I3C_READS).bump Obj.mgc_I3C_NOT_IN_VIEW).sent = s.sent := by
    rw [State.bump_sent, State.bump_sent]; rfl
  obtain ⟨hrest, hobjs⟩ := ((OnlyObjs.refl [Obj.mgc_I3C_READS, Obj.mgc_I3C_NOT_IN_VIEW] s.fresh.2).bumped
    (k := Obj.mgc_I3C_READS) (by simp)).bumped (k := Obj.mgc_I3C_NOT_IN_VIEW) (by simp)
  have hreads : Counted Obj.mgc_I3C_READS s ((s.fresh.2.bump Obj.mgc_I3C_READS).bump Obj.mgc_I3C_NOT_IN_VIEW) :=
    (Counted.bump_of_obj_eq (s.obj_fresh _)).bumped (by decide)
  have habsent : Counted Obj.mgc_I3C_NOT_IN_VIEW s ((s.fresh.2.bump Obj.mgc_I3C_READS).bump Obj.mgc_I3C_NOT_IN_VIEW) :=
    Counted.bump_of_obj_eq ((s.fresh.2.obj_bump_other (by decide)).trans (s.obj_fresh _))
  exact ⟨_, _, hexec, congrArg (· ++ _) hsent, rfl, rfl, rfl, hreads.emit _, habsent.emit _,
    (congrArg (fun x : State => { x with sent := s.sent, freshCtr := s.freshCtr }) hrest :), hobjs⟩

end

/-! ### The management port's link (R400) -/

section
variable {s : State}

/-- Setting MGMT_LINK changes that object, and what the port tries. -/
theorem State.setMgmtLink_spec (s : State) (v : Nat) (slow : Bool) : (s.setMgmtLink v slow).obj Obj.mgmt_MGMT_LINK = v ∧
    (s.setMgmtLink v slow).mgmt = { s.mgmt with slowLink := slow } ∧
    OnlyObjs [Obj.mgmt_MGMT_LINK] s { s.setMgmtLink v slow with mgmt := s.mgmt } :=
  ⟨State.obj_setObj_same _ _ _, rfl, (OnlyObjs.refl _ s).setObj v (List.mem_singleton_self _)⟩

theorem State.mgmtLinkOn_of (h : s.fnState 0 ≠ 0) : s.mgmtLinkOn = true := decide_eq_true h

end

/-- Settles O57: each transfer and each event of the link is one branch of its command. -/
theorem boardBusesAnswerWithoutWriting : Obligations.BoardBusesAnswerWithoutWriting := by
  intro s
  refine ⟨fun hup => ⟨fun static_ dyn => ?setdasa, fun dyn => ?entdaa, exec_rstdaa hup, fun a ha => ?addressed⟩, fun hon => ?link⟩
  case setdasa =>
    rw [exec_setdasa hup]
    exact ⟨fun h => congrArg Host.Outcome.next (if_pos h), fun h => congrArg Host.Outcome.next (if_neg h)⟩
  case entdaa =>
    rw [exec_entdaa hup]
    exact ⟨fun h => congrArg Host.Outcome.next (if_pos (by rw [h]; rfl)),
      fun h => congrArg Host.Outcome.next (if_neg (by rwa [Option.isNone_iff_eq_none]))⟩
  case addressed =>
    have answered (bs : Bytes) : (.next (s.direct bs) : Out) = .next (s.emit (.i3c bs)) :=
      congrArg Host.Outcome.next (State.direct_addressed hup ha bs)
    refine ⟨⟨_, answered _, beBytes_length _ _, ?_, ?_⟩, answered _, answered _,
      ⟨_, congrArg Host.Outcome.next (State.direct_addressed (s := s.fresh.2) hup ha _), beBytes_length _ _⟩, fun data => ?selector,
      exec_i3cPrivateRead_unselected hup ha, fun idx sub c r u v hsel hc hr hready hpoll hv => ?object⟩
    · rw [State.beAt_provisionalId]; unfold State.provisionalId; omega
    · rw [State.beAt_provisionalId]; unfold State.provisionalId; omega
    case selector =>
      rw [exec_i3cSelectorWrite hup ha]
      exact ⟨fun h => congrArg Host.Outcome.next (if_pos h), fun h => congrArg Host.Outcome.next (if_neg h)⟩
    case object =>
      have hexec := exec_i3cPrivateRead hup ha
      rw [hsel, State.viewRead_object hc hr hready hpoll hv, State.viewSent_ok] at hexec
      obtain ⟨hrest, hobjs⟩ := OnlyObjs.bump u Obj.mgc_I3C_READS
      exact ⟨_, _, _, hexec, rfl, rfl, congrArg (· ++ _) (u.bump_sent _), Counted.bump u _,
        (congrArg (fun x : State => { x with sent := u.sent }) hrest :), hobjs⟩
  case link =>
    have hlink := State.mgmtLinkOn_of hon
    refine ⟨fun gigabit h0 hslow => ?locks, fun h => ?lost, fun h0 hslow => ?fallback⟩
    case locks =>
      obtain ⟨hobj, -, honly⟩ := s.setMgmtLink_spec (if gigabit then 2 else 1) gigabit
      refine ⟨_, congrArg Host.Outcome.next (if_pos ⟨hlink, h0, hslow⟩), hobj, ?_⟩
      subst hslow; exact honly
    case lost =>
      obtain ⟨hobj, hmgmt, honly⟩ := s.setMgmtLink_spec 0 false
      exact ⟨_, congrArg Host.Outcome.next (if_pos ⟨hlink, h⟩), hobj, hmgmt, honly⟩
    case fallback =>
      obtain ⟨hobj, hmgmt, hrest, hobjs⟩ := s.setMgmtLink_spec 0 true
      refine ⟨_, congrArg Host.Outcome.next (if_pos ⟨hlink, h0, by rw [hslow]; rfl⟩), hmgmt, hrest, fun k _ => ?_⟩
      by_cases hk : k = Obj.mgmt_MGMT_LINK
      · rw [hk, h0]; exact hobj
      · exact hobjs k (by simpa using hk)

end Sys2Proof.Machine
end

section
/-! PROOF. The Dictionary Access Protocol: messages, sessions, and the requests of a session (R401 to R406). -/

namespace Sys2Proof.Machine

/-! ### The session table (R403) -/

section
variable {s : State} {id : Nat} {x y : Session}

theorem State.session_id (h : s.session id = some x) : x.id = id := of_decide_eq_true (List.find?_some h :)

theorem State.session_self (h : s.session id = some x) : s.session x.id = some x := by rw [State.session_id h, h]

@[simp] theorem State.session_bump (s : State) (k id : Nat) : (s.bump k).session id = s.session id := by
  rw [State.session, State.bump_mgmt, State.session]

@[simp] theorem State.session_emit (s : State) (o : Output) (id : Nat) : (s.emit o).session id = s.session id := rfl

/-- A session that has ended is not in the table. -/
theorem State.session_dropSession (s : State) (id : Nat) : (s.dropSession id).session id = none := by
  refine List.find?_eq_none.2 fun e he hid => ?_
  exact of_decide_eq_true (List.mem_filter.1 he).2 (of_decide_eq_true hid)

/-- A changed session stands where it stood. -/
theorem State.session_setSession (h : s.session id = some x) (hid : y.id = x.id) : (s.setSession y).session x.id = some y := by
  have hsame : (fun e : Session => decide (e.id = x.id)) ∘ (fun e => if e.id = y.id then y else e) =
      fun e => decide (e.id = x.id) := by
    funext e
    by_cases he : e.id = y.id
    · simp [he, hid]
    · simp [he]
  have hfind : s.mgmt.sessions.find? (fun e => decide (e.id = x.id)) = some x := State.session_self h
  rw [State.session, State.setSession, List.find?_map, hsame, hfind, Option.map_some, if_pos hid.symm]

end

/-! ### Datagrams (R401, R402) -/

section
variable {s : State} {cl : DapClient} {msg : Bytes} {m : DapMsg} {type : Nat} {act : State → DapMsg → State}

/-- A datagram that is no request is counted. -/
theorem State.dap_discarded (hup : s.mgmtUp = true) (h : dapParse msg = none) : s.dap type msg act = s.bump Obj.mgc_DAP_DISCARD := by
  rw [State.dap, hup, h]; rfl

/-- A request is its type's command. -/
theorem State.dap_taken (hup : s.mgmtUp = true) (h : dapParse msg = some m) (ht : m.type = type) : s.dap type msg act = act s m := by
  rw [State.dap, hup, h]; exact if_pos ht

/-! ### OPEN_A (R403) -/

theorem State.refuseOpen_spec (s : State) (cl : DapClient) (m : DapMsg) (status counter : Nat) :
    Counted counter s (s.refuseOpen cl m status counter) ∧
    (s.refuseOpen cl m status counter).sent = s.sent ++ [.dap cl (dapHead 0x03 0 m.seq status [])] ∧
    OnlyObjs [counter] s { s.refuseOpen cl m status counter with sent := s.sent } ∧
    (s.refuseOpen cl m status counter).mgmt = s.mgmt := by
  obtain ⟨hrest, hobjs⟩ := OnlyObjs.bump s counter
  exact ⟨(Counted.bump s counter).emit _, congrArg (· ++ _) (s.bump_sent counter),
    ⟨(congrArg (fun t : State => { t with sent := s.sent }) hrest :), hobjs⟩, s.bump_mgmt counter⟩

/-- OPEN_A of an empty slot. -/
theorem State.dapOpen_empty (h : slotRole (s.opSlot (byteAt m.body 0)) = none) :
    s.dapOpen cl m = s.refuseOpen cl m dsAuth Obj.mgc_DAP_OPEN_FAIL := if_pos (by rw [h]; rfl)

/-- The half-open session of an exchange. -/
def Session.halfOpen (id slot : Nat) (e : Sm2Exchange) (now : Nat) : Session :=
  ⟨id, slot, false, e.key.take 32, e.key.drop 32, e.sA, 0, [], now + 16000000000⟩

/-- The state of a half-open session answered with OPEN_B, `id` its number and `r` the device's ephemeral key. -/
def State.dapOpened (s : State) (cl : DapClient) (m : DapMsg) (id r : Nat) (e : Sm2Exchange) : State :=
  ({ s.fresh.2 with
      mgmt := { s.mgmt with
        sessions := s.mgmt.sessions ++ [Session.halfOpen id (byteAt m.body 0) e s.now], nextId := s.mgmt.nextId + 1 } }.bump
    Obj.mgc_DAP_RX).emit (.dap cl (dapHead 0x03 id m.seq dsOk (ecBytes (ecMul r ecG) ++ e.sB)))

section
variable {r : Nat} {e : Sm2Exchange} (hslot : slotRole (s.opSlot (byteAt m.body 0)) ≠ none)
  (hr : r = Config.freeNat s.freshCtr % (sm2N - 1) + 1)
include hslot hr

theorem State.dapOpen_badKey (h : sm2ExchangeB (dapClientId (byteAt m.body 0)) dapDeviceId (s.opSlot (byteAt m.body 0)).key
    (slice m.body 4 64) s.sealed.mgmtPriv r = none) : s.dapOpen cl m = s.refuseOpen cl m dsAuth Obj.mgc_DAP_OPEN_FAIL := by
  subst hr
  have hrole : ¬ (slotRole (s.opSlot (byteAt m.body 0))).isNone := by rwa [Option.isNone_iff_eq_none]
  unfold State.dapOpen State.fresh
  dsimp only
  rw [if_neg hrole, h]

theorem State.dapOpen_exchanged (h : sm2ExchangeB (dapClientId (byteAt m.body 0)) dapDeviceId (s.opSlot (byteAt m.body 0)).key
    (slice m.body 4 64) s.sealed.mgmtPriv r = some e) : s.dapOpen cl m =
      if 8 ≤ s.mgmt.sessions.length then s.refuseOpen cl m dsBusy Obj.mgc_DAP_BUSY
      else s.dapOpened cl m ((Config.sessionBase + s.mgmt.nextId) % 2 ^ 32) r e := by
  subst hr
  have hrole : ¬ (slotRole (s.opSlot (byteAt m.body 0))).isNone := by rwa [Option.isNone_iff_eq_none]
  unfold State.dapOpen State.fresh
  dsimp only
  rw [if_neg hrole, h]
  rfl

end

theorem State.dapOpened_spec (s : State) (cl : DapClient) (m : DapMsg) (id r : Nat) (e : Sm2Exchange) :
    (s.dapOpened cl m id r e).mgmt.sessions = s.mgmt.sessions ++ [Session.halfOpen id (byteAt m.body 0) e s.now] ∧
    (s.dapOpened cl m id r e).sent = s.sent ++ [.dap cl (dapHead 0x03 id m.seq dsOk (ecBytes (ecMul r ecG) ++ e.sB))] ∧
    Counted Obj.mgc_DAP_RX s (s.dapOpened cl m id r e) := by
  unfold State.dapOpened
  generalize hu : ({ s.fresh.2 with mgmt := _ } : State) = u
  have hobj (k : Nat) : u.obj k = s.obj k := by rw [← hu]; rfl
  have hsent : u.sent = s.sent := by rw [← hu]; rfl
  refine ⟨?_, ?_, (Counted.bump_of_obj_eq (hobj _)).emit _⟩
  · rw [State.emit_mgmt, State.bump_mgmt, ← hu]
  · exact congrArg (· ++ _) ((u.bump_sent _).trans hsent)

/-! ### Answers (R403, R404) -/

/-- An output sent and counted besides a change of the session table. -/
theorem State.counted_emit {s u : State} (hu : { u with mgmt := s.mgmt } = s) (k : Nat) (o : Output) :
    ((u.bump k).emit o).sent = s.sent ++ [o] ∧ Counted k s ((u.bump k).emit o) ∧
    OnlyObjs [k] s { (u.bump k).emit o with mgmt := s.mgmt, sent := s.sent } := by
  have hobj (j : Nat) : u.obj j = s.obj j := (congrArg (State.obj · j) hu :)
  have hsent : u.sent = s.sent := (congrArg State.sent hu :)
  obtain ⟨hrest, hobjs⟩ := OnlyObjs.bump u k
  refine ⟨congrArg (· ++ _) ((u.bump_sent k).trans hsent), (Counted.bump_of_obj_eq (hobj k)).emit o, ?_, fun j hj => (hobjs j hj).trans (hobj j)⟩
  have hkept : { u with objs := s.objs, mgmt := s.mgmt, sent := s.sent } = s :=
    (congrArg (fun x : State => { x with objs := s.objs, sent := s.sent }) hu :)
  exact (congrArg (fun x : State => { x with objs := s.objs, mgmt := s.mgmt, sent := s.sent }) hrest :).trans hkept

/-- An answer is sent; where the session still stands it is stored and the request counted. -/
theorem State.dapAnswer_spec (s : State) (cl : DapClient) (x : Session) (m : DapMsg) (type status : Nat) (body : Bytes) :
    (s.dapAnswer cl x m type status body).sent = s.sent ++ [.dap cl (dapSealed x.keyOut type x.id m.seq status body)] ∧
    (s.mgmtUp = true → s.session x.id = some x → (s.dapAnswer cl x m type status body).session x.id =
        some { x with
          confirmed := true, last := m.seq, resp := dapSealed x.keyOut type x.id m.seq status body, expires := s.idleAt } ∧
      Counted Obj.mgc_DAP_RX s (s.dapAnswer cl x m type status body)) := by
  unfold State.dapAnswer
  dsimp only
  refine ⟨?_, fun hup hx => ?_⟩
  · refine congrArg (· ++ _) ?_
    split
    · exact State.bump_sent _ _
    · rfl
  · rw [if_pos hup, State.session_emit, State.session_bump]
    exact ⟨State.session_setSession hx rfl, (State.counted_emit rfl _ _).2.1⟩

/-- The answer to a request of a confirmed session. -/
theorem State.dapAnswer_confirmed {s : State} {x : Session} (hc : x.confirmed = true) (hup : s.mgmtUp = true)
    (hx : s.session x.id = some x) (cl : DapClient) (m : DapMsg) (type status : Nat) (body : Bytes) :
    (s.dapAnswer cl x m type status body).session x.id =
        some { x with last := m.seq, resp := dapSealed x.keyOut type x.id m.seq status body, expires := s.idleAt } ∧
      Counted Obj.mgc_DAP_RX s (s.dapAnswer cl x m type status body) := by
  rw [hc]
  exact (s.dapAnswer_spec cl x m type status body).2 hup hx

/-! ### OPEN_C (R403) -/

section
variable {x : Session} (hx : s.session m.session = some x) (hc : x.confirmed = false)
include hx hc

theorem State.dapConfirm_wrong (h : m.body ≠ x.sA) :
    s.dapConfirm cl m = (s.dropSession x.id).bump Obj.mgc_DAP_OPEN_FAIL := by
  unfold State.dapConfirm
  rw [hx]
  dsimp only
  rw [hc, if_neg Bool.false_ne_true, if_pos h]

theorem State.dapConfirm_right (h : m.body = x.sA) (hmac : hmacSm3 x.keyIn m.head = m.mac) (hseq : m.seq = 0) :
    s.dapConfirm cl m = s.dapAnswer cl x m 0x05 dsOk [] := by
  unfold State.dapConfirm
  rw [hx]
  dsimp only
  rw [hc, if_neg Bool.false_ne_true, if_neg (not_not.2 h), if_neg (not_not.2 hmac), if_neg (not_not.2 hseq)]

end

/-! ### Requests of a confirmed session (R404) -/

section
variable {x : Session} {does : State → Session → State} (hx : s.session m.session = some x) (hc : x.confirmed = true)
include hx hc

theorem State.dapRequest_forged (h : hmacSm3 x.keyIn m.head ≠ m.mac) : s.dapRequest cl m does = s.bump Obj.mgc_DAP_MAC_FAIL := by
  unfold State.dapRequest
  rw [hx]
  dsimp only
  rw [if_pos (by simpa [hc] using h)]

/-- With the right MAC the sequence number decides. -/
theorem State.dapRequest_sealed (h : hmacSm3 x.keyIn m.head = m.mac) : s.dapRequest cl m does =
    if m.seq = x.last then ((s.setSession { x with expires := s.idleAt }).bump Obj.mgc_DAP_RESENT).emit (.dap cl x.resp)
    else if m.seq = x.last + 1 ∧ m.type ≠ 0x04 then does s x else s.bump Obj.mgc_DAP_SEQ_DISCARD := by
  unfold State.dapRequest
  rw [hx]
  dsimp only
  rw [if_neg (by simp [hc, h])]

end

end

/-- The stored response sent again keeps all but the session's end. -/
theorem State.dapResent_spec {s : State} {x : Session} (hx : s.session x.id = some x) (cl : DapClient) {t : State}
    (ht : t = ((s.setSession { x with expires := s.idleAt }).bump Obj.mgc_DAP_RESENT).emit (.dap cl x.resp)) :
    t.sent = s.sent ++ [.dap cl x.resp] ∧ Counted Obj.mgc_DAP_RESENT s t ∧
    t.session x.id = some { x with expires := s.idleAt } ∧
    OnlyObjs [Obj.mgc_DAP_RESENT] s { t with mgmt := s.mgmt, sent := s.sent } := by
  subst ht
  obtain ⟨hsent, hcount, honly⟩ := State.counted_emit (s := s) (u := s.setSession { x with expires := s.idleAt }) rfl Obj.mgc_DAP_RESENT
    (.dap cl x.resp)
  refine ⟨hsent, hcount, ?_, honly⟩
  rw [State.session_emit, State.session_bump]
  exact State.session_setSession hx rfl

/-! ### An access that fails (R405) -/

/-- A write that fails leaves the state, or what a refused command of one of its entries leaves. -/
theorem State.dictWrite_fails {s u : State} {role : Option Role} {es : List WEntry} {f : Nat × Nat}
    (h : s.dictWrite role es = (u, some f)) : u = s ∨ ∃ e ∈ es, u = s.refusedCommand e.idx e.sub := by
  obtain ⟨i, c⟩ := f
  unfold State.dictWrite at h
  split at h
  next => cases h
  next =>
    split at h
    next e he =>
      obtain ⟨rfl, -⟩ := Prod.mk.inj h
      split
      · exact .inr ⟨e, List.mem_of_getElem? he, rfl⟩
      · exact .inl rfl
    next => exact .inl (Prod.mk.inj h).1.symm

/-- Only a refused debug token leaves anything behind (R433). -/
theorem State.dictWrite_unchanged {s u : State} {role : Option Role} {es : List WEntry} {f : Nat × Nat}
    (h : s.dictWrite role es = (u, some f)) (hes : ∀ e ∈ es, e.idx ≠ 0x1300 ∨ e.sub ≠ 4) : u = s := by
  obtain rfl | ⟨e, he, rfl⟩ := State.dictWrite_fails h
  · rfl
  · exact if_neg fun ⟨hidx, hsub⟩ => (hes e he).elim (· hidx) (· hsub)

/-! ### The commands -/

section
variable {s : State} {cl : DapClient} {msg : Bytes} {m : DapMsg} (hup : s.mgmtUp = true) (h : dapParse msg = some m)
include hup h

theorem exec_dapOpenA (ht : m.type = 0x02) : exec (.dapOpenA cl msg) s = .next (s.dapOpen cl m) :=
  congrArg Host.Outcome.next (State.dap_taken hup h ht)

theorem exec_dapOpenC (ht : m.type = 0x04) : exec (.dapOpenC cl msg) s = .next (s.dapConfirm cl m) :=
  congrArg Host.Outcome.next (State.dap_taken hup h ht)

/-- What READ, WRITE and CLOSE carry out. -/
def dapAct (cl : DapClient) (m : DapMsg) (s : State) (x : Session) : State :=
  if m.type = 0x10 then (s.dapReadBody m.body).1.dapAnswer cl x m 0x11 (s.dapReadBody m.body).2.1 (s.dapReadBody m.body).2.2
  else if m.type = 0x12 then
    let r := s.dapWriteBody ((slotRole (s.opSlot x.slot)).getD .read) m.body
    r.1.dapAnswer cl x m 0x13 r.2.1 [BitVec.ofNat 8 r.2.2, 0, 0, 0]
  else (s.dapAnswer cl x m 0x1F dsOk []).dropSession x.id

theorem exec_dapRequest {c : Instr}
    (hc : (m.type = 0x10 ∧ c = .dapRead cl msg) ∨ (m.type = 0x12 ∧ c = .dapWrite cl msg) ∨ (m.type = 0x1E ∧ c = .dapClose cl msg)) :
    exec c s = .next (s.dapRequest cl m (dapAct cl m)) := by
  have acts {f : State → Session → State} (hf : f = dapAct cl m) : s.dapRequest cl m f = s.dapRequest cl m (dapAct cl m) := by rw [hf]
  obtain ⟨ht, rfl⟩ | ⟨ht, rfl⟩ | ⟨ht, rfl⟩ := hc
  all_goals
    refine congrArg Host.Outcome.next ((State.dap_taken hup h ht).trans (acts ?_))
    funext u x
    unfold dapAct
    rw [ht]
    rfl

end

/-! ### Expiry (R403) -/

/-- A session dropped at its instant. -/
theorem State.expired_spec {s : State} {x : Session} {t : State} (ht : t = (s.advanceTo x.expires).dropSession x.id)
    (hlt : x.expires < 2 ^ 64) :
    t.now = max s.now x.expires ∧ t.session x.id = none ∧ { t with ft := s.ft, mgmt := s.mgmt } = s := by
  subst ht
  exact ⟨State.now_advanceTo s hlt, State.session_dropSession _ _,
    (congrArg (fun u : State => { u with mgmt := s.mgmt }) (s.advanceTo_only x.expires) :)⟩

theorem exec_dapHalfOpenExpiry {s : State} {id : BitVec 32} {x : Session} (hx : s.session id.toNat = some x) (hc : x.confirmed = false) :
    exec (.dapHalfOpenExpiry id) s = .next (((s.advanceTo x.expires).dropSession x.id).bump Obj.mgc_DAP_OPEN_FAIL) := by
  show execDapHalfOpenExpiry id s = _
  rw [execDapHalfOpenExpiry, hx]
  exact congrArg Host.Outcome.next (if_neg (by simp [hc]))

theorem exec_sessionIdle {s : State} {id : BitVec 32} {x : Session} (hx : s.session id.toNat = some x) (hc : x.confirmed = true) :
    exec (.sessionIdle id) s = .next ((s.advanceTo x.expires).dropSession x.id) := by
  show execSessionIdle id s = _
  rw [execSessionIdle, hx]
  exact congrArg Host.Outcome.next (if_pos hc)

/-! ### Settlement -/

/-- A command that only counts. -/
theorem only_counted {c : Instr} {s : State} {k : Nat} (h : exec c s = .next (s.bump k)) :
    ∃ t, exec c s = .next t ∧ OnlyObjs [k] s t ∧ Counted k s t := ⟨_, h, OnlyObjs.bump s k, Counted.bump s k⟩

/-- Settles O56: each message is one branch of its command, by what its session, MAC and SEQ say. -/
theorem dapSessionsAnswerInSequence : Obligations.DapSessionsAnswerInSequence := by
  intro s cl msg hup
  refine ⟨fun hm c hc => ?discarded, fun m slot hm ht hslot => ?openA, fun m x hm ht hx hconf => ?openC,
    fun m x c hm hx hconf hc => ?request, fun role es u i c h hes => State.dictWrite_unchanged h hes, fun id x hx hlt => ?expiry⟩
  case discarded =>
    simp only [List.mem_cons, List.not_mem_nil, or_false] at hc
    obtain rfl | rfl | rfl | rfl | rfl := hc
    all_goals exact only_counted (congrArg Host.Outcome.next (State.dap_discarded hup hm))
  case openA =>
    subst hslot
    have refused {status counter : Nat} (h : s.dapOpen cl m = s.refuseOpen cl m status counter) :
        exec (.dapOpenA cl msg) s = .next (s.refuseOpen cl m status counter) := h ▸ exec_dapOpenA hup hm ht
    refine ⟨fun hnone => ?empty, fun r hsome hr => ?exchange⟩
    case empty =>
      obtain ⟨hcount, hsent, honly, -⟩ := s.refuseOpen_spec cl m dsAuth Obj.mgc_DAP_OPEN_FAIL
      exact ⟨_, refused (State.dapOpen_empty hnone), hcount, hsent, honly⟩
    case exchange =>
      cases he : sm2ExchangeB (dapClientId (byteAt m.body 0)) dapDeviceId (s.opSlot (byteAt m.body 0)).key (slice m.body 4 64)
        s.sealed.mgmtPriv r with
      | none =>
        obtain ⟨hcount, hsent, honly, -⟩ := s.refuseOpen_spec cl m dsAuth Obj.mgc_DAP_OPEN_FAIL
        exact ⟨_, refused (State.dapOpen_badKey hsome hr he), hcount, hsent, honly⟩
      | some e =>
        have hopen := State.dapOpen_exchanged (cl := cl) hsome hr he
        by_cases hfull : 8 ≤ s.mgmt.sessions.length
        · rw [if_pos hfull] at hopen
          obtain ⟨hcount, hsent, -, hmgmt⟩ := s.refuseOpen_spec cl m dsBusy Obj.mgc_DAP_BUSY
          refine ⟨_, refused hopen, ?_⟩
          dsimp only
          rw [if_pos hfull]
          exact ⟨hcount, hsent, hmgmt⟩
        · rw [if_neg hfull] at hopen
          obtain ⟨hsessions, hsent, hcount⟩ := s.dapOpened_spec cl m ((Config.sessionBase + s.mgmt.nextId) % 2 ^ 32) r e
          refine ⟨_, (exec_dapOpenA hup hm ht).trans (congrArg Host.Outcome.next hopen), ?_⟩
          dsimp only
          rw [if_neg hfull]
          exact ⟨_, hsessions, hsent, hcount⟩
  case openC =>
    have hexec := exec_dapOpenC (cl := cl) hup hm ht
    refine ⟨fun hne => ?wrong, fun hbody hmac hseq => ?right⟩
    case wrong =>
      rw [State.dapConfirm_wrong hx hconf hne] at hexec
      refine ⟨_, hexec, ?_, Counted.bump_of_obj_eq rfl, ?_⟩
      · rw [State.session_bump]; exact State.session_dropSession s x.id
      · obtain ⟨hrest, hobjs⟩ := OnlyObjs.bump (s.dropSession x.id) Obj.mgc_DAP_OPEN_FAIL
        exact ⟨(congrArg (fun u : State => { u with objs := s.objs, mgmt := s.mgmt }) hrest :), hobjs⟩
    case right =>
      rw [State.dapConfirm_right hx hconf hbody hmac hseq] at hexec
      obtain ⟨hsent, hstored⟩ := s.dapAnswer_spec cl x m 0x05 dsOk []
      obtain ⟨hsession, hcount⟩ := hstored hup (State.session_self hx)
      rw [hseq] at hsent hsession
      exact ⟨_, _, hexec, rfl, hsent, hcount, hsession⟩
  case request =>
    have hexec := exec_dapRequest hup hm hc
    refine ⟨fun hmac => only_counted (hexec.trans (congrArg Host.Outcome.next (State.dapRequest_forged hx hconf hmac))), fun hmac => ?_⟩
    rw [State.dapRequest_sealed hx hconf hmac] at hexec
    refine ⟨fun hlast => ?resent, fun hlast hnext => ?unexpected, fun hnext => ?carried⟩
    case resent =>
      rw [if_pos hlast] at hexec
      exact ⟨_, hexec, State.dapResent_spec (State.session_self hx) cl rfl⟩
    case unexpected =>
      rw [if_neg hlast, if_neg (fun h => hnext h.1)] at hexec
      exact only_counted hexec
    case carried =>
      have hopen : m.type ≠ 0x04 := by omega
      rw [if_neg (by omega), if_pos ⟨hnext, hopen⟩] at hexec
      refine ⟨fun u st body ht hr => ?read, fun u st i ht hw => ?write, fun ht => ?close⟩
      case read =>
        rw [dapAct, if_pos ht, hr] at hexec
        exact ⟨_, _, hexec, rfl, (u.dapAnswer_spec cl x m 0x11 st body).1,
          fun hu hx' => State.dapAnswer_confirmed hconf hu hx' cl m _ _ _⟩
      case write =>
        rw [dapAct, if_neg (by omega), if_pos ht, hw] at hexec
        exact ⟨_, _, hexec, rfl, (u.dapAnswer_spec cl x m 0x13 st [BitVec.ofNat 8 i, 0, 0, 0]).1,
          fun hu hx' => State.dapAnswer_confirmed hconf hu hx' cl m _ _ _⟩
      case close =>
        rw [dapAct, if_neg (by omega), if_neg (by omega)] at hexec
        obtain ⟨hsent, hstored⟩ := s.dapAnswer_spec cl x m 0x1F dsOk []
        exact ⟨_, hexec, State.session_dropSession _ _, (hstored hup (State.session_self hx)).2, hsent⟩
  case expiry =>
    obtain ⟨hnow, hended, honly⟩ := State.expired_spec (s := s) rfl hlt
    refine ⟨fun hc => ?halfOpen, fun hc => ⟨_, exec_sessionIdle hx hc, hnow, hended, honly⟩⟩
    have hexec := exec_dapHalfOpenExpiry hx hc
    generalize (s.advanceTo x.expires).dropSession x.id = u at hexec hnow hended honly
    have hobj (k : Nat) : u.obj k = s.obj k := (congrArg (State.obj · k) honly :)
    have hkept : { u with objs := s.objs, ft := s.ft, mgmt := s.mgmt } = s :=
      (congrArg (fun v : State => { v with objs := s.objs }) honly :)
    obtain ⟨hrest, hobjs⟩ := OnlyObjs.bump u Obj.mgc_DAP_OPEN_FAIL
    have hrest' : { u.bump Obj.mgc_DAP_OPEN_FAIL with objs := s.objs, ft := s.ft, mgmt := s.mgmt } = s :=
      (congrArg (fun v : State => { v with objs := s.objs, ft := s.ft, mgmt := s.mgmt }) hrest :).trans hkept
    refine ⟨_, hexec, ?_, (State.session_bump u _ _).trans hended, Counted.bump_of_obj_eq (hobj _), hrest', fun k hk => (hobjs k hk).trans (hobj k)⟩
    exact (congrArg (fun v : State => v.ft.toNat) hrest :).trans hnow

end Sys2Proof.Machine
end

section
/-! PROOF. Keys, measurements, quotes, counters, debug tokens and the steps of an update (R424 to R433). -/

namespace Sys2Proof.Machine

/-! ### Bytes and digests -/

theorem leBytes_leNat (bs : Bytes) : leBytes bs.length (leNat bs) = bs := by
  induction bs with
  | nil => rfl
  | cons b bs ih =>
    have hlow : BitVec.ofNat 8 (b.toNat + 256 * leNat bs) = b := by
      rw [← BitVec.toNat_inj, BitVec.toNat_ofNat]; have := b.isLt; omega
    rw [leNat, List.length_cons, leBytes, hlow, show (b.toNat + 256 * leNat bs) / 256 = leNat bs by have := b.isLt; omega, ih]

theorem leBytes_leNat_of_length {n : Nat} {bs : Bytes} (h : bs.length = n) : leBytes n (leNat bs) = bs := h ▸ leBytes_leNat bs

theorem sm3_length (m : Bytes) : (sm3 m).length = 32 := by
  unfold sm3
  simp only [List.flatMap_cons, List.flatMap_nil, List.length_append, beBytes_length, List.length_nil]

theorem wireNat_u8 (b : Byte) : wireNat .u8 [b] = b.toNat := by
  show 256 * 0 + b.toNat = b.toNat
  omega

/-! ### Advisories (R377) -/

/-- What one advisory changes: the ring, whose position is one further. -/
structure Advised (s t : State) : Prop where
  rest : { t with objs := s.objs } = s
  seq : t.obj Obj.ring_WRITE_SEQ = (s.obj Obj.ring_WRITE_SEQ + 1) % 2 ^ 32
  objs : ∀ k, ¬ RingKey k → t.obj k = s.obj k

/-- An advisory is one entry of the ring. -/
theorem State.advise_entry (s : State) (fn : Nat) (parcel : Option Nat) (code unit detail : Nat) : ∃ w, s.advise fn parcel code unit detail =
    ((s.setObj Obj.ring_WRITE_SEQ ((s.obj Obj.ring_WRITE_SEQ + 1) % 2 ^ 32)).setObj (Obj.ring_ENTRY (s.obj Obj.ring_WRITE_SEQ)) w).bump
      (Obj.ring_ENTRIES 0) := by
  have entered : s.advise fn parcel code unit detail = (s.enter ⟨0, fn, parcel, code, unit, detail⟩).1 := by
    simp [State.advise, State.raise, State.enter]
  rw [entered]
  simp only [State.enter, Nat.not_le.2 Nat.zero_lt_two, decide_false, Bool.and_false, Bool.false_eq_true, if_false, false_and]
  exact ⟨_, rfl⟩

theorem State.advise_advised (s : State) (fn : Nat) (parcel : Option Nat) (code unit detail : Nat) :
    Advised s (s.advise fn parcel code unit detail) := by
  obtain ⟨hrest, hobjs⟩ := OnlyObjs.advise s fn parcel code unit detail
  refine ⟨hrest, ?_, fun k hk => hobjs k fun hm => hk ?_⟩
  · obtain ⟨w, hw⟩ := s.advise_entry fn parcel code unit detail
    rw [hw, State.obj_bump_other _ (by decide), State.obj_setObj_other _ _ (by unfold Obj.ring_WRITE_SEQ Obj.ring_ENTRY objKey; omega),
      State.obj_setObj_same]
  · simp only [List.mem_cons, List.not_mem_nil, or_false] at hm
    unfold RingKey
    obtain rfl | rfl | rfl := hm
    · exact .inl (by decide)
    · exact .inr (by unfold Obj.ring_ENTRY objKey; omega)
    · exact .inl (by decide)

section
variable {s t : State} (h : Advised s t)
include h

theorem Advised.sealed : t.sealed = s.sealed := (congrArg State.sealed h.rest :)
theorem Advised.mem : t.mem = s.mem := (congrArg State.mem h.rest :)
theorem Advised.cores : t.cores = s.cores := (congrArg State.cores h.rest :)
theorem Advised.mgmt : t.mgmt = s.mgmt := (congrArg State.mgmt h.rest :)
theorem Advised.freshCtr : t.freshCtr = s.freshCtr := (congrArg State.freshCtr h.rest :)

theorem Advised.measure (i : Nat) (hi : i < 8) : t.measure i = s.measure i :=
  congrArg (leBytes 32) (h.objs _ (by unfold RingKey Obj.sec_MEASURE objKey; omega))

end

/-! ### Measurements (R427) -/

theorem State.measure_extend (s : State) (i : Nat) (d : Bytes) : (s.extend i d).measure i = sm3 (s.measure i ++ d) := by
  have hne : Obj.sec_MEASURE i ≠ Obj.sec_EXTENDS i := by simp only [Obj.sec_MEASURE, Obj.sec_EXTENDS, objKey]; omega
  show leBytes 32 ((s.extend i d).obj _) = _
  rw [State.extend, State.obj_bump_other _ hne, State.obj_setObj_same, leBytes_leNat_of_length (sm3_length _)]

theorem State.extend_only (s : State) (i : Nat) (d : Bytes) : OnlyObjs [Obj.sec_MEASURE i, Obj.sec_EXTENDS i] s (s.extend i d) :=
  ((OnlyObjs.refl _ s).setObj _ (by simp)).bumped (by simp)

theorem State.extend_counted (s : State) (i : Nat) (d : Bytes) : Counted (Obj.sec_EXTENDS i) s (s.extend i d) :=
  Counted.bump_of_obj_eq (State.obj_setObj_other _ _ (by simp only [Obj.sec_MEASURE, Obj.sec_EXTENDS, objKey]; omega))

/-! ### The command objects of security (R440) -/

section
variable {s : State} {sub : Nat} {bs : Bytes} {r : ObjRow} {c : Nat} {t : State}

/-- A command that fails leaves the state, and one that does not takes effect. -/
theorem State.write1_command {idx : Nat} (hm : s.mgmtUp = true) (hrow : objRow idx sub = some r) (hacc : r.acc = .cmd)
    (hlen : bs.length = r.ty.size) (hi : idx < 0x7100) (hk : ¬ (idx = 0x1300 ∧ sub = 4))
    (h : s.command [] idx sub (wireNat r.ty bs) = (c, t)) : s.write1 .security idx sub bs = if c = dsOk then t else s := by
  have hone : s.writeOne (some .security) true [] (sentEntry idx sub bs) = (c, t) := by
    obtain ⟨hrow, hmay, hro, hlen, hlock⟩ := State.passes_command (s := s) (role := .security) hrow hacc rfl hlen (.inl hi)
    rw [sentEntry_eq hrow]
    unfold State.writeOne
    rw [hacc] at hlock
    simp [hrow, hmay, hlen, hlock, hacc, h]
  by_cases hc : c = dsOk
  · rw [if_pos hc]; subst hc; exact State.write1_ok hm hone
  · rw [if_neg hc]; exact State.write1_refused hone hc fun _ => hk

variable (hup : s.mgmtUp = true)
include hup

theorem exec_measureExtend {d : Bytes} (hd : d.length = 32) : exec (.measureExtend .security d) s = .next (s.extend 7 d) := by
  have h := State.write1_command (bs := d) (r := ⟨9, 1, .oct 32, .cmd, 0⟩) (idx := 0x1301) (sub := 9) hup (by decide) rfl hd (by decide)
    (by decide) rfl
  rw [if_pos rfl, show leBytes 32 (wireNat (.oct 32) d) = d from leBytes_leNat_of_length hd] at h
  exact congrArg Host.Outcome.next h

theorem exec_quote {nonce : Bytes} (hn : nonce.length = 32) : exec (.quote .security nonce) s = .next (s.makeQuote nonce) := by
  have h := State.write1_command (bs := nonce) (r := ⟨1, 1, .oct 32, .cmd, 0⟩) (idx := 0x1330) (sub := 1) hup (by decide) rfl hn
    (by decide) (by decide) rfl
  rw [if_pos rfl, show leBytes 32 (wireNat (.oct 32) nonce) = nonce from leBytes_leNat_of_length hn] at h
  exact congrArg Host.Outcome.next h

theorem exec_svnCommit (b : Byte) :
    exec (.svnCommit .security b) s = .next (if (s.svnCommit b.toNat).1 = dsOk then (s.svnCommit b.toNat).2 else s) := by
  have h := State.write1_command (bs := [b]) (r := ⟨9, 1, .u8, .cmd, 0⟩) (idx := 0x1350) (sub := 9) hup (by decide) rfl rfl
    (by decide) (by decide) rfl
  rw [wireNat_u8] at h
  exact congrArg Host.Outcome.next h

theorem exec_counterInc (b : Byte) :
    exec (.counterInc .security b) s = .next (if (s.counterInc b.toNat).1 = dsOk then (s.counterInc b.toNat).2 else s) := by
  have h := State.write1_command (bs := [b]) (r := ⟨0xA, 1, .u8, .cmd, 0⟩) (idx := 0x1350) (sub := 0xA) hup (by decide) rfl rfl
    (by decide) (by decide) rfl
  rw [wireNat_u8] at h
  exact congrArg Host.Outcome.next h

theorem exec_updErase : exec (.updErase .security) s = .next (s.updErase.getD s) :=
  congrArg Host.Outcome.next (State.write1_accepted hup (State.passes_command (r := ⟨4, 3, .cmd, .cmd, 0⟩) (by decide) rfl rfl rfl
    (by decide)) rfl (by decide) rfl)

theorem exec_updVerify : exec (.updVerify .security) s = .next (s.updVerify.getD s) :=
  congrArg Host.Outcome.next (State.write1_accepted hup (State.passes_command (r := ⟨4, 3, .cmd, .cmd, 0⟩) (by decide) rfl rfl rfl
    (by decide)) rfl (by decide) rfl)

theorem exec_updActivate : exec (.updActivate .security) s = .next (s.updActivate.getD s) :=
  congrArg Host.Outcome.next (State.write1_accepted hup (State.passes_command (r := ⟨4, 3, .cmd, .cmd, 0⟩) (by decide) rfl rfl rfl
    (by decide)) rfl (by decide) rfl)

end

/-! ### Quotes (R428) -/

theorem State.quoteBody_length (s : State) {nonce : Bytes} (h : nonce.length = 32) : (s.quoteBody nonce).length = 128 := by
  unfold State.quoteBody
  simp only [List.length_append, leBytes_length, sm3_length, h]

/-- The parts of a quote written out. -/
def State.quoted (s : State) (q : Bytes) : State :=
  (((s.setObj (Obj.sec_QUOTE_PART 0) (leAt q 0 64)).setObj (Obj.sec_QUOTE_PART 1) (leAt q 64 64)).setObj (Obj.sec_QUOTE_PART 2)
    (leAt q 128 64)).bump Obj.sec_QUOTES

theorem State.makeQuote_eq (s : State) (nonce : Bytes) : ∃ sig : Bytes, s.makeQuote nonce = s.fresh.2.quoted (s.quoteBody nonce ++ sig) :=
  ⟨_, rfl⟩

theorem State.quoted_only (s : State) (q : Bytes) :
    OnlyObjs [Obj.sec_QUOTE_PART 0, Obj.sec_QUOTE_PART 1, Obj.sec_QUOTE_PART 2, Obj.sec_QUOTES] s (s.quoted q) :=
  ((((OnlyObjs.refl _ s).setObj _ (by simp)).setObj _ (by simp)).setObj _ (by simp)).bumped (by simp)

theorem State.quoted_counted (s : State) (q : Bytes) : Counted Obj.sec_QUOTES s (s.quoted q) := by
  refine Counted.bump_of_obj_eq ?_
  rw [State.obj_setObj_other _ _ (by decide), State.obj_setObj_other _ _ (by decide), State.obj_setObj_other _ _ (by decide)]

/-- The first 128 bytes of a quote are those of its body. -/
theorem State.quoted_body (s : State) {b sig : Bytes} (h : b.length = 128) :
    leBytes 64 ((s.quoted (b ++ sig)).obj (Obj.sec_QUOTE_PART 0)) ++ leBytes 64 ((s.quoted (b ++ sig)).obj (Obj.sec_QUOTE_PART 1)) = b := by
  have h0 : (slice (b ++ sig) 0 64) = b.take 64 := List.take_append_of_le_length (by omega)
  have h1 : (slice (b ++ sig) 64 64) = b.drop 64 := by
    rw [slice, List.drop_append_of_le_length (by omega), List.take_append_of_le_length (by rw [List.length_drop]; omega),
      List.take_of_length_le (by rw [List.length_drop]; omega)]
  have part (k : Nat) (hk : k ≠ Obj.sec_QUOTES) (hk' : k ≠ Obj.sec_QUOTE_PART 2) : (s.quoted (b ++ sig)).obj k =
      ((s.setObj (Obj.sec_QUOTE_PART 0) (leNat (b.take 64))).setObj (Obj.sec_QUOTE_PART 1) (leNat (b.drop 64))).obj k := by
    rw [State.quoted, State.obj_bump_other _ hk, State.obj_setObj_other _ _ hk', leAt, leAt, h0, h1]
  rw [part _ (by decide) (by decide), part _ (by decide) (by decide), State.obj_setObj_other _ _ (by decide), State.obj_setObj_same,
    State.obj_setObj_same, leBytes_leNat_of_length (by rw [List.length_take]; omega),
    leBytes_leNat_of_length (by rw [List.length_drop]; omega), List.take_append_drop]

theorem State.makeQuote_spec (s : State) {nonce : Bytes} (hn : nonce.length = 32) :
    Counted Obj.sec_QUOTES s (s.makeQuote nonce) ∧
    leBytes 64 ((s.makeQuote nonce).obj (Obj.sec_QUOTE_PART 0)) ++ leBytes 64 ((s.makeQuote nonce).obj (Obj.sec_QUOTE_PART 1)) =
      s.quoteBody nonce ∧
    OnlyObjs [Obj.sec_QUOTE_PART 0, Obj.sec_QUOTE_PART 1, Obj.sec_QUOTE_PART 2, Obj.sec_QUOTES] s
      { s.makeQuote nonce with freshCtr := s.freshCtr } := by
  obtain ⟨sig, hq⟩ := s.makeQuote_eq nonce
  have hbody := s.quoteBody_length hn
  rw [hq]
  generalize s.quoteBody nonce = b at hbody ⊢
  have hcount := s.fresh.2.quoted_counted (b ++ sig)
  have hparts := s.fresh.2.quoted_body (sig := sig) hbody
  obtain ⟨hrest, hobjs⟩ := s.fresh.2.quoted_only (b ++ sig)
  generalize s.fresh.2.quoted (b ++ sig) = t at hcount hparts hrest hobjs ⊢
  exact ⟨hcount, hparts, (congrArg (fun u : State => { u with freshCtr := s.freshCtr }) hrest :), hobjs⟩

/-! ### Counters (R431) -/

section
variable {s : State}

theorem State.getD_setCounter (s : State) {i : Nat} (hi : i < s.sealed.counters.length) (v j : Nat) :
    (s.setCounter i v).sealed.counters.getD j 0 = if j = i then v else s.sealed.counters.getD j 0 := by
  show (s.sealed.counters.set i v).getD j 0 = _
  rw [List.getD_eq_getElem?_getD, List.getElem?_set]
  by_cases h : j = i
  · rw [if_pos h.symm, if_pos hi, if_pos h]; rfl
  · rw [if_neg (Ne.symm h), if_neg h, List.getD_eq_getElem?_getD]

section
variable {i slot svn : Nat} (hi : i < 4) (hrun : Sparse.get none s.sec.running (i + 1) = some (slot, svn))
include hi hrun

theorem State.svnCommit_refused (h : (s.obj Obj.sec_FALLBACK).testBit i = true) : s.svnCommit (i + 1) = (dsState, s) := by
  unfold State.svnCommit
  rw [if_neg (by omega), hrun]
  exact if_pos h

theorem State.svnCommit_accepted (h : (s.obj Obj.sec_FALLBACK).testBit i = false) : s.svnCommit (i + 1) =
    (dsOk, (s.setCounter i (max (s.sealed.counters.getD i 0) svn)).advise 1 none 0x0E03 0xFFFF i) := by
  unfold State.svnCommit
  rw [if_neg (by omega), hrun]
  exact if_neg (by rw [Nat.add_sub_cancel, h]; decide)

end

section
variable {k v : Nat} (hk : k ≤ 3) (hv : v = s.sealed.counters.getD (4 + k) 0)
include hv

theorem State.counterInc_refused (h : v = 0xFFFFFFFF) : s.counterInc k = (dsRange, s) := by
  subst hv
  exact if_pos (.inr h)

include hk

theorem State.counterInc_accepted (h : v ≠ 0xFFFFFFFF) : s.counterInc k = (dsOk, s.setCounter (4 + k) (v + 1)) := by
  subst hv
  exact if_neg (by omega)

end

end

/-! ### Operator keys (R426) -/

section
variable {s : State} {role signs slot : BitVec 8} {key : Bytes}

/-- The staged entry of a KEY_COMMIT. -/
def State.staged (s : State) (slot : BitVec 8) (key : Bytes) (role signs : BitVec 8) : State :=
  (((s.setObj Obj.sec_NEW_SLOT slot.toNat).setObj Obj.sec_NEW_KEY (leNat key)).setObj Obj.sec_NEW_ROLE role.toNat).setObj Obj.sec_NEW_SIGNS
    signs.toNat

theorem State.staged_only (s : State) (slot : BitVec 8) (key : Bytes) (role signs : BitVec 8) :
    OnlyObjs [Obj.sec_NEW_SLOT, Obj.sec_NEW_KEY, Obj.sec_NEW_ROLE, Obj.sec_NEW_SIGNS] s (s.staged slot key role signs) :=
  ((((OnlyObjs.refl _ s).setObj _ (by simp)).setObj _ (by simp)).setObj _ (by simp)).setObj _ (by simp)

/-- A staging object takes its value (R426). -/
theorem State.writeOne_staged {sub : Nat} {bs : Bytes} {r : ObjRow} (last : Bool) (written : List Nat)
    (hrow : objRow 0x1320 sub = some r) (hacc : r.acc = .rw) (hty : r.ty ≠ .bool) (hlen : bs.length = r.ty.size)
    (hrange : ∀ u : State, u.rangeOk 0x1320 sub (wireNat r.ty bs) = true) :
    s.writeOne (some .security) last written (sentEntry 0x1320 sub bs) = (dsOk, s.setObj (objKey 0x1320 sub) (wireNat r.ty bs)) := by
  rw [sentEntry_eq hrow]
  unfold State.writeOne
  have hlock : s.runLocked 0x1320 sub (wireNat r.ty bs) .rw = false := rfl
  have hafter (u : State) : u.afterWrite s 0x1320 sub (wireNat r.ty bs) = u := rfl
  simp [hrow, hacc, hty, hlen, hlock, hrange, hafter, mayWrite]

theorem State.writeAll_cons_ok {role : Option Role} {e : WEntry} {es : List WEntry} {i : Nat} {written : List Nat} {t : State}
    (h : s.writeOne role es.isEmpty written e = (dsOk, t)) :
    State.writeAll role (e :: es) i written s = State.writeAll role es (i + 1) (objKey e.idx e.sub :: written) t := by
  rw [State.writeAll, h]; rfl

/-- The last entry of a write decides: its state, or its code. -/
theorem State.writeAll_last {role : Option Role} {e : WEntry} {i : Nat} {written : List Nat} {c : Nat} {t : State}
    (h : s.writeOne role true written e = (c, t)) :
    State.writeAll role [e] i written s = if c = dsOk then (t, none) else (s, some (i, c)) := by
  rw [State.writeAll, List.isEmpty_nil, h]
  cases c with
  | zero => rfl
  | succ c => exact (if_neg (by unfold dsOk; omega)).symm

/-- The command of a KEY_COMMIT, the staging objects being written in its WRITE. -/
theorem State.writeOne_keyCommit (u : State) :
    u.writeOne (some .security) true [Obj.sec_NEW_SIGNS, Obj.sec_NEW_ROLE, Obj.sec_NEW_KEY, Obj.sec_NEW_SLOT] (sentEntry 0x1320 5 []) =
      match u.commitKey with
      | some t => (dsOk, t)
      | none => (dsRange, u) := by
  have hcommand : u.command [Obj.sec_NEW_SIGNS, Obj.sec_NEW_ROLE, Obj.sec_NEW_KEY, Obj.sec_NEW_SLOT] 0x1320 5 0 =
      match u.commitKey with
      | some t => (dsOk, t)
      | none => (dsRange, u) := by
    have hkeyCommit (w : List Nat) (v : Nat) : u.command w 0x1320 5 v = u.keyCommit w := rfl
    rw [hkeyCommit, State.keyCommit]
    exact if_pos (by decide)
  rw [← hcommand]
  rfl

/-- KEY_COMMIT is the commit of its staged entry, or nothing. -/
theorem exec_keyCommit (hup : s.mgmtUp = true) (hslot : slot.toNat < 16) (hrole : role.toNat ≤ 3) (hsigns : signs.toNat < 4)
    (hkey : key.length = 64) : exec (.keyCommit .security slot key role signs) s = .next ((s.staged slot key role signs).commitKey.getD s) := by
  have h1 (u : State) (w : List Nat) : u.writeOne (some .security) false w (sentEntry 0x1320 1 [slot]) =
      (dsOk, u.setObj Obj.sec_NEW_SLOT (wireNat .u8 [slot])) :=
    State.writeOne_staged (r := ⟨1, 1, .u8, .rw, 0⟩) false w (by decide) rfl (by decide) rfl
      fun _ => decide_eq_true (by rw [wireNat_u8]; omega)
  have h2 (u : State) (w : List Nat) : u.writeOne (some .security) false w (sentEntry 0x1320 2 key) =
      (dsOk, u.setObj Obj.sec_NEW_KEY (leNat key)) :=
    State.writeOne_staged (r := ⟨2, 1, .oct 64, .rw, 0⟩) false w (by decide) rfl (by decide) hkey fun _ => rfl
  have h3 (u : State) (w : List Nat) : u.writeOne (some .security) false w (sentEntry 0x1320 3 [role]) =
      (dsOk, u.setObj Obj.sec_NEW_ROLE (wireNat .u8 [role])) :=
    State.writeOne_staged (r := ⟨3, 1, .enum8, .rw, 0⟩) false w (by decide) rfl (by decide) rfl
      fun _ => decide_eq_true (show wireNat .u8 [role] ≤ 3 by rw [wireNat_u8]; omega)
  have h4 (u : State) (w : List Nat) : u.writeOne (some .security) false w (sentEntry 0x1320 4 [signs]) =
      (dsOk, u.setObj Obj.sec_NEW_SIGNS (wireNat .u8 [signs])) :=
    State.writeOne_staged (r := ⟨4, 1, .u8, .rw, 0⟩) false w (by decide) rfl (by decide) rfl
      fun _ => decide_eq_true (by rw [wireNat_u8]; omega)
  have hall : State.writeAll (some .security) [sentEntry 0x1320 1 [slot], sentEntry 0x1320 2 key, sentEntry 0x1320 3 [role],
      sentEntry 0x1320 4 [signs], sentEntry 0x1320 5 []] 0 [] s =
      match (s.staged slot key role signs).commitKey with
      | some t => (t, none)
      | none => (s.staged slot key role signs, some (4, dsRange)) := by
    rw [State.writeAll_cons_ok (h1 _ _), State.writeAll_cons_ok (h2 _ _), State.writeAll_cons_ok (h3 _ _),
      State.writeAll_cons_ok (h4 _ _), wireNat_u8, wireNat_u8, wireNat_u8]
    refine (State.writeAll_last (State.writeOne_keyCommit (s.staged slot key role signs))).trans ?_
    cases (s.staged slot key role signs).commitKey <;> rfl
  refine congrArg Host.Outcome.next ?_
  rw [State.access, if_pos hup, State.dictWrite, hall]
  cases (s.staged slot key role signs).commitKey with
  | some t => rfl
  | none => exact (if_neg (by decide) : (if 4 + 1 = 5 ∧ dsRange = dsRange ∧ 0 = 64 then s.refusedCommand 0x1320 5 else s) = s)

/-- The state that a KEY_COMMIT leaves, `ops` its key table: sessions of a slot that it changes are closed. -/
def State.keyCommitted (s : State) (slot : BitVec 8) (key : Bytes) (role signs : BitVec 8) (ops : List OpKey) : State :=
  { s.staged slot key role signs with
    sealed := { s.sealed with ops := ops }
    mgmt := { s.mgmt with
      sessions := if decide (s.opSlot slot.toNat ≠ (⟨key, role.toNat, signs.toNat⟩ : OpKey))
        then s.mgmt.sessions.filter (fun x => decide (x.slot ≠ slot.toNat)) else s.mgmt.sessions } }.advise 1 none 0x0D03 0xFFFF slot.toNat

/-- KEY_COMMIT is refused where no SECURITY key would remain. -/
theorem State.commitKey_staged (hkey : key.length = 64) {ops : List OpKey}
    (hops : ops = s.sealed.ops.set slot.toNat ⟨key, role.toNat, signs.toNat⟩) : (s.staged slot key role signs).commitKey =
      if ops.any (fun o => decide (o.role = 3)) then some (s.keyCommitted slot key role signs ops) else none := by
  have hslot : (s.staged slot key role signs).obj Obj.sec_NEW_SLOT = slot.toNat := by
    unfold State.staged
    rw [State.obj_setObj_other _ _ (by decide), State.obj_setObj_other _ _ (by decide), State.obj_setObj_other _ _ (by decide),
      State.obj_setObj_same]
  have hk : (⟨leBytes 64 ((s.staged slot key role signs).obj Obj.sec_NEW_KEY), (s.staged slot key role signs).obj Obj.sec_NEW_ROLE,
      (s.staged slot key role signs).obj Obj.sec_NEW_SIGNS⟩ : OpKey) = ⟨key, role.toNat, signs.toNat⟩ := by
    unfold State.staged
    rw [State.obj_setObj_other _ _ (by decide), State.obj_setObj_other _ _ (by decide), State.obj_setObj_same,
      State.obj_setObj_other _ _ (by decide), State.obj_setObj_same, State.obj_setObj_same, leBytes_leNat_of_length hkey]
  subst hops
  unfold State.commitKey
  rw [hslot, hk]
  dsimp only
  cases h : (s.sealed.ops.set slot.toNat ⟨key, role.toNat, signs.toNat⟩).any (fun o => decide (o.role = 3)) with
  | true => exact if_neg (Bool.eq_false_iff.1 (congrArg not h))
  | false => exact if_pos (congrArg not h)

/-- A slot keeps its entry exactly when the table is left as it was. -/
theorem set_opSlot_iff {i : Nat} {k : OpKey} (hi : i < s.sealed.ops.length) : s.sealed.ops.set i k = s.sealed.ops ↔ s.opSlot i = k := by
  rw [State.opSlot, List.getD_eq_getElem?_getD, List.getElem?_eq_getElem hi, Option.getD_some]
  constructor
  · intro h
    have := List.getElem_set_self (l := s.sealed.ops) (i := i) (a := k) (by rwa [List.length_set])
    simpa [h] using this
  · rintro rfl
    exact List.set_getElem_self hi

theorem State.keyCommitted_spec (s : State) (hslot : slot.toNat < s.sealed.ops.length) {ops : List OpKey}
    (hops : ops = s.sealed.ops.set slot.toNat ⟨key, role.toNat, signs.toNat⟩) :
    (s.keyCommitted slot key role signs ops).sealed = { s.sealed with ops := ops } ∧
    (s.keyCommitted slot key role signs ops).obj Obj.ring_WRITE_SEQ = (s.obj Obj.ring_WRITE_SEQ + 1) % 2 ^ 32 ∧
    (s.keyCommitted slot key role signs ops).mem = s.mem ∧ (s.keyCommitted slot key role signs ops).cores = s.cores ∧
    (s.keyCommitted slot key role signs ops).mgmt.sessions =
      if ops = s.sealed.ops then s.mgmt.sessions else s.mgmt.sessions.filter (fun x => decide (x.slot ≠ slot.toNat)) := by
  unfold State.keyCommitted
  generalize hu : ({ s.staged slot key role signs with sealed := _, mgmt := _ } : State) = u
  have ha := u.advise_advised 1 none 0x0D03 0xFFFF slot.toNat
  generalize u.advise 1 none 0x0D03 0xFFFF slot.toNat = w at ha
  have hring : u.obj Obj.ring_WRITE_SEQ = s.obj Obj.ring_WRITE_SEQ := by
    rw [← hu]; exact (s.staged_only slot key role signs).2 _ (by decide)
  have hsessions : u.mgmt.sessions = if ops = s.sealed.ops then s.mgmt.sessions
      else s.mgmt.sessions.filter (fun x => decide (x.slot ≠ slot.toNat)) := by
    rw [← hu, hops]
    by_cases h : s.opSlot slot.toNat = ⟨key, role.toNat, signs.toNat⟩
    · rw [if_pos ((set_opSlot_iff hslot).2 h)]
      dsimp only
      rw [if_neg (by simpa using h)]
    · rw [if_neg fun hc => h ((set_opSlot_iff hslot).1 hc)]
      dsimp only
      rw [if_pos (decide_eq_true h)]
  exact ⟨ha.sealed.trans (by rw [← hu]), by rw [ha.seq, hring], ha.mem.trans (by rw [← hu]; rfl), ha.cores.trans (by rw [← hu]; rfl),
    by rw [ha.mgmt, hsessions]⟩

end

/-! ### Debug tokens (R433) -/

section
variable {s : State}

theorem exec_debugUnlock (hup : s.mgmtUp = true) {token : Bytes} (htok : token.length = 64) :
    exec (.debugUnlock .security token) s = .next (if s.unlockOk token then s.unlocked token else s.unlockRefused) := by
  have hrow : objRow 0x1300 4 = some ⟨4, 1, .oct 64, .cmd, 0⟩ := by decide
  have hone : s.writeOne (some .security) true [] (sentEntry 0x1300 4 token) =
      if s.unlockOk token then (dsOk, s.unlocked token) else (dsRange, s) := by
    have hcommand : s.command [] 0x1300 4 (leNat token) =
        if s.unlockOk (leBytes 64 (leNat token)) then (dsOk, s.unlocked (leBytes 64 (leNat token))) else (dsRange, s) := rfl
    rw [leBytes_leNat_of_length htok] at hcommand
    have hlock : s.runLocked 0x1300 4 (wireNat (.oct 64) token) .cmd = false := rfl
    rw [sentEntry_eq hrow, ← hcommand]
    unfold State.writeOne
    simp [hrow, mayWrite, hlock, htok, OTy.size]
    rfl
  refine congrArg Host.Outcome.next ?_
  cases hok : s.unlockOk token with
  | true =>
    rw [hok] at hone
    exact State.write1_ok hup hone
  | false =>
    rw [hok] at hone
    unfold State.write1 State.access State.dictWrite
    rw [if_pos hup, State.writeAll_last hone]
    exact (if_pos ⟨rfl, rfl, htok⟩ : (if 0 + 1 = 1 ∧ dsRange = dsRange ∧ token.length = 64 then s.unlockRefused else s) = s.unlockRefused)

/-- A token's entry in the ring and the challenge drawn after it. -/
theorem Advised.newChallenge {u w : State} (h : Advised u w) (hu : { u with objs := s.objs } = s)
    (hring : u.obj Obj.ring_WRITE_SEQ = s.obj Obj.ring_WRITE_SEQ) :
    w.newChallenge.sec.challenge = s.freshCtr ∧ w.newChallenge.freshCtr = s.freshCtr + 1 ∧
      w.newChallenge.obj Obj.ring_WRITE_SEQ = (s.obj Obj.ring_WRITE_SEQ + 1) % 2 ^ 32 ∧ w.newChallenge.mem = s.mem ∧
      w.newChallenge.cores = s.cores ∧ w.newChallenge.sealed = s.sealed := by
  have hfresh : w.freshCtr = s.freshCtr := h.freshCtr.trans (congrArg State.freshCtr hu :)
  have hseq : w.obj Obj.ring_WRITE_SEQ = (s.obj Obj.ring_WRITE_SEQ + 1) % 2 ^ 32 := by rw [h.seq, hring]
  exact ⟨hfresh, congrArg (· + 1) hfresh, hseq, h.mem.trans (congrArg State.mem hu :), h.cores.trans (congrArg State.cores hu :),
    h.sealed.trans (congrArg State.sealed hu :)⟩

theorem Advised.newChallenge_kept {u w : State} (h : Advised u w) :
    w.newChallenge.obj Obj.sec_DEBUG_STATE = u.obj Obj.sec_DEBUG_STATE ∧ w.newChallenge.measure 5 = u.measure 5 :=
  ⟨h.objs _ (by unfold RingKey; decide), h.measure 5 (by decide)⟩

theorem State.unlocked_objs (s : State) (token : Bytes) :
    OnlyObjs [Obj.sec_DEBUG_STATE, Obj.sec_MEASURE 5, Obj.sec_EXTENDS 5] s ((s.setObj Obj.sec_DEBUG_STATE 1).extend 5 (sm3 token)) :=
  (((OnlyObjs.refl _ s).setObj _ (by simp)).setObj _ (by simp)).bumped (by simp)

/-- An accepted token opens debug access and extends M5. -/
theorem State.obj_unlocked (s : State) (token : Bytes) :
    ((s.setObj Obj.sec_DEBUG_STATE 1).extend 5 (sm3 token)).obj Obj.sec_DEBUG_STATE = 1 ∧
    ((s.setObj Obj.sec_DEBUG_STATE 1).extend 5 (sm3 token)).measure 5 = sm3 (s.measure 5 ++ sm3 token) := by
  have hkept : (s.setObj Obj.sec_DEBUG_STATE 1).measure 5 = s.measure 5 :=
    congrArg (leBytes 32) (State.obj_setObj_other _ _ (by decide))
  refine ⟨?_, (State.measure_extend _ _ _).trans (by rw [hkept])⟩
  rw [((s.setObj Obj.sec_DEBUG_STATE 1).extend_only 5 (sm3 token)).2 _ (by decide), State.obj_setObj_same]

end

/-! ### Updates (R430) -/

section
variable {s : State}

theorem exec_updType (hup : s.mgmtUp = true) {v : Byte} (hv : 1 ≤ v.toNat ∧ v.toNat ≤ 4) :
    exec (.updType .security v) s = .next ((s.setObj Obj.upd_UPD_TYPE v.toNat).updAbort s) := by
  have h := State.write1_set (s := s) (role := .security) (idx := 0x1340) (sub := 1) (bs := [v]) (r := ⟨1, 1, .enum8, .rw, 0⟩) hup
    ⟨by decide, rfl, by decide, rfl, rfl⟩ (.inl rfl) (fun h => absurd h (by decide))
    (decide_eq_true (show 1 ≤ wireNat .u8 [v] ∧ wireNat .u8 [v] ≤ 4 by rw [wireNat_u8]; exact hv))
  have hvalue : wireNat .enum8 [v] = v.toNat := wireNat_u8 v
  rw [hvalue] at h
  exact congrArg Host.Outcome.next h

theorem exec_updType_outOfRange {v : Byte} (hv : v.toNat = 0 ∨ 4 < v.toNat) : exec (.updType .security v) s = .next s := by
  refine congrArg Host.Outcome.next (State.write1_outOfRange (role := .security) (idx := 0x1340) (sub := 1) (bs := [v])
    (r := ⟨1, 1, .enum8, .rw, 0⟩) ⟨by decide, rfl, by decide, rfl, rfl⟩ (.inl rfl) (.inr ?_))
  exact decide_eq_false (show ¬ (1 ≤ wireNat .u8 [v] ∧ wireNat .u8 [v] ≤ 4) by rw [wireNat_u8]; omega)

/-- A type selected makes UPD_STATE 0. -/
theorem State.updAbort_spec (s u : State) : (u.updAbort s).obj Obj.upd_UPD_STATE = 0 ∧
    (u.updAbort s).obj Obj.upd_UPD_TYPE = u.obj Obj.upd_UPD_TYPE ∧
    (s.obj Obj.upd_UPD_STATE ≠ 1 → u.updAbort s = u.setUpd 0) := by
  refine ⟨State.obj_setObj_same _ _ _, ?_, fun h => by rw [State.updAbort, if_neg h]⟩
  rw [State.updAbort, State.setUpd, State.obj_setObj_other _ _ (by decide)]
  split <;> rfl

theorem State.flashByte_of_intact (h : s.flashLost = []) (a : Nat) : s.flashByte a = Sparse.get 0xFF s.flash a := by
  rw [State.flashByte, h]; rfl

theorem State.eraseFlash_intact (h : s.flashLost = []) (o n : Nat) :
    s.eraseFlash o n = { s with flash := Sparse.clearRange s.flash o (o + n) } := by
  have hlost : s.flashLost.filter (fun e => !(decide (o ≤ e.1) && decide (e.1 + e.2.1 ≤ o + n))) = s.flashLost := by rw [h]; rfl
  rw [State.eraseFlash, hlost]

/-- A slot erased. -/
theorem State.flashByte_eraseFlash (h : s.flashLost = []) (o n a : Nat) :
    (s.eraseFlash o n).flashByte a = if o ≤ a ∧ a < o + n then 0xFF else s.flashByte a := by
  rw [State.eraseFlash_intact h, State.flashByte_of_intact (by exact h), State.flashByte_of_intact h]
  exact Sparse.get_clearRange o (o + n)

/-- Bytes written one after another. -/
theorem Sparse.get_program (bs : Bytes) (m : Sparse Byte) (o n a : Nat) :
    Sparse.get 0xFF ((bs.zipIdx n).foldl (fun m (e : Byte × Nat) => Sparse.set 0xFF m (o + e.2) e.1) m) a =
      if o + n ≤ a ∧ a < o + n + bs.length then bs.getD (a - (o + n)) 0 else Sparse.get 0xFF m a := by
  induction bs generalizing m n with
  | nil => exact (if_neg (by rw [List.length_nil]; omega)).symm
  | cons b bs ih =>
    rw [List.zipIdx_cons, List.foldl_cons, ih, Sparse.get_set, List.length_cons]
    by_cases h : a = o + n
    · subst h
      rw [if_neg (by omega), if_pos rfl, if_pos (by omega), Nat.sub_self]; rfl
    · rw [if_neg h]
      by_cases hin : o + (n + 1) ≤ a ∧ a < o + (n + 1) + bs.length
      · rw [if_pos hin, if_pos (by omega), show a - (o + n) = a - (o + (n + 1)) + 1 by omega]; rfl
      · rw [if_neg hin, if_neg (by omega)]

/-- UPD_ERASE of a selected type whose inactive slot the directory has. -/
theorem State.updErase_eq {ty : Nat} {e : DirEntry} (hty : s.obj Obj.upd_UPD_TYPE = ty) (h0 : ty ≠ 0)
    (he : s.dirEntry ty (s.inactiveSlot ty) = some e) : s.updErase =
      if s.obj Obj.upd_UPD_STATE = 1 ∨ s.obj Obj.upd_UPD_STATE = 3 then none
      else some (({ s with sec := { s.sec with updSlot := s.inactiveSlot ty } }.setObj Obj.upd_UPD_OFFSET 0).setUpd 1) := by
  subst hty
  unfold State.updErase
  dsimp only
  by_cases h : s.obj Obj.upd_UPD_STATE = 1 ∨ s.obj Obj.upd_UPD_STATE = 3
  · rw [if_pos h, if_pos (.inr (h.imp_right .inl))]
  · rw [if_neg h, if_neg]
    rintro (h' | h' | h' | h')
    · exact h0 h'
    · exact h (.inl h')
    · exact h (.inr h')
    · rw [he] at h'; exact Bool.noConfusion h'

/-- UPD_DATA whose checks pass. -/
theorem exec_updData (hup : s.mgmtUp = true) {d : Bytes} (hd : d.length = 64) (hc : s.updDataCheck = dsOk) :
    exec (.updData .security d) s = .next (s.updProgram d) := by
  have hrow : objRow 0x1340 3 = some ⟨3, 1, .oct 64, .wo, 0⟩ := by decide
  have hbytes : leBytes 64 (wireNat (.oct 64) d) = d := leBytes_leNat_of_length hd
  have hlock : s.runLocked 0x1340 3 (wireNat (.oct 64) d) .wo = false := rfl
  refine congrArg Host.Outcome.next (State.write1_ok hup ?_)
  rw [sentEntry_eq hrow]
  unfold State.writeOne
  simp [hrow, mayWrite, hlock, hd, OTy.size, hc, hbytes, dsOk]

/-- Sixty-four erased bytes programmed. -/
theorem State.updProgram_erased {o n off : Nat} (hrange : s.updRange = some (o, n)) (hoff : s.obj Obj.upd_UPD_OFFSET = off)
    (h : ∀ i, i < 64 → s.flashByte (o + off + i) = 0xFF) (d : Bytes) : s.updProgram d =
      { s with flash := (d.zipIdx 0).foldl (fun m (e : Byte × Nat) => Sparse.set 0xFF m (o + off + e.2) e.1) s.flash }.setObj
        Obj.upd_UPD_OFFSET ((off + 64) % 2 ^ 32) := by
  subst hoff
  have hall : ((s.flashBytes (o + s.obj Obj.upd_UPD_OFFSET) 64).all fun b => decide (b = 0xFF)) = true := by
    rw [List.all_eq_true]
    intro b hb
    obtain ⟨i, hi, rfl⟩ := List.mem_map.1 hb
    exact decide_eq_true (h i (List.mem_range.1 hi))
  unfold State.updProgram
  rw [hrange]
  dsimp only
  rw [if_pos hall]

/-- The check of UPD_DATA in UPD_STATE 2, inside the slot. -/
theorem State.updDataCheck_ok {o n : Nat} (hrange : s.updRange = some (o, n)) (hoff : s.obj Obj.upd_UPD_OFFSET % 64 = 0)
    (hn : s.obj Obj.upd_UPD_OFFSET < n) (hstate : s.obj Obj.upd_UPD_STATE = 2) : s.updDataCheck = dsOk := by
  unfold State.updDataCheck
  rw [hrange]
  dsimp only
  rw [if_neg (by omega), if_neg (not_not.2 hstate)]

/-- UPD_STATE set, and with it what else was changed. -/
theorem State.setUpd_only (s : State) (v : Nat) : OnlyObjs [Obj.upd_UPD_STATE] s (s.setUpd v) := (OnlyObjs.refl _ s).setObj v (by simp)

@[simp] theorem State.obj_setUpd (s : State) (v : Nat) : (s.setUpd v).obj Obj.upd_UPD_STATE = v := State.obj_setObj_same _ _ _

theorem State.updErased_eq {o n : Nat} (hrange : s.updRange = some (o, n)) (h : s.obj Obj.upd_UPD_STATE = 1) :
    s.updErased = (s.eraseFlash o n).setUpd 2 := by
  unfold State.updErased
  rw [if_pos h, hrange]

/-- The state that UPD_ACTIVATE leaves. -/
def State.updActivated (s : State) : State :=
  ({ s with sealed := { s.sealed with bootSlot := s.sealed.bootSlot.set (s.obj Obj.upd_UPD_TYPE - 1) s.sec.updSlot } }.setUpd 6).advise
    1 none 0x0E02 0xFFFF s.sec.updSlot

theorem State.updActivate_eq (h : s.obj Obj.upd_UPD_STATE = 4) : s.updActivate = some s.updActivated := if_pos h

theorem State.updActivated_spec (s : State) : s.updActivated.obj Obj.upd_UPD_STATE = 6 ∧
    s.updActivated.sealed =
      { s.sealed with bootSlot := s.sealed.bootSlot.set (s.obj Obj.upd_UPD_TYPE - 1) s.sec.updSlot } ∧
    s.updActivated.obj Obj.ring_WRITE_SEQ = (s.obj Obj.ring_WRITE_SEQ + 1) % 2 ^ 32 ∧ s.updActivated.mem = s.mem := by
  unfold State.updActivated
  generalize hu : State.setUpd _ 6 = u
  have hstate : u.obj Obj.upd_UPD_STATE = 6 := by rw [← hu, State.obj_setUpd]
  have hring : u.obj Obj.ring_WRITE_SEQ = s.obj Obj.ring_WRITE_SEQ := by
    rw [← hu]; exact State.obj_setObj_other _ _ (by decide)
  have ha := u.advise_advised 1 none 0x0E02 0xFFFF s.sec.updSlot
  exact ⟨(ha.objs _ (by unfold RingKey; decide)).trans hstate, ha.sealed.trans (by rw [← hu]; rfl), by rw [ha.seq, hring],
    ha.mem.trans (by rw [← hu]; rfl)⟩

/-- A verification that fails is entered with its code. -/
theorem State.updVerified_spec (h : s.obj Obj.upd_UPD_STATE = 3) {code : Nat}
    (hcode : s.imageCheck (s.obj Obj.upd_UPD_TYPE) s.sec.updSlot = code) :
    s.updVerified.obj Obj.upd_UPD_STATE = (if code = 0 then 4 else 5) ∧ s.updVerified.mem = s.mem ∧ s.updVerified.sealed = s.sealed ∧
      (code ≠ 0 → s.updVerified.obj Obj.upd_UPD_RESULT = 0x0B00 + code ∧
        s.updVerified.obj Obj.ring_WRITE_SEQ = (s.obj Obj.ring_WRITE_SEQ + 1) % 2 ^ 32) := by
  unfold State.updVerified
  dsimp only
  rw [if_pos h, hcode]
  by_cases h0 : code = 0
  · rw [if_pos h0, if_pos h0]
    exact ⟨State.obj_setUpd _ _, rfl, rfl, fun hne => absurd h0 hne⟩
  · rw [if_neg h0, if_neg h0]
    generalize hu : (s.setUpd 5).setObj Obj.upd_UPD_RESULT (0x0B00 + code) = u
    have hring : u.obj Obj.ring_WRITE_SEQ = s.obj Obj.ring_WRITE_SEQ := by
      rw [← hu, State.obj_setObj_other _ _ (by decide)]; exact (s.setUpd_only 5).2 _ (by decide)
    have hstate : u.obj Obj.upd_UPD_STATE = 5 := by rw [← hu, State.obj_setObj_other _ _ (by decide), State.obj_setUpd]
    have hresult : u.obj Obj.upd_UPD_RESULT = 0x0B00 + code := by rw [← hu, State.obj_setObj_same]
    have hmem : u.mem = s.mem := by rw [← hu]; rfl
    have hsealed : u.sealed = s.sealed := by rw [← hu]; rfl
    have ha := u.advise_advised 1 none 0x0E01 0xFFFF s.sec.updSlot
    exact ⟨(ha.objs _ (by unfold RingKey; decide)).trans hstate, ha.mem.trans hmem, ha.sealed.trans hsealed,
      fun _ => ⟨(ha.objs _ (by unfold RingKey; decide)).trans hresult, hring ▸ ha.seq⟩⟩

end

/-! ### Settlement -/

/-- Settles O55: each command is its write of one object, and what it does to the state is said by its own lemma. -/
theorem securityAndUpdateCommandsAct : Obligations.SecurityAndUpdateCommandsAct := by
  intro s hup ring
  refine ⟨fun d hd => ?measure, fun slot role signs key ops hslot hrole hsigns hkey hlen hops => ?key, fun nonce hn => ?quote,
    fun t i slot svn hlen ht hi hrun => ?svn, fun k v hlen hk hv => ?counter, fun token htok => ?debug, fun v => ?type,
    fun ty e hty h0 he => ?erase, fun o n hrange hlost => ?bytes, fun h => ?verify, fun h => ?noVerify, fun code hcode h => ?verified,
    fun h => ?activate, fun h => ?noActivate⟩
  case measure =>
    exact ⟨_, exec_measureExtend hup hd, s.extend_only 7 d, s.measure_extend 7 d, s.extend_counted 7 d⟩
  case key =>
    rw [exec_keyCommit hup hslot hrole hsigns hkey, State.commitKey_staged hkey hops]
    refine ⟨fun hany => ?_, fun hany => by rw [hany]; rfl⟩
    rw [if_pos hany, Option.getD_some]
    exact ⟨_, rfl, s.keyCommitted_spec (by omega) hops⟩
  case quote => exact ⟨_, exec_quote hup hn, s.makeQuote_spec hn⟩
  case svn =>
    have hcommit := exec_svnCommit hup t
    rw [ht] at hcommit hrun
    refine ⟨fun hb => ?_, fun hb => ?_⟩
    · rw [State.svnCommit_accepted hi hrun hb, if_pos rfl] at hcommit
      dsimp only at hcommit
      have ha := (s.setCounter i (max (s.sealed.counters.getD i 0) svn)).advise_advised 1 none 0x0E03 0xFFFF i
      generalize State.advise _ 1 none 0x0E03 0xFFFF i = u at hcommit ha
      refine ⟨_, hcommit, ha.seq, by rw [ha.sealed]; rfl, fun j => ?_⟩
      rw [ha.sealed, State.getD_setCounter s (by omega)]
    · rw [State.svnCommit_refused hi hrun hb] at hcommit
      exact hcommit
  case counter =>
    have hinc := exec_counterInc hup k
    refine ⟨fun hne => ?_, fun hmax => ?_⟩
    · rw [State.counterInc_accepted hk hv hne, if_pos rfl] at hinc
      exact ⟨_, hinc, rfl, rfl, fun j => State.getD_setCounter s (by omega) _ j⟩
    · rw [State.counterInc_refused hv hmax] at hinc
      exact hinc
  case debug =>
    have hexec := exec_debugUnlock hup htok
    cases hok : s.unlockOk token with
    | true =>
      rw [hok] at hexec
      obtain ⟨hrest, hobjs⟩ := s.unlocked_objs token
      obtain ⟨hopen, hmeasure⟩ := s.obj_unlocked token
      have ha := ((s.setObj Obj.sec_DEBUG_STATE 1).extend 5 (sm3 token)).advise_advised 1 none 0x0D01 0xFFFF 0
      obtain ⟨hstate, hm⟩ := ha.newChallenge_kept
      obtain ⟨hch, hfresh, hseq, hmem, hcores, hsealed⟩ := ha.newChallenge hrest (hobjs _ (by decide))
      exact ⟨_, hexec, hch, hfresh, hseq, hmem, hcores, hsealed, fun _ => ⟨hstate.trans hopen, hm.trans hmeasure⟩,
        fun h => absurd h (by decide)⟩
    | false =>
      rw [hok] at hexec
      have ha := s.advise_advised 1 none 0x0D02 0xFFFF 0
      obtain ⟨hch, hfresh, hseq, hmem, hcores, hsealed⟩ := ha.newChallenge rfl rfl
      exact ⟨_, hexec, hch, hfresh, hseq, hmem, hcores, hsealed, fun h => absurd h (by decide), fun _ => ha.newChallenge_kept⟩
  case type =>
    refine ⟨fun hv => ?_, exec_updType_outOfRange⟩
    obtain ⟨hstate, htype, hkept⟩ := s.updAbort_spec (s.setObj Obj.upd_UPD_TYPE v.toNat)
    refine ⟨_, exec_updType hup hv, htype.trans (State.obj_setObj_same _ _ _), hstate, fun h => ?_⟩
    rw [hkept h]
    exact ((OnlyObjs.refl _ s).setObj _ (by simp)).setObj _ (by simp)
  case erase =>
    have hexec := exec_updErase hup
    rw [State.updErase_eq hty.symm h0 he] at hexec
    refine ⟨fun h => by rwa [if_pos h] at hexec, fun h1 h3 => ?_⟩
    rw [if_neg (by omega), Option.getD_some] at hexec
    refine ⟨_, hexec, State.obj_setUpd _ _, ?_, rfl, ?_⟩
    · rw [State.setUpd, State.obj_setObj_other _ _ (by decide), State.obj_setObj_same]
    · exact ((OnlyObjs.refl [Obj.upd_UPD_STATE, Obj.upd_UPD_OFFSET] s).setObj (k := Obj.upd_UPD_OFFSET) 0 (by simp)).setObj
        (k := Obj.upd_UPD_STATE) 1 (by simp)
  case bytes =>
    refine ⟨fun h1 => ?erased, fun d off hd hoff h64 hlt hn h2 hff => ?programmed⟩
    case erased =>
      refine ⟨_, congrArg Host.Outcome.next (State.updErased_eq hrange h1), State.obj_setUpd _ _, ?_, s.flashByte_eraseFlash hlost o n⟩
      rw [State.eraseFlash_intact hlost]
      exact s.setUpd_only 2
    case programmed =>
      have hexec := exec_updData hup hd (State.updDataCheck_ok hrange (hoff ▸ h64) (hoff ▸ hlt) h2)
      rw [State.updProgram_erased hrange hoff.symm hff, Nat.mod_eq_of_lt (show off + 64 < 2 ^ 32 by omega)] at hexec
      refine ⟨_, hexec, State.obj_setObj_same _ _ _, (OnlyObjs.refl [Obj.upd_UPD_OFFSET] s).setObj (k := Obj.upd_UPD_OFFSET)
        (off + 64) (by simp), fun a => ?_⟩
      rw [State.flashByte_of_intact hlost a, State.flashByte_of_intact (by exact hlost) a]
      have hget := Sparse.get_program d s.flash (o + off) 0 a
      rwa [hd] at hget
  case verify =>
    have hexec := exec_updVerify hup
    rw [State.updVerify, if_pos h] at hexec
    exact ⟨_, hexec, s.setUpd_only 3, State.obj_setUpd _ _⟩
  case noVerify =>
    have hexec := exec_updVerify hup
    rwa [State.updVerify, if_neg h] at hexec
  case verified => exact ⟨_, rfl, State.updVerified_spec h hcode.symm⟩
  case activate =>
    have hexec := exec_updActivate hup
    rw [State.updActivate_eq h] at hexec
    exact ⟨_, hexec, s.updActivated_spec⟩
  case noActivate =>
    have hexec := exec_updActivate hup
    rwa [State.updActivate, if_neg h] at hexec

end Sys2Proof.Machine
end

section
/-! PROOF. Level runs (R373 to R375, R382, R383) and the thermal and current limits (R417, R435 to R437). -/

namespace Sys2Proof.Machine

/-! ### A device in reset (R417) -/

section
variable {s : State} {o : Out}

theorem State.whenUp_up (h : s.poweredUp = true) : s.whenUp o = o := if_pos h

theorem State.whenUp_down (h : s.poweredUp = false) : s.whenUp o = .next s := if_neg (by rw [h]; decide)

end

/-! ### Objects that differ by a rule -/

/-- Nothing differs but dictionary objects of `P`. -/
def OnlyKeys (P : Nat → Prop) (s t : State) : Prop := { t with objs := s.objs } = s ∧ ∀ k, ¬ P k → t.obj k = s.obj k

section
variable {P : Nat → Prop} {s t u : State}

theorem OnlyKeys.refl (P : Nat → Prop) (s : State) : OnlyKeys P s s := ⟨rfl, fun _ _ => rfl⟩

theorem OnlyKeys.trans (h : OnlyKeys P s t) (g : OnlyKeys P t u) : OnlyKeys P s u :=
  ⟨(congrArg (fun x : State => { x with objs := s.objs }) g.1 :).trans h.1, fun k hk => (g.2 k hk).trans (h.2 k hk)⟩

theorem OnlyKeys.setObj (h : OnlyKeys P s t) {k : Nat} (v : Nat) (hk : P k) : OnlyKeys P s (t.setObj k v) :=
  ⟨h.1, fun j hj => by rw [State.obj_setObj_other t v (fun e : j = k => hj (by rwa [e])), h.2 j hj]⟩

theorem OnlyKeys.bump (h : OnlyKeys P s t) {k : Nat} (hk : P k) : OnlyKeys P s (t.bump k) := by
  unfold State.bump State.addObj
  exact h.setObj _ hk

theorem OnlyKeys.foldl {β : Type} {g : State → β → State} {l : List β} (h : OnlyKeys P s t)
    (step : ∀ u, ∀ x ∈ l, OnlyKeys P u (g u x)) : OnlyKeys P s (l.foldl g t) :=
  List.foldlRecOn (motive := OnlyKeys P s) l g h (fun u hu x hx => hu.trans (step u x hx))

end

/-! ### Objects set by their position -/

section
variable {f : Nat → Nat} {s : State}

/-- Values set at consecutive positions, from position `n` on. -/
def State.setIndexed (s : State) (f : Nat → Nat) (l : List Int) (n : Nat) : State :=
  (l.zipIdx n).foldl (fun s e => s.setObj (f e.2) (wrap 32 e.1)) s

theorem State.setIndexed_only {P : Nat → Prop} (hP : ∀ i, P (f i)) (l : List Int) (n : Nat) : OnlyKeys P s (s.setIndexed f l n) :=
  OnlyKeys.foldl (.refl P s) fun u _ _ => (OnlyKeys.refl P u).setObj _ (hP _)

theorem State.obj_setIndexed_other {k : Nat} (h : ∀ i, k ≠ f i) (l : List Int) (n : Nat) : (s.setIndexed f l n).obj k = s.obj k :=
  (State.setIndexed_only (P := fun k => ∃ i, k = f i) (fun i => ⟨i, rfl⟩) l n).2 k fun ⟨i, hi⟩ => h i hi

theorem State.obj_setIndexed_below (hf : Function.Injective f) {i n : Nat} (h : i < n) (l : List Int) :
    (s.setIndexed f l n).obj (f i) = s.obj (f i) := by
  induction l generalizing s n with
  | nil => rfl
  | cons a l ih =>
    refine (ih (s := s.setObj (f n) (wrap 32 a)) (n := n + 1) (by omega)).trans (State.obj_setObj_other s _ fun e => ?_)
    exact absurd (hf e) (by omega)

theorem State.obj_setIndexed (hf : Function.Injective f) {i : Nat} {l : List Int} (hi : i < l.length) (n : Nat) :
    (s.setIndexed f l n).obj (f (n + i)) = wrap 32 (l.getD i 0) := by
  induction l generalizing s n i with
  | nil => exact absurd hi (Nat.not_lt_zero _)
  | cons a l ih =>
    cases i with
    | zero => exact (State.obj_setIndexed_below hf (Nat.lt_succ_self n) l).trans (State.obj_setObj_same s _ _)
    | succ i =>
      have h := ih (s := s.setObj (f n) (wrap 32 a)) (Nat.lt_of_succ_lt_succ hi) (n + 1)
      rwa [show n + 1 + i = n + (i + 1) by omega] at h

end

/-! ### Classes (R374) -/

theorem levelClass_le (i : Nat) (v : Int) : levelClass i v ≤ 2 := by
  unfold levelClass
  split <;> split_ifs <;> omega

/-- The digits to base 4 of seven classes. -/
theorem digit_classes {g : Nat → Nat} (hg : ∀ i, g i < 4) {i : Nat} (hi : i < 7) :
    ((List.range 7).map g).zipIdx.foldl (fun a e => a + e.1 * 4 ^ e.2) 0 / 4 ^ i % 4 = g i := by
  have h (j : Nat) := hg j
  have h0 := h 0; have h1 := h 1; have h2 := h 2; have h3 := h 3; have h4 := h 4; have h5 := h 5; have h6 := h 6
  show (0 + g 0 * 4 ^ 0 + g 1 * 4 ^ 1 + g 2 * 4 ^ 2 + g 3 * 4 ^ 3 + g 4 * 4 ^ 4 + g 5 * 4 ^ 5 + g 6 * 4 ^ 6) / 4 ^ i % 4 = g i
  norm_num only
  interval_cases i <;> omega

/-! ### The end of a run (R374, R375, R383) -/

theorem trendsOf_length (hist : List (List Int × List Nat)) : (trendsOf hist).length = 7 := by
  unfold trendsOf
  split <;> simp

/-- The objects of the lanes of a port. -/
def LaneKey (k : Nat) : Prop := 0x3000 ≤ k / 256 ∧ k / 256 < 0x3090

theorem State.laneObjects_only (s : State) (m : LevelMeasure) : OnlyKeys LaneKey s (s.laneObjects m) := by
  refine OnlyKeys.foldl (.refl _ s) fun u p hp => OnlyKeys.foldl (.refl _ u) fun w k hk => ?_
  have hp := List.mem_range.1 hp
  have hk : k < 4 := by simp only [List.mem_cons, List.not_mem_nil, or_false] at hk; omega
  have lane (i : Nat) (hi : i < 256) : LaneKey (objKey (0x3000 + p) i) := by unfold LaneKey objKey; omega
  exact ((((OnlyKeys.refl _ w).setObj _ (lane _ (by omega))).setObj _ (lane _ (by omega))).setObj _ (lane _ (by omega))).setObj _
    (lane _ (by omega))

/-- The advice of a run noted, with CHANGE_SEQ on a change (R375, R398). -/
def State.adviceNoted (s : State) (a : Nat × Nat) : State :=
  let s := s.setObj Obj.level_RETIRE_CAUSE a.2
  if s.obj Obj.level_RETIRE_ADVICE = a.1 then s else (s.setObj Obj.level_RETIRE_ADVICE a.1).bumpChange

theorem State.adviceNoted_only (s : State) (a : Nat × Nat) :
    OnlyKeys (fun k => k = Obj.level_RETIRE_CAUSE ∨ k = Obj.level_RETIRE_ADVICE ∨ k = Obj.dev_CHANGE_SEQ) s (s.adviceNoted a) := by
  unfold State.adviceNoted State.bumpChange
  have hcause : OnlyKeys (fun k => k = Obj.level_RETIRE_CAUSE ∨ k = Obj.level_RETIRE_ADVICE ∨ k = Obj.dev_CHANGE_SEQ) s
      (s.setObj Obj.level_RETIRE_CAUSE a.2) := (OnlyKeys.refl _ s).setObj _ (.inl rfl)
  dsimp only
  split
  · exact hcause
  · exact (hcause.setObj _ (.inr (.inl rfl))).setObj _ (.inr (.inr rfl))

theorem State.obj_adviceNoted (s : State) (a : Nat × Nat) :
    (s.adviceNoted a).obj Obj.level_RETIRE_ADVICE = a.1 ∧ (s.adviceNoted a).obj Obj.level_RETIRE_CAUSE = a.2 := by
  unfold State.adviceNoted State.bumpChange
  dsimp only
  split
  · exact ⟨‹_›, State.obj_setObj_same _ _ _⟩
  · rw [State.obj_setObj_other _ _ (by decide), State.obj_setObj_same, State.obj_setObj_other _ _ (by decide),
      State.obj_setObj_other _ _ (by decide), State.obj_setObj_same]
    exact ⟨rfl, rfl⟩

/-- The margins and trends of a run, and its classes. -/
def State.marginsNoted (s : State) (vals trends : List Int) (cls : List Nat) : State :=
  ((s.setIndexed Obj.level_MARGIN vals 0).setIndexed Obj.level_TREND trends 0).setObj Obj.level_MARGIN_CLASS
    (cls.zipIdx.foldl (fun a e => a + e.1 * 4 ^ e.2) 0)

theorem level_MARGIN_injective : Function.Injective Obj.level_MARGIN := fun i j h => by
  unfold Obj.level_MARGIN objKey at h; omega

theorem level_TREND_injective : Function.Injective Obj.level_TREND := fun i j h => by
  unfold Obj.level_TREND objKey at h; omega

theorem State.marginsNoted_only (s : State) (vals trends : List Int) (cls : List Nat) :
    OnlyKeys (fun k => 0x820007 ≤ k) s (s.marginsNoted vals trends cls) :=
  ((State.setIndexed_only (fun i => by unfold Obj.level_MARGIN objKey; omega) vals 0).trans
    (State.setIndexed_only (fun i => by unfold Obj.level_TREND objKey; omega) trends 0)).setObj _ (by decide)

theorem State.obj_marginsNoted (s : State) {vals trends : List Int} (cls : List Nat) (hv : vals.length = 7) (ht : trends.length = 7)
    {i : Nat} (hi : i < 7) : (s.marginsNoted vals trends cls).obj (Obj.level_MARGIN i) = wrap 32 (vals.getD i 0) ∧
      (s.marginsNoted vals trends cls).obj (Obj.level_TREND i) = wrap 32 (trends.getD i 0) := by
  have hm : Obj.level_MARGIN i ≠ Obj.level_MARGIN_CLASS := by unfold Obj.level_MARGIN Obj.level_MARGIN_CLASS objKey; omega
  have ht' : Obj.level_TREND i ≠ Obj.level_MARGIN_CLASS := by unfold Obj.level_TREND Obj.level_MARGIN_CLASS objKey; omega
  have hmargin := State.obj_setIndexed (s := s) level_MARGIN_injective (i := i) (l := vals) (by omega) 0
  have htrend := State.obj_setIndexed (s := s.setIndexed Obj.level_MARGIN vals 0) level_TREND_injective (i := i) (l := trends) (by omega) 0
  rw [Nat.zero_add] at hmargin htrend
  unfold State.marginsNoted
  rw [State.obj_setObj_other _ _ hm, State.obj_setObj_other _ _ ht', htrend, ← hmargin]
  have hne (j : Nat) : Obj.level_MARGIN i ≠ Obj.level_TREND j := by unfold Obj.level_MARGIN Obj.level_TREND objKey; omega
  exact ⟨State.obj_setIndexed_other hne _ _, rfl⟩

/-- The records of a run: margins, trends, classes, the count, the advice and its cause. -/
def State.levelRecorded (s : State) (vals : List Int) (cls : List Nat) (hist : List (List Int × List Nat)) : State :=
  let u := s.marginsNoted vals (trendsOf hist) cls
  ((u.bump Obj.level_LEVEL_RUNS).setObj Obj.level_LEVEL_LAST u.now).adviceNoted (retireAdvice hist)

theorem State.levelRecorded_spec (s : State) {vals : List Int} (cls : List Nat) (hist : List (List Int × List Nat)) (hv : vals.length = 7) :
    { s.levelRecorded vals cls hist with objs := s.objs } = s ∧
    (∀ i, i < 7 → (s.levelRecorded vals cls hist).obj (Obj.level_MARGIN i) = wrap 32 (vals.getD i 0) ∧
      (s.levelRecorded vals cls hist).obj (Obj.level_TREND i) = wrap 32 ((trendsOf hist).getD i 0)) ∧
    (s.levelRecorded vals cls hist).obj Obj.level_MARGIN_CLASS = cls.zipIdx.foldl (fun a e => a + e.1 * 4 ^ e.2) 0 ∧
    Counted Obj.level_LEVEL_RUNS s (s.levelRecorded vals cls hist) ∧
    (s.levelRecorded vals cls hist).obj Obj.level_LEVEL_LAST = s.now ∧
    (s.levelRecorded vals cls hist).obj Obj.level_RETIRE_ADVICE = (retireAdvice hist).1 ∧
    (s.levelRecorded vals cls hist).obj Obj.level_RETIRE_CAUSE = (retireAdvice hist).2 := by
  unfold State.levelRecorded
  obtain ⟨hrest, hobjs⟩ := s.marginsNoted_only vals (trendsOf hist) cls
  have hmargins (i : Nat) (hi : i < 7) := s.obj_marginsNoted cls hv (trendsOf_length hist) hi
  have hclass : (s.marginsNoted vals (trendsOf hist) cls).obj Obj.level_MARGIN_CLASS = cls.zipIdx.foldl (fun a e => a + e.1 * 4 ^ e.2) 0 :=
    State.obj_setObj_same _ _ _
  generalize s.marginsNoted vals (trendsOf hist) cls = u at hrest hobjs hmargins hclass ⊢
  dsimp only
  have hnow : u.now = s.now := (congrArg State.now hrest :)
  have hruns : u.obj Obj.level_LEVEL_RUNS = s.obj Obj.level_LEVEL_RUNS := hobjs _ (by decide)
  have hrecord : OnlyKeys (fun k => k = Obj.level_LEVEL_RUNS ∨ k = Obj.level_LEVEL_LAST) u
      ((u.bump Obj.level_LEVEL_RUNS).setObj Obj.level_LEVEL_LAST u.now) := ((OnlyKeys.refl _ u).bump (.inl rfl)).setObj _ (.inr rfl)
  have hlast : ((u.bump Obj.level_LEVEL_RUNS).setObj Obj.level_LEVEL_LAST u.now).obj Obj.level_LEVEL_LAST = s.now :=
    (State.obj_setObj_same _ _ _).trans hnow
  have hcount : Counted Obj.level_LEVEL_RUNS s ((u.bump Obj.level_LEVEL_RUNS).setObj Obj.level_LEVEL_LAST u.now) := by
    rw [Counted, State.obj_setObj_other _ _ (by decide)]; exact Counted.bump_of_obj_eq hruns
  generalize (u.bump Obj.level_LEVEL_RUNS).setObj Obj.level_LEVEL_LAST u.now = w at hrecord hlast hcount ⊢
  obtain ⟨hadvice, hcause⟩ := w.obj_adviceNoted (retireAdvice hist)
  have hnoted := w.adviceNoted_only (retireAdvice hist)
  generalize w.adviceNoted (retireAdvice hist) = t at hadvice hcause hnoted ⊢
  have hobj (k : Nat) (hk : 0x820007 ≤ k) : t.obj k = u.obj k := by
    refine (hnoted.2 k ?_).trans (hrecord.2 k ?_)
    · unfold Obj.level_RETIRE_CAUSE Obj.level_RETIRE_ADVICE Obj.dev_CHANGE_SEQ objKey; omega
    · unfold Obj.level_LEVEL_RUNS Obj.level_LEVEL_LAST objKey; omega
  refine ⟨?_, fun i hi => ?_, (hobj _ (by decide)).trans hclass, (hnoted.2 _ (by decide)).trans hcount, (hnoted.2 _ (by decide)).trans hlast,
    hadvice, hcause⟩
  · have hw : { w with objs := s.objs } = s := (congrArg (fun x : State => { x with objs := s.objs }) hrecord.1 :).trans hrest
    exact (congrArg (fun x : State => { x with objs := s.objs }) hnoted.1 :).trans hw
  · rw [hobj _ (by unfold Obj.level_MARGIN objKey; omega), hobj _ (by unfold Obj.level_TREND objKey; omega)]
    exact hmargins i hi

/-- The state in which a run's values are taken into its history. -/
def State.levelEnded (s : State) (hist : List (List Int × List Nat)) : State :=
  { s.fresh.2.fresh.2 with corrSeen := [], env := { s.env with levelOn := false, levelEnd := s.now, hist := hist, corr := [] } }

theorem exec_levelRunEnd {s : State} (h : s.env.levelOn = true) (m : LevelMeasure) {v : List Int} {cls : List Nat}
    {hist : List (List Int × List Nat)} (hv : v = (s.levelValues m).2) (hcls : cls = v.zipIdx.map (fun e => levelClass e.2 e.1))
    (hhist : hist = ((v, cls) :: s.env.hist).take 9) :
    exec (.levelRunEnd m) s = .next (((s.levelEnded hist).laneObjects m).levelRecorded v cls hist) := by
  subst hhist hcls hv
  exact if_neg (by rw [h]; decide)

/-- The seven values of a run (R374). -/
theorem State.levelValues_spec (s : State) (m : LevelMeasure) {v : List Int} (hv : v = (s.levelValues m).2) :
    v.length = 7 ∧ v.getD 0 0 = m.droop ∧ v.getD 1 0 = m.timing ∧ v.getD 6 0 = m.temperature ∧
    v.zipIdx.map (fun e => levelClass e.2 e.1) = (List.range 7).map (fun i => levelClass i (v.getD i 0)) ∧
    ∀ w units, w = maxN (s.env.corr.map Prod.snd) → units = s.now - s.env.levelEnd → 0 < units →
      ((w * 57600000000000 / units : Nat) : Int) ≤ v.getD 5 0 ∧ v.getD 5 0 ≤ ((w * 57600000000000 / units + 1 : Nat) : Int) ∧
      (w * 57600000000000 % units = 0 → v.getD 5 0 = ((w * 57600000000000 / units : Nat) : Int)) := by
  subst hv
  refine ⟨rfl, rfl, rfl, rfl, rfl, fun w units hw hunits h0 => ?_⟩
  have hrate : (s.levelValues m).2.getD 5 0 = ((if units = 0 then Config.freeNat s.fresh.2.freshCtr else
      w * 57600000000000 / units + (if w * 57600000000000 % units = 0 then 0 else Config.freeNat s.fresh.2.freshCtr % 2) : Nat) : Int) := by
    subst hw hunits; rfl
  rw [hrate, if_neg (by omega)]
  generalize w * 57600000000000 / units = q
  split <;> omega

/-- The state after the lane objects: of the run, all but the records. -/
theorem State.levelMeasured_spec (s : State) (hist : List (List Int × List Nat)) (m : LevelMeasure) {u : State}
    (hu : u = (s.levelEnded hist).laneObjects m) :
    u.env = { s.env with levelOn := false, levelEnd := s.now, hist := hist, corr := [] } ∧ u.mem = s.mem ∧ u.cores = s.cores ∧
    u.ft = s.ft ∧ u.corrSeen = [] ∧ ∀ k, ¬ LaneKey k → u.obj k = s.obj k := by
  have h := (s.levelEnded hist).laneObjects_only m
  rw [← hu] at h
  obtain ⟨hrest, hobjs⟩ := h
  exact ⟨(congrArg State.env hrest :), (congrArg State.mem hrest :), (congrArg State.cores hrest :), (congrArg State.ft hrest :),
    (congrArg State.corrSeen hrest :), hobjs⟩

/-! ### Thermal decisions (R436) -/

section
variable {s : State}

theorem State.setLevel_spec (s : State) (k v : Nat) : (s.setLevel k v).obj (Obj.pow_CLOCK_LEVEL k) = v ∧
    OnlyObjs [Obj.pow_CLOCK_LEVEL k, Obj.pow_LEVEL_CHANGES k] s (s.setLevel k v) ∧
    (s.setLevel k v).obj (Obj.pow_LEVEL_CHANGES k) = (if v = s.obj (Obj.pow_CLOCK_LEVEL k) then s.obj (Obj.pow_LEVEL_CHANGES k)
      else min (2 ^ objBits (Obj.pow_LEVEL_CHANGES k) - 1) (s.obj (Obj.pow_LEVEL_CHANGES k) + 1)) := by
  have hne : Obj.pow_CLOCK_LEVEL k ≠ Obj.pow_LEVEL_CHANGES k := by unfold Obj.pow_CLOCK_LEVEL Obj.pow_LEVEL_CHANGES objKey; omega
  unfold State.setLevel
  by_cases h : s.obj (Obj.pow_CLOCK_LEVEL k) = v
  · rw [if_pos h, if_pos h.symm]
    exact ⟨h, .refl _ s, rfl⟩
  · rw [if_neg h, if_neg (Ne.symm h), State.obj_bump_other _ hne, State.obj_setObj_same]
    exact ⟨rfl, ((OnlyObjs.refl _ s).setObj _ (by simp)).bumped (by simp), Counted.bump_of_obj_eq (State.obj_setObj_other _ _ hne.symm)⟩

/-- The state in which a die's level is decided: the boundary taken, or Fabric Time at the next multiple of THERM_EPOCH (R436). -/
def State.decisionPoint (s : State) (k : Nat) : State :=
  if s.thermTrains k then { s with env := { s.env with due := setBit s.env.due k false } }
  else s.advanceTo (ceilDiv s.now (s.obj Obj.pow_THERM_EPOCH * 1024) * (s.obj Obj.pow_THERM_EPOCH * 1024))

theorem State.decisionPoint_rest (s : State) (k : Nat) : { s.decisionPoint k with ft := s.ft, env := s.env } = s := by
  unfold State.decisionPoint
  split
  · rfl
  · exact (congrArg (fun u : State => { u with env := s.env }) (s.advanceTo_only _) :)

theorem State.now_decisionPoint {k due : Nat} (hdue : due = if s.thermTrains k then s.now
    else ceilDiv s.now (s.obj Obj.pow_THERM_EPOCH * 1024) * (s.obj Obj.pow_THERM_EPOCH * 1024)) (hlt : due < 2 ^ 64) :
    (s.decisionPoint k).now = max s.now due := by
  subst hdue
  unfold State.decisionPoint
  split at hlt <;> rename_i h
  · rw [if_pos h, if_pos h]; exact (max_self s.now).symm
  · rw [if_neg h, if_neg h]; exact State.now_advanceTo s hlt

theorem exec_thermDecision {k : Fin 6} (hup : s.poweredUp = true) (hdue : s.thermTrains k = true → s.env.due.testBit k = true)
    (j lo hi : Int) :
    exec (.thermDecision k j lo hi) s = .next ((s.decisionPoint k.val).setLevel k.val (s.thermLevel k.val j lo hi)) := by
  refine (State.whenUp_up hup).trans ?_
  unfold State.decisionPoint
  by_cases h : s.thermTrains k.val = true
  · rw [if_pos h, if_pos h, if_pos (hdue h)]
  · rw [if_neg h, if_neg h]
    generalize hu : s.advanceTo _ = u
    have hobj : u.obj = s.obj := funext fun i => by rw [← hu, State.obj_advanceTo]
    have hlevel : u.thermLevel k.val j lo hi = s.thermLevel k.val j lo hi := by
      unfold State.thermLevel State.objI16
      rw [hobj]
    dsimp only
    rw [hu, hlevel]

theorem State.thermLevel_eq (s : State) (k : Nat) (j lo hi : Int) : s.thermLevel k j lo hi =
    if s.objI16 Obj.pow_THERM_HOT ≤ j ∨ s.objI16 Obj.pow_STACK_HOT ≤ lo ∨ s.objI16 Obj.pow_STACK_HOT ≤ hi then
      min 5 (s.obj (Obj.pow_CLOCK_LEVEL k) + 1)
    else if j + s.obj Obj.pow_THERM_HYST ≤ s.objI16 Obj.pow_THERM_HOT ∧ lo + s.obj Obj.pow_THERM_HYST ≤ s.objI16 Obj.pow_STACK_HOT ∧
      hi + s.obj Obj.pow_THERM_HYST ≤ s.objI16 Obj.pow_STACK_HOT then s.obj (Obj.pow_CLOCK_LEVEL k) - 1
    else s.obj (Obj.pow_CLOCK_LEVEL k) := by
  simp only [State.thermLevel, le_sub_iff_add_le]

/-- What changes objects alone does so beside time and the environment. -/
theorem OnlyObjs.beside_env {ks : List Nat} {u t : State} (h : OnlyObjs ks u t) (hu : { u with ft := s.ft, env := s.env } = s) :
    OnlyObjs ks s { t with ft := s.ft, env := s.env } := by
  have hobj (k : Nat) : u.obj k = s.obj k := (congrArg (State.obj · k) hu :)
  refine ⟨?_, fun k hk => (h.2 k hk).trans (hobj k)⟩
  have hkept : { u with objs := s.objs, ft := s.ft, env := s.env } = s := (congrArg (fun x : State => { x with objs := s.objs }) hu :)
  exact (congrArg (fun x : State => { x with objs := s.objs, ft := s.ft, env := s.env }) h.1 :).trans hkept

/-! ### Critical temperatures (R437) -/

/-- A die's critical condition. -/
def State.setCrit (s : State) (k : Nat) (v : Option Nat) : State := { s with env := { s.env with crit := Sparse.set none s.env.crit k v } }

theorem State.crit_setCrit (s : State) (k : Nat) (v : Option Nat) : Sparse.get none (s.setCrit k v).env.crit k = v := by
  show Sparse.get none (Sparse.set none s.env.crit k v) k = v
  exact Sparse.get_set_same

/-- A critical condition that begins. -/
def State.critBegun (s : State) (k : Nat) : State :=
  (((s.setCrit k (some s.now)).setLevel k 5).bump Obj.pow_CRIT_EVENTS).advise 2 none 0x0C03 0xFFFF k

theorem exec_thermCrit {k : Fin 6} (hup : s.poweredUp = true) (j lo hi : Int) : exec (.thermCrit k j lo hi) s =
    .next (if 1050 ≤ j ∨ 950 ≤ lo ∨ 950 ≤ hi then
      (if (Sparse.get none s.env.crit k.val).isSome then s.setLevel k.val 5 else s.critBegun k.val)
    else s.setCrit k.val none) := by
  refine (State.whenUp_up hup).trans ?_
  dsimp only
  split
  · split <;> rfl
  · rfl

theorem State.critBegun_spec (s : State) {k : Nat} (hk : k < 6) : (s.critBegun k).obj (Obj.pow_CLOCK_LEVEL k) = 5 ∧
    (s.critBegun k).mem = s.mem ∧ (s.critBegun k).cores = s.cores ∧ Sparse.get none (s.critBegun k).env.crit k = some s.now ∧
    Counted Obj.pow_CRIT_EVENTS s (s.critBegun k) ∧
    (s.critBegun k).obj Obj.ring_WRITE_SEQ = (s.obj Obj.ring_WRITE_SEQ + 1) % 2 ^ 32 := by
  unfold State.critBegun
  obtain ⟨hlevel, ⟨hrest, hobjs⟩, -⟩ := (s.setCrit k (some s.now)).setLevel_spec k 5
  generalize (s.setCrit k (some s.now)).setLevel k 5 = u at hlevel hrest hobjs ⊢
  have hobj (i : Nat) (hi : i ≠ Obj.pow_CLOCK_LEVEL k) (hi' : i ≠ Obj.pow_LEVEL_CHANGES k) : u.obj i = s.obj i := hobjs i (by simp [hi, hi'])
  have hcount : Counted Obj.pow_CRIT_EVENTS s (u.bump Obj.pow_CRIT_EVENTS) := Counted.bump_of_obj_eq
    (hobj _ (by unfold Obj.pow_CRIT_EVENTS Obj.pow_CLOCK_LEVEL objKey; omega) (by unfold Obj.pow_CRIT_EVENTS Obj.pow_LEVEL_CHANGES objKey; omega))
  have hring : (u.bump Obj.pow_CRIT_EVENTS).obj Obj.ring_WRITE_SEQ = s.obj Obj.ring_WRITE_SEQ := by
    rw [State.obj_bump_other _ (by decide)]
    exact hobj _ (by unfold Obj.ring_WRITE_SEQ Obj.pow_CLOCK_LEVEL objKey; omega) (by unfold Obj.ring_WRITE_SEQ Obj.pow_LEVEL_CHANGES objKey; omega)
  have hlevel' : (u.bump Obj.pow_CRIT_EVENTS).obj (Obj.pow_CLOCK_LEVEL k) = 5 := by
    rw [State.obj_bump_other _ (by unfold Obj.pow_CRIT_EVENTS Obj.pow_CLOCK_LEVEL objKey; omega), hlevel]
  have hrest' := (OnlyObjs.bump u Obj.pow_CRIT_EVENTS).1
  generalize u.bump Obj.pow_CRIT_EVENTS = w at hcount hring hlevel' hrest' ⊢
  have ha := w.advise_advised 2 none 0x0C03 0xFFFF k
  generalize w.advise 2 none 0x0C03 0xFFFF k = t at ha ⊢
  have hmem : w.mem = s.mem := (congrArg State.mem hrest' :).trans (congrArg State.mem hrest :)
  have hcores : w.cores = s.cores := (congrArg State.cores hrest' :).trans (congrArg State.cores hrest :)
  have henv : t.env = (s.setCrit k (some s.now)).env :=
    (congrArg State.env ha.rest :).trans ((congrArg State.env hrest' :).trans (congrArg State.env hrest :))
  refine ⟨(ha.objs _ ?_).trans hlevel', ha.mem.trans hmem, ha.cores.trans hcores, ?_, (ha.objs _ ?_).trans hcount, by rw [ha.seq, hring]⟩
  · unfold RingKey Obj.pow_CLOCK_LEVEL objKey; omega
  · rw [henv, State.crit_setCrit]
  · unfold RingKey; decide

/-! ### Device-fatal limits and currents (R417, R435, R437) -/

/-- A device-fatal error leaves the device in fault (R376). -/
theorem State.raise_fatal (s : State) (fn : Nat) (parcel : Option Nat) (code unit detail : Nat) :
    (s.raise ⟨4, fn, parcel, code, unit, detail⟩).fatal = true ∧
    (s.raise ⟨4, fn, parcel, code, unit, detail⟩).obj Obj.dev_DEVICE_STATE = 2 := by
  have hsev : (s.enter ⟨4, fn, parcel, code, unit, detail⟩).2.1 = 4 := by
    simp [State.enter]
  have hraise : ∃ u : State, s.raise ⟨4, fn, parcel, code, unit, detail⟩ = u.deviceFatal := by
    unfold State.raise
    revert hsev
    generalize s.enter _ = x
    obtain ⟨u, sev, esc⟩ := x
    rintro rfl
    refine ⟨u, ?_⟩
    dsimp only
    rw [if_neg (by decide), if_neg (by decide), if_pos rfl]
  obtain ⟨u, hu⟩ := hraise
  rw [hu]
  unfold State.deviceFatal
  dsimp only
  generalize List.foldl _ _ (List.range 125) = w
  unfold State.setDeviceState
  split
  · exact ⟨rfl, ‹_›⟩
  · exact ⟨rfl, (State.obj_setObj_other _ _ (by decide)).trans (State.obj_setObj_same _ _ _)⟩

/-- The VIN12 regulators off. -/
def State.regulatorsOff (s : State) : State := { s with power := { s.power with regOn := false } }

theorem exec_thermShutdown {k : Fin 6} {j : Int} (hup : s.poweredUp = true)
    (h : 1150 ≤ j ∨ ∃ t0, Sparse.get none s.env.crit k.val = some t0 ∧ s.obj (Obj.pow_CLOCK_LEVEL k) = 5) :
    ∃ u : State, exec (.thermShutdown k j) s = .next (u.raise ⟨4, 2, none, 0x0C04, 0xFFFF, k.val⟩).regulatorsOff := by
  by_cases hj : 1150 ≤ j
  · exact ⟨s, (State.whenUp_up hup).trans (if_pos hj)⟩
  · obtain ⟨t0, hcrit, hlevel⟩ := h.resolve_left hj
    refine ⟨s.advanceTo (t0 + 1600000000), (State.whenUp_up hup).trans ((if_neg hj).trans ?_)⟩
    rw [hcrit]
    exact if_pos hlevel

theorem exec_supplyOut (h : s.fnState 2 = 3) : ∃ (u : State) (d : Nat), exec .supplyOut s = .next (u.raise ⟨4, 2, none, 0x0C01, 0xFFFF, d⟩) :=
  ⟨_, _, if_pos h⟩

/-- A current beyond the limits: the clocks halved, counted and entered. -/
def State.currentLimited (s : State) (d : Nat) : State :=
  (({ s with env := { s.env with slow := true } } : State).bump Obj.pow_OVERCURRENT_EVENTS).advise 2 none 0x0C02 0xFFFF d

theorem exec_overcurrent {a : Nat} (hup : s.poweredUp = true) (ha : 400000 < a) (hslow : s.env.slow = false) :
    ∃ d, exec (.overcurrent a) s = .next (s.fresh.2.currentLimited d) :=
  ⟨_, (State.whenUp_up hup).trans (if_pos ⟨ha, by rw [hslow]; rfl⟩)⟩

theorem State.currentLimited_spec (s : State) (d : Nat) : (s.currentLimited d).env = { s.env with slow := true } ∧
    Counted Obj.pow_OVERCURRENT_EVENTS s (s.currentLimited d) ∧
    (s.currentLimited d).obj Obj.ring_WRITE_SEQ = (s.obj Obj.ring_WRITE_SEQ + 1) % 2 ^ 32 ∧
    (s.currentLimited d).mem = s.mem ∧ (s.currentLimited d).cores = s.cores := by
  unfold State.currentLimited
  generalize hu : ({ s with env := _ } : State) = u
  have hobj (i : Nat) : u.obj i = s.obj i := by rw [← hu]; rfl
  have henv : u.env = { s.env with slow := true } := by rw [← hu]
  have hmem : u.mem = s.mem := by rw [← hu]
  have hcores : u.cores = s.cores := by rw [← hu]
  have hcount : Counted Obj.pow_OVERCURRENT_EVENTS s (u.bump Obj.pow_OVERCURRENT_EVENTS) := Counted.bump_of_obj_eq (hobj _)
  have hring : (u.bump Obj.pow_OVERCURRENT_EVENTS).obj Obj.ring_WRITE_SEQ = s.obj Obj.ring_WRITE_SEQ := by
    rw [State.obj_bump_other _ (by decide), hobj]
  have hrest := (OnlyObjs.bump u Obj.pow_OVERCURRENT_EVENTS).1
  generalize u.bump Obj.pow_OVERCURRENT_EVENTS = w at hcount hring hrest ⊢
  have ha := w.advise_advised 2 none 0x0C02 0xFFFF d
  generalize w.advise 2 none 0x0C02 0xFFFF d = t at ha ⊢
  exact ⟨(congrArg State.env ha.rest :).trans ((congrArg State.env hrest :).trans henv),
    (ha.objs _ (by unfold RingKey; decide)).trans hcount, by rw [ha.seq, hring], ha.mem.trans ((congrArg State.mem hrest :).trans hmem),
    ha.cores.trans ((congrArg State.cores hrest :).trans hcores)⟩

theorem le_ceilDiv_mul {b : Nat} (hb : 0 < b) (a : Nat) : a ≤ ceilDiv a b * b := by
  rw [ceilDiv, if_neg (by omega)]
  have := Nat.div_add_mod (a + b - 1) b
  have := Nat.mod_lt (a + b - 1) hb
  rw [Nat.mul_comm]
  omega

/-- The state in which a level run begins. -/
def State.levelStarted (s : State) (due : Nat) : State :=
  { s.advanceTo due with env := { (s.advanceTo due).env with levelOn := true, levelSched := some due } }

theorem exec_levelRunStart {step base due : Nat} (hstep : step = s.obj Obj.level_LEVEL_INTERVAL * 15625000 * 1024)
    (hbase : base = ceilDiv s.now step * step) (hdue : due = if s.env.levelSched = some base then base + step else base)
    (hup : s.poweredUp = true) : exec .levelRunStart s = .next (s.levelStarted due) := by
  subst hdue hbase hstep
  exact State.whenUp_up hup

theorem State.levelStarted_spec (s : State) {due : Nat} (hlt : due < 2 ^ 64) (hle : s.now ≤ due) : (s.levelStarted due).now = due ∧
    { s.levelStarted due with ft := s.ft, env := s.env } = s ∧
    (s.levelStarted due).env = { s.env with levelOn := true, levelSched := some due } := by
  have hnow := (State.now_advanceTo s hlt).trans (max_eq_right hle)
  have hrest := s.advanceTo_only due
  unfold State.levelStarted
  generalize s.advanceTo due = u at hnow hrest
  have henv : u.env = s.env := (congrArg State.env hrest :)
  exact ⟨hnow, (congrArg (fun u : State => { u with env := s.env }) hrest :), by rw [henv]⟩

theorem exec_levelNow {role : Role} (hm : s.mgmtUp = true) (hr : role ≠ .read) : exec (.levelNow role) s = .next s.levelNow :=
  congrArg Host.Outcome.next (State.write1_accepted hm (State.passes_command (r := ⟨2, 1, .cmd, .cmd, 0⟩) (by decide) rfl
    (mayWrite_fn hr (by decide)) rfl (by decide)) rfl (by decide) (o := some s.levelNow) rfl)

end

/-! ### Settlement -/

/-- Settles O51: each event by its own lemma, none of them in a device held in reset. -/
theorem levelRunsAndLimitsAct : Obligations.LevelRunsAndLimitsAct := by
  intro s
  refine ⟨fun step base due hstep h0 hbase hdue hlt hup => ?start, fun role hm hr => exec_levelNow hm hr, fun m hon => ?ends,
    fun k j lo hi hot stack hyst v new due hhot hstack hhyst hv hnew hdue hlt hup hpoint => ?decision, fun hup k j lo hi => ?critical,
    fun hup x hx => ?fatal, fun a ha hslow hup => ?current, fun hdown x hx => ?down, rfl⟩
  case start =>
    have hle : s.now ≤ due := by
      have hb : s.now ≤ base := hbase ▸ le_ceilDiv_mul h0 s.now
      rw [hdue]; split <;> omega
    exact ⟨_, exec_levelRunStart hstep hbase hdue hup, s.levelStarted_spec hlt hle⟩
  case ends =>
    obtain ⟨hlen, hdroop, htiming, htemp, hcls, hrate⟩ := s.levelValues_spec m rfl
    have hexec := exec_levelRunEnd hon m rfl hcls.symm rfl
    generalize (s.levelValues m).2 = v at hlen hdroop htiming htemp hrate hexec
    generalize hhist : ((v, (List.range 7).map fun i => levelClass i (v.getD i 0)) :: s.env.hist).take 9 = hist at hexec
    obtain ⟨henv, hmem, hcores, hft, hseen, hobjs⟩ := s.levelMeasured_spec hist m rfl
    generalize (s.levelEnded hist).laneObjects m = u at hexec henv hmem hcores hft hseen hobjs
    obtain ⟨hrest, hmargins, hclass, hcount, hlast, hadvice, hcause⟩ :=
      u.levelRecorded_spec ((List.range 7).map fun i => levelClass i (v.getD i 0)) hist hlen
    generalize u.levelRecorded v _ hist = t at hexec hrest hmargins hclass hcount hlast hadvice hcause
    have htenv : t.env = { s.env with levelOn := false, levelEnd := s.now, hist := hist, corr := [] } := (congrArg State.env hrest :).trans henv
    have hthist : t.env.hist = hist := by rw [htenv]
    have hruns : u.obj Obj.level_LEVEL_RUNS = s.obj Obj.level_LEVEL_RUNS := hobjs _ (by unfold LaneKey; decide)
    refine ⟨t, v, hexec, hlen, hdroop, htiming, htemp, hrate, hhist ▸ htenv, fun i hi => ?_, by rwa [Counted, hruns] at hcount,
      hlast.trans (congrArg BitVec.toNat hft), by rw [hthist, hadvice], by rw [hthist, hcause], (congrArg State.mem hrest :).trans hmem,
      (congrArg State.cores hrest :).trans hcores, (congrArg State.ft hrest :).trans hft, (congrArg State.corrSeen hrest :).trans hseen⟩
    obtain ⟨hmargin, htrend⟩ := hmargins i hi
    refine ⟨hmargin, by rw [htrend, hthist], ?_⟩
    rw [hclass]
    exact digit_classes (fun j => Nat.lt_of_le_of_lt (levelClass_le j _) (by decide)) hi
  case decision =>
    have hlevel := s.thermLevel_eq k j lo hi
    rw [← hhot, ← hstack, ← hhyst, ← hv, ← hnew] at hlevel
    have hexec := exec_thermDecision hup hpoint j lo hi
    rw [hlevel] at hexec
    have hrest := s.decisionPoint_rest k
    have hnow := State.now_decisionPoint hdue hlt
    have hbit : s.thermTrains k = true → (s.decisionPoint k).env.due.testBit k = false := fun h => by
      rw [State.decisionPoint, if_pos h]; exact (testBit_setBit s.env.due k false :)
    generalize s.decisionPoint k = u at hexec hrest hnow hbit
    obtain ⟨hclock, honly, hchanges⟩ := u.setLevel_spec k new
    have hobj (i : Nat) : u.obj i = s.obj i := (congrArg (State.obj · i) hrest :)
    rw [hobj, hobj, ← hv] at hchanges
    generalize u.setLevel k new = t at hexec hclock honly hchanges
    exact ⟨_, hexec, (congrArg State.now honly.1 :).trans hnow, hclock, honly.beside_env hrest, hchanges,
      fun h => (congrArg (fun x : State => x.env.due.testBit k) honly.1 :).trans (hbit h)⟩
  case critical =>
    have hexec := exec_thermCrit (k := k) hup j lo hi
    refine ⟨fun hlimit => ?reached, fun hj hlo hhi => ?below⟩
    case reached =>
      rw [if_pos hlimit] at hexec
      cases hcrit : Sparse.get none s.env.crit k.val with
      | none =>
        rw [hcrit, if_neg (by decide)] at hexec
        obtain ⟨hclock, hmem, hcores, hset, hcount, hring⟩ := s.critBegun_spec k.isLt
        exact ⟨_, hexec, hclock, hmem, hcores, fun _ => ⟨hset, hcount, hring⟩, fun h => absurd rfl h⟩
      | some t0 =>
        rw [hcrit, if_pos (by rfl)] at hexec
        obtain ⟨hclock, honly, -⟩ := s.setLevel_spec k 5
        exact ⟨_, hexec, hclock, (congrArg State.mem honly.1 :), (congrArg State.cores honly.1 :), fun h => absurd h (by simp), fun _ => honly⟩
    case below =>
      rw [if_neg (by omega)] at hexec
      exact ⟨_, hexec, rfl, s.crit_setCrit k none⟩
  case fatal =>
    obtain ⟨k, j, rfl, h⟩ | ⟨rfl, h⟩ := hx
    · obtain ⟨u, hexec⟩ := exec_thermShutdown hup h
      obtain ⟨hfatal, hstate⟩ := u.raise_fatal 2 none 0x0C04 0xFFFF k.val
      generalize u.raise _ = t at hexec hfatal hstate
      exact ⟨_, hexec, hfatal, hstate, fun _ => rfl⟩
    · obtain ⟨u, d, hexec⟩ := exec_supplyOut h
      obtain ⟨hfatal, hstate⟩ := u.raise_fatal 2 none 0x0C01 0xFFFF d
      exact ⟨_, hexec, hfatal, hstate, fun hne => absurd rfl hne⟩
  case current =>
    obtain ⟨d, hexec⟩ := exec_overcurrent hup ha hslow
    exact ⟨_, hexec, s.fresh.2.currentLimited_spec d⟩
  case down =>
    obtain rfl | ⟨k, j, lo, hi, rfl | rfl⟩ | ⟨k, j, rfl⟩ | ⟨a, rfl⟩ | ⟨temps, rfl⟩ := hx
    all_goals exact State.whenUp_down hdown

end Sys2Proof.Machine
end

section
/-! PROOF. Resets by supplies, RESET_N and the watchdog (R417, R418), and the boot stages (R419, R420). -/

namespace Sys2Proof.Machine

/-! ### Resets (R417, R418) -/

section
variable {s t : State} {c : Nat}

/-- An update cut short leaves its slot open, and nothing else. -/
theorem State.loseUpdate_rest (s : State) : { s.loseUpdate with flashLost := s.flashLost, freshCtr := s.freshCtr } = s := by
  unfold State.loseUpdate
  dsimp only
  split
  · split <;> rfl
  · rfl

/-- A reset of each cause. -/
theorem State.restart_restartedBy (s : State) (c : Nat) : Restarted c s (s.restart c) := by
  have hrest : ∃ u : State, { u with flashLost := s.flashLost, freshCtr := s.freshCtr } = s ∧ u = (if c = 2 then s else s.loseUpdate) := by
    refine ⟨_, ?_, rfl⟩
    split
    · rfl
    · exact s.loseUpdate_rest
  obtain ⟨u, hu, heq⟩ := hrest
  unfold State.restart
  rw [← heq]
  refine ⟨⟨rfl, rfl, rfl, rfl, rfl, rfl, rfl, rfl⟩, fun k => ?_, (congrArg State.sealed hu :), (congrArg State.flash hu :),
    (congrArg State.modules hu :), (congrArg State.sent hu :), (congrArg State.pending hu :)⟩
  rw [State.obj_setObj, State.obj_of_objs_nil rfl]

/-- Supplies and RESET_N are not among what a reset sets. -/
theorem Restarted.setPower (h : Restarted c s t) (p : PowerSt) : Restarted c s { t with power := p } := h

theorem Restarted.setRail (h : Restarted c s t) (r : Rail) (v : Bool) : Restarted c s (t.setRail r v) := by
  cases r <;> exact h

theorem State.railValid_setRail (s : State) (r : Rail) (v : Bool) : (s.setRail r v).railValid r = v := by
  cases r <;> rfl

theorem State.setRail_rest (s : State) (r : Rail) (v : Bool) : { (s.setRail r v).armBoot with power := s.power } = s ∧
    (s.setRail r v).armBoot.railValid r = v ∧ (s.setRail r v).armBoot.power.bootAt = s.now + 16000000 ∧
    (s.setRail r v).armBoot.power.resetN = s.power.resetN := by
  cases r <;> exact ⟨rfl, rfl, rfl, rfl⟩

end

/-! ### What the boot stages leave -/

/-- The flash, the sealed store and BOOT_STAGE are as they were. -/
structure BootKept (s t : State) : Prop where
  flash : t.flash = s.flash
  lost : t.flashLost = s.flashLost
  sealed : t.sealed = s.sealed
  stage : t.obj Obj.dev_BOOT_STAGE = s.obj Obj.dev_BOOT_STAGE

section
variable {s t u : State}

theorem BootKept.refl (s : State) : BootKept s s := ⟨rfl, rfl, rfl, rfl⟩

theorem BootKept.trans (h : BootKept s t) (g : BootKept t u) : BootKept s u :=
  ⟨g.flash.trans h.flash, g.lost.trans h.lost, g.sealed.trans h.sealed, g.stage.trans h.stage⟩

theorem BootKept.setObj (h : BootKept s t) {k : Nat} (v : Nat) (hk : Obj.dev_BOOT_STAGE ≠ k) : BootKept s (t.setObj k v) :=
  ⟨h.flash, h.lost, h.sealed, (State.obj_setObj_other t v hk).trans h.stage⟩

theorem BootKept.ite {c : Prop} [Decidable c] (h : BootKept s t) (g : BootKept s u) : BootKept s (if c then t else u) := by
  split
  · exact h
  · exact g

theorem BootKept.modTime (h : BootKept s t) (x : TimeSt) : BootKept s { t with time := x } := ⟨h.flash, h.lost, h.sealed, h.stage⟩

theorem BootKept.setFtInc (h : BootKept s t) (x : BitVec 48) : BootKept s { t with ftInc := x } := ⟨h.flash, h.lost, h.sealed, h.stage⟩

theorem BootKept.setFirstInit (h : BootKept s t) (x : Nat) : BootKept s { t with firstInit := x } := ⟨h.flash, h.lost, h.sealed, h.stage⟩

theorem BootKept.bumpChange (h : BootKept s t) : BootKept s t.bumpChange := h.setObj _ (by decide)

theorem BootKept.setDeviceState (h : BootKept s t) (v : Nat) : BootKept s (t.setDeviceState v) :=
  .ite h (h.setObj _ (by decide)).bumpChange

theorem BootKept.updDeviceState (h : BootKept s t) : BootKept s t.updDeviceState := .ite h (.ite (h.setDeviceState 1) (h.setDeviceState 0))

theorem BootKept.setTimeState (h : BootKept s t) (v : Nat) : BootKept s (t.setTimeState v) := by
  have hv := (h.setObj (k := Obj.time_TIME_STATE) v (by decide)).bumpChange
  exact .ite h (.ite ((hv.modTime _).setObj _ (by decide)) hv)

theorem BootKept.timeStop (h : BootKept s t) : BootKept s t.timeStop := by
  have hfree := ((h.modTime { TimeSt.reset with barred := t.time.barred }).setTimeState 0)
  have hfreq := (hfree.setFtInc (ftIncOf (satI 0 (-200000000) 200000000))).setObj (k := Obj.time_FREQ_ADJ) (wrap 32 (satI 0 (-200000000) 200000000))
    (by decide)
  have hdatum := (((hfreq.setObj (k := Obj.time_DATUM_PHYS) 0xFFFFFFFF (by decide)).setObj (k := Obj.time_DATUM_PRIO) 0xFF (by decide)).setObj
    (k := Obj.time_DATUM_DIST) 0xFF (by decide)).setObj (k := Obj.time_PARENT_PORT) 0xFF (by decide)
  exact (hdatum.setObj (k := Obj.time_OFFSET_EST) 0 (by decide)).setObj (k := Obj.time_SOURCE_STATE) 0 (by decide)

theorem BootKept.setFnState (h : BootKept s t) (f v : Nat) : BootKept s (t.setFnState f v) := by
  have key (i : Nat) (hi : i < 256) : Obj.dev_BOOT_STAGE ≠ objKey (0x2100 + f) i := by unfold Obj.dev_BOOT_STAGE objKey; omega
  unfold State.setFnState
  refine .ite h ?_
  extract_lets s1 s2 s3 s4 s5 s6 s7 s8
  have h2 : BootKept s s2 := (h.setObj _ (key _ (by decide))).setObj _ (key _ (by decide))
  have h3 : BootKept s s3 := .ite (h2.setObj _ (key _ (by decide))) h2
  have h4 : BootKept s s4 := .ite (h3.setObj _ (key _ (by decide))) h3
  have h6 : BootKept s s6 := (h4.setObj _ (by decide)).setObj _ (by decide)
  have h7 : BootKept s s7 := .ite h6.timeStop h6
  have h8 : BootKept s s8 := .ite (h7.setFirstInit _) h7
  exact h8.bumpChange.updDeviceState

theorem BootKept.toInit (h : BootKept s t) (f : Nat) : BootKept s (t.toInit f) := .ite (h.setFnState f 1) h

theorem BootKept.of_onlyKeys {P : Nat → Prop} (h : OnlyKeys P s t) (hP : ¬ P Obj.dev_BOOT_STAGE) : BootKept s t :=
  ⟨(congrArg State.flash h.1 :), (congrArg State.flashLost h.1 :), (congrArg State.sealed h.1 :), h.2 _ hP⟩

end

/-! ### Functions that move from OFF to INIT (R395) -/

section
variable {s : State} {f g : Nat}

theorem State.toInit_steady (s : State) (f : Nat) : Steady (FnKey f) s (s.toInit f) :=
  .ite ((Steady.refl _ s).setFnState (fun _ h => h) 1) (.refl _ s)

theorem State.fnState_toInit (h : s.fnState f = 0) : (s.toInit f).fnState f = 1 := by
  rw [State.toInit, if_pos h, State.fnState_setFnState]

theorem State.fnState_toInit_other (h : g ≠ f) : (s.toInit f).fnState g = s.fnState g :=
  (s.toInit_steady f).objs _ (not_fnKey (by unfold Obj.fn_STATE objKey; omega) (by unfold Obj.fn_STATE objKey; omega)
    (by unfold Obj.fn_STATE objKey; omega))

end

/-! ### Images (R421, R422) -/

/-- The flash and what an image is checked against are as they were. -/
structure SameImages (s t : State) : Prop where
  flash : t.flash = s.flash
  lost : t.flashLost = s.flashLost
  root : t.sealed.root = s.sealed.root
  ops : t.sealed.ops = s.sealed.ops
  counters : t.sealed.counters = s.sealed.counters
  slots : t.sealed.bootSlot = s.sealed.bootSlot

section
variable {s t : State}

theorem BootKept.sameImages (h : BootKept s t) : SameImages s t :=
  ⟨h.flash, h.lost, congrArg Sealed.root h.sealed, congrArg Sealed.ops h.sealed, congrArg Sealed.counters h.sealed,
    congrArg Sealed.bootSlot h.sealed⟩

section
variable (h : SameImages s t)
include h

theorem SameImages.flashBytes : t.flashBytes = s.flashBytes := by
  have hbyte : t.flashByte = s.flashByte := by funext a; unfold State.flashByte; rw [h.flash, h.lost]
  funext a n; unfold State.flashBytes; rw [hbyte]

theorem SameImages.flashNat : t.flashNat = s.flashNat := by funext a n; unfold State.flashNat; rw [h.flashBytes]

theorem SameImages.dirEntry : t.dirEntry = s.dirEntry := by
  have hvalid : t.dirValid = s.dirValid := by funext a; unfold State.dirValid; rw [h.flashNat, h.flashBytes]
  have hat : t.dirAt = s.dirAt := by unfold State.dirAt; rw [hvalid, h.flashNat]
  funext type slot; unfold State.dirEntry; rw [hat, h.flashNat]

theorem SameImages.imageOf : t.imageOf = s.imageOf := by
  funext type slot; unfold State.imageOf; rw [h.dirEntry, h.flashNat, h.flashBytes]

theorem SameImages.imageCheck : t.imageCheck = s.imageCheck := by
  have hsigner : t.signerKey = s.signerKey := by funext i type; unfold State.signerKey; rw [h.ops, h.root]
  funext type slot; unfold State.imageCheck; rw [h.imageOf, hsigner, h.counters]

theorem SameImages.bootSlot : t.bootSlot = s.bootSlot := by funext type; unfold State.bootSlot; rw [h.slots]

end

/-- The objects that selecting an image may change: the ring and FALLBACK. -/
def SelectKey (k : Nat) : Prop := RingKey k ∨ k = Obj.sec_FALLBACK

theorem Advised.onlyKeys (h : Advised s t) : OnlyKeys SelectKey s t := ⟨h.rest, fun k hk => h.objs k fun hr => hk (.inl hr)⟩

theorem State.imageFailed_only (s : State) (type slot code : Nat) : OnlyKeys SelectKey s (s.imageFailed type slot code) :=
  (s.advise_advised 1 none (0x0B00 + code) 0xFFFF (imgDetail type slot)).onlyKeys

theorem OnlyKeys.sameImages (h : OnlyKeys SelectKey s t) : SameImages s t :=
  (BootKept.of_onlyKeys h (by unfold SelectKey RingKey; decide)).sameImages

theorem State.selectImage_only (s : State) (type : Nat) : OnlyKeys SelectKey s (s.selectImage type).1 := by
  unfold State.selectImage
  dsimp only
  by_cases ha : s.imageCheck type (s.bootSlot type) = 0
  · rw [if_pos ha]; exact .refl _ s
  · rw [if_neg ha]
    have hfirst := s.imageFailed_only type (s.bootSlot type) (s.imageCheck type (s.bootSlot type))
    generalize s.imageFailed type (s.bootSlot type) (s.imageCheck type (s.bootSlot type)) = u at hfirst ⊢
    by_cases hb : u.imageCheck type (1 - s.bootSlot type) = 0
    · rw [if_pos hb]
      exact (hfirst.setObj _ (.inr rfl)).trans (State.imageFailed_only _ _ _ _)
    · rw [if_neg hb]
      exact hfirst.trans (State.imageFailed_only _ _ _ _)

theorem State.selectImage_verified {type : Nat} (h : s.imageCheck type (s.bootSlot type) = 0) :
    s.selectImage type = (s, (s.imageOf type (s.bootSlot type)).map (fun i => (s.bootSlot type, i))) := if_pos h

theorem State.selectImage_none {type : Nat} (h : s.imageCheck type (s.bootSlot type) ≠ 0) (h' : s.imageCheck type (1 - s.bootSlot type) ≠ 0) :
    (s.selectImage type).2 = none := by
  have hfirst := (s.imageFailed_only type (s.bootSlot type) (s.imageCheck type (s.bootSlot type))).sameImages.imageCheck
  unfold State.selectImage
  dsimp only
  rw [if_neg h]
  generalize s.imageFailed type (s.bootSlot type) (s.imageCheck type (s.bootSlot type)) = u at hfirst ⊢
  rw [if_neg (by rwa [hfirst])]

end

/-! ### A stage's image noted and measured (R419, R427) -/

/-- An image noted and measured into Mm. -/
def State.imageNoted (s : State) (type slot m : Nat) (i : Image) (d : Bytes) : State := (s.noteImage type slot i.svn).extend m d

theorem State.imageNoted_spec (s : State) (type slot m : Nat) (i : Image) (d : Bytes) :
    { s.imageNoted type slot m i d with objs := s.objs, sec := s.sec } = s ∧
    (∀ k, k ≠ Obj.sec_MEASURE m → k ≠ Obj.sec_EXTENDS m → (s.imageNoted type slot m i d).obj k = s.obj k) ∧
    (s.imageNoted type slot m i d).measure m = sm3 (s.measure m ++ d) ∧
    (s.imageNoted type slot m i d).sec = { s.sec with running := Sparse.set none s.sec.running type (some (slot, i.svn)) } := by
  have hmeasure := (s.noteImage type slot i.svn).measure_extend m d
  obtain ⟨hrest, hobjs⟩ := (s.noteImage type slot i.svn).extend_only m d
  unfold State.imageNoted
  generalize (s.noteImage type slot i.svn).extend m d = t at hmeasure hrest hobjs ⊢
  exact ⟨(congrArg (fun u : State => { u with objs := s.objs, sec := s.sec }) hrest :), fun k hk hk' => hobjs k (by simp [hk, hk']), hmeasure,
    (congrArg State.sec hrest :)⟩

/-! ### Stage 1 (R419, R420, R423, R427) -/

section
variable {s : State}

theorem State.mayEnter_iff {n : Nat} : s.mayEnter n = true ↔
    s.poweredUp = true ∧ s.fatal = false ∧ s.obj Obj.dev_BOOT_STAGE + 1 = n ∧ s.sec.stageDone + 1 = n := by
  simp [State.mayEnter, and_assoc]

/-- Stage 1 with its boot counted and M0 extended. -/
def State.bootCounted (s : State) : State := ((s.advanceTo s.power.bootAt).enterStage 1).countBoot.extend 0 (sm3 s.sealedPublic)

/-- What an image of the management firmware leaves, or none. -/
def State.managementLoaded (s : State) : Option (Nat × Image) → State
  | some (slot, i) => ((s.setObj Obj.id_FIRMWARE_VERSION i.version).imageNoted 1 slot 1 i (sm3 i.msg)).finishStage 1
  | none => s

theorem exec_bootStage1 (hmay : s.mayEnter 1 = true) (hstore : s.sealed.damaged = 0) :
    exec .bootStage1 s = .next ((s.bootCounted.selectImage 1).1.managementLoaded (s.bootCounted.selectImage 1).2) := by
  have hfatal : s.fatal = false := (State.mayEnter_iff.1 hmay).2.1
  refine (if_pos hmay).trans ?_
  have hkept := s.advanceTo_only s.power.bootAt
  have hcounted : ((s.advanceTo s.power.bootAt).enterStage 1).countBoot.extend 0
      (sm3 ((s.advanceTo s.power.bootAt).enterStage 1).countBoot.sealedPublic) = s.bootCounted := by
    have hsealed : (s.advanceTo s.power.bootAt).sealed = s.sealed := (congrArg State.sealed hkept :)
    have hpublic : ((s.advanceTo s.power.bootAt).enterStage 1).countBoot.sealedPublic = s.sealedPublic := by
      show (s.advanceTo s.power.bootAt).sealed.root ++ leBytes 4 ((s.advanceTo s.power.bootAt).sealed.physId % 2 ^ 21) ++
        (s.advanceTo s.power.bootAt).sealed.counters.flatMap (leBytes 4) = _
      rw [hsealed]; rfl
    rw [hpublic, State.bootCounted]
  have hcheck : ((s.advanceTo s.power.bootAt).enterStage 1).checkStore = (s.advanceTo s.power.bootAt).enterStage 1 :=
    if_pos ((congrArg (fun u : State => u.sealed.damaged) hkept :).trans hstore)
  have hopen : ((s.advanceTo s.power.bootAt).enterStage 1).fatal = false := (congrArg State.fatal hkept :).trans hfatal
  rw [hcheck]
  dsimp only
  rw [hopen, if_neg Bool.false_ne_true, hcounted]
  generalize s.bootCounted.selectImage 1 = x
  obtain ⟨w, _ | ⟨slot, i⟩⟩ := x <;> rfl

theorem State.bootCounted_spec (s : State) (hlt : s.power.bootAt < 2 ^ 64) : s.bootCounted.obj Obj.dev_BOOT_STAGE = 1 ∧
    s.bootCounted.now = max s.now s.power.bootAt ∧
    s.bootCounted.sealed = { s.sealed with bootCount := (s.sealed.bootCount + 1) % 2 ^ 32 } ∧
    s.bootCounted.measure 0 = sm3 (s.measure 0 ++ sm3 s.sealedPublic) ∧ s.bootCounted.measure 1 = s.measure 1 ∧
    s.bootCounted.mem = s.mem ∧ s.bootCounted.cores = s.cores ∧ s.bootCounted.sec = s.sec ∧ SameImages s s.bootCounted := by
  have hnow := State.now_advanceTo s hlt
  have hkept := s.advanceTo_only s.power.bootAt
  unfold State.bootCounted
  generalize s.advanceTo s.power.bootAt = u at hnow hkept ⊢
  have hobj (k : Nat) : u.obj k = s.obj k := (congrArg (State.obj · k) hkept :)
  have hsealed : u.sealed = s.sealed := (congrArg State.sealed hkept :)
  have hkeep (k : Nat) (hk : k ≠ Obj.dev_BOOT_STAGE) : (u.enterStage 1).countBoot.obj k = s.obj k :=
    (State.obj_setObj_other u 1 hk).trans (hobj k)
  have hmeasure : (u.enterStage 1).countBoot.measure 0 = s.measure 0 := congrArg (leBytes 32) (hkeep _ (by decide))
  have hextended := (u.enterStage 1).countBoot.measure_extend 0 (sm3 s.sealedPublic)
  obtain ⟨hrest, hobjs⟩ := (u.enterStage 1).countBoot.extend_only 0 (sm3 s.sealedPublic)
  generalize (u.enterStage 1).countBoot.extend 0 (sm3 s.sealedPublic) = t at hextended hrest hobjs ⊢
  have hcount : (u.enterStage 1).countBoot.sealed = { s.sealed with bootCount := (s.sealed.bootCount + 1) % 2 ^ 32 } := by
    rw [← hsealed]; rfl
  have hft : (u.enterStage 1).countBoot.ft = u.ft := rfl
  have htime : t.now = u.now := congrArg BitVec.toNat ((congrArg State.ft hrest :).trans hft)
  have htsealed := (congrArg State.sealed hrest :).trans hcount
  have hstage : (u.enterStage 1).countBoot.obj Obj.dev_BOOT_STAGE = 1 := State.obj_setObj_same u Obj.dev_BOOT_STAGE 1
  refine ⟨(hobjs _ (by decide)).trans hstage, htime.trans hnow, htsealed,
    hextended.trans (by rw [hmeasure]), congrArg (leBytes 32) ((hobjs _ (by decide)).trans (hkeep _ (by decide))),
    (congrArg State.mem hrest :).trans (congrArg State.mem hkept :), (congrArg State.cores hrest :).trans (congrArg State.cores hkept :),
    (congrArg State.sec hrest :).trans (congrArg State.sec hkept :), ?_⟩
  exact ⟨(congrArg State.flash hrest :).trans (congrArg State.flash hkept :), (congrArg State.flashLost hrest :).trans
    (congrArg State.flashLost hkept :), (congrArg Sealed.root htsealed :), (congrArg Sealed.ops htsealed :), (congrArg Sealed.counters htsealed :),
    (congrArg Sealed.bootSlot htsealed :)⟩

theorem State.managementLoaded_only (s : State) (o : Option (Nat × Image)) :
    { s.managementLoaded o with objs := s.objs, sec := s.sec } = s ∧
    ∀ k, k ≠ Obj.id_FIRMWARE_VERSION → k ≠ Obj.sec_MEASURE 1 → k ≠ Obj.sec_EXTENDS 1 → (s.managementLoaded o).obj k = s.obj k := by
  cases o with
  | none => exact ⟨rfl, fun _ _ _ _ => rfl⟩
  | some x =>
    obtain ⟨slot, i⟩ := x
    dsimp only [State.managementLoaded]
    obtain ⟨hset, hother⟩ := (OnlyObjs.refl [Obj.id_FIRMWARE_VERSION] s).setObj i.version (List.mem_singleton_self _)
    generalize s.setObj Obj.id_FIRMWARE_VERSION i.version = u at hset hother ⊢
    obtain ⟨hrest, hobjs, -, -⟩ := u.imageNoted_spec 1 slot 1 i (sm3 i.msg)
    generalize u.imageNoted 1 slot 1 i (sm3 i.msg) = t at hrest hobjs ⊢
    exact ⟨(congrArg (fun x : State => { x with objs := s.objs, sec := s.sec }) hrest :).trans
        (congrArg (fun x : State => { x with sec := s.sec }) hset :),
      fun k hk hk' hk'' => (hobjs k hk' hk'').trans (hother k (by simpa using hk))⟩

/-- A management image that verifies: stage 1 is done, its version and measurement noted. -/
theorem State.managementLoaded_some (s : State) (slot : Nat) (i : Image) :
    (s.managementLoaded (some (slot, i))).sec.stageDone = 1 ∧
    (s.managementLoaded (some (slot, i))).obj Obj.id_FIRMWARE_VERSION = i.version ∧
    (s.managementLoaded (some (slot, i))).measure 1 = sm3 (s.measure 1 ++ sm3 i.msg) ∧
    Sparse.get none (s.managementLoaded (some (slot, i))).sec.running 1 = some (slot, i.svn) := by
  dsimp only [State.managementLoaded]
  obtain ⟨-, hobjs, hmeasure, hsec⟩ := (s.setObj Obj.id_FIRMWARE_VERSION i.version).imageNoted_spec 1 slot 1 i (sm3 i.msg)
  have hkept : (s.setObj Obj.id_FIRMWARE_VERSION i.version).measure 1 = s.measure 1 :=
    congrArg (leBytes 32) (State.obj_setObj_other s _ (by decide))
  generalize (s.setObj Obj.id_FIRMWARE_VERSION i.version).imageNoted 1 slot 1 i (sm3 i.msg) = t at hobjs hmeasure hsec ⊢
  refine ⟨rfl, (hobjs _ (by decide) (by decide)).trans (State.obj_setObj_same s _ _), hmeasure.trans (by rw [hkept]), ?_⟩
  show Sparse.get none t.sec.running 1 = some (slot, i.svn)
  rw [hsec]
  show Sparse.get none (Sparse.set none s.sec.running 1 (some (slot, i.svn))) 1 = some (slot, i.svn)
  exact Sparse.get_set_same

end

section
variable {s t : State} (ht : t = (s.selectImage 1).1.managementLoaded (s.selectImage 1).2)
include ht

theorem State.managementBooted_only : { t with objs := s.objs, sec := s.sec } = s ∧
    ∀ k, ¬ SelectKey k → k ≠ Obj.id_FIRMWARE_VERSION → k ≠ Obj.sec_MEASURE 1 → k ≠ Obj.sec_EXTENDS 1 → t.obj k = s.obj k := by
  subst ht
  obtain ⟨hsel, hselObjs⟩ := s.selectImage_only 1
  generalize s.selectImage 1 = x at hsel hselObjs ⊢
  obtain ⟨hload, hloadObjs⟩ := x.1.managementLoaded_only x.2
  generalize x.1.managementLoaded x.2 = t at hload hloadObjs ⊢
  exact ⟨(congrArg (fun u : State => { u with objs := s.objs, sec := s.sec }) hload :).trans
      (congrArg (fun u : State => { u with sec := s.sec }) hsel :),
    fun k hk hfw hm he => (hloadObjs k hfw hm he).trans (hselObjs k hk)⟩

theorem State.managementBooted_verified {i : Image} (h : s.imageCheck 1 (s.bootSlot 1) = 0) (hof : s.imageOf 1 (s.bootSlot 1) = some i) :
    t.sec.stageDone = 1 ∧ t.obj Obj.id_FIRMWARE_VERSION = i.version ∧ t.measure 1 = sm3 (s.measure 1 ++ sm3 i.msg) ∧
      Sparse.get none t.sec.running 1 = some (s.bootSlot 1, i.svn) := by
  subst ht
  rw [State.selectImage_verified h, hof]
  exact s.managementLoaded_some (s.bootSlot 1) i

theorem State.managementBooted_none (h : s.imageCheck 1 (s.bootSlot 1) ≠ 0) (h' : s.imageCheck 1 (1 - s.bootSlot 1) ≠ 0) : t.sec = s.sec := by
  subst ht
  have hsel := (s.selectImage_only 1).1
  rw [State.selectImage_none h h']
  exact (congrArg State.sec hsel :)

end

/-! ### Stages 2 to 6 (R419, R427, R429) -/

/-- The objects that moves of functions change: of the functions, of time and of the device. -/
def MoveKey (k : Nat) : Prop := k / 256 = 0x1100 ∨ k / 256 = 0x2000 ∨ 0x2100 ≤ k / 256 ∧ k / 256 < 0x2110

section
variable {s : State}

/-- Functions that move from OFF to INIT one after another. -/
theorem State.foldl_toInit {l : List Nat} (hl : l.Nodup) (hlt : ∀ f ∈ l, f < 16) (s : State) :
    Steady MoveKey s (l.foldl State.toInit s) ∧ BootKept s (l.foldl State.toInit s) ∧
    (∀ g, g ∉ l → (l.foldl State.toInit s).fnState g = s.fnState g) ∧
    ∀ f ∈ l, s.fnState f = 0 → (l.foldl State.toInit s).fnState f = 1 := by
  induction l generalizing s with
  | nil => exact ⟨.refl _ s, .refl s, fun _ _ => rfl, fun _ h => absurd h List.not_mem_nil⟩
  | cons f l ih =>
    obtain ⟨hf, hl⟩ := List.nodup_cons.1 hl
    obtain ⟨hsteady, hboot, hother, hinit⟩ := ih hl (fun g hg => hlt g (List.mem_cons_of_mem _ hg)) (s.toInit f)
    have hpage : Steady MoveKey s (s.toInit f) := (s.toInit_steady f).mono fun k hk => by
      have := hlt f (List.mem_cons_self ..)
      simp only [FnKey, FollowKey, TimeKey, Obj.fn_STARTS, Obj.fn_FAULT_ENTRIES, Obj.fn_STATE, Obj.fn_LAST_CHANGE, objKey] at hk
      unfold MoveKey; omega
    refine ⟨hpage.trans hsteady, ((BootKept.refl s).toInit f).trans hboot, fun g hg => ?_, fun g hg h0 => ?_⟩
    · have hgf : g ≠ f := fun e => hg (e ▸ List.mem_cons_self ..)
      exact (hother g fun h => hg (List.mem_cons_of_mem _ h)).trans (State.fnState_toInit_other hgf)
    · obtain rfl | hgl := List.mem_cons.1 hg
      · exact (hother g hf).trans (State.fnState_toInit h0)
      · exact hinit g hgl ((State.fnState_toInit_other fun e : g = f => hf (e ▸ hgl)).trans h0)

/-- A stage entered, whose functions move to INIT. -/
theorem State.enterStage_foldl_toInit {l : List Nat} (hl : l.Nodup) (hlt : ∀ f ∈ l, f < 16) (s : State) (n : Nat) {t : State}
    (ht : t = l.foldl State.toInit (s.enterStage n)) : t.obj Obj.dev_BOOT_STAGE = n ∧ t.mem = s.mem ∧ t.cores = s.cores ∧ t.sealed = s.sealed ∧
    SameImages s t ∧ (∀ k, ¬ MoveKey k → t.obj k = s.obj k) ∧ ∀ f ∈ l, s.fnState f = 0 → t.fnState f = 1 := by
  subst ht
  obtain ⟨hsteady, hboot, -, hinit⟩ := State.foldl_toInit hl hlt (s.enterStage n)
  have hstage : (s.enterStage n).obj Obj.dev_BOOT_STAGE = n := State.obj_setObj_same s _ _
  have hkeep (k : Nat) (hk : k ≠ Obj.dev_BOOT_STAGE) : (s.enterStage n).obj k = s.obj k := State.obj_setObj_other s _ hk
  have himages := hboot.sameImages
  generalize l.foldl State.toInit (s.enterStage n) = t at hsteady hboot hinit himages ⊢
  refine ⟨hboot.stage.trans hstage, hsteady.mem, hsteady.cores, hboot.sealed, ⟨himages.flash, himages.lost, himages.root, himages.ops,
    himages.counters, himages.slots⟩, fun k hk => (hsteady.objs k hk).trans (hkeep k fun e => hk ?_), fun f hf h0 => hinit f hf ?_⟩
  · subst e; unfold MoveKey; decide
  · exact (hkeep _ (by unfold Obj.fn_STATE Obj.dev_BOOT_STAGE objKey; omega)).trans h0

/-! ### Images loaded (R419, R427) -/

theorem State.loadImage_some {type m : Nat} {x : Nat × Image} (h : (s.selectImage type).2 = some x) :
    s.loadImage type m = ((s.selectImage type).1.imageNoted type x.1 m x.2 (sm3 x.2.bytes), some x.2) := by
  unfold State.loadImage
  revert h
  generalize s.selectImage type = y
  obtain ⟨w, o⟩ := y
  rintro rfl
  rfl

theorem State.loadImage_none {type m : Nat} (h : (s.selectImage type).2 = none) : s.loadImage type m = ((s.selectImage type).1, none) := by
  unfold State.loadImage
  revert h
  generalize s.selectImage type = y
  obtain ⟨w, o⟩ := y
  rintro rfl
  rfl

theorem State.loadImage_verified {type m : Nat} {i : Image} (h : s.imageCheck type (s.bootSlot type) = 0)
    (hof : s.imageOf type (s.bootSlot type) = some i) :
    s.loadImage type m = (s.imageNoted type (s.bootSlot type) m i (sm3 i.bytes), some i) := by
  have hsel := State.selectImage_verified h
  rw [hof] at hsel
  rw [State.loadImage_some (congrArg Prod.snd hsel), hsel]

theorem State.loadImage_only (s : State) (type m : Nat) : { (s.loadImage type m).1 with objs := s.objs, sec := s.sec } = s ∧
    ∀ k, ¬ SelectKey k → k ≠ Obj.sec_MEASURE m → k ≠ Obj.sec_EXTENDS m → (s.loadImage type m).1.obj k = s.obj k := by
  obtain ⟨hsel, hobjs⟩ := s.selectImage_only type
  cases hx : (s.selectImage type).2 with
  | none =>
    rw [State.loadImage_none hx]
    dsimp only
    generalize (s.selectImage type).1 = u at hsel hobjs ⊢
    exact ⟨(congrArg (fun u : State => { u with sec := s.sec }) hsel :), fun k hk _ _ => hobjs k hk⟩
  | some x =>
    rw [State.loadImage_some hx]
    dsimp only
    generalize (s.selectImage type).1 = u at hsel hobjs ⊢
    obtain ⟨hrest, hother, -, -⟩ := u.imageNoted_spec type x.1 m x.2 (sm3 x.2.bytes)
    generalize u.imageNoted type x.1 m x.2 (sm3 x.2.bytes) = t at hrest hother ⊢
    exact ⟨(congrArg (fun u : State => { u with objs := s.objs, sec := s.sec }) hrest :).trans
        (congrArg (fun u : State => { u with sec := s.sec }) hsel :),
      fun k hk hk' hk'' => (hother k hk' hk'').trans (hobjs k hk)⟩

/-! ### The signed configuration and the attestation key (R424, R429) -/

theorem State.applyConfig_none (h0 : s.dirEntry 3 0 = none) (h1 : s.dirEntry 3 1 = none) : s.applyConfig = (s, none) := by
  unfold State.applyConfig
  rw [h0, h1]; rfl

theorem State.certify_rest (s : State) : { s.certify with sec := s.sec, freshCtr := s.freshCtr } = s := rfl

theorem State.factoryNet_sameImages (s : State) : SameImages s s.factoryNet := by
  obtain ⟨hrest, -⟩ : OnlyObjs [Obj.mgmt_MGMT_MAC, Obj.mgmt_MGMT_ADDR] s s.factoryNet :=
    ((OnlyObjs.refl _ s).setObj _ (by simp)).setObj _ (by simp)
  have hsealed : s.factoryNet.sealed = s.sealed := (congrArg State.sealed hrest :)
  exact ⟨(congrArg State.flash hrest :), (congrArg State.flashLost hrest :), congrArg Sealed.root hsealed, congrArg Sealed.ops hsealed,
    congrArg Sealed.counters hsealed, congrArg Sealed.bootSlot hsealed⟩

/-- The management addresses and CONFIG_DIGEST without a configuration. -/
def State.configAbsent (s : State) : State := s.factoryNet.setObj Obj.id_CONFIG_DIGEST 0

theorem State.configAbsent_only (s : State) : OnlyObjs [Obj.mgmt_MGMT_MAC, Obj.mgmt_MGMT_ADDR, Obj.id_CONFIG_DIGEST] s s.configAbsent :=
  (((OnlyObjs.refl _ s).setObj _ (by simp)).setObj _ (by simp)).setObj _ (by simp)

theorem State.obj_configAbsent (s : State) : s.configAbsent.obj Obj.mgmt_MGMT_MAC = leNat s.sealed.mac ∧
    s.configAbsent.obj Obj.id_CONFIG_DIGEST = 0 :=
  ⟨(State.obj_setObj_other _ _ (by decide)).trans ((State.obj_setObj_other _ _ (by decide)).trans (State.obj_setObj_same s _ _)),
    State.obj_setObj_same _ _ _⟩

/-! ### The stages' commands -/

/-- Stage 2 without a configuration, `u` the state after the moves of its functions. -/
def State.unconfigured (u : State) : State := (u.configAbsent.extend 2 (List.replicate 32 0)).certify.finishStage 2

theorem exec_bootStage2_of {u : State} (hmay : s.mayEnter 2 = true) (hu : ((s.enterStage 2).toInit 0).toInit 1 = u)
    (hnone : u.factoryNet.applyConfig = (u.factoryNet, none)) : exec .bootStage2 s = .next u.unconfigured := by
  refine (if_pos hmay).trans ?_
  rw [hu, hnone]
  rfl

theorem exec_bootStage2 (hmay : s.mayEnter 2 = true) (h0 : s.dirEntry 3 0 = none) (h1 : s.dirEntry 3 1 = none) {u : State}
    (hu : [0, 1].foldl State.toInit (s.enterStage 2) = u) (himages : SameImages s u) : exec .bootStage2 s = .next u.unconfigured := by
  have hnet := u.factoryNet_sameImages
  exact exec_bootStage2_of hmay hu
    (State.applyConfig_none (by rw [hnet.dirEntry, himages.dirEntry, h0]) (by rw [hnet.dirEntry, himages.dirEntry, h1]))

theorem State.unconfigured_spec (u : State) : u.unconfigured.obj Obj.dev_BOOT_STAGE = u.obj Obj.dev_BOOT_STAGE ∧
    u.unconfigured.sec.stageDone = 2 ∧ u.unconfigured.obj Obj.id_CONFIG_DIGEST = 0 ∧
    u.unconfigured.measure 2 = sm3 (u.measure 2 ++ List.replicate 32 0) ∧ u.unconfigured.obj Obj.mgmt_MGMT_MAC = leNat u.sealed.mac ∧
    (∀ f, u.unconfigured.fnState f = u.fnState f) ∧ u.unconfigured.mem = u.mem ∧ u.unconfigured.cores = u.cores := by
  unfold State.unconfigured
  obtain ⟨hnet, hnetObjs⟩ := u.configAbsent_only
  obtain ⟨hmac, hdigest⟩ := u.obj_configAbsent
  generalize u.configAbsent = w at hnet hnetObjs hmac hdigest ⊢
  have hmeasure := w.measure_extend 2 (List.replicate 32 0)
  obtain ⟨hext, hextObjs⟩ := w.extend_only 2 (List.replicate 32 0)
  generalize w.extend 2 (List.replicate 32 0) = x at hmeasure hext hextObjs ⊢
  have hcert := x.certify_rest
  generalize x.certify = t at hcert ⊢
  have hx (k : Nat) : t.obj k = x.obj k := (congrArg (State.obj · k) hcert :)
  have hobj (k : Nat) (hk : k ∉ [Obj.sec_MEASURE 2, Obj.sec_EXTENDS 2]) : (t.finishStage 2).obj k = w.obj k := (hx k).trans (hextObjs k hk)
  have hw : w.measure 2 = u.measure 2 := congrArg (leBytes 32) (hnetObjs _ (by decide))
  have ht : (t.finishStage 2).measure 2 = x.measure 2 := congrArg (leBytes 32) (hx _)
  refine ⟨(hobj _ (by decide)).trans (hnetObjs _ (by decide)), rfl, (hobj _ (by decide)).trans hdigest, by rw [ht, hmeasure, hw],
    (hobj _ (by decide)).trans hmac, fun f => ?_, ?_, ?_⟩
  · have key (a b : Nat) (ha : a < 0x2100) (hb : b < 256) : Obj.fn_STATE f ≠ objKey a b := by unfold Obj.fn_STATE objKey; omega
    exact (hobj _ (by simp [Obj.sec_MEASURE, Obj.sec_EXTENDS, key])).trans
      (hnetObjs _ (by simp [Obj.mgmt_MGMT_MAC, Obj.mgmt_MGMT_ADDR, Obj.id_CONFIG_DIGEST, key]))
  · exact (congrArg State.mem hcert :).trans ((congrArg State.mem hext :).trans (congrArg State.mem hnet :))
  · exact (congrArg State.cores hcert :).trans ((congrArg State.cores hext :).trans (congrArg State.cores hnet :))

/-- Stage 5 with the image loaded, if one verifies. -/
def State.xaiskNoted (x : State × Option Image) : State :=
  (x.1.setObj Obj.prog_XAISK_VERSION (match x.2 with | some i => i.version | none => 0)).finishStage 5

theorem exec_bootStage5 (hmay : s.mayEnter 5 = true) : exec .bootStage5 s = .next (State.xaiskNoted ((s.enterStage 5).loadImage 2 3)) := by
  refine (if_pos hmay).trans ?_
  generalize (s.enterStage 5).loadImage 2 3 = x
  obtain ⟨w, _ | i⟩ := x <;> rfl

theorem State.xaiskNoted_spec (x : State × Option Image) : (State.xaiskNoted x).sec.stageDone = 5 ∧
    (State.xaiskNoted x).mem = x.1.mem ∧ (State.xaiskNoted x).cores = x.1.cores ∧
    (∀ k, k ≠ Obj.prog_XAISK_VERSION → (State.xaiskNoted x).obj k = x.1.obj k) ∧
    (State.xaiskNoted x).obj Obj.prog_XAISK_VERSION = (match x.2 with | some i => i.version | none => 0) :=
  ⟨rfl, rfl, rfl, fun _ hk => State.obj_setObj_other _ _ hk, State.obj_setObj_same _ _ _⟩

end

/-! ### Settlement -/

/-- Settles O52: each reset restores the state of reset, and each stage is followed through its moves, images and measurements. -/
theorem resetsAndBootStagesFollowTheirOrder : Obligations.ResetsAndBootStagesFollowTheirOrder := by
  intro s
  refine ⟨fun r hr => ?loss, fun r hr => ?valid, fun n hn => ?pulse, fun n hn hreset h33 h18 => ?low, fun hreset => ?rise,
    fun hup hstage => ?watchdog, fun hmay hstore hlt => ?stage1, fun hmay h0 h1 => ?stage2, fun hmay => ?stage3, fun hmay hpower => ?stage4,
    fun hmay => ?stage5, fun hmay => ?stage6⟩
  case loss =>
    exact ⟨_, congrArg Host.Outcome.next (if_pos hr), (s.restart_restartedBy 0).setRail r false, State.railValid_setRail _ r false⟩
  case valid =>
    have hne : ¬ s.railValid r = true := by rw [hr]; decide
    exact ⟨congrArg Host.Outcome.next (if_neg hne), _, congrArg Host.Outcome.next (if_neg hne), s.setRail_rest r true⟩
  case pulse => exact if_pos (.inl hn)
  case low =>
    have hexec : exec (.resetNLow n) s = _ := if_neg (by rw [hreset]; simp; omega)
    rw [h33, h18] at hexec
    exact ⟨_, hexec, (s.restart_restartedBy 1).setPower _, rfl⟩
  case rise => exact ⟨_, congrArg Host.Outcome.next (if_neg (by rw [hreset]; decide)), rfl, rfl⟩
  case watchdog => exact ⟨_, congrArg Host.Outcome.next (if_pos (by simp [hup, hstage])), s.restart_restartedBy 3⟩
  case stage1 =>
    obtain ⟨cstage, cnow, csealed, cmeasure0, cmeasure1, cmem, ccores, csec, cimages⟩ := s.bootCounted_spec hlt
    have hexec := exec_bootStage1 hmay hstore
    generalize s.bootCounted = c at cstage cnow csealed cmeasure0 cmeasure1 cmem ccores csec cimages hexec
    have hverified {i : Image} := State.managementBooted_verified (s := c) rfl (i := i)
    have hnone := State.managementBooted_none (s := c) rfl
    rw [cimages.imageCheck, cimages.bootSlot, cimages.imageOf, cmeasure1] at hverified
    rw [cimages.imageCheck, cimages.bootSlot, csec] at hnone
    obtain ⟨hrest, hobjs⟩ := State.managementBooted_only (s := c) rfl
    generalize (c.selectImage 1).1.managementLoaded (c.selectImage 1).2 = t at hexec hverified hnone hrest hobjs
    have hkept (k : Nat) (hk : k = Obj.dev_BOOT_STAGE ∨ k = Obj.sec_MEASURE 0) : t.obj k = c.obj k := by
      obtain rfl | rfl := hk
      all_goals exact hobjs _ (by unfold SelectKey RingKey; decide) (by decide) (by decide) (by decide)
    have hft : t.now = c.now := congrArg BitVec.toNat (congrArg State.ft hrest :)
    have hdone : s.sec.stageDone = 0 := by have := (State.mayEnter_iff.1 hmay).2.2.2; omega
    exact ⟨_, hexec, (hkept _ (.inl rfl)).trans cstage, hft.trans cnow, (congrArg State.sealed hrest :).trans csealed,
      (congrArg (leBytes 32) (hkept _ (.inr rfl)) :).trans cmeasure0, (congrArg State.mem hrest :).trans cmem,
      (congrArg State.cores hrest :).trans ccores, fun i hcheck hof => hverified hcheck hof,
      fun ha hb => (congrArg SecSt.stageDone (hnone ha hb)).trans hdone⟩
  case stage2 =>
    obtain ⟨hstage, hmem, hcores, hsealed, himages, hobjs, hinit⟩ :=
      State.enterStage_foldl_toInit (l := [0, 1]) (by decide) (by decide) s 2 rfl
    have hexec (u : State) := exec_bootStage2 hmay h0 h1 (u := u)
    generalize [0, 1].foldl State.toInit (s.enterStage 2) = u at hstage hmem hcores hsealed himages hobjs hinit hexec
    obtain ⟨ustage, udone, udigest, umeasure, umac, ufn, umem, ucores⟩ := u.unconfigured_spec
    have hmeasure : u.measure 2 = s.measure 2 := congrArg (leBytes 32) (hobjs _ (by unfold MoveKey; decide))
    exact ⟨_, hexec u rfl himages, ustage.trans hstage, udone, udigest, by rw [umeasure, hmeasure], by rw [umac, hsealed],
      fun f hf hoff => (ufn f).trans (hinit f (by simp; omega) hoff), umem.trans hmem, ucores.trans hcores⟩
  case stage3 =>
    obtain ⟨hstage, hmem, hcores, -, -, -, hinit⟩ := State.enterStage_foldl_toInit (l := [2]) (by decide) (by decide) s 3 rfl
    have hexec : exec .bootStage3 s = .next ((([2].foldl State.toInit (s.enterStage 3)).loadImage 4 4).1.finishStage 3) := if_pos hmay
    generalize [2].foldl State.toInit (s.enterStage 3) = u at hstage hmem hcores hinit hexec
    obtain ⟨hrest, hkept⟩ := u.loadImage_only 4 4
    generalize (u.loadImage 4 4).1 = t at hexec hrest hkept
    exact ⟨_, hexec, (hkept _ (by unfold SelectKey RingKey; decide) (by decide) (by decide)).trans hstage, rfl,
      fun hoff => (hkept _ (by unfold SelectKey RingKey; decide) (by decide) (by decide)).trans (hinit 2 (by simp) hoff),
      (congrArg State.mem hrest :).trans hmem, (congrArg State.cores hrest :).trans hcores⟩
  case stage4 =>
    obtain ⟨hstage, hmem, hcores, -, -, -, hinit⟩ := State.enterStage_foldl_toInit (l := [3, 4, 6, 5]) (by decide) (by decide) s 4 rfl
    have hexec : exec .bootStage4 s = .next (([3, 4, 6, 5].foldl State.toInit (s.enterStage 4)).finishStage 4) := if_pos ⟨hmay, hpower⟩
    generalize [3, 4, 6, 5].foldl State.toInit (s.enterStage 4) = u at hstage hmem hcores hinit hexec
    exact ⟨_, hexec, hstage, rfl, fun f h3 h6 hoff => hinit f (by simp; omega) hoff, hmem, hcores⟩
  case stage5 =>
    have hentered : SameImages s (s.enterStage 5) := ⟨rfl, rfl, rfl, rfl, rfl, rfl⟩
    have hstage : (s.enterStage 5).obj Obj.dev_BOOT_STAGE = 5 := State.obj_setObj_same s _ _
    have hmeasure : (s.enterStage 5).measure 3 = s.measure 3 := congrArg (leBytes 32) (State.obj_setObj_other s _ (by decide))
    have hmem : (s.enterStage 5).mem = s.mem := rfl
    have hcores : (s.enterStage 5).cores = s.cores := rfl
    have hexec := exec_bootStage5 hmay
    generalize s.enterStage 5 = u at hentered hstage hmeasure hmem hcores hexec
    obtain ⟨hrest, hkept⟩ := u.loadImage_only 2 3
    obtain ⟨xdone, xmem, xcores, xobjs, xversion⟩ := State.xaiskNoted_spec (u.loadImage 2 3)
    refine ⟨_, hexec, (xobjs _ (by decide)).trans ((hkept _ (by unfold SelectKey RingKey; decide) (by decide) (by decide)).trans hstage), xdone,
      fun i hcheck hof => ?_, fun ha hb => ?_, xmem.trans ((congrArg State.mem hrest :).trans hmem),
      xcores.trans ((congrArg State.cores hrest :).trans hcores)⟩
    · have hload := State.loadImage_verified (s := u) (type := 2) (m := 3) (i := i) (by rw [hentered.imageCheck, hentered.bootSlot, hcheck])
        (by rw [hentered.imageOf, hentered.bootSlot, hof])
      obtain ⟨-, -, hextended, -⟩ := u.imageNoted_spec 2 (u.bootSlot 2) 3 i (sm3 i.bytes)
      have hmeasured : (u.loadImage 2 3).1.measure 3 = sm3 (u.measure 3 ++ sm3 i.bytes) := by rw [hload]; exact hextended
      refine ⟨by rw [xversion, hload], ?_⟩
      rw [← hmeasure, ← hmeasured]
      exact congrArg (leBytes 32) (xobjs _ (by decide))
    · have hload := State.loadImage_none (s := u) (type := 2) (m := 3)
        (State.selectImage_none (by rwa [hentered.imageCheck, hentered.bootSlot]) (by rwa [hentered.imageCheck, hentered.bootSlot]))
      rw [xversion, hload]
  case stage6 =>
    obtain ⟨hstage, hmem, hcores, -, -, -, hinit⟩ := State.enterStage_foldl_toInit (l := [8, 9, 10, 11]) (by decide) (by decide) s 6 rfl
    have hexec : exec .bootStage6 s = .next (([8, 9, 10, 11].foldl State.toInit (s.enterStage 6)).finishStage 6) := if_pos hmay
    generalize [8, 9, 10, 11].foldl State.toInit (s.enterStage 6) = u at hstage hmem hcores hinit hexec
    exact ⟨_, hexec, hstage, rfl, fun n hn hoff => hinit (8 + n) (by simp; omega) hoff, hmem, hcores⟩

end Sys2Proof.Machine
end
